-- ==== Sys2Proof/Word.lean ====
section
/-!
DEFINITION. The words of the XK9600 model and the one kind of table the state is made of. Bit vectors are used only for what
the manual reads or writes as bits (register words, command words, memory bytes, FP codes); counts, indexes and
identifiers are `Nat`.
-/

namespace Sys2Proof

/-- A byte of any addressed memory of the part (R13: multi-byte fields are little-endian). -/
abbrev Byte := BitVec 8
/-- A 32-bit field or FP32 code. -/
abbrev Word32 := BitVec 32
/-- A register or command word. -/
abbrev Word64 := BitVec 64

/-- A sparse table by key: keys strictly rising, and (`Tab.put` keeps it) no entry equal to what an unlisted key reads as. -/
abbrev Tab (α : Type) := List (Nat × α)

end Sys2Proof
end

