-- ==== Sys2Proof/Syntax.lean ====
section
/-!
DEFINITION. The commands of the block: one constructor of `Instr` per row of spec/opcode_table.json, in the table's order.
A row is one whole and indivisible step of the part (95_what_each_step_holds.md); its operands say which unit it happens
at and what the world outside the part contributes to it (a host's bytes, a far package's message, a meter's reading).
-/

namespace Sys2Proof

/-- What a read of near memory or of a far tier met in one 64-byte line or page (R206, R218): the physical line and whether
the error is correctable. No entry for a line means the line read clean. -/
structure EccErr where
  stack : Nat
  line : Nat
  correctable : Bool
  deriving DecidableEq, Repr

/-- What host memory answered to a DMA of the package (R428): the bytes, and the offset of the first 64-byte line whose
completion failed, if any. -/
structure HostReply where
  bytes : List Byte
  failAt : Option Nat
  deriving DecidableEq, Repr

/-- A mailbox message the package acts on: the header fields of R407 (path 0..15 a function, 16 the sideband), whether any
reserved header field of R651 is nonzero, the payload, and what host memory answers to the DMA the message asks for. -/
structure Msg where
  path : Nat
  part : Nat
  tag : Word32
  resv : Bool
  payload : List Byte
  host : HostReply
  deriving DecidableEq, Repr

/-- The packet header of R445 with its payload. -/
structure Packet where
  type : Nat
  dst : Nat
  src : Nat
  role : Bool
  poison : Bool
  nm : Bool
  bcast : Bool
  dstRole : Nat
  inter : Nat
  part : Nat
  hops : Nat
  pseq : Nat
  /-- set once the packet has been forwarded under R454 -/
  fwd : Bool
  /-- the stream the packet travels in (R439): virtual channel and hop class (R457) -/
  vc : Nat
  hop : Nat
  args : List Byte
  data : List Byte
  deriving DecidableEq, Repr

/-- An exchange entry (R311): the sender's node and channel, then the 64-byte header's fields and the row data. -/
structure XEntry where
  fromNode : Nat
  fmt : Nat
  expert : Nat
  heat : Nat
  epoch : Nat
  layer : Nat
  rank : Nat
  dropped : Bool
  lap : Nat
  row : Nat
  score : Word32
  count : Nat
  data : List Byte
  deriving DecidableEq, Repr

/-- The four kinds of exchange entry of R311. -/
inductive XKind where
  | row | endSet | ret | pred
  deriving DecidableEq, Repr

/-- A verdict (R342). -/
structure Verdict where
  handle : Nat
  heat : Nat
  lap : Nat
  epoch : Nat
  n : Nat
  acc : Nat
  prefill : Bool
  promptDone : Bool
  tokens : List Nat
  drafts : List Nat
  exits : List Nat
  deriving DecidableEq, Repr

/-- A seal outcome (R353), with the role of the home that sent it (R362). -/
structure OutcomeMsg where
  handle : Nat
  home : Nat
  lap : Nat
  accept : Bool
  a : Nat
  final : Bool
  pending : Nat
  drafts : List Nat
  deriving DecidableEq, Repr

/-- One request's part of a heat descriptor (R300, R338, R362, R377). -/
structure HeatRow where
  handle : Nat
  home : Nat
  session : Nat
  pos0 : Nat
  positions : Nat
  pending : Nat
  drafts : List Nat
  /-- the session at the home whose first `pos0` positions a new session shares (R284, R370) -/
  share : Option Nat
  /-- the tenant whose receipts carry the request's energy (R519) -/
  tenant : Nat
  /-- a prefill chunk that ends the prompt (R342) -/
  promptEnd : Bool
  deriving DecidableEq, Repr

/-- A heat descriptor (R377): heat, lap, epoch, context, kind and rows. -/
structure HeatDesc where
  heat : Nat
  lap : Nat
  epoch : Nat
  ctx : Nat
  part : Nat
  generation : Nat
  prefill : Bool
  rows : List HeatRow
  /-- a lock-step heat (R503) -/
  lockstep : Bool
  deriving DecidableEq, Repr

/-- The far end of one link in a link-state record (R448): state 0 DOWN .. 3 DEGRADED and the far node. -/
structure FarEnd where
  state : Nat
  node : Nat
  deriving DecidableEq, Repr

/-- A link-state record (R448). -/
structure LsRecord where
  node : Nat
  serial : Nat
  grade : Nat
  seq : Nat
  resting : Bool
  roles : List (Nat × Nat)
  links : List FarEnd
  deriving DecidableEq, Repr

/-- What a link's far end sends at IDENTIFY (R435). -/
structure Ident where
  node : Nat
  serial : Nat
  grade : Nat
  link : Nat
  use : Nat
  peer : Nat
  deriving DecidableEq, Repr

/-- A flit as it arrives (R438): its stream, sequence, acknowledgement and payload; `crcOk` is the receiver's check. -/
structure Flit where
  vc : Nat
  hop : Nat
  seq : Nat
  ack : Nat
  nak : Bool
  crcOk : Bool
  fecBad : Bool
  first : Nat
  credits : List (Nat × Nat × Bool × Nat)
  payload : List Byte
  deriving DecidableEq, Repr

/-- What a PAIR message carries (R479). -/
structure PairInfo where
  node : Nat
  role : Nat
  state : Nat
  values : List Word64
  deriving DecidableEq, Repr

/-- What a JOIN carries (R500): the partitions, contexts and models held and the sealed generations with their digests. -/
structure JoinInfo where
  node : Nat
  parts : List Nat
  ctxs : List (Nat × Nat)
  gens : List (Nat × Nat × Nat × List Nat)
  deriving DecidableEq, Repr

/-- A device the far port finds (R212, R213). -/
structure FarFind where
  present : Bool
  linkUp : Bool
  supported : Bool
  lanes : Nat
  rate : Nat
  capGib : Nat
  deriving DecidableEq, Repr

/-- A share report (R520): SHARE_SIGNED. -/
structure ShareMsg where
  handle : Nat
  subject : Nat
  seq : Nat
  final : Bool
  late : Bool
  hash : Nat
  ePrefill : Nat
  eDecode : Nat
  eSpec : Nat
  eResid : Int
  deriving DecidableEq, Repr

/-- The causes a resident context can be blocked by, with the estimate's inputs (R387). -/
inductive BlockCause where
  | handOff
  | farFetch (bytesLeft rate : Nat)
  | pacer (tenant : Nat)
  | genCopy (bytesLeft rate : Nat)
  | idle
  deriving DecidableEq, Repr

/-- Where a link finds FEC lock (R434). -/
inductive LockLanes where
  | all | low | high
  deriving DecidableEq, Repr

/-- Where a message of the message unit comes from when it reaches an inbox or a hurdle: a command of this package's core
and slot (started under `serial`), or a packet of another package. -/
inductive Arrival where
  | near (core slot serial : Nat)
  | far (p : Packet)
  deriving DecidableEq, Repr

/-- Where a poisoned line's clean bytes come from (R208). -/
inductive RewriteSource where
  | twin (bytes : List Byte)
  | farTier
  | secondCopy (bytes : List Byte)
  deriving DecidableEq, Repr

/-- An event that wakes the package (R536). -/
inductive WakeKind where
  | ctlPacket | mailboxCtrl (fn : Nat) | sideband
  deriving DecidableEq, Repr

/-- The registers that have no row of their own and that REGISTER_WRITE and RC_REGISTER_READ reach, by the block that holds them. -/
inductive RegAddr where
  /-- a core's register block at a byte offset (R102, R622) -/
  | core (core off : Nat)
  /-- a 64-bit word of a core's scratchpad or accumulator store, or of a beside ring's 256 entries in die SRAM: written over the row bus by the core's
  starter and the captains, or by the ring's OWNER (R40, R47, R186; log 60) -/
  | spad (core off : Nat) | acc (core off : Nat) | ringEntry (die part off : Nat)
  /-- a Beside die's registers: BSD_CFG, BSD_MEM_STAT, BSD_UE_ADDR, BSD_WP, BSD_RING's OWNER and EN -/
  | besideCfg (die : Nat) | memStat (die : Nat) | ueAddr (die : Nat) | wp (die part i : Nat) | ring (die part : Nat)
  /-- a function's BAR0 at a byte offset, an access of 1, 2, 4 or 8 bytes (R402) -/
  | bar0 (fn off size : Nat)
  | numCfg (die : Nat)
  | placeCfg | wgtCfg | kvCfg | expCfg | specCfg | schedCfg | pacerCfg | fabCfg | twinCfg | govCfg | stateCfg | detCfg
  | kvStat (p : Nat) | expStat (p : Nat) | expLa (p : Nat) | specStat (p : Nat) | schedStat (p : Nat)
  | ftlCfg | ftlStat | fabStat | linkStat (l : Nat) | twinStat | lsLast | govStat | enStat | bootStat | inStat
  /-- a DBG_ register at its offset (R622) -/
  | dbg (off : Nat)
  deriving DecidableEq, Repr

/-- Who writes a register: the access codes and the "written only by" rules depend on it. -/
inductive Writer where
  | host (fn : Nat) | captain | starter (die row : Nat) | debugPort
  deriving DecidableEq, Repr

/-- An SPDM request (R430). -/
inductive SpdmReq where
  | getVersion | getCapabilities | negotiateAlgorithms (asym hash : Nat) | getDigests | getCertificate (slot off len : Nat)
  | challenge (slot : Nat) (nonce : List Byte) | getMeasurements (index : Nat) (nonce : List Byte) | other (code : Nat)
  deriving DecidableEq, Repr

/-- What the ROM and boot firmware find of one firmware image slot (R564): its bytes as they stand in the NOR are read by
the stage itself; this says only the outcome of the physical PUF (R569). -/
structure PufResult where
  rebuilt : Bool
  unwrapped : Bool
  deriving DecidableEq, Repr

/-- One temperature and power reading C4 uses (R529): the 1 ms mean input power in mW and the hottest sensor in °C. -/
structure Reading where
  meanMw : Nat
  hottest : Int
  deriving DecidableEq, Repr

/-- The commands of the part, one constructor per row of the opcode table. -/
inductive Instr where
  /-- FRONT_END_DISPATCH (R62): The front end dispatches the next command of a RUNNING slot, round-robin among slots, after the pre-dispatch checks of R54 and R83. -/
  | frontEndDispatch (core : Nat)
  /-- NOP (R55): Front-end command that does nothing. -/
  | nop (core : Nat) (slot : Nat)
  /-- HARM (R63): Sets a hurdle's mode, target and count once earlier waiters of the slot on that hurdle have passed. -/
  | harm (core : Nat) (slot : Nat)
  /-- HSIG (R80): Adds INC to a hurdle's count when dispatched. -/
  | hsig (core : Nat) (slot : Nat)
  /-- FENCE (R63): Blocks the slot's dispatch until every earlier command in the named queues has completed. -/
  | fence (core : Nat) (slot : Nat)
  /-- END (R50): Completes once all earlier commands of the slot have completed and returns the slot to BOUND with an END record. -/
  | endCmd (core : Nat) (slot : Nat)
  /-- MMA (R72): Matrix product of activation rows and a weight tile into accumulator rows, with optional outlier side path and tally-driven decode width. -/
  | mma (core : Nat)
  /-- ACLR (R61): Clears a range of accumulator rows. -/
  | aclr (core : Nat)
  /-- GMM (R156): Walks a group table of small matrix products under one command. -/
  | gmm (core : Nat)
  /-- GMM_ENTRY (R157): A GMM reads, checks and begins one group-table entry once its hurdle and accumulator overlap allow. -/
  | gmmEntry (core : Nat) (slot : Nat) (serial : Nat)
  /-- GMM_EPILOGUE (R159): The epilogue of a group-table entry converts its accumulator rows and writes output and padding rows once its product has ended. -/
  | gmmEpilogue (core : Nat) (slot : Nat) (serial : Nat)
  /-- ATTN (R269): Fused attention on a Field core: appends new KV rows, scores, softmax and value sum over a descriptor list. -/
  | attn (core : Nat) (walk : List Nat) (errs : List EccErr)
  /-- VOP (R57): Elementwise vector operation selected by VOPC. -/
  | vop (core : Nat)
  /-- VRED (R646): Reduces rows of elements by sum, max or min in a fixed lane tree. -/
  | vred (core : Nat)
  /-- EPI (R59): Reads accumulator rows, adds bias, applies activation, converts and writes output rows with optional padding. -/
  | epi (core : Nat)
  /-- VCVT (R138): Converts between formats, quantizing to block-scaled formats and writing a tally record. -/
  | vcvt (core : Nat)
  /-- ROUTE (R304): Turns router logit rows into choice records with the photo-finish rule. -/
  | route (core : Nat)
  /-- SAMPLE (R553): Draws one token per logit row from seed and position. -/
  | sample (core : Nat)
  /-- LOAD (R647): Moves rows from near memory into the scratchpad, deferring faults when RA = 1. -/
  | load (core : Nat) (errs : List EccErr)
  /-- STORE (R647): Moves rows from the scratchpad to near memory. -/
  | store (core : Nat) (errs : List EccErr)
  /-- STREAM (R75): Starts a run-ahead tile stream from near memory into a ring of scratchpad buffers. -/
  | stream (core : Nat)
  /-- STREAM_TILE_FETCH (R75): The data mover starts fetching the next stream tile once EMPTY_H admits it. -/
  | streamTileFetch (core : Nat) (slot : Nat) (serial : Nat)
  /-- STREAM_TILE_LANDED (R75): A stream tile has fully landed; FULL_H is signalled and the stream completes after its last tile. -/
  | streamTileLanded (core : Nat) (slot : Nat) (serial : Nat) (tile : Nat) (errs : List EccErr)
  /-- SSTOP (R77): Stops every active stream of the slot with a matching tag. -/
  | sstop (core : Nat)
  /-- GATHER (R167): Gathers rows named by a pointer list into a dense operand, filling padding rows. -/
  | gather (core : Nat) (errs : List EccErr)
  /-- SPCOPY (R648): Copies bytes within the scratchpad window. -/
  | spcopy (core : Nat)
  /-- RACONF (R78): Confirms a run-ahead LOAD tag, faulting with DEFERRED when a fault is held for it. -/
  | raconf (core : Nat)
  /-- RADROP (R78): Removes a tag's entry from the deferred table. -/
  | radrop (core : Nat)
  /-- PUT (R87): Sends a message into a destination inbox through a send channel, consuming a credit. -/
  | put (core : Nat)
  /-- RSIG (R80): Sends a hurdle increment to a remote core through a channel. -/
  | rsig (core : Nat)
  /-- FLOAD (R462): Fabric load from a tray address into the scratchpad. -/
  | fload (core : Nat) (errs : List EccErr)
  /-- FSTORE (R462): Fabric store from the scratchpad to a tray address. -/
  | fstore (core : Nat) (errs : List EccErr)
  /-- FATOM (R463): Fabric atomic operation on a tray address. -/
  | fatom (core : Nat) (errs : List EccErr)
  /-- IPOP (R89): Releases inbox entries and returns their credits. -/
  | ipop (core : Nat)
  /-- COMMAND_COMPLETE (R80): A started command completes; it signals its hurdle and writes a MARK record when asked. -/
  | commandComplete (core : Nat) (slot : Nat) (serial : Nat)
  /-- TAIL_WRITE (R645): FLD_SLOT_CTRL write with OP = 0 writes TAIL and TSTAGE and may fire the slot. -/
  | tailWrite (core : Nat) (slot : Nat) (value : Word64)
  /-- BIND (R45): Binds an UNBOUND slot from FLD_SLOT_CFG, or refuses it with BIND_ERR. -/
  | bind (core : Nat) (slot : Nat)
  /-- UNBIND (R50): Returns a BOUND or PAUSED slot to UNBOUND and closes its inboxes. -/
  | unbind (core : Nat) (slot : Nat)
  /-- PAUSE (R50): Withdraws unstarted commands and lets started ones drain toward PAUSED. -/
  | pause (core : Nat) (slot : Nat)
  /-- RESUME (R51): Continues dispatch of a PAUSED slot from HEAD, resuming streams and GMMs. -/
  | resume (core : Nat) (slot : Nat)
  /-- STOP (R50): Discards unstarted commands, stops streams and clears the deferred table. -/
  | stop (core : Nat) (slot : Nat)
  /-- CLEAR (R50): Returns a FROZEN slot to BOUND as STOP does, keeping the fault record. -/
  | clear (core : Nat) (slot : Nat)
  /-- RESTORE (R52): Sets HEAD and TAIL of a restored slot and moves it to PAUSED without fetching. -/
  | restore (core : Nat) (slot : Nat) (value : Word64)
  /-- SLOT_DRAINED (R50): Started work of a pausing or stopping slot has drained, and the PAUSED or STOPPED record is written. -/
  | slotDrained (core : Nat) (slot : Nat)
  /-- ROW_FIRE (R98): FLD_ROW_FIRE copies TSTAGE to TAIL in one slot of every masked core in one cycle. -/
  | rowFire (die : Nat) (row : Nat) (value : Word64)
  /-- INBOX_ARRIVAL (R465): A PUT reaches its destination inbox and is accepted or rejected; an accepted entry is written whole and may signal the arrival hurdle. -/
  | inboxArrival (a : Arrival)
  /-- RSIG_ARRIVAL (R80): A remote hurdle increment arrives and is applied. -/
  | rsigArrival (a : Arrival)
  /-- CREDIT_RETURN (R89): A credit returned by IPOP reaches its sending channel. -/
  | creditReturn (core : Nat) (chan : Nat)
  /-- WATCHDOG_EXPIRY (R96): A head command has waited longer than FLD_WDOG and faults with WATCHDOG. -/
  | watchdogExpiry (core : Nat) (slot : Nat) (engine : Nat)
  /-- COMPLETION_RECORD_WRITE (R100): A completion record held for lack of queue room is written once room appears, releasing the slot's dispatch. -/
  | completionRecordWrite (core : Nat)
  /-- STARTER_FAULT (R101): A starter core faults and C1 marks its row unavailable. -/
  | starterFault (die : Nat) (row : Nat)
  /-- INBOX_ENABLE (R84): Write to FLD_INBOX that enables an inbox, refused when its ring or sizes are invalid. -/
  | inboxEnable (core : Nat) (inbox : Nat) (value : Word64)
  /-- CHAN_ENABLE (R40): Write to FLD_CHAN that enables a channel, refused for disabled or nonexistent cores, and restarting SEQ at 0. -/
  | chanEnable (core : Nat) (chan : Nat) (value : Word64)
  /-- FAULT_VALID_CLEAR (R105): Writing 1 to VALID of FLD_CORE_FAULT clears the fault record and MORE. -/
  | faultValidClear (core : Nat) (slot : Nat)
  /-- REGISTER_WRITE (R19): Write to a register field without behaviour of its own, including W1C bits. -/
  | registerWrite (w : Writer) (r : RegAddr) (value : Word64)
  /-- RC_REGISTER_READ (R19): Read of an RC register field returns and clears it. -/
  | rcRegisterRead (w : Writer) (r : RegAddr)
  /-- BMV (R184): Beside-engine matrix product on weights in the engine's own stack. -/
  | bmv (die : Nat) (part : Nat) (errs : List EccErr)
  /-- BATTN (R270): Fused attention run on a gang of beside engines. -/
  | battn (die : Nat) (part : Nat) (errs : List EccErr)
  /-- BNOP (R183): Beside-ring command that does nothing. -/
  | bnop (die : Nat) (part : Nat)
  /-- BESIDE_COMMAND_COMPLETE (R192): A beside command completes and signals its hurdle and mark. -/
  | besideCommandComplete (die : Nat) (part : Nat) (index : Nat)
  /-- BSD_RING_TAIL_WRITE (R196): OWNER starter writes a beside ring's TAIL, starting the ring. -/
  | bsdRingTailWrite (die : Nat) (part : Nat) (starter : Nat) (tail : Nat)
  /-- BSD_RING_CLEAR (R196): CLEAR returns a STOPPED beside ring to IDLE with HEAD = TAIL. -/
  | bsdRingClear (die : Nat) (part : Nat) (starter : Nat)
  /-- BSD_PART_MAP_WRITE (R180): A captain writes a partition's near range on a Beside die, refused when it overlaps or leaves the stack. -/
  | bsdPartMapWrite (die : Nat) (part : Nat) (value : Word64)
  /-- SCRUB (R209): The scrubber reads the next line of its stack on its schedule. -/
  | scrub (die : Nat) (errs : List EccErr)
  /-- POISON_REWRITE (R208): Package firmware rewrites a poisoned line from the twin, the far tier, the mirror or the second copy. -/
  | poisonRewrite (die : Nat) (line : Nat) (src : RewriteSource)
  /-- FAR_PORT_ENUMERATE (R213): Package firmware enumerates the CXL far port at boot or when a link comes up. -/
  | farPortEnumerate (found : List FarFind)
  /-- CXL_DEVICE_LOSS (R214): A CXL device reports viral, is removed or loses link, damaging its objects. -/
  | cxlDeviceLoss (dev : Nat)
  /-- FTL_RELOCATE (R216): The FTL relocates a NAND block whose read count reaches RD_LIMIT. -/
  | ftlRelocate (block : Nat) (target : Nat)
  /-- FTL_REFRESH (R216): The FTL rewrites a block whose retention period expires. -/
  | ftlRefresh (block : Nat) (target : Nat)
  /-- OBJECT_TTL_EXPIRY (R222): A sealed object's deadline is reached and it is freed or becomes EXPIRING. -/
  | objectTtlExpiry (obj : Nat)
  /-- OBJECT_READ_END (R222): The last read of an EXPIRING object ends and the object is freed. -/
  | objectReadEnd (obj : Nat)
  /-- LOAD_WINDOW_WRITE (R404): A write into a BAR2 aperture is stored into an image and counted, or dropped. -/
  | loadWindowWrite (fn : Nat) (ap : Nat) (x : Nat) (data : List Byte)
  /-- CHUNK_HASHED (R233): The hash engine finishes a 64 MiB chunk. -/
  | chunkHashed (part : Nat) (ref : Nat) (image : Nat) (chunk : Nat)
  /-- RELAY_CHUNK (R236): A relay target receives a chunk, writes and counts it, acknowledges and forwards it. -/
  | relayChunk (src : Nat) (part : Nat) (gen : Nat) (image : Nat) (chunk : Nat) (data : List Byte)
  /-- RELAY_CHUNK_ACK (R236): A relay source receives a target's chunk acknowledgement. -/
  | relayChunkAck (node : Nat) (part : Nat) (gen : Nat) (image : Nat) (chunk : Nat)
  /-- GEN_PREPARE (R242): A package receives a Pinned activation PREPARE and votes. -/
  | genPrepare (src : Nat) (part : Nat) (model : Nat) (gen : Nat)
  /-- GEN_VOTE (R242): The coordinator receives an activation vote and commits or aborts when all are in. -/
  | genVote (src : Nat) (part : Nat) (model : Nat) (gen : Nat) (yes : Bool)
  /-- GEN_COMMIT (R242): A package receives activation COMMIT and admits only on the new generation. -/
  | genCommit (part : Nat) (model : Nat) (gen : Nat)
  /-- CUT_PREPARE (R243): A package receives a cut-over PREPARE and votes with its lowest unstarted lap. -/
  | cutPrepare (src : Nat) (part : Nat) (model : Nat) (gen : Nat) (images : Nat)
  /-- CUT_VOTE (R243): The cut-over coordinator receives a vote and sends COMMIT with the cut lap when all are yes. -/
  | cutVote (src : Nat) (part : Nat) (model : Nat) (lowest : Nat) (yes : Bool)
  /-- CUT_VOTE_TIMEOUT (R243): The coordinator's CUT_TO_MS / 2 wait for votes expires and it sends ABORT. -/
  | cutVoteTimeout (part : Nat) (model : Nat)
  /-- CUT_COMMIT (R243): A package receives cut-over COMMIT and forwards it once to every package of the job. -/
  | cutCommit (part : Nat) (model : Nat) (cutLap : Nat)
  /-- CUT_ABORT (R243): A package receives cut-over ABORT and changes nothing. -/
  | cutAbort (part : Nat) (model : Nat)
  /-- CUT_TIMEOUT (R243): CUT_TO_MS passes after a package's vote with no COMMIT or ABORT, and it aborts. -/
  | cutTimeout (part : Nat) (model : Nat)
  /-- CUTOVER_COPY (R244): Between laps L - 1 and L a package copies the named images into the old near ranges. -/
  | cutoverCopy (part : Nat) (model : Nat) (errs : List EccErr)
  /-- CUTOVER_COPY_DONE (R244): The cut-over copy completes, the ranges are re-protected and lap L may start. -/
  | cutoverCopyDone (part : Nat) (model : Nat)
  /-- CACHE_FETCH_START (R250): A demand or predicted expert-cache fetch starts when a victim slot is available. -/
  | cacheFetchStart (part : Nat) (stack : Nat)
  /-- CACHE_FETCH_COMPLETE (R250): A cold unit fetch completes and its slot becomes READY, or fails. -/
  | cacheFetchComplete (part : Nat) (stack : Nat) (slot : Nat) (ok : Bool)
  /-- RING_PAGE_FETCH (R252): C7 fetches the next stream page into a window-ring page once that page is released. -/
  | ringPageFetch (part : Nat)
  /-- RING_PAGE_FETCH_DONE (R252): A stream page has landed in its window-ring page. -/
  | ringPageFetchDone (part : Nat) (page : Nat) (ok : Bool)
  /-- SEAL_OUTCOME (R281): A holder receives a seal outcome and applies A to the request's lists. -/
  | sealOutcome (o : OutcomeMsg)
  /-- MIRROR_APPEND (R282): A twin receives KV append bytes and writes them into its mirror page, then acknowledges. -/
  | mirrorAppend (src : Nat) (session : Nat) (layer : Nat) (head : Nat) (pos : Nat) (fmt : Nat) (data : List Byte)
  /-- MIRROR_ACK (R283): A package receives its twin's acknowledgement of a KV append. -/
  | mirrorAck (session : Nat) (layer : Nat) (head : Nat) (pos : Nat) (count : Nat)
  /-- HEAT_FETCH (R292): The starter fetches a heat and allocates frames, dropping sessions when a pool is short. -/
  | heatFetch (heat : Nat)
  /-- PARK_IDLE_EXPIRY (R285): A session has stayed HELD for PARK_IDLE_MS and the home starts parking it. -/
  | parkIdleExpiry (session : Nat)
  /-- PARK_ORDER (R287): A package ordered to park a session builds, writes and seals its park record. -/
  | parkOrder (session : Nat) (errs : List EccErr)
  /-- PARK_REPORT (R285): The home receives a package's report that its park record is sealed or failed. -/
  | parkReport (session : Nat) (node : Nat) (ok : Bool)
  /-- RESUME_ORDER (R291): A package reads its park record, writes and mirrors the pages and rebuilds the KV map. -/
  | resumeOrder (session : Nat)
  /-- RESUME_REPORT (R285): The home receives a package's resumption report, or a read failure. -/
  | resumeReport (session : Nat) (node : Nat) (ok : Bool)
  /-- SESSION_DROP_REPORT (R294): The home receives a drop report and orders every holder to free the session. -/
  | sessionDropReport (session : Nat) (node : Nat)
  /-- DISPATCH_ROW (R311): An owner receives a ROW exchange entry, processed, held or discarded by epoch. -/
  | dispatchRow (e : XEntry)
  /-- DISPATCH_END (R313): An owner receives an END entry; on a complete dispatch set it decides drops. -/
  | dispatchEnd (e : XEntry)
  /-- EXPERT_RET (R314): A routing package receives a RET entry for one of its rows. -/
  | expertRet (e : XEntry)
  /-- PRED_ENTRY (R325): An owner receives a PRED entry and orders or starts predicted work. -/
  | predEntry (e : XEntry) (experts : List Nat)
  /-- HEAT_CANCEL (R317): A package receives HEAT_CANCEL, advances the epoch and stops the heat's lap. -/
  | heatCancel (heat : Nat) (epoch : Nat)
  /-- DRAFT_PROPOSALS (R339): The verifier receives sampled tokens and draft proposals from another combining package. -/
  | draftProposals (src : Nat) (heat : Nat) (lap : Nat) (handle : Nat) (tokens : List (Nat × Nat)) (drafts : List Nat)
  /-- VERDICT (R342): The home's C2 receives a verdict for a request's lap. -/
  | verdict (v : Verdict) (side : Nat)
  /-- LAP_DONE (R349): The home's C2 receives LAP_DONE from a package of the heat. -/
  | lapDone (role : Nat) (heat : Nat) (lap : Nat) (epoch : Nat)
  /-- PACER_ADMIT (R374): The pacer admits an admissible queue head and binds generation, adapter and session. -/
  | pacerAdmit
  /-- HEAT_FORM (R377): C1 forms a heat from ready requests and sends its descriptor to the first stage. -/
  | heatForm (ctx : Nat) (prefill : Bool)
  /-- HEAT_DESCRIPTOR (R377): A first-stage package receives a heat descriptor. -/
  | heatDescriptor (d : HeatDesc)
  /-- CONTEXT_BLOCKED (R387): A resident context has started no command for BLOCK_US and counts as blocked. -/
  | contextBlocked (ctx : Nat) (causes : List BlockCause)
  /-- CONTEXT_BRING_IN (R386): C1 brings a runnable BENCHED context in. -/
  | contextBringIn (ctx : Nat)
  /-- EVICTION (R388): C1 applies the bench rule and PAUSEs every slot of the first candidate. -/
  | eviction (part : Nat)
  /-- EVICT_TIMEOUT (R388): 50 µs pass without every slot PAUSED; the candidate is resumed and EVICT_ABORT counted. -/
  | evictTimeout (part : Nat)
  /-- EVICT_SAVE (R388): Every slot of the candidate has reported PAUSED; its state is saved and the beneficiary brought in. -/
  | evictSave (part : Nat)
  /-- FAULT_RECORD (R390): C1 receives a FAULT record and ends the affected requests, clears the slot and counts toward FAULT_LIMIT. -/
  | faultRecord (die : Nat) (row : Nat)
  /-- SLOWDOWN_REPORT (R394): Every REPORT_MS C1 computes and posts per-context slowdown entries. -/
  | slowdownReport (part : Nat)
  /-- LEDGER_FREE (R364): A ledger entry is freed once its record is posted or withheld, every LAP_DONE is in and its last receipt is signed. -/
  | ledgerFree (index : Nat)
  /-- CMD_SLOT_TAKE (R408): The package takes a command slot with OWN = 1 at CMD_HEAD and acts on its message after the checks of R418. -/
  | cmdSlotTake (fn : Nat) (host : HostReply)
  /-- EVT_SLOT_RETURN (R409): The host returns an event slot, letting a backlogged event be posted. -/
  | evtSlotReturn (fn : Nat) (slot : Nat)
  /-- COAL_INTERVAL (R417): A coalescing interval ends and the vector fires if an event arrived. -/
  | coalInterval (fn : Nat) (vector : Nat)
  /-- FLR (R405): Function level reset of one function, ending its requests with FUNCTION_RESET. -/
  | flr (fn : Nat)
  /-- HOT_RESET (R405): A hot reset acts as an FLR of every function. -/
  | hotReset
  /-- VF_DISABLE (R405): Lowering NumVFs disables a virtual function as an FLR does. -/
  | vfDisable (numVfs : Nat)
  /-- HOST_LINK_TRAINED (R398): The host link completes training, possibly degraded, and SYS.CAPS_CHANGED may be posted. -/
  | hostLinkTrained (width : Nat) (rate : Nat)
  /-- SIDEBAND_MESSAGE (R431): A mailbox message arrives whole on the I3C sideband. -/
  | sidebandMessage (hdr : List Byte) (payload : List Byte)
  /-- SPDM_REQUEST (R430): An SPDM request arrives over DOE or MCTP and is answered. -/
  | spdmRequest (doe : Bool) (q : SpdmReq)
  /-- SYS_CAPS (R425): Returns the capability record for the function. -/
  | sysCaps (m : Msg)
  /-- SYS_SETTINGS_GET (R652): Returns the applied values of named settings fields. -/
  | sysSettingsGet (m : Msg)
  /-- SYS_SETTINGS_SET (R427): Applies all or none of a set of settings entries. -/
  | sysSettingsSet (m : Msg)
  /-- SYS_SETTINGS_COMMIT (R583): Snapshots running settings and writes them as a new bank. -/
  | sysSettingsCommit (m : Msg)
  /-- SYS_TENANT_SET (R371): Writes a tenant table entry. -/
  | sysTenantSet (m : Msg)
  /-- SYS_TENANT_GET (R420): Returns a tenant table entry. -/
  | sysTenantGet (m : Msg)
  /-- SYS_RESET (R586): Responds and then starts a warm reset. -/
  | sysReset (m : Msg)
  /-- SYS_WAKE (R432): Sideband message that wakes the package from DORMANT. -/
  | sysWake (m : Msg)
  /-- PAR_CREATE (R379): Creates a partition with its resources. -/
  | parCreate (m : Msg)
  /-- PAR_DESTROY (R381): Destroys a STOPPED partition without contexts or generations. -/
  | parDestroy (m : Msg)
  /-- PAR_STOP (R381): Stops a partition, cancelling heats and ending requests. -/
  | parStop (m : Msg)
  /-- PAR_START (R381): Returns a STOPPED partition to ACTIVE. -/
  | parStart (m : Msg)
  /-- PAR_RESET (R381): Partition reset: stops, clears slots, destroys contexts and closes sessions. -/
  | parReset (m : Msg)
  /-- PAR_CTX_CREATE (R383): Creates a context on a slot index of its footprint. -/
  | parCtxCreate (m : Msg)
  /-- PAR_CTX_DESTROY (R385): Destroys a BENCHED or FAILED context with no live requests. -/
  | parCtxDestroy (m : Msg)
  /-- PAR_STATS (R394): Returns the per-context slowdown entries. -/
  | parStats (m : Msg)
  /-- PAR_KV_FMT_SET (R262): Changes the partition's KV write format. -/
  | parKvFmtSet (m : Msg)
  /-- MDL_BUNDLE_LOAD (R171): Loads a program bundle and runs the loader checks. -/
  | mdlBundleLoad (m : Msg)
  /-- MDL_BUNDLE_UNLOAD (R573): Removes a bundle from the partition. -/
  | mdlBundleUnload (m : Msg)
  /-- MDL_GEN_CREATE (R231): Creates a generation from an image map. -/
  | mdlGenCreate (m : Msg)
  /-- MDL_GEN_SEAL (R234): Seals a fully hashed generation and returns its image digests. -/
  | mdlGenSeal (m : Msg)
  /-- MDL_GEN_STATUS (R421): Returns a generation's loading status. -/
  | mdlGenStatus (m : Msg)
  /-- MDL_GEN_ACTIVATE (R242): Starts a Pinned activation with this package as coordinator. -/
  | mdlGenActivate (m : Msg)
  /-- MDL_GEN_CUTOVER (R243): Starts a cut-over to a STAGED generation with this package as coordinator. -/
  | mdlGenCutover (m : Msg)
  /-- MDL_GEN_DELETE (R239): Deletes a generation that is not LIVE or DRAINING. -/
  | mdlGenDelete (m : Msg)
  /-- MDL_RELAY (R236): Relays named images to target packages chunk by chunk. -/
  | mdlRelay (m : Msg)
  /-- MDL_ADAPTER_LOAD (R254): Loads an adapter into a free slot. -/
  | mdlAdapterLoad (m : Msg)
  /-- MDL_ADAPTER_REPLACE (R256): Loads a replacement image for an adapter ID. -/
  | mdlAdapterReplace (m : Msg)
  /-- MDL_ADAPTER_UNLOAD (R254): Unmaps an adapter ID and retires its slot. -/
  | mdlAdapterUnload (m : Msg)
  /-- TIR_CREATE (R221): Creates a far-tier object. -/
  | tirCreate (m : Msg)
  /-- TIR_WRITE (R222): Writes host data into a WRITING object. -/
  | tirWrite (m : Msg)
  /-- TIR_READ (R222): Reads a sealed object into host memory. -/
  | tirRead (m : Msg)
  /-- TIR_SEAL (R222): Seals a WRITING object. -/
  | tirSeal (m : Msg)
  /-- TIR_DELETE (R222): Deletes an object. -/
  | tirDelete (m : Msg)
  /-- TIR_STATUS (R421): Returns an object's state. -/
  | tirStatus (m : Msg)
  /-- MEM_READ (R421): Copies partition near memory to host memory. -/
  | memRead (m : Msg)
  /-- MEM_WRITE (R428): Copies host memory into partition near memory. -/
  | memWrite (m : Msg)
  /-- REQ_SUBMIT (R424): Submits a request and allocates its ledger entry. -/
  | reqSubmit (m : Msg)
  /-- REQ_CANCEL (R355): Orders the end of a request against its seals. -/
  | reqCancel (m : Msg)
  /-- REQ_STATUS (R363): Returns a request's ledger entry. -/
  | reqStatus (m : Msg)
  /-- REQ_SESSION_OPEN (R367): Opens a session. -/
  | reqSessionOpen (m : Msg)
  /-- REQ_SESSION_CLOSE (R285): Closes a session and frees its state. -/
  | reqSessionClose (m : Msg)
  /-- REQ_PARK (R285): Asks the home to park a HELD session. -/
  | reqPark (m : Msg)
  /-- ENG_CAP_SET (R532): Sets the power cap. -/
  | engCapSet (m : Msg)
  /-- ENG_PACE_SET (R532): Sets boost or fixed-pace mode and frequency. -/
  | engPaceSet (m : Msg)
  /-- ENG_STATUS (R512): Returns power state, mode, cap, frequency, power and energy. -/
  | engStatus (m : Msg)
  /-- ENG_ANNOUNCE (R537): Sets the function's next announced work deadline. -/
  | engAnnounce (m : Msg)
  /-- FAB_LINK_PLAN (R451): Replaces the running link plan. -/
  | fabLinkPlan (m : Msg)
  /-- FAB_STATUS (R422): Returns node, role and link states. -/
  | fabStatus (m : Msg)
  /-- FAB_TWIN_STATUS (R479): Returns the pair state. -/
  | fabTwinStatus (m : Msg)
  /-- FAB_LOCKSTEP_SET (R503): Enables or disables lock-step for a context. -/
  | fabLockstepSet (m : Msg)
  /-- DBG_WHISTLE (R608): Blows or releases a package or appliance whistle. -/
  | dbgWhistle (m : Msg)
  /-- DBG_SCOREBOARD (R615): Freezes or returns the scoreboard image. -/
  | dbgScoreboard (m : Msg)
  /-- DBG_TENSOR_WATCH (R619): Arms or disarms a tensor watch. -/
  | dbgTensorWatch (m : Msg)
  /-- DEFERRED_COMMAND_DONE (R411): A deferred command finishes in the background and its response is posted. -/
  | deferredCommandDone (path : Nat) (tag : Word32) (host : HostReply) (errs : List EccErr) (ok : Bool)
  /-- LINK_SIGNAL_DETECT (R434): Signal is detected on a DOWN link and training begins. -/
  | linkSignalDetect (link : Nat)
  /-- LINK_LOCK (R434): A training link achieves FEC lock on four or two lanes and enters IDENTIFY. -/
  | linkLock (link : Nat) (lanes : LockLanes)
  /-- TRAIN_TIMEOUT (R434): TRAIN_MS elapses in TRAINING and the link goes DOWN. -/
  | trainTimeout (link : Nat)
  /-- TRAIN_RETRY (R434): Training is retried 100 ms after a training timeout. -/
  | trainRetry (link : Nat)
  /-- LINK_IDENTIFY (R435): Identities are exchanged and the link goes UP or DEGRADED, or DOWN as MISWIRED. -/
  | linkIdentify (link : Nat) (ident : Ident)
  /-- IDENTIFY_RETRY (R434): Identify of a miswired link is retried every 1 s. -/
  | identifyRetry (link : Nat)
  /-- LINK_FAULT (R458): A link is declared DOWN and affected routes switch to backups. -/
  | linkFault (link : Nat)
  /-- LANE_LOSS (R434): One lane of an UP link loses lock and the link retrains. -/
  | laneLoss (link : Nat) (lane : Nat)
  /-- FLIT_RECEIVE (R436): A receiver checks a flit's CRC and acknowledges or NAKs it. -/
  | flitReceive (link : Nat) (f : Flit)
  /-- FLIT_NAK (R436): A sender receives a NAK and resends from the NAKed flit. -/
  | flitNak (link : Nat) (seq : Nat)
  /-- LINK_STATE_RECORD (R448): A package receives a link-state record and recomputes its database, routes and heads. -/
  | linkStateRecord (r : LsRecord)
  /-- RECORD_REFLOOD (R448): A package refloods its link-state record at least every 10 ms. -/
  | recordReflood
  /-- RECORD_AGE_OUT (R448): A node whose record is 50 ms old is removed from the database. -/
  | recordAgeOut (node : Nat)
  /-- LINK_RESYNC (R458): The ends of a failed link exchange last accepted flits and resend later flits. -/
  | linkResync (link : Nat) (lastAccepted : Nat)
  /-- RESYNC_TIMEOUT (R458): No answer within 3 µs; nothing is resent and transactions end. -/
  | resyncTimeout (link : Nat)
  /-- PACKET_ROUTE (R455): A packet not at its destination is routed onward, dropped at HOPS = 8 or forwarded by role. -/
  | packetRoute (p : Packet)
  /-- CTL_MSG (R460): A CTL packet arrives; duplicates are discarded and broadcast copies forwarded by heads. -/
  | ctlMsg (src : Nat) (pseq : Nat) (bcast : Bool) (code : Nat) (payload : List Byte)
  /-- FW_PACKET (R446): A firmware message packet arrives on REQ or BLK. -/
  | fwPacket (p : Packet)
  /-- LOAD_PACKET (R464): A target serves a fabric load request with LOAD_DATA. -/
  | loadPacket (p : Packet) (errs : List EccErr)
  /-- STORE_PACKET (R465): A target applies a fabric store and answers DONE. -/
  | storePacket (p : Packet) (errs : List EccErr)
  /-- ATOMIC_PACKET (R463): A target's atomic unit applies an atomic and returns the old value. -/
  | atomicPacket (p : Packet) (errs : List EccErr)
  /-- PUT_ACK (R465): A sender receives ACCEPT or REJECT for a PUT or RSIG. -/
  | putAck (core : Nat) (chan : Nat) (seq : Nat) (accept : Bool) (reason : Nat)
  /-- PUT_RESEND (R465): The backoff wait after a REJECT ends and the PUTs are resent in SEQ order. -/
  | putResend (core : Nat) (chan : Nat)
  /-- CREDIT_PACKET (R468): A CREDIT packet returns inbox credits to a remote channel. -/
  | creditPacket (core : Nat) (chan : Nat) (credits : Nat)
  /-- LOAD_DATA (R465): FLOAD data arrives and is written to the scratchpad. -/
  | loadData (txn : Nat) (data : List Byte) (poisonLine : Option Nat) (sub : Nat)
  /-- DONE_PACKET (R465): A DONE response completes an FSTORE or firmware transfer. -/
  | donePacket (txn : Nat) (sub : Nat) (bytes : Nat)
  /-- ATOMIC_DATA (R465): An atomic's old value arrives and completes the FATOM. -/
  | atomicData (txn : Nat) (sub : Nat) (old : Word64)
  /-- FABRIC_TIMEOUT (R464): No response within FAB_TO_US; the transaction ends with TIMEOUT. -/
  | fabricTimeout (txn : Nat)
  /-- RD_S (R471): The directory receives a request for a line in S. -/
  | rdS (line : Nat) (errs : List EccErr)
  /-- RD_M (R471): The directory receives a request for a line in M. -/
  | rdM (line : Nat) (needData : Bool) (errs : List EccErr)
  /-- COH_DATA (R471): The line cache receives a DATA grant. -/
  | cohData (line : Nat) (modified : Bool) (poison : Bool) (data : Option (List Byte))
  /-- INV (R471): The line cache is told to drop an S copy. -/
  | inv (line : Nat)
  /-- RECALL (R471): The line cache is told to return and drop an M copy. -/
  | recall (line : Nat)
  /-- COH_ACK (R471): The directory receives an ACK to INV or RECALL. -/
  | cohAck (line : Nat) (noData : Bool)
  /-- WB (R472): The directory receives a written-back M line. -/
  | wb (line : Nat) (poisoned : Bool) (data : List Byte)
  /-- EVICT (R471): The directory learns an S line was dropped. -/
  | evict (line : Nat)
  /-- WB_ACK (R471): The line cache learns an eviction writeback was applied. -/
  | wbAck (line : Nat)
  /-- PAIR (R479): A PAIR message is exchanged and the pair state changes. -/
  | pair (info : PairInfo)
  /-- PAIR_RETRY (R479): PAIR is retried every 1 s while PAIR_ERR holds. -/
  | pairRetry
  /-- HEARTBEAT_SEND (R486): C5 sends a heartbeat on every UP twin link every HB_US. -/
  | heartbeatSend
  /-- HEARTBEAT (R486): A heartbeat from the twin arrives, clearing suspicion and ISOLATED. -/
  | heartbeat (link : Nat)
  /-- HB_MISS_EXPIRY (R486): No heartbeat for HB_MISS_US; the twin is suspected and probed. -/
  | hbMissExpiry
  /-- TWIN_YIELD (R489): A TWIN_YIELD arrives and the twin is declared lost. -/
  | twinYield (src : Nat)
  /-- PROBE (R487): A witness receives a probe and forwards it to the twin. -/
  | probe (src : Nat) (target : Nat)
  /-- PROBE_REPLY_TIMEOUT (R487): The twin does not reply within PROBE_US / 2 and the witness answers DEAD. -/
  | probeReplyTimeout
  /-- PROBE_ANSWER (R489): C5 receives ALIVE or DEAD from the witness. -/
  | probeAnswer (src : Nat) (alive : Bool)
  /-- PROBE_NO_ANSWER (R488): No witness answers within PROBE_US and the package sets ISOLATED. -/
  | probeNoAnswer
  /-- ROLE_MOVE (R490): A package updates its role table, fences the old node and rewrites channels. -/
  | roleMove (role : Nat) (oldNode : Nat) (newNode : Nat) (epoch : Nat)
  /-- HANDOFF_OK (R485): A package receives its twin's HANDOFF_OK for a heat's lap. -/
  | handoffOk (heat : Nat) (lap : Nat)
  /-- LAP_REPLAY (R494): A package advances the heat epoch and restarts the stage from kept input. -/
  | lapReplay (heat : Nat) (lap : Nat) (epoch : Nat)
  /-- SEAL_MIRROR (R483): The twin receives a seal record and acknowledges it. -/
  | sealMirror (handle : Nat) (lap : Nat) (tokens : List Nat)
  /-- SEAL_MIRROR_ACK (R483): C2 receives the twin's acknowledgement and posts the seal's tokens. -/
  | sealMirrorAck (handle : Nat) (lap : Nat)
  /-- SEAL_QUERY (R496): A holder answers with the last lap whose outcome it applied. -/
  | sealQuery (src : Nat) (handle : Nat)
  /-- SEAL_QUERY_REPLY (R496): The survivor reconciles an adopted request's seal from a holder's reply. -/
  | sealQueryReply (src : Nat) (handle : Nat) (lap : Nat) (a : Nat)
  /-- JOIN (R500): The survivor receives JOIN and accepts it or answers JOIN_WAIT. -/
  | join (info : JoinInfo)
  /-- JOIN_RETEST (R500): Every 100 ms the survivor tests a waiting JOIN again. -/
  | joinRetest
  /-- REJOIN_COPY_DONE (R502): The rejoin copy completes and the survivor starts returning the role at a lap L. -/
  | rejoinCopyDone
  /-- CHECKPOINT (R504): The comparator receives a twin's checkpoint digest and compares it. -/
  | checkpoint (heat : Nat) (lap : Nat) (layer : Nat) (tensor : Nat) (digest : BitVec 256) (own : Bool)
  /-- LS_WAIT_EXPIRY (R505): The twin's digest has not arrived within LS_WAIT_US; a mismatch is declared. -/
  | lsWaitExpiry (heat : Nat) (lap : Nat) (layer : Nat) (tensor : Nat)
  /-- METER_SAMPLE (R510): The input meter and power stages report every 10 µs and counters advance. -/
  | meterSample (inputUj : Nat) (mw : Nat) (vin : Nat) (stages : List Nat)
  /-- COEF_REFIT (R515): Every second C3 refits the activity coefficients. -/
  | coefRefit (fit : Option (List Nat))
  /-- RECONCILE (R517): At the end of a reconciliation interval C3 distributes the residual and closes shares. -/
  | reconcile
  /-- SHARE_OPEN (R520): The home receives SHARE_OPEN for a new chain. -/
  | shareOpen (home : Nat) (handle : Nat) (subject : Nat)
  /-- SHARE_SIGNED (R520): The home receives SHARE_SIGNED and updates its totals. -/
  | shareSigned (m : ShareMsg)
  /-- BLOCK_CLOSE (R526): C3 closes a receipt block when full or when its oldest receipt has waited SIGN_MS. -/
  | blockClose (chain : Nat)
  /-- BLOCK_SIGNED (R526): The enclave finishes signing a block and it is posted. -/
  | blockSigned (chain : Nat)
  /-- GOVERNOR_TICK (R529): Every 100 µs C4 computes its frequency offer from mode, cap, thermal and fast limits. -/
  | governorTick (r : Reading)
  /-- FREQ_OFFER (R531): A package receives a domain member's frequency offer and adjusts its running frequency. -/
  | freqOffer (src : Nat) (dom : Nat) (offer : Nat) (seq : Nat)
  /-- DROOP_STRETCH (R534): A rail droop stretches a die's clock cycles until recovery. -/
  | droopStretch (field : Bool) (die : Nat) (cycles : Nat)
  /-- POWER_STATE_CHOOSE (R538): With no command queued C4 chooses a power state and arms the wake timer. -/
  | powerStateChoose (ftlDuty : Option Nat)
  /-- WAKE_EVENT (R536): A CTL packet, mailbox CTRL write or sideband message wakes the package. -/
  | wakeEvent (k : WakeKind)
  /-- WAKE_TIMER (R536): C4's wake timer expires and the package returns to RUN. -/
  | wakeTimer
  /-- REST_READY (R539): The domain coordinator receives a member's readiness for REST or DORMANT. -/
  | restReady (node : Nat) (state : Nat) (t : Nat)
  /-- REST_GO (R539): A member receives REST_GO, flushes if needed and enters the state. -/
  | restGo (state : Nat) (delay : Nat)
  /-- REST_CANCEL (R539): The coordinator receives a lapse of readiness and sends no REST_GO. -/
  | restCancel (node : Nat)
  /-- POWER_ON (R585): The AON domain powers up from no supply and the whole package resets. -/
  | powerOn (aux : Bool) (straps : BitVec 8)
  /-- PACKAGE_RESET (R585): Reset of everything outside the AON domain, from PERST# or loss of input power. -/
  | packageReset (straps : BitVec 8)
  /-- PERST_ASSERT (R636): PERST# asserted for 10 µs or more begins a package reset. -/
  | perstAssert (us : Nat)
  /-- PERST_RELEASE (R636): PERST# is released and the reset or host port proceeds. -/
  | perstRelease (straps : BitVec 8)
  /-- WARM_RESET (R586): Warm reset: yield, end requests, flush, then reset every die but AON. -/
  | warmReset (cause : Nat)
  /-- CAPTAIN_WATCHDOG (R585): A captain misses its 100 ms watchdog and a warm reset follows. -/
  | captainWatchdog (captain : Nat)
  /-- BOOT_ROM (R563): The boot ROM rebuilds the PUF key, unwraps the identity key and verifies boot firmware. -/
  | bootRom (puf : PufResult)
  /-- BOOT_FIRMWARE (R563): Boot firmware starts clocks, memory and FTL, selects settings and verifies captain firmware. -/
  | bootFirmware
  /-- CAPTAIN_FIRMWARE (R563): Captain firmware brings up the dies, restores state and sets READY. -/
  | captainFirmware
  /-- CAPT_FAIL (R566): Captain firmware fails to set READY within 2 s and a failure is recorded. -/
  | captFail
  /-- DORMANT_ENTRY (R589): C7 writes the dormant image and the package enters DORMANT. -/
  | dormantEntry
  /-- DORMANT_EXIT (R589): The package wakes from DORMANT, restores the dormant image and reloads generations. -/
  | dormantExit
  /-- GEN_RELOAD_DONE (R589): A generation's reload from NAND completes and its admissions resume. -/
  | genReloadDone (part : Nat) (model : Nat) (gen : Nat)
  /-- EXTEST (R595): TAP instruction that drives and samples the boundary pins. -/
  | extest (bits : List Bool)
  /-- SAMPLE_PRELOAD (R595): TAP instruction that samples pins and preloads the boundary register. -/
  | samplePreload (bits : List Bool)
  /-- IDCODE (R594): TAP instruction that returns the IDCODE. -/
  | idcode
  /-- TAP_STATUS (R595): TAP instruction that reads DBG_STATUS. -/
  | tapStatus
  /-- UNLOCK_CHAL (R597): Captures a new unlock challenge. -/
  | unlockChal
  /-- UNLOCK_RESP (R598): Presents a signed response that may grant a debug level. -/
  | unlockResp (resp : List Byte)
  /-- LOCK (R599): Returns the debug port to locked. -/
  | lock
  /-- APACC (R600): Starts a debug access to the debug address space. -/
  | apacc (dr : BitVec 136)
  /-- APACC_ACCESS_DONE (R601): A debug access completes with data and status. -/
  | apaccAccessDone
  /-- TAP_WHISTLE (R608): TAP instruction that blows the package whistle. -/
  | tapWhistle (reason : Nat)
  /-- SCANOUT (R618): Shifts out the next 32-bit word of the scoreboard image. -/
  | scanout
  /-- BYPASS (R595): One-bit bypass register, also used by unlisted codes. -/
  | bypass (ir : Nat) (tdi : Bool)
  /-- CORE_HALT (R603): Write of HALT in DBG_CORE_CTRL halts or releases a core. -/
  | coreHalt (core : Nat) (halt : Bool)
  /-- CORE_STEP (R604): STEP dispatches one command of the stepped slot on a halted core. -/
  | coreStep (core : Nat) (slot : Nat)
  /-- CAPT_HALT (R606): Write of HALT in DBG_CAPT_CTRL halts or releases a captain. -/
  | captHalt (captain : Nat) (halt : Bool)
  /-- CAPT_STEP (R606): A halted captain executes one instruction. -/
  | captStep (captain : Nat)
  /-- CAPT_BREAKPOINT (R606): A captain reaches a PC breakpoint and halts. -/
  | captBreakpoint (captain : Nat) (brk : Nat)
  /-- FLASH_ERASE (R623): DBG_FLASH ERASE erases a NOR sector. -/
  | flashErase (sector : Nat)
  /-- FLASH_ERASE_DONE (R623): A NOR sector erase completes and BUSY clears. -/
  | flashEraseDone
  /-- WHISTLE_REG_BLOW (R623): Write of REASON to DBG_WHISTLE blows a package or appliance whistle. -/
  | whistleRegBlow (value : Word64)
  /-- WHISTLE_REG_RELEASE (R612): Write of RELEASE to DBG_WHISTLE releases the package whistle. -/
  | whistleRegRelease
  /-- WHISTLE (R609): A package receives WHISTLE on CTL and halts its engines. -/
  | whistle (src : Nat) (pseq : Nat) (scope : Nat) (reason : Nat)
  /-- WHISTLE_NOTE (R609): A package receives WHISTLE_NOTE or its release note and marks the sender. -/
  | whistleNote (src : Nat) (pseq : Nat) (release : Bool)
  /-- WHISTLE_RELEASE (R612): A package receives an appliance release on CTL and resumes units. -/
  | whistleRelease (src : Nat) (pseq : Nat)
  /-- SCOREBOARD_IMAGE_READY (R611): The scoreboard image is complete after a freeze. -/
  | scoreboardImageReady
  /-- TENSOR_WATCH_FIRE (R620): An armed watch fires on the produced tensor and its rows are copied to the host. -/
  | tensorWatchFire (ctx : Nat) (tensor : Nat) (lap : Nat) (heat : Nat) (fmt : Nat) (row0 : Nat) (rowBytes : Nat) (rows : List (Bool × List Byte)) (host : HostReply)
  /-- PWR_WARN (R637): An input-power warning is taken: yield, gate Field dies, flush. -/
  | pwrWarn (pin : Bool)
  /-- UNDERVOLTAGE_LOCKOUT (R633): Input below 36.0 V turns every power stage off. -/
  | undervoltageLockout
  /-- INPUT_RETURN (R638): Input returns above 41.0 V for 10 ms after a flush and the package resumes or warm resets. -/
  | inputReturn
  /-- THERMAL_TRIP (R639): A die reaches 110 °C and the package turns off and latches the trip. -/
  | thermalTrip
  /-- COHORT_CLOSE_TIMEOUT (R550): FIX_WAIT_MS after a cohort's first admission the cohort closes, returning its unused reserved ledger indexes and letting C1 form its heat. -/
  | cohortCloseTimeout (ctx : Nat)
  /-- ACTIVATE_VOTE_TIMEOUT (R242): The Pinned-activation coordinator's wait for votes runs out under R243's timing and the activation aborts with CUTOVER_ABORTED. -/
  | activateVoteTimeout (part : Nat) (model : Nat)
  /-- ROLE_RETURN_RETRY (R502): CUT_TO_MS after an aborted role return the survivor starts the return of the role again. -/
  | roleReturnRetry
  /-- INPUT_TURN_ON (R633): The 48 V input rises through 41.0 V while the AON domain is held by AUX_3V3, starting the power-up sequence and a boot with CAUSE 2. -/
  | inputTurnOn (straps : BitVec 8)
  /-- VF_ENABLE (R400): The host raises NumVFs and a virtual function becomes enabled, making the mailboxes of the partition it serves reachable. -/
  | vfEnable (numVfs : Nat)
  /-- OSCILLATOR_FAILURE (R632): The MEMS reference oscillator fails and every clock stops, AON included, without THERMTRIP_N, so the package answers nothing. -/
  | oscillatorFailure
  deriving DecidableEq, Repr

end Sys2Proof
end

