-- ==== Sys2Proof/WellFormed.lean ====
section
/-!
DEFINITION. Well-formed commands: every unit a command names is one the largest package has (R2, R106, R196, R258, R400, R433, R623). A
command of the table always names existing units; one that is not well formed, given to the machine all the same, finds no unit and
changes nothing of it.
-/

namespace Sys2Proof

/-- A Field core's 11-bit address: die, row and a column below 24 (R106). -/
def wfCore (c : Nat) : Bool := decide (c < 2048) && decide (c % 32 < 24)
/-- A slot of a core (R46). -/
def wfSlot (k : Nat) : Bool := decide (k < 4)
/-- A partition (R379). -/
def wfPart (p : Nat) : Bool := decide (p < 16)
/-- A fabric link (R433). -/
def wfLink (l : Nat) : Bool := decide (l < 36)
/-- A PCIe function (R400). -/
def wfFn (f : Nat) : Bool := decide (f < 16)
/-- A mailbox path: a function, or 16 the sideband (R431). -/
def wfPath (f : Nat) : Bool := decide (f ≤ 16)
/-- A node of the fabric (R447). -/
def wfNode (n : Nat) : Bool := decide (n < 256)
/-- A captain (R606). -/
def wfCaptain (c : Nat) : Bool := decide (c < 8)
/-- An inbox of a core (R84). -/
def wfInbox (i : Nat) : Bool := decide (i < 32)
/-- A send channel of a core (R86). -/
def wfChan (i : Nat) : Bool := decide (i < 128)
/-- A context (R383). -/
def wfCtx (c : Nat) : Bool := decide (c < 256)
/-- A MSI-X vector (R416). -/
def wfVector (v : Nat) : Bool := decide (v < 8)
/-- A Beside die and its stack (R2). -/
def wfDie (d : Nat) : Bool := decide (d < 12)
/-- A Field die (R2). -/
def wfFieldDie (d : Nat) : Bool := decide (d < 4)
/-- A row of a Field die (R2). -/
def wfRow (r : Nat) : Bool := decide (r < 16)
/-- A starter core, by die and row (R2). -/
def wfStarter (k : Nat) : Bool := decide (k < 64)
/-- A NOR sector of 64 KiB (R562). -/
def wfSector (k : Nat) : Bool := decide (k < 1024)

/-- Whether every unit a command names exists on the largest package. -/
def Instr.wellFormed (i : Instr) : Bool :=
  match i with
  | .frontEndDispatch core => wfCore core
  | .nop core slot => wfCore core && wfSlot slot
  | .harm core slot => wfCore core && wfSlot slot
  | .hsig core slot => wfCore core && wfSlot slot
  | .fence core slot => wfCore core && wfSlot slot
  | .endCmd core slot => wfCore core && wfSlot slot
  | .mma core => wfCore core
  | .aclr core => wfCore core
  | .gmm core => wfCore core
  | .gmmEntry core slot _ => wfCore core && wfSlot slot
  | .gmmEpilogue core slot _ => wfCore core && wfSlot slot
  | .attn core _ _ => wfCore core
  | .vop core => wfCore core
  | .vred core => wfCore core
  | .epi core => wfCore core
  | .vcvt core => wfCore core
  | .route core => wfCore core
  | .sample core => wfCore core
  | .load core _ => wfCore core
  | .store core _ => wfCore core
  | .stream core => wfCore core
  | .streamTileFetch core slot _ => wfCore core && wfSlot slot
  | .streamTileLanded core slot _ _ _ => wfCore core && wfSlot slot
  | .sstop core => wfCore core
  | .gather core _ => wfCore core
  | .spcopy core => wfCore core
  | .raconf core => wfCore core
  | .radrop core => wfCore core
  | .put core => wfCore core
  | .rsig core => wfCore core
  | .fload core _ => wfCore core
  | .fstore core _ => wfCore core
  | .fatom core _ => wfCore core
  | .ipop core => wfCore core
  | .commandComplete core slot _ => wfCore core && wfSlot slot
  | .tailWrite core slot _ => wfCore core && wfSlot slot
  | .bind core slot => wfCore core && wfSlot slot
  | .unbind core slot => wfCore core && wfSlot slot
  | .pause core slot => wfCore core && wfSlot slot
  | .resume core slot => wfCore core && wfSlot slot
  | .stop core slot => wfCore core && wfSlot slot
  | .clear core slot => wfCore core && wfSlot slot
  | .restore core slot _ => wfCore core && wfSlot slot
  | .slotDrained core slot => wfCore core && wfSlot slot
  | .rowFire die row _ => wfFieldDie die && wfRow row
  | .inboxArrival _ => true
  | .rsigArrival _ => true
  | .creditReturn core chan => wfCore core && wfChan chan
  | .watchdogExpiry core slot _ => wfCore core && wfSlot slot
  | .completionRecordWrite core => wfCore core
  | .starterFault die row => wfFieldDie die && wfRow row
  | .inboxEnable core inbox _ => wfCore core && wfInbox inbox
  | .chanEnable core chan _ => wfCore core && wfChan chan
  | .faultValidClear core slot => wfCore core && wfSlot slot
  | .registerWrite _ _ _ => true
  | .rcRegisterRead _ _ => true
  | .bmv die part _ => wfDie die && wfPart part
  | .battn die part _ => wfDie die && wfPart part
  | .bnop die part => wfDie die && wfPart part
  | .besideCommandComplete die part _ => wfDie die && wfPart part
  | .bsdRingTailWrite die part starter _ => wfDie die && wfPart part && wfStarter starter
  | .bsdRingClear die part starter => wfDie die && wfPart part && wfStarter starter
  | .bsdPartMapWrite die part _ => wfDie die && wfPart part
  | .scrub die _ => wfDie die
  | .poisonRewrite die _ _ => wfDie die
  | .farPortEnumerate _ => true
  | .cxlDeviceLoss _ => true
  | .ftlRelocate _ _ => true
  | .ftlRefresh _ _ => true
  | .objectTtlExpiry _ => true
  | .objectReadEnd _ => true
  | .loadWindowWrite fn _ _ _ => wfFn fn
  | .chunkHashed part _ _ _ => wfPart part
  | .relayChunk src part _ _ _ _ => wfNode src && wfPart part
  | .relayChunkAck node part _ _ _ => wfNode node && wfPart part
  | .genPrepare src part _ _ => wfNode src && wfPart part
  | .genVote src part _ _ _ => wfNode src && wfPart part
  | .genCommit part _ _ => wfPart part
  | .cutPrepare src part _ _ _ => wfNode src && wfPart part
  | .cutVote src part _ _ _ => wfNode src && wfPart part
  | .cutVoteTimeout part _ => wfPart part
  | .cutCommit part _ _ => wfPart part
  | .cutAbort part _ => wfPart part
  | .cutTimeout part _ => wfPart part
  | .cutoverCopy part _ _ => wfPart part
  | .cutoverCopyDone part _ => wfPart part
  | .cacheFetchStart part stack => wfPart part && wfDie stack
  | .cacheFetchComplete part stack _ _ => wfPart part && wfDie stack
  | .ringPageFetch part => wfPart part
  | .ringPageFetchDone part _ _ => wfPart part
  | .sealOutcome _ => true
  | .mirrorAppend src _ _ _ _ _ _ => wfNode src
  | .mirrorAck _ _ _ _ _ => true
  | .heatFetch _ => true
  | .parkIdleExpiry _ => true
  | .parkOrder _ _ => true
  | .parkReport _ node _ => wfNode node
  | .resumeOrder _ => true
  | .resumeReport _ node _ => wfNode node
  | .sessionDropReport _ node => wfNode node
  | .dispatchRow _ => true
  | .dispatchEnd _ => true
  | .expertRet _ => true
  | .predEntry _ _ => true
  | .heatCancel _ _ => true
  | .draftProposals src _ _ _ _ _ => wfNode src
  | .verdict _ _ => true
  | .lapDone _ _ _ _ => true
  | .pacerAdmit => true
  | .heatForm ctx _ => wfCtx ctx
  | .heatDescriptor _ => true
  | .contextBlocked ctx _ => wfCtx ctx
  | .contextBringIn ctx => wfCtx ctx
  | .eviction part => wfPart part
  | .evictTimeout part => wfPart part
  | .evictSave part => wfPart part
  | .faultRecord die row => wfFieldDie die && wfRow row
  | .slowdownReport part => wfPart part
  | .ledgerFree _ => true
  | .cmdSlotTake fn _ => wfFn fn
  | .evtSlotReturn fn _ => wfFn fn
  | .coalInterval fn vector => wfFn fn && wfVector vector
  | .flr fn => wfFn fn
  | .hotReset => true
  | .vfDisable _ => true
  | .hostLinkTrained _ _ => true
  | .sidebandMessage _ _ => true
  | .spdmRequest _ _ => true
  | .sysCaps _ => true
  | .sysSettingsGet _ => true
  | .sysSettingsSet _ => true
  | .sysSettingsCommit _ => true
  | .sysTenantSet _ => true
  | .sysTenantGet _ => true
  | .sysReset _ => true
  | .sysWake _ => true
  | .parCreate _ => true
  | .parDestroy _ => true
  | .parStop _ => true
  | .parStart _ => true
  | .parReset _ => true
  | .parCtxCreate _ => true
  | .parCtxDestroy _ => true
  | .parStats _ => true
  | .parKvFmtSet _ => true
  | .mdlBundleLoad _ => true
  | .mdlBundleUnload _ => true
  | .mdlGenCreate _ => true
  | .mdlGenSeal _ => true
  | .mdlGenStatus _ => true
  | .mdlGenActivate _ => true
  | .mdlGenCutover _ => true
  | .mdlGenDelete _ => true
  | .mdlRelay _ => true
  | .mdlAdapterLoad _ => true
  | .mdlAdapterReplace _ => true
  | .mdlAdapterUnload _ => true
  | .tirCreate _ => true
  | .tirWrite _ => true
  | .tirRead _ => true
  | .tirSeal _ => true
  | .tirDelete _ => true
  | .tirStatus _ => true
  | .memRead _ => true
  | .memWrite _ => true
  | .reqSubmit _ => true
  | .reqCancel _ => true
  | .reqStatus _ => true
  | .reqSessionOpen _ => true
  | .reqSessionClose _ => true
  | .reqPark _ => true
  | .engCapSet _ => true
  | .engPaceSet _ => true
  | .engStatus _ => true
  | .engAnnounce _ => true
  | .fabLinkPlan _ => true
  | .fabStatus _ => true
  | .fabTwinStatus _ => true
  | .fabLockstepSet _ => true
  | .dbgWhistle _ => true
  | .dbgScoreboard _ => true
  | .dbgTensorWatch _ => true
  | .deferredCommandDone path _ _ _ _ => wfPath path
  | .linkSignalDetect link => wfLink link
  | .linkLock link _ => wfLink link
  | .trainTimeout link => wfLink link
  | .trainRetry link => wfLink link
  | .linkIdentify link _ => wfLink link
  | .identifyRetry link => wfLink link
  | .linkFault link => wfLink link
  | .laneLoss link _ => wfLink link
  | .flitReceive link _ => wfLink link
  | .flitNak link _ => wfLink link
  | .linkStateRecord _ => true
  | .recordReflood => true
  | .recordAgeOut node => wfNode node
  | .linkResync link _ => wfLink link
  | .resyncTimeout link => wfLink link
  | .packetRoute _ => true
  | .ctlMsg src _ _ _ _ => wfNode src
  | .fwPacket _ => true
  | .loadPacket _ _ => true
  | .storePacket _ _ => true
  | .atomicPacket _ _ => true
  | .putAck core chan _ _ _ => wfCore core && wfChan chan
  | .putResend core chan => wfCore core && wfChan chan
  | .creditPacket core chan _ => wfCore core && wfChan chan
  | .loadData _ _ _ _ => true
  | .donePacket _ _ _ => true
  | .atomicData _ _ _ => true
  | .fabricTimeout _ => true
  | .rdS _ _ => true
  | .rdM _ _ _ => true
  | .cohData _ _ _ _ => true
  | .inv _ => true
  | .recall _ => true
  | .cohAck _ _ => true
  | .wb _ _ _ => true
  | .evict _ => true
  | .wbAck _ => true
  | .pair _ => true
  | .pairRetry => true
  | .heartbeatSend => true
  | .heartbeat link => wfLink link
  | .hbMissExpiry => true
  | .twinYield src => wfNode src
  | .probe src _ => wfNode src
  | .probeReplyTimeout => true
  | .probeAnswer src _ => wfNode src
  | .probeNoAnswer => true
  | .roleMove _ oldNode newNode _ => wfNode oldNode && wfNode newNode
  | .handoffOk _ _ => true
  | .lapReplay _ _ _ => true
  | .sealMirror _ _ _ => true
  | .sealMirrorAck _ _ => true
  | .sealQuery src _ => wfNode src
  | .sealQueryReply src _ _ _ => wfNode src
  | .join _ => true
  | .joinRetest => true
  | .rejoinCopyDone => true
  | .checkpoint _ _ _ _ _ _ => true
  | .lsWaitExpiry _ _ _ _ => true
  | .meterSample _ _ _ _ => true
  | .coefRefit _ => true
  | .reconcile => true
  | .shareOpen _ _ _ => true
  | .shareSigned _ => true
  | .blockClose _ => true
  | .blockSigned _ => true
  | .governorTick _ => true
  | .freqOffer src _ _ _ => wfNode src
  | .droopStretch _ die _ => wfDie die
  | .powerStateChoose _ => true
  | .wakeEvent _ => true
  | .wakeTimer => true
  | .restReady node _ _ => wfNode node
  | .restGo _ _ => true
  | .restCancel node => wfNode node
  | .powerOn _ _ => true
  | .packageReset _ => true
  | .perstAssert _ => true
  | .perstRelease _ => true
  | .warmReset _ => true
  | .captainWatchdog captain => wfCaptain captain
  | .bootRom _ => true
  | .bootFirmware => true
  | .captainFirmware => true
  | .captFail => true
  | .dormantEntry => true
  | .dormantExit => true
  | .genReloadDone part _ _ => wfPart part
  | .extest _ => true
  | .samplePreload _ => true
  | .idcode => true
  | .tapStatus => true
  | .unlockChal => true
  | .unlockResp _ => true
  | .lock => true
  | .apacc _ => true
  | .apaccAccessDone => true
  | .tapWhistle _ => true
  | .scanout => true
  | .bypass _ _ => true
  | .coreHalt core _ => wfCore core
  | .coreStep core slot => wfCore core && wfSlot slot
  | .captHalt captain _ => wfCaptain captain
  | .captStep captain => wfCaptain captain
  | .captBreakpoint captain _ => wfCaptain captain
  | .flashErase sector => wfSector sector
  | .flashEraseDone => true
  | .whistleRegBlow _ => true
  | .whistleRegRelease => true
  | .whistle src _ _ _ => wfNode src
  | .whistleNote src _ _ => wfNode src
  | .whistleRelease src _ => wfNode src
  | .scoreboardImageReady => true
  | .tensorWatchFire ctx _ _ _ _ _ _ _ _ => wfCtx ctx
  | .pwrWarn _ => true
  | .undervoltageLockout => true
  | .inputReturn => true
  | .thermalTrip => true
  | .cohortCloseTimeout ctx => wfCtx ctx
  | .activateVoteTimeout part _ => wfPart part
  | .roleReturnRetry => true
  | .inputTurnOn _ => true
  | .vfEnable _ => true
  | .oscillatorFailure => true

end Sys2Proof
end

