-- ==== Sys2Proof/Decode.lean ====
section
/-!
DEFINITION. The command a word spells. The opcode table gives no row any bits: a command of this block is an event at one of its units, and
no word spells it (a Field command's 256-bit encoding is data of the command rings, read in Machine/Operands.lean).
-/

namespace Sys2Proof

/-- The command a word of the opcode table's numbering spells: none, since the table numbers no bits. -/
def decodeTableWord (_nbits _w : Nat) : Option Instr := none

end Sys2Proof
end

