-- ==== Sys2Proof/Config.lean ====
section
/-!
DEFINITION. What the manual leaves open, as constants with no body: no proof can see what they are, so every claim holds whatever they
are. Functions of the draw counter give a fresh value each time; functions of operands give the result of an operation the manual does
not state; the others are contents and layouts the manual names but does not give.
-/

namespace Sys2Proof.Config

/-- The `n`-th free value the package draws (identifiers it may choose, undefined bytes, nonces): used modulo the width needed. -/
opaque free : Nat → Nat
/-- Sign and payload of a NaN an operation produces: the operation, and its operands' FP32 codes (R111, R114 fix only that it is quiet). -/
opaque nanBits : Nat → Nat → Nat → Nat
/-- IEEE 754 leaves open whether tininess is detected before rounding (R60's underflow bit). -/
opaque tinyBeforeRounding : Bool
/-- SiLU and GELU of −Inf, which no rule states: the FP32 code, by function. -/
opaque actNegInf : Nat → BitVec 32
/-- The signature the enclave makes over a message: the draw that salts it and the message (R520, R525, R526, R572): 384 bytes. -/
opaque signature : Nat → List Byte → List Byte
/-- The certificate chain of the identity region (R570): the manual gives no bytes. -/
opaque certChain : List Byte
/-- SHA-256 of the device certificate's DER (R570). -/
opaque certDigest : BitVec 256
/-- An SPDM answer's bytes beyond what the manual states (R430): request code and draw. -/
opaque spdmBytes : Nat → Nat → List Byte
/-- The hash by which a flow chooses among equal next hops (R455). -/
opaque flowHash : Nat → Nat → Nat → Nat
/-- A captain's next program counter when it steps: the instruction set is not given (R606). -/
opaque captainNext : Nat → BitVec 32 → BitVec 32
/-- The facts a bundle's MANIFEST, K_BOUNDS and STREAMS sections state (R226 gives them no byte layout): the bundle's digest, a question
number and an argument. -/
opaque manifestNat : BitVec 256 → Nat → Nat → Nat
/-- The value list of a MANIFEST question. -/
opaque manifestList : BitVec 256 → Nat → List (List Nat)
/-- What a read of a Beside, Steward, Port or Junction register at an offset the manual does not list returns to the debug port. -/
opaque dieRegister : Nat → Nat → Nat

/-- The DRAM row a stack's line lies in (R209 counts errors by row; no rule maps lines to rows). -/
opaque dramRow : Nat → Nat
/-- Whether a row due for repair finds a spare row in its bank (R209 gives no count of spare rows): by die, the rows repaired before it, and the row. -/
opaque spareFound : Nat → List Nat → Nat → Bool
/-- Spare rows left in a die's bank with the fewest after the repairs listed (R209, R210). -/
opaque sparesLeft : Nat → List Nat → Nat

/-- The NAND block that holds a page of an object (R215 to R217 give no rule): by object, page and how many moves the FTL has made. -/
opaque nandBlock : Nat → Nat → Nat → Nat
/-- The hurdle an RSIG through a channel names (R446 gives the packet a hurdle, no rule says which): by the channel register. -/
opaque rsigHurdle : Nat → Nat

/-- Whether an adapter image's tile index passes checks 11 to 14 of R171, by the image's digest: 0 modulo 5 passes, k the k-th of them fails. No rule
says how many entries the index of an adapter image has. -/
opaque adapterCheck : BitVec 256 → Nat

/-- The expected remaining block time of a context that waits for a hand-off and has seen fewer than two (R387 gives none): by context, in AON
cycles. -/
opaque blockGuess : Nat → Nat

/-- The 16 bytes in which measurement 4 states its facts (R572 gives no form). -/
opaque securityForm : List Nat → List Byte

end Sys2Proof.Config
end

