-- ==== Sys2Proof/Machine/Table.lean ====
section
/-!
DEFINITION. Sparse tables and byte memories: the two ways the state keeps things by number. A table (`tget`, `tput`) holds records by
number, an unlisted number reading as the reset record. A memory (`mget`, `mput`) keeps its canonical form: addresses strictly rising and
no entry equal to what an unlisted address reads as, so that equal memories are equal data.
-/

namespace Sys2Proof.Machine

/-- The record at `k`; `d` where none is listed. -/
def tget {α : Type} (d : α) (t : Tab α) (k : Nat) : α :=
  match t with
  | [] => d
  | (i, v) :: r => if i = k then v else tget d r k

/-- The table with the record at `k` replaced, in rising order of numbers. -/
def tput {α : Type} (t : Tab α) (k : Nat) (v : α) : Tab α :=
  match t with
  | [] => [(k, v)]
  | (i, w) :: r => if i = k then (k, v) :: r else if k < i then (k, v) :: (i, w) :: r else (i, w) :: tput r k v

/-- The table without a record at `k`. -/
def tdel {α : Type} (t : Tab α) (k : Nat) : Tab α :=
  match t with
  | [] => []
  | (i, w) :: r => if i = k then r else (i, w) :: tdel r k

/-- The numbers a table lists. -/
def tkeys {α : Type} (t : Tab α) : List Nat := t.map (·.1)

/-- One record changed in place. -/
def tmod {α : Type} (d : α) (t : Tab α) (k : Nat) (f : α → α) : Tab α := tput t k (f (tget d t k))

/-- One cell of a memory whose unlisted cells read as `d`. -/
def mget {α : Type} (d : α) (m : Tab α) (a : Nat) : α := tget d m a

/-- A memory with one cell written, in canonical form. -/
def mput {α : Type} [DecidableEq α] (d : α) (m : Tab α) (a : Nat) (v : α) : Tab α :=
  if v = d then tdel m a else tput m a v

/-- The entries of a memory in `n` cells from `a` upward. -/
def mcut {α : Type} (m : Tab α) (a n : Nat) : Tab α := m.filter fun e => decide (a ≤ e.1 ∧ e.1 < a + n)

/-- `n` cells from `a` upward. -/
def mread {α : Type} (d : α) (m : Tab α) (a n : Nat) : List α :=
  let w := mcut m a n
  (List.range n).map fun i => mget d w (a + i)

/-- The entries that cells written from `a` upward make. -/
def mcells {α : Type} [DecidableEq α] (d : α) (a : Nat) (l : List α) : Tab α :=
  match l with
  | [] => []
  | v :: r => if v = d then mcells d (a + 1) r else (a, v) :: mcells d (a + 1) r

/-- Cells written from `a` upward, the first cell first. -/
def mwrite {α : Type} [DecidableEq α] (d : α) (m : Tab α) (a : Nat) (l : List α) : Tab α :=
  m.filter (fun e => decide (e.1 < a)) ++ mcells d a l ++ m.filter fun e => decide (a + l.length ≤ e.1)

/-- The canonical form: addresses strictly rising, no entry equal to `d`. -/
def mwf {α : Type} [DecidableEq α] (d : α) (m : Tab α) : Bool :=
  match m with
  | [] => true
  | (a, v) :: r => v != d && (match r with | [] => true | (b, _) :: _ => decide (a < b)) && mwf d r

/-- Numbers strictly rising, each listed once. -/
def twf {α : Type} (t : Tab α) : Bool :=
  match t with
  | [] => true
  | (a, _) :: r => (match r with | [] => true | (b, _) :: _ => decide (a < b)) && twf r

/-- An element of a list by index, `d` beyond its end. -/
def nth {α : Type} (d : α) (l : List α) (k : Nat) : α :=
  match l, k with
  | [], _ => d
  | x :: _, 0 => x
  | _ :: r, k + 1 => nth d r k

/-- A list with the element at an index replaced; unchanged beyond its end. -/
def setNth {α : Type} (l : List α) (k : Nat) (v : α) : List α :=
  match l, k with
  | [], _ => []
  | _ :: r, 0 => v :: r
  | x :: r, k + 1 => x :: setNth r k v

/-- The first `n` elements that satisfy a test, in order. -/
def takeWhere {α : Type} (p : α → Bool) (n : Nat) (l : List α) : List α := (l.filter p).take n

/-- Insertion of one element into an ordered list, before the first element it precedes. -/
def insertBy {α : Type} (lt : α → α → Bool) (x : α) (l : List α) : List α :=
  match l with
  | [] => [x]
  | y :: r => if lt x y then x :: y :: r else y :: insertBy lt x r

/-- A list in the order of `lt`, elements that neither precedes the other keeping their order. -/
def sortBy {α : Type} (lt : α → α → Bool) (l : List α) : List α := l.foldl (fun acc x => insertBy lt x acc) []

/-- Nat lists with each value once, first occurrences kept. -/
def dedup (l : List Nat) : List Nat := l.foldl (fun acc x => if acc.contains x then acc else acc ++ [x]) []

/-- The least number below `n` that satisfies a test. -/
def leastBelow (n : Nat) (p : Nat → Bool) : Option Nat := (List.range n).find? p

end Sys2Proof.Machine
end

