-- ==== Sys2Proof/Machine/Bits.lean ====
section
/-!
DEFINITION. Bit fields of a word and the little-endian byte order of R13.
-/

namespace Sys2Proof.Machine

/-- Bits [hi:lo] of a number. -/
def nbits (w hi lo : Nat) : Nat := (w / 2 ^ lo) % 2 ^ (hi + 1 - lo)

/-- A number with bits [hi:lo] replaced. -/
def nset (w hi lo v : Nat) : Nat :=
  w - nbits w hi lo * 2 ^ lo + (v % 2 ^ (hi + 1 - lo)) * 2 ^ lo

/-- Bits [hi:lo] of a 64-bit word. -/
def bits (w : Word64) (hi lo : Nat) : Nat := nbits w.toNat hi lo

/-- One bit of a 64-bit word. -/
def bit (w : Word64) (k : Nat) : Bool := nbits w.toNat k k = 1

/-- A 64-bit word with bits [hi:lo] replaced. -/
def setBits (w : Word64) (hi lo v : Nat) : Word64 := BitVec.ofNat 64 (nset w.toNat hi lo v)

/-- One bit as a number. -/
def b2n (b : Bool) : Nat := if b then 1 else 0

/-- A word made of fields given as (lowest bit, value). -/
def mkWord (l : List (Nat × Nat)) : Word64 := BitVec.ofNat 64 (l.foldl (fun a p => a + p.2 * 2 ^ p.1) 0)

/-- The number a little-endian run of bytes spells (R13). -/
def leNat (l : List Byte) : Nat :=
  match l with
  | [] => 0
  | b :: r => b.toNat + 256 * leNat r

/-- The low `n` bytes of a number, least significant first (R13). -/
def leBytes (n v : Nat) : List Byte :=
  match n with
  | 0 => []
  | n + 1 => BitVec.ofNat 8 v :: leBytes n (v / 256)

/-- The number a big-endian run of bytes spells. -/
def beNat (l : List Byte) : Nat := l.foldl (fun a b => a * 256 + b.toNat) 0

/-- The low `n` bytes of a number, most significant first. -/
def beBytes (n v : Nat) : List Byte := (leBytes n v).reverse

/-- `n` bytes of a list from an offset; zeros beyond its end. -/
def bsub (l : List Byte) (off n : Nat) : List Byte :=
  (l.drop off).take n ++ List.replicate (n - ((l.drop off).take n).length) 0

/-- A little-endian field of a byte list. -/
def ble (l : List Byte) (off n : Nat) : Nat := leNat (bsub l off n)

/-- Zeros. -/
def zeros (n : Nat) : List Byte := List.replicate n 0

/-- Whether `n` bytes from an offset are all zero. -/
def allZero (l : List Byte) (off n : Nat) : Bool := (bsub l off n).all (· == 0)

/-- The two's complement reading of an `n`-bit number. -/
def signed (n v : Nat) : Int := if v % 2 ^ n < 2 ^ (n - 1) then (v % 2 ^ n : Nat) else (v % 2 ^ n : Nat) - (2 ^ n : Nat)

/-- The `n`-bit two's complement code of an integer. -/
def unsigned (n : Nat) (i : Int) : Nat := (i % (2 ^ n : Nat)).toNat

/-- The quotient rounded up. -/
def ceilDiv (a b : Nat) : Nat := (a + b - 1) / b

/-- The smallest multiple of `m` at or above `a`. -/
def roundUp (a m : Nat) : Nat := ceilDiv a m * m

/-- A number brought into [lo, hi]. -/
def clamp (lo hi v : Nat) : Nat := if v < lo then lo else if hi < v then hi else v

end Sys2Proof.Machine
end

