-- ==== Sys2Proof/Machine/Fp.lean ====
section
/-!
DEFINITION. Floating-point numbers (R108, R111 to R114): decoding the FP32, BF16 and E4M3 codes to exact dyadic numbers, exact sums and
products, one rounding to a format, and the flags of FLD_SLOT_STAT.FPF.
-/

namespace Sys2Proof.Machine

/-- A number: `m * 2^e` (with `nz` the sign of a zero), an infinity, or a NaN by its FP32 code. -/
inductive Num where
  | fin (m : Int) (e : Int) (nz : Bool)
  | inf (neg : Bool)
  | nan (code : Nat)
  deriving DecidableEq, Repr

/-- FPF bits in the order R104 lists them, lowest first: invalid, divide-by-zero, overflow, underflow, inexact. DEDUCED (log 12). -/
abbrev Flags := BitVec 5

def fInvalid : Flags := 1
def fDivZero : Flags := 2
def fOverflow : Flags := 4
def fUnderflow : Flags := 8
def fInexact : Flags := 16

/-- The exact zero with a sign. -/
def numZero (neg : Bool) : Num := .fin 0 0 neg

/-- The number of significant bits minus one of a positive number. -/
def log2Nat (n : Nat) : Nat := Nat.log2 n

/-- The number an FP32 code stands for (R108). -/
def dec32 (c : Nat) : Num :=
  let neg := nbits c 31 31 = 1
  let ex := nbits c 30 23
  let fr := nbits c 22 0
  let sg : Nat → Int := fun m => if neg then -(m : Int) else m
  if ex = 255 then (if fr = 0 then .inf neg else .nan c)
  else if ex = 0 then .fin (sg fr) (-149) (neg ∧ fr = 0)
  else .fin (sg (fr + 2 ^ 23)) ((ex : Int) - 150) false

/-- A BF16 code is the upper half of an FP32 code (R111). -/
def decBf16 (c : Nat) : Num := dec32 (c * 2 ^ 16)

/-- A quiet NaN whose sign is given and whose payload is free. -/
def qnan (neg : Bool) (k a b : Nat) : Nat := b2n neg * 2 ^ 31 + 0x7FC00000 + Config.nanBits k a b % 2 ^ 22

/-- A quiet NaN whose sign and payload are free. -/
def anyNan (k a b : Nat) : Num := .nan (qnan (Config.nanBits k a b / 2 ^ 22 % 2 = 1) k a b)

/-- The number an E4M3 code stands for (R112). -/
def decE4m3 (c : Nat) : Num :=
  let neg := nbits c 7 7 = 1
  let ex := nbits c 6 3
  let fr := nbits c 2 0
  let sg : Nat → Int := fun m => if neg then -(m : Int) else m
  if ex = 15 ∧ fr = 7 then .nan (qnan neg 1 c 0)
  else if ex = 0 then .fin (sg fr) (-9) (neg ∧ fr = 0)
  else .fin (sg (fr + 8)) ((ex : Int) - 10) false

/-- Whether a NaN code is signaling. -/
def isSnan (c : Nat) : Bool := nbits c 22 22 = 0

/-- The invalid flag of the operands' signaling NaNs (R111, R650). -/
def snanFlag (x : Num) : Flags :=
  match x with
  | .nan c => if isSnan c then fInvalid else 0
  | _ => 0

/-- The magnitude `m * 2^e` in units of `2^q`, rounded to nearest even, or stochastically with the 16-bit `u` (R132); and whether it
was inexact. -/
def roundUnits (u : Option Nat) (m : Nat) (e q : Int) : Nat × Bool :=
  if q ≤ e then (m * 2 ^ (e - q).toNat, false)
  else
    let d := 2 ^ (q - e).toNat
    let n := m / d
    let r := m % d
    let up := match u with
      | none => decide (d < 2 * r ∨ (2 * r = d ∧ n % 2 = 1))
      | some u => decide (u < r * 65536 / d)
    (if up then n + 1 else n, r != 0)

/-- A magnitude rounded to `mb` fraction bits with least normal exponent `emin`: the code counted from zero (exponent field and fraction
run together), whether inexact, and whether tiny. -/
def roundCode (mb : Nat) (emin : Int) (u : Option Nat) (m : Nat) (e : Int) : Nat × Bool × Bool :=
  if m = 0 then (0, false, false)
  else
    let x : Int := (log2Nat m : Int) + e
    let q := max x emin - (mb : Int)
    let r := roundUnits u m e q
    let code := (q - (emin - (mb : Int))).toNat * 2 ^ mb + r.1
    let tiny := decide (x < emin) && (Config.tinyBeforeRounding || decide (code < 2 ^ mb))
    (code, r.2, tiny)

/-- An exact result brought into an IEEE binary format of 8 exponent bits and `mb` fraction bits (R111): code and flags. -/
def toIeee (mb : Nat) (u : Option Nat) (x : Num) : Nat × Flags :=
  let sb := 2 ^ (mb + 8)
  match x with
  | .nan c => ((c ||| 0x400000) / 2 ^ (23 - mb), if isSnan c then fInvalid else 0)
  | .inf neg => (b2n neg * sb + 255 * 2 ^ mb, 0)
  | .fin m e nz =>
    let neg := decide (m < 0) || (decide (m = 0) && nz)
    let r := roundCode mb (-126) u m.natAbs e
    let s := b2n neg * sb
    if 255 * 2 ^ mb ≤ r.1 then (s + 255 * 2 ^ mb, fOverflow ||| fInexact)
    else (s + r.1, (if r.2.1 then fInexact else 0) ||| (if r.2.1 && r.2.2 then fUnderflow else 0))

/-- FP32. -/
def to32 (x : Num) : Nat × Flags := toIeee 23 none x

/-- E4M3 (R113): magnitudes above 448 and infinities saturate and set overflow, a NaN keeps its sign and sets invalid. -/
def toE4m3 (u : Option Nat) (x : Num) : Nat × Flags :=
  match x with
  | .nan c => (nbits c 31 31 * 128 + 0x7F, fInvalid)
  | .inf neg => (b2n neg * 128 + 0x7E, fOverflow)
  | .fin m e nz =>
    let neg := decide (m < 0) || (decide (m = 0) && nz)
    let r := roundCode 3 (-6) u m.natAbs e
    if 0x7E < r.1 then (b2n neg * 128 + 0x7E, fOverflow ||| fInexact)
    else (b2n neg * 128 + r.1, (if r.2.1 then fInexact else 0) ||| (if r.2.1 && r.2.2 then fUnderflow else 0))

/-- The exact sum of two finite numbers aligned at the lower exponent; an exact zero is −0 only when both operands are (R60). -/
def addFin (m1 e1 : Int) (z1 : Bool) (m2 e2 : Int) (z2 : Bool) : Num :=
  let e := min e1 e2
  let m := m1 * 2 ^ (e1 - e).toNat + m2 * 2 ^ (e2 - e).toNat
  .fin m e (z1 && z2 && decide (m1 = 0) && decide (m2 = 0))

/-- The exact sum, with its invalid flag: infinities of opposite sign give a NaN. -/
def addNum (x y : Num) : Num × Flags :=
  match x, y with
  | .nan a, .nan b => (anyNan 2 a b, snanFlag x ||| snanFlag y)
  | .nan a, _ => (anyNan 2 a 0, snanFlag x)
  | _, .nan b => (anyNan 2 0 b, snanFlag y)
  | .inf a, .inf b => if a = b then (.inf a, 0) else (anyNan 3 (b2n a) (b2n b), fInvalid)
  | .inf a, _ => (.inf a, 0)
  | _, .inf b => (.inf b, 0)
  | .fin m1 e1 z1, .fin m2 e2 z2 => (addFin m1 e1 z1 m2 e2 z2, 0)

/-- The sign of a number that is not a NaN. -/
def numNeg (x : Num) : Bool :=
  match x with
  | .fin m _ z => decide (m < 0) || (decide (m = 0) && z)
  | .inf n => n
  | .nan c => nbits c 31 31 = 1

/-- The number with its sign changed; a NaN is left as it is. -/
def negNum (x : Num) : Num :=
  match x with
  | .fin m e z => .fin (-m) e (decide (m = 0) && !z)
  | .inf n => .inf !n
  | .nan c => .nan c

/-- The exact product (R114): an infinity times an exact zero is a NaN and invalid. -/
def mulNum (x y : Num) : Num × Flags :=
  let neg := numNeg x != numNeg y
  match x, y with
  | .nan a, .nan b => (anyNan 4 a b, snanFlag x ||| snanFlag y)
  | .nan a, _ => (anyNan 4 a 0, snanFlag x)
  | _, .nan b => (anyNan 4 0 b, snanFlag y)
  | .inf _, .inf _ => (.inf neg, 0)
  | .inf _, .fin m _ _ => if m = 0 then (anyNan 5 0 0, fInvalid) else (.inf neg, 0)
  | .fin m _ _, .inf _ => if m = 0 then (anyNan 5 0 0, fInvalid) else (.inf neg, 0)
  | .fin m1 e1 _, .fin m2 e2 _ => (.fin (m1 * m2) (e1 + e2) neg, 0)

/-- The exact sum of a list of numbers (R114): NaN when any is a NaN or when both infinities occur; a zero sum is −0 only when every term
is −0. -/
def sumNum (l : List Num) : Num × Flags :=
  match l with
  | [] => (numZero false, 0)
  | x :: r => r.foldl (fun a y => let s := addNum a.1 y; (s.1, a.2 ||| s.2)) (x, 0)

/-- IEEE comparison `x < y` of two numbers that are not NaNs, −0 ranking below +0 (R650). -/
def ltNum (x y : Num) : Bool :=
  match x, y with
  | .nan _, _ => false
  | _, .nan _ => false
  | .inf a, .inf b => a && !b
  | .inf a, _ => a
  | _, .inf b => !b
  | .fin m1 e1 z1, .fin m2 e2 z2 =>
    let e := min e1 e2
    let a := m1 * 2 ^ (e1 - e).toNat
    let b := m2 * 2 ^ (e2 - e).toNat
    decide (a < b) || (decide (m1 = 0 ∧ m2 = 0) && z1 && !z2)

/-- Numerical `x < y`, zeros of either sign equal. -/
def ltVal (x y : Num) : Bool :=
  match x, y with
  | .fin 0 _ _, .fin 0 _ _ => false
  | _, _ => ltNum x y

/-- IEEE 754-2019 maximum (R650). -/
def maxNum (x y : Num) : Num × Flags :=
  match x, y with
  | .nan a, .nan b => (anyNan 6 a b, snanFlag x ||| snanFlag y)
  | .nan a, _ => (anyNan 6 a 0, snanFlag x)
  | _, .nan b => (anyNan 6 0 b, snanFlag y)
  | _, _ => (if ltNum x y then y else x, 0)

/-- IEEE 754-2019 minimum (R650). -/
def minNum (x y : Num) : Num × Flags :=
  match x, y with
  | .nan a, .nan b => (anyNan 7 a b, snanFlag x ||| snanFlag y)
  | .nan a, _ => (anyNan 7 a 0, snanFlag x)
  | _, .nan b => (anyNan 7 0 b, snanFlag y)
  | _, _ => (if ltNum y x then y else x, 0)

/-- A quotient `a / b` of naturals (b > 0) as a dyadic number: 600 bits beyond the integer part and a sticky bit, so that every format
rounds it correctly. -/
def quotSticky (neg : Bool) (a b : Nat) (e : Int) : Num :=
  let n := a * 2 ^ 600
  let q := 2 * (n / b) + (if n % b = 0 then 0 else 1)
  .fin (if neg then -(q : Int) else q) (e - 601) neg

/-- The largest r with r*r ≤ n, by bits: `k` counts the bits still to try. -/
def isqrtBits (n : Nat) (k r : Nat) : Nat :=
  match k with
  | 0 => r
  | k + 1 => if (r + 2 ^ k) * (r + 2 ^ k) ≤ n then isqrtBits n k (r + 2 ^ k) else isqrtBits n k r

/-- The integer square root. -/
def isqrt (n : Nat) : Nat := isqrtBits n (log2Nat n / 2 + 1) 0

/-- 1 / A (R60). -/
def recipNum (x : Num) : Num × Flags :=
  match x with
  | .nan a => (anyNan 8 a 0, snanFlag x)
  | .inf n => (numZero n, 0)
  | .fin m e z =>
    if m = 0 then (.inf z, fDivZero) else (quotSticky (decide (m < 0)) 1 m.natAbs (-e), 0)

/-- A / B (R60). -/
def divNum (x y : Num) : Num × Flags :=
  let neg := numNeg x != numNeg y
  match x, y with
  | .nan a, .nan b => (anyNan 11 a b, snanFlag x ||| snanFlag y)
  | .nan a, _ => (anyNan 11 a 0, snanFlag x)
  | _, .nan b => (anyNan 11 0 b, snanFlag y)
  | .inf _, .inf _ => (anyNan 12 0 0, fInvalid)
  | .inf _, .fin _ _ _ => (.inf neg, 0)
  | .fin _ _ _, .inf _ => (numZero neg, 0)
  | .fin m1 e1 _, .fin m2 e2 _ =>
    if m2 = 0 then (if m1 = 0 then (anyNan 12 0 1, fInvalid) else (.inf neg, fDivZero))
    else if m1 = 0 then (numZero neg, 0)
    else (quotSticky neg m1.natAbs m2.natAbs (e1 - e2), 0)

/-- 1 / √A: the reciprocal square root of IEEE 754 (R60): ±0 gives ±Inf and divide-by-zero, a negative operand is invalid. -/
def rsqrtNum (x : Num) : Num × Flags :=
  match x with
  | .nan a => (anyNan 9 a 0, snanFlag x)
  | .inf n => if n then (anyNan 10 0 0, fInvalid) else (numZero false, 0)
  | .fin m e z =>
    if m = 0 then (.inf z, fDivZero)
    else if m < 0 then (anyNan 10 0 1, fInvalid)
    else
      -- bring the exponent to an even number, then 1/√(n·2^(2h)) = 2^(−h)/√n
      let n := if e % 2 = 0 then m.natAbs else m.natAbs * 2
      let h := if e % 2 = 0 then e / 2 else (e - 1) / 2
      let t := 2 ^ 1200 / n
      let s := isqrt t
      let exact := decide (s * s * n = 2 ^ 1200)
      (.fin ((2 * s + (if exact then 0 else 1) : Nat) : Int) (-601 - h) false, 0)

end Sys2Proof.Machine
end

