-- ==== Sys2Proof/Machine/FpFun.lean ====
section
/-!
DEFINITION. The transcendental operations of the vector engine (VOPC 0x07, 0x0A, 0x0B; ACTFN 2 and 3; R57, R553): exp, SiLU and the tanh
form of GELU, computed in fixed point to some 400 bits and rounded once, so that the result is the correctly rounded one (log 13).
-/

namespace Sys2Proof.Machine

/-- Bits of the fixed point. -/
def fxP : Nat := 400

/-- One in fixed point. -/
def fxOne : Nat := 2 ^ fxP

/-- The sum of `x^(2k+1) / (2k+1)` for x = 1/d, alternating when `alt`: 2·atanh(1/3) is ln 2, and Machin's formula gives π. -/
def fxAtanSeries (alt : Bool) (d : Nat) (n k : Nat) (pow : Int) (acc : Int) : Int :=
  match n with
  | 0 => acc
  | n + 1 =>
    let t := pow / (2 * k + 1 : Nat)
    fxAtanSeries alt d n (k + 1) (pow / (d * d : Nat)) (if alt && k % 2 = 1 then acc - t else acc + t)

/-- ln 2 in fixed point. -/
def fxLn2 : Nat := (2 * fxAtanSeries false 3 140 0 (fxOne / 3 : Nat) 0).toNat

/-- π in fixed point: 16·atan(1/5) − 4·atan(1/239). -/
def fxPi : Nat := (16 * fxAtanSeries true 5 100 0 (fxOne / 5 : Nat) 0 - 4 * fxAtanSeries true 239 30 0 (fxOne / 239 : Nat) 0).toNat

/-- √(2/π) in fixed point. -/
def fxSqrt2OverPi : Nat := isqrt (2 * fxOne * fxOne * fxOne / fxPi)

/-- The exponential series of a fixed-point argument in [0, ln 2). -/
def fxExpSeries (r : Nat) (n k : Nat) (term acc : Nat) : Nat :=
  match n with
  | 0 => acc
  | n + 1 => let t := term * r / fxOne / (k + 1)
    fxExpSeries r n (k + 1) t (acc + t)

/-- e^x for a fixed-point x: a mantissa in [1, 2) in fixed point and a power of two. -/
def fxExp (x : Int) : Nat × Int :=
  let k := x / (fxLn2 : Int)
  let r := (x - k * (fxLn2 : Int)).toNat
  (fxExpSeries r 100 0 fxOne fxOne, k)

/-- A dyadic number in fixed point, rounded down. -/
def toFx (m e : Int) : Int := if 0 ≤ e + fxP then m * 2 ^ (e + fxP).toNat else m / 2 ^ (-(e + fxP)).toNat

/-- Whether the magnitude of a finite number is at least 1,024, where every one of these functions has left the range of FP32. -/
def beyond1024 (m e : Int) : Bool :=
  if 0 ≤ e then decide (1024 ≤ m.natAbs * 2 ^ e.toNat) else decide (1024 * 2 ^ (-e).toNat ≤ m.natAbs)

/-- A positive number smaller than every FP32 code, and one larger. -/
def tinyNum (neg : Bool) : Num := .fin (if neg then -1 else 1) (-2000) neg
def hugeNum : Num := .fin 1 2000 false

/-- exp(A) (VOPC 0x07). -/
def expNum (x : Num) : Num × Flags :=
  match x with
  | .nan a => (anyNan 20 a 0, snanFlag x)
  | .inf n => (if n then numZero false else .inf false, 0)
  | .fin m e _ =>
    if m = 0 then (.fin 1 0 false, 0)
    else if beyond1024 m e then (if m < 0 then tinyNum false else hugeNum, 0)
    else
      let r := fxExp (toFx m e)
      (.fin ((2 * r.1 + 1 : Nat) : Int) (r.2 - (fxP : Int) - 1) false, 0)

/-- x·σ(z) for a finite nonzero x and the fixed-point argument z of the logistic function: the product of x with e^z / (1 + e^z), the
exponential taken of a value at or below zero. -/
def timesLogistic (m e : Int) (z : Int) : Num :=
  let neg := decide (m < 0)
  let n := -(z.natAbs : Int)
  let r := fxExp n
  -- 1 + e^(−|z|) in fixed point
  let d := fxOne + (if 0 ≤ r.2 then r.1 * 2 ^ r.2.toNat else r.1 / 2 ^ (-r.2).toNat)
  if 0 ≤ z then quotSticky neg (2 * m.natAbs * fxOne + 1) d (e - 1)
  else quotSticky neg (2 * m.natAbs * r.1 + 1) d (e - 1 + r.2)

/-- A number just below x in magnitude, for a logistic factor that differs from one by less than any FP32 step. -/
def justBelow (m e : Int) : Num := .fin (m * 2 ^ 200 - (if m < 0 then -1 else 1)) (e - 200) false

/-- SiLU(A) = A·σ(A) (VOPC 0x0A, ACTFN 2). -/
def siluNum (x : Num) : Num × Flags :=
  match x with
  | .nan a => (anyNan 21 a 0, snanFlag x)
  | .inf n => if n then (dec32 (Config.actNegInf 0).toNat, 0) else (.inf false, 0)
  | .fin m e z =>
    if m = 0 then (numZero z, 0)
    else if beyond1024 m e then (if m < 0 then tinyNum true else justBelow m e, 0)
    else (timesLogistic m e (toFx m e), 0)

/-- GELU(A) in tanh form, A·(1 + tanh(√(2/π)·(A + 0.044715·A³)))/2 = A·σ(2√(2/π)·(A + 0.044715·A³)) (VOPC 0x0B, ACTFN 3). -/
def geluNum (x : Num) : Num × Flags :=
  match x with
  | .nan a => (anyNan 22 a 0, snanFlag x)
  | .inf n => if n then (dec32 (Config.actNegInf 1).toNat, 0) else (.inf false, 0)
  | .fin m e z =>
    if m = 0 then (numZero z, 0)
    else if beyond1024 m e then (if m < 0 then tinyNum true else justBelow m e, 0)
    else
      let a := toFx m e
      let a3 := a * a * a / (fxOne * fxOne : Nat)
      let y := a + a3 * 44715 / 1000000
      let w := 2 * y * (fxSqrt2OverPi : Int) / (fxOne : Int)
      (timesLogistic m e w, 0)

end Sys2Proof.Machine
end

