-- ==== Sys2Proof/Machine/State.lean ====
section
/-!
DEFINITION. The state of one XK9600 package as plain data, and the state right after power-on reset. Every piece of state
the manual names is here, under the chapter that owns it; INVENTORY.md lists each with its rule and reset value. Tables are sparse
(`Tab`): an unlisted key holds the reset record of its kind.
-/

namespace Sys2Proof.Machine

/-! ### Outcomes -/

/-- Reasons the machine stops. There is none: the block has no command whose rules stop it. What the part calls a fault is state
of its own (FLD_CORE_FAULT, a status code, a sub-cause), and an event the state does not admit changes nothing. -/
inductive Fault where
  deriving DecidableEq, Repr

/-- Reasons a command has no meaning here. -/
inductive Refusal where
  /-- Raised by an arm of `exec` whose instruction has no meaning yet. Safe. -/
  | notModelled (mnemonic : String)
  deriving DecidableEq, Repr

/-! ### What the package is (R2, R3, R6, R565, R571, R594) -/

inductive Variant where
  | A | B | C
  deriving DecidableEq, Repr

/-- Facts fixed for the life of the package: grade, serial, disabled cores (R3), fuses (R565), IDCODE fields (R594). -/
structure Package where
  variant : Variant
  serial : Nat
  /-- cores disabled at manufacturing test, as 11-bit core addresses (R3) -/
  disabled : List Nat
  idRev : BitVec 4
  jedec : BitVec 11
  /-- vendor key hashes fused in the Steward, slots 0..3 (R565) -/
  vendorKeys : List (BitVec 256)
  revoked : List Nat
  svnMinBoot : Nat
  svnMinCapt : Nat
  romDigest : BitVec 256
  deriving DecidableEq, Repr

/-! ### Field cores (chapter 02) -/

/-- States of a slot (R50). -/
inductive SlotState where
  | unbound | bound | running | paused | frozen
  deriving DecidableEq, Repr

/-- A command as read from its ring: ring index and the four words of R53. -/
structure Cmd where
  ring : Nat
  w0 : Word64
  w1 : Word64
  w2 : Word64
  w3 : Word64
  deriving DecidableEq, Repr

/-- A dispatched command waiting in an engine sub-queue (R62): how often it was passed over when ready (R65), and the AON count
since when it has been at the head (R96). -/
structure QEntry where
  cmd : Cmd
  /-- place in the slot's dispatch order (R81) -/
  seq : Nat
  passed : Nat
  since : Nat
  deriving DecidableEq, Repr

/-- A STREAM in progress (R51, R75): next tile to fetch, tiles being fetched, tiles landed, and whether it has been stopped. -/
structure StreamSt where
  next : Nat
  inflight : List Nat
  landed : Nat
  stopped : Bool
  deriving DecidableEq, Repr

/-- A landed tile no matrix command has consumed (R76): its FULL_H, the stream's serial, its index, and the fault held on its buffer. -/
structure LandedTile where
  hurdle : Nat
  serial : Nat
  tile : Nat
  cause : Option Nat
  deriving DecidableEq, Repr

/-- A GMM in progress (R156 to R164): next entry to read, entries whose epilogue is still to run (index and the 64 bytes
read), and whether it ends before its remaining entries. -/
structure GmmSt where
  next : Nat
  epilogues : List (Nat × List Byte)
  ended : Bool
  deriving DecidableEq, Repr

/-- What remains of a started command beyond its completion. -/
inductive Work where
  | done
  | stream (st : StreamSt)
  | gmm (g : GmmSt)
  /-- a PUT or RSIG not yet accepted: its SEQ and RESTART bit (R465), the resend wait in µs and, while it waits, the AON count it began at -/
  | put (seq : Nat) (restart : Bool) (backoff : Nat) (waitFrom : Option Nat)
  | rsig (backoff : Nat) (waitFrom : Option Nat)
  /-- a fabric command waiting for the response to its transaction -/
  | txn (id : Nat)
  /-- a write whose lines the twin holds: it completes once the directory has applied them (R203) -/
  | lines (l : List (Nat × Nat))
  deriving DecidableEq, Repr

/-- A started command (R66): engine 0 matrix, 1 vector, 2 data mover, 3 message; its arrays, its accumulator rows
(absolute, first and count), and its remaining work. -/
structure Started where
  serial : Nat
  engine : Nat
  cmd : Cmd
  /-- place in the slot's dispatch order (R81) -/
  seq : Nat
  arrays : Nat
  accLo : Nat
  accN : Nat
  work : Work
  since : Nat
  deriving DecidableEq, Repr

/-- What a slot drains toward (R50, SLOT_DRAINED): PAUSED or STOPPED record. -/
inductive Drain where
  | pausing | stopping
  deriving DecidableEq, Repr

/-- One slot of a core (R46, R50, R102 to R105). -/
structure SlotSt where
  cfg : Word64
  state : SlotState
  head : BitVec 8
  tail : BitVec 8
  tstage : BitVec 8
  defOvf : Bool
  bindErr : Bool
  fpf : BitVec 5
  fault : Word64
  faddr : Word64
  /-- engine sub-queues: matrix, vector, data mover, message -/
  q0 : List QEntry
  q1 : List QEntry
  q2 : List QEntry
  q3 : List QEntry
  /-- the front-end command being executed, which blocks the slot's dispatch (R63) -/
  fe : Option QEntry
  started : List Started
  tiles : List LandedTile
  /-- ring indices at or after HEAD whose commands had started when a PAUSE rewound HEAD: they are never dispatched again (R50, R51) -/
  skip : List Nat
  /-- the deferred table of R78: TAG and cause, at most 16 -/
  deferred : List (Nat × Nat)
  /-- the next entry of a GMM withdrawn by PAUSE (R164) -/
  gmmNext : Option Nat
  drain : Option Drain
  esc : Nat
  /-- heat and lap whose commands the starter has placed in the slot (R390) -/
  heat : Nat
  deriving DecidableEq, Repr

/-- A completion record (R99). -/
structure Record where
  kind : Nat
  col : Nat
  slot : Nat
  ctx : Nat
  ring : Nat
  tag : Nat
  cause : Nat
  cycle : Nat
  deriving DecidableEq, Repr

/-- One Field core. -/
structure Core where
  spad : Tab Byte
  /-- accumulator element at row * 64 + column -/
  acc : Tab Word32
  s0 : SlotSt
  s1 : SlotSt
  s2 : SlotSt
  s3 : SlotSt
  inbox : Tab Word64
  /-- entries each inbox holds: HEAD = TAIL alone does not tell a full ring from an empty one -/
  inboxN : Tab Nat
  chan : Tab Word64
  hurdle : Tab Word64
  /-- next SEQ of each channel (R88) and channels whose next PUT carries RESTART (R446) -/
  chanSeq : Tab Nat
  restart : List Nat
  /-- FLD_WDOG as written; `none`: the value of the settings field WDOG_US -/
  wdog : Option Word32
  /-- DBG_CORE_CTRL (R623) -/
  ctrl : Word64
  /-- the command a STEP runs (R604): slot and serial, once started -/
  step : Option (Nat × Option Nat)
  /-- a command held by a breakpoint, exempt at its next dispatch attempt (R605): slot and ring index -/
  brkPass : Option (Nat × Nat)
  /-- slot served last by the front end and by each engine (R62, R64) -/
  rrFe : Nat
  rr0 : Nat
  rr1 : Nat
  rr2 : Nat
  rr3 : Nat
  serial : Nat
  /-- credits on their way back inside the package: sending core, channel, count (R89) -/
  creditOut : List (Nat × Nat × Nat)
  /-- expected SEQ of delivering channels, keyed by node, core, channel and the inbox delivered to (R465, R466) -/
  expect : Tab Nat
  /-- a completion record the core holds for want of queue room (R100) -/
  held : List Record
  /-- counters of R614 in quarters of Field cycles, keyed by unit * 10 + state (IDLE is what remains of the cycles counted), 99 the cycles
  the core was halted in, and 100 + slot * 11 + unit * 2 (BUSY), + 1 (LOST) -/
  counters : Tab Nat
  deriving DecidableEq, Repr

/-- One starter core: its completion queue (R99), whether C1 marked its row unavailable (R101), its local memory. -/
structure Starter where
  queue : List Record
  unavailable : Bool
  mem : Tab Byte
  deriving DecidableEq, Repr

/-! ### Beside dies (chapter 05) -/

inductive RingState where
  | idle | running | stopped
  deriving DecidableEq, Repr

/-- A beside command that has started: ring index, its 64 bytes, whether it read poison, whether its effect is complete. -/
structure BStarted where
  index : Nat
  words : List Byte
  poisoned : Bool
  /-- output lines the twin holds, whose write the directory has still to apply (R203) -/
  lines : List (Nat × Nat)
  deriving DecidableEq, Repr

/-- A beside ring (R186, R196). -/
structure Ring where
  tail : BitVec 8
  head : BitVec 8
  state : RingState
  owner : BitVec 6
  en : Bool
  sram : Tab Byte
  started : List BStarted
  deriving DecidableEq, Repr

/-- A directory entry (R202): whether the twin holds the line modified, and its place in allocation order. -/
structure DirEntry where
  held : Bool
  modified : Bool
  order : Nat
  deriving DecidableEq, Repr

/-- What waits for the twin's answer on one line (R203, R472): a request to serve, or a write to apply. -/
inductive LineJob where
  | rdS | rdM (needData : Bool) | write (off : Nat) (data : List Byte) (poison : Bool) | read
  /-- the line is recalled to make room in its set for another line's request (R203) -/
  | evictFor (line : Nat) (needM : Bool) (needData : Bool)
  deriving DecidableEq, Repr

/-- One Beside die with its DRAM stack. -/
structure BesideDie where
  mem : Tab Byte
  /-- poisoned 64-byte lines (R206) -/
  poison : Tab Bool
  map : Tab Word64
  wp : Tab Word64
  rings : Tab Ring
  dir : Tab DirEntry
  dirOrder : Nat
  /-- lines with an INV or RECALL outstanding, with the jobs behind them in arrival order -/
  waits : List (Nat × List LineJob)
  ceCount : Nat
  ueCount : Nat
  spareLeft : Nat
  spareOut : Bool
  ueAddr : Word64
  scrubPos : Nat
  /-- corrected errors of each DRAM row in its 24 h window: row, count, window start (R209) -/
  rowCe : List (Nat × Nat × Nat)
  repairDue : List Nat
  /-- rows replaced with spare rows (R209) -/
  repaired : List Nat
  dlvBytes : Nat
  bsdBytes : Nat
  atomics : Nat
  /-- beside engine counters BUSY, IDLE, WAIT_DRAM, keyed by engine * 3 + k (R614) -/
  engCtr : Tab Nat
  deriving DecidableEq, Repr

/-! ### Far tiers and weights (chapter 06) -/

inductive ObjState where
  | writing | sealedObj | expiring | damaged
  deriving DecidableEq, Repr

/-- A far-tier object (R221, R222). Kinds as in TIR.CREATE with 1 STREAM_PAGES, 2 PARKED_KV, 3 SUMMARY, 4 ADAPTER_IMAGE. -/
structure Obj where
  present : Bool
  tier : Nat
  kind : Nat
  part : Nat
  size : Nat
  ttl : Nat
  state : ObjState
  deadline : Nat
  readers : Nat
  afterDelete : Bool
  /-- its 2 MiB extents on each CXL device, in device order (R214) -/
  devices : List Nat
  data : Tab Byte
  deriving DecidableEq, Repr

/-- A device of the CXL far port as FAR_PORT reports it (R213, R425): `usedGib` is the capacity of it the package uses. -/
structure FarDev where
  state : Nat
  lanes : Nat
  rate : Nat
  usedGib : Nat
  deriving DecidableEq, Repr

/-- A NAND block (R216): page reads since its erase, program/erase cycles, AON count of its last write, whether it holds data. -/
structure NandBlock where
  reads : Nat
  pe : Nat
  writtenAt : Nat
  mapped : Bool
  deriving DecidableEq, Repr

structure Far where
  objs : Tab Obj
  serialCxl : Nat
  serialNand : Nat
  devs : List FarDev
  farSeq : Nat
  blocks : Tab NandBlock
  readOnly : Bool
  spareBlk : Nat
  reloc : Nat
  /-- moves of a block the FTL has made -/
  moves : Nat
  deriving DecidableEq, Repr

/-- The states of a generation (R239). -/
inductive GenState where
  | loading | stagedLoading | sealedGen | staged | live | draining
  deriving DecidableEq, Repr

/-- A weight generation of a model (R231 to R239). `written` counts bytes per chunk, keyed by image * 2^20 + chunk; `hashed` holds
each hashed chunk's digest; `bases` are the 2 MiB-unit offsets of its images in the partition's ranges. -/
structure Gen where
  model : Nat
  number : Nat
  state : GenState
  loadRef : Nat
  keepCopy : Bool
  copyCxl : Bool
  relaySrc : Option Nat
  images : List (Nat × Nat)
  streamPages : Nat
  bases : List Nat
  objs : Tab Nat
  copies : Tab Nat
  written : Tab Nat
  hashed : Tab (BitVec 256)
  overwrite : Bool
  dropped : Nat
  digests : List (BitVec 256)
  bound : Nat
  /-- reload after DORMANT pending (R589) -/
  reloading : Bool
  deriving DecidableEq, Repr

inductive ASlotState where
  | free | loading | ready | retiring
  deriving DecidableEq, Repr

/-- An adapter slot (R253, R254). -/
structure ASlot where
  state : ASlotState
  ctx : Nat
  adapter : Nat
  mapped : Bool
  replace : Bool
  fn : Nat
  loadRef : Nat
  length : Nat
  written : Tab Nat
  hashed : Tab (BitVec 256)
  data : Tab Byte
  digest : BitVec 256
  bound : Nat
  deriving DecidableEq, Repr

/-- What MANIFEST, K_BOUNDS and the templates say of a bundle that the package acts on (R226: no byte layout is given). -/
structure Manifest where
  /-- cores of the footprint as 11-bit addresses, with each slot's FLD_SLOT_CFG word -/
  footprint : List (Nat × Word64)
  nearUnits : List Nat
  needsUnits : Nat
  vocab : Nat
  headsH : Nat
  experts : Nat
  kSel : Nat
  headWidth : Nat
  lists : List (Nat × Nat)
  roles : List Nat
  firstStage : List Nat
  exitLayers : List Nat
  tensors : List (Nat × Bool)
  expertOwner : List (Nat × Nat × Nat × Nat)
  streamsOk : Bool
  canonOk : Bool
  coldUnits : List (Nat × Nat × Nat × Nat)
  layerPages : Nat
  deriving DecidableEq, Repr, Inhabited

/-- A runnable program bundle (R225, R573). -/
structure Bundle where
  model : Nat
  generation : Nat
  fast : Bool
  grade : Nat
  digest : BitVec 256
  keyHash : BitVec 256
  man : Manifest
  deriving DecidableEq, Repr

inductive CSlotState where
  | empty | fetching | ready
  deriving DecidableEq, Repr

/-- An expert-cache slot (R250): the unit it holds (layer, expert), pins, last use lap. -/
structure CSlot where
  state : CSlotState
  layer : Nat
  unit : Nat
  pins : Nat
  lastLap : Nat
  predicted : Bool
  deriving DecidableEq, Repr

/-- A waiting fetch of a cold unit (R250). -/
structure CacheReq where
  layer : Nat
  unit : Nat
  stack : Nat
  predicted : Bool
  deriving DecidableEq, Repr

/-- A page of the window ring (R252): the stream page it holds, and whether it has landed. -/
structure RPage where
  page : Nat
  landed : Bool
  deriving DecidableEq, Repr

/-- A Pinned activation coordinated here (R242). -/
structure Activation where
  model : Nat
  gen : Nat
  waiting : List Nat
  startedAt : Nat
  path : Nat
  tag : Word32
  deriving DecidableEq, Repr

/-- The cut-over or role return in progress on this package (R243, R502). -/
structure CutSt where
  model : Nat
  gen : Nat
  images : Nat
  coordinator : Bool
  /-- nodes whose vote is still out (coordinator) and the largest vote received -/
  waiting : List Nat
  largest : Nat
  startedAt : Nat
  /-- this package's own vote: lowest unstarted lap and the AON count of the vote -/
  vote : Nat
  votedAt : Nat
  cutLap : Option Nat
  forwarded : Bool
  copying : Bool
  path : Nat
  tag : Word32
  deriving DecidableEq, Repr

/-- A relay in progress (R236): target nodes with the chunks each has acknowledged. -/
structure Relay where
  gen : Nat
  model : Nat
  images : Nat
  targets : List (Nat × List Nat)
  path : Nat
  tag : Word32
  deriving DecidableEq, Repr

/-! ### KV, sessions and serving (chapters 07 to 10) -/

/-- A KV page of a list (R264): the frame it occupies, as stack and frame number. -/
structure Page where
  stack : Nat
  frame : Nat
  fmt : Nat
  fill : Nat
  pos0 : Nat
  shared : Bool
  mirror : Bool
  deriving DecidableEq, Repr

/-- A list of a session on this package (R263, R267). -/
structure KvList where
  layer : Nat
  head : Nat
  home : Nat
  mirror : Bool
  nonlocalPages : Bool
  pages : List Page
  deriving DecidableEq, Repr

/-- The KV map of a session (R267), with the provisional positions of the lap in flight, the mirrored positions not yet acknowledged
(R283) and the session's park record on this package. -/
structure KvMap where
  present : Bool
  part : Nat
  d : Nat
  clen : Nat
  plen : Nat
  wfmt : Nat
  lists : List KvList
  unacked : Nat
  lap : Nat
  lapOn : Bool
  lastSeal : Nat
  /-- the last lap whose outcome was applied here, with its A (R496) -/
  sealedLap : Nat
  sealedA : Nat
  /-- role of the session's home, whether the session is HELD as this package knows it, an outcome kept until the lap's part here ends -/
  home : Nat
  held : Bool
  outcome : Option OutcomeMsg
  /-- handle of the request whose lap used the map last, which pays for what is done to its lists (R514) -/
  lastReq : Nat
  /-- frames the map and, at the home, the retained token IDs occupy (R267, R286), as stack * 2^20 + frame -/
  recFrames : List Nat
  /-- this package's park record: object ID, or frames of the pool where it stays there (R287 to R289) -/
  record : Option Nat
  poolFrames : List Nat
  recLen : Nat
  deriving DecidableEq, Repr

inductive SessState where
  | absent | live | held | parking | parked | resuming | dropped | recomputing
  deriving DecidableEq, Repr

/-- A session (R285, R286, R367). -/
structure Session where
  isOpen : Bool
  reuse : Nat
  ctx : Nat
  part : Nat
  tenant : Nat
  shareOk : Bool
  oneShot : Bool
  state : SessState
  tokens : List Nat
  committed : Nat
  generation : Nat
  adapter : Nat
  heldAt : Nat
  waiting : List Nat
  home : Nat
  request : Option Nat
  digest : BitVec 256
  summaryResumed : Bool
  recomputed : Bool
  deriving DecidableEq, Repr

/-- States of a request (R363, R364). -/
inductive ReqState where
  | free | queued | prefill | decode | completed | ended
  deriving DecidableEq, Repr

/-- A ledger entry (R363) with the working state of its request: submitting path, prompt, drafts, the lap in flight with
its verdicts and LAP_DONE reports (R350). -/
structure Req where
  reuse : Nat
  state : ReqState
  ctx : Nat
  part : Nat
  fn : Nat
  tenant : Nat
  session : Nat
  sessIdx : Nat
  generation : Nat
  adapter : Nat
  aslot : Nat
  summaryResumed : Bool
  kvRecomputed : Bool
  prefixShared : Bool
  stoppedByToken : Bool
  kvFmtChanged : Bool
  maxNew : Nat
  prompt : Nat
  delivered : Nat
  lap : Nat
  seed : Word64
  aonSubmit : Nat
  aonAdmit : Nat
  aonFirst : Nat
  aonEnd : Nat
  wall : Word64
  drops : Nat
  draftAcc : Nat
  draftRej : Nat
  laps : Nat
  ePrefill : Nat
  eDecode : Nat
  eSpec : Nat
  eResid : Int
  status : Nat
  stop : List Nat
  prio : Nat
  fault : Nat
  digest : BitVec 256
  tokens : List Nat
  prefixSess : Option Nat
  prefixLen : Nat
  done : Nat
  pending : Nat
  drafts : List Nat
  heat : Nat
  inLap : Bool
  /-- the heat whose lap a discarding seal of this request ended; 0 none (R317, R355) -/
  cutHeat : Nat
  curLap : Nat
  lapN : Nat
  verdicts : List (Nat × Verdict)
  lapDone : List Nat
  cohort : Bool
  posted : Bool
  withheld : Bool
  /-- token records of seals whose mirror the twin has not acknowledged (R483), by lap -/
  unposted : List (Nat × List Byte)
  home : Nat
  adopted : Bool
  receiptSigned : Bool
  mirror : Bool
  /-- a seal the lost home made that the survivor completes: lap and the holder's A (R496) -/
  sealWait : Option (Nat × Nat)
  deriving DecidableEq, Repr

/-- A tenant entry (R371). -/
structure Tenant where
  refill : Nat
  winUs : Nat
  cap : Nat
  balance : Int
  next : Nat
  deriving DecidableEq, Repr

/-- A cohort (R550): function, reserved ledger indexes still unused, members, admissions, AON of the first, closed. -/
structure Cohort where
  isOpen : Bool
  fn : Nat
  reserved : List Nat
  members : List Nat
  admitted : Nat
  firstAt : Nat
  deriving DecidableEq, Repr

inductive CtxState where
  | none | benched | resident | failed
  deriving DecidableEq, Repr

/-- A context (R383 to R394). -/
structure Ctx where
  state : CtxState
  part : Nat
  model : Nat
  prio : Nat
  slot : Nat
  saved : Bool
  image : Tab Core
  blocked : Option (List BlockCause)
  lastStart : Nat
  /-- AON counts of the last 9 hand-off arrivals, oldest first -/
  handOffs : List Nat
  faultTimes : List Nat
  /-- of the report interval: AON cycles runnable while BENCHED, AON cycles runnable or resident with a heat in flight, bring-ins, FAULT records,
  laps, and quarters of Field cycles charged by core * 16 + unit * 2 (BUSY), + 1 (LOST) (R393, R394) -/
  stallAon : Nat
  runAon : Nat
  swaps : Nat
  faults : Nat
  laps : Nat
  util : Tab Nat
  lastPrefill : Bool
  lockstep : Bool
  /-- the newest cohort, and the members of the closed ones before it that have not ended (R550) -/
  cohort : Cohort
  closed : List (List Nat)
  deriving DecidableEq, Repr

/-- An eviction in progress (R388): the candidate, its beneficiary, candidates left and the AON count of the PAUSE. -/
structure Evict where
  victim : Nat
  beneficiary : Nat
  rest : List (Nat × Nat)
  since : Nat
  deriving DecidableEq, Repr

inductive PartState where
  | free | active | stopped
  deriving DecidableEq, Repr

/-- The ranges of a partition on one stack, in 2 MiB units (R379). -/
structure StackRange where
  near : Nat
  kv : Nat
  bench : Nat
  base : Nat
  deriving DecidableEq, Repr

/-- The statistics registers kept per partition (R299, R337, R359, R396). -/
structure PartStats where
  kvDrops : Nat
  recomp : Nat
  drops : Nat
  staleReturn : Nat
  staleDisp : Nat
  exits : Nat
  laHit : Nat
  laMiss : Nat
  draftAcc : Nat
  draftRej : Nat
  staleVerdict : Nat
  swaps : Nat
  evictAbort : Nat
  /-- in AON cycles -/
  schedStall : Nat
  deriving DecidableEq, Repr

/-- A partition (R379, R381). -/
structure Part where
  state : PartState
  fn : Nat
  residency : Nat
  park : Nat
  linkShare : Nat
  share : Nat
  kvFrame : Nat
  rows : Word64
  cslots : Nat
  cslotMib : Nat
  rpages : Nat
  aslots : Nat
  aslotMib : Nat
  kvFmt : Nat
  quotaCxl : Nat
  quotaNand : Nat
  usedCxl : Nat
  usedNand : Nat
  ranges : List StackRange
  bundles : List Bundle
  gens : List Gen
  adapters : Tab ASlot
  cache : Tab CSlot
  cacheReq : List CacheReq
  ring : Tab RPage
  nextPage : Nat
  loading : Bool
  /-- references to each allocated KV frame, keyed by stack * 2^20 + frame -/
  frames : Tab Nat
  swapTimes : List Nat
  evict : Option Evict
  act : Option Activation
  cut : Option CutSt
  relay : Option Relay
  stats : PartStats
  reportAt : Nat
  deriving DecidableEq, Repr

/-- The exchange of one layer of a heat on this package as owner and as routing package (R311 to R325). -/
structure XSet where
  layer : Nat
  rows : List XEntry
  ends : List XEntry
  preds : List (Nat × List Nat)
  decided : Bool
  kept : List XEntry
  sentRows : Nat
  rets : List XEntry
  deriving DecidableEq, Repr

/-- A heat this package holds (R33, R316 to R318, R350). -/
structure Heat where
  live : Bool
  epoch : Nat
  mine : Bool
  desc : HeatDesc
  lapActive : Bool
  fetched : Bool
  ownDone : Bool
  sets : List XSet
  held : List (XKind × XEntry × List Nat)
  routers : List Nat
  exited : List (Nat × Nat)
  /-- what other packages sampled: handle, node, token and exit of each of its positions, proposals of its draft heads (R339) -/
  proposals : List (Nat × Nat × List (Nat × Nat) × List Nat)
  keptVerdicts : List Verdict
  handoffHeld : Option Nat
  lockstep : Bool
  /-- own and received checkpoint digests waiting for their counterpart: lap, layer, tensor, digest, own, AON -/
  digests : List (Nat × Nat × Nat × BitVec 256 × Bool × Nat)
  deriving DecidableEq, Repr

structure Serving where
  ledger : Tab Req
  sessions : Tab Session
  tenants : Tab Tenant
  queues : Tab (List Nat)
  ctxs : Tab Ctx
  heats : Tab Heat
  maps : Tab KvMap
  mirrors : Tab KvMap
  heatSerial : Nat
  /-- by context, the number above the largest lap of its job assigned or received here (R35) -/
  jobLap : Tab Nat
  deriving DecidableEq, Repr

/-! ### Host port (chapter 11) -/

/-- An event the package posts (R407): type, tag, status, RSP or NOTIFY, payload. -/
structure Event where
  type : Nat
  tag : Word32
  status : Nat
  rsp : Bool
  payload : List Byte
  deriving DecidableEq, Repr

/-- A deferred command in progress (R411): its type and message, and where it stands. -/
structure Deferred where
  type : Nat
  msg : Msg
  note : Nat
  deriving DecidableEq, Repr

/-- A PCIe function (R400 to R417). `sram` is BAR0 by byte offset (rings, MSI-X table). -/
structure Fn where
  enabled : Bool
  sram : Tab Byte
  cmdHead : Nat
  evtTail : Nat
  evtOverrun : Bool
  coalUs : Nat
  cmdLwm : Nat
  wasFull : Bool
  ap : Tab Word64
  loadDrop : Nat
  pba : BitVec 8
  backlog : List Event
  backlogBytes : Nat
  deferred : List Deferred
  /-- coalescing per vector: AON count of the last fire and whether an event arrived since -/
  coal : Tab (Nat × Bool)
  /-- the backlog reached its limit in this step, and the function's requests are to end with HOST_STALLED (R413) -/
  stalled : Bool
  announce : Option Nat
  deriving DecidableEq, Repr

structure Mbx where
  fns : Tab Fn
  bar2 : Nat
  ready : Bool
  degraded : Bool
  resetting : Bool
  linkWidth : Nat
  linkRate : Nat
  fnRr : Nat
  sideDeferred : List Deferred
  deriving DecidableEq, Repr

/-! ### Settings and boot (chapter 16) -/

/-- The settings of the running package: the running value of each field that differs from its factory value, by FIELD_ID
(R579); fields ignored under R9; fields changed since the last commit. -/
structure Settings where
  run : Tab Word64
  ignored : List Nat
  changed : List Nat
  src : Nat
  seq : Nat
  bankErr : BitVec 2
  /-- a die's FLD_NUM_CFG or BSD_CFG where its starters or a captain wrote it apart from the settings field -/
  numCfg : Tab Word64
  bsdCfg : Tab Word64
  deriving DecidableEq, Repr

/-- A boot-record entry (R568). -/
structure BootRec where
  kind : Nat
  cause : Nat
  boot : Nat
  aon : Nat
  deriving DecidableEq, Repr

structure Boot where
  /-- the 64 MiB NOR (R561), erased bytes 0xFF; its boot record region holds the log of R568 -/
  nor : Tab Byte
  stage : Nat
  cause : Nat
  bootSlot : Bool
  captSlot : Bool
  identityFail : Bool
  ledgerLoss : Bool
  planErr : Bool
  bootCount : Nat
  stopped : Bool
  captStarted : Option Nat
  captFails : Tab Nat
  fwBoot : Nat
  fwCapt : Nat
  svnBoot : Nat
  svnCapt : Nat
  keySlot : Nat
  l0 : BitVec 256
  l1 : BitVec 256
  l2 : BitVec 256
  commits : List (Nat × Word32 × Settings)
  resetWait : Option Nat
  /-- the three steps before an ordered warm reset have been taken (R586) -/
  resetSteps : Bool
  deriving DecidableEq, Repr

/-! ### Fabric (chapter 12) -/

inductive LinkState where
  | down | training | identify | up | degraded
  deriving DecidableEq, Repr

/-- A fabric link (R434 to R436, R476). -/
structure Link where
  state : LinkState
  twoLane : Bool
  miswired : Bool
  peer : Nat
  peerLink : Nat
  since : Nat
  retryAt : Nat
  txSeq : Nat
  rxSeq : Nat
  replay : List (Nat × Flit)
  lastAck : Nat
  replaysOf : Nat
  resync : Option Nat
  replays : Nat
  fecUncorr : Nat
  downs : Nat
  changing : Bool
  deriving DecidableEq, Repr

/-- A fabric transaction of a core of this package (R464, R465). -/
structure Txn where
  open_ : Bool
  core : Nat
  slot : Nat
  serial : Nat
  kind : Nat
  node : Nat
  part : Nat
  near : Nat
  spad : Nat
  len : Nat
  stat : Nat
  noFault : Bool
  size8 : Bool
  since : Nat
  /-- served through the fabric line cache (R469), and the bytes moved so far -/
  cached : Bool
  moved : Nat
  deriving DecidableEq, Repr

inductive CLine where
  | I | S | M
  deriving DecidableEq, Repr

/-- A line of the fabric line cache (R469): state, bytes, the poison of its fill, a request outstanding for it, a WB sent on eviction not
yet acknowledged, and its place in order of use. -/
structure CacheLine where
  state : CLine
  data : List Byte
  poison : Bool
  asking : Bool
  evicting : Bool
  order : Nat
  deriving DecidableEq, Repr

structure Fab where
  links : Tab Link
  node : Nat
  db : List (LsRecord × Nat)
  ownSeq : Nat
  refloodAt : Nat
  conflict : List Nat
  planWeak : Bool
  topoSeq : Nat
  hopDrop : Nat
  roleFwd : Nat
  /-- role table: node + 1 (0: none) and epoch (R453) -/
  roles : Tab (Nat × Nat)
  ownRole : Nat
  seen : List (Nat × Nat)
  pseq : Nat
  txns : Tab Txn
  txnNext : Nat
  lines : Tab CacheLine
  lineOrder : Nat
  deriving DecidableEq, Repr

/-! ### Twins (chapter 13) -/

inductive PairState where
  | unpaired | paired | single | rejoining
  deriving DecidableEq, Repr

/-- The return of a role to a rejoined twin (R502): the role, the node it goes to and its next epoch; at the coordinator the votes still out and
the largest received; this package's own vote; the lap L once it is fixed. -/
structure RoleReturn where
  role : Nat
  node : Nat
  epoch : Nat
  coordinator : Bool
  waiting : List Nat
  largest : Nat
  startedAt : Nat
  vote : Nat
  lap : Option Nat
  deriving DecidableEq, Repr

structure Twin where
  state : PairState
  pairErr : Bool
  isolated : Bool
  failovers : Nat
  lsChecks : Nat
  lsMismatch : Nat
  lsUnchecked : Nat
  lsLast : Word64
  fence : List Nat
  hbSentAt : Nat
  hbSeenAt : Nat
  suspected : Bool
  probeAt : Option Nat
  /-- probes this package forwards as witness: asker, target, AON -/
  witness : List (Nat × Nat × Nat)
  handoff : List (Nat × Nat)
  adopted : List Nat
  joinWait : Option JoinInfo
  joinAt : Nat
  copying : Bool
  returning : Option RoleReturn
  retryAt : Option Nat
  pairRetryAt : Nat
  fenced : Bool
  /-- the twin's serial number, as the pairing found it -/
  serial : Nat
  deriving DecidableEq, Repr

/-! ### Energy and power (chapter 14) -/

/-- The account of one request on this package (R357, R514 to R521): energies in µJ of the open span, what the interval has
charged so far, and the chain. -/
structure Acct where
  home : Nat
  handle : Nat
  tenant : Nat
  part : Nat
  ctx : Nat
  gen : Nat
  /-- dynamic counts of the interval charged to this request alone, by class (R514) -/
  acts : Tab Nat
  lapUj : Nat
  prefillLap : Bool
  ePrefill : Nat
  eDecode : Nat
  eSpec : Nat
  eResid : Int
  spanAt : Nat
  lapFirst : Option Nat
  lapLast : Option Nat
  positions : Nat
  seq : Nat
  prevHash : Nat
  /-- positions committed and carried by the lap as its outcome gave them, and whether a lap's energy waits for its outcome (R357) -/
  lapA : Nat
  lapN : Nat
  lapOpen : Bool
  finalAt : Option Nat
  closed : Bool
  late : Bool
  deriving DecidableEq, Repr

/-- A chain of a request as its home knows it (R520, R523). -/
structure Chain where
  handle : Nat
  subject : Nat
  lastHash : Nat
  final : Bool
  ePrefill : Nat
  eDecode : Nat
  eSpec : Nat
  eResid : Int
  deriving DecidableEq, Repr

/-- A receipt waiting in an open block: its bytes and the AON count when it closed. -/
structure Receipt where
  bytes : List Byte
  closedAt : Nat
  shareOf : Option (Nat × Nat × Nat × Bool)
  deriving DecidableEq, Repr

/-- A block chain (R525, R526): keys 0..15 the partitions', 16 the overhead chain. -/
structure BlockChain where
  openR : List Receipt
  closedB : List (List Receipt × Nat)
  bseq : Nat
  prev : BitVec 256
  deriving DecidableEq, Repr

structure Energy where
  inputUj : Nat
  stageUj : List Nat
  powerMw : Nat
  vin : Nat
  samples : List Nat
  coefs : List Nat
  coefSeq : Nat
  coefNext : Option (List Nat)
  refitAt : Nat
  dataSecs : Nat
  /-- activity of the interval: context * 16 + class, context 256 the package overhead -/
  activity : Tab Nat
  intervalAt : Nat
  intervalUj : Nat
  accts : List Acct
  /-- modelled energy of the twin's requests that no share of the twin has signed yet (R482, R497) -/
  mirrored : List Acct
  chains : List Chain
  ovMeasured : Nat
  ovRequests : Int
  ovAccount : Int
  ovSeq : Nat
  ovPrev : Nat
  ovAt : Nat
  ovActive : List (Nat × Nat)
  blocks : Tab BlockChain
  blocksSigned : Nat
  flushFail : Nat
  openMark : Bool
  deriving DecidableEq, Repr

inductive PowerState where
  | run | hold | nap | rest | dormant
  deriving DecidableEq, Repr

/-- The dormant image (R589). -/
structure Dormant where
  parts : Tab Part
  ctxs : Tab Ctx
  tenants : Tab Tenant
  sessions : Tab Session
  records : Tab KvMap
  /-- part maps, protections and ring owners of the Beside dies, which follow the partitions -/
  dies : Tab BesideDie
  deriving DecidableEq, Repr

/-- Governor, frequency domain and power state (R528 to R541). -/
structure Power where
  state : PowerState
  freq : Nat
  offer : Nat
  limit : Nat
  paceLost : Bool
  fastTrips : Nat
  stretch : Nat
  capLimit : Nat
  thermLimit : Nat
  fastLimit : Nat
  capBelowSince : Nat
  thermBelowSince : Nat
  offers : Tab (Nat × Nat)
  offerSeq : Nat
  wakeAt : Option Nat
  ready : List (Nat × Nat × Nat)
  readySent : Option Nat
  resting : Bool
  fieldOn : Bool
  besideOn : Bool
  junctionOn : Bool
  portOn : Bool
  stewardOn : Bool
  dormantImage : Option Dormant
  deriving DecidableEq, Repr

/-- Power entry and pins (chapter 18). -/
structure Entry where
  aux : Bool
  inputOn : Bool
  warnPin : Bool
  warnTaken : Bool
  uvEvent : Bool
  thermTrip : Bool
  straps : BitVec 8
  nid : BitVec 8
  warns : Nat
  perst : Bool
  hostHeld : Bool
  pwrgd : Bool
  thermtripN : Bool
  flushed : Bool
  oscDead : Bool
  deriving DecidableEq, Repr

/-! ### Debug (chapter 17) -/

/-- The counters frozen at one instant (R615, R617). -/
structure Image where
  cause : Nat
  scope : Nat
  aon : Nat
  reason : Nat
  source : Nat
  freq : Nat
  boot : Nat
  cycle : Nat
  /-- Beside cycles at the freeze -/
  besideCycle : Nat
  /-- quarters of Field cycles counted by the freeze, from which IDLE follows -/
  countQ : Nat
  cores : Tab Core
  beside : Tab BesideDie
  regs : List Word64
  deriving DecidableEq, Repr

/-- An armed tensor watch (R619). -/
structure Watch where
  ctx : Nat
  tensor : Nat
  lap : Nat
  hostAddr : Nat
  length : Nat
  fn : Nat
  deriving DecidableEq, Repr

/-- An APACC access in progress (R600): address, data, size code, write. -/
structure Access where
  addr : Word64
  data : Word64
  size : Nat
  write : Bool
  deriving DecidableEq, Repr

structure Captain where
  ctrl : Word64
  pc : Word32
  brk : Tab Word64
  /-- bytes of its memory the debug port has written (R600); what firmware keeps in the others the manual does not say -/
  mem : Tab Byte
  deriving DecidableEq, Repr

structure Debug where
  level : Nat
  fails : Nat
  lockout : Bool
  unlocked : Bool
  challenge : Option (List Byte × Nat)
  boundary : List Bool
  extest : Bool
  ir : Nat
  dr : Nat
  access : Option Access
  apData : Word64
  apStatus : Nat
  whistle : Word64
  packageWhistle : Bool
  applWhistle : Bool
  heldSeq : List (Nat × Nat)
  whistled : List Nat
  flash : Word64
  erasing : Bool
  erased : List Nat
  capts : Tab Captain
  brk : Tab Word64
  brkSel : Tab Word64
  imageW : Option Image
  imageR : Option Image
  imageReady : Bool
  scanPos : Nat
  watches : List Watch
  deriving DecidableEq, Repr

/-! ### What the package sends -/

/-- Where a message goes: a node, a role, the twin, every package (broadcast), or every package that holds a heat. -/
inductive Dest where
  | node (n : Nat) | role (r : Nat) | all | holders (heat : Nat) | witness (n : Nat)
  deriving DecidableEq, Repr

/-- Messages the package sends on CTL and as firmware messages on REQ and BLK (R440). -/
inductive FwMsg where
  | outcome (o : OutcomeMsg) | heatCancel (heat epoch : Nat) | verdict (v : Verdict) | lapDone (role heat lap epoch : Nat)
  | heatDesc (d : HeatDesc) | genPrepare (part model gen : Nat) | genVote (part model gen : Nat) (yes : Bool)
  | genCommit (part model gen : Nat) | cutPrepare (part model gen images : Nat) | cutVote (part model lowest : Nat) (yes : Bool)
  | cutCommit (part model lap : Nat) | cutAbort (part model : Nat)
  | whistle (scope reason : Nat) | whistleNote (release : Bool) | whistleRelease
  | freqOffer (dom offer seq : Nat) | restReady (state t : Nat) | restGo (state delay : Nat) | restCancel
  | pair (p : PairInfo) | heartbeat | twinYield | probe (target : Nat) | probeReply | probeAnswer (alive : Bool)
  | roleMove (role old new epoch : Nat) | lapReplay (heat lap epoch : Nat) | handoffOk (heat lap : Nat)
  | sealMirror (handle lap : Nat) (tokens : List Nat) | sealMirrorAck (handle lap : Nat) | sealQuery (handle : Nat)
  | sealReply (handle lap a : Nat) | joinReq | joinOk | joinWait | checkpoint (heat lap layer tensor : Nat) (d : BitVec 256)
  | linkState (r : LsRecord) | resyncAsk (link last : Nat) | proposals (heat lap handle : Nat) (tokens : List (Nat × Nat)) (drafts : List Nat)
  | parkOrder (session : Nat) | parkReport (session : Nat) (ok : Bool) | resumeOrder (session : Nat)
  | resumeReport (session : Nat) (ok : Bool) | dropReport (session : Nat) | freeOrder (session : Nat)
  | kvMirror (session layer head pos fmt : Nat) (data : List Byte) | mirrorAck (session layer head pos count : Nat)
  | relayChunk (part gen image chunk : Nat) (data : List Byte) | relayAck (part gen image chunk : Nat)
  | shareOpen (home handle subject : Nat) | shareSigned (m : ShareMsg) | ledgerCopy (handle : Nat) | sessionCopy (session : Nat) | tenantCopy (tenant : Nat)
  | energyCopy (home handle : Nat) | shareCopy (m : ShareMsg)
  | endOrder (home handle status fault : Nat) | parkDone (session : Nat) | recordDrop (session : Nat)
  | ctlRaw (code : Nat) (payload : List Byte)
  deriving DecidableEq, Repr

/-- Coherence messages (R471). -/
inductive CohMsg where
  | rdS (line : Nat) | rdM (line : Nat) (needData : Bool) | data (line : Nat) (modified poison : Bool) (bytes : Option (List Byte))
  | inv (line : Nat) | recall (line : Nat) | ack (line : Nat) (noData : Bool) | wb (line : Nat) (poison : Bool) (bytes : List Byte)
  | evict (line : Nat) | wbAck (line : Nat)
  deriving DecidableEq, Repr

/-- Everything that leaves the package, in the order it leaves. -/
inductive Out where
  | fw (seq : Nat) (dest : Dest) (m : FwMsg)
  | packet (p : Packet)
  | coh (m : CohMsg)
  | flit (link : Nat) (f : Flit)
  | flitCtl (link ack : Nat) (nak : Bool)
  | msix (fn vector : Nat)
  | dma (fn addr : Nat) (bytes : List Byte)
  | sideband (hdr : List Byte) (payload : List Byte)
  | spdm (doe : Bool) (code : Nat) (bytes : List Byte)
  | ident (link : Nat) (i : Ident)
  | tdo (value : Nat)
  /-- what a read of a register returned (R19) -/
  | regRead (value : Word64)
  deriving DecidableEq, Repr

/-! ### The state -/

structure State where
  /-- the AON counter (R26) and Field cycles in quarters (a Field clock of F MHz runs F/4 cycles per AON cycle) -/
  aon : Nat
  fieldQ : Nat
  /-- quarters of Field cycles the counters of R614 have counted -/
  countQ : Nat
  besideQ : Nat
  pkg : Package
  settings : Settings
  cores : Tab Core
  starters : Tab Starter
  beside : Tab BesideDie
  far : Far
  parts : Tab Part
  srv : Serving
  mbx : Mbx
  boot : Boot
  fab : Fab
  twin : Twin
  energy : Energy
  power : Power
  entry : Entry
  dport : Debug
  out : List Out
  /-- the model's own: how many free values have been drawn -/
  drawn : Nat
  pending : List Instr
  deriving DecidableEq, Repr

/-! ### The state right after power-on reset (R590)

A field the manual gives no reset value for (a memory's contents, a firmware record before anything is created, fuses, the serial number)
holds the value its reset record names; INVENTORY.md lists each, and log 1 to 4 say which are the model's choice. -/

/-- Grade A, serial number 1, nothing disabled, no fuse blown. DESIGN CHOICE (log 3). -/
def Package.reset : Package where
  variant := .A
  serial := 1
  disabled := []
  idRev := 0
  jedec := 0
  vendorKeys := [0, 0, 0, 0]
  revoked := []
  svnMinBoot := 0
  svnMinCapt := 0
  romDigest := 0

/-- A slot: every field H:0 (R103, R104, R105). -/
def SlotSt.reset : SlotSt where
  cfg := 0
  state := .unbound
  head := 0
  tail := 0
  tstage := 0
  defOvf := false
  bindErr := false
  fpf := 0
  fault := 0
  faddr := 0
  q0 := []
  q1 := []
  q2 := []
  q3 := []
  fe := none
  started := []
  tiles := []
  skip := []
  deferred := []
  gmmNext := none
  drain := none
  esc := 0
  heat := 0

/-- A core: registers H:0 (R106); scratchpad and accumulators zero, a DESIGN CHOICE (log 1). -/
def Core.reset : Core where
  spad := []
  acc := []
  s0 := SlotSt.reset
  s1 := SlotSt.reset
  s2 := SlotSt.reset
  s3 := SlotSt.reset
  inbox := []
  inboxN := []
  chan := []
  hurdle := []
  chanSeq := []
  restart := []
  wdog := none
  ctrl := 0
  step := none
  brkPass := none
  rrFe := 3
  rr0 := 3
  rr1 := 3
  rr2 := 3
  rr3 := 3
  serial := 0
  creditOut := []
  expect := []
  held := []
  counters := []

/-- A starter with an empty queue (R99). -/
def Starter.reset : Starter where
  queue := []
  unavailable := false
  mem := []

/-- A beside ring, H:0 (R196). -/
def Ring.reset : Ring where
  tail := 0
  head := 0
  state := .idle
  owner := 0
  en := false
  sram := []
  started := []

/-- A directory entry the twin does not hold. -/
def DirEntry.reset : DirEntry where
  held := false
  modified := false
  order := 0

/-- A Beside die: registers H:0 (R180, R196, R210, R247), memory zero (DESIGN CHOICE, log 1). -/
def BesideDie.reset : BesideDie where
  mem := []
  poison := []
  map := []
  wp := []
  rings := []
  dir := []
  dirOrder := 0
  waits := []
  ceCount := 0
  ueCount := 0
  spareLeft := 0
  spareOut := false
  ueAddr := 0
  scrubPos := 0
  rowCe := []
  repairDue := []
  repaired := []
  dlvBytes := 0
  bsdBytes := 0
  atomics := 0
  engCtr := []

/-- No object. -/
def Obj.reset : Obj where
  present := false
  tier := 0
  kind := 0
  part := 0
  size := 0
  ttl := 0
  state := .writing
  deadline := 0
  readers := 0
  afterDelete := false
  devices := []
  data := []

/-- An erased, unmapped NAND block. -/
def NandBlock.reset : NandBlock where
  reads := 0
  pe := 0
  writtenAt := 0
  mapped := false

/-- No objects, no devices found (R213). SPARE_BLK: the raw blocks beyond the usable capacity, DESIGN CHOICE (log 26). -/
def Far.reset : Far where
  objs := []
  serialCxl := 0
  serialNand := 0
  devs := []
  farSeq := 0
  blocks := []
  readOnly := false
  spareBlk := 34986
  reloc := 0
  moves := 0

/-- A free adapter slot. -/
def ASlot.reset : ASlot where
  state := .free
  ctx := 0
  adapter := 0
  mapped := false
  replace := false
  fn := 0
  loadRef := 0
  length := 0
  written := []
  hashed := []
  data := []
  digest := 0
  bound := 0

/-- An empty expert-cache slot. -/
def CSlot.reset : CSlot where
  state := .empty
  layer := 0
  unit := 0
  pins := 0
  lastLap := 0
  predicted := false

/-- A window-ring page that holds nothing. -/
def RPage.reset : RPage where
  page := 0
  landed := false

/-- No session on this package. -/
def KvMap.reset : KvMap where
  present := false
  part := 0
  d := 0
  clen := 0
  plen := 0
  wfmt := 0
  lists := []
  unacked := 0
  lap := 0
  lapOn := false
  lastSeal := 0
  sealedLap := 0
  sealedA := 0
  home := 0
  held := false
  outcome := none
  lastReq := 0
  recFrames := []
  record := none
  poolFrames := []
  recLen := 0

/-- A session that is not open. -/
def Session.reset : Session where
  isOpen := false
  reuse := 0
  ctx := 0
  part := 0
  tenant := 0
  shareOk := false
  oneShot := false
  state := .absent
  tokens := []
  committed := 0
  generation := 0
  adapter := 0
  heldAt := 0
  waiting := []
  home := 0
  request := none
  digest := 0
  summaryResumed := false
  recomputed := false

/-- A free ledger entry. -/
def Req.reset : Req where
  reuse := 0
  state := .free
  ctx := 0
  part := 0
  fn := 0
  tenant := 0
  session := 0
  sessIdx := 0
  generation := 0
  adapter := 0
  aslot := 0
  summaryResumed := false
  kvRecomputed := false
  prefixShared := false
  stoppedByToken := false
  kvFmtChanged := false
  maxNew := 0
  prompt := 0
  delivered := 0
  lap := 0
  seed := 0
  aonSubmit := 0
  aonAdmit := 0
  aonFirst := 0
  aonEnd := 0
  wall := 0
  drops := 0
  draftAcc := 0
  draftRej := 0
  laps := 0
  ePrefill := 0
  eDecode := 0
  eSpec := 0
  eResid := 0
  status := 0
  stop := []
  prio := 0
  fault := 0
  digest := 0
  tokens := []
  prefixSess := none
  prefixLen := 0
  done := 0
  pending := 0
  drafts := []
  heat := 0
  inLap := false
  cutHeat := 0
  curLap := 0
  lapN := 0
  verdicts := []
  lapDone := []
  cohort := false
  posted := false
  withheld := false
  unposted := []
  home := 0
  adopted := false
  receiptSigned := false
  mirror := false
  sealWait := none

/-- A tenant that is not configured: a refill of zero (R371). -/
def Tenant.reset : Tenant where
  refill := 0
  winUs := 0
  cap := 0
  balance := 0
  next := 0

/-- No cohort. -/
def Cohort.reset : Cohort where
  isOpen := false
  fn := 0
  reserved := []
  members := []
  admitted := 0
  firstAt := 0

/-- No context. -/
def Ctx.reset : Ctx where
  state := .none
  part := 0
  model := 0
  prio := 0
  slot := 0
  saved := false
  image := []
  blocked := none
  lastStart := 0
  handOffs := []
  faultTimes := []
  stallAon := 0
  runAon := 0
  swaps := 0
  faults := 0
  laps := 0
  util := []
  lastPrefill := false
  lockstep := false
  cohort := Cohort.reset
  closed := []

/-- Statistics H:0 (R299, R337, R359, R396). -/
def PartStats.reset : PartStats where
  kvDrops := 0
  recomp := 0
  drops := 0
  staleReturn := 0
  staleDisp := 0
  exits := 0
  laHit := 0
  laMiss := 0
  draftAcc := 0
  draftRej := 0
  staleVerdict := 0
  swaps := 0
  evictAbort := 0
  schedStall := 0

/-- A partition that does not exist. -/
def Part.reset : Part where
  state := .free
  fn := 0
  residency := 0
  park := 0
  linkShare := 0
  share := 0
  kvFrame := 0
  rows := 0
  cslots := 0
  cslotMib := 0
  rpages := 0
  aslots := 0
  aslotMib := 0
  kvFmt := 0
  quotaCxl := 0
  quotaNand := 0
  usedCxl := 0
  usedNand := 0
  ranges := []
  bundles := []
  gens := []
  adapters := []
  cache := []
  cacheReq := []
  ring := []
  nextPage := 0
  loading := false
  frames := []
  swapTimes := []
  evict := none
  act := none
  cut := none
  relay := none
  stats := PartStats.reset
  reportAt := 0

/-- A heat that is not live. -/
def Heat.reset : Heat where
  live := false
  epoch := 0
  mine := false
  desc := ⟨0, 0, 0, 0, 0, 0, false, [], false⟩
  lapActive := false
  fetched := false
  ownDone := false
  sets := []
  held := []
  routers := []
  exited := []
  proposals := []
  keptVerdicts := []
  handoffHeld := none
  lockstep := false
  digests := []

/-- Nothing served. -/
def Serving.reset : Serving where
  ledger := []
  sessions := []
  tenants := []
  queues := []
  ctxs := []
  heats := []
  maps := []
  mirrors := []
  heatSerial := 0
  jobLap := []

/-- The MSI-X table after a reset: every vector masked, its Mask bit being vector control bit 0 (log 49). -/
def msixReset : Tab Byte := (List.range 8).map fun v => (0x800C + 16 * v, 1)

/-- A virtual function's registers, H: values (R403): CMD_LWM 32, everything else zero; not enabled. -/
def Fn.reset : Fn where
  enabled := false
  sram := msixReset
  cmdHead := 0
  evtTail := 0
  evtOverrun := false
  coalUs := 0
  cmdLwm := 32
  wasFull := false
  ap := []
  loadDrop := 0
  pba := 0
  backlog := []
  backlogBytes := 0
  deferred := []
  coal := []
  stalled := false
  announce := none

/-- The host port: PF0 enabled, BAR2 256 GiB (R401), the link not yet trained (width and rate 0). -/
def Mbx.reset : Mbx where
  fns := [(0, { Fn.reset with enabled := true })]
  bar2 := 2 ^ 38
  ready := false
  degraded := false
  resetting := false
  linkWidth := 0
  linkRate := 0
  fnRr := 15
  sideDeferred := []

/-- Factory values until boot firmware has applied a bank (R18, R577). -/
def Settings.reset : Settings where
  run := []
  ignored := []
  changed := []
  src := 0
  seq := 0
  bankErr := 0
  numCfg := []
  bsdCfg := []

/-- Before the boot ROM: an erased NOR (DESIGN CHOICE, log 2), STAGE 0, power-on as the reset cause (R568, R592). -/
def Boot.reset : Boot where
  nor := []
  stage := 0
  cause := 1
  bootSlot := false
  captSlot := false
  identityFail := false
  ledgerLoss := false
  planErr := false
  bootCount := 0
  stopped := false
  captStarted := none
  captFails := []
  fwBoot := 0
  fwCapt := 0
  svnBoot := 0
  svnCapt := 0
  keySlot := 0
  l0 := 0
  l1 := 0
  l2 := 0
  commits := []
  resetWait := none
  resetSteps := false

/-- A link that is DOWN, its counters H:0 (R434, R476). -/
def Link.reset : Link where
  state := .down
  twoLane := false
  miswired := false
  peer := 0
  peerLink := 0
  since := 0
  retryAt := 0
  txSeq := 0
  rxSeq := 0
  replay := []
  lastAck := 0
  replaysOf := 0
  resync := none
  replays := 0
  fecUncorr := 0
  downs := 0
  changing := false

/-- No transaction. -/
def Txn.reset : Txn where
  open_ := false
  core := 0
  slot := 0
  serial := 0
  kind := 0
  node := 0
  part := 0
  near := 0
  spad := 0
  len := 0
  stat := 0
  noFault := false
  size8 := false
  since := 0
  cached := false
  moved := 0

/-- A line the fabric line cache does not hold (R469). -/
def CacheLine.reset : CacheLine where
  state := .I
  data := []
  poison := false
  asking := false
  evicting := false
  order := 0

/-- No link up, no role, an empty database. -/
def Fab.reset : Fab where
  links := []
  node := 0
  db := []
  ownSeq := 0
  refloodAt := 0
  conflict := []
  planWeak := false
  topoSeq := 0
  hopDrop := 0
  roleFwd := 0
  roles := []
  ownRole := 0x3FF
  seen := []
  pseq := 0
  txns := []
  txnNext := 0
  lines := []
  lineOrder := 0

/-- Unpaired (R479); counters H:0 (R509). -/
def Twin.reset : Twin where
  state := .unpaired
  pairErr := false
  isolated := false
  failovers := 0
  lsChecks := 0
  lsMismatch := 0
  lsUnchecked := 0
  lsLast := 0
  fence := []
  hbSentAt := 0
  hbSeenAt := 0
  suspected := false
  probeAt := none
  witness := []
  handoff := []
  adopted := []
  joinWait := none
  joinAt := 0
  copying := false
  returning := none
  retryAt := none
  pairRetryAt := 0
  fenced := false
  serial := 0

/-- The factory coefficients of R513 in fJ (class 15: ppm). -/
def factoryCoefs : List Nat :=
  [160000, 190000, 220000, 60000, 4000, 120000, 3500, 5000, 10000, 40000,
   150000000, 9000000, 40000000, 25000000, 12000000, 60000]

/-- Counters start at 0 (R512). -/
def Energy.reset : Energy where
  inputUj := 0
  stageUj := []
  powerMw := 0
  vin := 0
  samples := []
  coefs := factoryCoefs
  coefSeq := 0
  coefNext := none
  refitAt := 0
  dataSecs := 0
  activity := []
  intervalAt := 0
  intervalUj := 0
  accts := []
  mirrored := []
  chains := []
  ovMeasured := 0
  ovRequests := 0
  ovAccount := 0
  ovSeq := 0
  ovPrev := 0
  ovAt := 0
  ovActive := []
  blocks := []
  blocksSigned := 0
  flushFail := 0
  openMark := false

/-- RUN at the nominal 2,000 MHz (R24), only the Steward die powered; limits at the boost ceiling. PRESUMED (log 4). -/
def Power.reset : Power where
  state := .run
  freq := 2000
  offer := 2000
  limit := 0
  paceLost := false
  fastTrips := 0
  stretch := 0
  capLimit := 2250
  thermLimit := 2250
  fastLimit := 2250
  capBelowSince := 0
  thermBelowSince := 0
  offers := []
  offerSeq := 0
  wakeAt := none
  ready := []
  readySent := none
  resting := false
  fieldOn := false
  besideOn := false
  junctionOn := false
  portOn := false
  stewardOn := true
  dormantImage := none

/-- Input and AUX_3V3 present, straps open (all ones are a choice of the board: DESIGN CHOICE, log 3, node 0). -/
def Entry.reset : Entry where
  aux := true
  inputOn := true
  warnPin := false
  warnTaken := false
  uvEvent := false
  thermTrip := false
  straps := 0
  nid := 0
  warns := 0
  perst := false
  hostHeld := false
  pwrgd := true
  thermtripN := true
  flushed := false
  oscDead := false

/-- A captain at program counter 0, not halted (R623). -/
def Captain.reset : Captain where
  ctrl := 0
  pc := 0
  brk := []
  mem := []

/-- The debug port locked, every DBG_ register H:0 (R599, R623). -/
def Debug.reset : Debug where
  level := 0
  fails := 0
  lockout := false
  unlocked := false
  challenge := none
  boundary := []
  extest := false
  ir := 0
  dr := 0
  access := none
  apData := 0
  apStatus := 0
  whistle := 0
  packageWhistle := false
  applWhistle := false
  heldSeq := []
  whistled := []
  flash := 0
  erasing := false
  erased := []
  capts := []
  brk := []
  brkSel := []
  imageW := none
  imageR := none
  imageReady := false
  scanPos := 0
  watches := []

/-- The package right after power-on reset, nothing commanded yet. -/
def State.reset : State where
  aon := 0
  fieldQ := 0
  countQ := 0
  besideQ := 0
  pkg := Package.reset
  settings := Settings.reset
  cores := []
  starters := []
  beside := []
  far := Far.reset
  parts := []
  srv := Serving.reset
  mbx := Mbx.reset
  boot := Boot.reset
  fab := Fab.reset
  twin := Twin.reset
  energy := Energy.reset
  power := Power.reset
  entry := Entry.reset
  dport := Debug.reset
  out := []
  drawn := 0
  pending := []

end Sys2Proof.Machine
end

