-- ==== Sys2Proof/Machine/Settings.lean ====
section
/-!
DEFINITION. The settings fields of R579 and R580: each field's identifier, width, factory value and marks; the value as applied, with the
clamping of its register table; and the configuration registers as views of the fields (R18, R106, R146, R199, R210, R258, R298, R336,
R358, R395, R474, R508, R542, R560).
-/

namespace Sys2Proof.Machine

/-- A settings field: identifier, width in bits, factory value, job-wide (J), read only at boot (B). -/
structure FieldDef where
  id : Nat
  width : Nat
  factory : Nat
  job : Bool
  boot : Bool
  deriving DecidableEq, Repr

/-- The fields with register tables of their own (R579). -/
def namedFields : List FieldDef :=
  [⟨0x0101, 32, 10000, false, false⟩, ⟨0x0102, 1, 1, true, false⟩, ⟨0x0103, 11, 8, true, false⟩,
   ⟨0x0201, 7, 16, false, false⟩, ⟨0x0202, 16, 0, false, false⟩, ⟨0x0203, 5, 6, false, false⟩,
   ⟨0x0204, 8, 24, false, false⟩, ⟨0x0205, 8, 8, false, false⟩,
   ⟨0x0301, 4, 4, true, false⟩, ⟨0x0302, 16, 10, true, false⟩, ⟨0x0303, 2, 3, true, false⟩,
   ⟨0x0401, 5, 8, false, false⟩, ⟨0x0402, 16, 5000, false, false⟩, ⟨0x0403, 16, 3600, false, false⟩,
   ⟨0x0404, 1, 0, true, false⟩, ⟨0x0405, 1, 0, false, false⟩,
   ⟨0x0501, 6, 20, true, false⟩, ⟨0x0502, 1, 0, true, false⟩, ⟨0x0503, 16, 0xF333, true, false⟩,
   ⟨0x0504, 1, 1, true, false⟩, ⟨0x0505, 4, 5, true, false⟩, ⟨0x0506, 8, 4, true, false⟩,
   ⟨0x0601, 3, 2, true, false⟩] ++
  [⟨0x0701, 11, 128, false, false⟩, ⟨0x0702, 3, 4, false, false⟩, ⟨0x0703, 15, 4096, false, false⟩,
   ⟨0x0704, 16, 1000, false, false⟩, ⟨0x0705, 8, 4, false, false⟩, ⟨0x0706, 8, 20, false, false⟩,
   ⟨0x0707, 8, 1, false, false⟩, ⟨0x0708, 8, 4, false, false⟩, ⟨0x0709, 16, 1024, false, false⟩,
   ⟨0x0801, 1, 1, false, false⟩, ⟨0x0802, 12, 512, false, false⟩, ⟨0x0803, 16, 200, false, false⟩,
   ⟨0x0804, 8, 200, false, false⟩, ⟨0x0805, 10, 0x3FF, false, true⟩,
   ⟨0x0901, 6, 2, false, false⟩, ⟨0x0902, 6, 8, false, false⟩, ⟨0x0903, 6, 8, false, false⟩,
   ⟨0x0904, 16, 1000, false, false⟩, ⟨0x0905, 1, 0, false, false⟩] ++
  [⟨0x0A01, 12, 3800, false, false⟩, ⟨0x0A02, 1, 0, false, false⟩, ⟨0x0A03, 12, 2000, false, false⟩,
   ⟨0x0A04, 8, 1, false, false⟩, ⟨0x0A05, 7, 100, false, false⟩, ⟨0x0A06, 6, 50, false, false⟩,
   ⟨0x0A07, 16, 1000, false, false⟩, ⟨0x0A08, 8, 4, false, false⟩, ⟨0x0A09, 12, 250, false, false⟩,
   ⟨0x0A0A, 16, 1000, false, false⟩, ⟨0x0A0B, 16, 600, false, false⟩, ⟨0x0A0C, 1, 1, false, false⟩,
   ⟨0x0A0D, 1, 0, false, false⟩,
   ⟨0x0B01, 1, 0, true, false⟩, ⟨0x0B02, 1, 0, true, false⟩, ⟨0x0B03, 11, 64, true, false⟩,
   ⟨0x0B04, 16, 100, true, false⟩, ⟨0x0C01, 2, 0, false, false⟩, ⟨0x0C02, 8, 64, false, false⟩]

/-- The 36 LINK_PLAN fields and the 16 BUNDLE_KEY words (R580). -/
def arrayFields : List FieldDef :=
  ((List.range 36).map fun l => ⟨0x0810 + l, 32, 0, false, false⟩) ++
  ((List.range 16).map fun k => ⟨0x0D00 + k, 64, 0, false, false⟩)

/-- Every settable field in ascending FIELD_ID. -/
def fieldDefs : List FieldDef := sortBy (fun a b => a.id < b.id) (namedFields ++ arrayFields)

/-- The definition of a settable FIELD_ID. -/
def fieldDef (id : Nat) : Option FieldDef := (namedFields ++ arrayFields).find? (·.id == id)

/-- Whether a FIELD_ID is one of the read-only fields of R579. -/
def fieldReadOnly (id : Nat) : Bool := 1 ≤ id && id ≤ 4

/-- The running value of a field before clamping. -/
def Settings.raw (st : Settings) (id : Nat) : Nat :=
  match st.run.find? (·.1 == id) with
  | some p => p.2.toNat
  | none => match fieldDef id with
    | some d => d.factory
    | none => 0

/-- CAP_W, TJ_THROTTLE and the other single-field clamps of the register tables. -/
def clampField (id v : Nat) : Nat :=
  match id with
  | 0x0103 => min v 1024
  | 0x0201 => min v 64
  | 0x0203 => min v 16
  | 0x0301 => max v 2
  | 0x0302 => max v 2
  | 0x0303 => max v 1
  | 0x0401 => min v 16
  | 0x0505 => min v 8
  | 0x0506 => max v 1
  | 0x0701 => clamp 1 1024 v
  | 0x0702 => max v 1
  | 0x0703 => clamp 64 16384 (v / 64 * 64)
  | 0x0706 => max v 1
  | 0x0708 => max v 1
  | 0x0709 => max v 1
  | 0x0803 => max v 1
  | 0x0804 => max v 50
  | 0x0901 => max v 1
  | 0x0903 => max v 6
  | 0x0904 => max v 1
  | 0x0A01 => clamp 1200 3800 v
  | 0x0A03 => clamp 1000 2000 (v / 25 * 25)
  | 0x0A05 => min v 105
  | 0x0A06 => clamp 1 50 v
  | 0x0A07 => max v 100
  | 0x0B03 => max v 1
  | 0x0C01 => if v = 3 then 0 else v
  | 0x0C02 => if v = 64 ∨ v = 32 ∨ v = 16 ∨ v = 8 then v else 64
  | _ => v

/-- The value of a field as applied, after the clamping of its register table. HB_MISS_US is taken against HB_US (R508) and FIX_N against
HEAT_MAX (R560). -/
def Settings.val (st : Settings) (id : Nat) : Nat :=
  let v := clampField id (st.raw id)
  if id = 0x0902 then max v (2 * clampField 0x0901 (st.raw 0x0901))
  else if id = 0x0B03 then min v (clampField 0x0701 (st.raw 0x0701))
  else v

/-- A field of the running settings written, kept only where it differs from the factory value. -/
def Settings.put (st : Settings) (id v : Nat) : Settings :=
  match fieldDef id with
  | none => st
  | some d =>
    let w := v % 2 ^ d.width
    { st with run := if w = d.factory then tdel st.run id else tput st.run id (BitVec.ofNat 64 w) }

/-- The applied value of a settings field of the package. -/
def State.cfg (s : State) (id : Nat) : Nat := s.settings.val id

/-- The fields of a configuration register: (lowest bit, FIELD_ID). -/
def regFields (r : RegAddr) : List (Nat × Nat) :=
  match r with
  | .placeCfg => [(0, 0x0201), (7, 0x0202)]
  | .wgtCfg => [(0, 0x0301), (4, 0x0302), (20, 0x0303)]
  | .kvCfg => [(0, 0x0401), (5, 0x0402), (21, 0x0403), (37, 0x0404), (38, 0x0405)]
  | .expCfg => [(0, 0x0501), (6, 0x0502), (7, 0x0503), (23, 0x0504), (24, 0x0505), (28, 0x0506)]
  | .specCfg => [(0, 0x0601)]
  | .schedCfg => [(0, 0x0701), (11, 0x0702), (14, 0x0703), (29, 0x0704), (45, 0x0705), (53, 0x0706)]
  | .pacerCfg => [(0, 0x0707), (8, 0x0708), (16, 0x0709)]
  | .fabCfg => [(0, 0x0801), (1, 0x0802), (13, 0x0803), (29, 0x0804)]
  | .twinCfg => [(0, 0x0901), (6, 0x0902), (12, 0x0903), (18, 0x0904), (34, 0x0905)]
  | .govCfg => [(0, 0x0A01), (12, 0x0A02), (13, 0x0A03), (25, 0x0A04), (33, 0x0A05), (40, 0x0A06), (46, 0x0A07)]
  | .stateCfg => [(0, 0x0A08), (8, 0x0A09), (20, 0x0A0A), (36, 0x0A0B), (52, 0x0A0C), (53, 0x0A0D)]
  | .detCfg => [(0, 0x0B01), (1, 0x0B02), (2, 0x0B03), (13, 0x0B04)]
  | .numCfg _ => [(0, 0x0102), (1, 0x0103)]
  | .besideCfg _ => [(0, 0x0203), (5, 0x0204), (13, 0x0205)]
  | _ => []

/-- A configuration register as its fields read. -/
def cfgWord (st : Settings) (l : List (Nat × Nat)) : Word64 := mkWord (l.map fun p => (p.1, st.val p.2))

/-- The fields of a written register word put into the running settings, each in its own width; reserved bits are ignored (R15). -/
def cfgStore (st : Settings) (l : List (Nat × Nat)) (w : Word64) : Settings :=
  l.foldl (fun st p =>
    match fieldDef p.2 with
    | some d => st.put p.2 (nbits w.toNat (p.1 + d.width - 1) p.1)
    | none => st) st

/-- FLD_NUM_CFG of a Field die: what its starters or a captain wrote, the settings fields otherwise (R146). -/
def State.numCfg (s : State) (die : Nat) : Word64 :=
  match s.settings.numCfg.find? (·.1 == die) with
  | some p => p.2
  | none => cfgWord s.settings (regFields (.numCfg die))

/-- ESC_EN of a die (R146). -/
def State.escEn (s : State) (die : Nat) : Bool := bit (s.numCfg die) 0
/-- ESC_T of a die; a value above 1,024 is taken as 1,024 (R146). -/
def State.escT (s : State) (die : Nat) : Nat := min (bits (s.numCfg die) 11 1) 1024

/-- BSD_CFG of a Beside die (R210). -/
def State.besideCfg (s : State) (die : Nat) : Word64 :=
  match s.settings.bsdCfg.find? (·.1 == die) with
  | some p => p.2
  | none => cfgWord s.settings (regFields (.besideCfg die))

/-- DLV_WT of a Beside die (R210). -/
def State.dlvWt (s : State) (die : Nat) : Nat := min (bits (s.besideCfg die) 4 0) 16
/-- SCRUB_H of a Beside die (R210). -/
def State.scrubH (s : State) (die : Nat) : Nat := bits (s.besideCfg die) 12 5
/-- CE_ROW of a Beside die (R210). -/
def State.ceRow (s : State) (die : Nat) : Nat := bits (s.besideCfg die) 20 13

/-- A settings field set for the whole package: the die registers that hold it take the new value too (R146, R579). -/
def Settings.set (st : Settings) (id v : Nat) : Settings :=
  let st := st.put id v
  let fix (l : List (Nat × Nat)) (t : Tab Word64) : Tab Word64 :=
    match l.find? (·.2 == id), fieldDef id with
    | some p, some d => t.map fun e => (e.1, setBits e.2 (p.1 + d.width - 1) p.1 (st.val id))
    | _, _ => t
  { st with numCfg := fix (regFields (.numCfg 0)) st.numCfg, bsdCfg := fix (regFields (.besideCfg 0)) st.bsdCfg }

end Sys2Proof.Machine
end

