-- ==== Sys2Proof/Machine/Status.lean ====
section
/-!
DEFINITION. The status codes of R429, the fault causes of R93 and the sub-causes of R464, by their names.
-/

namespace Sys2Proof.Machine

def stOK : Nat := 0x0000
def stBAD_TYPE : Nat := 0x0101
def stBAD_LENGTH : Nat := 0x0102
def stBAD_FIELD : Nat := 0x0103
def stNOT_PERMITTED : Nat := 0x0104
def stUNKNOWN_HANDLE : Nat := 0x0105
def stBUSY : Nat := 0x0106
def stDMA_FAULT : Nat := 0x0107
def stUNIT_ABSENT : Nat := 0x0201
def stNO_SPACE : Nat := 0x0202
def stOUT_OF_PARTITION : Nat := 0x0203
def stMEM_POISON : Nat := 0x0204
def stWRITE_PROTECTED : Nat := 0x0205
def stLEDGER_FULL : Nat := 0x0206
def stQUEUE_FULL : Nat := 0x0207
def stLOADER_BUSY : Nat := 0x0301
def stBUNDLE_FORMAT : Nat := 0x0302
def stBUNDLE_AUTH : Nat := 0x0303
def stGRADE_MISMATCH : Nat := 0x0304
def stBAD_STREAM : Nat := 0x0305
def stBAD_GROUP_TABLE : Nat := 0x0306
def stBAD_POINTER_LIST : Nat := 0x0307
def stBAD_TILE : Nat := 0x0308
def stUNRESOLVED_BLOCK : Nat := 0x0309
def stBAD_SCALE : Nat := 0x030A
def stBAD_OUTLIER : Nat := 0x030B
def stNOT_CANONICAL : Nat := 0x030C
def stGEN_MISMATCH : Nat := 0x0401
def stGEN_NOT_READY : Nat := 0x0402
def stGEN_IN_USE : Nat := 0x0403
def stLOAD_INCOMPLETE : Nat := 0x0404
def stLOAD_OVERWRITE : Nat := 0x0405
def stRELAY_FAILED : Nat := 0x0406
def stCUTOVER_ABORTED : Nat := 0x0407
def stADAPTER_BUSY : Nat := 0x0408
def stADAPTER_UNKNOWN : Nat := 0x0409
def stMODEL_UNKNOWN : Nat := 0x040A
def stTIER_FULL : Nat := 0x0501
def stOBJECT_UNSEALED : Nat := 0x0502
def stOBJECT_SEALED : Nat := 0x0503
def stTTL_EXPIRED : Nat := 0x0504
def stOBJECT_DAMAGED : Nat := 0x0505
def stOBJECT_UNKNOWN : Nat := 0x0506
def stCANCELLED : Nat := 0x0601
def stALREADY_DONE : Nat := 0x0602
def stKV_FULL : Nat := 0x0603
def stENGINE_FAULT : Nat := 0x0604
def stSESSION_BUSY : Nat := 0x0605
def stSESSION_UNKNOWN : Nat := 0x0606
def stTENANT_UNKNOWN : Nat := 0x0607
def stOVER_BUDGET : Nat := 0x0608
def stFUNCTION_RESET : Nat := 0x0609
def stHOST_STALLED : Nat := 0x060A
def stROLE_LOST : Nat := 0x060B
def stPARTITION_STOPPED : Nat := 0x0701
def stPARTITION_RESET : Nat := 0x0702
def stPARTITION_BUSY : Nat := 0x0703
def stCONTEXT_FAILED : Nat := 0x0704
def stCTX_BUSY : Nat := 0x0705
def stCTX_UNKNOWN : Nat := 0x0706
def stCOMMIT_FAILED : Nat := 0x0801
def stNOT_PAIRED : Nat := 0x0802
def stLINK_DOWN : Nat := 0x0803
def stDEBUG_LOCKED : Nat := 0x0804
def stRESET_PENDING : Nat := 0x0805
def stLOCKSTEP_MISMATCH : Nat := 0x0806

/-! Fault causes of a slot (R93). -/

def fcILLEGAL_OPC : Nat := 0x01
def fcBAD_OPERAND : Nat := 0x02
def fcSPAD_RANGE : Nat := 0x03
def fcACC_RANGE : Nat := 0x04
def fcHURDLE_RANGE : Nat := 0x05
def fcHURDLE_OVF : Nat := 0x06
def fcNEAR_RANGE : Nat := 0x07
def fcNEAR_POISON : Nat := 0x08
def fcCHAN_INVALID : Nat := 0x09
def fcMSG_LEN : Nat := 0x0A
def fcMSG_UNREACH : Nat := 0x0B
def fcFABRIC_FAULT : Nat := 0x0C
def fcWATCHDOG : Nat := 0x0D
def fcGROUP_TABLE : Nat := 0x0E
def fcKV_PAGE : Nat := 0x0F
def fcRUNAHEAD_LOST : Nat := 0x10

/-! Sub-causes of a fabric transaction (R464). -/

def scOK : Nat := 0
def scUNREACHABLE : Nat := 1
def scRANGE : Nat := 2
def scPARTITION : Nat := 3
def scWRITE_PROTECTED : Nat := 4
def scPOISON : Nat := 5
def scTIMEOUT : Nat := 6

end Sys2Proof.Machine
end

