-- ==== Sys2Proof/Machine/Ops.lean ====
section
/-!
DEFINITION. The named operations over the state that every family uses: free values, what the package sends, the units by number, the
clocks, and the units' presence and power.
-/

namespace Sys2Proof.Machine

/-! ### Free values and outputs -/

/-- A fresh value the manual leaves open (log 10): the next draw below `n`, and the state that has drawn it. -/
def State.draw (s : State) (n : Nat) : Nat × State := (Config.free s.drawn % n, { s with drawn := s.drawn + 1 })

/-- `n` fresh bytes: one draw each. -/
def freeBytes (s : State) (n : Nat) : List Byte := (List.range n).map fun i => BitVec.ofNat 8 (Config.free (s.drawn + i))

/-- The state after `n` draws. -/
def State.drew (s : State) (n : Nat) : State := { s with drawn := s.drawn + n }

/-- Something leaves the package; with the oscillator dead it answers nothing (R632). -/
def State.emit (s : State) (o : Out) : State := if s.entry.oscDead then s else { s with out := s.out ++ [o] }

/-- A firmware message leaves under the sender's next sequence number (R445, R460). -/
def State.send (s : State) (d : Dest) (m : FwMsg) : State :=
  if s.entry.oscDead then s
  else { s with fab := { s.fab with pseq := s.fab.pseq + 1 }, out := s.out ++ [.fw s.fab.pseq d m] }

/-! ### Clocks (R24, R26) -/

/-- AON cycles in a number of µs: the AON clock runs at 4 MHz. -/
def usAon (us : Nat) : Nat := 4 * us
/-- AON cycles in a number of ms. -/
def msAon (ms : Nat) : Nat := 4000 * ms

/-- The Field-cycle count since the Field clock first ran. -/
def State.fieldCycle (s : State) : Nat := s.fieldQ / 4
/-- The Beside-cycle count. -/
def State.besideCycle (s : State) : Nat := s.besideQ / 4

/-! ### Field cores by their 11-bit address: die [10:9], row [8:5], column [4:0] (R106) -/

/-- The Field die of a core address. -/
def coreDie (c : Nat) : Nat := c / 512
/-- The row of a core address. -/
def coreRow (c : Nat) : Nat := c / 32 % 16
/-- The column of a core address; 24..31 name no core. -/
def coreCol (c : Nat) : Nat := c % 32
/-- The core address of a die, row and column. -/
def coreAddr (d r c : Nat) : Nat := d * 512 + r * 32 + c

/-- Whether an address names a core that is enabled on this package (R3, R40). -/
def State.coreOk (s : State) (c : Nat) : Bool := decide (c < 2048) && decide (coreCol c < 24) && !s.pkg.disabled.contains c

/-- Every core address of a die's row. -/
def rowCores (d r : Nat) : List Nat := (List.range 24).map (coreAddr d r)

/-- The state of one slot. -/
def Core.slot (c : Core) (k : Nat) : SlotSt :=
  match k with
  | 0 => c.s0
  | 1 => c.s1
  | 2 => c.s2
  | _ => c.s3

/-- One slot replaced. -/
def Core.setSlot (c : Core) (k : Nat) (x : SlotSt) : Core :=
  match k with
  | 0 => { c with s0 := x }
  | 1 => { c with s1 := x }
  | 2 => { c with s2 := x }
  | _ => { c with s3 := x }

/-- One core. -/
def State.core (s : State) (c : Nat) : Core := tget Core.reset s.cores c

/-- One core replaced. -/
def State.setCore (s : State) (c : Nat) (x : Core) : State := { s with cores := tput s.cores c x }

/-- One slot of one core. -/
def State.slot (s : State) (c k : Nat) : SlotSt := (s.core c).slot k

/-- One slot of one core replaced. -/
def State.setSlot (s : State) (c k : Nat) (x : SlotSt) : State := s.setCore c ((s.core c).setSlot k x)

/-- The starter of a core's row, by number 16·die + row. -/
def starterOf (c : Nat) : Nat := c / 32

/-- One starter core. -/
def State.starter (s : State) (k : Nat) : Starter := tget Starter.reset s.starters k

/-- One starter core replaced. -/
def State.setStarter (s : State) (k : Nat) (x : Starter) : State := { s with starters := tput s.starters k x }

/-- One Beside die. -/
def State.bdie (s : State) (d : Nat) : BesideDie := tget BesideDie.reset s.beside d

/-- One Beside die replaced. -/
def State.setBdie (s : State) (d : Nat) (x : BesideDie) : State := { s with beside := tput s.beside d x }

/-- One partition. -/
def State.part (s : State) (p : Nat) : Part := tget Part.reset s.parts p

/-- One partition replaced. -/
def State.setPart (s : State) (p : Nat) (x : Part) : State := { s with parts := tput s.parts p x }

/-- One PCIe function. -/
def State.fn (s : State) (f : Nat) : Fn := tget Fn.reset s.mbx.fns f

/-- One PCIe function replaced. -/
def State.setFn (s : State) (f : Nat) (x : Fn) : State := { s with mbx := { s.mbx with fns := tput s.mbx.fns f x } }

/-- One context. -/
def State.ctx (s : State) (c : Nat) : Ctx := tget Ctx.reset s.srv.ctxs c

/-- One context replaced. -/
def State.setCtx (s : State) (c : Nat) (x : Ctx) : State := { s with srv := { s.srv with ctxs := tput s.srv.ctxs c x } }

/-- One ledger entry. -/
def State.req (s : State) (i : Nat) : Req := tget Req.reset s.srv.ledger i

/-- One ledger entry replaced. -/
def State.setReq (s : State) (i : Nat) (x : Req) : State := { s with srv := { s.srv with ledger := tput s.srv.ledger i x } }

/-- One session. -/
def State.sess (s : State) (i : Nat) : Session := tget Session.reset s.srv.sessions i

/-- One session replaced. -/
def State.setSess (s : State) (i : Nat) (x : Session) : State := { s with srv := { s.srv with sessions := tput s.srv.sessions i x } }

/-- One heat. -/
def State.heat (s : State) (h : Nat) : Heat := tget Heat.reset s.srv.heats h

/-- One heat replaced. -/
def State.setHeat (s : State) (h : Nat) (x : Heat) : State := { s with srv := { s.srv with heats := tput s.srv.heats h x } }

/-- The KV map of a session on this package. -/
def State.map (s : State) (i : Nat) : KvMap := tget KvMap.reset s.srv.maps i

/-- The KV map of a session replaced. -/
def State.setMap (s : State) (i : Nat) (x : KvMap) : State := { s with srv := { s.srv with maps := tput s.srv.maps i x } }

/-- One tenant entry. -/
def State.tenant (s : State) (t : Nat) : Tenant := tget Tenant.reset s.srv.tenants t

/-- One tenant entry replaced. -/
def State.setTenant (s : State) (t : Nat) (x : Tenant) : State := { s with srv := { s.srv with tenants := tput s.srv.tenants t x } }

/-- One fabric link. -/
def State.link (s : State) (l : Nat) : Link := tget Link.reset s.fab.links l

/-- One fabric link replaced. -/
def State.setLink (s : State) (l : Nat) (x : Link) : State := { s with fab := { s.fab with links := tput s.fab.links l x } }

/-- One far-tier object. -/
def State.obj (s : State) (o : Nat) : Obj := tget Obj.reset s.far.objs o

/-- One far-tier object replaced. -/
def State.setObj (s : State) (o : Nat) (x : Obj) : State := { s with far := { s.far with objs := tput s.far.objs o x } }

/-! ### Units present (R2) and powered -/

/-- NAND stacks are fitted on grade A only. -/
def State.hasNand (s : State) : Bool := s.pkg.variant == .A
/-- The CXL far port is bonded on grades A and B. -/
def State.hasCxl (s : State) : Bool := s.pkg.variant != .C
/-- The lock-step comparator is present on grades A and B. -/
def State.hasLockstep (s : State) : Bool := s.pkg.variant != .C
/-- The numerics grade (R10): 1 full, 2 reduced. -/
def State.grade (s : State) : Nat := if s.pkg.variant = .C then 2 else 1

/-- Whether a whistle is held (R607). -/
def State.whistled (s : State) : Bool := s.dport.packageWhistle || s.dport.applWhistle

/-- Whether a core's HALT or a whistle holds its front end (R603, R607). -/
def State.coreHeld (s : State) (c : Nat) : Bool := bit (s.core c).ctrl 0 || s.whistled

/-- Whether a core's engines run: it is enabled, powered and clocked (R535, R632), and not halted unless a step is in progress (R603, R604). -/
def State.coreRuns (s : State) (c : Nat) : Bool :=
  s.coreOk c && s.power.fieldOn && s.power.state == .run && !s.entry.oscDead && (!s.coreHeld c || (s.core c).step.isSome)

/-! ### Activity (R513) -/

/-- A dynamic count charged to a context (256: the package overhead account). -/
def State.count (s : State) (ctx cls n : Nat) : State :=
  if n = 0 then s
  else { s with energy := { s.energy with activity := tput s.energy.activity (ctx * 16 + cls) (tget 0 s.energy.activity (ctx * 16 + cls) + n) } }

/-- The overhead account's number among contexts. -/
def ovCtx : Nat := 256

end Sys2Proof.Machine
end

