-- ==== Sys2Proof/Machine/Flags.lean ====
section
/-!
DEFINITION. The flags of a slot: the sticky floating-point bits FPF (R60, R104, R111, R114).
-/

namespace Sys2Proof.Machine

/-- The flags of an operation are added to the slot's sticky bits; a floating-point exception never faults (R60). -/
def SlotSt.stick (x : SlotSt) (f : Flags) : SlotSt := { x with fpf := x.fpf ||| f }

/-- The sticky bits of a slot of a core. -/
def State.stick (s : State) (c k : Nat) (f : Flags) : State := s.setSlot c k ((s.slot c k).stick f)

/-- Flags of a list of results, together. -/
def orFlags (l : List Flags) : Flags := l.foldl (· ||| ·) 0

end Sys2Proof.Machine
end

