-- ==== Sys2Proof/Machine/Operands.lean ====
section
/-!
DEFINITION. The fields of a command word (R53, R55, R56, R154, R165, R269, R303, R462, R552) and the checks the front end makes before
dispatch (R54, R56, R57, R83, R109, R135, R142, R154, R168, R461, R649).
-/

namespace Sys2Proof.Machine

/-! ### Header (R53) -/

def Cmd.opc (c : Cmd) : Nat := bits c.w0 7 0
def Cmd.flags (c : Cmd) : Nat := bits c.w0 15 8
def Cmd.waitH (c : Cmd) : Nat := bits c.w0 21 16
def Cmd.waitEn (c : Cmd) : Bool := bit c.w0 22
def Cmd.sigH (c : Cmd) : Nat := bits c.w0 29 24
def Cmd.sigEn (c : Cmd) : Bool := bit c.w0 30
def Cmd.tag (c : Cmd) : Nat := bits c.w0 47 32
def Cmd.mark (c : Cmd) : Bool := bit c.w0 48

/-- The command's 32 bytes as the ring holds them. -/
def cmdOf (ring : Nat) (l : List Byte) : Cmd where
  ring := ring
  w0 := BitVec.ofNat 64 (ble l 0 8)
  w1 := BitVec.ofNat 64 (ble l 8 8)
  w2 := BitVec.ofNat 64 (ble l 16 8)
  w3 := BitVec.ofNat 64 (ble l 24 8)

/-! ### Opcodes (R55) -/

def oNOP : Nat := 0x00
def oHARM : Nat := 0x01
def oHSIG : Nat := 0x02
def oFENCE : Nat := 0x03
def oEND : Nat := 0x04
def oMMA : Nat := 0x10
def oACLR : Nat := 0x11
def oGMM : Nat := 0x12
def oATTN : Nat := 0x13
def oVOP : Nat := 0x40
def oVRED : Nat := 0x41
def oEPI : Nat := 0x42
def oVCVT : Nat := 0x43
def oROUTE : Nat := 0x44
def oSAMPLE : Nat := 0x45
def oLOAD : Nat := 0x80
def oSTORE : Nat := 0x81
def oSTREAM : Nat := 0x82
def oSSTOP : Nat := 0x83
def oGATHER : Nat := 0x84
def oSPCOPY : Nat := 0x85
def oRACONF : Nat := 0x86
def oRADROP : Nat := 0x87
def oPUT : Nat := 0xC0
def oRSIG : Nat := 0xC1
def oFLOAD : Nat := 0xC2
def oFSTORE : Nat := 0xC3
def oFATOM : Nat := 0xC4
def oIPOP : Nat := 0xC5

/-- The opcodes R55 lists. -/
def opcodes : List Nat :=
  [0x00, 0x01, 0x02, 0x03, 0x04, 0x10, 0x11, 0x12, 0x13, 0x40, 0x41, 0x42, 0x43, 0x44, 0x45] ++
  [0x80, 0x81, 0x82, 0x83, 0x84, 0x85, 0x86, 0x87, 0xC0, 0xC1, 0xC2, 0xC3, 0xC4, 0xC5]

/-- The engine a command's opcode belongs to: 0 matrix, 1 vector, 2 data mover, 3 message, 4 front end (R55, R62). -/
def engineOf (opc : Nat) : Nat :=
  if opc < 0x10 then 4 else if opc < 0x40 then 0 else if opc < 0x80 then 1 else if opc < 0xC0 then 2 else 3

/-! ### Slot configuration (R103) -/

def SlotSt.ctx (x : SlotSt) : Nat := bits x.cfg 7 0
def SlotSt.prio (x : SlotSt) : Nat := bits x.cfg 9 8
def SlotSt.hbase (x : SlotSt) : Nat := bits x.cfg 15 10
def SlotSt.hcount (x : SlotSt) : Nat := bits x.cfg 22 16
def SlotSt.spb (x : SlotSt) : Nat := bits x.cfg 32 23
def SlotSt.sps (x : SlotSt) : Nat := bits x.cfg 42 33
def SlotSt.acb (x : SlotSt) : Nat := bits x.cfg 52 43
def SlotSt.acs (x : SlotSt) : Nat := bits x.cfg 63 53

/-- Whether `n` bytes at a window offset lie wholly inside the slot's window (R43); no bytes always do. -/
def SlotSt.inWin (x : SlotSt) (off n : Nat) : Bool := decide (n = 0 ∨ off + n ≤ x.sps * 4096)

/-- Bytes of the slot's window. -/
def winRead (c : Core) (x : SlotSt) (off n : Nat) : List Byte := mread 0 c.spad (x.spb * 4096 + off) n

/-- A little-endian number in the slot's window. -/
def winNat (c : Core) (x : SlotSt) (off n : Nat) : Nat := leNat (winRead c x off n)

/-- Bytes written into the slot's window. -/
def winWrite (c : Core) (x : SlotSt) (off : Nat) (l : List Byte) : Core :=
  { c with spad := mwrite 0 c.spad (x.spb * 4096 + off) l }

/-! ### Formats (R108) -/

/-- Element width in bits of a format code. -/
def fmtBits (f : Nat) : Nat :=
  match f with
  | 0 => 32
  | 1 => 16
  | 2 => 8
  | 3 => 1
  | 4 => 2
  | 5 => 3
  | 6 => 4
  | 7 => 6
  | _ => 8

/-- Whether a format code is block-scaled. -/
def fmtBlock (f : Nat) : Bool := decide (3 ≤ f ∧ f ≤ 9)

/-- The extent in bytes of a VCVT area of COUNT elements: the layout of R134 at full reservation for a block-scaled format, COUNT elements
otherwise (R135). -/
def areaBytes (f n : Nat) : Nat := if fmtBlock f then 64 + 64 * ceilDiv n 2048 + n else n * fmtBits f / 8

/-- Whether two ranges of bytes overlap. -/
def overlap (a n b m : Nat) : Bool := decide (0 < n ∧ 0 < m ∧ a < b + m ∧ b < a + n)

/-- 64-byte alignment. -/
def al64 (a : Nat) : Bool := a % 64 = 0

/-! ### The checks before dispatch -/

/-- A word with every bit zero. -/
def wz (w : Word64) : Bool := w == 0

/-- BAD_OPERAND of a MMA (R54, R55, R56, R109, R142, R649). -/
def badMma (c : Cmd) : Bool :=
  let f := c.flags
  nbits f 3 0 = 0 || bits c.w1 63 54 != 0 || bits c.w2 63 62 != 0 || bits c.w3 47 44 != 0 ||
  decide (256 < bits c.w2 8 0) || bits c.w2 24 9 % 32 != 0 || bits c.w2 35 25 % 64 != 0 || decide (1024 < bits c.w2 35 25) ||
  decide (bits c.w2 39 36 < 3 ∨ 9 < bits c.w2 39 36) || (nbits f 7 7 = 1 && bits c.w2 39 36 = 9) ||
  !al64 (bits c.w1 21 0) || !al64 (bits c.w1 43 22) || !al64 (bits c.w2 61 40) ||
  (nbits f 5 5 = 1 && !al64 (bits c.w3 21 0)) || (decide (1 < bits c.w2 8 0) && !al64 (bits c.w3 43 22))

/-- BAD_OPERAND of a LOAD or STORE (R55, R649). -/
def badMove (c : Cmd) : Bool :=
  bits c.w1 63 40 != 0 || bits c.w2 63 62 != 0 || bits c.w3 63 62 != 0 || decide (3145728 < bits c.w2 45 22) ||
  !al64 (bits c.w1 39 0) || !al64 (bits c.w2 21 0) ||
  (decide (1 < bits c.w2 61 46) && (!al64 (bits c.w3 39 0) || !al64 (bits c.w3 61 40)))

/-- BAD_OPERAND of a vector command. -/
def badVector (c : Cmd) : Bool :=
  let f := c.flags
  let opc := c.opc
  if opc = oVOP then
    decide (0x0B < nbits f 5 0) || decide (1 < nbits f 7 6) || bits c.w1 63 44 != 0 || bits c.w2 63 42 != 0 || bits c.w3 63 32 != 0 ||
    !al64 (bits c.w1 21 0) || !al64 (bits c.w2 21 0) || (decide (1 ≤ nbits f 5 0 ∧ nbits f 5 0 ≤ 6) && !al64 (bits c.w1 43 22))
  else if opc = oVRED then
    nbits f 1 0 = 3 || nbits f 5 2 != 0 || decide (1 < nbits f 7 6) || bits c.w1 63 22 != 0 || bits c.w2 63 42 != 0 ||
    bits c.w3 63 16 != 0 || !al64 (bits c.w1 21 0) || !al64 (bits c.w2 21 0)
  else if opc = oEPI then
    nbits f 7 3 != 0 || bits c.w1 63 43 != 0 || bits c.w2 63 52 != 0 || bits c.w3 63 43 != 0 || decide (1024 < bits c.w1 20 10) ||
    decide (2 < bits c.w2 25 22) || decide (3 < bits c.w2 29 26) || decide (1024 < bits c.w3 42 32) ||
    !al64 (bits c.w2 21 0) || (nbits f 0 0 = 1 && !al64 (bits c.w1 42 21)) || (decide (1 < bits c.w1 20 10) && !al64 (bits c.w2 51 30))
  else if opc = oVCVT then
    let i := nbits f 3 0
    let o := nbits f 7 4
    let n := bits c.w2 41 22
    decide (8 < i) || decide (8 < o) || bits c.w1 63 22 != 0 || bits c.w2 63 42 != 0 || bits c.w3 63 1 != 0 ||
    !al64 (bits c.w1 21 0) || !al64 (bits c.w2 21 0) ||
    ((fmtBlock i || fmtBlock o) && (n % 32 != 0 ||
      (decide (0 < n) && overlap (bits c.w1 21 0) (areaBytes i n) (bits c.w2 21 0) (areaBytes o n))))
  else if opc = oROUTE then
    f != 0 || bits c.w1 63 44 != 0 || bits c.w2 63 38 != 0 || bits c.w3 63 48 != 0 || decide (4096 < bits c.w2 37 22) ||
    decide (bits c.w3 10 0 < 1 ∨ 1024 < bits c.w3 10 0) || decide (bits c.w3 14 11 < 1 ∨ 8 < bits c.w3 14 11) ||
    decide (bits c.w3 10 0 < bits c.w3 14 11) || !al64 (bits c.w1 21 0) || !al64 (bits c.w1 43 22) || !al64 (bits c.w2 21 0)
  else
    f != 0 || bits c.w1 63 44 != 0 || bits c.w2 63 51 != 0 || bits c.w3 63 52 != 0 || decide (4096 < bits c.w2 34 22) ||
    decide (bits c.w3 51 32 < 1 ∨ 524288 < bits c.w3 51 32) || decide (bits c.w3 51 32 < bits c.w2 50 35) ||
    decide (0x7F800000 < bits c.w3 31 0 ∧ bits c.w3 31 0 ≠ 0x80000000) ||
    !al64 (bits c.w1 21 0) || !al64 (bits c.w1 43 22) || !al64 (bits c.w2 21 0)

/-- BAD_OPERAND of a data-mover command other than LOAD and STORE. -/
def badMover (c : Cmd) : Bool :=
  let opc := c.opc
  c.flags != 0 ||
  (if opc = oSTREAM then
    bits c.w1 63 40 != 0 || bits c.w2 63 50 != 0 || bits c.w3 63 28 != 0 || decide (bits c.w2 49 46 < 1 ∨ 8 < bits c.w2 49 46) ||
    !al64 (bits c.w1 39 0) || !al64 (bits c.w2 21 0) || (decide (1 < bits c.w3 15 0) && !al64 (bits c.w2 45 22))
  else if opc = oGATHER then
    bits c.w1 63 44 != 0 || bits c.w2 63 59 != 0 || bits c.w3 63 36 != 0 || bits c.w2 23 0 % 64 != 0 ||
    decide (1048576 < bits c.w2 23 0) || decide (4096 < bits c.w2 36 24) || decide (2 < bits c.w3 35 32) ||
    !al64 (bits c.w1 21 0) || !al64 (bits c.w1 43 22) || (decide (1 < bits c.w2 36 24) && !al64 (bits c.w2 58 37)) ||
    overlap (bits c.w1 21 0) (bits c.w2 36 24 * 8) (bits c.w1 43 22)
      (if bits c.w2 36 24 = 0 then 0 else (bits c.w2 36 24 - 1) * bits c.w2 58 37 + bits c.w2 23 0)
  else if opc = oSPCOPY then
    bits c.w1 63 22 != 0 || bits c.w2 63 46 != 0 || !wz c.w3 || !al64 (bits c.w1 21 0) || !al64 (bits c.w2 21 0)
  else
    bits c.w1 63 16 != 0 || !wz c.w2 || !wz c.w3)

/-- BAD_OPERAND of a message command. -/
def badMessage (c : Cmd) : Bool :=
  let opc := c.opc
  c.flags != 0 ||
  (if opc = oPUT then bits c.w1 63 27 != 0 || bits c.w2 63 32 != 0 || !wz c.w3 || !al64 (bits c.w1 26 5)
  else if opc = oRSIG then bits c.w1 63 21 != 0 || bits c.w1 20 5 = 0 || !wz c.w2 || !wz c.w3
  else if opc = oIPOP then bits c.w1 63 16 != 0 || decide (4096 < bits c.w1 15 3) || !wz c.w2 || !wz c.w3
  else
    bits c.w1 63 47 != 0 || bits c.w1 43 40 != 0 || bits c.w2 63 38 != 0 || !al64 (bits c.w2 21 0) || !al64 (bits c.w3 21 0) ||
    (if opc = oFATOM then
      bits c.w3 63 28 != 0 || decide (3 < bits c.w3 25 23) || bits c.w2 37 22 != 0 ||
      bits c.w1 47 0 % (if bit c.w3 26 then 8 else 4) != 0
    else bits c.w3 63 23 != 0 || bits c.w2 37 22 % 64 != 0 || !al64 (bits c.w1 47 0)))

/-- BAD_OPERAND of a matrix command other than MMA, or of a front-end command. -/
def badOther (c : Cmd) : Bool :=
  let opc := c.opc
  let f := c.flags
  if opc = oATTN then
    nbits f 3 0 = 0 || nbits f 7 4 != 0 || bits c.w1 63 54 != 0 || !wz c.w2 || !wz c.w3 || !al64 (bits c.w1 21 0) || !al64 (bits c.w1 43 22)
  else f != 0 ||
  (if opc = oACLR then bits c.w1 63 21 != 0 || decide (1024 < bits c.w1 20 10) || !wz c.w2 || !wz c.w3
  else if opc = oGMM then
    bits c.w1 63 22 != 0 || bits c.w2 63 16 != 0 || bits c.w3 63 5 != 0 || bits c.w3 3 0 = 0 || decide (4096 < bits c.w2 15 0) ||
    !al64 (bits c.w1 21 0)
  else if opc = oHARM then bits c.w1 15 7 != 0 || bits c.w1 63 48 != 0 || !wz c.w2 || !wz c.w3
  else if opc = oHSIG then bits c.w1 15 6 != 0 || bits c.w1 63 32 != 0 || bits c.w1 31 16 = 0 || !wz c.w2 || !wz c.w3
  else if opc = oFENCE then bits c.w1 63 4 != 0 || !wz c.w2 || !wz c.w3
  else !wz c.w1 || !wz c.w2 || !wz c.w3)

/-- Whether the front end faults a command with BAD_OPERAND (R54). -/
def Cmd.bad (c : Cmd) : Bool :=
  bit c.w0 23 || bit c.w0 31 || bits c.w0 63 49 != 0 ||
  (let opc := c.opc
   if opc = oMMA then badMma c
   else if opc = oLOAD then nbits c.flags 7 1 != 0 || badMove c
   else if opc = oSTORE then c.flags != 0 || badMove c
   else match engineOf opc with
    | 1 => badVector c
    | 2 => badMover c
    | 3 => badMessage c
    | _ => badOther c)

/-- SPAD_RANGE found before dispatch: the extents of a GMM's table (R154) and of a GATHER's list and output (R168). -/
def Cmd.badExtent (c : Cmd) (x : SlotSt) : Bool :=
  if c.opc = oGMM then !x.inWin (bits c.w1 21 0) (64 * bits c.w2 15 0)
  else if c.opc = oGATHER then
    let n := bits c.w2 36 24
    !x.inWin (bits c.w1 21 0) (n * 8) || (n != 0 && !x.inWin (bits c.w1 43 22) ((n - 1) * bits c.w2 58 37 + bits c.w2 23 0))
  else false

/-- The hurdle indexes R83 has the front end check. -/
def Cmd.hurdles (c : Cmd) : List Nat :=
  (if c.waitEn then [c.waitH] else []) ++ (if c.sigEn then [c.sigH] else []) ++
  (if c.opc = oHARM ∨ c.opc = oHSIG then [bits c.w1 5 0] else []) ++
  (if c.opc = oSTREAM then [bits c.w3 21 16, bits c.w3 27 22] else [])

/-- The causes the front end finds before dispatch (R54, R83, R154, R168), ILLEGAL_OPC alone where the opcode is not listed. -/
def Cmd.causes (c : Cmd) (x : SlotSt) : List Nat :=
  if !opcodes.contains c.opc then [fcILLEGAL_OPC]
  else (if c.bad then [fcBAD_OPERAND] else []) ++ (if c.badExtent x then [fcSPAD_RANGE] else []) ++
    (if c.hurdles.any (fun h => decide (x.hcount ≤ h)) then [fcHURDLE_RANGE] else [])

end Sys2Proof.Machine
end

