-- ==== Sys2Proof/Machine/Mail.lean ====
section
/-!
DEFINITION. The event rings of the functions (R406 to R417): posting events and responses, the backlog, coalescing and MSI-X.
-/

namespace Sys2Proof.Machine

/-! ### Message types the package posts (R420 to R422) -/

def mSYS_CAPS : Nat := 0x0101
def mCAPS_CHANGED : Nat := 0x0109
def mPAR_REPORT : Nat := 0x0209
def mADAPTER_DONE : Nat := 0x030D
def mDAMAGED : Nat := 0x0407
def mTOKENS : Nat := 0x0507
def mDONE : Nat := 0x0508
def mRECEIPT_BLOCK : Nat := 0x0705
def mPOWER_EVENT : Nat := 0x0706
def mLINK_EVENT : Nat := 0x0805
def mFAILOVER : Nat := 0x0806
def mWHISTLE_EVENT : Nat := 0x0904

/-- BAR0 offsets of slot i's headers and payloads (R402). -/
def cmdHdr (i : Nat) : Nat := 0x10000 + i * 0x40
def evtHdr (i : Nat) : Nat := 0x14000 + i * 0x40
def cmdPay (i : Nat) : Nat := 0x100000 + i * 0x1000
def evtPay (i : Nat) : Nat := 0x200000 + i * 0x1000

/-- OWN of the slot whose header lies at an offset (R407). -/
def slotOwn (f : Fn) (hdr : Nat) : Bool := nbits (mget 0 f.sram hdr).toNat 0 0 = 1

/-- The 64-byte header of an event part (R407): RSP or NOTIFY, and MORE when the event continues. STATUS is a response's outcome alone; PART reads 0xFF
(log 20). -/
def evtHeader (e : Event) (more : Bool) (len aon : Nat) : List Byte :=
  leBytes 4 1 ++ leBytes 2 e.type ++ leBytes 2 len ++ leBytes 4 e.tag.toNat ++ leBytes 2 (if e.rsp then e.status else 0) ++
  leBytes 2 (if e.rsp then 1 + 4 * b2n more else 2 + 4 * b2n more) ++ [0xFF] ++ zeros 7 ++ leBytes 8 aon ++ zeros 32

/-- Whether a MSI-X vector is masked: bit 0 of its entry's vector control (R416). -/
def msixMasked (f : Fn) (v : Nat) : Bool := nbits (mget 0 f.sram (0x8000 + 16 * v + 12)).toNat 0 0 = 1

/-- A vector's message is sent, or pends while the vector is masked (R417). -/
def fireVector (s : State) (fn v : Nat) : State :=
  let f := s.fn fn
  if msixMasked f v then s.setFn fn { f with pba := f.pba ||| BitVec.ofNat 8 (2 ^ v) }
  else s.emit (.msix fn v)

/-- An event arrives for a vector: it fires at once, or waits for the end of the coalescing interval (R417). -/
def interrupt (s : State) (fn v : Nat) : State :=
  let f := s.fn fn
  if f.coalUs = 0 then fireVector s fn v
  else
    let busy := match f.coal.find? (·.1 == v) with
      | some p => decide (s.aon < p.2.1 + usAon f.coalUs)
      | none => false
    if busy then s.setFn fn { f with coal := tput f.coal v ((tget (0, false) f.coal v).1, true) }
    else fireVector (s.setFn fn { f with coal := tput f.coal v (s.aon, false) }) fn v

/-- The vectors an event fires (R416). -/
def eventVectors (e : Event) : List Nat :=
  if e.rsp then [0]
  else if e.type = mTOKENS then [1]
  else if e.type = mDONE then
    (if e.status = stENGINE_FAULT ∨ e.status = stCONTEXT_FAILED ∨ e.status = stOBJECT_DAMAGED ∨ e.status = stHOST_STALLED
      then [1, 4] else [1])
  else if e.type = mDAMAGED then [4]
  else if e.type = mPOWER_EVENT then [5]
  else if e.type = mLINK_EVENT ∨ e.type = mFAILOVER then [6]
  else if e.type = mWHISTLE_EVENT then [7]
  else [2]

/-- An event cut into slots of at most 4,096 payload bytes, every part but the last continuing (R410); `n` bounds the parts. -/
def eventParts (e : Event) (n : Nat) (l : List Byte) : List (Event × Bool) :=
  match n with
  | 0 => []
  | n + 1 =>
    if l.length ≤ 4096 then [({ e with payload := l }, false)]
    else ({ e with payload := l.take 4096 }, true) :: eventParts e n (l.drop 4096)

/-- One part written into the event slot at EVT_TAIL, CTRL with OWN = 1 last (R409). -/
def writeEvent (s : State) (fn : Nat) (e : Event) (more : Bool) : State :=
  let f := s.fn fn
  let i := f.evtTail
  let sram := mwrite 0 f.sram (evtPay i) e.payload
  let sram := mwrite 0 sram (evtHdr i) (evtHeader e more e.payload.length s.aon)
  let s := s.setFn fn { f with sram := sram, evtTail := (i + 1) % 256 }
  (eventVectors e).foldl (fun s v => interrupt s fn v) s

/-- A backlogged part is kept with MORE in bit 16 of its status until it is written. -/
def backlogMark (p : Event × Bool) : Event := { p.1 with status := p.1.status + 65536 * b2n p.2 }

/-- Backlogged parts are posted in order as slots are free (R413); `n` bounds the parts posted. -/
def drainBacklog (n : Nat) (s : State) (fn : Nat) : State :=
  match n with
  | 0 => s
  | n + 1 =>
    let f := s.fn fn
    match f.backlog with
    | [] => s
    | e :: r =>
      if slotOwn f (evtHdr f.evtTail) then s
      else
        let s := s.setFn fn { f with backlog := r, backlogBytes := f.backlogBytes - (64 + e.payload.length) }
        drainBacklog n (writeEvent s fn { e with status := e.status % 65536 } (65536 ≤ e.status)) fn

/-- Whether a request has been submitted and has not ended (R364). -/
def Req.isOpen (r : Req) : Bool := r.state == .queued || r.state == .prefill || r.state == .decode

/-- Requests of a function that have not ended. -/
def openOf (s : State) (fn : Nat) : Nat := (s.srv.ledger.filter fun e => e.2.isOpen && e.2.fn == fn).length

/-- An event is posted on a function: into the ring, or into the backlog of 64 MiB, which keeps room for one REQ.DONE of each request of
the function that has not ended. Beyond the limit EVT_OVERRUN is set, the event is discarded, and the function's requests are to end
with HOST_STALLED (R413). A function that is not enabled receives nothing. -/
def postEvent (s : State) (fn : Nat) (e : Event) : State :=
  let f := s.fn fn
  if !f.enabled || s.entry.oscDead then s
  else
    let parts := eventParts e (e.payload.length / 4096 + 1) e.payload
    let bytes := parts.foldl (fun a p => a + 64 + p.1.payload.length) 0
    let free := (List.range parts.length).all fun k => !slotOwn f (evtHdr ((f.evtTail + k) % 256))
    if f.backlog = [] ∧ free then parts.foldl (fun s p => writeEvent s fn p.1 p.2) s
    else if e.type ≠ mDONE ∧ 67108864 < f.backlogBytes + bytes + 320 * openOf s fn then
      s.setFn fn { f with evtOverrun := true, stalled := true }
    else
      drainBacklog 256 (s.setFn fn { f with backlog := f.backlog ++ parts.map backlogMark, backlogBytes := f.backlogBytes + bytes }) fn

/-- A notification (R407). -/
def notify (s : State) (fn type status : Nat) (payload : List Byte) : State := postEvent s fn ⟨type, 0, status, false, payload⟩

/-- The functions that are enabled. -/
def enabledFns (s : State) : List Nat := (List.range 16).filter fun f => (s.fn f).enabled

/-- The one response to a command (R410), on the path it came by: 0..15 a function, 16 the sideband (R431). -/
def respond (s : State) (path type : Nat) (tag : Word32) (status : Nat) (payload : List Byte) : State :=
  if path = 16 then
    s.emit (.sideband ((evtHeader ⟨type, tag, status, true, payload⟩ false payload.length s.aon).set 0 0) payload)
  else postEvent s path ⟨type, tag, status, true, payload⟩

end Sys2Proof.Machine
end

