-- ==== Sys2Proof/Machine/FabOps.lean ====
section
/-!
DEFINITION. What the package knows of the fabric (R433, R447 to R455): its link plan, the database of link-state records, hop counts,
group heads, next hops, the role table and the twin.
-/

namespace Sys2Proof.Machine

/-- The group of a node and its slot in the group (R447). -/
def nodeGroup (n : Nat) : Nat := n / 8
def nodeSlot (n : Nat) : Nat := n % 8

/-- USE and PEER of a link in a plan given as 36 values (R422). -/
def planUse (v : Nat) : Nat := nbits v 1 0
def planPeer (v : Nat) : Nat := nbits v 15 8

/-- The running link plan entry of a link (R580). -/
def State.plan (s : State) (l : Nat) : Nat := s.cfg (0x0810 + l)

/-- The running link plan. -/
def State.planAll (s : State) : List Nat := (List.range 36).map s.plan

/-- Whether a plan meets the rules of R451 on a package of node `own`. -/
def planOk (own : Nat) (plan : List Nat) : Bool :=
  let twins := (plan.filter fun v => planUse v = 1).map planPeer
  let twin := twins.head?
  decide (twins.length ≤ 8) &&
  plan.all fun v =>
    nbits v 7 2 = 0 && decide (v < 65536) &&
    match planUse v with
    | 0 => planPeer v = 0
    | 1 => nodeGroup (planPeer v) = nodeGroup own && planPeer v != own && some (planPeer v) == twin
    | 2 => nodeGroup (planPeer v) = nodeGroup own && planPeer v != own && some (planPeer v) != twin
    | _ => nodeGroup (planPeer v) != nodeGroup own

/-- The twin node the plan names (R478). -/
def State.twinNode (s : State) : Option Nat := (s.planAll.find? fun v => planUse v = 1).map planPeer

/-- Whether a link carries traffic. -/
def LinkState.isUp (x : LinkState) : Bool := x == .up || x == .degraded

/-- FAB.STATUS's code of a link state (R434). -/
def LinkState.code (x : LinkState) : Nat :=
  match x with
  | .down => 0
  | .training => 1
  | .identify => 1
  | .up => 2
  | .degraded => 3

/-- The far node of each of this package's links that is UP or DEGRADED, with the link. -/
def ownLinks (s : State) : List (Nat × Nat) :=
  ((List.range 36).filter fun l => (s.link l).state.isUp).map fun l => (l, (s.link l).peer)

/-- The record the database keeps of a node. -/
def State.record (s : State) (n : Nat) : Option LsRecord := (s.fab.db.find? fun p => p.1.node == n).map (·.1)

/-- The nodes one hop from a node, by its record, or by this package's own links. -/
def neighbours (s : State) (n : Nat) : List Nat :=
  if n = s.fab.node then (ownLinks s).map (·.2)
  else match s.record n with
    | some r => (r.links.filter fun e => decide (2 ≤ e.state)).map (·.node)
    | none => []

/-- Hop counts from a frontier over a neighbour relation: breadth first, `n` rounds at most. -/
def hopRounds (nb : Nat → List Nat) (n d : Nat) (frontier : List Nat) (seen : List (Nat × Nat)) : List (Nat × Nat) :=
  match n with
  | 0 => seen
  | n + 1 =>
    let nxt := dedup ((frontier.flatMap nb).filter fun m => !(seen.any fun p => p.1 == m))
    if nxt.isEmpty then seen else hopRounds nb n (d + 1) nxt (seen ++ nxt.map fun m => (m, d + 1))

/-- Hop counts of every node reachable from a node over UP and DEGRADED links. -/
def hopsFrom (s : State) (n : Nat) : List (Nat × Nat) := hopRounds (neighbours s) 256 0 [n] [(n, 0)]

/-- The hop count between two nodes, where there is a path. -/
def hops (s : State) (a b : Nat) : Option Nat := ((hopsFrom s a).find? fun p => p.1 == b).map (·.2)

/-- The nodes of the database: those with a record, and this package (R448). -/
def State.nodes (s : State) : List Nat := dedup (s.fab.node :: s.fab.db.map (·.1.node))

/-- Whether a node is live in the database. -/
def State.inDb (s : State) (n : Nat) : Bool := s.nodes.contains n

/-- The head of a group: its node with the lowest slot in the database (R449). -/
def groupHead (s : State) (g : Nat) : Option Nat :=
  (List.range 8).findSome? fun k => if s.nodes.contains (8 * g + k) then some (8 * g + k) else none

/-- Whether this package is its group's head (R475). -/
def State.isHead (s : State) : Bool := groupHead s (nodeGroup s.fab.node) == some s.fab.node

/-- The minimal next hops toward a node: links whose far end is one hop nearer (R455). -/
def nextHops (s : State) (dst : Nat) : List Nat :=
  match hops s s.fab.node dst with
  | none => []
  | some d => ((ownLinks s).filter fun p => match hops s p.2 dst with | some e => decide (e + 1 = d) | none => false).map (·.1)

/-- The link a packet of a flow leaves on: chosen by the flow hash among equal next hops (R455). -/
def chooseHop (s : State) (dst a b : Nat) : Option Nat :=
  match nextHops s dst with
  | [] => none
  | h :: r => some (nth h (h :: r) (Config.flowHash a b dst % (r.length + 1)))

/-- The role table (R453): the node that serves a role, if any, and the role's epoch. -/
def State.roleNode (s : State) (r : Nat) : Option Nat :=
  match tget (0, 0) s.fab.roles r with
  | (0, _) => none
  | (n + 1, _) => some n

/-- The epoch of a role. -/
def State.roleEpoch (s : State) (r : Nat) : Nat := (tget (0, 0) s.fab.roles r).2

/-- A role-table entry replaced only by a higher epoch, or filled where it named no node (R453). -/
def setRole (s : State) (r node epoch : Nat) : State :=
  if s.roleEpoch r < epoch ∨ s.roleNode r = none then { s with fab := { s.fab with roles := tput s.fab.roles r (node + 1, epoch) } } else s

/-- Whether this package serves a role. -/
def State.hasRole (s : State) (r : Nat) : Bool := s.roleNode r == some s.fab.node

/-- The roles this package serves. -/
def State.ownRoles (s : State) : List Nat := (s.fab.roles.filter fun e => e.2.1 == s.fab.node + 1).map (·.1)

/-- This package's own link-state record (R448). -/
def ownRecord (s : State) : LsRecord where
  node := s.fab.node
  serial := s.pkg.serial
  grade := s.grade
  seq := s.fab.ownSeq
  resting := s.power.resting
  roles := s.ownRoles.map fun r => (r, s.roleEpoch r)
  links := (List.range 36).map fun l => ⟨(s.link l).state.code, (s.link l).peer⟩

/-- The link-state record is flooded over CTL with the next sequence number (R448). -/
def flood (s : State) : State :=
  let s := { s with fab := { s.fab with ownSeq := s.fab.ownSeq + 1, refloodAt := s.aon } }
  s.send .all (.linkState (ownRecord s))

/-- The database changed: TOPO_SEQ advances, wrapping in its 16 bits (R475). -/
def topoChanged (s : State) : State := { s with fab := { s.fab with topoSeq := (s.fab.topoSeq + 1) % 65536 } }

/-- The neighbour relation with one link between two nodes down: it loses the pair where the two have a single link. -/
def withoutLink (s : State) (a b : Nat) (n : Nat) : List Nat :=
  let l := neighbours s n
  let o := if n = a then some b else if n = b then some a else none
  match o with
  | some m => if (l.filter (· == m)).length ≤ 1 then l.filter (· != m) else l
  | none => l

/-- Whether the groups of two nodes are joined by a link. -/
def groupsJoined (s : State) (g h : Nat) : Bool :=
  s.nodes.any fun n => nodeGroup n == g && (neighbours s n).any fun m => nodeGroup m == h

/-- Whether the discovered topology meets the three conditions of R452. -/
def topologyOk (s : State) : Bool :=
  let ns := s.nodes
  let groups := dedup (ns.map nodeGroup)
  let heads := groups.filterMap (groupHead s)
  let near (nb : Nat → List Nat) (a : Nat) : Bool :=
    let hs := hopRounds nb 256 0 [a] [(a, 0)]
    heads.all fun h => hs.any fun p => p.1 == h && decide (p.2 ≤ 5)
  ns.all (fun a => ns.all fun b => a == b || nodeGroup a != nodeGroup b || (neighbours s a).contains b) &&
  ns.all (fun x => (neighbours s x).all fun y => ns.all fun a => near (withoutLink s x y) a) &&
  groups.all (fun g => groups.all fun h => g == h || groupsJoined s g h || groups.any fun k => groupsJoined s g k && groupsJoined s k h)

/-! ### Packets on the wire (R436 to R439, R445, R457) -/

/-- The virtual channel of a packet type (R446); a firmware message's own is REQ unless the packet says BLK. -/
def typeVc (type : Nat) : Nat :=
  if type = 0x01 then 0 else if type < 0x20 then 1 else if type < 0x40 then 2 else 4

/-- The 32-byte header of a packet (R445). -/
def packetHeader (p : Packet) : List Byte :=
  leBytes 1 p.type ++ leBytes 1 p.dst ++ leBytes 1 p.src ++
  leBytes 1 (b2n p.role + 2 * b2n p.poison + 4 * b2n p.nm + 8 * b2n p.bcast) ++ leBytes 2 (p.dstRole % 1024) ++ leBytes 1 (p.inter % 32) ++
  leBytes 1 (p.part % 16) ++ leBytes 1 p.hops ++ leBytes 3 p.data.length ++ leBytes 4 p.pseq ++ (p.args ++ zeros (16 - p.args.length)).take 16

/-- A packet's bytes cut into flit payloads of 242 bytes, the last filled with zeros; `n` bounds the flits. -/
def flitParts (n : Nat) (l : List Byte) : List (List Byte) :=
  match n with
  | 0 => []
  | n + 1 => if l.length ≤ 242 then [bsub l 0 242] else l.take 242 :: flitParts n (l.drop 242)

/-- One flit leaves on a link under the link's next sequence number, kept in its replay buffer of 512 (R436). -/
def sendFlit (s : State) (l vc hop first : Nat) (payload : List Byte) : State :=
  let k := s.link l
  let f : Flit := ⟨vc, hop, k.txSeq, k.rxSeq, false, true, false, first, [], payload⟩
  (s.setLink l { k with txSeq := (k.txSeq + 1) % 4096, replay := (k.replay ++ [(k.txSeq, f)]).drop (k.replay.length + 1 - 512) }).emit (.flit l f)

/-- The flits of a packet on a link: a packet begins at the start of a flit. -/
def sendFlits (s : State) (l vc hop : Nat) (parts : List (List Byte)) (first : Nat) : State :=
  match parts with
  | [] => s
  | p :: r => sendFlits (sendFlit s l vc hop first p) l vc hop r 0xFF

/-- The node a packet travels toward: the nearest package of group INTER while NM holds, else DST (R455). -/
def routeTarget (s : State) (p : Packet) : Nat :=
  if p.nm then
    let hs := (hopsFrom s s.fab.node).filter fun e => nodeGroup e.1 == p.inter
    match hs with
    | [] => p.dst
    | e :: r => (r.foldl (fun a b => if b.2 < a.2 then b else a) e).1
  else p.dst

/-- The flow key's numbers (R455): the sender, and PSEQ, or the source core and channel that ARGS of a PUT or RSIG carry. -/
def flowKey (p : Packet) : Nat :=
  if p.type = 0x10 ∨ p.type = 0x11 then ble p.args 8 3 else p.pseq

/-- A packet leaves the package on the next hop of its route, one hop further, its hop class one higher across groups (R455, R457). Where no
link leads to its destination no flit of it leaves. -/
def transmit (s : State) (p : Packet) : State :=
  match chooseHop s (routeTarget s p) p.src (flowKey p) with
  | none => s
  | some l =>
    let hop := if nodeGroup (s.link l).peer = nodeGroup s.fab.node then p.hop else p.hop + 1
    let p := { p with hops := p.hops + 1, hop := hop }
    let b := packetHeader p ++ p.data
    (sendFlits s l p.vc hop (flitParts (b.length / 242 + 1) b) 0).emit (.packet p)

end Sys2Proof.Machine
end

