-- ==== Sys2Proof/Machine/Stats.lean ====
section
/-!
DEFINITION. The status and statistics registers as views of the state (R210, R220, R299, R337, R359, R396, R475, R476, R509, R543, R592,
R623, R640), each counter saturating at its field's width.
-/

namespace Sys2Proof.Machine

/-- A counter as its field of `w` bits reads it: saturating. -/
def sat (w n : Nat) : Nat := min n (2 ^ w - 1)

/-- Frames of a partition's KV pool on a stack: the pool's units of 2 MiB over KV_FRAME KiB (R261). -/
def poolFrames (p : Part) (st : Nat) : Nat :=
  match p.ranges[st]? with
  | some r => if p.kvFrame = 0 then 0 else r.kv * 2048 / p.kvFrame
  | none => 0

/-- Allocated frames of a stack's pool. -/
def usedFrames (p : Part) (st : Nat) : Nat := (p.frames.filter fun e => e.1 / 2 ^ 20 == st && e.2 != 0).length

/-- Free frames of a stack's pool. -/
def freeFrames (p : Part) (st : Nat) : Nat := poolFrames p st - usedFrames p st

/-- Free frames over all stacks of a partition (R299). -/
def allFree (p : Part) : Nat := (List.range 12).foldl (fun a k => a + freeFrames p k) 0

def regKvStat (s : State) (p : Nat) : Word64 :=
  mkWord [(0, sat 24 (allFree (s.part p))), (24, sat 16 (s.part p).stats.kvDrops), (40, sat 16 (s.part p).stats.recomp)]

def regExpStat (s : State) (p : Nat) : Word64 :=
  let t := (s.part p).stats
  mkWord [(0, sat 16 t.drops), (16, sat 16 t.staleReturn), (32, sat 12 t.staleDisp), (44, sat 20 t.exits)]

def regExpLa (s : State) (p : Nat) : Word64 := mkWord [(0, sat 24 (s.part p).stats.laHit), (24, sat 24 (s.part p).stats.laMiss)]

def regSpecStat (s : State) (p : Nat) : Word64 :=
  let t := (s.part p).stats
  mkWord [(0, sat 24 t.draftAcc), (24, sat 24 t.draftRej), (48, sat 8 t.staleVerdict)]

def regSchedStat (s : State) (p : Nat) : Word64 :=
  let t := (s.part p).stats
  mkWord [(0, sat 24 t.swaps), (24, sat 16 t.evictAbort), (40, sat 24 (t.schedStall / 4))]

/-- FAB.TWIN_STATUS's code of the pair state (R422, R509). -/
def PairState.code (x : PairState) : Nat :=
  match x with
  | .unpaired => 0
  | .paired => 1
  | .single => 2
  | .rejoining => 3

def regTwinStat (s : State) : Word64 :=
  let t := s.twin
  mkWord [(0, t.state.code), (2, s.twinNode.getD 0), (10, b2n t.pairErr), (11, b2n t.isolated), (12, sat 16 t.failovers),
    (28, sat 16 t.lsChecks), (44, sat 8 t.lsMismatch), (52, sat 8 t.lsUnchecked)]

def regGovStat (s : State) : Word64 :=
  let p := s.power
  mkWord [(0, p.freq), (12, p.offer), (24, p.limit), (27, b2n p.paceLost), (28, sat 16 p.fastTrips), (44, sat 20 (p.stretch / 1000))]

def regEnStat (s : State) : Word64 :=
  mkWord [(0, s.energy.coefSeq % 2 ^ 32), (32, sat 24 s.energy.blocksSigned), (56, sat 8 s.energy.flushFail)]

def regFabStat (s : State) : Word64 :=
  let f := s.fab
  mkWord [(0, f.node), (8, b2n s.isHead), (9, b2n (f.conflict.contains f.node)), (10, b2n f.planWeak), (11, f.topoSeq),
    (27, sat 16 f.hopDrop), (43, sat 16 f.roleFwd)]

def regLinkStat (s : State) (l : Nat) : Word64 :=
  let k := s.link l
  mkWord [(0, k.state.code), (2, b2n k.miswired), (3, k.peer % 256), (11, k.peerLink % 64), (17, sat 16 k.replays),
    (33, sat 16 k.fecUncorr), (49, sat 8 k.downs)]

def regMemStat (s : State) (d : Nat) : Word64 :=
  let b := s.bdie d
  mkWord [(0, sat 24 b.ceCount), (24, sat 16 b.ueCount), (40, sat 8 b.spareLeft), (48, b2n b.spareOut)]

/-- STW_FTL_CFG: fixed in the factory region, zero on a grade without NAND (R220). -/
def regFtlCfg (s : State) : Word64 := if s.hasNand then mkWord [(0, 4000), (13, 90)] else 0

/-- STW_FTL_STAT (R220): LIFE_PM is the mean program/erase count over the known blocks as per mille of 3,000. -/
def regFtlStat (s : State) : Word64 :=
  if !s.hasNand then 0
  else
    let n := s.far.blocks.length
    let pe := s.far.blocks.foldl (fun a e => a + e.2.pe) 0
    mkWord [(0, sat 10 (if n = 0 then 0 else pe * 1000 / (3000 * n))), (10, sat 16 s.far.spareBlk), (26, sat 32 s.far.reloc),
      (58, b2n s.far.readOnly)]

def regBootStat (s : State) : Word64 :=
  let b := s.boot
  mkWord [(0, b.stage), (3, b.cause), (6, b2n b.bootSlot), (7, b2n b.captSlot), (8, s.settings.src), (10, s.settings.bankErr.toNat),
    (12, b2n b.identityFail), (13, b2n b.ledgerLoss), (14, b2n b.planErr), (32, b.bootCount % 2 ^ 32)]

def regInStat (s : State) : Word64 :=
  let e := s.entry
  mkWord [(0, sat 16 s.energy.vin), (16, b2n e.aux), (17, b2n e.warnPin), (18, b2n e.warnTaken), (19, b2n e.uvEvent),
    (20, b2n e.thermTrip), (21, e.straps.toNat), (32, sat 16 e.warns)]

/-- One captain's debug registers. -/
def State.capt (s : State) (c : Nat) : Captain := tget Captain.reset s.dport.capts c

/-- One captain's debug registers replaced. -/
def State.setCapt (s : State) (c : Nat) (x : Captain) : State := { s with dport := { s.dport with capts := tput s.dport.capts c x } }

/-- Whether a captain is halted through the debug port (R606). -/
def State.captHalted (s : State) (c : Nat) : Bool := bit (s.capt c).ctrl 0

def regDbgStatus (s : State) : Word64 :=
  let d := s.dport
  mkWord [(0, d.level), (2, b2n d.unlocked), (3, sat 2 d.fails), (5, b2n d.lockout), (6, b2n s.whistled), (7, b2n d.applWhistle),
    (8, (List.range 8).foldl (fun a c => a + 2 ^ c * b2n (s.captHalted c)) 0), (16, b2n d.imageReady)]

/-- The registers of the scoreboard's REGS section in its order (R617). -/
def scoreRegs (s : State) : List Word64 :=
  (List.range 16).map (regKvStat s) ++ (List.range 16).map (regExpStat s) ++ (List.range 16).map (regExpLa s) ++
  (List.range 16).map (regSpecStat s) ++ (List.range 16).map (regSchedStat s) ++
  [regTwinStat s, s.twin.lsLast, regGovStat s, regEnStat s, regFabStat s] ++ (List.range 36).map (regLinkStat s) ++
  (List.range 12).map (regMemStat s) ++ [regFtlStat s, s.dport.whistle]

end Sys2Proof.Machine
end

