-- ==== Sys2Proof/Machine/Whistle.lean ====
section
/-!
DEFINITION. The whistle (R607 to R613) and the freezing of the scoreboard (R615, R616).
-/

namespace Sys2Proof.Machine

/-- REASON codes of the package's own triggers (R608). -/
def whBreakpoint : Nat := 0x8002
def whLockstep : Nat := 0x8003

/-- The counter set frozen at this instant (R615): CAUSE 1 a whistle, 2 a request. -/
def freeze (s : State) (cause scope reason source : Nat) : Image where
  cause := cause
  scope := scope
  aon := s.aon
  reason := reason
  source := source
  freq := s.power.freq
  boot := s.boot.bootCount
  cycle := s.fieldCycle
  besideCycle := s.besideCycle
  countQ := s.countQ
  cores := s.cores
  beside := s.beside
  regs := scoreRegs s

/-- A package comes to hold a whistle. The first one halts it, freezes the whistle image and posts DBG.WHISTLE_EVENT on PF0; a later one
keeps the first REASON and source, sets MORE, and widens the scope when it is an appliance whistle (R607, R609, R613). A package whistle
newly held is noted to every package (R609). -/
def holdWhistle (s : State) (scope reason source pseq : Nat) : State :=
  let d := s.dport
  let cnt := min (bits d.whistle 41 26 + 1) 65535
  let w := if s.whistled then setBits (setBits d.whistle 24 24 1) 25 25 (max scope (bits d.whistle 25 25))
    else mkWord [(0, reason % 65536), (16, source % 256), (25, scope)]
  let w := setBits w 41 26 cnt
  let first := !s.whistled
  let newPkg := scope = 0 ∧ !d.packageWhistle
  let d := { d with
    whistle := w
    packageWhistle := d.packageWhistle || scope == 0
    applWhistle := d.applWhistle || scope == 1
    heldSeq := if scope = 1 then d.heldSeq ++ [(source, pseq)] else d.heldSeq }
  let s1 := { s with dport := d }
  let s1 := if first then { s1 with dport := { s1.dport with imageW := some (freeze s1 1 scope reason source), imageReady := false } } else s1
  let s1 := if first then notify s1 0 mWHISTLE_EVENT 0
      (leBytes 1 scope ++ leBytes 1 source ++ leBytes 2 reason ++ zeros 4 ++ leBytes 8 s.aon) else s1
  if newPkg then s1.send .all (.whistleNote false) else s1

/-- The package blows a whistle by its own trigger: an appliance whistle is broadcast with SCOPE 1 on CTL (R609). -/
def blowWhistle (s : State) (scope reason : Nat) : State :=
  let seq := s.fab.pseq
  let s1 := if scope = 1 then s.send .all (.whistle 1 reason) else s
  holdWhistle s1 scope reason s.fab.node seq

/-- Once no whistle is held every unit resumes from its held state, and the whistle image is let go (R612, R615). -/
def afterRelease (s : State) : State :=
  if s.whistled then s
  else { s with dport := { s.dport with imageW := none, imageReady := false, heldSeq := [], whistle := setBits s.dport.whistle 25 25 0 } }

/-- SCOPE 0 of a release (R612): the package whistle is released and the release note broadcast; no effect where none is held. -/
def releasePackage (s : State) : State :=
  if s.dport.packageWhistle then
    afterRelease (({ s with dport := { s.dport with packageWhistle := false } }).send .all (.whistleNote true))
  else s

/-- An appliance release (R612): every appliance whistle received before it is released. -/
def releaseAppliance (s : State) : State :=
  afterRelease { s with dport := { s.dport with applWhistle := false, heldSeq := [] } }

/-- Every reset of R585 other than an FLR and a partition reset releases the whistle (R610). -/
def dropWhistle (s : State) : State :=
  { s with dport := { s.dport with packageWhistle := false, applWhistle := false, heldSeq := [], imageW := none, imageReady := false } }

end Sys2Proof.Machine
end

