-- ==== Sys2Proof/Machine/CoreOps.lean ====
section
/-!
DEFINITION. The shared operations of a Field core: completion records (R99, R100), faults (R93 to R95), hurdles (R79 to R82), arbitration
of its engines (R62 to R67), and the start and end of a command.
-/

namespace Sys2Proof.Machine

/-! ### Completion records -/

def kMARK : Nat := 1
def kEND : Nat := 2
def kFAULT : Nat := 3
def kPAUSED : Nat := 4
def kSTOPPED : Nat := 5

/-- A record enters the starter's queue of 1,024, behind any record the core already holds; where there is no room, or the core is
halted, the core holds it (R99, R100, R603). -/
def putRecord (s : State) (c : Nat) (r : Record) : State :=
  let q := s.starter (starterOf c)
  let k := s.core c
  if k.held.isEmpty && decide (q.queue.length < 1024) && s.coreRuns c then
    s.setStarter (starterOf c) { q with queue := q.queue ++ [r] }
  else s.setCore c { k with held := k.held ++ [r] }

/-- A record of a slot (R99). -/
def slotRecord (s : State) (c k kind ring tag cause : Nat) : Record where
  kind := kind
  col := coreCol c
  slot := k
  ctx := (s.slot c k).ctx
  ring := ring
  tag := tag
  cause := cause
  cycle := s.fieldCycle

/-! ### Faults (R93 to R95) -/

/-- FLD_CORE_FAULT of a first fault (R105). -/
def faultWord (cause : Nat) (deferred : Bool) (ring opc tag : Nat) : Word64 :=
  mkWord [(0, cause), (8, 1), (10, b2n deferred), (11, ring), (19, opc), (27, tag)]

/-- What a fault leaves of a slot's started work: its streams fetch no further tile and its GMM reads no further entry (R94, R164). -/
def haltWork (w : Work) : Work :=
  match w with
  | .stream st => if st.inflight.isEmpty then .done else .stream { st with stopped := true }
  | .gmm g => if g.epilogues.isEmpty then .done else .gmm { g with ended := true }
  | w => w

/-- A fault of a slot: from BOUND, RUNNING or PAUSED it becomes FROZEN, the first fault is recorded in FLD_CORE_FAULT and FLD_CORE_FADDR
and a FAULT record written; a fault of a FROZEN slot, or one met while VALID still stands, only sets MORE and writes no record (R94, R95). `who` is the
command the record names. -/
def slotFault (s : State) (c k cause : Nat) (who : Option Cmd) (addr : Nat) (deferred : Bool) : State :=
  let x := s.slot c k
  let ring := (who.map (·.ring)).getD 0
  let opc := (who.map Cmd.opc).getD 0
  let tag := (who.map Cmd.tag).getD 0
  match x.state with
  | .unbound => s
  | .frozen => s.setSlot c k { x with fault := setBits x.fault 9 9 1 }
  | _ =>
    let y := if bit x.fault 8 then { x with fault := setBits x.fault 9 9 1 }
      else { x with fault := faultWord cause deferred ring opc tag, faddr := BitVec.ofNat 64 (addr % 2 ^ 48) }
    let y := { y with state := .frozen, drain := none, fe := none, gmmNext := none, started := y.started.map fun t => { t with work := haltWork t.work } }
    let s := s.setSlot c k y
    if bit x.fault 8 then s else putRecord s c (slotRecord s c k kFAULT ring tag cause)

/-! ### Hurdles -/

def hCount (w : Word64) : Nat := bits w 15 0
def hTarget (w : Word64) : Nat := bits w 31 16
def hSem (w : Word64) : Bool := bit w 32

/-- A hurdle of a core by its number 0..63. -/
def Core.hur (c : Core) (h : Nat) : Word64 := tget 0 c.hurdle h

/-- A hurdle written. -/
def Core.setHur (c : Core) (h : Nat) (w : Word64) : Core := { c with hurdle := tput c.hurdle h w }

/-- The bound slot whose hurdle range holds a hurdle (R45: at most one). -/
def hurdleOwner (c : Core) (h : Nat) : Option Nat :=
  (List.range 4).find? fun k => (c.slot k).state != .unbound && decide ((c.slot k).hbase ≤ h ∧ h < (c.slot k).hbase + (c.slot k).hcount)

/-- An increment arrives at a hurdle (R80): beyond 65,535 the count stays there and the hurdle's slot faults with HURDLE_OVF, the record
naming the command where it is one of the slot's own (R82). -/
def hurdleAdd (s : State) (c h inc : Nat) (who : Option Cmd) : State :=
  let k := s.core c
  let w := k.hur h
  if hCount w + inc ≤ 65535 then s.setCore c (k.setHur h (setBits w 15 0 (hCount w + inc)))
  else
    let s1 := s.setCore c (k.setHur h (setBits w 15 0 65535))
    match hurdleOwner k h with
    | some o => slotFault s1 c o fcHURDLE_OVF who 0 false
    | none => s1

/-! ### Waiters (R79, R81) -/

/-- The sub-queue of an engine. -/
def SlotSt.queue (x : SlotSt) (e : Nat) : List QEntry :=
  match e with
  | 0 => x.q0
  | 1 => x.q1
  | 2 => x.q2
  | _ => x.q3

/-- The sub-queue of an engine replaced. -/
def SlotSt.setQueue (x : SlotSt) (e : Nat) (q : List QEntry) : SlotSt :=
  match e with
  | 0 => { x with q0 := q }
  | 1 => { x with q1 := q }
  | 2 => { x with q2 := q }
  | _ => { x with q3 := q }

/-- Every queued command of a slot, the blocking front-end command included. -/
def SlotSt.queued (x : SlotSt) : List QEntry := x.q0 ++ x.q1 ++ x.q2 ++ x.q3 ++ x.fe.toList

/-- Whether a queued command still has its header wait before it: a GMM resumed after a PAUSE does not (R164). -/
def SlotSt.waits (x : SlotSt) (q : QEntry) : Bool := q.cmd.waitEn && !(q.cmd.opc == oGMM && x.gmmNext.isSome)

/-- TILES, FULL_H, EMPTY_H and DEPTH of a STREAM (R55). -/
def strTiles (c : Cmd) : Nat := bits c.w3 15 0
def strFull (c : Cmd) : Nat := bits c.w3 21 16
def strEmpty (c : Cmd) : Nat := bits c.w3 27 22
def strDepth (c : Cmd) : Nat := bits c.w2 49 46

/-- The hurdle a started stream waits on now: EMPTY_H for a tile of index DEPTH or more (R75). -/
def streamWait (t : Started) : Option Nat :=
  match t.work with
  | .stream st =>
    if !st.stopped && decide (st.next < strTiles t.cmd ∧ strDepth t.cmd ≤ st.next) then some (strEmpty t.cmd) else none
  | _ => none

/-- ENTRIES of a GMM and the window offset of an entry (R154). -/
def gmmEntries (c : Cmd) : Nat := bits c.w2 15 0
def gmmOff (c : Cmd) (i : Nat) : Nat := bits c.w1 21 0 + 64 * i

/-- The hurdle the next entry of a started GMM waits on (R158, R160). -/
def gmmWait (k : Core) (x : SlotSt) (t : Started) : Option Nat :=
  match t.work with
  | .gmm g =>
    let o := gmmOff t.cmd g.next
    let w := winNat k x (o + 0x34) 1
    if !g.ended && decide (g.next < gmmEntries t.cmd) && nbits w 7 7 = 1 && winNat k x (o + 0x24) 2 != 0 && winNat k x (o + 0x2A) 2 != 0
    then some (nbits w 5 0) else none
  | _ => none

/-- Whether a waiter of the slot dispatched before `seq` still waits on slot-relative hurdle `h`. -/
def earlierWaiter (k : Core) (x : SlotSt) (h seq : Nat) : Bool :=
  x.queued.any (fun q => decide (q.seq < seq) && x.waits q && q.cmd.waitH == h) ||
  x.started.any fun t => decide (t.seq < seq) && (streamWait t == some h || gmmWait k x t == some h)

/-- Whether a slot-relative hurdle admits a waiter dispatched as `seq` (R79, R81). -/
def admits (c : Core) (x : SlotSt) (h seq : Nat) : Bool :=
  let w := c.hur (x.hbase + h)
  decide (hTarget w ≤ hCount w) && !(hSem w && earlierWaiter c x h seq)

/-- A waiter passes: in semaphore mode COUNT decreases by TARGET (R79). -/
def passHurdle (c : Core) (x : SlotSt) (h : Nat) : Core :=
  let i := x.hbase + h
  let w := c.hur i
  if hSem w then c.setHur i (setBits w 15 0 (hCount w - hTarget w)) else c

/-! ### Arbitration (R62 to R67) -/

/-- AMASK of a matrix command: the arrays it uses (R56, R154, R269). -/
def arraysOf (c : Cmd) : Nat :=
  if c.opc = oMMA ∨ c.opc = oATTN then nbits c.flags 3 0
  else if c.opc = oGMM then bits c.w3 3 0
  else 0

/-- The accumulator rows of a matrix command, slot-relative: first and count (R67, R70, R161, R269). -/
def accRows (k : Core) (x : SlotSt) (c : Cmd) : Nat × Nat :=
  if c.opc = oMMA then (bits c.w1 53 44, bits c.w2 35 25 / 64 * bits c.w2 8 0)
  else if c.opc = oACLR then (bits c.w1 9 0, bits c.w1 20 10)
  else if c.opc = oATTN then (bits c.w1 53 44, ceilDiv (winNat k x (bits c.w1 21 0 + 0x1E) 2) 64 * 256)
  else (0, x.acs)

/-- Started commands of an engine over all slots. -/
def startedOn (k : Core) (e : Nat) : List Started :=
  (k.s0.started ++ k.s1.started ++ k.s2.started ++ k.s3.started).filter (·.engine == e)

/-- Data-mover contexts in use: its own commands and each ATTN (R66, R269). -/
def moverBusy (k : Core) : Nat := (startedOn k 2).length + ((startedOn k 0).filter (·.cmd.opc == oATTN)).length

/-- A send channel of a slot, core-wide (R86). -/
def chanOf (slot : Nat) (c : Cmd) : Nat := 32 * slot + bits c.w1 4 0

def chEn (w : Word64) : Bool := bit w 0
def chRemote (w : Word64) : Bool := bit w 1
def chNode (w : Word64) : Nat := bits w 9 2
def chCore (w : Word64) : Nat := bits w 20 10
def chInbox (w : Word64) : Nat := bits w 25 21
def chCredits (w : Word64) : Nat := bits w 41 26

/-- Whether the resources a head command needs are free (R64, R66, R67). -/
def resourcesFree (k : Core) (slot : Nat) (x : SlotSt) (c : Cmd) : Bool :=
  match engineOf c.opc with
  | 0 =>
    let used := (startedOn k 0).foldl (fun a t => a ||| t.arrays) 0
    let r := accRows k x c
    (arraysOf c &&& used) = 0 &&
      !(x.started.any fun t => t.engine == 0 && overlap r.1 r.2 t.accLo t.accN) &&
      (c.opc != oATTN || decide (moverBusy k < 4))
  | 1 => (startedOn k 1).isEmpty
  | 2 => decide (moverBusy k < 4)
  | _ =>
    decide ((startedOn k 3).length < 8) &&
      (c.opc != oPUT || (let w := tget 0 k.chan (chanOf slot c); !chEn w || decide (0 < chCredits w)))

/-- Whether a slot's head command on an engine is ready (R64). Commands start only while the slot is RUNNING. -/
def headReady (k : Core) (slot e : Nat) : Bool :=
  let x := k.slot slot
  match x.queue e with
  | [] => false
  | q :: _ => x.state == .running && resourcesFree k slot x q.cmd && (!x.waits q || admits k x q.cmd.waitH q.seq)

/-- The slot an engine served last. -/
def Core.rr (k : Core) (e : Nat) : Nat :=
  match e with
  | 0 => k.rr0
  | 1 => k.rr1
  | 2 => k.rr2
  | _ => k.rr3

/-- The slot an engine served last, written. -/
def Core.setRr (k : Core) (e v : Nat) : Core :=
  match e with
  | 0 => { k with rr0 := v }
  | 1 => { k with rr1 := v }
  | 2 => { k with rr2 := v }
  | _ => { k with rr3 := v }

/-- Of some slots, the one of highest priority, round-robin after the slot served last (R64). -/
def bestSlot (k : Core) (last : Nat) (l : List Nat) : Option Nat :=
  let order := (List.range 4).map fun i => (last + 1 + i) % 4
  let top := l.foldl (fun a i => max a (k.slot i).prio) 0
  order.find? fun i => l.contains i && (k.slot i).prio == top

/-- The slot whose ready head command an engine starts: a head passed over 16 times goes ahead of every other (R65), then priority and
round-robin (R64). -/
def pickSlot (k : Core) (e : Nat) : Option Nat :=
  let ready := (List.range 4).filter fun i => headReady k i e
  let starved := ready.filter fun i => match (k.slot i).queue e with | q :: _ => decide (16 ≤ q.passed) | [] => false
  bestSlot k (k.rr e) (if starved.isEmpty then ready else starved)

/-- A context's last command start (R387). -/
def touchCtx (s : State) (ctx : Nat) : State :=
  let x := s.ctx ctx
  if x.state = .none then s else s.setCtx ctx { x with lastStart := s.aon, blocked := none }

/-- The head command of a slot leaves its sub-queue to start: its wait is passed, the other ready heads of the engine count one more
passing over, the new head's wait begins (R64, R65, R79, R96). -/
def takeHead (s : State) (c e slot : Nat) (q : QEntry) : State :=
  let k := s.core c
  let ready := (List.range 4).filter fun i => i != slot && headReady k i e
  let x := k.slot slot
  let k := if x.waits q then passHurdle k x q.cmd.waitH else k
  let k := ready.foldl (fun k i => match (k.slot i).queue e with
    | p :: r => k.setSlot i ((k.slot i).setQueue e ({ p with passed := p.passed + 1 } :: r))
    | [] => k) k
  let rest := match x.queue e with
    | _ :: p :: r => { p with since := s.aon } :: r
    | _ => []
  let k := (k.setSlot slot ((k.slot slot).setQueue e rest)).setRr e slot
  touchCtx (s.setCore c k) x.ctx

/-- A command has started: it joins the slot's started commands. -/
def pushStarted (s : State) (c slot e : Nat) (q : QEntry) (w : Work) : State :=
  let k := s.core c
  let x := k.slot slot
  let r := if e = 0 then accRows k x q.cmd else (0, 0)
  let t : Started := ⟨k.serial, e, q.cmd, q.seq, if e = 0 then arraysOf q.cmd else 0, r.1, r.2, w, s.aon⟩
  s.setCore c { (k.setSlot slot { x with started := x.started ++ [t] }) with serial := k.serial + 1 }

/-- A started command of a slot by its serial. -/
def SlotSt.find (x : SlotSt) (serial : Nat) : Option Started := x.started.find? (·.serial == serial)

/-- A started command changed in place. -/
def SlotSt.modify (x : SlotSt) (serial : Nat) (f : Started → Started) : SlotSt :=
  { x with started := x.started.map fun t => if t.serial = serial then f t else t }

/-- A started command removed. -/
def SlotSt.drop (x : SlotSt) (serial : Nat) : SlotSt := { x with started := x.started.filter (·.serial != serial) }

/-- One command of an engine starts, when the engine picks it and its opcode is the row's; otherwise nothing happens (log 5). The
command's own effect `f` gets the state with the head taken, the slot, the command and its queue entry. -/
def engineStart (s : State) (c opc : Nat) (f : State → Nat → QEntry → State) : State :=
  if !s.coreRuns c then s
  else
    let e := engineOf opc
    match pickSlot (s.core c) e with
    | none => s
    | some k =>
      match ((s.core c).slot k).queue e with
      | [] => s
      | q :: _ => if q.cmd.opc = opc then f (takeHead s c e k q) k q else s

/-- Whether the step a core is running is this command's (R604). -/
def isStepped (k : Core) (slot seq : Nat) : Bool := k.step == some (slot, some seq)

/-- The stepped command has completed: the core halts again and STEP_DONE is set (R604). -/
def stepDone (s : State) (c slot seq : Nat) : State :=
  let k := s.core c
  if isStepped k slot seq then s.setCore c { k with step := none, ctrl := setBits k.ctrl 4 4 1 } else s

/-- Whether an increment takes a hurdle's count beyond 65,535 (R82). -/
def hurdleOver (s : State) (c h inc : Nat) : Bool := decide (65535 < hCount ((s.core c).hur h) + inc)

/-- A command ends: its signal is applied, a MARK record written when asked, and a step that waited for it ends (R80, R99, R604). A command whose own signal
faults has no further effect (R82, R94). -/
def finish (s : State) (c slot : Nat) (cmd : Cmd) (seq : Nat) : State :=
  let h := (s.slot c slot).hbase + cmd.sigH
  let over_ := cmd.sigEn && hurdleOver s c h 1
  let s1 := if cmd.sigEn then hurdleAdd s c h 1 (some cmd) else s
  let s2 := if cmd.mark && !over_ then putRecord s1 c (slotRecord s1 c slot kMARK cmd.ring cmd.tag 0) else s1
  stepDone s2 c slot seq

/-- A command found faulty when it starts or while it runs: the slot faults, and a step that waited for it ends. -/
def cmdFault (s : State) (c slot : Nat) (cmd : Cmd) (seq cause addr : Nat) (deferred : Bool) : State :=
  stepDone (slotFault s c slot cause (some cmd) addr deferred) c slot seq

/-- Of several faults that hold at once the manual does not say which is reported: a free choice among them (log 10). -/
def pickOne {α : Type} (s : State) (l : List α) : Option (α × State) :=
  match l with
  | [] => none
  | [f] => some (f, s)
  | f :: r => let d := s.draw (r.length + 1)
    some (nth f (f :: r) d.1, d.2)

/-- The tile a matrix command or group-table entry consumes by waiting on a hurdle, oldest stream and lowest index first: the fault held on
its buffer, and the slot without the tile (R76). -/
def consumeTile (x : SlotSt) (h : Nat) : Option Nat × SlotSt :=
  match x.tiles.filter (·.hurdle == h) with
  | [] => (none, x)
  | t :: r =>
    let f := r.foldl (fun a b => if b.serial < a.serial ∨ (b.serial = a.serial ∧ b.tile < a.tile) then b else a) t
    (f.cause, { x with tiles := x.tiles.erase f })

end Sys2Proof.Machine
end

