-- ==== Sys2Proof/Machine/Near.lean ====
section
/-!
DEFINITION. Near memory: translation (R175 to R179), reads and writes by 64-byte lines with their check code and poison (R205 to R207),
write protection (R246), and the directory that holds a write back until the twin's copy is gone (R202, R203, R472).
-/

namespace Sys2Proof.Machine

/-! ### Addresses -/

/-- 2 MiB, the unit of ranges. -/
def unit2M : Nat := 2097152

/-- EN, SHARE, BASE and SIZE of a partition's map entry on a stack (R180). -/
def mapWord (s : State) (p st : Nat) : Word64 := tget 0 (s.bdie st).map p
def mapEn (w : Word64) : Bool := bit w 0
def mapShare (w : Word64) : Bool := bit w 1
def mapBase (w : Word64) : Nat := bits w 30 16
def mapSize (w : Word64) : Nat := bits w 46 32

/-- Stack and offset of a partition near address (R178). -/
def naStack (na : Nat) : Nat := nbits na 39 36
def naOff (na : Nat) : Nat := nbits na 35 0

/-- Whether `n` bytes at a partition near address can be reached (R179); no bytes always can. -/
def nearOk (s : State) (p na n : Nat) : Bool :=
  n == 0 || (let w := mapWord s p (naStack na)
    decide (na < 2 ^ 40) && decide (naStack na < 12) && mapEn w && decide (naOff na + n ≤ mapSize w * unit2M))

/-- The physical offset in its stack of a partition near address (R178). -/
def physOff (s : State) (p na : Nat) : Nat := mapBase (mapWord s p (naStack na)) * unit2M + naOff na

/-- Whether an enabled protection entry of a partition covers any of `n` bytes at a near address (R246, R247). -/
def wpHit (s : State) (p na n : Nat) : Bool :=
  (List.range 8).any fun i =>
    let w := tget 0 (s.bdie (naStack na)).wp (p * 8 + i)
    bit w 0 && overlap (naOff na) n (bits w 30 16 * unit2M) (bits w 46 32 * unit2M)

/-- The local lines `n` bytes at a stack offset touch. -/
def linesOf (off n : Nat) : List Nat := if n = 0 then [] else (List.range ((off + n - 1) / 64 - off / 64 + 1)).map (· + off / 64)

/-- The partition near address of a stack's line, by the partition whose range holds it: partition and address. -/
def lineOwner (s : State) (st line : Nat) : Option (Nat × Nat) :=
  (List.range 16).findSome? fun p =>
    let w := mapWord s p st
    if mapEn w && decide (mapBase w * unit2M ≤ line * 64) && decide (line * 64 < (mapBase w + mapSize w) * unit2M)
    then some (p, st * 2 ^ 36 + (line * 64 - mapBase w * unit2M)) else none

/-- The number under which COH packets name a line: partition and near address, in lines (log 21). -/
def cohLine (p na : Nat) : Nat := p * 2 ^ 34 + na / 64
/-- Its partition and its near address. -/
def cohPart (l : Nat) : Nat := l / 2 ^ 34 % 16
def cohNear (l : Nat) : Nat := l % 2 ^ 34 * 64

/-! ### The check code (R205, R206, R209) -/

/-- 24 hours in AON cycles. -/
def day24 : Nat := 24 * 3600 * 4000000

/-- A corrected error counted against its DRAM row within 24 hours; the row that reaches CE_ROW is due for repair (R209). -/
def countRow (b : BesideDie) (ceRow aon line : Nat) : BesideDie :=
  let row := Config.dramRow line
  let e := match b.rowCe.find? (·.1 == row) with
    | some p => if p.2.2 + day24 ≤ aon then (row, 1, aon) else (row, p.2.1 + 1, p.2.2)
    | none => (row, 1, aon)
  { b with
    rowCe := e :: b.rowCe.filter (·.1 != row)
    repairDue := if ceRow ≤ e.2.1 && !b.repairDue.contains row then b.repairDue ++ [row] else b.repairDue }

/-- The repairs due are made at a warm reset or the entry to REST: a spare row takes the row's place, its errors counted anew; a row that finds none stays in
service, and SPARE_OUT is set (R209). -/
def BesideDie.repair (b : BesideDie) (die : Nat) : BesideDie :=
  b.repairDue.foldl (fun b row =>
    if Config.spareFound die b.repaired row then
      { b with repaired := b.repaired ++ [row], rowCe := b.rowCe.filter (·.1 != row), spareLeft := Config.sparesLeft die (b.repaired ++ [row]) }
    else { b with spareOut := true }) { b with repairDue := [] }

/-- What a read of one line through the check code does to its die (R206). -/
def checkLine (s : State) (st line : Nat) (errs : List EccErr) : State :=
  let b := s.bdie st
  if tget false b.poison line then s
  else match errs.find? fun e => e.stack == st && e.line == line with
    | none => s
    | some e =>
      if e.correctable then s.setBdie st (countRow { b with ceCount := b.ceCount + 1 } (s.ceRow st) s.aon line)
      else s.setBdie st { b with
        poison := tput b.poison line true
        ueCount := b.ueCount + 1
        ueAddr := mkWord [(0, line * 64), (36, 1)] }

/-- Several lines read through the check code. -/
def checkLines (s : State) (st : Nat) (lines : List Nat) (errs : List EccErr) : State := lines.foldl (fun s l => checkLine s st l errs) s

/-- The bytes of a stack. -/
def stackRead (s : State) (st off n : Nat) : List Byte := mread 0 (s.bdie st).mem off n

/-- A read of `n` bytes at a reachable partition near address: the state after the check code, the bytes, and whether any line is poisoned. -/
def nearRead (s : State) (p na n : Nat) (errs : List EccErr) : State × List Byte × Bool :=
  let st := naStack na
  let off := physOff s p na
  let ls := linesOf off n
  let s1 := checkLines s st ls errs
  (s1, stackRead s1 st off n, ls.any fun l => tget false (s1.bdie st).poison l)

/-! ### The directory (R202, R203, R472) -/

/-- The transaction of a line now in progress. -/
def lineWaits (s : State) (st line : Nat) : Option (List LineJob) := ((s.bdie st).waits.find? (·.1 == line)).map (·.2)

/-- What the directory holds of a line. -/
def dirOf (s : State) (st line : Nat) : DirEntry := tget DirEntry.reset (s.bdie st).dir line

/-- INV or RECALL leaves for a line the twin holds (R471). -/
def sendProbe (s : State) (st line : Nat) : State :=
  match lineOwner s st line with
  | some (p, na) => s.emit (.coh (if (dirOf s st line).modified then .recall (cohLine p na) else .inv (cohLine p na)))
  | none => s

/-- A job queues on a line. The first job of a line sends its INV or RECALL, while fewer than 256 are outstanding (R472). -/
def openWait (s : State) (st line : Nat) (j : LineJob) : State :=
  let b := s.bdie st
  match lineWaits s st line with
  | some _ => s.setBdie st { b with waits := b.waits.map fun w => if w.1 = line then (w.1, w.2 ++ [j]) else w }
  | none =>
    let s1 := s.setBdie st { b with waits := b.waits ++ [(line, [j])] }
    if b.waits.length < 256 then sendProbe s1 st line else s1

/-- Whether a write to a line must wait for the directory. -/
def lineHeld (s : State) (st line : Nat) : Bool := (dirOf s st line).held || (lineWaits s st line).isSome

/-- The lines of a range the twin holds modified: a read at the home waits for their RECALL (R470). -/
def readBlocked (s : State) (p na n : Nat) : List Nat :=
  (linesOf (physOff s p na) n).filter fun l => (dirOf s (naStack na) l).held && (dirOf s (naStack na) l).modified

/-- RECALL for the lines of a range the twin holds modified; nothing for a line already being recalled. -/
def recallRange (s : State) (p na n : Nat) : State :=
  (readBlocked s p na n).foldl (fun s l => if (lineWaits s (naStack na) l).isSome then s else openWait s (naStack na) l .read) s

/-! ### Writes -/

/-- A piece of one line applied (R207): a whole line takes the data's poison and checks nothing; part of a line is read through the check
code first and keeps its poison. -/
def applyLine (s : State) (st line off : Nat) (data : List Byte) (poison : Bool) (errs : List EccErr) : State :=
  let s1 := if data.length = 64 then s else checkLine s st line errs
  let b := s1.bdie st
  let bad := if data.length = 64 then poison else poison || tget false b.poison line
  s1.setBdie st { b with
    mem := mwrite 0 b.mem (line * 64 + off) data
    poison := if bad then tput b.poison line true else tdel b.poison line }

/-- One piece written, or queued behind the twin's copy: the lines still waiting are returned. -/
def writeLine (r : State × List (Nat × Nat)) (st line off : Nat) (data : List Byte) (poison : Bool) (errs : List EccErr) :
    State × List (Nat × Nat) :=
  if lineHeld r.1 st line then (openWait r.1 st line (.write off data poison), r.2 ++ [(st, line)])
  else (applyLine r.1 st line off data poison errs, r.2)

/-- Bytes written at a stack offset by lines; `n` bounds the lines. -/
def stackWrite (n : Nat) (r : State × List (Nat × Nat)) (st off : Nat) (data : List Byte) (poison : Bool) (errs : List EccErr) :
    State × List (Nat × Nat) :=
  match n with
  | 0 => r
  | n + 1 =>
    if data.isEmpty then r
    else
      let k := 64 - off % 64
      stackWrite n (writeLine r st (off / 64) (off % 64) (data.take k) poison errs) st (off + k) (data.drop k) poison errs

/-- Bytes written at a reachable partition near address: the state, and the lines whose write waits for the twin (R203). -/
def nearWrite (s : State) (p na : Nat) (data : List Byte) (poison : Bool) (errs : List EccErr) : State × List (Nat × Nat) :=
  stackWrite (data.length / 64 + 2) (s, []) (naStack na) (physOff s p na) data poison errs

/-- Whether two lists of waiting lines hold anything; a command completes once none is left. -/
def linesWork (l : List (Nat × Nat)) : Work := if l.isEmpty then .done else .lines l

/-! ### Counting (R513, R614) -/

/-- Bytes through a stack's delivery bridge and its DRAM interface, charged to a context. -/
def countNear (s : State) (ctx st n : Nat) : State :=
  let b := s.bdie st
  (s.setBdie st { b with dlvBytes := b.dlvBytes + n }).count ctx 6 n

/-- The partition of a core, whose rows hold its row (R179, R379); 16, which has no range anywhere, where none does. -/
def corePart (s : State) (c : Nat) : Nat := ((List.range 16).find? fun p => (s.part p).state != .free && bit (s.part p).rows (starterOf c)).getD 16

end Sys2Proof.Machine
end

