-- ==== Sys2Proof/Machine/Front.lean ====
section
/-!
DEFINITION. The front end of a Field core: dispatch (R47 to R49, R54, R62, R83, R605), its own commands (R50, R55, R63, R80), and a command's
completion (R64 to R67, R80).
-/

namespace Sys2Proof.Machine

/-! ### Dispatch -/

/-- HEAD moved past commands that had started before a PAUSE rewound it; `n` bounds the moves. -/
def skipStarted (n : Nat) (x : SlotSt) : SlotSt :=
  match n with
  | 0 => x
  | n + 1 =>
    if x.head != x.tail && x.skip.contains x.head.toNat then
      skipStarted n { x with head := x.head + 1, skip := x.skip.filter (· != x.head.toNat) }
    else x

/-- The ring entry at a slot's HEAD (R41, R47). -/
def ringCmd (k : Core) (slot : Nat) (x : SlotSt) : Cmd := cmdOf x.head.toNat (mread 0 k.spad (slot * 0x2000 + 32 * x.head.toNat) 32)

/-- Whether a slot has a command its front end can dispatch (R62, R63, R100). -/
def canDispatch (k : Core) (slot : Nat) : Bool :=
  let x := skipStarted 256 (k.slot slot)
  let cmd := ringCmd k slot x
  x.state == .running && x.fe.isNone && x.head != x.tail && !(k.held.any (·.slot == slot)) &&
    (!opcodes.contains cmd.opc || engineOf cmd.opc == 4 || decide ((x.queue (engineOf cmd.opc)).length < 8))

/-- Whether an enabled breakpoint matches a command about to be dispatched (R605, R623). -/
def brkMatch (w sel : Word64) (c slot : Nat) (cmd : Cmd) : Bool :=
  bit w 0 && (!bit w 5 || bits w 4 3 == slot) && (!bit w 14 || bits w 13 6 == cmd.opc) && (!bit w 31 || bits w 30 15 == cmd.tag) &&
    bit sel (coreRow c) && bit sel (16 + coreCol c)

/-- One breakpoint's hit: HITS counts and ACTION applies (R605). -/
def brkHit (s : State) (c i : Nat) : State :=
  let sel := tget 0 s.dport.brkSel i
  let s1 := { s with dport := { s.dport with brkSel := tput s.dport.brkSel i (setBits sel 63 40 (min (bits sel 63 40 + 1) (2 ^ 24 - 1))) } }
  match bits (tget 0 s.dport.brk i) 2 1 with
  | 0 => s1
  | 1 => s1.setCore c { s1.core c with ctrl := setBits (s1.core c).ctrl 0 0 1 }
  | 2 => blowWhistle s1 0 whBreakpoint
  | _ => blowWhistle s1 1 whBreakpoint

/-- The breakpoints of the core's die that match a command. -/
def brkMatches (s : State) (c slot : Nat) (cmd : Cmd) : List Nat :=
  ((List.range 16).map (· + 16 * coreDie c)).filter fun i => brkMatch (tget 0 s.dport.brk i) (tget 0 s.dport.brkSel i) c slot cmd

/-- A command that passed every check enters its sub-queue and HEAD advances, or it becomes the slot's blocking front-end command, with HEAD on it until it is
executed (R47, R62, R63). -/
def enqueue (s : State) (c slot : Nat) (x : SlotSt) (cmd : Cmd) : State :=
  let k := s.core c
  let q : QEntry := ⟨cmd, k.serial, 0, s.aon⟩
  let e := engineOf cmd.opc
  let x := if e = 4 then { x with fe := some q } else { x.setQueue e (x.queue e ++ [q]) with head := x.head + 1 }
  s.setCore c { (k.setSlot slot x) with serial := k.serial + 1 }

/-- The next command of a slot is dispatched: breakpoints first, then the checks of R54, R83, R154 and R168; of several causes any one may be
reported. A faulted command is not dispatched and HEAD stays on it. -/
def dispatchSlot (s : State) (c slot : Nat) : State :=
  let k := s.core c
  let x := skipStarted 256 (k.slot slot)
  let cmd := ringCmd k slot x
  let s1 := s.setCore c { (k.setSlot slot x) with brkPass := none }
  let hits := if k.brkPass = some (slot, cmd.ring) then [] else brkMatches s c slot cmd
  let s2 := hits.foldl (fun s i => brkHit s c i) s1
  if hits.any fun i => bits (tget 0 s.dport.brk i) 2 1 != 0 then
    s2.setCore c { s2.core c with brkPass := some (slot, cmd.ring) }
  else
    match cmd.causes x with
    | [] => enqueue s2 c slot x cmd
    | [f] => slotFault s2 c slot f (some cmd) 0 false
    | f :: r =>
      let d := s2.draw (r.length + 1)
      slotFault d.2 c slot (nth f (f :: r) d.1) (some cmd) 0 false

/-- FRONT_END_DISPATCH: round-robin over the slots that can dispatch (R62). A held core, or one that is stepping, dispatches nothing. -/
def execFrontEndDispatch (core : Nat) (s : State) : Host.Outcome State Fault Refusal :=
  .next (
    if !s.coreRuns core || s.coreHeld core then s
    else
      let k := s.core core
      match ((List.range 4).map fun i => (k.rrFe + 1 + i) % 4).find? (canDispatch k) with
      | none => s
      | some slot => dispatchSlot (s.setCore core { k with rrFe := slot }) core slot)

/-! ### Front-end commands -/

/-- The blocking front-end command of a RUNNING slot with a given opcode, once its header wait admits it (R63). -/
def feReady (s : State) (c slot opc : Nat) : Option QEntry :=
  let k := s.core c
  let x := k.slot slot
  if !s.coreRuns c || 4 ≤ slot || x.state != .running then none
  else match x.fe with
    | some q => if q.cmd.opc = opc ∧ (!q.cmd.waitEn || admits k x q.cmd.waitH q.seq) then some q else none
    | none => none

/-- The front-end command's wait is passed, HEAD advances past it, and it no longer blocks its slot. -/
def feTake (s : State) (c slot : Nat) (q : QEntry) : State :=
  let k := s.core c
  let x := k.slot slot
  let k := if q.cmd.waitEn then passHurdle k x q.cmd.waitH else k
  s.setCore c (k.setSlot slot { k.slot slot with fe := none, head := (k.slot slot).head + 1 })

/-- NOP does nothing (R55). -/
def execNop (core slot : Nat) (s : State) : Host.Outcome State Fault Refusal :=
  .next (match feReady s core slot oNOP with
    | none => s
    | some q => finish (feTake s core slot q) core slot q.cmd q.seq)

/-- HARM sets MODE, TARGET and COUNT of a hurdle once every earlier waiter of the slot on it has passed (R63). -/
def execHarm (core slot : Nat) (s : State) : Host.Outcome State Fault Refusal :=
  .next (match feReady s core slot oHARM with
    | none => s
    | some q =>
      let k := s.core core
      let x := k.slot slot
      let h := bits q.cmd.w1 5 0
      if earlierWaiter k x h q.seq then s
      else
        let s1 := feTake s core slot q
        let w := mkWord [(0, bits q.cmd.w1 47 32), (16, bits q.cmd.w1 31 16), (32, bits q.cmd.w1 6 6)]
        finish (s1.setCore core ((s1.core core).setHur (x.hbase + h) w)) core slot q.cmd q.seq)

/-- HSIG adds INC to a hurdle (R80); where that overflows the HSIG faults and has no further effect (R82, R94). -/
def execHsig (core slot : Nat) (s : State) : Host.Outcome State Fault Refusal :=
  .next (match feReady s core slot oHSIG with
    | none => s
    | some q =>
      let s1 := feTake s core slot q
      let h := (s.slot core slot).hbase + bits q.cmd.w1 5 0
      let inc := bits q.cmd.w1 31 16
      let s2 := hurdleAdd s1 core h inc (some q.cmd)
      if hurdleOver s1 core h inc then stepDone s2 core slot q.seq else finish s2 core slot q.cmd q.seq)

/-- Whether every earlier command of a slot on an engine has completed: the fence keeps later ones from being dispatched. -/
def engineClear (x : SlotSt) (e : Nat) : Bool := (x.queue e).isEmpty && !(x.started.any (·.engine == e))

/-- FENCE ends its slot's wait once the queues of QMASK are clear (R63). -/
def execFence (core slot : Nat) (s : State) : Host.Outcome State Fault Refusal :=
  .next (match feReady s core slot oFENCE with
    | none => s
    | some q =>
      if (List.range 4).all fun e => !bit q.cmd.w1 e || engineClear (s.slot core slot) e then
        finish (feTake s core slot q) core slot q.cmd q.seq
      else s)

/-! ### Completion -/

/-- Whether a started command's work is done. -/
def workDone (w : Work) : Bool :=
  match w with
  | .done => true
  | .lines l => l.isEmpty
  | _ => false

/-- COMMAND_COMPLETE: a started command whose work is done ends; it signals its hurdle and writes its MARK (R80, R99). A halted core's
engines hold their state (R603). -/
def execCommandComplete (core slot serial : Nat) (s : State) : Host.Outcome State Fault Refusal :=
  .next (
    if !s.coreRuns core || 4 ≤ slot then s
    else match (s.slot core slot).find serial with
      | some t =>
        if workDone t.work then finish (s.setSlot core slot ((s.slot core slot).drop serial)) core slot t.cmd t.seq else s
      | none => s)

end Sys2Proof.Machine
end

