-- ==== Sys2Proof/Machine/Slots.lean ====
section
/-!
DEFINITION. The operations of a slot (R45, R50 to R52, R104, R164, R645), its registers with behaviour of their own (R40, R84, R88, R105, R106),
row fire (R98), the watchdog (R96) and the records a core holds (R100).
-/

namespace Sys2Proof.Machine

/-- Whether a core's registers take a write: it is enabled and its die is powered (R40). -/
def State.coreRegs (s : State) (c : Nat) : Bool := s.coreOk c && s.power.fieldOn

/-! ### BIND and UNBIND -/

/-- Whether a slot's configuration is one its core binds (R45). -/
def bindOk (k : Core) (slot : Nat) : Bool :=
  let x := k.slot slot
  decide (8 ≤ x.spb ∧ x.spb + x.sps ≤ 768 ∧ x.acb + x.acs ≤ 1024 ∧ x.hbase + x.hcount ≤ 64) &&
  (List.range 4).all fun i =>
    let y := k.slot i
    i == slot || y.state == .unbound ||
      (!overlap x.spb x.sps y.spb y.sps && !overlap x.acb x.acs y.acb y.acs && !overlap x.hbase x.hcount y.hbase y.hcount)

/-- Expected SEQ values of the inboxes of a slot are forgotten when it becomes UNBOUND or is BOUND anew (R466). -/
def forgetSeq (k : Core) (slot : Nat) : Core := { k with expect := k.expect.filter fun e => e.1 % 32 / 8 != slot }

/-- BIND (R45, R50): HEAD = TAIL = 0, the slot's hurdles in barrier mode with TARGET and COUNT 0, its counters zero (R614). -/
def slotBind (s : State) (c slot : Nat) : State :=
  let k := s.core c
  let x := k.slot slot
  if x.state != .unbound then s
  else if bindOk k slot then
    let k := forgetSeq (k.setSlot slot { x with state := .bound, head := 0, tail := 0, esc := 0 }) slot
    s.setCore c { k with
      hurdle := k.hurdle.filter fun e => !decide (x.hbase ≤ e.1 ∧ e.1 < x.hbase + x.hcount)
      counters := k.counters.filter fun e => !decide (100 + 11 * slot ≤ e.1 ∧ e.1 < 111 + 11 * slot) }
  else s.setSlot c slot { x with bindErr := true }

/-- UNBIND (R50): the inboxes close and the core no longer holds the slot's state; a parked STREAM is gone with it. -/
def slotUnbind (s : State) (c slot : Nat) : State :=
  let k := s.core c
  let x := k.slot slot
  if x.state = .bound ∨ x.state = .paused then
    s.setCore c (forgetSeq (k.setSlot slot { x with
      state := .unbound, head := 0, tail := 0, tiles := [], deferred := [], defOvf := false, gmmNext := none, skip := [], drain := none,
      started := x.started.filter fun t => match t.work with | .stream st => !st.inflight.isEmpty | _ => true }) slot)
  else s

/-! ### PAUSE, RESUME, STOP, CLEAR, RESTORE -/

/-- A GMM with entries not yet begun: they count as unstarted commands (R164). -/
def gmmOpen (t : Started) : Bool :=
  match t.work with
  | .gmm g => !g.ended && decide (g.next < gmmEntries t.cmd)
  | _ => false

/-- A GMM's next entry. -/
def gmmNextOf (t : Started) : Nat :=
  match t.work with
  | .gmm g => g.next
  | _ => 0

/-- A GMM as PAUSE leaves it: gone when no entry is in progress, otherwise ending with it (R164). -/
def gmmPause (t : Started) : Option Started :=
  match t.work with
  | .gmm g => if gmmOpen t then (if g.epilogues.isEmpty then none else some { t with work := .gmm { g with ended := true } }) else some t
  | _ => some t

/-- The ring indices from one up to another, exclusive. -/
def ringSpan (a b : Nat) : List Nat := (List.range ((b + 256 - a) % 256)).map fun i => (a + i) % 256

/-- PAUSE (R50, R51, R164): unstarted commands are withdrawn and HEAD rewound to the first of them; commands behind it that have started
are never dispatched again; a GMM keeps its next entry. -/
def slotPause (s : State) (c slot : Nat) : State :=
  let x := s.slot c slot
  if x.state != .running then s
  else
    let unst := x.queued.map (fun q => (q.seq, q.cmd.ring)) ++ (x.started.filter gmmOpen).map fun t => (t.seq, t.cmd.ring)
    let first := unst.foldl (fun (a : Option (Nat × Nat)) p => match a with
      | none => some p
      | some b => if p.1 < b.1 then some p else some b) none
    let head := (first.map (·.2)).getD x.head.toNat
    let skip := (ringSpan head x.head.toNat).filter fun r => !(unst.any fun p => p.2 == r)
    s.setSlot c slot { x with
      state := .paused, drain := some .pausing, q0 := [], q1 := [], q2 := [], q3 := [], fe := none
      head := BitVec.ofNat 8 head
      skip := dedup (skip ++ x.skip)
      gmmNext := match x.started.find? gmmOpen with | some t => some (gmmNextOf t) | none => x.gmmNext
      started := x.started.filterMap gmmPause }

/-- RESUME (R50): dispatch continues from HEAD. -/
def slotResume (s : State) (c slot : Nat) : State :=
  let x := s.slot c slot
  if x.state = .paused then s.setSlot c slot { x with state := .running, drain := none } else s

/-- What STOP and CLEAR leave of a slot: BOUND, unstarted commands discarded, HEAD = TAIL, streams stopped, the deferred table cleared and
faults held on buffers dropped (R50, R76, R164). -/
def stopped (x : SlotSt) : SlotSt :=
  { x with
    state := .bound, drain := some .stopping, q0 := [], q1 := [], q2 := [], q3 := [], fe := none, head := x.tail
    started := x.started.map fun t => { t with work := haltWork t.work }
    tiles := [], deferred := [], defOvf := false, gmmNext := none, skip := [] }

/-- STOP (R50). -/
def slotStop (s : State) (c slot : Nat) : State :=
  let x := s.slot c slot
  if x.state = .running ∨ x.state = .paused then s.setSlot c slot (stopped x) else s

/-- CLEAR (R50): as STOP does; the fault record is kept. -/
def slotClear (s : State) (c slot : Nat) : State :=
  let x := s.slot c slot
  if x.state = .frozen then s.setSlot c slot (stopped x) else s

/-- TAIL written (R50, R645): a BOUND slot whose TAIL differs from HEAD starts RUNNING, unless its row accepts no new work (R101). -/
def setTail (s : State) (c slot : Nat) (tail : BitVec 8) : State :=
  let x := s.slot c slot
  match x.state with
  | .unbound => s
  | .bound =>
    if (s.starter (starterOf c)).unavailable then s
    else s.setSlot c slot { x with tail := tail, state := if tail = x.head then .bound else .running }
  | _ => s.setSlot c slot { x with tail := tail }

/-- TAIL_WRITE (R645): FLD_SLOT_CTRL with OP = 0 writes TSTAGE and TAIL. -/
def execTailWrite (core slot : Nat) (value : Word64) (s : State) : Host.Outcome State Fault Refusal :=
  .next (
    let x := s.slot core slot
    if !s.coreRegs core || 4 ≤ slot || bits value 18 16 != 0 || x.state == .unbound then s
    else setTail (s.setSlot core slot { x with tstage := BitVec.ofNat 8 (bits value 15 8) }) core slot (BitVec.ofNat 8 (bits value 7 0)))

/-- BIND (R45, R50). -/
def execBind (core slot : Nat) (s : State) : Host.Outcome State Fault Refusal :=
  .next (if !s.coreRegs core || 4 ≤ slot then s else slotBind s core slot)

/-- UNBIND (R50). -/
def execUnbind (core slot : Nat) (s : State) : Host.Outcome State Fault Refusal :=
  .next (if !s.coreRegs core || 4 ≤ slot then s else slotUnbind s core slot)

/-- PAUSE (R50). -/
def execPause (core slot : Nat) (s : State) : Host.Outcome State Fault Refusal :=
  .next (if !s.coreRegs core || 4 ≤ slot then s else slotPause s core slot)

/-- RESUME (R51). -/
def execResume (core slot : Nat) (s : State) : Host.Outcome State Fault Refusal :=
  .next (if !s.coreRegs core || 4 ≤ slot then s else slotResume s core slot)

/-- STOP (R50). -/
def execStop (core slot : Nat) (s : State) : Host.Outcome State Fault Refusal :=
  .next (if !s.coreRegs core || 4 ≤ slot then s else slotStop s core slot)

/-- CLEAR (R50). -/
def execClear (core slot : Nat) (s : State) : Host.Outcome State Fault Refusal :=
  .next (if !s.coreRegs core || 4 ≤ slot then s else slotClear s core slot)

/-- A BOUND slot is restored: HEAD from TSTAGE, TAIL from TAIL, and PAUSED without fetching (R52). -/
def slotRestore (s : State) (c slot head tail : Nat) : State :=
  let x := s.slot c slot
  if x.state = .bound then
    s.setSlot c slot { x with state := .paused, head := BitVec.ofNat 8 head, tail := BitVec.ofNat 8 tail, drain := none }
  else s

/-- RESTORE (R52): FLD_SLOT_CTRL with OP = 7. -/
def execRestore (core slot : Nat) (value : Word64) (s : State) : Host.Outcome State Fault Refusal :=
  .next (if !s.coreRegs core || 4 ≤ slot || bits value 18 16 != 7 then s
    else slotRestore s core slot (bits value 15 8) (bits value 7 0))

/-- Whether what a pausing slot had started has drained: a STREAM held at a tile boundary stays started (R51). -/
def parked (t : Started) : Bool :=
  match t.work with
  | .stream st => st.inflight.isEmpty && !st.stopped
  | _ => false

/-- SLOT_DRAINED: the PAUSED or STOPPED record is written, RING holding HEAD (R50, R99). -/
def execSlotDrained (core slot : Nat) (s : State) : Host.Outcome State Fault Refusal :=
  .next (
    let x := s.slot core slot
    if !s.coreRuns core || 4 ≤ slot then s
    else match x.drain with
      | some .pausing =>
        if x.started.all parked then
          putRecord (s.setSlot core slot { x with drain := none }) core (slotRecord s core slot kPAUSED x.head.toNat 0 0)
        else s
      | some .stopping =>
        if x.started.isEmpty then
          putRecord (s.setSlot core slot { x with drain := none }) core (slotRecord s core slot kSTOPPED x.head.toNat 0 0)
        else s
      | none => s)

/-- ROW_FIRE (R98, R107): TSTAGE becomes TAIL in the named slot of every enabled core of MASK, in one step. -/
def execRowFire (die row : Nat) (value : Word64) (s : State) : Host.Outcome State Fault Refusal :=
  .next (
    if 4 ≤ die ∨ 16 ≤ row ∨ (s.starter (die * 16 + row)).unavailable then s
    else ((rowCores die row).filter fun c => bit value (coreCol c) && s.coreRegs c).foldl
      (fun s c => setTail s c (bits value 25 24) (s.slot c (bits value 25 24)).tstage) s)

/-! ### Records held, watchdog -/

/-- COMPLETION_RECORD_WRITE: the oldest record a core holds enters the starter's queue (R100). Where the queue is full, the starter has taken
its oldest record that is not a FAULT (log 7). -/
def execCompletionRecordWrite (core : Nat) (s : State) : Host.Outcome State Fault Refusal :=
  .next (
    let k := s.core core
    match k.held with
    | [] => s
    | r :: rest =>
      if !s.coreRuns core then s
      else
        let q := s.starter (starterOf core)
        let l := if q.queue.length < 1024 then q.queue
          else match q.queue.find? (·.kind != kFAULT) with
            | some o => q.queue.erase o
            | none => q.queue
        if l.length < 1024 then
          (s.setCore core { k with held := rest }).setStarter (starterOf core) { q with queue := l ++ [r] }
        else s)

/-- The watchdog of a core in µs: FLD_WDOG as written, the settings field otherwise. -/
def wdogUs (s : State) (c : Nat) : Nat :=
  match (s.core c).wdog with
  | some w => w.toNat
  | none => s.cfg 0x0101

/-- The command a watchdog finds waiting (R91, R96): the head of a sub-queue that its hurdle or credit does not admit, a PUT or RSIG not yet
accepted, or the blocking front-end command; with when its wait began and its serial when started. -/
def stalled (k : Core) (slot e : Nat) : Option (Cmd × Nat × Option Nat) :=
  let x := k.slot slot
  let head : Option (Cmd × Nat × Option Nat) :=
    match (if e = 4 then x.fe.toList else x.queue e) with
    | q :: _ =>
      let hurdle := x.waits q && !admits k x q.cmd.waitH q.seq
      let w := tget 0 k.chan (chanOf slot q.cmd)
      let credit := q.cmd.opc == oPUT && chEn w && chCredits w == 0
      if hurdle || credit then some (q.cmd, q.since, none) else none
    | [] => none
  let sent := if e != 3 then none else (x.started.find? fun t => match t.work with | .put _ _ _ _ => true | .rsig _ _ => true | _ => false).map
    fun t => (t.cmd, t.since, some t.serial)
  match sent with
  | some r => some r
  | none => head

/-- WATCHDOG_EXPIRY: a head command has waited longer than FLD_WDOG (R96). A halted core accrues no time (R603). -/
def execWatchdogExpiry (core slot engine : Nat) (s : State) : Host.Outcome State Fault Refusal :=
  .next (
    let k := s.core core
    if !s.coreRuns core || 4 ≤ slot || (k.slot slot).state != .running || wdogUs s core = 0 then s
    else match stalled k slot engine with
      | some (cmd, since, serial) =>
        if since + usAon (wdogUs s core) < s.aon then
          let s1 := match serial with
            | some n => s.setSlot core slot ((k.slot slot).drop n)
            | none => s
          slotFault s1 core slot fcWATCHDOG (some cmd) 0 false
        else s
      | none => s)

/-! ### Registers with behaviour of their own -/

/-- Fields of FLD_INBOX (R106). -/
def ibEn (w : Word64) : Bool := bit w 0
def ibBase (w : Word64) : Nat := bits w 17 2
def ibEsz (w : Word64) : Nat := bits w 22 18
def ibEnl (w : Word64) : Nat := bits w 26 23
def ibArrH (w : Word64) : Nat := bits w 32 27
def ibArrEn (w : Word64) : Bool := bit w 33
def ibHead (w : Word64) : Nat := bits w 45 34
def ibTail (w : Word64) : Nat := bits w 57 46

/-- Whether an inbox may be enabled (R84). -/
def inboxOk (x : SlotSt) (w : Word64) : Bool :=
  decide (6 ≤ ibEsz w ∧ ibEsz w ≤ 16 ∧ ibEnl w ≤ 12) && decide (ibBase w * 64 + 2 ^ (ibEsz w + ibEnl w) ≤ x.sps * 4096)

/-- A write of FLD_INBOX: its read-only fields keep their values, and an enable that R84 refuses leaves EN 0. -/
def inboxWrite (k : Core) (i : Nat) (value : Word64) : Core :=
  let w := mkWord [(0, bits value 33 2 * 4), (34, bits (tget 0 k.inbox i) 57 34), (0, b2n (bit value 0 && inboxOk (k.slot (i / 8)) value))]
  { k with inbox := tput k.inbox i w }

/-- INBOX_ENABLE (R84). -/
def execInboxEnable (core inbox : Nat) (value : Word64) (s : State) : Host.Outcome State Fault Refusal :=
  .next (if !s.coreRegs core || 32 ≤ inbox || !bit value 0 then s else s.setCore core (inboxWrite (s.core core) inbox value))

/-- Whether a channel's enable is refused (R40). -/
def chanRefused (s : State) (w : Word64) : Bool := decide (24 ≤ coreCol (chCore w)) || (!chRemote w && !s.coreOk (chCore w))

/-- A write of FLD_CHAN (R40, R88): an enable that is refused leaves EN 0; enabling a disabled channel restarts its SEQ at 0, and its next PUT
carries RESTART (R446). -/
def chanWrite (s : State) (c j : Nat) (value : Word64) : State :=
  let k := s.core c
  let en := bit value 0 && !chanRefused s value
  let k1 := { k with chan := tput k.chan j (setBits (setBits value 63 42 0) 0 0 (b2n en)) }
  s.setCore c (if en && !chEn (tget 0 k.chan j) then
    { k1 with chanSeq := tput k1.chanSeq j 0, restart := if k1.restart.contains j then k1.restart else k1.restart ++ [j] } else k1)

/-- CHAN_ENABLE (R40, R88). -/
def execChanEnable (core chan : Nat) (value : Word64) (s : State) : Host.Outcome State Fault Refusal :=
  .next (if !s.coreRegs core || 128 ≤ chan || !bit value 0 then s else chanWrite s core chan value)

/-- FAULT_VALID_CLEAR: writing 1 to VALID clears VALID and MORE (R105). -/
def execFaultValidClear (core slot : Nat) (s : State) : Host.Outcome State Fault Refusal :=
  .next (
    let x := s.slot core slot
    if !s.coreRegs core || 4 ≤ slot then s else s.setSlot core slot { x with fault := setBits x.fault 9 8 0 })

end Sys2Proof.Machine
end

