-- ==== Sys2Proof/Machine/Tiles.lean ====
section
/-!
DEFINITION. Narrow numbers and matrix products: weight tiles (R115 to R119, R122, R151), panels (R69, R71, R124), outlier records (R125 to
R127), the exact panel sum with one rounding (R114), the block quantizer (R131 to R133) and the tally record (R136). A byte of memory is
given by a function `rd` from its address, so that arrays and beside engines share every definition (R110).
-/

namespace Sys2Proof.Machine

/-! ### Weights -/

/-- The code of element `i` of a block whose elements are `w` bits wide, at a byte address (R116). -/
def codeAt (rd : Nat → Nat) (base w i : Nat) : Nat := (rd (base + w * i / 8) + 256 * rd (base + w * i / 8 + 1)) / 2 ^ (w * i % 8) % 2 ^ w

/-- The integer a code stands for (R115). -/
def qOf (w c : Nat) : Int := if w = 1 then (if c = 0 then -1 else 1) else signed w c

/-- The value of a code under a block's scale byte (R115, R118). -/
def weightNum (w c scale : Nat) : Num :=
  if scale = 0 then numZero false
  else if scale = 255 then anyNan 30 c w
  else .fin (qOf w c) ((scale : Int) - 127) false

/-- The widths of a tile's K-blocks: of the format, or by the width map at SCALE (R122). -/
def tileWidths (rd : Nat → Nat) (fmt scale kBlocks : Nat) : List Nat :=
  if fmt = 9 then (List.range kBlocks).map fun b => fmtWidth (nbits (rd (scale + b / 2)) (4 * (b % 2) + 3) (4 * (b % 2)))
  else List.replicate kBlocks (fmtWidth fmt)
where
  /-- The element width of W1..W8, 0 for any other code. -/
  fmtWidth (f : Nat) : Nat :=
    match f with
    | 3 => 1
    | 4 => 2
    | 5 => 3
    | 6 => 4
    | 7 => 6
    | 8 => 8
    | _ => 0

/-- Where the scales lie (R119, R122). -/
def scaleBase (fmt scale k : Nat) : Nat := if fmt = 9 then scale + 64 * ceilDiv k 4096 else scale

/-- Bytes of one column group: 256 per bit of width and K-block (R73, R123). -/
def groupBytes (ws : List Nat) : Nat := 256 * ws.foldl (· + ·) 0

/-- The weight at K index `k` for column `c` of group `g` (R117, R119). -/
def tileWeight (rd : Nat → Nat) (wgt scales : Nat) (ws : List Nat) (g k c : Nat) : Num :=
  let b := k / 32
  let w := nth 0 ws b
  let addr := wgt + g * groupBytes ws + groupBytes (ws.take b) + c * 4 * w
  weightNum w (codeAt rd addr w (k % 32)) (rd (scales + (g * ws.length + b) * 64 + c))

/-! ### Panels (R69, R71, R124) -/

/-- The panel depth of an array for a weight width. -/
def panelDepth (w : Nat) (bf16 : Bool) : Nat :=
  (if 6 ≤ w then 16 else if 3 ≤ w then 32 else if w = 2 then 64 else 128) / (if bf16 then 2 else 1)

/-- Runs of equal width: width and blocks. -/
def runsOf (ws : List Nat) : List (Nat × Nat) :=
  ws.foldr (fun w r => match r with | (v, n) :: t => if v = w then (v, n + 1) :: t else (w, 1) :: r | [] => [(w, 1)]) []

/-- The panels of runs from a K index: first index and length. -/
def panelsFrom (bf16 : Bool) (k0 : Nat) (runs : List (Nat × Nat)) : List (Nat × Nat) :=
  match runs with
  | [] => []
  | (w, n) :: r =>
    let d := panelDepth w bf16
    ((List.range (ceilDiv (32 * n) d)).map fun i => (k0 + i * d, min d (32 * n - i * d))) ++ panelsFrom bf16 (k0 + 32 * n) r

/-- The panels of a tile in ascending K. -/
def panelsOf (bf16 : Bool) (ws : List Nat) : List (Nat × Nat) := panelsFrom bf16 0 (runsOf ws)

/-! ### Outliers (R125 to R127) -/

/-- Bytes of an outlier record. -/
def outlierBytes : Nat := 1088

/-- Where the record of group `g` and span `j` lies. -/
def outlierAt (outl k g j : Nat) : Nat := outl + (g * ceilDiv k 256 + j) * outlierBytes

/-- The offsets a record names. -/
def outlierOffs (rd : Nat → Nat) (addr : Nat) : List Nat := (List.range (min (rd addr) 8)).map fun i => rd (addr + 1 + i)

/-- Whether offsets rise strictly. -/
def rising (l : List Nat) : Bool :=
  match l with
  | [] => true
  | a :: r => (match r with | [] => true | b :: _ => decide (a < b)) && rising r

/-- Whether a record faults with BAD_OPERAND (R126). -/
def outlierBad (rd : Nat → Nat) (addr k j : Nat) : Bool :=
  decide (8 < rd addr) || !rising (outlierOffs rd addr) || (outlierOffs rd addr).any fun o => decide (k ≤ 256 * j + o)

/-- The side path of a group: for each span its last K index, and the K indices with the addresses of their weight rows. -/
def sidePath (rd : Nat → Nat) (outl k g : Nat) : List (Nat × List (Nat × Nat)) :=
  (List.range (ceilDiv k 256)).map fun j =>
    let a := outlierAt outl k g j
    let offs := outlierOffs rd a
    (min (256 * (j + 1)) k - 1, (List.range offs.length).map fun i => (256 * j + nth 0 offs i, a + 0x40 + 128 * i))

/-! ### Sums (R114, R127) -/

/-- Overflow and invalid are all an array sets (R114). -/
def arrayFlags (f : Flags) : Flags := f &&& (fOverflow ||| fInvalid)

/-- Whether a number is a NaN. -/
def isNan (x : Num) : Bool :=
  match x with
  | .nan _ => true
  | _ => false

/-- An exact sum added to an accumulator with one rounding (R114). -/
def accAdd (a : Nat × Flags) (x : Num × Flags) : Nat × Flags :=
  let s := addNum (dec32 a.1) x.1
  let r := to32 s.1
  (r.1, a.2 ||| arrayFlags (x.2 ||| s.2 ||| r.2) ||| (if isNan s.1 then fInvalid else 0))

/-- The exact sum of some products, with the flags they raise. -/
def dotSum (l : List (Num × Num)) : Num × Flags :=
  let ps := l.map fun p => mulNum p.1 p.2
  let s := sumNum (ps.map (·.1))
  (s.1, s.2 ||| ps.foldl (fun f p => f ||| p.2) 0)

/-- One output element (R71, R114, R127): the panels in ascending K over an accumulator, each span's side path after the last panel that
holds its indices. -/
def columnSum (act wt : Nat → Num) (side : List (Nat × List (Nat × Num))) (panels : List (Nat × Nat)) (acc : Nat) : Nat × Flags :=
  let outs := side.flatMap fun s => s.2.map (·.1)
  panels.foldl (fun a p =>
    let ks := ((List.range p.2).map (· + p.1)).filter fun k => !outs.contains k
    let a := accAdd a (dotSum (ks.map fun k => (act k, wt k)))
    (side.filter fun s => decide (p.1 ≤ s.1 ∧ s.1 < p.1 + p.2) && !s.2.isEmpty).foldl
      (fun a s => accAdd a (dotSum (s.2.map fun o => (act o.1, o.2)))) a) (acc, 0)

/-- An activation of a row: BF16 or E4M3 (R56). -/
def actNum (rd : Nat → Nat) (row : Nat) (bf16 : Bool) (k : Nat) : Num :=
  if bf16 then decBf16 (rd (row + 2 * k) + 256 * rd (row + 2 * k + 1)) else decE4m3 (rd (row + k))

/-- The 64 columns of a group for one activation row: FP32 codes and flags, over the accumulator values `acc`. -/
def groupRow (act : Nat → Num) (rd : Nat → Nat) (wgt scales : Nat) (ws : List Nat) (bf16 : Bool) (outl : Option Nat) (g : Nat)
    (acc : Nat → Nat) : List (Nat × Flags) :=
  let panels := panelsOf bf16 ws
  let side := match outl with
    | some o => sidePath rd o (32 * ws.length) g
    | none => []
  (List.range 64).map fun c =>
    let sd := side.map fun s => (s.1, s.2.map fun p => (p.1, decBf16 (rd (p.2 + 2 * c) + 256 * rd (p.2 + 2 * c + 1))))
    columnSum act (fun k => tileWeight rd wgt scales ws g k c) sd panels (acc c)

/-- Field cycles one array group takes per panel set, by width class (R72, R124): panels of each run. -/
def panelCount (bf16 : Bool) (ws : List Nat) : Nat := (panelsOf bf16 ws).length

/-- The energy class of a decoded width (R513). -/
def mxClass (w : Nat) : Nat := if 6 ≤ w then 0 else if 3 ≤ w then 1 else 2

/-! ### Conversion and activation functions (R57, R59, R109) -/

/-- A number in FP32, BF16 or E4M3 by format code 0, 1, 2, rounding to nearest even or with the random value `u`. -/
def encode (fmt : Nat) (u : Option Nat) (x : Num) : Nat × Flags :=
  match fmt with
  | 0 => toIeee 23 u x
  | 1 => toIeee 7 u x
  | _ => toE4m3 u x

/-- The number a code of format 0, 1 or 2 stands for. -/
def decode (fmt c : Nat) : Num :=
  match fmt with
  | 0 => dec32 c
  | 1 => decBf16 c
  | _ => decE4m3 c

/-- An activation function on an FP32 value, its result in FP32: 0 none, 1 ReLU, 2 SiLU, 3 GELU (R57, R650). -/
def actFn (f c : Nat) : Nat × Flags :=
  match f with
  | 0 => (c, 0)
  | 1 => match dec32 c with
    | .nan n => (qnan (nbits n 31 31 = 1) 31 n 0, snanFlag (.nan n))
    | x => if ltVal (numZero false) x then (c, 0) else (0, 0)
  | 2 => let m := siluNum (dec32 c)
    let r := to32 m.1
    (r.1, m.2 ||| r.2)
  | _ => let m := geluNum (dec32 c)
    let r := to32 m.1
    (r.1, m.2 ||| r.2)

/-- Bias, then the activation function, each rounded in FP32 (R59, R60). -/
def epilogue (f : Nat) (bias : Option Nat) (c : Nat) : Nat × Flags :=
  match bias with
  | none => actFn f c
  | some b =>
    let s := addNum (dec32 c) (dec32 b)
    let r := to32 s.1
    let a := actFn f r.1
    (a.1, s.2 ||| r.2 ||| a.2)

/-! ### The quantizer (R131 to R133, R136) -/

/-- The random value of a seed entry and an element index (R131). -/
def random16 (e j : Nat) : Nat :=
  let m := 2 ^ 64
  let z := ((e % 2 ^ 32) * 2 ^ 32 + j % 2 ^ 32 + 0x9e3779b97f4a7c15) % m
  let z := (z ^^^ (z / 2 ^ 30)) * 0xbf58476d1ce4e5b9 % m
  let z := (z ^^^ (z / 2 ^ 27)) * 0x94d049bb133111eb % m
  (z ^^^ (z / 2 ^ 31)) % 65536

/-- The largest code of a width (R120). -/
def qMax (w : Nat) : Nat := 2 ^ (w - 1) - 1

/-- Magnitude bits of an FP32 code and whether it is finite. -/
def mag32 (c : Nat) : Nat := c % 2 ^ 31
def fin32 (c : Nat) : Bool := decide (mag32 c < 0x7F800000)

/-- The scale exponent of a W2..W8 block of largest magnitude `m` (an FP32 code): the smallest e with qmax·2^e ≥ m. -/
def scaleExp (w m : Nat) : Int :=
  match dec32 m with
  | .fin k e _ =>
    if k = 0 then -126
    else (e - 40) + ((leastBelow 100 fun d => decide (k.natAbs * 2 ^ 40 ≤ qMax w * 2 ^ d)).getD 0 : Nat)
  | _ => 127

/-- The scale exponent of a W1 block of mean magnitude `a` (an FP32 code, nonzero): ⌊log2(√2·a)⌋. -/
def scaleExp1 (a : Nat) : Int :=
  match dec32 a with
  | .fin k e _ => ((log2Nat (2 * k.natAbs * k.natAbs) : Int) + 2 * e) / 2
  | _ => 127

/-- The mean magnitude of the finite values, rounded once (R133). -/
def meanMag (l : List Nat) : Nat :=
  let f := l.filter fin32
  if f.isEmpty then 0
  else
    match (sumNum (f.map fun c => dec32 (mag32 c))).1 with
    | .fin m e _ => if m = 0 then 0 else (to32 (quotSticky false m.natAbs f.length e)).1
    | _ => 0

/-- An element's code before clamping: the value over 2^e, rounded (R133). -/
def quantElem (e : Int) (u : Option Nat) (c : Nat) : Int :=
  match dec32 c with
  | .fin m x _ => let r := (roundUnits u m.natAbs x e).1
    if m < 0 then -(r : Int) else r
  | _ => 0

/-- One block quantized (R133): scale byte, codes, zu, sat and elements clipped. `u` gives each element's random value. -/
def quantize (w : Nat) (u : Nat → Option Nat) (l : List Nat) : Nat × List Nat × Bool × Bool × Nat :=
  let bad := l.any fun c => !fin32 c
  let m := (l.filter fin32).foldl (fun a c => max a (mag32 c)) 0
  let mean := meanMag l
  if w = 1 ∧ mean = 0 ∧ !bad then (0, List.replicate l.length 0, false, false, 0)
  else
    let e0 := if w = 1 then (if mean = 0 then 127 else scaleExp1 mean) else scaleExp w m
    let sat := bad || decide (127 < e0)
    let e := max (-126) (min 127 e0)
    let lo : Int := -((2 ^ (w - 1) : Nat) : Int)
    let hi : Int := (2 ^ (w - 1) - 1 : Nat)
    let qs : List (Int × Bool) := (List.range l.length).map fun i =>
      let c := nth 0 l i
      let nan := decide (0x7F800000 < mag32 c)
      let neg := decide (2 ^ 31 ≤ c)
      if w = 1 then (if nan || !neg || mag32 c = 0 then 1 else 0, false)
      else if nan then (0, false)
      else if mag32 c = 0x7F800000 then (if neg then lo else hi, true)
      else
        let v := quantElem e (u i) c
        (max lo (min hi v), decide (v < lo ∨ hi < v))
    if w ≠ 1 ∧ qs.all (fun q => q.1 == 0) then (0, List.replicate l.length 0, decide (0 < m), sat, 0)
    else ((e + 127).toNat, qs.map (fun q => unsigned w q.1), false, sat, (qs.filter (·.2)).length)

/-- The bytes of a block's codes (R116). -/
def packCodes (w : Nat) (l : List Nat) : List Byte :=
  leBytes (4 * w) ((List.range l.length).foldl (fun a i => a + nth 0 l i * 2 ^ (w * i)) 0)

/-- The blocks of 32 of a list; `n` bounds them. -/
def chunks {α : Type} (n k : Nat) (l : List α) : List (List α) :=
  match n with
  | 0 => []
  | n + 1 => if l.isEmpty then [] else l.take k :: chunks n k (l.drop k)

end Sys2Proof.Machine
end

