-- ==== Sys2Proof/Machine/Matrix.lean ====
section
/-!
DEFINITION. The matrix engine: MMA (R56, R58, R69 to R73, R114 to R128, R141, R142), ACLR (R55, R58) and the group-table walk GMM (R154 to R164).
A fault found once a product may have begun leaves its accumulator rows free values (R94).
-/

namespace Sys2Proof.Machine

/-! ### Products -/

/-- A byte of a slot's window as a number. -/
def spByte (k : Core) (x : SlotSt) (a : Nat) : Nat := (mget 0 k.spad (x.spb * 4096 + a)).toNat

/-- The operands of one product, of a MMA or of a group-table entry: window offsets, stride, sizes, format, flags, accumulator row and tally. -/
abbrev Product := List Nat

/-- An operand of a product by its place: 0 ACT, 1 ASTRIDE, 2 WGT, 3 SCALE, 4 OUTL, 5 M, 6 K, 7 N, 8 ACC_ROW, 9 WFMT, 10 ACC, 11 OUTL_EN, 12 ABF,
13 TALLY_EN, 14 TALLY. -/
def Product.at_ (p : Product) (i : Nat) : Nat := nth 0 p i

/-- The product of a MMA (R55, R56). -/
def prodOfMma (c : Cmd) : Product :=
  [bits c.w1 21 0, bits c.w3 43 22, bits c.w1 43 22, bits c.w2 61 40, bits c.w3 21 0, bits c.w2 8 0, bits c.w2 24 9, bits c.w2 35 25,
   bits c.w1 53 44, bits c.w2 39 36, nbits c.flags 4 4, nbits c.flags 5 5, nbits c.flags 6 6, nbits c.flags 7 7, bits c.w3 63 48]

/-- Column groups of a product. -/
def Product.groups (p : Product) : Nat := p.at_ 7 / 64

/-- Whether a product's accumulator rows lie in the slot's window (R44, R169). -/
def Product.accOk (p : Product) (x : SlotSt) : Bool := decide (p.at_ 8 + p.groups * p.at_ 5 ≤ x.acs)

/-- The format a product decodes its weights at: FINAL_FMT with TALLY_EN (R141). -/
def Product.fmt (k : Core) (x : SlotSt) (p : Product) : Nat := if p.at_ 13 = 1 then spByte k x (p.at_ 14 * 64 + 2) else p.at_ 9

/-- Whether the tally record a product reads is refused (R142). -/
def Product.tallyBad (k : Core) (x : SlotSt) (p : Product) : Bool :=
  p.at_ 13 == 1 && (spByte k x (p.at_ 14 * 64 + 1) != p.at_ 9 || decide (p.fmt k x < 3 ∨ 8 < p.fmt k x))

/-- The window offset of the tally record when it leaves the window. -/
def Product.tallyOut (x : SlotSt) (p : Product) : List Nat :=
  if p.at_ 13 = 1 ∧ !x.inWin (p.at_ 14 * 64) 64 then [p.at_ 14 * 64] else []

/-- Bytes of an activation row. -/
def Product.rowBytes (p : Product) : Nat := p.at_ 6 * (1 + p.at_ 12)

/-- The offsets of a product's operands that leave the window (R43), the weight side by the widths of its blocks. -/
def Product.outside (x : SlotSt) (p : Product) (ws : List Nat) : List Nat :=
  let g := p.groups
  let kk := p.at_ 6
  let spans := ceilDiv kk 256
  (((List.range (p.at_ 5)).map fun m => p.at_ 0 + m * p.at_ 1).filter fun a => !x.inWin a p.rowBytes) ++
  (if x.inWin (p.at_ 2) (g * groupBytes ws) then [] else [p.at_ 2]) ++
  (if x.inWin (scaleBase (p.at_ 9) (p.at_ 3) kk) (g * (kk / 32) * 64) then [] else [p.at_ 3]) ++
  (if p.at_ 11 = 1 ∧ !x.inWin (p.at_ 4) (g * spans * outlierBytes) then [p.at_ 4] else [])

/-- The outlier records of a product that are refused (R126), by window offset. -/
def Product.badOutliers (k : Core) (x : SlotSt) (p : Product) : List Nat :=
  if p.at_ 11 = 0 then []
  else ((List.range p.groups).flatMap fun g => (List.range (ceilDiv (p.at_ 6) 256)).map fun j => (outlierAt (p.at_ 4) (p.at_ 6) g j, j)).filterMap
    fun a => if outlierBad (spByte k x) a.1 (p.at_ 6) a.2 then some a.1 else none

/-- The widths of a product's K-blocks. -/
def Product.widths (k : Core) (x : SlotSt) (p : Product) : List Nat := tileWidths (spByte k x) (p.fmt k x) (p.at_ 3) (p.at_ 6 / 32)

/-- The faults of a product met while its operands are read (R43, R123, R126): cause and address. `opCause` is BAD_OPERAND, or GROUP_TABLE
in an entry. -/
def Product.faults (k : Core) (x : SlotSt) (p : Product) (opCause : Nat) : List (Nat × Nat) :=
  if p.at_ 6 = 0 then []
  else
    let map := 64 * ceilDiv (p.at_ 6) 4096
    if p.at_ 9 = 9 ∧ !x.inWin (p.at_ 3) map then [(fcSPAD_RANGE, p.at_ 3)]
    else
      let ws := p.widths k x
      let out := p.outside x ws
      (if ws.any (· == 0) then [(opCause, p.at_ 3)] else []) ++ out.map (fun a => (fcSPAD_RANGE, a)) ++
      (if out.isEmpty then (p.badOutliers k x).map fun a => (opCause, a) else [])

/-- The product itself: rows of the accumulator store written, with the flags raised (R70, R114). With K = 0 rows are zeroed, or kept. -/
def Product.run (k : Core) (x : SlotSt) (p : Product) (keepOnZeroK : Bool) : Core × Flags :=
  let m := p.at_ 5
  let lo := x.acb + p.at_ 8
  if p.at_ 6 = 0 then
    if keepOnZeroK then (k, 0)
    else ({ k with acc := mwrite 0 k.acc (lo * 64) (List.replicate (p.groups * m * 64) 0) }, 0)
  else
    let rd := spByte k x
    let ws := p.widths k x
    let rows := (List.range p.groups).flatMap fun g => (List.range m).flatMap fun i =>
      groupRow (actNum rd (p.at_ 0 + i * p.at_ 1) (p.at_ 12 = 1)) rd (p.at_ 2) (scaleBase (p.at_ 9) (p.at_ 3) (p.at_ 6)) ws (p.at_ 12 = 1)
        (if p.at_ 11 = 1 then some (p.at_ 4) else none) g
        (fun c => if p.at_ 10 = 1 then (mget 0 k.acc ((lo + g * m + i) * 64 + c)).toNat else 0)
    ({ k with acc := mwrite 0 k.acc (lo * 64) (rows.map fun r => BitVec.ofNat 32 r.1) }, orFlags (rows.map (·.2)))

/-- The array cycles of a product by width class (R72, R128, R513): each group's panels take max(M, 4) cycles, the side path of a span as
many, charged at the widest class. -/
def Product.count (s : State) (ctx : Nat) (k : Core) (x : SlotSt) (p : Product) : State :=
  if p.at_ 6 = 0 then s
  else
    let m := max (p.at_ 5) 4
    let s := (runsOf (p.widths k x)).foldl (fun s r =>
      s.count ctx (mxClass r.1) (ceilDiv (32 * r.2) (panelDepth r.1 (p.at_ 12 = 1)) * p.groups * m)) s
    if p.at_ 11 = 1 then s.count ctx 0 (ceilDiv (p.at_ 6) 256 * p.groups * m) else s

/-- Accumulator rows a faulted product leaves undefined: free values (R94). -/
def freeRows (s : State) (c slot row n : Nat) : State :=
  let k := s.core c
  let x := k.slot slot
  let rows := min n (x.acs - row)
  let vals : List Word32 := (List.range (rows * 64)).map fun i => BitVec.ofNat 32 (Config.free (s.drawn + i))
  (s.setCore c { k with acc := mwrite 0 k.acc ((x.acb + row) * 64) vals }).drew (rows * 64)

/-- A matrix command's tile fault (R76): raised deferred, before any work. -/
def tileFault (s : State) (c slot : Nat) (q : QEntry) : Option Nat × State :=
  if q.cmd.waitEn then
    let r := consumeTile (s.slot c slot) q.cmd.waitH
    (r.1, s.setSlot c slot r.2)
  else (none, s)

/-- MMA (R55, R58, R70 to R73, R114, R141, R142). -/
def mmaStart (s : State) (c slot : Nat) (q : QEntry) : State :=
  let r := tileFault s c slot q
  let s := r.2
  let k := s.core c
  let x := k.slot slot
  let p := prodOfMma q.cmd
  let rows := p.groups * p.at_ 5
  match r.1 with
  | some cause => cmdFault s c slot q.cmd q.seq cause 0 true
  | none =>
    if rows = 0 then pushStarted s c slot 0 q .done
    else if p.at_ 6 ≠ 0 ∧ (p.tallyOut x).isEmpty ∧ p.tallyBad k x then cmdFault s c slot q.cmd q.seq fcBAD_OPERAND (p.at_ 14 * 64) false
    else
      let early := if p.at_ 6 = 0 then [] else (p.tallyOut x).map fun a => (fcSPAD_RANGE, a)
      let faults := (if p.accOk x then [] else [(fcACC_RANGE, p.at_ 8)]) ++ early ++ (if early.isEmpty then p.faults k x fcBAD_OPERAND else [])
      match pickOne s faults with
      | some (f, s1) => cmdFault (freeRows s1 c slot (p.at_ 8) rows) c slot q.cmd q.seq f.1 f.2 false
      | none =>
        let o := p.run k x (p.at_ 10 = 1)
        pushStarted ((Product.count (s.setCore c o.1) x.ctx k x p).stick c slot o.2) c slot 0 q .done

/-- MMA: the matrix engine starts the picked command. -/
def execMma (core : Nat) (s : State) : Host.Outcome State Fault Refusal :=
  .next (engineStart s core oMMA fun s k q => mmaStart s core k q)

/-- ACLR: ROWS accumulator rows become zero (R55, R58, R61). -/
def aclrStart (s : State) (c slot : Nat) (q : QEntry) : State :=
  let r := tileFault s c slot q
  let s := r.2
  let k := s.core c
  let x := k.slot slot
  let row := bits q.cmd.w1 9 0
  let n := bits q.cmd.w1 20 10
  match r.1 with
  | some cause => cmdFault s c slot q.cmd q.seq cause 0 true
  | none =>
    if n = 0 then pushStarted s c slot 0 q .done
    else if x.acs < row + n then cmdFault (freeRows s c slot row n) c slot q.cmd q.seq fcACC_RANGE row false
    else pushStarted (s.setCore c { k with acc := mwrite 0 k.acc ((x.acb + row) * 64) (List.replicate (n * 64) 0) }) c slot 0 q .done

/-- ACLR: the matrix engine starts the picked command. -/
def execAclr (core : Nat) (s : State) : Host.Outcome State Fault Refusal :=
  .next (engineStart s core oACLR fun s k q => aclrStart s core k q)

/-! ### GMM -/

/-- GMM starts: from entry 0, or from the entry a PAUSE left it at (R156, R164). -/
def gmmStart (s : State) (c slot : Nat) (q : QEntry) : State :=
  let resumed := (s.slot c slot).gmmNext
  let r := if resumed.isSome then (none, s) else tileFault s c slot q
  let s := r.2
  match r.1 with
  | some cause => cmdFault s c slot q.cmd q.seq cause 0 true
  | none =>
    let s1 := s.setSlot c slot { s.slot c slot with gmmNext := none }
    pushStarted s1 c slot 0 q (if gmmEntries q.cmd ≤ resumed.getD 0 then .done else .gmm ⟨resumed.getD 0, [], false⟩)

/-- GMM: the matrix engine starts the picked command. -/
def execGmm (core : Nat) (s : State) : Host.Outcome State Fault Refusal :=
  .next (engineStart s core oGMM fun s k q => gmmStart s core k q)

/-- The fields of a group-table entry (R155). -/
def eF (e : List Byte) (off n : Nat) : Nat := ble e off n
def eM (e : List Byte) : Nat := eF e 0x24 2
def eMpad (e : List Byte) : Nat := eF e 0x26 2
def eK (e : List Byte) : Nat := eF e 0x28 2
def eN (e : List Byte) : Nat := eF e 0x2A 2
def eFlag (e : List Byte) (k : Nat) : Bool := nbits (eF e 0x33 1) k k = 1
def eEpi (e : List Byte) : Bool := eFlag e 3
/-- Output rows of a column group, padding included (R159). -/
def eR (e : List Byte) : Nat := max (eM e) (eMpad e)
def eGroups (e : List Byte) : Nat := eN e / 64

/-- The product of an entry (R159). -/
def prodOfEntry (c : Cmd) (e : List Byte) : Product :=
  [eF e 0 4, eF e 4 4, eF e 8 4, eF e 0xC 4, eF e 0x10 4, eM e, eK e, eN e, eF e 0x2C 2, eF e 0x30 1,
   b2n (eFlag e 0), b2n (eFlag e 1), bits c.w3 4 4, b2n (eFlag e 2), eF e 0x2E 2]

/-- The reserved-bit and range checks every entry gets (R155, R157). -/
def entryBad (e : List Byte) : Bool :=
  ([0, 4, 8, 0xC, 0x10, 0x14, 0x18, 0x1C].any fun o => decide (2 ^ 22 ≤ eF e o 4)) ||
  decide (256 < eM e ∨ 256 < eMpad e ∨ 65504 < eK e ∨ eK e % 32 ≠ 0 ∨ 1024 < eN e ∨ eN e % 64 ≠ 0 ∨ 1023 < eF e 0x2C 2) ||
  decide (eF e 0x30 1 < 3 ∨ 9 < eF e 0x30 1 ∨ 2 < eF e 0x31 1 ∨ 3 < eF e 0x32 1) ||
  nbits (eF e 0x33 1) 7 6 != 0 || nbits (eF e 0x34 1) 6 6 != 0 || nbits (eF e 0x35 1) 6 6 != 0 || !allZero e 0x36 10

/-- The alignment checks and the TALLY_EN check of an entry that is not skipped (R157, R649). -/
def entryMisaligned (e : List Byte) : Bool :=
  eF e 0 4 % 64 != 0 || eF e 8 4 % 64 != 0 || eF e 0xC 4 % 64 != 0 || (decide (1 < eM e) && eF e 4 4 % 64 != 0) ||
  (eFlag e 1 && eF e 0x10 4 % 64 != 0) || (eEpi e && eFlag e 4 && eF e 0x14 4 % 64 != 0) || (eEpi e && eF e 0x18 4 % 64 != 0) ||
  (eEpi e && decide (1 < eGroups e * eR e) && eF e 0x1C 4 % 64 != 0) || (eFlag e 2 && eF e 0x30 1 == 9)

/-- Bytes of an output element of format 0, 1 or 2. -/
def outBytes (fmt : Nat) : Nat := fmtBits fmt / 8

/-- The faults found when an entry is read, its tile not yet needed: hurdle, accumulator and epilogue ranges. -/
def entryFaults (x : SlotSt) (c : Cmd) (e : List Byte) : List Nat :=
  let p := prodOfEntry c e
  let rows := eGroups e * eR e
  (if entryMisaligned e then [fcGROUP_TABLE] else []) ++
  (if (nbits (eF e 0x34 1) 7 7 = 1 ∧ x.hcount ≤ nbits (eF e 0x34 1) 5 0) ∨ (nbits (eF e 0x35 1) 7 7 = 1 ∧ x.hcount ≤ nbits (eF e 0x35 1) 5 0)
    then [fcHURDLE_RANGE] else []) ++
  (if p.accOk x then [] else [fcACC_RANGE]) ++
  (if eEpi e ∧ !x.inWin (eF e 0x18 4) ((rows - 1) * eF e 0x1C 4 + 64 * outBytes (eF e 0x31 1)) then [fcSPAD_RANGE] else []) ++
  (if eEpi e ∧ eFlag e 4 ∧ !x.inWin (eF e 0x14 4) (4 * eN e) then [fcSPAD_RANGE] else [])

/-- Whether two entries of a GMM share accumulator rows (R161). -/
def entriesOverlap (a b : List Byte) : Bool := overlap (eF a 0x2C 2) (eGroups a * eM a) (eF b 0x2C 2) (eGroups b * eM b)

/-- A GMM's work replaced; done once no entry and no epilogue is left. -/
def setGmm (s : State) (c slot serial : Nat) (g : GmmSt) (n : Nat) : State :=
  let fin := g.epilogues.isEmpty && (g.ended || decide (n ≤ g.next))
  let x := s.slot c slot
  if fin && g.ended && x.gmmNext.isSome then s.setSlot c slot (x.drop serial)
  else s.setSlot c slot (x.modify serial fun t => { t with work := if fin then .done else .gmm g })

/-- A fault of an entry: FLD_CORE_FADDR holds its window offset, and the GMM has no further effect (R157). -/
def entryFault (s : State) (c slot : Nat) (t : Started) (off cause : Nat) (deferred : Bool) : State :=
  cmdFault (s.setSlot c slot ((s.slot c slot).drop t.serial)) c slot t.cmd t.seq cause off deferred

/-- An entry that may begin: its wait is passed, its tile consumed, its product run and its signal given (R158 to R160). -/
def entryBegin (s : State) (c slot : Nat) (t : Started) (g : GmmSt) (e : List Byte) : State :=
  let off := gmmOff t.cmd g.next
  let x := s.slot c slot
  let wait := nbits (eF e 0x34 1) 7 7 = 1
  let h := nbits (eF e 0x34 1) 5 0
  let s1 := if wait then s.setCore c (passHurdle (s.core c) x h) else s
  let tile := if wait then consumeTile (s1.slot c slot) h else (none, s1.slot c slot)
  let s2 := s1.setSlot c slot tile.2
  match tile.1 with
  | some cause => entryFault s2 c slot t off cause true
  | none =>
    let k := s2.core c
    let y := k.slot slot
    let p := prodOfEntry t.cmd e
    if p.at_ 6 ≠ 0 ∧ (p.tallyOut y).isEmpty ∧ p.tallyBad k y then entryFault s2 c slot t off fcGROUP_TABLE false
    else
      let early := if p.at_ 6 = 0 then [] else (p.tallyOut y).map fun a => (fcSPAD_RANGE, a)
      match pickOne s2 (early ++ (if early.isEmpty then p.faults k y fcGROUP_TABLE else [])) with
      | some (f, s3) => entryFault (freeRows s3 c slot (p.at_ 8) (eGroups e * eM e)) c slot t off f.1 false
      | none =>
        let o := p.run k y false
        let s3 := (Product.count (s2.setCore c o.1) y.ctx k y p).stick c slot o.2
        let g2 := { g with next := g.next + 1, epilogues := if eEpi e then g.epilogues ++ [(g.next, e)] else g.epilogues }
        let s4 := setGmm s3 c slot t.serial g2 (gmmEntries t.cmd)
        if nbits (eF e 0x35 1) 7 7 = 1 then hurdleAdd s4 c (y.hbase + nbits (eF e 0x35 1) 5 0) 1 (some t.cmd) else s4

/-- GMM_ENTRY: the next entry is read and checked, then begins once its hurdle admits it and no earlier epilogue holds its rows (R157 to
R161). A fault waits for the earlier entries' epilogues. -/
def execGmmEntry (core slot serial : Nat) (s : State) : Host.Outcome State Fault Refusal :=
  .next (
    let k := s.core core
    let x := k.slot slot
    if !s.coreRuns core || 4 ≤ slot || x.state != .running then s
    else match x.find serial with
      | none => s
      | some t => match t.work with
        | .gmm g =>
          if g.ended ∨ gmmEntries t.cmd ≤ g.next then s
          else
            let off := gmmOff t.cmd g.next
            let e := winRead k x off 64
            let skipped := eM e = 0 ∨ eN e = 0
            let faults := if entryBad e then [fcGROUP_TABLE] else if skipped then [] else entryFaults x t.cmd e
            match pickOne s faults with
            | some (f, s1) => if g.epilogues.isEmpty then entryFault s1 core slot t off f false else s
            | none =>
              if skipped then setGmm s core slot serial { g with next := g.next + 1 } (gmmEntries t.cmd)
              else if g.epilogues.any fun p => entriesOverlap p.2 e then s
              else if nbits (eF e 0x34 1) 7 7 = 1 ∧ !admits k x (nbits (eF e 0x34 1) 5 0) t.seq then s
              else entryBegin s core slot t g e
        | _ => s)

/-- A seed of the slot's seed table (R130). -/
def seedAt (k : Core) (x : SlotSt) (n : Nat) : Nat := winNat k x (4 * n) 4

/-- The output row of an epilogue: 64 columns of an accumulator row with bias, activation function and conversion (R59, R159): bytes and flags. -/
def epiRow (k : Core) (x : SlotSt) (accRow actf fmt : Nat) (bias : Option Nat) (seed : Option Nat) (j0 : Nat) : List Byte × Flags :=
  let cols := (List.range 64).map fun c =>
    let v := (mget 0 k.acc ((x.acb + accRow) * 64 + c)).toNat
    let a := epilogue actf (bias.map fun b => winNat k x (b + 4 * c) 4) v
    let r := encode fmt (seed.map fun e => random16 e (j0 + c)) (dec32 a.1)
    (leBytes (outBytes fmt) r.1, a.2 ||| r.2)
  (cols.flatMap (·.1), orFlags (cols.map (·.2)))

/-- A padding row: PADV converted to nearest even (R59). -/
def padRow (fmt padv : Nat) : List Byte × Flags :=
  let r := encode fmt none (dec32 padv)
  ((List.range 64).flatMap fun _ => leBytes (outBytes fmt) r.1, r.2)

/-- The epilogue of an entry: every row of every group at DST + (g × R + m) × DSTRIDE (R159). -/
def entryEpilogue (s : State) (c slot : Nat) (e : List Byte) : State :=
  let k := s.core c
  let x := k.slot slot
  let fmt := eF e 0x31 1
  let rows := (List.range (eGroups e)).flatMap fun g => (List.range (eR e)).map fun m =>
    (eF e 0x18 4 + (g * eR e + m) * eF e 0x1C 4,
      if m < eM e then
        epiRow k x (eF e 0x2C 2 + g * eM e + m) (eF e 0x32 1) fmt (if eFlag e 4 then some (eF e 0x14 4 + 256 * g) else none)
          (if eFlag e 5 then some (seedAt k x m) else none) (64 * g)
      else padRow fmt (eF e 0x20 4))
  let k2 := rows.foldl (fun k r => winWrite k x r.1 r.2.1) k
  ((s.setCore c k2).stick c slot (orFlags (rows.map (·.2.2)))).count x.ctx 3 (8 + eGroups e * eR e)

/-- GMM_EPILOGUE: the oldest epilogue of a GMM runs on the vector engine once no vector command is in progress (R159, R163). -/
def execGmmEpilogue (core slot serial : Nat) (s : State) : Host.Outcome State Fault Refusal :=
  .next (
    if !s.coreRuns core || 4 ≤ slot || !(startedOn (s.core core) 1).isEmpty then s
    else match (s.slot core slot).find serial with
      | none => s
      | some t => match t.work with
        | .gmm g => match g.epilogues with
          | p :: r => setGmm (entryEpilogue s core slot p.2) core slot serial { g with epilogues := r } (gmmEntries t.cmd)
          | [] => s
        | _ => s)

end Sys2Proof.Machine
end

