-- ==== Sys2Proof/Machine/Crypto.lean ====
section
/-!
DEFINITION. The published standards the manual names: SHA-256 (R233, R565, R571), CRC-32C (R576) and the verification of an RSASSA-PSS
signature over RSA-3072 with SHA-256, MGF1 with SHA-256 and a 32-byte salt (R564, R574, R598).
-/

namespace Sys2Proof.Machine

/-- The round constants of SHA-256. -/
def shaK : List Word32 :=
  [0x428a2f98, 0x71374491, 0xb5c0fbcf, 0xe9b5dba5, 0x3956c25b, 0x59f111f1, 0x923f82a4, 0xab1c5ed5] ++
   [0xd807aa98, 0x12835b01, 0x243185be, 0x550c7dc3, 0x72be5d74, 0x80deb1fe, 0x9bdc06a7, 0xc19bf174] ++
   [0xe49b69c1, 0xefbe4786, 0x0fc19dc6, 0x240ca1cc, 0x2de92c6f, 0x4a7484aa, 0x5cb0a9dc, 0x76f988da] ++
   [0x983e5152, 0xa831c66d, 0xb00327c8, 0xbf597fc7, 0xc6e00bf3, 0xd5a79147, 0x06ca6351, 0x14292967] ++
   [0x27b70a85, 0x2e1b2138, 0x4d2c6dfc, 0x53380d13, 0x650a7354, 0x766a0abb, 0x81c2c92e, 0x92722c85] ++
   [0xa2bfe8a1, 0xa81a664b, 0xc24b8b70, 0xc76c51a3, 0xd192e819, 0xd6990624, 0xf40e3585, 0x106aa070] ++
   [0x19a4c116, 0x1e376c08, 0x2748774c, 0x34b0bcb5, 0x391c0cb3, 0x4ed8aa4a, 0x5b9cca4f, 0x682e6ff3] ++
   [0x748f82ee, 0x78a5636f, 0x84c87814, 0x8cc70208, 0x90befffa, 0xa4506ceb, 0xbef9a3f7, 0xc67178f2]

/-- The initial hash value of SHA-256. -/
def shaInit : List Word32 := [0x6a09e667, 0xbb67ae85, 0x3c6ef372, 0xa54ff53a, 0x510e527f, 0x9b05688c, 0x1f83d9ab, 0x5be0cd19]

/-- A 32-bit right rotation. -/
def rotr (x : Word32) (n : Nat) : Word32 := x.rotateRight n

/-- The message schedule extended by `n` words; words held newest first. -/
def shaSchedule (n : Nat) (w : List Word32) : List Word32 :=
  match n with
  | 0 => w
  | n + 1 =>
    let a := nth 0 w 14
    let b := nth 0 w 1
    let s0 := rotr a 7 ^^^ rotr a 18 ^^^ (a >>> 3)
    let s1 := rotr b 17 ^^^ rotr b 19 ^^^ (b >>> 10)
    shaSchedule n ((nth 0 w 15 + s0 + nth 0 w 6 + s1) :: w)

/-- One round on the eight working words. -/
def shaRound (v : List Word32) (kw : Word32) : List Word32 :=
  match v with
  | [a, b, c, d, e, f, g, h] =>
    let t1 := h + (rotr e 6 ^^^ rotr e 11 ^^^ rotr e 25) + ((e &&& f) ^^^ (~~~e &&& g)) + kw
    let t2 := (rotr a 2 ^^^ rotr a 13 ^^^ rotr a 22) + ((a &&& b) ^^^ (a &&& c) ^^^ (b &&& c))
    [t1 + t2, a, b, c, d + t1, e, f, g]
  | v => v

/-- One 64-byte block. -/
def shaBlock (h : List Word32) (block : List Byte) : List Word32 :=
  let w0 := (List.range 16).map fun i => BitVec.ofNat 32 (beNat (bsub block (4 * i) 4))
  let w := (shaSchedule 48 w0.reverse).reverse
  let v := (shaK.zip w).foldl (fun v p => shaRound v (p.1 + p.2)) h
  (h.zip v).map fun p => p.1 + p.2

/-- Every block of a padded message, `n` blocks left. -/
def shaBlocks (n : Nat) (h : List Word32) (l : List Byte) : List Word32 :=
  match n with
  | 0 => h
  | n + 1 => shaBlocks n (shaBlock h (l.take 64)) (l.drop 64)

/-- The SHA-256 digest as 32 bytes. -/
def sha256Bytes (m : List Byte) : List Byte :=
  let len := m.length
  let p := m ++ [0x80] ++ zeros ((119 - len % 64) % 64) ++ beBytes 8 (8 * len)
  (shaBlocks (p.length / 64) shaInit p).flatMap fun w => beBytes 4 w.toNat

/-- The SHA-256 digest as one word, first byte most significant. -/
def sha256 (m : List Byte) : BitVec 256 := BitVec.ofNat 256 (beNat (sha256Bytes m))

/-- A digest's 32 bytes in the order of the standard (R13). -/
def digestBytes (d : BitVec 256) : List Byte := beBytes 32 d.toNat

/-- One byte into a reflected CRC-32C. -/
def crcByte (c : Word32) (b : Byte) : Word32 :=
  (List.range 8).foldl (fun c _ => if c.getLsbD 0 then (c >>> 1) ^^^ 0x82F63B78 else c >>> 1) (c ^^^ b.zeroExtend 32)

/-- CRC-32C (Castagnoli). -/
def crc32c (l : List Byte) : Word32 := ~~~(l.foldl crcByte 0xFFFFFFFF)

/-- Modular power by the bits of the exponent, most significant of the low `k` first. -/
def powMod (b n e : Nat) (k : Nat) : Nat :=
  match k with
  | 0 => 1 % n
  | k + 1 => let r := powMod b n (e / 2) k
    let q := r * r % n
    if e % 2 = 1 then q * b % n else q

/-- MGF1 with SHA-256. -/
def mgf1 (seed : List Byte) (len : Nat) : List Byte :=
  ((List.range (ceilDiv len 32)).flatMap fun i => sha256Bytes (seed ++ beBytes 4 i)).take len

/-- The key form of RSA-3072 (R565, second condition): modulus of exactly 3,072 bits and odd, exponent odd and at least 3. -/
def keyForm (n : List Byte) (e : Nat) : Bool :=
  n.length = 384 && decide (128 ≤ (nth 0 n 0).toNat) && beNat n % 2 = 1 && e % 2 = 1 && decide (3 ≤ e)

/-- Whether `sig` is an RSASSA-PSS signature over the 32-byte digest `mHash` under modulus `n` and exponent `e`. -/
def pssVerify (n : List Byte) (e : Nat) (mHash sig : List Byte) : Bool :=
  let nn := beNat n
  let s := beNat sig
  if sig.length ≠ 384 ∨ nn ≤ s then false
  else
    let em := beBytes 384 (powMod s nn e 32)
    let masked := bsub em 0 351
    let h := bsub em 351 32
    let db := (masked.zip (mgf1 h 351)).map fun p => p.1 ^^^ p.2
    let db0 := (nth 0 db 0 &&& 0x7F) :: db.drop 1
    nth 0 em 383 == 0xBC && (nth 0 masked 0).toNat < 128 && allZero db0 0 318 && nth 0 db0 318 == 0x01 &&
      sha256Bytes (zeros 8 ++ mHash ++ bsub db0 319 32) == h

end Sys2Proof.Machine
end

