-- ==== Sys2Proof/Machine/Vector.lean ====
section
/-!
DEFINITION. The vector engine: VOP (R57, R58, R650), VRED (R646), EPI (R59, R129, R130), VCVT (R133 to R142), ROUTE (R303 to R307) and SAMPLE (R552,
R553). Every command reads its operands as they stand when it starts; a range fault is found before any effect.
-/

namespace Sys2Proof.Machine

/-- A vector command whose operand at a window offset leaves the window: SPAD_RANGE with that offset, a free choice among several (R43). -/
def vectorCheck (s : State) (c slot : Nat) (q : QEntry) (ranges : List (Nat × Nat)) (run : State → State) : State :=
  let x := s.slot c slot
  match pickOne s ((ranges.filter fun r => !x.inWin r.1 r.2).map (·.1)) with
  | some (a, s1) => cmdFault s1 c slot q.cmd q.seq fcSPAD_RANGE a false
  | none => run s

/-- The result of a vector command: the core, its flags, and the engine's busy cycles (R61, R513). -/
def vectorDone (s : State) (c slot : Nat) (q : QEntry) (k : Core) (f : Flags) (cycles : Nat) : State :=
  let ctx := (s.slot c slot).ctx
  pushStarted (((s.setCore c k).stick c slot f).count ctx 3 cycles) c slot 1 q .done

/-! ### VOP -/

/-- One element of a VOP: the exact result and the flags of forming it (R57, R650). -/
def vopNum (op : Nat) (a b imm : Num) : Num × Flags :=
  match op with
  | 1 => addNum a b
  | 2 => addNum a (negNum b)
  | 3 => mulNum a b
  | 4 => let p := mulNum a imm
    let r := addNum p.1 b
    (r.1, p.2 ||| r.2)
  | 5 => maxNum a b
  | 6 => minNum a b
  | 7 => expNum a
  | 8 => rsqrtNum a
  | 9 => recipNum a
  | 10 => siluNum a
  | _ => geluNum a

/-- VOP (R57, R58): DST[i] = op(A[i], B[i]) in FMT, one rounding to the format; a copy leaves every bit as it is (R111). -/
def vopStart (s : State) (c slot : Nat) (q : QEntry) : State :=
  let w := q.cmd
  let op := nbits w.flags 5 0
  let fmt := nbits w.flags 7 6
  let b := outBytes fmt
  let n := bits w.w2 41 22
  let two := decide (1 ≤ op ∧ op ≤ 6)
  let cyc := if n = 0 then 16 else 16 + (if op ≤ 6 then 1 else 2) * ceilDiv n (if fmt = 0 then 64 else 128)
  let ranges := [(bits w.w1 21 0, n * b)] ++ (if two then [(bits w.w1 43 22, n * b)] else []) ++ [(bits w.w2 21 0, n * b)]
  vectorCheck s c slot q ranges fun s =>
    let k := s.core c
    let x := k.slot slot
    if op = 0 then vectorDone s c slot q (winWrite k x (bits w.w2 21 0) (winRead k x (bits w.w1 21 0) (n * b))) 0 cyc
    else
      let rs := (List.range n).map fun i =>
        let a := decode fmt (winNat k x (bits w.w1 21 0 + i * b) b)
        let y := if two then decode fmt (winNat k x (bits w.w1 43 22 + i * b) b) else numZero false
        let r := vopNum op a y (dec32 (bits w.w3 31 0))
        let e := encode fmt none r.1
        (leBytes b e.1, r.2 ||| e.2)
      vectorDone s c slot q (winWrite k x (bits w.w2 21 0) (rs.flatMap (·.1))) (orFlags (rs.map (·.2))) cyc

/-- VOP: the vector engine starts the picked command. -/
def execVop (core : Nat) (s : State) : Host.Outcome State Fault Refusal :=
  .next (engineStart s core oVOP fun s k q => vopStart s core k q)

/-! ### VRED -/

/-- One combining step in FP32 (R646): sum, max or min of two codes. -/
def redStep (op : Nat) (a b : Nat × Flags) : Nat × Flags :=
  let r := match op with
    | 0 => addNum (dec32 a.1) (dec32 b.1)
    | 1 => maxNum (dec32 a.1) (dec32 b.1)
    | _ => minNum (dec32 a.1) (dec32 b.1)
  let e := to32 r.1
  (e.1, a.2 ||| b.2 ||| r.2 ||| e.2)

/-- The value of a lane with no element (R646): −0, −Inf, +Inf. -/
def redIdentity (op : Nat) : Nat :=
  match op with
  | 0 => 0x80000000
  | 1 => 0xFF800000
  | _ => 0x7F800000

/-- One level of the pairwise tree. -/
def redPairs (op : Nat) (l : List (Nat × Flags)) : List (Nat × Flags) :=
  match l with
  | a :: b :: r => redStep op a b :: redPairs op r
  | l => l

/-- The tree over `n` levels. -/
def redTree (op : Nat) (n : Nat) (l : List (Nat × Flags)) : List (Nat × Flags) :=
  match n with
  | 0 => l
  | n + 1 => redTree op n (redPairs op l)

/-- One lane: its elements in ascending order (R646). -/
def redLane (op : Nat) (l : List Nat) : Nat × Flags :=
  match l with
  | [] => (redIdentity op, 0)
  | a :: r => r.foldl (fun x y => redStep op x (y, 0)) (a, 0)

/-- The reduction of one row of FP32 codes over `lanes` lanes (64 or 128). -/
def redRow (op lanes : Nat) (l : List Nat) : Nat × Flags :=
  if l.isEmpty then (if op = 0 then 0 else redIdentity op, 0)
  else
    let ls := (List.range lanes).map fun i =>
      redLane op ((List.range (ceilDiv (l.length - i) lanes)).map fun j => nth 0 l (i + j * lanes))
    nth (0, 0) (redTree op 7 ls) 0

/-- VRED (R58, R646). -/
def vredStart (s : State) (c slot : Nat) (q : QEntry) : State :=
  let w := q.cmd
  let op := nbits w.flags 1 0
  let fmt := nbits w.flags 7 6
  let b := outBytes fmt
  let n := bits w.w2 41 22
  let rows := bits w.w3 15 0
  let stride := roundUp (n * b) 64
  let lanes := if fmt = 0 then 64 else 128
  let cyc := 16 + rows * (ceilDiv n lanes + 6)
  vectorCheck s c slot q [(bits w.w1 21 0, if rows = 0 then 0 else (rows - 1) * stride + n * b), (bits w.w2 21 0, rows * b)] fun s =>
    let k := s.core c
    let x := k.slot slot
    let rs := (List.range rows).map fun r =>
      let v := redRow op lanes ((List.range n).map fun i =>
        let e := winNat k x (bits w.w1 21 0 + r * stride + i * b) b
        if fmt = 0 then e else e * 65536)
      let e := encode fmt none (dec32 v.1)
      (leBytes b e.1, v.2 ||| e.2)
    vectorDone s c slot q (winWrite k x (bits w.w2 21 0) (rs.flatMap (·.1))) (orFlags (rs.map (·.2))) cyc

/-- VRED: the vector engine starts the picked command. -/
def execVred (core : Nat) (s : State) : Host.Outcome State Fault Refusal :=
  .next (engineStart s core oVRED fun s k q => vredStart s core k q)

/-! ### EPI -/

/-- EPI (R58, R59, R130): ROWS accumulator rows through bias, activation function and conversion; rows of index VALID and above are padding. -/
def epiStart (s : State) (c slot : Nat) (q : QEntry) : State :=
  let w := q.cmd
  let row := bits w.w1 9 0
  let rows := bits w.w1 20 10
  let fmt := bits w.w2 25 22
  let f := bits w.w2 29 26
  let biasEn := nbits w.flags 0 0 = 1
  let sr := nbits w.flags 1 1 = 1
  let pad := nbits w.flags 2 2 = 1
  let dst := bits w.w2 21 0
  let stride := bits w.w2 51 30
  let cyc := 16 + rows * (if f ≤ 1 then 1 else 2)
  if rows = 0 then vectorDone s c slot q (s.core c) 0 16
  else if (s.slot c slot).acs < row + rows then cmdFault s c slot q.cmd q.seq fcACC_RANGE row false
  else vectorCheck s c slot q ([(dst, (rows - 1) * stride + 64 * outBytes fmt)] ++ (if biasEn then [(bits w.w1 42 21, 256)] else [])) fun s =>
    let k := s.core c
    let x := k.slot slot
    let rs := (List.range rows).map fun r =>
      (dst + r * stride,
        if pad ∧ bits w.w3 42 32 ≤ r then padRow fmt (bits w.w3 31 0)
        else epiRow k x (row + r) f fmt (if biasEn then some (bits w.w1 42 21) else none) (if sr then some (seedAt k x r) else none) 0)
    vectorDone s c slot q (rs.foldl (fun k r => winWrite k x r.1 r.2.1) k) (orFlags (rs.map (·.2.2))) cyc

/-- EPI: the vector engine starts the picked command. -/
def execEpi (core : Nat) (s : State) : Host.Outcome State Fault Refusal :=
  .next (engineStart s core oEPI fun s k q => epiStart s core k q)

/-! ### VCVT -/

/-- Where the elements of a block-scaled area of `n` elements lie (R134). -/
def areaElems (base n : Nat) : Nat := base + 0x40 + 64 * ceilDiv n 2048

/-- Element `i` of a VCVT's input, as a number: from a block-scaled area at its record's FINAL_FMT, or from a plain array (R134, R141). -/
def cvtInput (k : Core) (x : SlotSt) (fmt src n i : Nat) : Num :=
  if fmtBlock fmt then
    let w := fmtBits (spByte k x (src + 2))
    weightNum w (codeAt (spByte k x) (areaElems src n + i / 32 * 4 * w) w (i % 32)) (spByte k x (src + 0x40 + i / 32))
  else decode fmt (winNat k x (src + i * outBytes fmt) (outBytes fmt))

/-- A tile quantized at one width: per block the scale, codes, zu, sat and clipped count. -/
def cvtBlocks (w : Nat) (u : Nat → Option Nat) (src : List Nat) : List (Nat × List Nat × Bool × Bool × Nat) :=
  (List.range (src.length / 32)).map fun b => quantize w (fun i => u (32 * b + i)) ((src.drop (32 * b)).take 32)

/-- Saturated and underflowed blocks (R120, R121). -/
def cvtSat (l : List (Nat × List Nat × Bool × Bool × Nat)) : Nat := (l.filter fun b => b.2.2.2.1).length
def cvtZu (l : List (Nat × List Nat × Bool × Bool × Nat)) : Nat := (l.filter fun b => b.2.2.1).length

/-- Whether a tile is troubled at one width (R137). -/
def troubled (escT : Nat) (l : List (Nat × List Nat × Bool × Bool × Nat)) : Bool :=
  let t := cvtSat l + cvtZu l
  decide (1 ≤ t ∧ escT * l.length ≤ 1024 * t)

/-- The next wider format of an escalation (R138). -/
def widerFmt (f : Nat) : Nat :=
  match f with
  | 3 => 4
  | 4 => 6
  | 5 => 6
  | 6 => 7
  | _ => 8

/-- Escalation: the format reached, the steps taken and the tile there (R138); `n` bounds the steps. -/
def escalate (n : Nat) (escT : Nat) (u : Nat → Option Nat) (src : List Nat) (fmt steps : Nat)
    (l : List (Nat × List Nat × Bool × Bool × Nat)) : Nat × Nat × List (Nat × List Nat × Bool × Bool × Nat) :=
  match n with
  | 0 => (fmt, steps, l)
  | n + 1 =>
    if fmt = 8 ∨ !troubled escT l then (fmt, steps, l)
    else
      let f := widerFmt fmt
      escalate n escT u src f (steps + 1) (cvtBlocks (fmtBits f) u src)

/-- The tally record of a live conversion (R136). -/
def tallyRecord (req fin steps : Nat) (escFail nan : Bool) (r l : List (Nat × List Nat × Bool × Bool × Nat)) : List Byte :=
  leBytes 1 0 ++ leBytes 1 req ++ leBytes 1 fin ++ leBytes 1 (2 * b2n escFail + 4 * b2n nan) ++ leBytes 4 l.length ++
  leBytes 4 (cvtSat l) ++ leBytes 4 (cvtZu l) ++ leBytes 4 (l.filter fun b => b.1 == 0).length ++
  leBytes 4 (l.foldl (fun a b => a + b.2.2.2.2) 0) ++ leBytes 4 (cvtSat r) ++ leBytes 4 (cvtZu r) ++ leBytes 1 steps ++ zeros 31

/-- VCVT (R133 to R142). -/
def vcvtStart (s : State) (c slot : Nat) (q : QEntry) : State :=
  let w := q.cmd
  let ifmt := nbits w.flags 3 0
  let ofmt := nbits w.flags 7 4
  let src := bits w.w1 21 0
  let dst := bits w.w2 21 0
  let n := bits w.w2 41 22
  let sr := bit w.w3 0
  let pass := ceilDiv n (if ifmt = 0 ∨ ofmt = 0 then 64 else 128)
  if n = 0 then vectorDone s c slot q (s.core c) 0 16
  else vectorCheck s c slot q [(src, areaBytes ifmt n), (dst, areaBytes ofmt n)] fun s =>
    let k := s.core c
    let x := k.slot slot
    let fin := spByte k x (src + 2)
    if fmtBlock ifmt ∧ (spByte k x (src + 1) ≠ ifmt ∨ fin < 3 ∨ 8 < fin) then cmdFault s c slot q.cmd q.seq fcBAD_OPERAND src false
    else
      let seed := seedAt k x (w.tag % 1024)
      let u : Nat → Option Nat := fun j => if sr then some (random16 seed j) else none
      if fmtBlock ofmt then
        let vals := (List.range n).map fun i => to32 (cvtInput k x ifmt src n i)
        let codes := vals.map (·.1)
        let first := cvtBlocks (fmtBits ofmt) u codes
        let die := coreDie c
        let r := if s.escEn die then escalate 4 (s.escT die) u codes ofmt 0 first else (ofmt, 0, first)
        let fail := s.escEn die && r.1 == 8 && troubled (s.escT die) r.2.2
        let rec_ := tallyRecord ofmt r.1 r.2.1 fail (codes.any fun v => decide (0x7F800000 < mag32 v)) first r.2.2
        let k := winWrite k x (areaElems dst n) (r.2.2.flatMap fun b => packCodes (fmtBits r.1) b.2.1)
        let k := winWrite k x (dst + 0x40) (r.2.2.map fun b => BitVec.ofNat 8 b.1)
        let k := winWrite k x dst rec_
        let k := k.setSlot slot { k.slot slot with esc := min ((k.slot slot).esc + r.2.1) (2 ^ 32 - 1) }
        vectorDone s c slot q k (orFlags (vals.map (·.2))) (16 + pass * (1 + r.2.1))
      else
        let rs := (List.range n).map fun i =>
          let e := encode ofmt (u i) (cvtInput k x ifmt src n i)
          (leBytes (outBytes ofmt) e.1, e.2)
        vectorDone s c slot q (winWrite k x dst (rs.flatMap (·.1))) (orFlags (rs.map (·.2))) (16 + pass)

/-- VCVT: the vector engine starts the picked command. -/
def execVcvt (core : Nat) (s : State) : Host.Outcome State Fault Refusal :=
  .next (engineStart s core oVCVT fun s k q => vcvtStart s core k q)

/-! ### ROUTE -/

/-- The logistic function of an FP32 value, correctly rounded once encoded (R304). -/
def sigmoidNum (x : Num) : Num × Flags :=
  match x with
  | .nan a => (anyNan 23 a 0, snanFlag x)
  | .inf n => (if n then numZero false else .fin 1 0 false, 0)
  | .fin m e _ =>
    if m = 0 then (.fin 1 (-1) false, 0)
    else if beyond1024 m e then (if m < 0 then tinyNum false else justBelow 1 0, 0)
    else (timesLogistic 1 0 (toFx m e), 0)

/-- An operation rounded to FP32. -/
def round32 (x : Num × Flags) : Nat × Flags :=
  let e := to32 x.1
  (e.1, x.2 ||| e.2)

/-- Whether score `a` of a lower-indexed expert keeps its place before score `b`: greater, or equal; NaN ranks below every number and equal to
itself (R305, R306). -/
def ranksBefore (a b : Nat) : Bool :=
  match dec32 a, dec32 b with
  | .nan _, .nan _ => true
  | .nan _, _ => false
  | _, .nan _ => true
  | x, y => !ltVal x y

/-- The index of the greatest score not yet chosen, the lowest among equals. -/
def bestScore (sc : List Nat) (chosen : List Nat) : Nat :=
  ((List.range sc.length).filter fun i => !chosen.contains i).foldl
    (fun (a : Option Nat) i => match a with
      | none => some i
      | some b => if ranksBefore (nth 0 sc b) (nth 0 sc i) then some b else some i) none |>.getD 0

/-- The first `n` choices by rank. -/
def chooseTop (n : Nat) (sc : List Nat) (chosen : List Nat) : List Nat :=
  match n with
  | 0 => chosen
  | n + 1 => chooseTop n sc (chosen ++ [bestScore sc chosen])

/-- One row of ROUTE (R304): choices, gates, their scores, and flags. -/
def routeRow (z b : List Nat) (ksel gfn : Nat) : List Nat × List Nat × List Nat × Flags :=
  let ss := (List.range z.length).map fun i => round32 (addNum (dec32 (nth 0 z i)) (dec32 (nth 0 b i)))
  let sc := ss.map (·.1)
  let xs := chooseTop ksel sc []
  let zs := xs.map fun x => nth 0 z x
  let zm := match zs with
    | [] => numZero false
    | a :: r => r.foldl (fun m v => (maxNum m (dec32 v)).1) (dec32 a)
  let ts := zs.map fun v =>
    if gfn = 0 then
      let d := round32 (addNum (dec32 v) (negNum zm))
      let e := round32 (expNum (dec32 d.1))
      (e.1, d.2 ||| e.2)
    else round32 (sigmoidNum (dec32 v))
  let sum := ts.foldl (fun a t => redStep 0 a t) (0, 0)
  let gs := ts.map fun t => round32 (divNum (dec32 t.1) (dec32 sum.1))
  (xs, gs.map (·.1), xs.map fun x => nth 0 sc x, orFlags (ss.map (·.2)) ||| sum.2 ||| orFlags (gs.map (·.2)))

/-- A list of eight entries, zero beyond the given ones. -/
def eight (l : List Nat) (n : Nat) : List Byte := (List.range 8).flatMap fun i => leBytes n (nth 0 l i)

/-- A choice record (R307). -/
def choiceRecord (row ksel : Nat) (nan : Bool) (xs gs ss : List Nat) : List Byte :=
  leBytes 4 row ++ leBytes 1 ksel ++ leBytes 1 (b2n nan) ++ zeros 2 ++ eight xs 2 ++ eight gs 4 ++ eight ss 4 ++ zeros 40

/-- Whether an FP32 code is a NaN. -/
def nan32 (c : Nat) : Bool := decide (0x7F800000 < mag32 c)

/-- ROUTE (R303 to R307). -/
def routeStart (s : State) (c slot : Nat) (q : QEntry) : State :=
  let w := q.cmd
  let e := bits w.w3 10 0
  let ksel := bits w.w3 14 11
  let rows := bits w.w2 37 22
  let stride := roundUp (4 * e) 64
  let src := bits w.w1 21 0
  let out := bits w.w2 21 0
  if rows = 0 then vectorDone s c slot q (s.core c) 0 16
  else vectorCheck s c slot q [(src, (rows - 1) * stride + 4 * e), (bits w.w1 43 22, 4 * e), (out, 128 * rows)] fun s =>
    let k := s.core c
    let x := k.slot slot
    let b := (List.range e).map fun i => winNat k x (bits w.w1 43 22 + 4 * i) 4
    let rs := (List.range rows).map fun r =>
      let z := (List.range e).map fun i => winNat k x (src + r * stride + 4 * i) 4
      let nan := z.any nan32
      let v := routeRow z b ksel (bits w.w3 15 15)
      (choiceRecord (bits w.w3 47 16 + r) ksel nan v.1 v.2.1 v.2.2.1, v.2.2.2 ||| (if nan then fInvalid else 0))
    vectorDone s c slot q (winWrite k x out (rs.flatMap (·.1))) (orFlags (rs.map (·.2))) (16 + rows * (ceilDiv e 64 + ksel))

/-- ROUTE: the vector engine starts the picked command. -/
def execRoute (core : Nat) (s : State) : Host.Outcome State Fault Refusal :=
  .next (engineStart s core oROUTE fun s k q => routeStart s core k q)

/-! ### SAMPLE -/

/-- Whether `x` exceeds `y` numerically; false with a NaN. -/
def gtNum (x y : Num) : Bool :=
  match x, y with
  | .nan _, _ => false
  | _, .nan _ => false
  | _, _ => ltVal y x

/-- The running sums of a row in ascending token order (R553): token and sum code. -/
def sampleSums (z : List Nat) (zm temp : Num) (keep : List Nat) : List (Nat × Nat) × Flags :=
  keep.foldl (fun a t =>
    let d := round32 (addNum (dec32 (nth 0 z t)) (negNum zm))
    let v := round32 (divNum (dec32 d.1) temp)
    let e := round32 (expNum (dec32 v.1))
    let last := match a.1.getLast? with | some p => p.2 | none => 0
    let r := redStep 0 (last, 0) (e.1, 0)
    (a.1 ++ [(t, r.1)], a.2 ||| d.2 ||| v.2 ||| e.2 ||| r.2)) ([], 0)

/-- The token a row draws (R553), and the flags of forming it. -/
def sampleRow (z : List Nat) (seed pos temp topk : Nat) : Nat × Flags :=
  let v := z.length
  let tz : Bool := match dec32 temp with | .fin 0 _ _ => true | _ => false
  let n := if tz ∨ topk = 1 then 1 else if topk = 0 then v else topk
  let order := if n = v then List.range v else chooseTop n z []
  let top := bestScore z []
  if tz ∨ topk = 1 then (top, 0)
  else
    let keep := (List.range v).filter order.contains
    let sums := sampleSums z (dec32 (nth 0 z top)) (dec32 temp) keep
    let total := match sums.1.getLast? with | some p => dec32 p.2 | none => numZero false
    let e := (seed ^^^ (seed / 2 ^ 32)) % 2 ^ 32
    let x := random16 e (2 * pos) * 65536 + random16 e (2 * pos + 1)
    let hit := sums.1.find? fun p => gtNum (mulNum (dec32 p.2) (.fin 1 32 false)).1 (mulNum (.fin x 0 false) total).1
    (match hit with
      | some p => p.1
      | none => (keep.getLast?).getD 0, sums.2)

/-- SAMPLE (R552, R553). -/
def sampleStart (s : State) (c slot : Nat) (q : QEntry) : State :=
  let w := q.cmd
  let v := bits w.w3 51 32
  let rows := bits w.w2 34 22
  let stride := roundUp (4 * v) 64
  let src := bits w.w1 21 0
  let out := bits w.w1 43 22
  let par := bits w.w2 21 0
  if rows = 0 then vectorDone s c slot q (s.core c) 0 16
  else vectorCheck s c slot q [(src, (rows - 1) * stride + 4 * v), (out, 16 * rows), (par, 16 * rows)] fun s =>
    let k := s.core c
    let x := k.slot slot
    if (List.range rows).any fun r => winNat k x (par + 16 * r + 12) 4 != 0 then cmdFault s c slot q.cmd q.seq fcBAD_OPERAND par false
    else
      let rs := (List.range rows).map fun r =>
        let z := (List.range v).map fun i => winNat k x (src + r * stride + 4 * i) 4
        let t := sampleRow z (winNat k x (par + 16 * r) 8) (winNat k x (par + 16 * r + 8) 4) (bits w.w3 31 0) (bits w.w2 50 35)
        (leBytes 4 t.1 ++ leBytes 1 (b2n (z.any nan32)) ++ zeros 3 ++ leBytes 4 (nth 0 z t.1) ++ zeros 4, t.2)
      vectorDone s c slot q (winWrite k x out (rs.flatMap (·.1))) (orFlags (rs.map (·.2))) (16 + rows * 3 * ceilDiv v 64)

/-- SAMPLE: the vector engine starts the picked command. -/
def execSample (core : Nat) (s : State) : Host.Outcome State Fault Refusal :=
  .next (engineStart s core oSAMPLE fun s k q => sampleStart s core k q)

end Sys2Proof.Machine
end

