-- ==== Sys2Proof/Machine/AttnOps.lean ====
section
/-!
DEFINITION. The fused attention command (R259, R260, R264 to R266, R268, R271 to R278), written once for ATTN and BATTN: its block, its descriptor
list, the appends and the softmax of R273.
-/

namespace Sys2Proof.Machine

/-! ### The attention block (R268) -/

def abQ (b : List Byte) : Nat := ble b 0x00 5
def abNewK (b : List Byte) : Nat := ble b 0x05 5
def abNewV (b : List Byte) : Nat := ble b 0x0A 5
def abOut (b : List Byte) : Nat := ble b 0x0F 5
def abPlist (b : List Byte) : Nat := ble b 0x14 5
def abRes (b : List Byte) : Nat := ble b 0x19 5
def abD (b : List Byte) : Nat := ble b 0x1E 2
def abQfmt (b : List Byte) : Nat := ble b 0x20 1
def abNfmt (b : List Byte) : Nat := ble b 0x21 1
def abOfmt (b : List Byte) : Nat := ble b 0x22 1
def abGq (b : List Byte) : Nat := ble b 0x23 1
def abNq (b : List Byte) : Nat := ble b 0x24 2
def abNa (b : List Byte) : Nat := ble b 0x26 2
def abClen (b : List Byte) : Nat := ble b 0x28 4
def abPlen (b : List Byte) : Nat := ble b 0x2C 4
def abNpages (b : List Byte) : Nat := ble b 0x30 2
def abAfmt (b : List Byte) : Nat := ble b 0x32 1
def abSr (b : List Byte) : Bool := nbits (ble b 0x33 1) 0 0 = 1
def abScale (b : List Byte) : Nat := ble b 0x34 4
def abSeed (b : List Byte) : Nat := ble b 0x38 4
def abQs (b : List Byte) : Nat := ble b 0x3C 3
def abNs (b : List Byte) : Nat := ble b 0x3F 3
def abOs (b : List Byte) : Nat := ble b 0x42 3
/-- Query rows. -/
def abRows (b : List Byte) : Nat := abGq b * abNq b
/-- Positions the command covers. -/
def abCover (b : List Byte) : Nat := abClen b + abPlen b + abNa b

/-- The KV codes of R109. -/
def kvCode (f : Nat) : Bool := f == 1 || f == 2 || f == 4 || f == 6

/-- Whether a block's fields leave their ranges (R268); `limit` bounds its addresses, window offsets for ATTN. -/
def abBad (b : List Byte) (limit : Nat) : Bool :=
  let nq := abNq b
  let na := abNa b
  ([abQ b, abNewK b, abNewV b, abOut b, abPlist b, abRes b].any fun a => decide (limit ≤ a)) ||
  decide (abD b % 32 ≠ 0 ∨ abD b < 32 ∨ 256 < abD b) || !(abQfmt b == 1 || abQfmt b == 2) || decide (1 < abNfmt b ∨ 2 < abOfmt b) ||
  decide (abGq b < 1 ∨ 16 < abGq b) || (decide (0 < nq) && na != nq && na != 0) || (nq == 0 && decide (1024 < na)) ||
  decide (4096 < abNpages b) || !kvCode (abAfmt b) || decide (1 < ble b 0x33 1) ||
  abQs b % 64 != 0 || abNs b % 64 != 0 || abOs b % 64 != 0 || !allZero b 0x45 59 ||
  (decide (0 < nq) && (!al64 (abQ b) || !al64 (abOut b))) || (decide (0 < na) && (!al64 (abNewK b) || !al64 (abNewV b))) ||
  (decide (0 < abNpages b) && !al64 (abPlist b)) || !al64 (abRes b)

/-- The operand ranges of a block that are read or written outside its pages: offset and bytes. -/
def abRanges (b : List Byte) : List (Nat × Nat) :=
  let nb := outBytes (abNfmt b)
  ((List.range (abRows b)).flatMap fun r => [(abQ b + r * abQs b, abD b * outBytes (abQfmt b)), (abOut b + r * abOs b, abD b * outBytes (abOfmt b))]) ++
  ((List.range (abNa b)).flatMap fun i => [(abNewK b + i * abNs b, abD b * nb), (abNewV b + i * abNs b, abD b * nb)]) ++
  [(abPlist b, 16 * abNpages b), (abRes b, 64)]

/-! ### Pages and descriptors (R260, R264 to R266) -/

/-- Bytes of one row of a page and of one part. -/
def kvRow (f d : Nat) : Nat := fmtBits f * d / 8
def kvScales (f d : Nat) : Nat := if fmtBlock f then 2 * d else 0
def kvPageBytes (f d : Nat) : Nat := 2 * (64 * kvRow f d + kvScales f d)

/-- Offsets in a page of the elements and scales of keys or values. -/
def kvElems (f d : Nat) (val : Bool) : Nat := if val then 64 * kvRow f d + kvScales f d else 0
def kvScaleOff (f d : Nat) (val : Bool) : Nat := kvElems f d val + 64 * kvRow f d

def dAddr (x : List Byte) : Nat := ble x 0 5
def dFmt (x : List Byte) : Nat := nbits (ble x 5 1) 3 0
def dFill (x : List Byte) : Nat := ble x 6 1
def dShared (x : List Byte) : Bool := nbits (ble x 7 1) 0 0 = 1
def dPos0 (x : List Byte) : Nat := ble x 8 4

/-- Whether a descriptor list breaks R265: positions contiguous from 0, covering `n`. -/
def listBroken (pos n : Nat) (l : List (List Byte)) : Bool :=
  match l with
  | [] => pos != n
  | x :: r => dPos0 x != pos || listBroken (pos + dFill x) n r

/-- Whether a descriptor list faults with KV_PAGE (R266): `frame` is the partition's frame in bytes, `limit` bounds ADDR. -/
def listBad (b : List Byte) (l : List (List Byte)) (frame limit : Nat) : Bool :=
  let first := abClen b + abPlen b
  l.any (fun x =>
    !kvCode (dFmt x) || nbits (ble x 5 1) 7 4 != 0 || nbits (ble x 7 1) 7 2 != 0 || !allZero x 0x0C 4 || dFill x == 0 || decide (64 < dFill x) ||
    !al64 (dAddr x) || decide (limit ≤ dAddr x) || decide (frame < kvPageBytes (dFmt x) (abD b)) ||
    (dShared x && decide (0 < abNa b) && decide (first < dPos0 x + dFill x))) ||
  listBroken 0 (abCover b) l

/-- The byte ranges of a page that hold rows `j0..j0+n-1`. -/
def kvRowRanges (f d j0 n : Nat) : List (Nat × Nat) :=
  [false, true].flatMap fun v =>
    [(kvElems f d v + j0 * kvRow f d, n * kvRow f d)] ++ (if fmtBlock f then [(kvScaleOff f d v + j0 * (d / 32), n * (d / 32))] else [])

/-- Element `e` of the key or value in slot `j` of a page (R259, R260, R277); `rd` reads the page. -/
def kvNum (rd : Nat → Nat) (f d : Nat) (val : Bool) (j e : Nat) : Num :=
  let base := kvElems f d val + j * kvRow f d
  if fmtBlock f then
    let w := fmtBits f
    weightNum w (codeAt rd (base + e / 32 * 4 * w) w (e % 32)) (rd (kvScaleOff f d val + j * (d / 32) + e / 32))
  else if f = 1 then decBf16 (rd (base + 2 * e) + 256 * rd (base + 2 * e + 1))
  else decE4m3 (rd (base + e))

/-- One new row converted to a KV format (R271): its element bytes, its scale bytes and flags. -/
def kvRowBytes (f : Nat) (u : Nat → Option Nat) (l : List Nat) : List Byte × List Byte × Flags :=
  if fmtBlock f then
    let bs := cvtBlocks (fmtBits f) u l
    (bs.flatMap fun b => packCodes (fmtBits f) b.2.1, bs.map fun b => BitVec.ofNat 8 b.1, 0)
  else
    let es := (List.range l.length).map fun e => encode f (u e) (dec32 (nth 0 l e))
    (es.flatMap fun e => leBytes (outBytes f) e.1, [], orFlags (es.map (·.2)))

/-- The descriptor that names a position, by index, and its slot there. -/
def slotOfPos (l : List (List Byte)) (pos : Nat) : Option (Nat × Nat) :=
  (List.range l.length).findSome? fun i =>
    let x := nth [] l i
    if dPos0 x ≤ pos ∧ pos < dPos0 x + dFill x then some (i, pos - dPos0 x) else none

/-- The appends of a command (R271): page index, offset in the page, bytes; and flags. `row` reads FP32 codes of new row i, keys or values. -/
def kvAppends (b : List Byte) (l : List (List Byte)) (row : Bool → Nat → List Nat) : List (Nat × Nat × List Byte) × Flags :=
  let d := abD b
  let f := abAfmt b
  let parts := (List.range (abNa b)).flatMap fun i =>
    let pos := abClen b + abPlen b + i
    match slotOfPos l pos with
    | none => []
    | some (pg, j) => [false, true].map fun v =>
      let r := kvRowBytes f (fun e => if abSr b then some (random16 (abSeed b) (((2 * pos + b2n v) * d + e) % 2 ^ 32)) else none) (row v i)
      ([(pg, kvElems f d v + j * kvRow f d, r.1)] ++ (if fmtBlock f then [(pg, kvScaleOff f d v + j * (d / 32), r.2.1)] else []), r.2.2)
  (parts.flatMap (·.1), orFlags (parts.map (·.2)))

/-! ### The softmax (R272, R273) -/

/-- A row in progress: m, l and o as FP32 codes, whether a NaN was met, flags. -/
abbrev AttnRow := Nat × Nat × List Nat × Bool × Flags

/-- The exponential of an exact difference of two FP32 codes, in FP32. -/
def expDiff (a b : Nat) : Nat × Flags :=
  let d := addNum (dec32 a) (negNum (dec32 b))
  let e := expNum d.1
  let r := to32 e.1
  (r.1, d.2 ||| e.2 ||| r.2)

/-- An exact sum of products and terms, rounded to FP32 as an array rounds (R114). -/
def roundSum (l : List (Num × Flags)) : Nat × Flags :=
  let s := sumNum (l.map (·.1))
  let r := to32 s.1
  (r.1, arrayFlags (orFlags (l.map (·.2)) ||| s.2 ||| r.2) ||| (if isNan s.1 then fInvalid else 0))

/-- One page's pass over a row (R273): the visible slots `0..n-1` of the page. -/
def attendPage (d scale : Nat) (q : Nat → Num) (key val : Nat → Nat → Num) (n : Nat) (r : AttnRow) : AttnRow :=
  if n = 0 then r
  else
    let s := (List.range n).map fun p =>
      let t := roundSum ((List.range d).map fun e => mulNum (q e) (key p e))
      let u := round32 (mulNum (dec32 t.1) (dec32 scale))
      (u.1, t.2 ||| u.2)
    let mn := (to32 (s.foldl (fun m x => (maxNum m (dec32 x.1)).1) (dec32 r.1))).1
    let c := if r.1 = 0xFF800000 then (0, 0) else expDiff r.1 mn
    let w := s.map fun x => expDiff x.1 mn
    let l := roundSum (mulNum (dec32 r.2.1) (dec32 c.1) :: w.map fun x => (dec32 x.1, 0))
    let o := (List.range d).map fun e =>
      roundSum (mulNum (dec32 (nth 0 r.2.2.1 e)) (dec32 c.1) :: (List.range n).map fun p => mulNum (dec32 (nth (0, 0) w p).1) (val p e))
    let nan := s.any (fun x => nan32 x.1) || (List.range n).any fun p => (List.range d).any fun e => isNan (val p e)
    (mn, l.1, o.map (·.1), r.2.2.2.1 || nan,
      r.2.2.2.2 ||| orFlags (s.map (·.2)) ||| c.2 ||| orFlags (w.map (·.2)) ||| l.2 ||| orFlags (o.map (·.2)))

/-- A query row's result (R272 to R274): FP32 codes, whether it saw nothing, whether a NaN was met, flags. `pages` gives each page's first
position, fill, keys and values. -/
def attendRow (d scale vis : Nat) (q : Nat → Num) (pages : List (Nat × Nat × (Nat → Nat → Num) × (Nat → Nat → Num))) :
    List Nat × Bool × Bool × Flags :=
  let r := pages.foldl (fun r p => attendPage d scale q p.2.2.1 p.2.2.2 (min p.2.1 (vis - p.1)) r) (0xFF800000, 0, List.replicate d 0, false, 0)
  if vis = 0 ∨ mag32 r.2.1 = 0 then (List.replicate d 0, true, r.2.2.2.1, r.2.2.2.2)
  else
    let o := r.2.2.1.map fun c => round32 (divNum (dec32 c) (dec32 r.2.1))
    (o.map (·.1), false, r.2.2.2.1, r.2.2.2.2 ||| orFlags (o.map (·.2)))

/-- Positions query row `r` sees (R272). -/
def visible (b : List Byte) (r : Nat) : Nat := abClen b + abPlen b + min (r % abNq b + 1) (abNa b)

/-- Every row's result: output bytes, empty, NaN, flags. `q` reads element e of query row r; `rd` reads the pages in list order. -/
def attendAll (b : List Byte) (l : List (List Byte)) (q : Nat → Nat → Num) (rd : List (Nat → Nat)) : List (List Byte × Bool × Bool × Flags) :=
  let d := abD b
  let pages := (List.range l.length).map fun i =>
    let x := nth [] l i
    let r := nth (fun _ => 0) rd i
    (dPos0 x, dFill x, kvNum r (dFmt x) d false, kvNum r (dFmt x) d true)
  (List.range (abRows b)).map fun r =>
    let v := attendRow d (abScale b) (visible b r) (q r) pages
    let es := v.1.map fun c => encode (abOfmt b) none (dec32 c)
    (es.flatMap fun e => leBytes (outBytes (abOfmt b)) e.1, v.2.1, v.2.2.1, v.2.2.2 ||| orFlags (es.map (·.2)))

/-- The width order of R277. -/
def kvRank (f : Nat) : Nat :=
  match f with
  | 4 => 0
  | 6 => 1
  | 2 => 2
  | _ => 3

/-- The result record (R275, R276). -/
def attnRecord (b : List Byte) (l : List (List Byte)) (rows : List (List Byte × Bool × Bool × Flags)) : List Byte :=
  if abNq b = 0 ∧ abNa b = 0 then zeros 64
  else
    let rank := kvRank (abQfmt b)
    let reads := decide (0 < abNq b)
    let empty := (rows.filter fun r => r.2.1).length
    leBytes 1 (b2n (decide (0 < empty)) + 2 * b2n (rows.any fun r => r.2.2.1) +
      4 * b2n (reads && l.any fun x => decide (kvRank (dFmt x) < rank)) + 8 * b2n (reads && l.any fun x => decide (rank < kvRank (dFmt x)))) ++
    zeros 1 ++ leBytes 2 empty ++ leBytes 4 (if reads then abCover b else 0) ++ leBytes 2 l.length ++ leBytes 2 (abNa b) ++ zeros 52

/-- FP32 codes of a new row read through `rd` (R271). -/
def newRow (b : List Byte) (rd : Nat → Nat) (val : Bool) (i : Nat) : List Nat :=
  let a := (if val then abNewV b else abNewK b) + i * abNs b
  (List.range (abD b)).map fun e =>
    if abNfmt b = 0 then rd (a + 4 * e) + 256 * rd (a + 4 * e + 1) + 65536 * rd (a + 4 * e + 2) + 16777216 * rd (a + 4 * e + 3)
    else 65536 * rd (a + 2 * e) + 16777216 * rd (a + 2 * e + 1)

/-- Element `e` of a query row read through `rd`. -/
def queryNum (b : List Byte) (rd : Nat → Nat) (r e : Nat) : Num :=
  let a := abQ b + r * abQs b
  if abQfmt b = 1 then decBf16 (rd (a + 2 * e) + 256 * rd (a + 2 * e + 1)) else decE4m3 (rd (a + e))

/-! ### Pages in near memory -/

/-- A page's bytes in a partition's near space. -/
def pageRd (s : State) (p na : Nat) : Nat → Nat :=
  let m := (s.bdie (naStack na)).mem
  let off := physOff s p na
  fun i => (mget 0 m (off + i)).toNat

/-- The ranges of near space a command's pages are read over: every page's rows below FILL. -/
def pageRanges (d : Nat) (l : List (List Byte)) (addrs : List Nat) : List (Nat × Nat) :=
  (List.range l.length).flatMap fun i =>
    let x := nth [] l i
    (kvRowRanges (dFmt x) d 0 (dFill x)).map fun r => (nth 0 addrs i + r.1, r.2)

/-- The lines of some ranges of near space that the twin holds, modified or (for ranges written) at all. -/
def heldLines (s : State) (p : Nat) (rs : List (Nat × Nat)) (anyHold : Bool) : List (Nat × Nat) :=
  rs.flatMap fun r => ((linesOf (physOff s p r.1) r.2).filter fun l =>
    let e := dirOf s (naStack r.1) l
    (e.held && (anyHold || e.modified)) || (anyHold && (lineWaits s (naStack r.1) l).isSome)).map fun l => (naStack r.1, l)

/-- INV or RECALL for lines of the twin, before a command that needs them starts (R203, R470); nothing where one is outstanding. -/
def probeLines (s : State) (l : List (Nat × Nat)) : State :=
  l.foldl (fun s e => if (lineWaits s e.1 e.2).isSome then s else openWait s e.1 e.2 .read) s

/-- Ranges of near space read through the check code: the state, and whether any line is poisoned. -/
def checkRanges (s : State) (p : Nat) (rs : List (Nat × Nat)) (errs : List EccErr) : State × Bool :=
  let s1 := rs.foldl (fun s r => (nearRead s p r.1 r.2 errs).1) s
  (s1, rs.any fun r => (linesOf (physOff s1 p r.1) r.2).any fun l => tget false (s1.bdie (naStack r.1)).poison l)

/-- A command's appends written to its pages. -/
def writeAppends (s : State) (p : Nat) (addrs : List Nat) (ws : List (Nat × Nat × List Byte)) (errs : List EccErr) : State :=
  ws.foldl (fun s w => (nearWrite s p (nth 0 addrs w.1 + w.2.1) w.2.2 false errs).1) s

end Sys2Proof.Machine
end

