-- ==== Sys2Proof/Machine/KvOps.lean ====
section
/-!
DEFINITION. The KV pool, its frames, the KV maps and the mirror's traffic (R261 to R267, R281 to R284, R292).
-/

namespace Sys2Proof.Machine

/-! ### Frames (R261) -/

/-- The first 2 MiB unit of a partition's KV pool on a stack, within its range: below the bench area at the range's top (log 27). -/
def poolUnit (r : StackRange) : Nat := r.near - r.kv - r.bench

/-- A frame's key among a partition's frames. -/
def frameKey (st f : Nat) : Nat := st * 2 ^ 20 + f
def Page.key (g : Page) : Nat := frameKey g.stack g.frame

/-- The near address of a frame. -/
def frameNear (p : Part) (k : Nat) : Nat :=
  let st := k / 2 ^ 20
  match p.ranges[st]? with
  | some r => st * 2 ^ 36 + poolUnit r * unit2M + k % 2 ^ 20 * (p.kvFrame * 1024)
  | none => 0

/-- The near address of a page. -/
def pageNear (p : Part) (g : Page) : Nat := frameNear p g.key

/-- Stacks on which a partition has a pool. -/
def poolStacks (p : Part) : List Nat := (List.range 12).filter fun st => decide (0 < poolFrames p st)

/-- The stack a page of a list is taken from: the home stack, or the one with the most free frames where the home pool is empty (R263). -/
def pickPool (p : Part) (home : Nat) : Option Nat :=
  if 0 < freeFrames p home then some home
  else match (List.range 12).filter (fun st => decide (0 < freeFrames p st)) with
    | [] => none
    | a :: r => some (r.foldl (fun b st => if freeFrames p b < freeFrames p st then st else b) a)

/-- A frame taken: the lowest free one of the stack (log 27). -/
def takeFrame (p : Part) (home : Nat) : Option (Part × Nat) :=
  match pickPool p home with
  | none => none
  | some st => match leastBelow (poolFrames p st) (fun f => tget 0 p.frames (frameKey st f) == 0) with
    | none => none
    | some f => some ({ p with frames := tput p.frames (frameKey st f) 1 }, frameKey st f)

/-- One reference to a frame ends; with its last the frame returns to the pool (R284). -/
def dropFrame (p : Part) (k : Nat) : Part :=
  let n := tget 0 p.frames k
  { p with frames := if n ≤ 1 then tdel p.frames k else tput p.frames k (n - 1) }

/-- Several frames. -/
def dropFrames (p : Part) (l : List Nat) : Part := l.foldl dropFrame p

/-- `n` frames for firmware records, from the stack with the most free frames; none where the pools are short. -/
def takeFrames (n : Nat) (p : Part) (acc : List Nat) : Option (Part × List Nat) :=
  match n with
  | 0 => some (p, acc)
  | n + 1 =>
    let home := (List.range 12).foldl (fun b st => if freeFrames p b < freeFrames p st then st else b) 0
    match takeFrame p home with
    | none => none
    | some r => takeFrames n r.1 (acc ++ [r.2])

/-! ### Lists (R263 to R265, R281) -/

/-- Positions a list's pages hold. -/
def listFill (l : KvList) : Nat := l.pages.foldl (fun a g => a + g.fill) 0

/-- A list has pages off its home stack. -/
def KvList.mark (l : KvList) : KvList := { l with nonlocalPages := l.pages.any fun g => g.stack != l.home }

/-- Slots for `n` more positions of a list, in format `fmt`: the last page is filled where it has room, has the format and is not shared; then
new pages (R263, R265). -/
def growList (fuel : Nat) (p : Part) (l : KvList) (fmt n : Nat) : Option (Part × KvList) :=
  if n = 0 then some (p, l.mark)
  else match fuel with
    | 0 => none
    | fuel + 1 =>
      let last := l.pages.getLast?
      let room := match last with
        | some g => if g.fmt = fmt ∧ g.fill < 64 ∧ !g.shared then 64 - g.fill else 0
        | none => 0
      match last with
      | some g =>
        if 0 < room then
          growList fuel p { l with pages := l.pages.dropLast ++ [{ g with fill := g.fill + min n room }] } fmt (n - min n room)
        else match takeFrame p l.home with
          | none => none
          | some r => growList fuel r.1
            { l with pages := l.pages ++ [⟨r.2 / 2 ^ 20, r.2 % 2 ^ 20, fmt, min n 64, g.pos0 + g.fill, false, l.mirror⟩] } fmt (n - min n 64)
      | none => match takeFrame p l.home with
        | none => none
        | some r => growList fuel r.1 { l with pages := [⟨r.2 / 2 ^ 20, r.2 % 2 ^ 20, fmt, min n 64, 0, false, l.mirror⟩] } fmt (n - min n 64)

/-- The pages of a list cut to its first `c` positions; frames that hold none return to the pool (R281). -/
def trimList (p : Part) (l : KvList) (c : Nat) : Part × KvList :=
  let keep := l.pages.filter fun g => decide (g.pos0 < c)
  let gone := l.pages.filter fun g => !decide (g.pos0 < c)
  (dropFrames p (gone.map Page.key), KvList.mark { l with pages := keep.map fun (g : Page) => { g with fill := min g.fill (c - g.pos0) } })

/-- Every list grown, or none. -/
def growLists (p : Part) (l : List KvList) (fmt n : Nat) (acc : List KvList) : Option (Part × List KvList) :=
  match l with
  | [] => some (p, acc)
  | x :: r => match growList (n / 64 + 3) p x fmt n with
    | none => none
    | some y => growLists y.1 r fmt n (acc ++ [y.2])

/-- Every list cut. -/
def trimLists (p : Part) (l : List KvList) (c : Nat) : Part × List KvList :=
  l.foldl (fun a x => let y := trimList a.1 x c; (y.1, a.2 ++ [y.2])) (p, [])

/-- The frames of some lists. -/
def listFrames (l : List KvList) : List Nat := l.flatMap fun x => x.pages.map Page.key

/-! ### Maps (R267) -/

/-- A session named across packages: by the role of its home and its index there (log 28). -/
def sessKey (home idx : Nat) : Nat := home * 32768 + idx
def keyHome (k : Nat) : Nat := k / 32768
def keyIdx (k : Nat) : Nat := k % 32768

/-- The mirror map of a session on this package (R282). -/
def State.mirror (s : State) (k : Nat) : KvMap := tget KvMap.reset s.srv.mirrors k

/-- The mirror map of a session replaced. -/
def State.setMirror (s : State) (k : Nat) (x : KvMap) : State := { s with srv := { s.srv with mirrors := tput s.srv.mirrors k x } }

/-- Bytes of a map and its descriptor arrays. -/
def mapBytes (m : KvMap) : Nat := if m.present then 64 + 16 * m.lists.length + 16 * (m.lists.foldl (fun a l => a + l.pages.length) 0) else 0

/-- Bytes of the token IDs this package retains for a session as its home (R286). -/
def tokenBytes (s : State) (k : Nat) : Nat :=
  let x := s.sess (keyIdx k)
  if x.isOpen && x.home == keyHome k then 4 * x.tokens.length else 0

/-- The frames a session's map and retained tokens occupy are brought to what they need (R267, R286), as far as the pools hold them. -/
def fitRecords (s : State) (k : Nat) : State :=
  let m := s.map k
  let p := s.part m.part
  let fb := p.kvFrame * 1024
  let need := if fb = 0 then 0 else ceilDiv (mapBytes m) fb + ceilDiv (tokenBytes s k) fb
  if need < m.recFrames.length then
    (s.setPart m.part (dropFrames p (m.recFrames.drop need))).setMap k { m with recFrames := m.recFrames.take need }
  else match takeFrames (need - m.recFrames.length) p [] with
    | some r => (s.setPart m.part r.1).setMap k { m with recFrames := m.recFrames ++ r.2 }
    | none => s

/-- A session's pages and map freed on this package, its park record kept. -/
def freePages (s : State) (k : Nat) : State :=
  let m := s.map k
  let s1 := s.setPart m.part (dropFrames (s.part m.part) (listFrames m.lists))
  fitRecords (s1.setMap k { m with present := false, lists := [], d := 0, clen := 0, plen := 0, lapOn := false, unacked := 0, outcome := none }) k

/-- A session's mirror freed on this package. -/
def freeMirror (s : State) (k : Nat) : State :=
  let m := s.mirror k
  let s1 := s.setPart m.part (dropFrames (s.part m.part) (listFrames m.lists))
  { s1 with srv := { s1.srv with mirrors := tdel s1.srv.mirrors k } }

/-- Home stacks spread evenly: list i of a map takes the i-th of the partition's stacks in turn (R263, log 27). -/
def spreadLists (p : Part) (l : List (Nat × Nat)) (mirror : Bool) : List KvList :=
  let st := poolStacks p
  (List.range l.length).map fun i =>
    let e := nth (0, 0) l i
    ⟨e.1, e.2, nth 0 st (if st.isEmpty then 0 else i % st.length), mirror, false, []⟩

/-- A new map for a session on this package. -/
def newMap (s : State) (part home d wfmt : Nat) (lists : List (Nat × Nat)) : KvMap :=
  { KvMap.reset with present := true, part := part, d := d, wfmt := wfmt, lists := spreadLists (s.part part) lists false, home := home }

/-! ### The mirror (R282, R283, R498) -/

/-- Whether appends go to the twin: PAIRED, or REJOINING on the package that serves (R282, R501). -/
def mirrors (s : State) : Bool := s.twin.state == .paired || (s.twin.state == .rejoining && s.twin.copying)

/-- Whether a session is in a lock-step heat, whose twin writes its own appends (R503). -/
def sessLockstep (s : State) (k : Nat) : Bool :=
  s.srv.heats.any fun h => h.2.live && h.2.lockstep && h.2.desc.rows.any fun r => sessKey r.home r.session == k

/-- The list and page of a partition that lie at a near address: session, list and page. -/
def pageAt (s : State) (p na : Nat) : Option (Nat × KvList × Page) :=
  s.srv.maps.findSome? fun e =>
    if e.2.part = p then e.2.lists.findSome? fun l => (l.pages.find? fun g => pageNear (s.part p) g == na).map fun g => (e.1, l, g)
    else none

/-- A dynamic count charged to one request's account (R514); after its final share to a LATE one of the same chain (R521); to the package overhead
where this package never charged the request. -/
def chargeReq (s : State) (home handle cls n : Nat) : State :=
  let add (a : Acct) : Acct := { a with acts := tput a.acts cls (tget 0 a.acts cls + n) }
  let mine (a : Acct) : Bool := a.home == home && a.handle == handle
  let put (l : List Acct) : State := { s with energy := { s.energy with accts := l } }
  if n = 0 then s
  else if s.energy.accts.any fun a => mine a && !a.closed then
    put (s.energy.accts.map fun a => if mine a && !a.closed then add a else a)
  else match (s.energy.accts.filter mine).getLast? with
    | some a => put (s.energy.accts ++ [add { a with
        acts := [], lapUj := 0, ePrefill := 0, eDecode := 0, eSpec := 0, eResid := 0, spanAt := s.aon, lapFirst := none, lapLast := none, positions := 0,
        lapOpen := false, finalAt := some s.aon, closed := false, late := true }])
    | none => s.count ovCtx cls n

/-- A count of an attention command: to the one request whose list it serves (R514), found by its first page; to the context where no list of this
package has that page. -/
def countKv (s : State) (p na ctx cls n : Nat) : State :=
  match pageAt s p na with
  | some (k, _, _) => chargeReq s (keyHome k) (s.map k).lastReq cls n
  | none => s.count ctx cls n

/-- The bytes of one position of a page, keys before values, elements before scales (log 29). -/
def posBytes (s : State) (p na fmt d j : Nat) : List Byte :=
  (kvRowRanges fmt d j 1).flatMap fun r => stackRead s (naStack na) (physOff s p (na + r.1)) r.2

/-- One appended position goes to the twin, and waits for its acknowledgement. -/
def sendMirror (s : State) (p na fmt d j pos : Nat) : State :=
  match pageAt s p na with
  | none => s
  | some (k, l, _) =>
    if sessLockstep s k then s
    else
      let m := s.map k
      let s1 := s.setMap k { m with unacked := m.unacked + 1 }
      match s.twinNode with
      | none => s
      | some t => s1.send (.node t) (.kvMirror k l.layer l.head pos fmt (posBytes s p na fmt d j))

/-- An attention command's appended positions go to the twin (R282). -/
def mirrorAppends (s : State) (p : Nat) (b : List Byte) (l : List (List Byte)) (addrs : List Nat) : State :=
  if !mirrors s then s
  else (List.range (abNa b)).foldl (fun s i =>
    let pos := abClen b + abPlen b + i
    match slotOfPos l pos with
    | none => s
    | some (g, j) => sendMirror s p (nth 0 addrs g) (dFmt (nth [] l g)) (abD b) j pos) s

end Sys2Proof.Machine
end

