-- ==== Sys2Proof/Machine/Attn.lean ====
section
/-!
DEFINITION. ATTN on a Field core (R266 to R279, R282, R297).
-/

namespace Sys2Proof.Machine

/-- The command an engine would start now, if its opcode is the row's: slot and queue entry. -/
def headOf (s : State) (c opc : Nat) : Option (Nat × QEntry) :=
  if !s.coreRuns c then none
  else match pickSlot (s.core c) (engineOf opc) with
    | none => none
    | some k => match ((s.core c).slot k).queue (engineOf opc) with
      | [] => none
      | q :: _ => if q.cmd.opc = opc then some (k, q) else none

/-- An ATTN's block as its window holds it. -/
def attnBlock (k : Core) (x : SlotSt) (c : Cmd) : List Byte := winRead k x (bits c.w1 21 0) 128

/-- Its descriptors. -/
def attnList (k : Core) (x : SlotSt) (b : List Byte) : List (List Byte) :=
  (List.range (abNpages b)).map fun i => winRead k x (abPlist b + 16 * i) 16

/-- The near address of each page of the list: the staging walk gives it (log 22); a page the walk does not give has no near address. -/
def attnPages (l : List (List Byte)) (walk : List Nat) : List Nat := (List.range l.length).map fun i => nth (2 ^ 40 - 1) walk i

/-- Bytes of the staging area: twice the largest page (R269). -/
def stageBytes (b : List Byte) (l : List (List Byte)) : Nat := 2 * l.foldl (fun a x => max a (kvPageBytes (dFmt x) (abD b))) 0

/-- The faults of an ATTN whose block is well formed (R43, R44, R179, R246, R266): cause and address. -/
def attnFaults (s : State) (core : Nat) (x : SlotSt) (c : Cmd) (b : List Byte) (l : List (List Byte)) (addrs : List Nat) : List (Nat × Nat) :=
  let p := corePart s core
  let out := (abRanges b).filter fun r => !x.inWin r.1 r.2
  if !out.isEmpty then out.map fun r => (fcSPAD_RANGE, r.1)
  else if listBad b l ((s.part p).kvFrame * 1024) (2 ^ 22) then [(fcKV_PAGE, abPlist b)]
  else
    let first := abClen b + abPlen b
    let near := (List.range l.length).filterMap fun i =>
      let d := nth [] l i
      let a := nth 0 addrs i
      let app := decide (0 < abNa b) && decide (first < dPos0 d + dFill d)
      if nearOk s p a (kvPageBytes (dFmt d) (abD b)) && !(app && wpHit s p a (kvPageBytes (dFmt d) (abD b))) then none else some (fcNEAR_RANGE, a)
    near ++
    (if x.inWin (bits c.w1 43 22) (stageBytes b l) then [] else [(fcSPAD_RANGE, bits c.w1 43 22)]) ++
    (if 0 < abNq b ∧ x.acs < bits c.w1 53 44 + ceilDiv (abD b) 64 * 256 then [(fcACC_RANGE, bits c.w1 53 44)] else [])

/-- An ATTN with its operands checked (R271 to R276): poison faults before any write; otherwise the appends, the output rows and the result
record are written. Its staging area and accumulator rows hold free values afterwards. -/
def attnRun (s : State) (c slot : Nat) (q : QEntry) (b : List Byte) (l : List (List Byte)) (addrs : List Nat) (errs : List EccErr) : State :=
  let x := s.slot c slot
  let p := corePart s c
  let rs := if abNq b = 0 then [] else pageRanges (abD b) l addrs
  let chk := checkRanges s p rs errs
  if chk.2 then cmdFault chk.1 c slot q.cmd q.seq fcNEAR_POISON (nth 0 addrs 0) false
  else
    let s1 := chk.1
    let k := s1.core c
    let ap := kvAppends b l (newRow b (spByte k x))
    let s2 := mirrorAppends (writeAppends s1 p addrs ap.1 errs) p b l addrs
    let rows := attendAll b l (queryNum b (spByte k x)) (addrs.map (pageRd s2 p))
    let k2 := (List.range rows.length).foldl (fun k r => winWrite k x (abOut b + r * abOs b) (nth ([], false, false, 0) rows r).1) k
    let stage := stageBytes b l
    let k3 := winWrite k2 x (bits q.cmd.w1 43 22) (freeBytes s2 stage)
    let k4 := winWrite k3 x (abRes b) (attnRecord b l rows)
    let s3 := ((s2.drew stage).setCore c k4).stick c slot (ap.2 ||| orFlags (rows.map fun r => r.2.2.2))
    let s4 := if abNq b = 0 then s3 else freeRows s3 c slot (bits q.cmd.w1 53 44) (ceilDiv (abD b) 64 * 256)
    let moved := rs.foldl (fun a r => a + r.2) 0 + ap.1.foldl (fun a w => a + w.2.2.length) 0
    let st := naStack (nth 0 addrs 0)
    let s5 := s4.setBdie st { s4.bdie st with dlvBytes := (s4.bdie st).dlvBytes + moved }
    pushStarted (countKv (countKv s5 p (nth 0 addrs 0) x.ctx 6 moved) p (nth 0 addrs 0) x.ctx 4 moved) c slot 0 q .done

/-- ATTN starts. -/
def attnStart (s : State) (c slot : Nat) (q : QEntry) (walk : List Nat) (errs : List EccErr) : State :=
  let r := tileFault s c slot q
  let s := r.2
  let k := s.core c
  let x := k.slot slot
  let b := attnBlock k x q.cmd
  let fault (s : State) (f : Nat × Nat) : State := cmdFault s c slot q.cmd q.seq f.1 f.2 false
  match r.1 with
  | some cause => cmdFault s c slot q.cmd q.seq cause 0 true
  | none =>
    if !x.inWin (bits q.cmd.w1 21 0) 128 then fault s (fcSPAD_RANGE, bits q.cmd.w1 21 0)
    else if abBad b (2 ^ 22) then fault s (fcBAD_OPERAND, bits q.cmd.w1 21 0)
    else if abNq b = 0 ∧ abNa b = 0 then
      if x.inWin (abRes b) 64 then pushStarted (s.setCore c (winWrite k x (abRes b) (attnRecord b [] []))) c slot 0 q .done
      else fault s (fcSPAD_RANGE, abRes b)
    else
      let l := attnList k x b
      let addrs := attnPages l walk
      match pickOne s (attnFaults s c x q.cmd b l addrs) with
      | some (f, s1) => fault s1 f
      | none => attnRun s c slot q b l addrs errs

/-- The lines of the twin an ATTN about to start must wait for (R203, R470). -/
def attnHeld (s : State) (c slot : Nat) (q : QEntry) (walk : List Nat) : List (Nat × Nat) :=
  let k := s.core c
  let x := k.slot slot
  let b := attnBlock k x q.cmd
  let l := attnList k x b
  let addrs := attnPages l walk
  if !x.inWin (bits q.cmd.w1 21 0) 128 || abBad b (2 ^ 22) || !(attnFaults s c x q.cmd b l addrs).isEmpty then []
  else heldLines s (corePart s c) (pageRanges (abD b) l addrs) (decide (0 < abNa b))

/-- ATTN: the matrix engine starts the picked command, once no line of its pages is in the twin's cache. -/
def execAttn (core : Nat) (walk : List Nat) (errs : List EccErr) (s : State) : Host.Outcome State Fault Refusal :=
  .next (match headOf s core oATTN with
    | none => s
    | some (slot, q) =>
      let held := attnHeld s core slot q walk
      if held.isEmpty then engineStart s core oATTN fun s k q => attnStart s core k q walk errs else probeLines s held)

end Sys2Proof.Machine
end

