-- ==== Sys2Proof/Machine/FabTxn.lean ====
section
/-!
DEFINITION. The shared operations of fabric transactions: packets (R445, R446), their end at the issuing core (R464, R465), their service at
the target (R200, R201, R206, R246, R461 to R465), and the fabric line cache of the issuer (R469 to R473).
-/

namespace Sys2Proof.Machine

/-! ### Packets -/

def pkPUT : Nat := 0x10
def pkRSIG : Nat := 0x11
def pkLOAD : Nat := 0x12
def pkSTORE : Nat := 0x13
def pkATOMIC : Nat := 0x14
def pkFW : Nat := 0x15
def pkPUT_ACK : Nat := 0x20
def pkCREDIT : Nat := 0x21
def pkLOAD_DATA : Nat := 0x22
def pkDONE : Nat := 0x23
def pkATOMIC_DATA : Nat := 0x24

/-- A packet of this package, addressed by node. -/
def mkPacket (s : State) (type dst part pseq : Nat) (args data : List Byte) : Packet where
  type := type
  dst := dst
  src := s.fab.node
  role := false
  poison := false
  nm := false
  bcast := false
  dstRole := 0
  inter := 0
  part := part
  hops := 0
  pseq := pseq
  fwd := false
  vc := typeVc type
  hop := 0
  args := args ++ zeros (16 - args.length)
  data := data

/-- A packet leaves on a fabric link, its payload charged to a context (R513): the way every packet of this package starts. -/
def sendPacket (s : State) (ctx : Nat) (p : Packet) : State := transmit (s.count ctx 7 p.data.length) p

/-- ARGS of a PUT or RSIG (log 23; R446 names the fields and gives no bits): destination core, inbox, RESTART or slot, hurdle, INC, then the
sending core and channel. -/
def msgArgs (core inbox third hurdle inc srcCore srcChan : Nat) : List Byte :=
  leBytes 2 core ++ leBytes 1 inbox ++ leBytes 1 third ++ leBytes 2 hurdle ++ leBytes 2 inc ++ leBytes 2 srcCore ++ leBytes 1 srcChan

/-- ARGS of a LOAD or STORE (R446): near address and length. -/
def memArgs (near len : Nat) : List Byte := leBytes 5 near ++ leBytes 2 len

/-- ARGS of an ATOMIC (R446): near address, OP, SIZE, SIGNED. -/
def atomArgs (near op : Nat) (size8 sgn : Bool) : List Byte := leBytes 5 near ++ leBytes 1 (op + 8 * b2n size8 + 16 * b2n sgn)

/-- ARGS of a response (log 23): sub-cause, then the line index or the bytes applied. -/
def rspArgs (sub n : Nat) : List Byte := leBytes 1 sub ++ leBytes 4 n

/-- Whether packets can reach a node: it is in the database, alone under its ID, not fenced, and a route leads to it (R450, R464, R490). -/
def reachable (s : State) (n : Nat) : Bool :=
  s.inDb n && !s.fab.conflict.contains n && !s.twin.fence.contains n && (n == s.fab.node || (hops s s.fab.node n).isSome)

/-- Whether this package takes a packet from a node: not from a fenced one (R490). -/
def takesFrom (s : State) (n : Nat) : Bool := !s.twin.fence.contains n

/-! ### The end of a fabric command (R464) -/

def fcSpad (c : Cmd) : Nat := bits c.w2 21 0
def fcLen (c : Cmd) : Nat := bits c.w2 37 22
def fcStat (c : Cmd) : Nat := bits c.w3 21 0
def fcNoFault (c : Cmd) : Bool := bit c.w3 22
def fcNear (c : Cmd) : Nat := bits c.w1 39 0
def fcNode (s : State) (c : Cmd) : Nat := s.fab.node / 8 * 8 + bits c.w1 46 44

/-- The status word: sub-cause and bytes moved. -/
def statusWord (sub bytes : Nat) : List Byte := leBytes 4 (sub % 256) ++ leBytes 4 bytes

/-- One transaction of the package. -/
def State.txn (s : State) (id : Nat) : Txn := tget Txn.reset s.fab.txns id

/-- One transaction replaced. -/
def State.setTxn (s : State) (id : Nat) (t : Txn) : State := { s with fab := { s.fab with txns := tput s.fab.txns id t } }

/-- A transaction ends: the status word is written at STAT; a failure without NOFAULT faults the slot with FABRIC_FAULT, otherwise the
command has only to complete (R464). -/
def finishTxn (s : State) (id sub bytes : Nat) : State :=
  let t := s.txn id
  let s1 := { s with fab := { s.fab with txns := tdel s.fab.txns id } }
  let x := s1.slot t.core t.slot
  match x.find t.serial with
  | none => s1
  | some st =>
    let s2 := s1.setCore t.core (winWrite (s1.core t.core) x t.stat (statusWord sub bytes))
    if sub = scOK ∨ t.noFault then s2.setSlot t.core t.slot ((s2.slot t.core t.slot).modify t.serial fun st => { st with work := .done })
    else cmdFault (s2.setSlot t.core t.slot ((s2.slot t.core t.slot).drop t.serial)) t.core t.slot st.cmd st.seq fcFABRIC_FAULT t.near false

/-- Bytes of a transaction's data put into its slot's window. -/
def txnPut (s : State) (t : Txn) (off : Nat) (l : List Byte) : State :=
  s.setCore t.core (winWrite (s.core t.core) (s.slot t.core t.slot) (t.spad + off) l)

/-- Bytes of a transaction's data in its slot's window. -/
def txnGet (s : State) (t : Txn) (off n : Nat) : List Byte := winRead (s.core t.core) (s.slot t.core t.slot) (t.spad + off) n

/-! ### Service at the target -/

/-- The sub-cause that keeps an access to one line, or part of one, from being served (R464); OK where none does. -/
def lineSub (s : State) (part na n : Nat) (write : Bool) : Nat :=
  if !nearOk s part na n then scRANGE
  else if write && wpHit s part na n then scWRITE_PROTECTED
  else scOK

/-- The lines of an access that can be served: those before the first refused one. -/
def servable (s : State) (part na : Nat) (write : Bool) (n : Nat) : Nat :=
  ((List.range n).find? fun i => lineSub s part (na + 64 * i) 64 write != scOK).getD n

/-- The ranges of an access that can be served, for the directory. -/
def servedRange (s : State) (part na len : Nat) (write : Bool) : List (Nat × Nat) :=
  if (s.part part).state != .active then []
  else (List.range (servable s part na write (len / 64))).map fun i => (na + 64 * i, 64)

/-- A load served line by line from line `i` on, `n` lines: bytes so far, and the sub-cause that ended it (R464). -/
def serveLines (n : Nat) (s : State) (part na i : Nat) (errs : List EccErr) (acc : List Byte) : State × List Byte × Nat :=
  match n with
  | 0 => (s, acc, scOK)
  | n + 1 =>
    let a := na + 64 * i
    if !nearOk s part a 64 then (s, acc, scRANGE)
    else
      let r := nearRead s part a 64 errs
      if r.2.2 then (r.1, acc, scPOISON) else serveLines n r.1 part na (i + 1) errs (acc ++ r.2.1)

/-- A fabric load at its target: the state, the bytes before the failing line, and the sub-cause. -/
def serveLoad (s : State) (part na len : Nat) (errs : List EccErr) : State × List Byte × Nat :=
  if (s.part part).state != .active then (s, [], scPARTITION)
  else serveLines (len / 64) s part na 0 errs []

/-- A fabric store at its target, every line of it free of the twin's copy: the state, the bytes applied and the sub-cause. -/
def serveStore (s : State) (part na : Nat) (data : List Byte) (poison : Bool) (errs : List EccErr) : State × Nat × Nat :=
  if (s.part part).state != .active then (s, 0, scPARTITION)
  else
    let n := data.length / 64
    let k := servable s part na true n
    let s1 := (nearWrite s part na (data.take (64 * k)) poison errs).1
    (s1, 64 * k, if k = n then scOK else lineSub s part (na + 64 * k) 64 true)

/-- The new value of an atomic (R463). -/
def atomicNew (op size old opd cmp : Nat) (sgn : Bool) : Nat :=
  let m := 2 ^ (8 * size)
  let less (a b : Nat) : Bool := if sgn then decide (signed (8 * size) a < signed (8 * size) b) else decide (a < b)
  match op with
  | 0 => (old + opd) % m
  | 1 => if less old opd then old else opd
  | 2 => if less opd old then old else opd
  | _ => if old = cmp then opd else old

/-- An atomic at its target (R200, R201, R246, R463): the state, the old value and the sub-cause. Sub-causes other than OK change nothing
but what the check code does. -/
def serveAtomic (s : State) (part na op : Nat) (size8 sgn : Bool) (opd cmp : Nat) (errs : List EccErr) : State × Nat × Nat :=
  let size := if size8 then 8 else 4
  if (s.part part).state != .active then (s, 0, scPARTITION)
  else if lineSub s part na size true != scOK then (s, 0, lineSub s part na size true)
  else
    let r := nearRead s part na size errs
    if r.2.2 then (r.1, 0, scPOISON)
    else
      let old := leNat r.2.1
      let m := 2 ^ (8 * size)
      let s1 := (nearWrite r.1 part na (leBytes size (atomicNew op size old (opd % m) (cmp % m) sgn)) false []).1
      let b := s1.bdie (naStack na)
      (s1.setBdie (naStack na) { b with atomics := b.atomics + 1 }, old, scOK)

/-! ### The line cache (R469 to R473) -/

/-- Whether a twin link is UP or DEGRADED. -/
def twinLinkUp (s : State) : Bool := (List.range 36).any fun l => planUse (s.plan l) = 1 && (s.link l).state.isUp

/-- Whether an access is served by the line cache: it aims at the twin, a twin link is up, and every line lies in a range that this package's
own map of the partition shows reachable, shared and unprotected (log 24: the pair holds the same ranges). -/
def cacheable (s : State) (node part na len : Nat) (write : Bool) : Bool :=
  s.twinNode == some node && twinLinkUp s && (s.part part).state == .active && nearOk s part na len && mapShare (mapWord s part (naStack na)) &&
    !(write && wpHit s part na len)

/-- One line of the cache. -/
def State.cline (s : State) (l : Nat) : CacheLine := tget CacheLine.reset s.fab.lines l

/-- One line of the cache replaced, marked as last used. -/
def State.useLine (s : State) (l : Nat) (x : CacheLine) : State :=
  { s with fab := { s.fab with lines := tput s.fab.lines l { x with order := s.fab.lineOrder }, lineOrder := s.fab.lineOrder + 1 } }

/-- A line leaves the cache. -/
def State.dropLine (s : State) (l : Nat) : State := { s with fab := { s.fab with lines := tdel s.fab.lines l } }

/-- Requests outstanding at the directories. -/
def asked (s : State) : Nat := (s.fab.lines.filter fun e => e.2.asking).length

/-- The lines of a set that take up a way: 2,097,152 lines in 16 ways. -/
def waysUsed (s : State) (l : Nat) : List (Nat × CacheLine) :=
  s.fab.lines.filter fun e => e.1 % 131072 == l % 131072 && !e.2.evicting

/-- A held line leaves by EVICT or WB, as its state requires (R469, R471). -/
def evictLine (s : State) (l : Nat) : State :=
  let x := s.cline l
  match x.state with
  | .S => (s.dropLine l).emit (.coh (.evict l))
  | .M => (s.useLine l { CacheLine.reset with evicting := true }).emit (.coh (.wb l x.poison x.data))
  | .I => s

/-- Room for a line in its set: the line used least recently that has no request outstanding leaves (log 24). -/
def makeRoom (s : State) (l : Nat) : State :=
  let w := waysUsed s l
  if w.length < 16 then s
  else match w.filter (fun e => !e.2.asking) with
    | [] => s
    | e :: r => evictLine s (r.foldl (fun a b => if b.2.order < a.2.order then b else a) e).1

/-- A request for a line, when none is outstanding for it, fewer than 1,024 are in all, and a twin link is up (R472, R473). -/
def askLine (s : State) (l : Nat) (m : Bool) : State :=
  let x := s.cline l
  if x.asking || x.evicting || decide (1024 ≤ asked s) || !twinLinkUp s then s
  else
    let s1 := if x.state = .I then makeRoom s l else s
    (s1.useLine l { x with asking := true }).emit (.coh (if m then .rdM l false else .rdS l))

/-- A transaction of the line cache goes on, line by line, until a line is missing or it ends (R469, R470). -/
def advance (n : Nat) (s : State) (id : Nat) : State :=
  match n with
  | 0 => s
  | n + 1 =>
    let t := s.txn id
    if !t.open_ || !t.cached then s
    else if t.len ≤ t.moved then finishTxn s id scOK t.len
    else
      let l := cohLine t.part (t.near + t.moved)
      let x := s.cline l
      if t.kind = oFLOAD then
        if x.state = .I then askLine s l false
        else if x.poison then finishTxn s id scPOISON t.moved
        else advance n (((txnPut s t t.moved x.data).useLine l x).setTxn id { t with moved := t.moved + 64 }) id
      else if x.state = .M then
        advance n ((s.useLine l { x with data := txnGet s t t.moved 64, poison := false }).setTxn id { t with moved := t.moved + 64 }) id
      else askLine s l true

/-- Every open transaction of the line cache goes on, oldest first. -/
def advanceAll (s : State) : State :=
  (tkeys (s.fab.txns.filter fun e => e.2.cached)).foldl (fun s id => advance 1025 s id) s

/-- The line cache drops every line (R473). -/
def dropLines (s : State) : State := { s with fab := { s.fab with lines := [] } }

end Sys2Proof.Machine
end

