-- ==== Sys2Proof/Machine/Message.lean ====
section
/-!
DEFINITION. The message engine (R84 to R92, R461 to R468): PUT, RSIG, IPOP, the fabric commands, what reaches an inbox or a hurdle, credits,
acknowledgements and resends, and the packets of fabric transactions at their target and at their source.
-/

namespace Sys2Proof.Machine

/-! ### Inboxes -/

/-- The inbox a channel register names, on its destination core. -/
def inboxReg (s : State) (core inbox : Nat) : Word64 := tget 0 (s.core core).inbox inbox

/-- Whether an inbox is open: its core is enabled and powered, its slot bound and the inbox enabled (R91). -/
def inboxIsOpen (s : State) (core inbox : Nat) : Bool :=
  s.coreOk core && s.power.fieldOn && decide (inbox < 32) && ((s.core core).slot (inbox / 8)).state != .unbound && ibEn (inboxReg s core inbox)

/-- Entries of an inbox. -/
def inboxSize (w : Word64) : Nat := 2 ^ ibEnl w

/-- Whether every entry of an inbox is filled. -/
def inboxFull (s : State) (core inbox : Nat) : Bool :=
  decide (inboxSize (inboxReg s core inbox) ≤ tget 0 (s.core core).inboxN inbox)

/-- The key of a channel's expected SEQ at an inbox. -/
def seqKey (node core chan inbox : Nat) : Nat := ((node * 2048 + core) * 128 + chan) * 32 + inbox

/-- Reasons of a REJECT (R446). -/
def rjCLOSED : Nat := 0
def rjFULL : Nat := 1
def rjORDER : Nat := 2
def rjTABLE : Nat := 3

/-- Why an inbox rejects a PUT (R465); `none` when it accepts. A PUT whose data no entry of the inbox can hold finds it FULL. -/
def putReject (s : State) (node sc chan core inbox seq len : Nat) (restart : Bool) : Option Nat :=
  let k := s.core core
  let key := seqKey node sc chan inbox
  if !inboxIsOpen s core inbox then some rjCLOSED
  else if inboxFull s core inbox || decide (2 ^ ibEsz (inboxReg s core inbox) < len + 16) then some rjFULL
  else if seq != tget 0 k.expect key && !(restart && seq == 0) then some rjORDER
  else if !(tkeys k.expect).contains key && decide (1024 ≤ k.expect.length) then some rjTABLE
  else none

/-- The arrival hurdle of an inbox is signalled (R80, R83). -/
def arrival (s : State) (core inbox h inc : Nat) : State :=
  let x := s.slot core (inbox / 8)
  if x.hcount ≤ h then slotFault s core (inbox / 8) fcHURDLE_RANGE none 0 false else hurdleAdd s core (x.hbase + h) inc none

/-- An accepted PUT: the entry is written whole, TAIL moves, the channel's next SEQ is expected, and then the arrival is signalled (R88, R465,
R466). -/
def putAccept (s : State) (node sc chan core inbox seq : Nat) (entry : List Byte) : State :=
  let k := s.core core
  let w := inboxReg s core inbox
  let k := winWrite k (k.slot (inbox / 8)) (ibBase w * 64 + ibTail w * 2 ^ ibEsz w) entry
  let k := { k with
    inbox := tput k.inbox inbox (setBits w 57 46 ((ibTail w + 1) % inboxSize w))
    inboxN := tput k.inboxN inbox (tget 0 k.inboxN inbox + 1)
    expect := tput k.expect (seqKey node sc chan inbox) ((seq + 1) % 2 ^ 32) }
  let s1 := s.setCore core k
  if ibArrEn w then arrival s1 core inbox (bits w 32 27) 1 else s1

/-! ### PUT and RSIG -/

def putSrc (c : Cmd) : Nat := bits c.w1 26 5
def putLen (c : Cmd) : Nat := bits c.w2 15 0
def putMtag (c : Cmd) : Nat := bits c.w2 31 16
def rsigInc (c : Cmd) : Nat := bits c.w1 20 5

/-- Whether a channel leads to another package. -/
def chFar (s : State) (w : Word64) : Bool := chRemote w && chNode w != s.fab.node

/-- Whether a far channel's node is absent, or two packages claim it (R450, R467). -/
def chLost (s : State) (w : Word64) : Bool := chFar s w && (!s.inDb (chNode w) || s.fab.conflict.contains (chNode w))

/-- The entry a PUT delivers: the header of R85, then the data. -/
def putEntry (s : State) (c slot : Nat) (cmd : Cmd) (seq : Nat) : List Byte :=
  let x := s.slot c slot
  leBytes 1 s.fab.node ++ [0] ++ leBytes 2 c ++ leBytes 1 (chanOf slot cmd) ++ leBytes 1 x.ctx ++ leBytes 2 (putLen cmd) ++
  leBytes 4 seq ++ leBytes 2 (putMtag cmd) ++ [0, 0] ++ winRead (s.core c) x (putSrc cmd) (putLen cmd)

/-- The PSEQ an RSIG travels under, to find it again when its answer arrives. -/
def rsigSeq (serial : Nat) : Nat := 2 ^ 31 + serial % 2 ^ 31

/-- The hurdle an RSIG through a channel names (log 25). -/
def rsigHur (w : Word64) : Nat := Config.rsigHurdle (nbits w.toNat 25 0) % 64

/-- A started PUT or RSIG toward another package is sent (R446). -/
def sendMsg (s : State) (c slot : Nat) (t : Started) : State :=
  let ch := chanOf slot t.cmd
  let w := tget 0 (s.core c).chan ch
  let x := s.slot c slot
  match t.work with
  | .put seq restart _ _ =>
    sendPacket s x.ctx (mkPacket s pkPUT (chNode w) (corePart s c) seq
      (msgArgs (chCore w) (chInbox w) (b2n restart) 0 0 c ch) (putEntry s c slot t.cmd seq))
  | .rsig _ _ =>
    sendPacket s x.ctx (mkPacket s pkRSIG (chNode w) (corePart s c) (rsigSeq t.serial)
      (msgArgs (chCore w) (chInbox w) (chInbox w / 8) (rsigHur w) (rsigInc t.cmd) c ch) [])
  | _ => s

/-- The command just started on a core is sent when its channel leads to another package. -/
def sendNew (s : State) (c slot serial : Nat) : State :=
  match (s.slot c slot).find serial with
  | some t => if chFar s (tget 0 (s.core c).chan (chanOf slot t.cmd)) then sendMsg s c slot t else s
  | none => s

/-- What keeps a PUT from starting (R43, R86, R467). -/
def putCauses (s : State) (x : SlotSt) (w : Word64) (cmd : Cmd) : List (Nat × Nat) :=
  let d := inboxReg s (chCore w) (chInbox w)
  (if !chEn w then [(fcCHAN_INVALID, 0)]
   else (if chLost s w then [(fcMSG_UNREACH, 0)] else []) ++
    (if !chFar s w && ibEn d && decide (2 ^ ibEsz d < putLen cmd + 16) then [(fcMSG_LEN, 0)] else [])) ++
  (if x.inWin (putSrc cmd) (putLen cmd) then [] else [(fcSPAD_RANGE, putSrc cmd)])

/-- A PUT starts: it takes a credit and the channel's next SEQ (R87, R88). -/
def putStart (s : State) (c slot : Nat) (q : QEntry) : State :=
  let k := s.core c
  let ch := chanOf slot q.cmd
  let w := tget 0 k.chan ch
  match pickOne s (putCauses s (k.slot slot) w q.cmd) with
  | some (f, s1) => cmdFault s1 c slot q.cmd q.seq f.1 f.2 false
  | none =>
    let seq := tget 0 k.chanSeq ch
    let k1 := { k with
      chan := tput k.chan ch (setBits w 41 26 (chCredits w - 1))
      chanSeq := tput k.chanSeq ch ((seq + 1) % 2 ^ 32)
      restart := k.restart.filter (· != ch) }
    sendNew (pushStarted (s.setCore c k1) c slot 3 q (.put seq (k.restart.contains ch) 1 none)) c slot k.serial

/-- PUT (R87). -/
def execPut (core : Nat) (s : State) : Host.Outcome State Fault Refusal := .next (engineStart s core oPUT fun s k q => putStart s core k q)

/-- An RSIG starts (R86, R467). -/
def rsigStart (s : State) (c slot : Nat) (q : QEntry) : State :=
  let k := s.core c
  let w := tget 0 k.chan (chanOf slot q.cmd)
  if !chEn w then cmdFault s c slot q.cmd q.seq fcCHAN_INVALID 0 false
  else if chLost s w then cmdFault s c slot q.cmd q.seq fcMSG_UNREACH 0 false
  else sendNew (pushStarted s c slot 3 q (.rsig 1 none)) c slot k.serial

/-- RSIG (R80). -/
def execRsig (core : Nat) (s : State) : Host.Outcome State Fault Refusal := .next (engineStart s core oRSIG fun s k q => rsigStart s core k q)

/-- The started PUT or RSIG of a slot whose channel leads inside the package. -/
def nearMsg (s : State) (c slot serial : Nat) : Option (Started × Word64) :=
  if !s.coreRuns c || 4 ≤ slot then none
  else match (s.slot c slot).find serial with
    | some t =>
      let w := tget 0 (s.core c).chan (chanOf slot t.cmd)
      if chFar s w then none else some (t, w)
    | none => none

/-- A started command's work is done. -/
def workEnds (s : State) (c slot serial : Nat) : State := s.setSlot c slot ((s.slot c slot).modify serial fun t => { t with work := .done })

/-- A PUT reaches an inbox of its own package: accepted, turned down until tried again, or found longer than the inbox's entries (R86, R91). -/
def nearArrival (s : State) (c slot serial : Nat) : State :=
  match nearMsg s c slot serial with
  | some (t, w) =>
    (match t.work with
    | .put seq restart _ _ =>
      let len := putLen t.cmd
      if inboxIsOpen s (chCore w) (chInbox w) && decide (2 ^ ibEsz (inboxReg s (chCore w) (chInbox w)) < len + 16) then
        cmdFault (s.setSlot c slot ((s.slot c slot).drop serial)) c slot t.cmd t.seq fcMSG_LEN 0 false
      else match putReject s s.fab.node c (chanOf slot t.cmd) (chCore w) (chInbox w) seq len restart with
        | some _ => s
        | none => putAccept (workEnds s c slot serial) s.fab.node c (chanOf slot t.cmd) (chCore w) (chInbox w) seq (putEntry s c slot t.cmd seq)
    | _ => s)
  | none => s

/-- The answer to a PUT or RSIG (R446): ACCEPT, reason, channel and SEQ echoed. -/
def putAckPacket (s : State) (p : Packet) (reject : Option Nat) : Packet :=
  mkPacket s pkPUT_ACK p.src p.part p.pseq
    (leBytes 1 (match reject with | none => 1 | some r => 2 * r) ++ leBytes 2 (ble p.args 8 2) ++ leBytes 1 (ble p.args 10 1)) []

/-- A PUT packet of another package reaches its inbox (R465, R466). -/
def farArrival (s : State) (p : Packet) : State :=
  if p.type != pkPUT || p.dst != s.fab.node || !takesFrom s p.src then s
  else
    let core := ble p.args 0 2
    let inbox := ble p.args 2 1
    let sc := ble p.args 8 2
    let ch := ble p.args 10 1
    let r := putReject s p.src sc ch core inbox p.pseq (p.data.length - 16) (nbits (ble p.args 3 1) 0 0 = 1)
    let s1 := if r.isNone then putAccept s p.src sc ch core inbox p.pseq p.data else s
    sendPacket s1 ovCtx (putAckPacket s1 p r)

/-- INBOX_ARRIVAL (R465). -/
def execInboxArrival (a : Arrival) (s : State) : Host.Outcome State Fault Refusal :=
  .next (match a with
    | .near c slot serial => nearArrival s c slot serial
    | .far p => farArrival s p)

/-- Why an RSIG is not yet taken (R91): its inbox is closed or full. -/
def rsigReject (s : State) (core inbox : Nat) : Option Nat :=
  if !inboxIsOpen s core inbox then some rjCLOSED else if inboxFull s core inbox then some rjFULL else none

/-- RSIG_ARRIVAL: the increment is applied when it arrives (R80, R82), once its destination takes it (R91). -/
def execRsigArrival (a : Arrival) (s : State) : Host.Outcome State Fault Refusal :=
  .next (match a with
    | .near c slot serial =>
      (match nearMsg s c slot serial with
      | some (t, w) =>
        (match t.work with
        | .rsig _ _ =>
          if (rsigReject s (chCore w) (chInbox w)).isSome then s
          else arrival (workEnds s c slot serial) (chCore w) (chInbox w) (rsigHur w) (rsigInc t.cmd)
        | _ => s)
      | none => s)
    | .far p =>
      if p.type != pkRSIG || p.dst != s.fab.node || !takesFrom s p.src then s
      else
        let core := ble p.args 0 2
        let inbox := ble p.args 2 1
        let r := rsigReject s core inbox
        let s1 := if r.isNone then arrival s core inbox (ble p.args 4 2 % 64) (ble p.args 6 2) else s
        sendPacket s1 ovCtx (putAckPacket s1 p r))

/-! ### Answers and resends (R465) -/

/-- The SEQ of a started PUT, or the number an RSIG travels under. -/
def msgSeq (t : Started) : Option Nat :=
  match t.work with
  | .put seq _ _ _ => some seq
  | .rsig _ _ => some (rsigSeq t.serial)
  | _ => none

/-- A PUT or RSIG begins to wait for its resend, unless it waits already. -/
def msgWait (aon : Nat) (w : Work) : Work :=
  match w with
  | .put seq r b none => .put seq r b (some aon)
  | .rsig b none => .rsig b (some aon)
  | w => w

/-- Whether a started command is a PUT that is not yet accepted. -/
def isPut (t : Started) : Bool := match t.work with | .put _ _ _ _ => true | _ => false

/-- The started commands of a channel. -/
def ofChan (slot ch : Nat) (t : Started) : Bool := t.engine == 3 && (t.cmd.opc == oPUT || t.cmd.opc == oRSIG) && chanOf slot t.cmd == ch

/-- PUT_ACK: ACCEPT ends the PUT or RSIG; REJECT makes that PUT and every later one of its channel wait for their resend (R465). -/
def execPutAck (core chan seq : Nat) (accept : Bool) (reason : Nat) (s : State) : Host.Outcome State Fault Refusal :=
  .next (
    let slot := chan / 32
    let x := s.slot core slot
    if 128 ≤ chan ∨ 3 < reason ∨ !chFar s (tget 0 (s.core core).chan chan) then s
    else match x.started.find? fun t => ofChan slot chan t && msgSeq t == some seq with
      | none => s
      | some t =>
        if accept then workEnds s core slot t.serial
        else s.setSlot core slot { x with started := x.started.map fun u =>
          if u.serial == t.serial || (isPut t && isPut u && ofChan slot chan u && decide (t.seq < u.seq)) then { u with work := msgWait s.aon u.work }
          else u })

/-- The wait of a PUT or RSIG for its resend: since when, and how many µs. -/
def waitOf (t : Started) : Option (Nat × Nat) :=
  match t.work with
  | .put _ _ b (some w) => some (w, b)
  | .rsig b (some w) => some (w, b)
  | _ => none

/-- A resent PUT or RSIG: the next wait is twice as long, 64 µs at most. -/
def msgAgain (w : Work) : Work :=
  match w with
  | .put seq r b (some _) => .put seq r (min 64 (2 * b)) none
  | .rsig b (some _) => .rsig (min 64 (2 * b)) none
  | w => w

/-- PUT_RESEND: the wait of a channel's earliest waiting message has ended, and every one that waits is sent again in SEQ order (R465). -/
def execPutResend (core chan : Nat) (s : State) : Host.Outcome State Fault Refusal :=
  .next (
    let slot := chan / 32
    let x := s.slot core slot
    let l := x.started.filter fun t => ofChan slot chan t && (waitOf t).isSome
    if 128 ≤ chan || !s.coreRuns core then s
    else match l.head?.bind waitOf with
      | none => s
      | some (w, b) =>
        if s.aon < w + usAon b then s
        else l.foldl (fun s t =>
          sendMsg (s.setSlot core slot ((s.slot core slot).modify t.serial fun u => { u with work := msgAgain u.work })) core slot t) s)

/-! ### Credits -/

/-- The entries of a slot's inbox from its HEAD on, as the channels to credit: node, core, channel. -/
def popList (k : Core) (x : SlotSt) (w : Word64) (n : Nat) : List (Nat × Nat × Nat) :=
  (List.range n).map fun i =>
    let o := ibBase w * 64 + ((ibHead w + i) % inboxSize w) * 2 ^ ibEsz w
    (winNat k x o 1, winNat k x (o + 2) 2 % 2048, winNat k x (o + 4) 1 % 128)

/-- One credit more for a channel in a list of credits. -/
def addCredit (l : List (Nat × Nat × Nat)) (core ch : Nat) : List (Nat × Nat × Nat) :=
  if l.any fun e => e.1 == core && e.2.1 == ch then l.map fun e => if e.1 = core ∧ e.2.1 = ch then (core, ch, e.2.2 + 1) else e
  else l ++ [(core, ch, 1)]

/-- The credits of a list of released entries for one node. -/
def creditsFor (l : List (Nat × Nat × Nat)) (node : Nat) : List (Nat × Nat × Nat) :=
  (l.filter (·.1 == node)).foldl (fun a e => addCredit a e.2.1 e.2.2) []

/-- CREDIT packets leave for the channels of other packages (R468). -/
def sendCredits (s : State) (ctx part : Nat) (l : List (Nat × Nat × Nat)) : State :=
  ((dedup (l.map (·.1))).filter (· != s.fab.node)).foldl (fun s n =>
    (creditsFor l n).foldl (fun s e =>
      sendPacket s ctx (mkPacket s pkCREDIT n part 0 (leBytes 2 e.1 ++ leBytes 1 e.2.1 ++ leBytes 2 e.2.2) [])) s) s

/-- An IPOP starts (R89). -/
def ipopStart (s : State) (c slot : Nat) (q : QEntry) : State :=
  let k := s.core c
  let x := k.slot slot
  let i := 8 * slot + bits q.cmd.w1 2 0
  let n := bits q.cmd.w1 15 3
  let w := tget 0 k.inbox i
  let held := tget 0 k.inboxN i
  if held < n then cmdFault s c slot q.cmd q.seq fcBAD_OPERAND 0 false
  else
    let l := popList k x w n
    let own := (creditsFor l s.fab.node).foldl (fun a e => (List.range e.2.2).foldl (fun a _ => addCredit a e.1 e.2.1) a) k.creditOut
    let k1 := { k with
      inbox := tput k.inbox i (setBits w 45 34 ((ibHead w + n) % inboxSize w))
      inboxN := tput k.inboxN i (held - n)
      creditOut := own }
    pushStarted (sendCredits (s.setCore c k1) x.ctx (corePart s c) l) c slot 3 q .done

/-- IPOP (R89). -/
def execIpop (core : Nat) (s : State) : Host.Outcome State Fault Refusal := .next (engineStart s core oIPOP fun s k q => ipopStart s core k q)

/-- Credits reach a channel: CREDITS rises, staying at the most its field holds. -/
def giveCredits (s : State) (core chan n : Nat) : State :=
  let k := s.core core
  let w := tget 0 k.chan chan
  s.setCore core { k with chan := tput k.chan chan (setBits w 41 26 (min 65535 (chCredits w + n))) }

/-- CREDIT_RETURN: credits on their way inside the package reach their channel (R89). -/
def execCreditReturn (core chan : Nat) (s : State) : Host.Outcome State Fault Refusal :=
  .next (
    match s.cores.find? fun e => e.2.creditOut.any fun o => o.1 == core && o.2.1 == chan with
    | none => s
    | some (c, k) =>
      let n := (k.creditOut.filter fun o => o.1 == core && o.2.1 == chan).foldl (fun a o => a + o.2.2) 0
      giveCredits (s.setCore c { k with creditOut := k.creditOut.filter fun o => !(o.1 == core && o.2.1 == chan) }) core chan n)

/-- CREDIT_PACKET (R468). -/
def execCreditPacket (core chan credits : Nat) (s : State) : Host.Outcome State Fault Refusal :=
  .next (if 128 ≤ chan || !s.coreOk core then s else giveCredits s core chan credits)

/-! ### Fabric commands -/

/-- The window ranges of a fabric command: its data, and its status word. -/
def fabRanges (c : Cmd) : List (Nat × Nat) := [(fcSpad c, if c.opc = oFATOM then 24 else fcLen c), (fcStat c, 8)]

/-- The transaction a started fabric command stands for. -/
def txnOf (s : State) (c slot serial : Nat) (cmd : Cmd) : Txn where
  open_ := true
  core := c
  slot := slot
  serial := serial
  kind := cmd.opc
  node := fcNode s cmd
  part := corePart s c
  near := fcNear cmd
  spad := fcSpad cmd
  len := fcLen cmd
  stat := fcStat cmd
  noFault := fcNoFault cmd
  size8 := bit cmd.w3 26
  since := s.aon
  cached := false
  moved := 0

/-- The old value of an atomic is written at SPAD + 0x10, and the transaction ends (R462). -/
def atomEnd (s : State) (id old : Nat) : State := finishTxn (txnPut s (s.txn id) 16 (leBytes 8 old)) id scOK (if (s.txn id).size8 then 8 else 4)

/-- A fabric command on this package's own near memory (R461). -/
def ownTxn (s : State) (ctx id : Nat) (cmd : Cmd) (errs : List EccErr) : State :=
  let t := s.txn id
  if t.kind = oFLOAD then
    let r := serveLoad s t.part t.near t.len errs
    finishTxn (txnPut (r.1.count ctx 6 r.2.1.length) t 0 r.2.1) id r.2.2 r.2.1.length
  else if t.kind = oFSTORE then
    let r := serveStore s t.part t.near (txnGet s t 0 t.len) false errs
    finishTxn (r.1.count ctx 6 r.2.1) id r.2.2 r.2.1
  else
    let r := serveAtomic s t.part t.near (bits cmd.w3 25 23) t.size8 (bit cmd.w3 27)
      (leNat (txnGet s t 0 8)) (leNat (txnGet s t 8 8)) errs
    if r.2.2 = scOK then atomEnd (r.1.count ctx 6 64) id r.2.1 else finishTxn r.1 id r.2.2 0

/-- A fabric command's request leaves for its target package (R446). -/
def askTxn (s : State) (ctx id : Nat) (cmd : Cmd) : State :=
  let t := s.txn id
  if t.kind = oFLOAD then sendPacket s ctx (mkPacket s pkLOAD t.node t.part id (memArgs t.near t.len) [])
  else if t.kind = oFSTORE then sendPacket s ctx (mkPacket s pkSTORE t.node t.part id (memArgs t.near t.len) (txnGet s t 0 t.len))
  else sendPacket s ctx (mkPacket s pkATOMIC t.node t.part id (atomArgs t.near (bits cmd.w3 25 23) t.size8 (bit cmd.w3 27)) (txnGet s t 0 16))

/-- A fabric command starts (R461 to R464, R469, R473). -/
def fabStart (s : State) (c slot : Nat) (q : QEntry) (errs : List EccErr) : State :=
  let k := s.core c
  let x := k.slot slot
  let cmd := q.cmd
  match (fabRanges cmd).find? fun r => !x.inWin r.1 r.2 with
  | some r => cmdFault s c slot cmd q.seq fcSPAD_RANGE r.1 false
  | none =>
    let id := s.fab.txnNext
    let t := txnOf s c slot k.serial cmd
    let s1 := (pushStarted { s with fab := { s.fab with txnNext := (id + 1) % 2 ^ 32 } } c slot 3 q (.txn id)).setTxn id t
    if cmd.opc != oFATOM && t.len == 0 then finishTxn s1 id scOK 0
    else if t.node = s.fab.node then ownTxn s1 x.ctx id cmd errs
    else if !reachable s t.node then finishTxn s1 id scUNREACHABLE 0
    else if cmd.opc = oFATOM then
      askTxn (if s.twinNode = some t.node then evictLine s1 (cohLine t.part (t.near / 64 * 64)) else s1) x.ctx id cmd
    else if cacheable s t.node t.part t.near t.len (cmd.opc == oFSTORE) then advance 1025 (s1.setTxn id { t with cached := true }) id
    else askTxn s1 x.ctx id cmd

/-- The lines of this package's own memory the twin holds that a fabric command about to start touches: they leave the twin first (R203, R470). -/
def fabHeld (s : State) (c : Nat) (cmd : Cmd) : List (Nat × Nat) :=
  let part := corePart s c
  if fcNode s cmd != s.fab.node then []
  else if cmd.opc = oFATOM then (if nearOk s part (fcNear cmd) 8 then heldLines s part [(fcNear cmd, 1)] true else [])
  else heldLines s part (servedRange s part (fcNear cmd) (fcLen cmd) (cmd.opc == oFSTORE)) (cmd.opc == oFSTORE)

/-- The head of the message engine starts as a fabric command, once no line it needs is with the twin. -/
def fabExec (s : State) (core opc : Nat) (errs : List EccErr) : State :=
  match headOf s core opc with
  | none => s
  | some (_, q) =>
    let held := fabHeld s core q.cmd
    if held.isEmpty then engineStart s core opc fun s k q => fabStart s core k q errs else probeLines s held

/-- FLOAD (R462). -/
def execFload (core : Nat) (errs : List EccErr) (s : State) : Host.Outcome State Fault Refusal := .next (fabExec s core oFLOAD errs)

/-- FSTORE (R462). -/
def execFstore (core : Nat) (errs : List EccErr) (s : State) : Host.Outcome State Fault Refusal := .next (fabExec s core oFSTORE errs)

/-- FATOM (R463). -/
def execFatom (core : Nat) (errs : List EccErr) (s : State) : Host.Outcome State Fault Refusal := .next (fabExec s core oFATOM errs)

/-! ### Packets at the target -/

/-- Whether a request packet is for this package, and from one it takes packets of. -/
def forUs (s : State) (p : Packet) (type : Nat) : Bool := p.type == type && p.dst == s.fab.node && takesFrom s p.src

/-- LOAD_PACKET: the target answers with LOAD_DATA, POISON and the line's index where a line is poisoned (R446, R464), once no line of it is
modified in the twin's cache (R470). -/
def execLoadPacket (p : Packet) (errs : List EccErr) (s : State) : Host.Outcome State Fault Refusal :=
  .next (
    if !forUs s p pkLOAD then s
    else
      let na := ble p.args 0 5
      let len := ble p.args 5 2
      let held := heldLines s p.part (servedRange s p.part na len false) false
      if held.isEmpty then
        let r := serveLoad s p.part na len errs
        sendPacket (r.1.count ovCtx 6 r.2.1.length) ovCtx
          { mkPacket s pkLOAD_DATA p.src p.part p.pseq (rspArgs r.2.2 (r.2.1.length / 64)) r.2.1 with poison := r.2.2 == scPOISON }
      else probeLines s held)

/-- STORE_PACKET: the target applies the lines before the first it refuses and answers DONE (R464, R465), after the directory's actions. -/
def execStorePacket (p : Packet) (errs : List EccErr) (s : State) : Host.Outcome State Fault Refusal :=
  .next (
    if !forUs s p pkSTORE then s
    else
      let na := ble p.args 0 5
      let held := heldLines s p.part (servedRange s p.part na p.data.length true) true
      if held.isEmpty then
        let r := serveStore s p.part na p.data p.poison errs
        sendPacket (r.1.count ovCtx 6 r.2.1) ovCtx (mkPacket s pkDONE p.src p.part p.pseq (rspArgs r.2.2 r.2.1) [])
      else probeLines s held)

/-- ATOMIC_PACKET: the target's atomic unit applies it and returns the old value (R200, R463). -/
def execAtomicPacket (p : Packet) (errs : List EccErr) (s : State) : Host.Outcome State Fault Refusal :=
  .next (
    if !forUs s p pkATOMIC then s
    else
      let na := ble p.args 0 5
      let f := ble p.args 5 1
      let held := if nearOk s p.part na 1 then heldLines s p.part [(na, 1)] true else []
      if held.isEmpty then
        let r := serveAtomic s p.part na (nbits f 2 0) (nbits f 3 3 = 1) (nbits f 4 4 = 1) (ble p.data 0 8) (ble p.data 8 8) errs
        sendPacket (r.1.count ovCtx 6 64) ovCtx (mkPacket s pkATOMIC_DATA p.src p.part p.pseq (rspArgs r.2.2 0) (leBytes 8 r.2.1))
      else probeLines s held)

/-! ### Responses at the source -/

/-- LOAD_DATA: the data before the failing line enters the scratchpad, and the FLOAD ends (R464, R465). A response to a transaction that has
ended is discarded. -/
def execLoadData (txn : Nat) (data : List Byte) (poisonLine : Option Nat) (sub : Nat) (s : State) : Host.Outcome State Fault Refusal :=
  .next (
    let t := s.txn txn
    if !t.open_ || t.cached || t.kind != oFLOAD || 6 < sub then s
    else
      let d := match poisonLine with
        | some i => (data.take (64 * i)).take t.len
        | none => data.take t.len
      let sub := if poisonLine.isSome then scPOISON else sub
      if sub = scOK ∧ d.length < t.len then s
      else finishTxn (txnPut s t 0 d) txn sub d.length)

/-- DONE_PACKET: an FSTORE ends, or an FATOM that failed (R465). -/
def execDonePacket (txn sub bytes : Nat) (s : State) : Host.Outcome State Fault Refusal :=
  .next (
    let t := s.txn txn
    if !t.open_ || t.cached || 6 < sub || !(t.kind == oFSTORE || (t.kind == oFATOM && sub != scOK)) then s else finishTxn s txn sub bytes)

/-- ATOMIC_DATA: the old value enters the scratchpad and the FATOM ends (R465). -/
def execAtomicData (txn sub : Nat) (old : Word64) (s : State) : Host.Outcome State Fault Refusal :=
  .next (
    let t := s.txn txn
    if !t.open_ || t.kind != oFATOM || 6 < sub then s
    else if sub = scOK then atomEnd s txn (if t.size8 then old.toNat else old.toNat % 2 ^ 32)
    else finishTxn s txn sub 0)

/-- FABRIC_TIMEOUT: no response within FAB_TO_US (R464). -/
def execFabricTimeout (txn : Nat) (s : State) : Host.Outcome State Fault Refusal :=
  .next (
    let t := s.txn txn
    if t.open_ && decide (t.since + usAon (s.cfg 0x0803) ≤ s.aon) then finishTxn s txn scTIMEOUT t.moved else s)

/-! ### A node that is lost (R467, R490) -/

/-- Every unaccepted PUT and RSIG of a core's slot to a node faults with MSG_UNREACH. -/
def failSlot (s : State) (c slot node : Nat) : State :=
  let k := s.core c
  let hit := (k.slot slot).started.filter fun t =>
    (msgSeq t).isSome && (let w := tget 0 k.chan (chanOf slot t.cmd); chFar s w && chNode w == node)
  hit.foldl (fun s t => cmdFault (s.setSlot c slot ((s.slot c slot).drop t.serial)) c slot t.cmd t.seq fcMSG_UNREACH 0 false) s

/-- Every unaccepted PUT and RSIG to a node faults, and every transaction to it ends UNREACHABLE. -/
def failNode (s : State) (node : Nat) : State :=
  let s1 := (tkeys s.cores).foldl (fun s c => (List.range 4).foldl (fun s k => failSlot s c k node) s) s
  (tkeys (s1.fab.txns.filter fun e => e.2.open_ && e.2.node == node)).foldl (fun s id => finishTxn s id scUNREACHABLE (s.txn id).moved) s1

end Sys2Proof.Machine
end

