-- ==== Sys2Proof/Machine/Coherence.lean ====
section
/-!
DEFINITION. Coherence inside the twin pair (R202 to R204, R469 to R473): the directories at home and the line cache at the twin.
-/

namespace Sys2Proof.Machine

/-! ### The directory -/

/-- Sets of a directory: 524,288 entries in 16 ways, indexed by line address (R202). -/
def dirSets : Nat := 32768

/-- A directory entry written. -/
def setDir (s : State) (st line : Nat) (e : DirEntry) : State :=
  let b := s.bdie st
  s.setBdie st { b with dir := if e.held then tput b.dir line e else tdel b.dir line }

/-- The entries of a line's set. -/
def dirSet (s : State) (st line : Nat) : List (Nat × DirEntry) := (s.bdie st).dir.filter fun e => e.1 % dirSets == line % dirSets

/-- A line is granted to the twin: it is read through the check code, its entry allocated, and DATA sent, with the line unless an RD_M did not
ask for it (R471). -/
def grant (s : State) (st line : Nat) (m needData : Bool) (errs : List EccErr) : State :=
  match lineOwner s st line with
  | none => s
  | some (p, na) =>
    let send := !m || needData
    let s1 := if send then (checkLine s st line errs).count ovCtx 6 64 else s
    let b := s1.bdie st
    let s2 := s1.setBdie st { b with dir := tput b.dir line ⟨true, m, b.dirOrder⟩, dirOrder := b.dirOrder + 1 }
    s2.emit (.coh (.data (cohLine p na) m (send && tget false b.poison line) (if send then some (stackRead s1 st (line * 64) 64) else none)))

/-- A request is served: where its set is full, the entry allocated least recently is recalled first (R203). -/
def serveReq (s : State) (st line : Nat) (m needData : Bool) (errs : List EccErr) : State :=
  let set := dirSet s st line
  if (dirOf s st line).held || decide (set.length < 16) then grant s st line m needData errs
  else match set with
    | [] => s
    | e :: r => openWait s st (r.foldl (fun a b => if b.2.order < a.2.order then b else a) e).1 (.evictFor line m needData)

/-- A request of the line cache arrives: it queues behind the line's transaction in progress (R472). -/
def lineReq (s : State) (l : Nat) (m needData : Bool) (errs : List EccErr) : State :=
  let p := cohPart l
  let na := cohNear l
  if 2 ^ 38 ≤ l ∨ !nearOk s p na 64 ∨ !mapShare (mapWord s p (naStack na)) then s
  else
    let st := naStack na
    let line := physOff s p na / 64
    if (lineWaits s st line).isSome then openWait s st line (if m then .rdM needData else .rdS)
    else serveReq s st line m needData errs

/-- RD_S (R471). -/
def execRdS (line : Nat) (errs : List EccErr) (s : State) : Host.Outcome State Fault Refusal := .next (lineReq s line false true errs)

/-- RD_M (R471). -/
def execRdM (line : Nat) (needData : Bool) (errs : List EccErr) (s : State) : Host.Outcome State Fault Refusal :=
  .next (lineReq s line true needData errs)

/-! ### Answers -/

/-- A line is no longer waited for by a started command. -/
def Work.release (st line : Nat) (w : Work) : Work :=
  match w with
  | .lines l => .lines (l.filter (· != (st, line)))
  | w => w

/-- Started commands of a slot stop waiting for a line. -/
def SlotSt.release (x : SlotSt) (st line : Nat) : SlotSt :=
  { x with started := x.started.map fun t => { t with work := t.work.release st line } }

/-- Commands of every core and beside ring stop waiting for a line whose writes have all been applied (R203). -/
def releaseLine (s : State) (st line : Nat) : State :=
  { s with
    cores := s.cores.map fun e => (e.1, { e.2 with
      s0 := e.2.s0.release st line, s1 := e.2.s1.release st line, s2 := e.2.s2.release st line, s3 := e.2.s3.release st line })
    beside := s.beside.map fun e => (e.1, { e.2 with
      rings := e.2.rings.map fun r => (r.1, { r.2 with started := r.2.started.map fun t => { t with lines := t.lines.filter (· != (st, line)) } }) }) }

/-- The jobs of a line run in arrival order; once the line is granted again, the rest wait for its next answer. -/
def runJobs (s : State) (st line : Nat) (l : List LineJob) : State :=
  match l with
  | [] => releaseLine s st line
  | j :: r =>
    if (dirOf s st line).held then
      let s1 := (j :: r).foldl (fun s j => openWait s st line j) s
      if (j :: r).any fun j => match j with | .write _ _ _ => true | _ => false then s1 else releaseLine s1 st line
    else match j with
      | .write off data poison => runJobs (applyLine s st line off data poison []) st line r
      | .read => runJobs s st line r
      | .rdS => runJobs (serveReq s st line false true []) st line r
      | .rdM nd => runJobs (serveReq s st line true nd []) st line r
      | .evictFor o m nd => runJobs (serveReq s st o m nd []) st line r

/-- The answer a line waited for has come: its jobs run, and the probe that had to wait for one of the 256 places leaves (R472). -/
def closeWait (s : State) (st line : Nat) : State :=
  let b := s.bdie st
  match lineWaits s st line with
  | none => s
  | some jobs =>
    let probed := (b.waits.take 256).any (·.1 == line)
    let rest := b.waits.filter (·.1 != line)
    let s1 := s.setBdie st { b with waits := rest }
    let s2 := match (if probed then (rest.drop 255).head? else none) with
      | some w => sendProbe s1 st w.1
      | none => s1
    runJobs s2 st line jobs

/-- The stack line a COH packet names, where its partition maps it. -/
def homeLine (s : State) (l : Nat) : Option (Nat × Nat) :=
  if 2 ^ 38 ≤ l ∨ !nearOk s (cohPart l) (cohNear l) 64 then none
  else some (naStack (cohNear l), physOff s (cohPart l) (cohNear l) / 64)

/-- The twin no longer holds a line. -/
def lineBack (s : State) (st line : Nat) : State := closeWait (setDir s st line DirEntry.reset) st line

/-- COH_ACK: an INV is answered; an ACK with NODATA is discarded, since what crossed it was the answer (R472). -/
def execCohAck (line : Nat) (noData : Bool) (s : State) : Host.Outcome State Fault Refusal :=
  .next (match homeLine s line with
    | none => s
    | some (st, l) => if noData || (lineWaits s st l).isNone then s else lineBack s st l)

/-- WB: the written-back line is applied and answers a RECALL; WB_ACK follows (R471, R472). -/
def execWb (line : Nat) (poisoned : Bool) (data : List Byte) (s : State) : Host.Outcome State Fault Refusal :=
  .next (match homeLine s line with
    | none => s
    | some (st, l) =>
      if !(dirOf s st l).held || data.length != 64 then s
      else lineBack (((applyLine s st l 0 data poisoned []).count ovCtx 6 64).emit (.coh (.wbAck line))) st l)

/-- EVICT: the twin has dropped the line; it answers an INV that crossed it (R471, R472). -/
def execEvict (line : Nat) (s : State) : Host.Outcome State Fault Refusal :=
  .next (match homeLine s line with
    | none => s
    | some (st, l) => if (dirOf s st l).held then lineBack s st l else s)

/-- The twin is lost: every line it held modified is poisoned, every entry cleared, and what waited for the twin goes on (R204). -/
def clearDirs (s : State) : State :=
  (List.range 12).foldl (fun s st =>
    let b := s.bdie st
    let bad := (b.dir.filter fun e => e.2.modified).map (·.1)
    let own (j : LineJob) : Bool := match j with | .write _ _ _ => true | .read => true | _ => false
    let s1 := s.setBdie st { b with
      poison := bad.foldl (fun t l => tput t l true) b.poison, dir := [], waits := b.waits.map fun w => (w.1, w.2.filter own) }
    (b.waits.map (·.1)).foldl (fun s l => closeWait s st l) s1) s

/-! ### The line cache -/

/-- COH_DATA: the line is granted (R471). A line granted modified without its data and no longer wanted is given back at once. -/
def execCohData (line : Nat) (modified poison : Bool) (data : Option (List Byte)) (s : State) : Host.Outcome State Fault Refusal :=
  .next (
    let x := s.cline line
    if !x.asking then s
    else
      let blank := data.isNone && x.state == .I
      let y := { x with
        asking := false
        state := if modified then .M else .S
        data := data.getD x.data
        poison := if data.isSome then poison else x.poison }
      let s1 := advanceAll (s.useLine line y)
      let z := s1.cline line
      if blank && z.state == .M && z.data.isEmpty then (s1.dropLine line).emit (.coh (.evict line)) else s1)

/-- INV: an S copy is dropped; where the line is not held the ACK says NODATA (R471, R472). -/
def execInv (line : Nat) (s : State) : Host.Outcome State Fault Refusal :=
  .next (
    let x := s.cline line
    if x.state = .S then
      (if x.asking then s.useLine line { CacheLine.reset with asking := true } else s.dropLine line).emit (.coh (.ack line false))
    else s.emit (.coh (.ack line true)))

/-- RECALL: an M copy is returned and dropped (R471, R472). -/
def execRecall (line : Nat) (s : State) : Host.Outcome State Fault Refusal :=
  .next (
    let x := s.cline line
    if x.state = .M then (s.dropLine line).emit (.coh (.wb line x.poison x.data)) else s.emit (.coh (.ack line true)))

/-- WB_ACK: the writeback of an eviction has been applied (R471). -/
def execWbAck (line : Nat) (s : State) : Host.Outcome State Fault Refusal :=
  .next (if (s.cline line).evicting then advanceAll (s.dropLine line) else s)

end Sys2Proof.Machine
end

