-- ==== Sys2Proof/Machine/Beside.lean ====
section
/-!
DEFINITION. The Beside dies: rings (R186, R187, R192, R194, R196), BMV (R183 to R195), BATTN (R270, R297), BNOP, the partition map (R180) and the
scrubber (R209).
-/

namespace Sys2Proof.Machine

/-! ### Rings -/

/-- A ring of a die. -/
def State.ring (s : State) (d p : Nat) : Ring := tget Ring.reset (s.bdie d).rings p

/-- A ring of a die replaced. -/
def State.setRing (s : State) (d p : Nat) (x : Ring) : State := s.setBdie d { s.bdie d with rings := tput (s.bdie d).rings p x }

/-- Whether the beside engines of a die run: powered, clocked, and not halted by a whistle (R535, R607). -/
def besideRuns (s : State) (d p : Nat) : Bool := decide (d < 12 ∧ p < 16) && s.power.besideOn && s.power.state == .run && !s.whistled

/-- Fields common to the beside commands (R188, R270). -/
def bcOpc (b : List Byte) : Nat := ble b 0 1
def bcFlag (b : List Byte) (k : Nat) : Bool := nbits (ble b 1 1) k k = 1
def bcTag (b : List Byte) : Nat := ble b 2 2
def bcCtx (b : List Byte) : Nat := ble b 4 1
def bcSig (b : List Byte) : Nat := ble b 0x38 4

/-- The command at a ring's HEAD that may start (R187): the ring is RUNNING and, with WAIT, every earlier command has completed. -/
def ringHead (s : State) (d p : Nat) : Option (List Byte) :=
  let r := s.ring d p
  let b := mread 0 r.sram (64 * r.head.toNat) 64
  if besideRuns s d p && r.state == .running && r.head != r.tail && (!bcFlag b 0 || r.started.isEmpty) then some b else none

/-- A record of a beside command, in the OWNER starter's queue (R99, R192). -/
def ringRecord (s : State) (kind index cause : Nat) (b : List Byte) : Record where
  kind := kind
  col := 31
  slot := 0
  ctx := bcCtx b
  ring := index
  tag := bcTag b
  cause := cause
  cycle := s.fieldCycle

/-- Room in the OWNER starter's queue for some records. -/
def ringRoom (s : State) (d p n : Nat) : Bool := decide ((s.starter (s.ring d p).owner.toNat).queue.length + n ≤ 1024)

/-- A record written to the OWNER starter's queue. -/
def ringPut (s : State) (d p : Nat) (r : Record) : State :=
  let k := (s.ring d p).owner.toNat
  s.setStarter k { s.starter k with queue := (s.starter k).queue ++ [r] }

/-- A command faulted by the checks before its start: it writes a FAULT record and its ring stops (R194). It waits while the queue is full. -/
def ringFault (s : State) (d p : Nat) (b : List Byte) (cause : Nat) : State :=
  let r := s.ring d p
  if ringRoom s d p 1 then
    ringPut (s.setRing d p { r with state := .stopped }) d p (ringRecord s kFAULT r.head.toNat cause b)
  else s

/-- A command started: HEAD moves past it. -/
def ringStart (s : State) (d p : Nat) (b : List Byte) (poisoned : Bool) (lines : List (Nat × Nat)) : State :=
  let r := s.ring d p
  s.setRing d p { r with head := r.head + 1, started := r.started ++ [⟨r.head.toNat, b, poisoned, lines⟩] }

/-- BSD_RING_TAIL_WRITE: TAIL written by the OWNER starter of an enabled ring starts it; any other starter's write is ignored (R196). -/
def execBsdRingTailWrite (die part starter tail : Nat) (s : State) : Host.Outcome State Fault Refusal :=
  .next (
    let r := s.ring die part
    if 12 ≤ die ∨ 16 ≤ part ∨ !s.power.besideOn ∨ !r.en ∨ r.owner.toNat ≠ starter then s
    else
      let t := BitVec.ofNat 8 tail
      s.setRing die part { r with tail := t, state := if r.state = .idle ∧ t ≠ r.head then .running else r.state })

/-- BSD_RING_CLEAR: a STOPPED ring becomes IDLE with HEAD = TAIL (R196). -/
def execBsdRingClear (die part starter : Nat) (s : State) : Host.Outcome State Fault Refusal :=
  .next (
    let r := s.ring die part
    if 12 ≤ die ∨ 16 ≤ part ∨ !s.power.besideOn ∨ r.state ≠ .stopped ∨ r.owner.toNat ≠ starter then s
    else s.setRing die part { r with state := .idle, head := r.tail })

/-- The signal of a completed beside command (R192): one more on the hurdle its SIG names. -/
def bcSignal (s : State) (b : List Byte) : State :=
  let core := nbits (bcSig b) 10 0
  let k := nbits (bcSig b) 12 11
  let h := nbits (bcSig b) 18 13
  let x := s.slot core k
  if !bcFlag b 5 || !s.coreOk core || !s.power.fieldOn || x.state == .unbound then s
  else if x.hcount ≤ h then slotFault s core k fcHURDLE_RANGE none 0 false
  else hurdleAdd s core (x.hbase + h) 1 none

/-- BESIDE_COMMAND_COMPLETE: the command's effect is whole, its signal and mark are applied, and a command that met poison writes its FAULT
record (R192, R195). A ring with nothing left is IDLE. -/
def execBesideCommandComplete (die part index : Nat) (s : State) : Host.Outcome State Fault Refusal :=
  .next (
    let r := s.ring die part
    match r.started.find? (·.index == index) with
    | none => s
    | some c =>
      let mark := bcFlag c.words 6
      if !besideRuns s die part || !c.lines.isEmpty || !ringRoom s die part (b2n mark + b2n c.poisoned) then s
      else
        let rest := r.started.filter (·.index != index)
        let s1 := s.setRing die part { r with
          started := rest, state := if r.state = .running ∧ rest.isEmpty ∧ r.head = r.tail then .idle else r.state }
        let s2 := bcSignal s1 c.words
        let s3 := if mark then ringPut s2 die part (ringRecord s2 kMARK index 0 c.words) else s2
        if c.poisoned then ringPut s3 die part (ringRecord s3 kFAULT index fcNEAR_POISON c.words) else s3)

/-! ### BNOP -/

/-- BNOP does nothing (R183). An entry whose opcode is none of the three is faulted with BAD_OPERAND here (R194). -/
def execBnop (die part : Nat) (s : State) : Host.Outcome State Fault Refusal :=
  .next (match ringHead s die part with
    | none => s
    | some b =>
      if bcOpc b = 3 then ringStart s die part b false []
      else if bcOpc b = 1 ∨ bcOpc b = 2 then s
      else ringFault s die part b fcBAD_OPERAND)

/-! ### BMV -/

/-- A byte of a partition's near space. -/
def nearRd (s : State) (p : Nat) (na : Nat) : Nat := (mget 0 (s.bdie (naStack na)).mem (physOff s p na)).toNat

def bmAbf (b : List Byte) : Bool := bcFlag b 1
def bmOutl (b : List Byte) : Bool := bcFlag b 2
def bmGlu (b : List Byte) : Bool := bcFlag b 4
def bmWfmt (b : List Byte) : Nat := ble b 5 1 % 16
def bmOfmt (b : List Byte) : Nat := ble b 5 1 / 16
def bmActfn (b : List Byte) : Nat := ble b 6 1
def bmM (b : List Byte) : Nat := ble b 7 1
def bmEng (b : List Byte) : Nat := ble b 8 8
def bmWgt (b : List Byte) : Nat := ble b 0x10 5
def bmScale (b : List Byte) : Nat := ble b 0x15 5
def bmOutlA (b : List Byte) : Nat := ble b 0x1A 5
def bmAct (b : List Byte) : Nat := ble b 0x1F 5
def bmDst (b : List Byte) : Nat := ble b 0x24 5
def bmBias (b : List Byte) : Nat := ble b 0x29 5
def bmK (b : List Byte) : Nat := ble b 0x2E 2
def bmN (b : List Byte) : Nat := ble b 0x30 2
def bmAs (b : List Byte) : Nat := ble b 0x32 3
def bmDs (b : List Byte) : Nat := ble b 0x35 3

/-- Whether a BMV has work: with M = 0 or N = 0 it has none (R189). -/
def bmWork (b : List Byte) : Bool := bmM b != 0 && bmN b != 0
/-- Column groups, and groups of output columns. -/
def bmGroups (b : List Byte) : Nat := bmN b / 64
def bmOutGroups (b : List Byte) : Nat := if bmGlu b then bmGroups b / 2 else bmGroups b
/-- Bytes of an activation row and of an output row. -/
def bmActBytes (b : List Byte) : Nat := bmK b * (1 + b2n (bmAbf b))
def bmOutBytes (b : List Byte) : Nat := bmOutGroups b * 64 * outBytes (bmOfmt b)

/-- Whether a BMV's fields are refused before any address is looked at (R188, R194). An unused address is not checked (R649). -/
def bmBad (b : List Byte) : Bool :=
  bcFlag b 7 || decide (bmWfmt b < 3 ∨ 9 < bmWfmt b ∨ 2 < bmOfmt b ∨ 3 < bmActfn b ∨ 64 < bmM b) || bmK b % 32 != 0 || bmN b % 64 != 0 ||
  decide (65504 < bmK b ∨ 65472 < bmN b) || (bmGlu b && bmN b % 128 != 0) || bmAs b % 64 != 0 || bmDs b % 64 != 0 ||
  decide (2 ^ 19 ≤ bcSig b) || !allZero b 0x3C 4 || (bmWork b && bmEng b == 0) ||
  (bmWork b && (!al64 (bmDst b) || (bcFlag b 3 && !al64 (bmBias b)) ||
    (bmK b != 0 && (!al64 (bmWgt b) || !al64 (bmScale b) || !al64 (bmAct b) || (bmOutl b && !al64 (bmOutlA b))))))

/-- The near ranges a BMV reads for its weights, given its block widths: address and length. -/
def bmWeightRanges (b : List Byte) (ws : List Nat) : List (Nat × Nat) :=
  if bmK b = 0 then []
  else
    let g := bmGroups b
    [(bmWgt b, g * groupBytes ws), (bmScale b, scaleBase (bmWfmt b) (bmScale b) (bmK b) - bmScale b + g * (bmK b / 32) * 64)] ++
    (if bmOutl b then [(bmOutlA b, g * ceilDiv (bmK b) 256 * outlierBytes)] else [])

/-- The near ranges of its activation rows, its bias and its output rows. -/
def bmActRanges (b : List Byte) : List (Nat × Nat) := (List.range (bmM b)).map fun m => (bmAct b + m * bmAs b, bmActBytes b)
def bmBiasRange (b : List Byte) : List (Nat × Nat) := if bcFlag b 3 then [(bmBias b, 4 * bmN b)] else []
def bmDstRanges (b : List Byte) : List (Nat × Nat) := (List.range (bmM b)).map fun m => (bmDst b + m * bmDs b, bmOutBytes b)

/-- Block widths of a BMV's tile. -/
def bmWidths (s : State) (p : Nat) (b : List Byte) : List Nat := tileWidths (nearRd s p) (bmWfmt b) (bmScale b) (bmK b / 32)

/-- The width map of a mixed tile, before which no width is known. -/
def bmMapRange (b : List Byte) : List (Nat × Nat) := if bmWfmt b = 9 ∧ bmK b ≠ 0 then [(bmScale b, 64 * ceilDiv (bmK b) 4096)] else []

/-- The causes of a BMV's addresses (R179, R194, R246): its weights in its own stack, everything reachable, nothing written protected. -/
def bmRangeCauses (s : State) (d p : Nat) (b : List Byte) (weights : List (Nat × Nat)) : List Nat :=
  let bad := weights.any fun r => r.2 != 0 && naStack r.1 != d
  let far := (weights ++ bmActRanges b ++ bmBiasRange b ++ bmDstRanges b).any fun r => !nearOk s p r.1 r.2
  let wp := (bmDstRanges b).any fun r => nearOk s p r.1 r.2 && wpHit s p r.1 r.2
  (if bad then [fcBAD_OPERAND] else []) ++ (if far || wp then [fcNEAR_RANGE] else [])

/-- The causes for which a BMV does not start (R194), its tile's widths and outlier records included (R123, R126). -/
def bmCauses (s : State) (d p : Nat) (b : List Byte) : List Nat :=
  if bmBad b then [fcBAD_OPERAND]
  else if !bmWork b then []
  else
    let m := bmRangeCauses s d p b (bmMapRange b)
    if !m.isEmpty then m
    else
      let ws := bmWidths s p b
      if ws.any (· == 0) then [fcBAD_OPERAND]
      else
        let r := bmRangeCauses s d p b (bmWeightRanges b ws)
        if !r.isEmpty then r
        else if bmOutl b ∧ bmK b ≠ 0 ∧ (List.range (bmGroups b)).any (fun g => (List.range (ceilDiv (bmK b) 256)).any fun j =>
            outlierBad (nearRd s p) (outlierAt (bmOutlA b) (bmK b) g j) (bmK b) j) then [fcBAD_OPERAND]
        else []

/-- One column group of one activation row (R184): FP32 codes of the product. -/
def bmProduct (s : State) (p : Nat) (b : List Byte) (ws : List Nat) (g m : Nat) : List Nat :=
  if bmK b = 0 then List.replicate 64 0
  else
    let rd := nearRd s p
    (groupRow (actNum rd (bmAct b + m * bmAs b) (bmAbf b)) rd (bmWgt b) (scaleBase (bmWfmt b) (bmScale b) (bmK b)) ws (bmAbf b)
      (if bmOutl b then some (bmOutlA b) else none) g (fun _ => 0)).map (·.1)

/-- The epilogue of a column in FP32: bias, then an activation function (R184). -/
def bmEpi (s : State) (p : Nat) (b : List Byte) (fn g c v : Nat) : Nat :=
  (epilogue fn (if bcFlag b 3 then some (leNat ((List.range 4).map fun i => BitVec.ofNat 8 (nearRd s p (bmBias b + 4 * (64 * g + c) + i)))) else none) v).1

/-- One output group of one row: 64 columns in OFMT (R184, R189, R191). -/
def bmOut (s : State) (p : Nat) (b : List Byte) (ws : List Nat) (g m : Nat) : List Byte :=
  let enc (c : Nat) : List Byte := leBytes (outBytes (bmOfmt b)) (encode (bmOfmt b) none (dec32 c)).1
  if bmGlu b then
    let x := bmProduct s p b ws (2 * g) m
    let y := bmProduct s p b ws (2 * g + 1) m
    (List.range 64).flatMap fun c =>
      enc (round32 (mulNum (dec32 (bmEpi s p b (bmActfn b) (2 * g) c (nth 0 x c))) (dec32 (bmEpi s p b 0 (2 * g + 1) c (nth 0 y c))))).1
  else
    let x := bmProduct s p b ws g m
    (List.range 64).flatMap fun c => enc (bmEpi s p b (bmActfn b) g c (nth 0 x c))

/-- The ranges one column group reads beside the activations: elements, scales, outlier records, bias. -/
def bmGroupRanges (b : List Byte) (ws : List Nat) (g : Nat) : List (Nat × Nat) :=
  (if bmK b = 0 then [] else
    [(bmWgt b + g * groupBytes ws, groupBytes ws), (scaleBase (bmWfmt b) (bmScale b) (bmK b) + g * ws.length * 64, ws.length * 64)] ++
    bmMapRange b ++ (if bmOutl b then [(outlierAt (bmOutlA b) (bmK b) g 0, ceilDiv (bmK b) 256 * outlierBytes)] else [])) ++
  (if bcFlag b 3 then [(bmBias b + 256 * g, 256)] else [])

/-- Whether some near range holds a poisoned line. -/
def anyPoison (s : State) (p : Nat) (rs : List (Nat × Nat)) : Bool :=
  rs.any fun r => (linesOf (physOff s p r.1) r.2).any fun l => tget false (s.bdie (naStack r.1)).poison l

/-- Beside cycles in which one engine computes one column group (R193). -/
def bmCycles (b : List Byte) : Nat :=
  ceilDiv (bmM b) 16 * bmK b * (1 + b2n (bmAbf b)) + (if bmOutl b then ceilDiv (bmM b) 16 * 8 * ceilDiv (bmK b) 256 else 0)

/-- The engines of ENGMASK in ascending order. -/
def bmEngines (b : List Byte) : List Nat := (List.range 64).filter fun e => nbits (bmEng b) e e = 1

/-- BUSY cycles of the engines a BMV uses (R190, R614), and its activity (R513). -/
def bmCount (s : State) (d : Nat) (b : List Byte) (bytes : Nat) : State :=
  let es := bmEngines b
  let c := es.length
  let per := if bmGlu b then 2 else 1
  let n := bmOutGroups b
  let die := s.bdie d
  let s1 := s.setBdie d { die with
    bsdBytes := die.bsdBytes + bytes
    engCtr := (List.range c).foldl (fun t j =>
      let k := ((j + 1) * n / c - j * n / c) * per * bmCycles b
      if k = 0 then t else tput t (nth 0 es j * 3) (tget 0 t (nth 0 es j * 3) + k)) die.engCtr }
  (s1.count (bcCtx b) 5 (bmGroups b * bmCycles b)).count (bcCtx b) 6 bytes

/-- A BMV whose checks have passed runs: every output row is written, the lines of a column group that met poison as poisoned lines (R191, R195). -/
def bmRun (s : State) (d p : Nat) (b : List Byte) (errs : List EccErr) : State :=
  let ws := bmWidths s p b
  let reads := bmWeightRanges b ws ++ (if bmK b = 0 then [] else bmActRanges b) ++ bmBiasRange b
  let s1 := (checkRanges s p reads errs).1
  let actBad := bmK b != 0 && anyPoison s1 p (bmActRanges b)
  let bad (g : Nat) : Bool := actBad || anyPoison s1 p (if bmGlu b then bmGroupRanges b ws (2 * g) ++ bmGroupRanges b ws (2 * g + 1) else bmGroupRanges b ws g)
  let w := 64 * outBytes (bmOfmt b)
  let outs := (List.range (bmOutGroups b)).flatMap fun g => (List.range (bmM b)).map fun m =>
    (bmDst b + m * bmDs b + g * w, bmOut s1 p b ws g m, bad g)
  let r := outs.foldl (fun (r : State × List (Nat × Nat)) o =>
    let q := nearWrite r.1 p o.1 o.2.1 o.2.2 []
    (q.1, r.2 ++ q.2)) (s1, [])
  ringStart (bmCount r.1 d b (reads.foldl (fun a x => a + x.2) 0 + bmM b * bmOutBytes b)) d p b
    ((List.range (bmOutGroups b)).any bad) r.2

/-- BMV (R184, R187): the ring's next command starts, once no line it reads is modified in the twin's cache (R470). -/
def execBmv (die part : Nat) (errs : List EccErr) (s : State) : Host.Outcome State Fault Refusal :=
  .next (match ringHead s die part with
    | none => s
    | some b =>
      if bcOpc b ≠ 1 then s
      else match pickOne s (bmCauses s die part b) with
        | some (f, s1) => ringFault s1 die part b f
        | none =>
          if !bmWork b then ringStart s die part b false []
          else
            let held := heldLines s part (bmWeightRanges b (bmWidths s part b) ++ bmActRanges b ++ bmBiasRange b) false
            if held.isEmpty then bmRun s die part b errs else probeLines s held)

/-! ### BATTN -/

/-- The near address of a BATTN's block, and its first engine (R270). -/
def baBlock (b : List Byte) : Nat := ble b 8 5
def baEng0 (b : List Byte) : Nat := ble b 5 1

/-- `n` bytes of a partition's near space. -/
def nearBytesAt (s : State) (p na n : Nat) : List Byte := stackRead s (naStack na) (physOff s p na) n

/-- The attention block a BATTN reads, and its descriptor list. -/
def baRead (s : State) (p : Nat) (b : List Byte) : List Byte := nearBytesAt s p (baBlock b) 128
def baList (s : State) (p : Nat) (a : List Byte) : List (List Byte) :=
  (List.range (abNpages a)).map fun i => nearBytesAt s p (abPlist a + 16 * i) 16

/-- Whether a BATTN's own entry is refused (R194, R270). -/
def baBad (b : List Byte) : Bool :=
  nbits (ble b 1 1) 4 1 != 0 || bcFlag b 7 || decide (63 < baEng0 b) || !allZero b 6 2 || !allZero b 0x0D 43 || decide (2 ^ 19 ≤ bcSig b) ||
  !allZero b 0x3C 4 || !al64 (baBlock b)

/-- The near ranges a BATTN's block names that it writes: its output rows and its result record. -/
def baWrites (a : List Byte) : List (Nat × Nat) :=
  (List.range (abRows a)).map (fun r => (abOut a + r * abOs a, abD a * outBytes (abOfmt a))) ++ [(abRes a, 64)]

/-- The causes of a BATTN whose block can be read (R179, R194, R246, R266, R270). -/
def baCauses (s : State) (d p : Nat) (b a : List Byte) : List Nat :=
  if abBad a (2 ^ 40) || decide (16 < abNq a ∨ 64 < abRows a ∨ 64 < baEng0 b + ceilDiv (abRows a) 16) then [fcBAD_OPERAND]
  else if abNq a = 0 ∧ abNa a = 0 then
    (if nearOk s p (abRes a) 64 && !wpHit s p (abRes a) 64 then [] else [fcNEAR_RANGE])
  else if !(abRanges a).all (fun r => nearOk s p r.1 r.2) || (baWrites a).any (fun r => wpHit s p r.1 r.2) then [fcNEAR_RANGE]
  else
    let l := baList s p a
    let first := abClen a + abPlen a
    let reach := l.all fun x =>
      let n := kvPageBytes (dFmt x) (abD a)
      nearOk s p (dAddr x) n && !(decide (0 < abNa a) && decide (first < dPos0 x + dFill x) && wpHit s p (dAddr x) n)
    if listBad a l ((s.part p).kvFrame * 1024) (2 ^ 40) then [fcKV_PAGE]
    else (if l.any fun x => naStack (dAddr x) != d then [fcBAD_OPERAND] else []) ++ (if reach then [] else [fcNEAR_RANGE])

/-- The near ranges of one page's first `n` rows. -/
def baPageRanges (a x : List Byte) (n : Nat) : List (Nat × Nat) := (kvRowRanges (dFmt x) (abD a) 0 n).map fun r => (dAddr x + r.1, r.2)

/-- Whether a query row met poison: its own operand, the block, the list, or a line of its visible positions (R195, R297). -/
def baRowPoison (s : State) (p : Nat) (b a : List Byte) (l : List (List Byte)) (r : Nat) : Bool :=
  anyPoison s p ([(baBlock b, 128), (abPlist a, 16 * abNpages a), (abQ a + r * abQs a, abD a * outBytes (abQfmt a))] ++
    l.flatMap fun x => baPageRanges a x (min (dFill x) (visible a r - dPos0 x)))

/-- A BATTN whose checks have passed: the appends, the output rows and the result record are written (R271 to R276, R297). -/
def baRun (s : State) (d p : Nat) (b a : List Byte) (errs : List EccErr) : State :=
  let l := baList s p a
  let pages := if abNq a = 0 then [] else l.flatMap fun x => baPageRanges a x (dFill x)
  let ins := [(baBlock b, 128), (abPlist a, 16 * abNpages a)] ++ (List.range (abRows a)).map (fun r => (abQ a + r * abQs a, abD a * outBytes (abQfmt a))) ++
    (List.range (abNa a)).flatMap fun i => [(abNewK a + i * abNs a, abD a * outBytes (abNfmt a)), (abNewV a + i * abNs a, abD a * outBytes (abNfmt a))]
  let s1 := (checkRanges s p (ins ++ pages) errs).1
  let newBad := anyPoison s1 p ((List.range (abNa a)).flatMap fun i =>
    [(abNewK a + i * abNs a, abD a * outBytes (abNfmt a)), (abNewV a + i * abNs a, abD a * outBytes (abNfmt a))])
  let ap := kvAppends a l (newRow a (nearRd s1 p))
  let w1 := ap.1.foldl (fun (r : State × List (Nat × Nat)) w =>
    let q := nearWrite r.1 p (dAddr (nth [] l w.1) + w.2.1) w.2.2 newBad errs
    (q.1, r.2 ++ q.2)) (s1, [])
  let s2 := w1.1
  let rows := attendAll a l (queryNum a (nearRd s2 p)) (l.map fun x => pageRd s2 p (dAddr x))
  let bad (r : Nat) : Bool := baRowPoison s2 p b a l r || (newBad && decide (0 < abNa a))
  let anyBad := (List.range (abRows a)).any bad || newBad
  let w2 := (List.range (abRows a)).foldl (fun (r : State × List (Nat × Nat)) i =>
    let q := nearWrite r.1 p (abOut a + i * abOs a) (nth ([], false, false, 0) rows i).1 (bad i) []
    (q.1, r.2 ++ q.2)) w1
  let w3 := nearWrite w2.1 p (abRes a) (attnRecord a l rows) false []
  let bytes := (ins ++ pages).foldl (fun n x => n + x.2) 0
  let die := w3.1.bdie d
  let s3 := countKv (w3.1.setBdie d { die with bsdBytes := die.bsdBytes + bytes }) p (dAddr (nth [] l 0)) (bcCtx b) 6 bytes
  ringStart (mirrorAppends s3 p a l (l.map dAddr)) d p b anyBad (w2.2 ++ w3.2)

/-- The near ranges a BATTN reads, for the directory. -/
def baReads (s : State) (p : Nat) (b a : List Byte) : List (Nat × Nat) :=
  (baBlock b, 128) :: (abRanges a ++ (baList s p a).map fun x => (dAddr x, kvPageBytes (dFmt x) (abD a)))

/-- BATTN (R270): the ring's next command starts, once no line it reads is modified in the twin's cache (R470), nor one of a page it appends to
held there at all. -/
def execBattn (die part : Nat) (errs : List EccErr) (s : State) : Host.Outcome State Fault Refusal :=
  .next (match ringHead s die part with
    | none => s
    | some b =>
      if bcOpc b ≠ 2 then s
      else if baBad b then ringFault s die part b fcBAD_OPERAND
      else if !nearOk s part (baBlock b) 128 then ringFault s die part b fcNEAR_RANGE
      else
        let a := baRead s part b
        match pickOne s (baCauses s die part b a) with
        | some (f, s1) => ringFault s1 die part b f
        | none =>
          if abNq a = 0 ∧ abNa a = 0 then
            let w := nearWrite s part (abRes a) (attnRecord a [] []) false []
            ringStart w.1 die part b false w.2
          else
            let held := heldLines s part (baReads s part b a) (decide (0 < abNa a))
            if held.isEmpty then baRun s die part b a errs else probeLines s held)

/-! ### The partition map and the scrubber -/

/-- Whether some slot of the package is bound for a partition. -/
def partBound (s : State) (p : Nat) : Bool :=
  s.cores.any fun e => (List.range 4).any fun k => (e.2.slot k).state != .unbound && corePart s e.1 == p

/-- Whether a partition's map entry may be written: no bound slot, its beside rings IDLE (R180). -/
def mapWritable (s : State) (p : Nat) : Bool :=
  !partBound s p && (List.range 12).all fun d => (s.ring d p).state == .idle

/-- Whether a captain refuses a map entry (R180): it overlaps another partition's range, starts below 128 units or ends past the stack. -/
def mapRefused (s : State) (d p : Nat) (w : Word64) : Bool :=
  mapEn w && (decide (mapBase w < 128 ∨ 32768 < mapBase w + mapSize w) ||
    (List.range 16).any fun q =>
      let v := mapWord s q d
      q != p && mapEn v && overlap (mapBase w) (mapSize w) (mapBase v) (mapSize v))

/-- BSD_PART_MAP_WRITE (R180). -/
def execBsdPartMapWrite (die part : Nat) (value : Word64) (s : State) : Host.Outcome State Fault Refusal :=
  .next (
    if 12 ≤ die ∨ 16 ≤ part ∨ !s.power.besideOn ∨ !mapWritable s part ∨ mapRefused s die part value then s
    else
      let w := mkWord [(0, bits value 1 0), (16, bits value 30 16), (32, bits value 46 32)]
      s.setBdie die { s.bdie die with map := tput (s.bdie die).map part w })

/-- Lines of a stack: 64 GiB. -/
def stackLines : Nat := 2 ^ 30

/-- SCRUB: the scrubber reads the next line through the check code (R206, R209). SCRUB_H = 0 disables it; self-refresh pauses it. -/
def execScrub (die : Nat) (errs : List EccErr) (s : State) : Host.Outcome State Fault Refusal :=
  .next (
    if 12 ≤ die ∨ !s.power.besideOn ∨ s.scrubH die = 0 ∨ s.power.state = .rest ∨ s.power.state = .dormant then s
    else
      let b := s.bdie die
      let s1 := checkLine s die b.scrubPos errs
      ((s1.setBdie die { s1.bdie die with scrubPos := (b.scrubPos + 1) % stackLines }).count ovCtx 6 64))

end Sys2Proof.Machine
end

