-- ==== Sys2Proof/Machine/Serve.lean ====
section
/-!
DEFINITION. How a mailbox message is served: the catalogue's marks and lengths (R419 to R423), the checks every command passes first (R400, R418, R651),
and deferred commands (R411).
-/

namespace Sys2Proof.Machine

/-! ### The catalogue -/

/-- Who may send a type: any function, a partition's function (F), PF0 and the sideband (P), the sideband alone. -/
inductive Mark where
  | any | F | P | side
  deriving DecidableEq, Repr

/-- A command type: code, mark, whether the sideband carries it (S), whether it is deferred (D), its payload length when fixed. -/
structure MsgType where
  code : Nat
  mark : Mark
  side : Bool
  defer : Bool
  len : Option Nat
  deriving DecidableEq, Repr

def sysTypes : List MsgType :=
  [⟨0x0101, .any, true, false, some 0⟩, ⟨0x0102, .P, true, false, none⟩, ⟨0x0103, .P, true, false, none⟩, ⟨0x0104, .P, true, true, some 0⟩,
   ⟨0x0105, .P, true, false, some 24⟩, ⟨0x0106, .P, true, false, some 8⟩, ⟨0x0107, .P, true, false, some 8⟩, ⟨0x0108, .side, true, false, some 0⟩,
   ⟨0x0201, .P, false, true, some 120⟩, ⟨0x0202, .P, false, false, some 0⟩, ⟨0x0203, .F, false, true, some 0⟩, ⟨0x0204, .F, false, true, some 0⟩,
   ⟨0x0205, .F, false, true, some 0⟩, ⟨0x0206, .F, false, false, some 16⟩, ⟨0x0207, .F, false, false, some 8⟩, ⟨0x0208, .F, false, false, some 0⟩,
   ⟨0x020A, .F, false, false, some 8⟩]

def mdlTypes : List MsgType :=
  [⟨0x0301, .F, false, true, some 16⟩, ⟨0x0302, .F, false, false, some 16⟩, ⟨0x0303, .F, false, false, some 224⟩, ⟨0x0304, .F, false, true, some 8⟩,
   ⟨0x0305, .F, false, false, some 8⟩, ⟨0x0306, .F, false, true, some 16⟩, ⟨0x0307, .F, false, true, some 16⟩, ⟨0x0308, .F, false, false, some 16⟩,
   ⟨0x0309, .F, false, true, some 16⟩, ⟨0x030A, .F, false, false, some 8⟩, ⟨0x030B, .F, false, false, some 8⟩, ⟨0x030C, .F, false, false, some 8⟩,
   ⟨0x0401, .F, false, false, some 24⟩, ⟨0x0402, .F, false, true, some 32⟩, ⟨0x0403, .F, false, true, some 32⟩, ⟨0x0404, .F, false, false, some 8⟩,
   ⟨0x0405, .F, false, false, some 8⟩, ⟨0x0406, .F, false, false, some 8⟩]

def reqTypes : List MsgType :=
  [⟨0x0501, .F, false, false, none⟩, ⟨0x0502, .F, false, false, some 8⟩, ⟨0x0503, .F, false, false, some 8⟩, ⟨0x0504, .F, false, false, some 8⟩,
   ⟨0x0505, .F, false, false, some 8⟩, ⟨0x0506, .F, false, false, some 8⟩, ⟨0x0601, .F, false, true, some 24⟩, ⟨0x0602, .F, false, true, some 24⟩,
   ⟨0x0701, .P, true, false, some 8⟩, ⟨0x0702, .P, true, false, some 8⟩, ⟨0x0703, .P, true, false, some 0⟩, ⟨0x0704, .F, false, false, some 8⟩,
   ⟨0x0801, .P, false, true, some 144⟩, ⟨0x0802, .P, true, false, some 0⟩, ⟨0x0803, .P, true, false, some 0⟩, ⟨0x0804, .P, false, false, some 8⟩,
   ⟨0x0901, .P, true, false, some 8⟩, ⟨0x0902, .P, false, false, some 0⟩, ⟨0x0903, .P, false, false, some 32⟩]

/-- The type a code names. -/
def msgType (code : Nat) : Option MsgType := (sysTypes ++ mdlTypes ++ reqTypes).find? (·.code == code)

/-- Whether a payload's length is the one its type requires (R420 to R423). -/
def lengthOk (t : MsgType) (l : List Byte) : Bool :=
  match t.len with
  | some n => l.length == n
  | none => decide (l.length ≤ 4096) &&
    if t.code = 0x0102 then decide (8 ≤ l.length) && l.length == 8 + 2 * ble l 0 2
    else if t.code = 0x0103 then decide (8 ≤ l.length) && l.length == 8 + 16 * ble l 0 2
    else decide (128 ≤ l.length) && l.length == 128 + (if nbits (ble l 1 1) 0 0 = 1 then 0 else 4 * ble l 0x14 4)

/-- The reserved bytes of a type's payload: offset and length (R420 to R423). -/
def reservedBytes (code : Nat) (l : List Byte) : List (Nat × Nat) :=
  match code with
  | 0x0102 => [(2, 6)]
  | 0x0103 => (2, 6) :: (List.range (ble l 0 2)).map fun i => (8 + 16 * i + 2, 6)
  | 0x0105 => [(2, 6)]
  | 0x0106 => [(2, 6)]
  | 0x0107 => [(1, 7)]
  | 0x0201 => [(0x1A, 2), (0x24, 12)]
  | 0x0206 => [(10, 6)]
  | 0x0207 => [(1, 7)]
  | 0x020A => [(1, 7)]
  | 0x0301 => [(12, 4)]
  | 0x0302 => [(12, 4)]
  | 0x0303 => [(13, 1), (16 + 196, 12)]
  | 0x0304 => [(2, 6)]
  | 0x0305 => [(2, 6)]
  | 0x0306 => [(12, 4)]
  | 0x0307 => [(14, 2)]
  | 0x0308 => [(12, 4)]
  | 0x0309 => [(5, 3), (14, 2)]
  | 0x030A => [(1, 1)]
  | 0x030B => [(1, 1)]
  | 0x030C => [(1, 1), (4, 4)]
  | 0x0401 => [(2, 6)]
  | 0x0402 => [(0x1C, 4)]
  | 0x0403 => [(0x1C, 4)]
  | 0x0501 => [(0x0F, 1), (0x50, 48)]
  | 0x0502 => [(4, 4)]
  | 0x0503 => [(4, 4)]
  | 0x0504 => [(4, 4)]
  | 0x0505 => [(4, 4)]
  | 0x0506 => [(4, 4)]
  | 0x0601 => [(0x14, 4)]
  | 0x0602 => [(0x14, 4)]
  | 0x0701 => [(2, 6)]
  | 0x0702 => [(1, 1), (4, 4)]
  | 0x0704 => [(4, 4)]
  | 0x0804 => [(2, 6)]
  | 0x0901 => [(1, 1), (4, 4)]
  | 0x0903 => [(1, 3), (0x1C, 4)]
  | _ => []

/-- The reserved bits of fields that share a byte with others: offset, width in bytes, low and high bit. -/
def reservedBits (code : Nat) : List (Nat × Nat × Nat × Nat) :=
  match code with
  | 0x0201 => [(4, 2, 12, 15)]
  | 0x0303 => [(0x0C, 1, 3, 7), (0x0E, 2, 10, 14)]
  | 0x0307 => [(0x0C, 2, 13, 15)]
  | 0x0309 => [(2, 2, 13, 15)]
  | 0x0501 => [(1, 1, 2, 7), (2, 2, 12, 15)]
  | 0x0504 => [(1, 1, 1, 7)]
  | 0x0601 => [(0, 8, 40, 63)]
  | 0x0602 => [(0, 8, 40, 63)]
  | 0x0801 => (List.range 36).flatMap fun i => [(4 * i, 4, 2, 7), (4 * i, 4, 16, 31)]
  | _ => []

/-- Whether a message carries a nonzero reserved field (R418 check 5, R651). -/
def reservedSet (code : Nat) (m : Msg) : Bool :=
  m.resv || (reservedBytes code m.payload).any (fun r => !allZero m.payload r.1 r.2) ||
  (reservedBits code).any fun r => nbits (ble m.payload r.1 r.2.1) r.2.2.2 r.2.2.1 != 0

/-! ### Partitions of a message (R400) -/

/-- Whether a partition exists. -/
def partExists (s : State) (p : Nat) : Bool := decide (p < 16) && (s.part p).state != .free

/-- The partition a function serves. -/
def fnPart (s : State) (f : Nat) : Option Nat := (List.range 16).find? fun p => partExists s p && (s.part p).fn == f

/-- The function whose rights a path has: the sideband's are PF0's (R432). -/
def pathFn (path : Nat) : Nat := if path = 16 then 0 else path

/-- The partition a message acts on: 0xFF names the one its function serves. -/
def msgPart (s : State) (m : Msg) : Option Nat :=
  if m.part = 0xFF then fnPart s (pathFn m.path) else if partExists s m.part then some m.part else none

/-- The partition of a message whose checks have passed. -/
def mp (s : State) (m : Msg) : Nat := (msgPart s m).getD 0

/-- Whether PART is allowed (R400). -/
def partAllowed (s : State) (t : MsgType) (m : Msg) : Bool :=
  (pathFn m.path == 0 || m.part == 0xFF || some m.part == fnPart s m.path) &&
  (t.mark != .F || (msgPart s m).isSome) && (!(t.code == 0x0201 || t.code == 0x0202) || decide (m.part < 16))

/-! ### Serving -/

/-- The first failure of the checks 1 to 6 of R418. -/
def firstFailure (s : State) (code : Nat) (m : Msg) : Option Nat :=
  match msgType code with
  | none => some stBAD_TYPE
  | some t =>
    let permitted := if m.path = 16 then t.side else t.mark != .side && (t.mark != .P || m.path == 0)
    if !permitted then some stNOT_PERMITTED
    else if !partAllowed s t m then some stOUT_OF_PARTITION
    else if !lengthOk t m.payload then some stBAD_LENGTH
    else if reservedSet code m then some stBAD_FIELD
    else if s.mbx.resetting then some stRESET_PENDING
    else none

/-- The response to a message. -/
def reply (s : State) (code : Nat) (m : Msg) (status : Nat) (payload : List Byte) : State := respond s m.path code m.tag status payload

/-- A message served: its first failure is the response, otherwise its own body runs. With the oscillator dead nothing is (R632). -/
def serve (s : State) (code : Nat) (m : Msg) (body : State → Msg → State) : State :=
  if s.entry.oscDead then s
  else match firstFailure s code m with
  | some st => reply s code m st []
  | none => body s m

/-- Deferred commands in progress on a path. -/
def deferredOf (s : State) (path : Nat) : List Deferred := if path = 16 then s.mbx.sideDeferred else (s.fn path).deferred

/-- Deferred commands of a path replaced. -/
def setDeferred (s : State) (path : Nat) (l : List Deferred) : State :=
  if path = 16 then { s with mbx := { s.mbx with sideDeferred := l } } else s.setFn path { s.fn path with deferred := l }

/-- A deferred command begins: its own first checks have passed, and it goes on in the background (R411). -/
def beginDeferred (s : State) (code : Nat) (m : Msg) (note : Nat) : State := setDeferred s m.path (deferredOf s m.path ++ [⟨code, m, note⟩])

/-- A deferred message served: with 64 in progress on its function it fails with BUSY (R411). -/
def serveDeferred (s : State) (code : Nat) (m : Msg) (body : State → Msg → State) : State :=
  serve s code m fun s m => if 64 ≤ (deferredOf s m.path).length then reply s code m stBUSY [] else body s m

/-- A deferred command of a path and tag. -/
def findDeferred (s : State) (path : Nat) (tag : Word32) : Option Deferred := (deferredOf s path).find? (·.msg.tag == tag)

/-- A deferred command ends with its response. -/
def endDeferred (s : State) (d : Deferred) (status : Nat) (payload : List Byte) : State :=
  respond (setDeferred s d.msg.path ((deferredOf s d.msg.path).erase d)) d.msg.path d.type d.msg.tag status payload

/-! ### Host DMA (R428) -/

/-- Bytes the package wrote to host memory for a message: a completion error at a line ends the transfer before it. -/
def dmaOut (s : State) (path addr : Nat) (bytes : List Byte) (h : HostReply) : State × Bool :=
  match h.failAt with
  | some f => if f < bytes.length then (s.emit (.dma (pathFn path) addr (bytes.take (f / 64 * 64))), true) else (s.emit (.dma (pathFn path) addr bytes), false)
  | none => (s.emit (.dma (pathFn path) addr bytes), false)

/-- Bytes host memory gives the package, `n` asked for: those before the line that failed, and whether one did. -/
def dmaIn (h : HostReply) (n : Nat) : List Byte × Bool :=
  match h.failAt with
  | some f => if f < n then (bsub h.bytes 0 (f / 64 * 64), true) else (bsub h.bytes 0 n, false)
  | none => (bsub h.bytes 0 n, false)

/-! ### The capability record (R425, R426) -/

/-- The core map: bit 384d + 24r + c. -/
def coreMap (s : State) : List Byte :=
  leBytes 192 (((List.range 4).flatMap fun d => (List.range 16).flatMap fun r => (List.range 24).map fun c => (d, r, c)).foldl
    (fun a x => a + (if s.coreOk (coreAddr x.1 x.2.1 x.2.2) then 2 ^ (384 * x.1 + 24 * x.2.1 + x.2.2) else 0)) 0)

/-- Enabled Field cores. -/
def coreCount (s : State) : Nat := 1536 - (dedup (s.pkg.disabled.filter fun c => decide (c < 2048) && decide (coreCol c < 24))).length

/-- The capability record as a function receives it. -/
def capRecord (s : State) (fn : Nat) : List Byte :=
  let ig := s.settings.ignored.take 64
  leBytes 1 (match s.pkg.variant with | .A => 1 | .B => 2 | .C => 3) ++ leBytes 1 s.grade ++
  leBytes 1 (b2n s.hasNand + 2 * b2n s.hasCxl + 4 * b2n s.hasLockstep) ++ leBytes 1 fn ++ leBytes 1 ((fnPart s fn).getD 0xFF) ++ zeros 3 ++
  leBytes 8 s.pkg.serial ++ leBytes 4 s.boot.fwBoot ++ leBytes 4 s.boot.fwCapt ++ leBytes 4 (coreCount s) ++ leBytes 4 65536 ++ leBytes 2 4096 ++
  leBytes 1 16 ++ zeros 1 ++ leBytes 2 256 ++ leBytes 2 32768 ++ leBytes 4 262144 ++ leBytes 4 783360 ++
  leBytes 4 (if s.hasNand then 3276 else 0) ++ leBytes 1 s.mbx.linkWidth ++ leBytes 1 s.mbx.linkRate ++ zeros 10 ++ coreMap s ++
  leBytes 1 ig.length ++ zeros 7 ++ (List.range 64).flatMap (fun i => leBytes 2 (nth 0 ig i)) ++ zeros 8 ++
  (List.range 4).flatMap (fun i => match s.far.devs[i]? with
    | some d => leBytes 1 d.state ++ leBytes 1 d.lanes ++ leBytes 1 d.rate ++ zeros 1 ++ leBytes 4 d.usedGib ++ zeros 8
    | none => zeros 16) ++
  leBytes 4 s.far.farSeq ++ zeros 12

/-- SYS.CAPS_CHANGED on every enabled function (R426). -/
def capsChanged (s : State) : State :=
  (enabledFns s).foldl (fun s f => notify s f mCAPS_CHANGED 0 (leBytes 4 s.far.farSeq ++ zeros 4)) s

end Sys2Proof.Machine
end

