-- ==== Sys2Proof/Machine/Tiers.lean ====
section
/-!
DEFINITION. The far tiers (R211 to R224): CXL devices, the FTL, objects and their states, the TIR messages, and the MEM messages (R421, R428).
-/

namespace Sys2Proof.Machine

/-! ### Extents (R214, R224) -/

/-- 2 MiB extents of a number of bytes. NAND objects are counted in the same unit (log 26). -/
def extents (bytes : Nat) : Nat := ceilDiv bytes unit2M

/-- Extents free on each CXL device in use. -/
def devFree (s : State) : List Nat :=
  (List.range s.far.devs.length).map fun i =>
    match s.far.devs[i]? with
    | some d => if d.state = 1 then d.usedGib * 512 - (s.far.objs.filter fun o => o.2.present && o.2.tier == 1).foldl (fun a o => a + nth 0 o.2.devices i) 0 else 0
    | none => 0

/-- Extents dealt round-robin over devices with some free (R214): what each receives. Every round but the last fills a device. -/
def deal (fuel : Nat) (n : Nat) (free got : List Nat) : List Nat :=
  match fuel with
  | 0 => got
  | fuel + 1 =>
    let live := (List.range free.length).filter fun i => nth 0 free i != 0
    if n = 0 ∨ live.isEmpty then got
    else
      let k := live.length
      let m := live.foldl (fun a i => min a (nth 0 free i)) (n / k)
      if m = 0 then (List.range got.length).map fun i => nth 0 got i + b2n ((live.take n).contains i)
      else
        let add (i : Nat) : Nat := if live.contains i then m else 0
        deal fuel (n - k * m) ((List.range free.length).map fun i => nth 0 free i - add i) ((List.range got.length).map fun i => nth 0 got i + add i)

/-- Extents the NAND objects hold, and the NAND tier's extents: 3,276 GiB (R425). -/
def nandUsed (s : State) : Nat := (s.far.objs.filter fun o => o.2.present && o.2.tier == 2).foldl (fun a o => a + extents o.2.size) 0
def nandExtents : Nat := 3276 * 512

/-- Extents of a partition's objects in a tier, as its quota counts them (R224). -/
def partExtents (p : Part) (tier : Nat) : Nat := if tier = 1 then p.usedCxl else p.usedNand

/-- A partition's quota of a tier in extents: GiB × 512. -/
def quotaExtents (p : Part) (tier : Nat) : Nat := 512 * (if tier = 1 then p.quotaCxl else p.quotaNand)

/-- Extents charged to, or released from, a partition's quota. -/
def chargeQuota (s : State) (p tier : Nat) (f : Nat → Nat) : State :=
  let x := s.part p
  s.setPart p (if tier = 1 then { x with usedCxl := f x.usedCxl } else { x with usedNand := f x.usedNand })

/-! ### Objects -/

/-- Kinds (R221): 0 WEIGHT_IMAGE, 1 STREAM_PAGES, 2 PARKED_KV, 3 SUMMARY, 4 ADAPTER_IMAGE, 5 HOST. -/
def okWEIGHT : Nat := 0
def okSTREAM : Nat := 1
def okPARKED : Nat := 2
def okSUMMARY : Nat := 3
def okADAPTER : Nat := 4
def okHOST : Nat := 5

/-- The ID of a serial in a tier (R221). -/
def objId (tier serial : Nat) : Nat := tier * 2 ^ 62 + serial

/-- Whether a tier is present. -/
def tierPresent (s : State) (tier : Nat) : Bool := if tier = 1 then s.hasCxl else s.hasNand

/-- Whether an object of some size can be created in a tier (R219, R222, R224): space, quota and a table entry. -/
def canCreate (s : State) (p tier size : Nat) : Bool :=
  let n := extents size
  tierPresent s tier &&
  decide ((s.far.objs.filter fun o => o.2.present).length < 262144) && decide (partExtents (s.part p) tier + n ≤ quotaExtents (s.part p) tier) &&
  (if tier = 1 then decide (n ≤ (devFree s).foldl (· + ·) 0) else !s.far.readOnly && decide (nandUsed s + n ≤ nandExtents))

/-- An object created WRITING, its extents reserved (R222): its ID. -/
def objCreate (s : State) (p tier kind size ttl : Nat) : Option (State × Nat) :=
  if !canCreate s p tier size then none
  else
    let serial := if tier = 1 then s.far.serialCxl + 1 else s.far.serialNand + 1
    let id := objId tier serial
    let free := devFree s
    let x : Obj := { Obj.reset with
      present := true, tier := tier, kind := kind, part := p, size := size, ttl := ttl
      devices := if tier = 1 then deal 6 (extents size) free (free.map fun _ => 0) else [] }
    let s1 := s.setObj id x
    let s2 := { s1 with far := if tier = 1 then { s1.far with serialCxl := serial } else { s1.far with serialNand := serial } }
    some (chargeQuota s2 p tier (· + extents size), id)

/-- An object freed, its extents released (R222). Its ID is never used again (R221). -/
def objFree (s : State) (id : Nat) : State :=
  let o := s.obj id
  if o.present then
    chargeQuota { s with far := { s.far with objs := tdel s.far.objs id } } o.part o.tier (· - extents o.size)
  else s

/-- An object sealed: its deadline is set when it has a TTL (R222). -/
def objSeal (s : State) (id : Nat) : State :=
  let o := s.obj id
  if o.state = .writing then s.setObj id { o with state := .sealedObj, deadline := if o.ttl = 0 then 0 else s.aon + o.ttl } else s

/-- Bytes written into an object. -/
def objWrite (s : State) (id off : Nat) (l : List Byte) : State := s.setObj id { s.obj id with data := mwrite 0 (s.obj id).data off l }

/-- Bytes of an object. -/
def objRead (s : State) (id off n : Nat) : List Byte := mread 0 (s.obj id).data off n

/-- A park record that has expired or is DAMAGED is reported to its session's home (R285). -/
def recordGone (s : State) (id : Nat) : State :=
  (s.srv.maps.filter fun e => e.2.record == some id && !e.2.present).foldl (fun s e => s.send (.role e.2.home) (.dropReport e.1)) s

/-- An object damaged (R214, R218, R222): TIR.DAMAGED goes to the function of its partition. -/
def objDamage (s : State) (id : Nat) : State :=
  let o := s.obj id
  if !o.present || o.state == .damaged then s
  else notify (recordGone (s.setObj id { o with state := .damaged }) id) (s.part o.part).fn mDAMAGED 0 (leBytes 8 id ++ leBytes 1 o.kind ++ zeros 7)

/-- The status of a read of an object; OK when it is served (R222). -/
def readStatus (o : Obj) : Nat :=
  if !o.present then stOBJECT_UNKNOWN
  else match o.state with
    | .writing => stOBJECT_UNSEALED
    | .sealedObj => stOK
    | .expiring => if o.afterDelete then stOBJECT_SEALED else stTTL_EXPIRED
    | .damaged => stOBJECT_DAMAGED

/-! ### NAND blocks (R215 to R219) -/

/-- The blocks that hold some pages of 16 KiB of an object. -/
def blocksOf (s : State) (id off n : Nat) : List Nat :=
  if n = 0 then [] else (List.range ((off + n - 1) / 16384 + 1 - off / 16384)).map fun i => Config.nandBlock id (off / 16384 + i) s.far.moves

/-- One NAND block. -/
def State.block (s : State) (b : Nat) : NandBlock := tget NandBlock.reset s.far.blocks b

/-- One NAND block replaced. -/
def State.setBlock (s : State) (b : Nat) (x : NandBlock) : State := { s with far := { s.far with blocks := tput s.far.blocks b x } }

/-- Page reads of an object counted against its blocks, and the bytes against the FAR class (R216, R513). -/
def farReads (s : State) (ctx id off n : Nat) : State :=
  let s1 := if (s.obj id).tier = 2 then (blocksOf s id off n).foldl (fun s b => s.setBlock b { s.block b with reads := (s.block b).reads + 1, mapped := true }) s
    else s
  s1.count ctx 8 n

/-- Writes of an object: its blocks hold data written now. -/
def farWrites (s : State) (ctx id off n : Nat) : State :=
  let s1 := if (s.obj id).tier = 2 then (blocksOf s id off n).foldl (fun s b => s.setBlock b { s.block b with writtenAt := s.aon, mapped := true }) s
    else s
  s1.count ctx 8 n

/-- Blocks of the NAND tier: 32 dies of 1 Tbit in blocks of 24 MiB (R211, R215). -/
def nandBlocks : Nat := 32 * 131072 / 24

/-- A block's data moves to an erased one; the old block is erased. At the rated endurance it leaves the spare blocks, and READ_ONLY is set
once they fall below 1 % of all (R216, R217, R219). -/
def moveBlock (s : State) (block target : Nat) : State :=
  let b := s.block block
  let s1 := (s.setBlock target { s.block target with mapped := true, reads := 0, writtenAt := s.aon }).setBlock block
    { b with mapped := false, reads := 0, pe := b.pe + 1 }
  let spare := if 3000 ≤ b.pe + 1 then s.far.spareBlk - 1 else s.far.spareBlk
  { s1 with far := { s1.far with moves := s1.far.moves + 1, spareBlk := spare, readOnly := s1.far.readOnly || decide (spare * 100 < nandBlocks) } }

/-- Whether the FTL can move a block's data to another. -/
def canMove (s : State) (block target : Nat) : Bool :=
  s.hasNand && s.power.stewardOn && decide (block < nandBlocks ∧ target < nandBlocks) && block != target && (s.block block).mapped && !(s.block target).mapped

/-- FTL_RELOCATE: a read-disturbed block is relocated, at some time before its page reads reach RD_LIMIT (R216, R217). -/
def execFtlRelocate (block target : Nat) (s : State) : Host.Outcome State Fault Refusal :=
  .next (
    if canMove s block target && decide (0 < (s.block block).reads) then
      let s1 := moveBlock s block target
      { s1 with far := { s1.far with reloc := s1.far.reloc + 1 } }
    else s)

/-- FTL_REFRESH: a block is rewritten within its retention period (R216). -/
def execFtlRefresh (block target : Nat) (s : State) : Host.Outcome State Fault Refusal :=
  .next (if canMove s block target then moveBlock s block target else s)

/-! ### CXL devices (R212 to R214) -/

/-- Every object with an extent on a device becomes DAMAGED (R214). -/
def damageDev (s : State) (i : Nat) : State :=
  (tkeys (s.far.objs.filter fun o => o.2.present && o.2.tier == 1 && nth 0 o.2.devices i != 0)).foldl objDamage s

/-- The device table of an enumeration, 4 TiB at most in use, in ascending device order (R213). -/
def farTable (l : List FarFind) (left : Nat) : List FarDev :=
  match l with
  | [] => []
  | d :: r =>
    if !d.present then ⟨0, 0, 0, 0⟩ :: farTable r left
    else if !d.linkUp then ⟨3, 0, 0, 0⟩ :: farTable r left
    else if !d.supported then ⟨2, d.lanes, d.rate, 0⟩ :: farTable r left
    else ⟨1, d.lanes, d.rate, min d.capGib left⟩ :: farTable r (left - min d.capGib left)

/-- FAR_PORT_ENUMERATE: a device in use that is gone has damaged its objects; SYS.CAPS_CHANGED follows (R213, R214, R426). -/
def execFarPortEnumerate (found : List FarFind) (s : State) : Host.Outcome State Fault Refusal :=
  .next (
    if !s.hasCxl ∨ !s.power.portOn ∨ 4 < found.length then s
    else
      let t := farTable found 4096
      let lost := (List.range s.far.devs.length).filter fun i =>
        (match s.far.devs[i]? with | some d => d.state == 1 | none => false) && (match t[i]? with | some d => d.state != 1 | none => true)
      let s1 := lost.foldl damageDev s
      capsChanged { s1 with far := { s1.far with devs := t, farSeq := (s1.far.farSeq + 1) % 2 ^ 32 } })

/-- CXL_DEVICE_LOSS (R214): the device's state is link down. -/
def execCxlDeviceLoss (dev : Nat) (s : State) : Host.Outcome State Fault Refusal :=
  .next (match s.far.devs[dev]? with
    | some d =>
      if d.state = 1 then
        let s1 := damageDev s dev
        capsChanged { s1 with far := { s1.far with devs := setNth s1.far.devs dev ⟨3, 0, 0, 0⟩ } }
      else s
    | none => s)

/-! ### Expiry -/

/-- OBJECT_TTL_EXPIRY: a sealed object's deadline is reached (R222). -/
def execObjectTtlExpiry (obj : Nat) (s : State) : Host.Outcome State Fault Refusal :=
  .next (
    let o := s.obj obj
    if !o.present || o.state != .sealedObj || o.ttl == 0 || decide (s.aon < o.deadline) then s
    else if o.readers = 0 then objFree (recordGone s obj) obj
    else recordGone (s.setObj obj { o with state := .expiring, afterDelete := false }) obj)

/-- OBJECT_READ_END: no read of an EXPIRING object is left, and it is freed (R222). -/
def execObjectReadEnd (obj : Nat) (s : State) : Host.Outcome State Fault Refusal :=
  .next (
    let o := s.obj obj
    if o.present && o.state == .expiring && o.readers == 0 then objFree s obj else s)

/-! ### TIR messages -/

/-- Whether an object is one of a partition's. -/
def objOf (s : State) (p id : Nat) : Bool := (s.obj id).present && (s.obj id).part == p

/-- TIR.CREATE (R221, R222, R223). -/
def bodyTirCreate (s : State) (m : Msg) : State :=
  let tier := ble m.payload 0 1
  let kind := ble m.payload 1 1
  let size := ble m.payload 8 8
  if tier ≠ 1 ∧ tier ≠ 2 ∨ kind ≠ okWEIGHT ∧ kind ≠ okHOST ∨ size = 0 ∨ 2 ^ 40 < size then reply s 0x0401 m stBAD_FIELD []
  else if !tierPresent s tier then reply s 0x0401 m stUNIT_ABSENT []
  else match objCreate s (mp s m) tier kind size (ble m.payload 0x10 8) with
    | some r => reply r.1 0x0401 m stOK (leBytes 8 r.2)
    | none => reply s 0x0401 m stTIER_FULL []

def tirId (m : Msg) : Nat := ble m.payload 0 8
def tirOff (m : Msg) : Nat := ble m.payload 8 8
def tirAddr (m : Msg) : Nat := ble m.payload 0x10 8
def tirLen (m : Msg) : Nat := ble m.payload 0x18 4

/-- What fails a TIR.WRITE or TIR.READ as it begins: unknown object, a range outside its size, or its state. -/
def tirFail (s : State) (m : Msg) (write : Bool) : Option Nat :=
  let o := s.obj (tirId m)
  if !objOf s (mp s m) (tirId m) then some stOBJECT_UNKNOWN
  else if 2 ^ 30 < tirLen m ∨ o.size < tirOff m + tirLen m then some stBAD_FIELD
  else if write then (match o.state with
    | .writing => none
    | .sealedObj => some stOBJECT_SEALED
    | .expiring => some (readStatus o)
    | .damaged => some stOBJECT_DAMAGED)
  else if readStatus o = stOK then none else some (readStatus o)

/-- TIR.WRITE begins. -/
def bodyTirWrite (s : State) (m : Msg) : State :=
  match tirFail s m true with
  | some st => reply s 0x0402 m st []
  | none => if tirLen m = 0 then reply s 0x0402 m stOK [] else beginDeferred s 0x0402 m 0

/-- TIR.WRITE ends: the host's bytes are stored, those before a failing line where one failed (R428). -/
def doneTirWrite (s : State) (d : Deferred) (h : HostReply) : State :=
  match tirFail s d.msg true with
  | some st => endDeferred s d st []
  | none =>
    let b := dmaIn h (tirLen d.msg)
    let s1 := farWrites (objWrite s (tirId d.msg) (tirOff d.msg) b.1) ovCtx (tirId d.msg) (tirOff d.msg) b.1.length
    endDeferred s1 d (if b.2 then stDMA_FAULT else stOK) []

/-- TIR.READ begins: the object counts one read in progress. -/
def bodyTirRead (s : State) (m : Msg) : State :=
  match tirFail s m false with
  | some st => reply s 0x0403 m st []
  | none =>
    if tirLen m = 0 then reply s 0x0403 m stOK []
    else beginDeferred (s.setObj (tirId m) { s.obj (tirId m) with readers := (s.obj (tirId m)).readers + 1 }) 0x0403 m 0

/-- TIR.READ ends with the object's contents (R222); `ok` is false where a page could not be corrected (R218), or where the object has been
damaged since. -/
def doneTirRead (s : State) (d : Deferred) (h : HostReply) (ok : Bool) : State :=
  let id := tirId d.msg
  let s0 := s.setObj id { s.obj id with readers := (s.obj id).readers - 1 }
  if !(s.obj id).present then endDeferred s d stOBJECT_UNKNOWN []
  else if !ok ∧ (s.obj id).tier = 2 then endDeferred (objDamage s0 id) d stOBJECT_DAMAGED []
  else if (s.obj id).state = .damaged then endDeferred s0 d stOBJECT_DAMAGED []
  else
    let r := dmaOut s0 d.msg.path (tirAddr d.msg) (objRead s id (tirOff d.msg) (tirLen d.msg)) h
    endDeferred (farReads r.1 ovCtx id (tirOff d.msg) (tirLen d.msg)) d (if r.2 then stDMA_FAULT else stOK) []

/-- TIR.SEAL (R222). -/
def bodyTirSeal (s : State) (m : Msg) : State :=
  let o := s.obj (tirId m)
  if !objOf s (mp s m) (tirId m) then reply s 0x0404 m stOBJECT_UNKNOWN []
  else match o.state with
    | .writing => reply (objSeal s (tirId m)) 0x0404 m stOK []
    | .sealedObj => reply s 0x0404 m stOBJECT_SEALED []
    | .expiring => reply s 0x0404 m (readStatus o) []
    | .damaged => reply s 0x0404 m stOBJECT_DAMAGED []

/-- TIR.DELETE (R222): a sealed object with a read in progress becomes EXPIRING. -/
def bodyTirDelete (s : State) (m : Msg) : State :=
  let id := tirId m
  let o := s.obj id
  if !objOf s (mp s m) id then reply s 0x0405 m stOBJECT_UNKNOWN []
  else if o.state = .sealedObj ∧ 0 < o.readers then reply (s.setObj id { o with state := .expiring, afterDelete := true }) 0x0405 m stOK []
  else if o.state = .expiring then reply s 0x0405 m (readStatus o) []
  else reply (objFree s id) 0x0405 m stOK []

/-- TIR.STATUS (R421). -/
def bodyTirStatus (s : State) (m : Msg) : State :=
  let o := s.obj (tirId m)
  if !objOf s (mp s m) (tirId m) then reply s 0x0406 m stOBJECT_UNKNOWN []
  else
    let st := match o.state with | .writing => 0 | .sealedObj => 1 | .expiring => 2 | .damaged => 3
    reply s 0x0406 m stOK (leBytes 1 st ++ leBytes 1 o.kind ++ zeros 6 ++ leBytes 8 o.size ++ leBytes 8 (if o.ttl = 0 then 0 else o.deadline))

/-! ### MEM messages (R421, R428) -/

def memNear (m : Msg) : Nat := ble m.payload 0 5
def memAddr (m : Msg) : Nat := ble m.payload 8 8
def memLen (m : Msg) : Nat := ble m.payload 0x10 4

/-- What fails a MEM message as it begins: its fields, or a line outside the partition. -/
def memFail (s : State) (m : Msg) : Option Nat :=
  if memNear m % 64 ≠ 0 ∨ memLen m % 64 ≠ 0 ∨ 67108864 < memLen m then some stBAD_FIELD
  else if !nearOk s (mp s m) (memNear m) (memLen m) then some stOUT_OF_PARTITION
  else none

/-- MEM.READ begins. -/
def bodyMemRead (s : State) (m : Msg) : State :=
  match memFail s m with
  | some st => reply s 0x0601 m st []
  | none => if memLen m = 0 then reply s 0x0601 m stOK [] else beginDeferred s 0x0601 m 0

/-- The lines of a MEM message the twin holds. -/
def memHeld (s : State) (m : Msg) (write : Bool) : List (Nat × Nat) := heldLines s (mp s m) [(memNear m, memLen m)] write

/-- MEM.READ ends: near memory as it stands, up to the first poisoned line (R206, R428). -/
def doneMemRead (s : State) (d : Deferred) (h : HostReply) (errs : List EccErr) : State :=
  match memFail s d.msg with
  | some st => endDeferred s d st []
  | none =>
    let held := memHeld s d.msg false
    if !held.isEmpty then probeLines s held
    else
      let r := serveLines (memLen d.msg / 64) s (mp s d.msg) (memNear d.msg) 0 errs []
      let w := dmaOut r.1 d.msg.path (memAddr d.msg) r.2.1 h
      endDeferred (w.1.count ovCtx 6 r.2.1.length) d (if w.2 then stDMA_FAULT else if r.2.2 = scPOISON then stMEM_POISON else stOK) []

/-- MEM.WRITE begins. -/
def bodyMemWrite (s : State) (m : Msg) : State :=
  match memFail s m with
  | some st => reply s 0x0602 m st []
  | none => if memLen m = 0 then reply s 0x0602 m stOK [] else beginDeferred s 0x0602 m 0

/-- MEM.WRITE ends: the host's lines are stored up to the first one protected, or the first whose read failed (R246, R428). -/
def doneMemWrite (s : State) (d : Deferred) (h : HostReply) : State :=
  match memFail s d.msg with
  | some st => endDeferred s d st []
  | none =>
    let held := memHeld s d.msg true
    if !held.isEmpty then probeLines s held
    else
      let p := mp s d.msg
      let n := memLen d.msg / 64
      let b := dmaIn h (memLen d.msg)
      let k := ((List.range n).find? fun i => wpHit s p (memNear d.msg + 64 * i) 64).getD n
      let l := b.1.take (64 * k)
      let s1 := (nearWrite s p (memNear d.msg) l false []).1.count ovCtx 6 l.length
      endDeferred s1 d (if 64 * k < memLen d.msg ∧ 64 * k ≤ b.1.length then stWRITE_PROTECTED else if b.2 then stDMA_FAULT else stOK) []

end Sys2Proof.Machine
end

