-- ==== Sys2Proof/Machine/GenOps.lean ====
section
/-!
DEFINITION. Weight generations and adapter slots as the package keeps them (R228 to R235, R238 to R240, R246 to R256): where an image's bytes
lie, free near space, protection, counts of bound requests, and release.
-/

namespace Sys2Proof.Machine

/-! ### Generations of a partition -/

/-- The generation of a model by its number. -/
def Part.gen? (p : Part) (model num : Nat) : Option Gen := p.gens.find? fun g => g.model == model && g.number == num

/-- A generation by its load reference. -/
def Part.genRef? (p : Part) (ref : Nat) : Option Gen := p.gens.find? fun g => g.loadRef == ref

/-- A generation changed in place. -/
def Part.modGen (p : Part) (model num : Nat) (f : Gen → Gen) : Part :=
  { p with gens := p.gens.map fun g => if g.model = model ∧ g.number = num then f g else g }

/-- A generation changed in place. -/
def modGen (s : State) (p : Nat) (g : Gen) (f : Gen → Gen) : State := s.setPart p ((s.part p).modGen g.model g.number f)

/-- The LIVE generation of a model (R240). -/
def Part.live? (p : Part) (model : Nat) : Option Gen := p.gens.find? fun g => g.model == model && g.state == .live

/-- Whether a generation is staged: its images lie in far-tier objects. -/
def Gen.isStaged (g : Gen) : Bool := g.state == .staged || g.state == .stagedLoading

/-- Whether its images are still being written. -/
def Gen.isLoading (g : Gen) : Bool := g.state == .loading || g.state == .stagedLoading

/-- IMAGE_LEN and NEAR_LEN of image i of the map (R228); image 12 is the stream region. -/
def Gen.len (g : Gen) (i : Nat) : Nat := if i = 12 then g.streamPages * unit2M else (nth (0, 0) g.images i).1

/-- Bytes of an image kept in near memory (R229, R248). -/
def Gen.nearLen (g : Gen) (p : Part) (i : Nat) : Nat :=
  if i = 12 ∨ g.isStaged then 0 else if p.residency = 1 then (nth (0, 0) g.images i).2 else (nth (0, 0) g.images i).1

/-- 2 MiB units of near memory a generation needs on a stack. -/
def Gen.units (g : Gen) (p : Part) (st : Nat) : Nat := ceilDiv (g.nearLen p st) unit2M

/-- Chunks of 64 MiB of an image (R232), and the length of one. -/
def chunkSize : Nat := 67108864
def chunksOf (len : Nat) : Nat := ceilDiv len chunkSize
def chunkLen (len c : Nat) : Nat := min chunkSize (len - c * chunkSize)
def Gen.key (i c : Nat) : Nat := i * 2 ^ 20 + c

/-- Chunks of all 13 images. -/
def Gen.chunks (g : Gen) : List (Nat × Nat) := (List.range 13).flatMap fun i => (List.range (chunksOf (g.len i))).map fun c => (i, c)

/-- Whether every chunk has been hashed (R234). -/
def Gen.complete (g : Gen) : Bool := g.chunks.all fun x => (g.hashed.any fun h => h.1 == Gen.key x.1 x.2)

/-- The digest of an image: SHA-256 over its chunk digests in order (R233). -/
def Gen.digest (g : Gen) (i : Nat) : BitVec 256 :=
  sha256 ((List.range (chunksOf (g.len i))).flatMap fun c => digestBytes (tget 0 g.hashed (Gen.key i c)))

/-! ### Near space (R231, R238) -/

/-- Units of the fixed areas of a partition on a stack: expert cache, window ring (page i on stack i mod 12, R252), adapter slots (slot i on the
i-th stack with a range in turn; log 27). -/
def fixedUnits (p : Part) (st : Nat) : Nat :=
  let rs := (List.range 12).filter fun k => match p.ranges[k]? with | some r => decide (0 < r.near) | none => false
  let mine := ((List.range p.aslots).filter fun i => decide (0 < rs.length) && nth 12 rs (i % rs.length) == st).length
  (match p.ranges[st]? with | some r => if r.near = 0 then 0 else ceilDiv (p.cslots * p.cslotMib) 2 | none => 0) +
  ((List.range p.rpages).filter fun i => i % 12 == st).length + ceilDiv (mine * p.aslotMib) 2

/-- Units a stack's range leaves for images: below the fixed areas, the pool and the bench (log 27). -/
def imageUnits (p : Part) (st : Nat) : Nat :=
  match p.ranges[st]? with
  | some r => r.near - r.kv - r.bench - fixedUnits p st
  | none => 0

/-- Unit ranges the generations of a partition take on a stack. -/
def takenUnits (p : Part) (st : Nat) : List (Nat × Nat) :=
  (p.gens.filter fun g => !g.isStaged).map fun g => (nth 0 g.bases st, g.units p st)

/-- The lowest place for `n` units on a stack (log 27). -/
def placeUnits (p : Part) (st n : Nat) : Option Nat :=
  if n = 0 then some 0
  else
    let t := takenUnits p st
    let at_ := (0 :: t.map fun r => r.1 + r.2).filter fun b => decide (b + n ≤ imageUnits p st) && !(t.any fun r => overlap b n r.1 r.2)
    match at_ with
    | [] => none
    | a :: r => some (r.foldl min a)

/-- A place for every image of a generation, or none. -/
def placeImages (p : Part) (g : Gen) : Option (List Nat) :=
  (List.range 12).foldl (fun (a : Option (List Nat)) st =>
    match a, placeUnits p st (g.units p st) with
    | some l, some b => some (l ++ [b])
    | _, _ => none) (some [])

/-- Units no image takes, over all stacks. -/
def freeUnits (p : Part) : Nat := (List.range 12).foldl (fun a st => a + (imageUnits p st - (takenUnits p st).foldl (fun b r => b + r.2) 0)) 0

/-! ### The bytes of an image -/

/-- The near address of a byte of image i. -/
def Gen.near (g : Gen) (i off : Nat) : Nat := i * 2 ^ 36 + nth 0 g.bases i * unit2M + off

/-- Bytes of an image: its near part, then its far object. -/
def genRead (s : State) (p : Nat) (g : Gen) (i off n : Nat) : List Byte :=
  let nl := g.nearLen (s.part p) i
  let a := min n (nl - off)
  stackRead s i (physOff s p (g.near i off)) a ++
    (if a < n then objRead s (tget 0 g.objs i) (off + a - nl) (n - a) else [])

/-- Bytes written into a stack past its protection entries, which stay as they are (R246). -/
def forceWrite (s : State) (p na : Nat) (l : List Byte) : State :=
  (stackWrite (l.length / 64 + 2) (s, []) (naStack na) (physOff s p na) l false []).1

/-- Bytes written into an image: into near memory below its near length, into its far object above. -/
def genWrite (s : State) (p : Nat) (g : Gen) (i off : Nat) (l : List Byte) : State :=
  let nl := g.nearLen (s.part p) i
  let a := min l.length (nl - off)
  let s1 := if a = 0 then s else (forceWrite s p (g.near i off) (l.take a)).count ovCtx 6 a
  if a < l.length then farWrites (objWrite s1 (tget 0 g.objs i) (off + a - nl) (l.drop a)) ovCtx (tget 0 g.objs i) (off + a - nl) (l.length - a) else s1

/-! ### Far objects of a generation -/

/-- The tier of a generation's objects: CXL where COPY_CXL asks for it or NAND is not fitted, otherwise NAND (log 30). -/
def genTier (s : State) (copyCxl : Bool) : Nat := if copyCxl || !s.hasNand then 1 else 2

/-- The object sizes a generation needs: image and bytes. -/
def genObjects (p : Part) (g : Gen) : List (Nat × Nat) :=
  (List.range 13).filterMap fun i => if g.nearLen p i < g.len i then some (i, g.len i - g.nearLen p i) else none

/-- Objects created for some images, or none of them. -/
def makeObjects (s : State) (p tier : Nat) (l : List (Nat × Nat)) (got : Tab Nat) : Option (State × Tab Nat) :=
  match l with
  | [] => some (s, got)
  | (i, n) :: r => match objCreate s p tier (if i = 12 then okSTREAM else okWEIGHT) n 0 with
    | none => none
    | some x => makeObjects x.1 p tier r (tput got i x.2)

/-- Objects freed. -/
def freeObjects (s : State) (l : List Nat) : State := l.foldl objFree s

/-! ### Protection (R234, R246, R247) -/

/-- A protection entry of a partition over some units of a stack, in its first free entry. -/
def protectUnits (s : State) (p st base n : Nat) : State :=
  let b := s.bdie st
  match leastBelow 8 (fun i => !bit (tget 0 b.wp (p * 8 + i)) 0) with
  | some i => if n = 0 then s else s.setBdie st { b with wp := tput b.wp (p * 8 + i) (mkWord [(0, 1), (16, base), (32, n)]) }
  | none => s

/-- The protection entries of a partition over some units of a stack, disabled. -/
def unprotectUnits (s : State) (p st base n : Nat) : State :=
  let b := s.bdie st
  s.setBdie st { b with wp := b.wp.map fun e =>
    if e.1 / 8 = p ∧ bit e.2 0 ∧ bits e.2 30 16 = base ∧ bits e.2 46 32 = n then (e.1, 0) else e }

/-- A generation's near ranges write-protected (R234). -/
def protectGen (s : State) (p : Nat) (g : Gen) : State :=
  (List.range 12).foldl (fun s st => protectUnits s p st (nth 0 g.bases st) (g.units (s.part p) st)) s

/-- Its protection removed. -/
def unprotectGen (s : State) (p : Nat) (g : Gen) : State :=
  (List.range 12).foldl (fun s st => if g.units (s.part p) st = 0 then s else unprotectUnits s p st (nth 0 g.bases st) (g.units (s.part p) st)) s

/-- A generation freed: near ranges and far objects released (R239). -/
def freeGen (s : State) (p : Nat) (g : Gen) : State :=
  let s1 := if g.isStaged then s else unprotectGen s p g
  let s2 := freeObjects s1 (g.objs.map (·.2) ++ g.copies.map (·.2))
  s2.setPart p { s2.part p with gens := (s2.part p).gens.filter fun x => !(x.model == g.model && x.number == g.number) }

/-- One more request bound to a generation (R240). -/
def bindGen (s : State) (p model num : Nat) : State := s.setPart p ((s.part p).modGen model num fun g => { g with bound := g.bound + 1 })

/-- One request fewer; a DRAINING generation with none is freed (R239, R240). -/
def unbindGen (s : State) (p model num : Nat) : State :=
  match (s.part p).gen? model num with
  | none => s
  | some g =>
    if g.state = .draining ∧ g.bound ≤ 1 then freeGen s p g
    else s.setPart p ((s.part p).modGen model num fun g => { g with bound := g.bound - 1 })

/-! ### Adapter slots (R253 to R256) -/

/-- One adapter slot of a partition. -/
def Part.aslot (p : Part) (i : Nat) : ASlot := tget ASlot.reset p.adapters i

/-- One adapter slot replaced. -/
def setAslot (s : State) (p i : Nat) (x : ASlot) : State := s.setPart p { s.part p with adapters := tput (s.part p).adapters i x }

/-- The slot an adapter ID of a context is mapped to. -/
def mappedSlot (p : Part) (ctx id : Nat) : Option Nat := (p.adapters.find? fun a => a.2.mapped && a.2.ctx == ctx && a.2.adapter == id).map (·.1)

/-- The ID is unmapped: the slot retires, and is FREE once no request is bound to it (R254). -/
def retireSlot (s : State) (p i : Nat) : State :=
  let x := (s.part p).aslot i
  setAslot s p i (if x.bound = 0 then ASlot.reset else { x with state := .retiring, mapped := false })

/-- One more request bound to an adapter slot (R255). -/
def bindSlot (s : State) (p i : Nat) : State := setAslot s p i { (s.part p).aslot i with bound := ((s.part p).aslot i).bound + 1 }

/-- One request fewer; a RETIRING slot with none is FREE (R254). -/
def unbindSlot (s : State) (p i : Nat) : State :=
  let x := (s.part p).aslot i
  if i = 0xFF then s
  else if x.state = .retiring ∧ x.bound ≤ 1 then setAslot s p i ASlot.reset
  else setAslot s p i { x with bound := x.bound - 1 }

/-- A load reference no generation or adapter load of the partition has: the lowest from 1 (log 30). -/
def newRef (p : Part) : Nat :=
  ((List.range 4096).find? fun r => !(p.gens.any fun g => g.loadRef == r + 1) && !(p.adapters.any fun a => a.2.state == .loading && a.2.loadRef == r + 1)).getD 0 + 1

end Sys2Proof.Machine
end

