-- ==== Sys2Proof/Machine/Reqs.lean ====
section
/-!
DEFINITION. Requests, sessions and heats as the package keeps them (R281, R285, R286, R294, R316 to R318, R349 to R357, R360 to R368, R412): handles,
the ledger entry, the events of a request, its end, a session's states, the outcome at a holder, the cancel of a heat.
-/

namespace Sys2Proof.Machine

/-! ### Handles (R361, R367) -/

/-- The handle of an index and a reuse generation. -/
def handleOf (i reuse : Nat) : Nat := i * 65536 + reuse

/-- The next reuse generation: 1..65,535, wrapping to 1. -/
def nextReuse (r : Nat) : Nat := if 65535 ≤ r then 1 else r + 1

/-- The ledger index a handle names, when its entry is this package's, in use and of that generation. -/
def reqIdx (s : State) (h : Nat) : Option Nat :=
  let r := s.req (h / 65536)
  if h < 2 ^ 32 ∧ r.state ≠ .free ∧ !r.mirror ∧ r.reuse = h % 65536 then some (h / 65536) else none

/-- The session index a handle names, when its home is this package: an entry that mirrors the twin's session is none of its own (R480). -/
def sessIdx (s : State) (h : Nat) : Option Nat :=
  let x := s.sess (h / 65536)
  if h / 65536 < 32768 ∧ x.isOpen ∧ x.reuse = h % 65536 ∧ (x.home = s.fab.ownRole ∨ s.hasRole x.home) then some (h / 65536) else none

/-- The handle of a request. -/
def Req.handle (r : Req) (i : Nat) : Nat := handleOf i r.reuse

/-! ### Bundles, models and roles -/

/-- The bundle a context runs. -/
def ctxBundle (s : State) (c : Nat) : Option Bundle := (s.part (s.ctx c).part).bundles.find? fun b => b.model == (s.ctx c).model

/-- What the bundle of a context says; nothing where it has none. -/
def ctxMan (s : State) (c : Nat) : Manifest := match ctxBundle s c with | some b => b.man | none => default

/-- The nodes that serve some roles, each once. -/
def roleNodes (s : State) (l : List Nat) : List Nat := dedup (l.filterMap s.roleNode)

/-- The packages of a context's job, this one included. -/
def jobNodes (s : State) (c : Nat) : List Nat := dedup (s.fab.node :: roleNodes s (ctxMan s c).roles)

/-- The packages of the jobs of a partition. -/
def partNodes (s : State) (p : Nat) : List Nat := dedup (s.fab.node :: (s.part p).bundles.flatMap fun b => roleNodes s b.man.roles)

/-- The side of a request of a heat: the first half of its requests in handle order is side A (R481). -/
def sideOf (d : HeatDesc) (handle : Nat) : Nat :=
  if ((d.rows.takeWhile fun r => r.handle != handle).length) < (d.rows.length + 1) / 2 then 0 else 1

/-- The roles whose LAP_DONE a request's lap needs: every role of its side, every role in a lock-step heat (R349, R481, R503). Where the bundle names
no role of the side, every role it names. -/
def lapRoles (s : State) (h : Heat) (handle : Nat) : List Nat :=
  let all := (ctxMan s h.desc.ctx).roles
  let mine := all.filter fun r => r % 2 == sideOf h.desc handle
  if h.lockstep || mine.isEmpty then all else mine

/-! ### The ledger entry (R363) and token records (R366) -/

/-- STATE. -/
def ReqState.code (x : ReqState) : Nat :=
  match x with
  | .free => 0
  | .queued => 1
  | .prefill => 2
  | .decode => 3
  | .completed => 4
  | .ended => 5

/-- FLAGS. -/
def Req.flags (r : Req) : Nat :=
  b2n r.summaryResumed + 2 * b2n r.kvRecomputed + 4 * b2n r.prefixShared + 8 * b2n r.stoppedByToken + 16 * b2n r.kvFmtChanged

/-- The 256 bytes of a ledger entry. -/
def ledgerBytes (i : Nat) (r : Req) : List Byte :=
  leBytes 4 (r.handle i) ++ leBytes 1 r.state.code ++ leBytes 1 r.ctx ++ leBytes 2 r.tenant ++ leBytes 4 r.session ++ leBytes 4 r.generation ++
  leBytes 2 r.adapter ++ leBytes 1 r.aslot ++ leBytes 1 r.flags ++ leBytes 4 r.maxNew ++ leBytes 4 r.prompt ++ leBytes 4 r.delivered ++
  leBytes 8 r.lap ++ leBytes 8 r.seed.toNat ++ leBytes 8 r.aonSubmit ++ leBytes 8 r.aonAdmit ++ leBytes 8 r.aonFirst ++ leBytes 8 r.aonEnd ++
  leBytes 8 r.wall.toNat ++ leBytes 4 r.drops ++ leBytes 4 r.draftAcc ++ leBytes 4 r.draftRej ++ leBytes 4 r.laps ++ leBytes 8 r.ePrefill ++
  leBytes 8 r.eDecode ++ leBytes 8 r.eSpec ++ leBytes 8 (unsigned 64 r.eResid) ++ leBytes 2 r.status ++ leBytes 1 r.stop.length ++
  leBytes 1 r.prio ++ leBytes 4 r.fault ++ (List.range 8).flatMap (fun k => leBytes 4 (nth 0 r.stop k)) ++ digestBytes r.digest ++ zeros 48

/-- A token record. -/
def tokenRecord (token pos lap gen exit : Nat) (last : Bool) (handle : Nat) : List Byte :=
  leBytes 4 token ++ leBytes 4 pos ++ leBytes 8 lap ++ leBytes 4 gen ++ leBytes 2 exit ++ leBytes 2 (b2n last) ++ leBytes 4 handle ++ zeros 4

/-! ### Events of a request (R412) -/

/-- REQ.TOKENS with some token records. -/
def postTokens (s : State) (fn : Nat) (recs : List Byte) : State :=
  if recs.isEmpty then s else notify s fn mTOKENS 0 (leBytes 2 (recs.length / 32) ++ zeros 6 ++ recs)

/-- The twin's copy of a ledger entry (R482): before the submit response and before REQ.DONE. -/
def copyLedger (s : State) (i : Nat) : State :=
  if mirrors s then match s.twinNode with
    | some t => s.send (.node t) (.ledgerCopy ((s.req i).handle i))
    | none => s
  else s

/-- The 32 bytes of a tenant entry (R371). -/
def tenantBytes (t : Tenant) : List Byte :=
  leBytes 4 t.refill ++ leBytes 4 t.winUs ++ leBytes 8 t.cap ++ leBytes 8 (unsigned 64 t.balance) ++ leBytes 8 t.next

/-- A tenant entry written, with the twin's copy of it (R482). -/
def putTenant (s : State) (i : Nat) (t : Tenant) : State :=
  let s1 := s.setTenant i t
  match mirrors s, s.twinNode with
  | true, some n => s1.send (.node n) (.tenantCopy i)
  | _, _ => s1

/-- A session entry written, with the twin's copy of it (R482). -/
def putSess (s : State) (i : Nat) (x : Session) : State :=
  let s1 := s.setSess i x
  match mirrors s, s.twinNode with
  | true, some n => s1.send (.node n) (.sessionCopy i)
  | _, _ => s1

/-- REQ.DONE of an ended request, once every token record of it is posted; withheld after a reset of its function (R405). -/
def postDone (s : State) (i : Nat) : State :=
  let r := s.req i
  if r.posted || r.isOpen || r.state == .free || !r.unposted.isEmpty || s.twin.isolated then s
  else if r.withheld then s
  else
    let s1 := copyLedger (s.setReq i { r with posted := true }) i
    notify s1 r.fn mDONE r.status (ledgerBytes i r)

/-- The token records of seals up to a lap whose mirror is acknowledged, and what follows them (R483). -/
def postWaiting (s : State) (i lap : Nat) : State :=
  if s.twin.isolated then s
  else
    let r := s.req i
    let due := (r.unposted.filter fun e => decide (e.1 ≤ lap)).flatMap (·.2)
    let s1 := s.setReq i { r with unposted := r.unposted.filter fun e => !decide (e.1 ≤ lap) }
    postDone (if r.withheld then s1 else postTokens s1 r.fn due) i

/-! ### Sessions (R285, R286, R294) -/

/-- A park record deleted on this package. -/
def freeRecord (s : State) (k : Nat) : State :=
  let m := s.map k
  let s1 := match m.record with | some o => objFree s o | none => s
  (s1.setPart m.part (dropFrames (s1.part m.part) m.poolFrames)).setMap k { m with record := none, poolFrames := [], recLen := 0 }

/-- Everything of a session freed on this package. -/
def freeSession (s : State) (k : Nat) : State :=
  let s1 := freeRecord (freeMirror (freePages s k) k) k
  let m := s1.map k
  let s2 := s1.setPart m.part (dropFrames (s1.part m.part) m.recFrames)
  { s2 with srv := { s2.srv with maps := tdel s2.srv.maps k } }

/-- A session of this package closed: its frames, maps and park records are freed here and ordered freed everywhere; the entry keeps only its reuse
generation (R285, R367). -/
def closeSession (s : State) (idx : Nat) : State :=
  let x := s.sess idx
  let k := sessKey x.home idx
  let s1 := putSess (freeSession s k) idx { Session.reset with reuse := x.reuse }
  (jobNodes s x.ctx).foldl (fun s n => if n = s.fab.node then s else s.send (.node n) (.freeOrder k)) s1

/-- A session of this package becomes DROPPED, and every other package that may hold it is ordered to free it (R285, R294). -/
def markDropped (s : State) (idx : Nat) : State :=
  let x := s.sess idx
  let k := sessKey x.home idx
  let s1 := putSess s idx { x with state := .dropped, waiting := [] }
  (jobNodes s x.ctx).foldl (fun s n => if n = s.fab.node then s else s.send (.node n) (.freeOrder k)) s1

/-- This package drops a session: its frames, maps and mirror lists are freed, and the drop is reported to its home (R294). -/
def dropSession (s : State) (k : Nat) : State :=
  let m := s.map k
  let p := s.part m.part
  let s1 := s.setPart m.part { p with stats := { p.stats with kvDrops := p.stats.kvDrops + 1 } }
  let s2 := fitRecords (freeRecord (freeMirror (freePages s1 k) k) k) k
  s2.send (.role (keyHome k)) (.dropReport k)

/-- A request of a session has ended: the session is HELD, or closed when it was the request's own (R285, R367). -/
def releaseSession (s : State) (r : Req) : State :=
  let x := s.sess r.sessIdx
  if !x.isOpen then s
  else if x.oneShot then closeSession s r.sessIdx
  else putSess s r.sessIdx { x with request := none, heldAt := s.aon, digest := r.digest, state := if x.state = .live ∨ x.state = .recomputing then .held else x.state }

/-! ### Lap numbers (R35) -/

/-- The number a context's job gives its next lap. -/
def nextLap (s : State) (ctx : Nat) : Nat := tget 0 s.srv.jobLap ctx

/-- A lap number of a job has been assigned or received. -/
def noteLap (s : State) (ctx lap : Nat) : State :=
  { s with srv := { s.srv with jobLap := tput s.srv.jobLap ctx (max (nextLap s ctx) (lap + 1)) } }

/-- A message that names a lap of a heat has been received: the lap number counts in the heat's job, as this package knows it. -/
def noteHeatLap (s : State) (heat lap : Nat) : State :=
  match s.srv.heats.find? (·.1 == heat) with
  | some e => noteLap s e.2.desc.ctx lap
  | none => s

/-! ### Laps on this package (R281, R349, R494) -/

/-- The sessions of a heat, as this package names them. -/
def Heat.keys (h : Heat) : List Nat := h.desc.rows.map fun r => sessKey r.home r.session

/-- Slots on which some command of a heat's lap is still to end. -/
def heatSlots (s : State) (id : Nat) : List (Nat × Nat) :=
  s.cores.flatMap fun e => ((List.range 4).filter fun k => (e.2.slot k).heat == id).map fun k => (e.1, k)

/-- A heat that has run here and whose rows have no part of its lap left here is over on this package. -/
def retireHeat (s : State) (id : Nat) : State :=
  let h := s.heat id
  if h.live && h.fetched && !h.lapActive && h.keys.all (fun k => !(s.map k).lapOn || (s.map k).lap != h.desc.lap) then
    -- entries still held become stale with the heat (R318)
    let p := s.part h.desc.part
    let rets := (h.held.filter fun x => x.1 == .ret).length
    (s.setPart h.desc.part { p with stats := { p.stats with
      staleReturn := p.stats.staleReturn + rets, staleDisp := p.stats.staleDisp + (h.held.length - rets) } }).setHeat id
      { h with live := false, sets := [], held := [] }
  else s

/-- The energy account of a request on this package (R514, R518). -/
def findAcct (s : State) (home handle : Nat) : Option Acct := s.energy.accts.find? fun a => a.home == home && a.handle == handle && !a.closed

/-- An account changed in place. -/
def modAcct (s : State) (home handle : Nat) (f : Acct → Acct) : State :=
  { s with energy := { s.energy with accts := s.energy.accts.map fun a => if a.home = home ∧ a.handle = handle ∧ !a.closed then f a else a } }

/-- A lap's modelled energy put on its lines (R357): prefill, or a of n to decode and the rest to speculation overhead. -/
def Acct.divide (a : Acct) : Acct :=
  if a.prefillLap then { a with ePrefill := a.ePrefill + a.lapUj, lapUj := 0 }
  else
    let d := if a.lapN = 0 then a.lapUj else a.lapUj * a.lapA / a.lapN
    { a with eDecode := a.eDecode + d, eSpec := a.eSpec + (a.lapUj - d), lapUj := 0 }

/-- The outcome of a lap reaches the request's account: the lap's energy is divided, and FINAL starts the wait for the last share (R357, R518). -/
def billLap (s : State) (home handle a : Nat) (accept final : Bool) : State :=
  modAcct s home handle fun x =>
    let y := Acct.divide { x with lapA := min x.lapN (if accept then a else 1), lapOpen := false }
    if final then { y with finalAt := some s.aon } else y

/-- An outcome applied to a session's lists and mirror (R281, R282): A positions are committed, every later one returns to free. -/
def commitMap (s : State) (k : Nat) (o : OutcomeMsg) : State :=
  let m := s.map k
  let s1 := if m.present then
      let c := m.clen + (if o.accept then o.a else 0)
      let t := trimLists (s.part m.part) m.lists c
      fitRecords ((s.setPart m.part t.1).setMap k
        { m with lists := t.2, clen := c, plen := 0, lapOn := false, outcome := none, lastSeal := s.aon, sealedLap := o.lap, sealedA := if o.accept then o.a else 0, held := o.final }) k
    else s.setMap k { m with lapOn := false, outcome := none, sealedLap := o.lap, sealedA := if o.accept then o.a else 0, held := o.final }
  let v := s1.mirror k
  if v.present then
    let c := v.clen + (if o.accept then o.a else 0)
    let t := trimLists (s1.part v.part) v.lists c
    (s1.setPart v.part t.1).setMirror k { v with lists := t.2, clen := c, lastSeal := s.aon }
  else s1

/-- The heats that carry a request on this package, each with the request's row. -/
def heatsOf (s : State) (home handle : Nat) : List (Nat × Heat × HeatRow) :=
  s.srv.heats.filterMap fun e =>
    if e.2.live then (e.2.desc.rows.find? fun r => r.handle == handle && r.home == home).map fun r => (e.1, e.2, r) else none

/-- The latest of them. -/
def heatOf (s : State) (home handle : Nat) : Option (Nat × Heat × HeatRow) :=
  (heatsOf s home handle).foldl (fun a e => match a with
    | some b => if b.2.1.desc.lap < e.2.1.desc.lap then some e else a
    | none => some e) none

/-- A holder applies an outcome once its own part of the lap, which may not have begun, has finished (R353, R355); until then it keeps it. -/
def takeOutcome (s : State) (id : Nat) (h : Heat) (r : HeatRow) (o : OutcomeMsg) : State :=
  let k := sessKey r.home r.session
  if !h.ownDone then s.setMap k { s.map k with outcome := some o }
  else retireHeat (billLap (commitMap s k o) o.home o.handle o.a o.accept o.final) id

/-- This package's part of a heat's lap is complete and its appends are acknowledged: LAP_DONE goes to every home of the heat's requests, for each role
this package serves (R283, R349, R498), its twin learns that its part is past (R485), and the outcomes it kept are applied. -/
def reportLap (s : State) (id : Nat) : State :=
  let h := s.heat id
  if !h.live || !h.lapActive || !h.ownDone || (mirrors s && h.keys.any fun k => (s.map k).unacked != 0) then s
  else
    let homes := dedup (h.desc.rows.map (·.home))
    let roles := if s.ownRoles.isEmpty then [s.fab.ownRole] else s.ownRoles
    let s1 := homes.foldl (fun s home => roles.foldl (fun s r => s.send (.role home) (.lapDone r id h.desc.lap h.epoch)) s) s
    let s1 := match s.twin.state == .paired, s.twinNode with
      | true, some t => s1.send (.node t) (.handoffOk id h.desc.lap)
      | _, _ => s1
    let s1 := match mirrors s, s.twinNode with
      | true, some t => h.desc.rows.foldl (fun (s : State) (r : HeatRow) => s.send (.node t) (.energyCopy r.home r.handle)) s1
      | _, _ => s1
    let s2 := s1.setHeat id { h with lapActive := false }
    h.desc.rows.foldl (fun s r => match (s.map (sessKey r.home r.session)).outcome with
      | some o => if o.lap = h.desc.lap then takeOutcome s id { h with lapActive := false } r o else s
      | none => s) s2

/-- The expert-cache slots a heat's kept assignments pinned are let go when its part of the lap here is over (R250). -/
def unpinHeat (s : State) (id : Nat) : State :=
  let h := s.heat id
  let units := dedup (h.sets.flatMap fun x => x.kept.map fun e => x.layer * 65536 + e.expert)
  let p := s.part h.desc.part
  let un (c : CSlot) : CSlot := if units.contains (c.layer * 65536 + c.unit) then { c with pins := c.pins - 1 } else c
  (s.setPart h.desc.part { p with cache := p.cache.map fun e => (e.1, un e.2) }).setHeat id { h with sets := [] }

/-- The slot's part of a heat has ended; with the last slot's the package's part of the lap has. -/
def slotDone (s : State) (c k : Nat) : State :=
  let id := (s.slot c k).heat
  if id = 0 then s
  else
    let s1 := s.setSlot c k { s.slot c k with heat := 0 }
    if (heatSlots s1 id).isEmpty then
      let s2 := unpinHeat s1 id
      reportLap (s2.setHeat id { s2.heat id with ownDone := true }) id
    else s1

/-! ### The end of a request (R355) -/

/-- The outcome of a discarding seal; PENDING, which no next lap takes, stays as it was (log 50). -/
def discardOf (i : Nat) (r : Req) : OutcomeMsg := ⟨r.handle i, r.home, r.curLap, false, 0, true, r.pending, []⟩

/-- The number of the generation a request's laps run on: its own, or the one that took over at a cut-over (R240, R244). -/
def boundGen (s : State) (r : Req) : Nat :=
  match (s.part r.part).gen? (s.ctx r.ctx).model r.generation with
  | some g => g.number
  | none => match (s.part r.part).live? (s.ctx r.ctx).model with
    | some g => g.number
    | none => r.generation

/-- The bindings of an admitted request end (R239, R240, R254, R255). -/
def unbindReq (s : State) (r : Req) : State := unbindSlot (unbindGen s r.part (s.ctx r.ctx).model (boundGen s r)) r.part r.aslot

/-- A request taken out of its tenant's queue. -/
def leaveQueue (s : State) (tenant i : Nat) : State :=
  { s with srv := { s.srv with queues := tput s.srv.queues tenant ((tget [] s.srv.queues tenant).filter (· != i)) } }

/-- A member leaves its cohort's list when it ends (R550). -/
def leaveCohort (s : State) (ctx i : Nat) : State :=
  let x := s.ctx ctx
  if x.cohort.members.contains i || x.closed.any (·.contains i) then
    s.setCtx ctx { x with
      cohort := { x.cohort with members := x.cohort.members.filter (· != i) }
      closed := (x.closed.map fun l => l.filter (· != i)).filter (!·.isEmpty) }
  else s

/-- An end ordered for one request: nothing where it has ended; from QUEUED it ends at once with no energy; otherwise C2 makes a discarding seal of its
current lap (R355, R364), whose remaining LAP_DONEs the reuse of the entry waits for (R357). -/
def endOne (s : State) (i status : Nat) : State :=
  let r := s.req i
  if !r.isOpen || r.mirror then s
  else
    let e := { r with state := ReqState.ended, status := status, aonEnd := s.aon }
    if r.state = .queued then
      let s1 := leaveCohort (leaveQueue (s.setReq i e) r.tenant i) r.ctx i
      let x := s1.sess r.sessIdx
      postDone (if r.session = 0 then s1 else putSess s1 r.sessIdx { x with request := none }) i
    else
      let k := if r.inLap ∧ r.state = .decode then r.lapN - 1 else 0
      let p := s.part r.part
      let s1 := s.setPart r.part { p with stats := { p.stats with draftRej := p.stats.draftRej + k } }
      let s2 := s1.setReq i { e with
        draftRej := r.draftRej + k, laps := r.laps + b2n r.inLap, lap := if r.inLap then r.curLap else r.lap, cutHeat := if r.inLap then r.heat else 0
        inLap := r.inLap && !((lapRoles s (s.heat r.heat) (r.handle i)).all fun x => r.lapDone.contains x) }
      let s3 := s2.send (.holders r.heat) (.outcome (discardOf i r))
      let s4 := leaveCohort (unbindReq (releaseSession s3 r) r) r.ctx i
      postDone s4 i

/-- Every request of a heat homed here that has not been sealed for its lap ends CANCELLED (R356). -/
def endHeat (s : State) (id : Nat) : State :=
  (s.heat id).desc.rows.foldl (fun s r => match reqIdx s r.handle with
    | some i => if r.home = (s.req i).home ∧ (s.req i).inLap ∧ (s.req i).heat = id then endOne s i stCANCELLED else s
    | none => s) s

/-- The slots that run a heat's lap are stopped (R317). -/
def stopHeat (s : State) (id : Nat) : State :=
  (heatSlots s id).foldl (fun s c =>
    let s1 := slotStop s c.1 c.2
    s1.setSlot c.1 c.2 { s1.slot c.1 c.2 with heat := 0 }) s

/-- A heat's epoch advances by a cancel: the exchange of the layer is abandoned, the heat's lap stops here or never begins, entries held for a passed epoch
are let go (R316 to R318), and its requests not yet sealed end (R356). -/
def applyCancel (s : State) (id epoch : Nat) : State :=
  let h := s.heat id
  if !h.live || epoch ≤ h.epoch then s
  else
    let s0 := unpinHeat s id
    let s1 := stopHeat (s0.setHeat id { s0.heat id with
      epoch := epoch, held := h.held.filter (fun x => decide (epoch ≤ x.2.1.epoch)), proposals := []
      lapActive := h.lapActive || !h.fetched, fetched := true, ownDone := true }) id
    reportLap (endHeat s1 id) id

/-- A heat cancelled by this package: HEAT_CANCEL goes to every package that holds it (R317). -/
def cancelHeat (s : State) (id : Nat) : State :=
  let h := s.heat id
  if !h.live then s else applyCancel (s.send (.holders id) (.heatCancel id (h.epoch + 1))) id (h.epoch + 1)

/-- A heat all of whose requests have been cancelled before their seal is cancelled (R317). -/
def heatCheck (s : State) (id : Nat) : State :=
  let h := s.heat id
  if id != 0 && h.live && h.mine && h.desc.rows.all (fun r => match reqIdx s r.handle with
      | some i => (s.req i).state == .ended && (s.req i).cutHeat == id
      | none => false)
  then cancelHeat s id else s

/-- An end ordered for a request (R355), and what follows for its heat (R317). -/
def endReq (s : State) (i status : Nat) : State := heatCheck (endOne s i status) (s.req i).heat

/-- An end ordered for every open request of this package that satisfies a test, in ledger order. -/
def endAll (s : State) (status : Nat) (f : Req → Bool) : State :=
  (tkeys (s.srv.ledger.filter fun e => e.2.isOpen && !e.2.mirror && f e.2)).foldl (fun s i => endReq s i status) s

/-- Functions whose backlog overflowed: their open requests end with HOST_STALLED (R413). -/
def settle (s : State) : State :=
  (List.range 16).foldl (fun s f =>
    if (s.fn f).stalled then endAll (s.setFn f { s.fn f with stalled := false }) stHOST_STALLED (·.fn == f) else s) s

end Sys2Proof.Machine
end

