-- ==== Sys2Proof/Machine/Weights.lean ====
section
/-!
DEFINITION. Weights and adapters at work (R231 to R257): the load window, hashing, relay, activation, cut-over, the expert cache, the window ring,
the rewriting of poisoned lines (R208, R218, R297), and the MDL messages other than the loader's.
-/

namespace Sys2Proof.Machine

/-! ### Counting bytes (R232) -/

/-- Bytes of a range in each chunk it touches, added to the counts of an image. -/
def countBytes (t : Tab Nat) (i off n : Nat) : Tab Nat :=
  if n = 0 then t
  else ((List.range ((off + n - 1) / chunkSize + 1 - off / chunkSize)).map (· + off / chunkSize)).foldl (fun t c =>
    let lo := max off (c * chunkSize)
    let hi := min (off + n) ((c + 1) * chunkSize)
    tput t (Gen.key i c) (tget 0 t (Gen.key i c) + (hi - lo))) t

/-- Whether a range touches a chunk that has been hashed. -/
def hitsHashed (h : Tab (BitVec 256)) (i off n : Nat) : Bool :=
  decide (0 < n) && h.any fun e => e.1 / 2 ^ 20 == i && decide (off / chunkSize ≤ e.1 % 2 ^ 20 ∧ e.1 % 2 ^ 20 ≤ (off + n - 1) / chunkSize)

/-- Bytes written into an image of a loading generation and counted. -/
def loadBytes (s : State) (p : Nat) (g : Gen) (i off : Nat) (l : List Byte) : State :=
  modGen (genWrite s p g i off l) p g fun x =>
    { x with written := countBytes x.written i off l.length, overwrite := x.overwrite || hitsHashed x.hashed i off l.length }

/-! ### Relay (R236, R237) -/

/-- Images of a relay mask. -/
def maskImages (m : Nat) : List Nat := (List.range 13).filter fun i => nbits m i i = 1

/-- Whether a chunk's count has reached its length. -/
def Gen.full (g : Gen) (i c : Nat) : Bool := tget 0 g.written (Gen.key i c) == chunkLen (g.len i) c

/-- A chunk sent to some nodes. -/
def sendChunk (s : State) (p : Nat) (g : Gen) (i c : Nat) (nodes : List Nat) : State :=
  let data := genRead s p g i (c * chunkSize) (chunkLen (g.len i) c)
  nodes.foldl (fun s n => (s.send (.node n) (.relayChunk p g.number i c data)).count ovCtx 7 data.length) s

/-- The chunks a relay has to move. -/
def relayChunks (g : Gen) (images : Nat) : List (Nat × Nat) := g.chunks.filter fun x => (maskImages images).contains x.1

/-- A chunk of a generation just completed goes to the targets of the relay that names it. -/
def relayOn (s : State) (p : Nat) (g : Gen) (i c : Nat) : State :=
  match (s.part p).relay with
  | none => s
  | some r => if r.model = g.model ∧ r.gen = g.number ∧ (maskImages r.images).contains i then sendChunk s p g i c (r.targets.map (·.1)) else s

/-- The chunks of an image a write has completed go on. -/
def relayRange (s : State) (p : Nat) (old : Gen) (i off n : Nat) : State :=
  match (s.part p).gen? old.model old.number with
  | none => s
  | some g => (g.chunks.filter fun x => x.1 == i && decide (off / chunkSize ≤ x.2 ∧ x.2 * chunkSize < off + n) && g.full i x.2 && !old.full i x.2).foldl
      (fun s x => relayOn s p g x.1 x.2) s

/-! ### The load window (R404) -/

/-- Bytes dropped, counted on the function. -/
def dropBytes (s : State) (fn n : Nat) : State := s.setFn fn { s.fn fn with loadDrop := (s.fn fn).loadDrop + n }

/-- LOAD_WINDOW_WRITE: bytes at x of an aperture (R232, R246, R404). -/
def execLoadWindowWrite (fn ap x : Nat) (data : List Byte) (s : State) : Host.Outcome State Fault Refusal :=
  .next (
    let f := s.fn fn
    let q := 2 ^ Nat.log2 (s.mbx.bar2) / 4
    if !f.enabled ∨ 4 ≤ ap ∨ q < x + data.length ∨ !s.power.portOn then s
    else
      let w := tget 0 f.ap ap
      let off := bits w 55 24 * q + x
      let image := bits w 4 1
      let drop := dropBytes s fn data.length
      match bit w 0, fnPart s fn with
      | true, some p =>
        match (s.part p).genRef? (bits w 23 8) with
        | some g =>
          if 12 < image then drop
          else
            let n := min data.length (g.len image - off)
            if !g.isLoading then
              let s1 := dropBytes s fn data.length
              s1.setPart p ((s1.part p).modGen g.model g.number fun y => { y with dropped := y.dropped + n })
            else
              let s1 := loadBytes s p g image off (data.take n)
              relayRange (dropBytes s1 fn (data.length - n)) p g image off n
        | none =>
          match (s.part p).adapters.find? fun a => a.2.state == .loading && a.2.loadRef == bits w 23 8 with
          | some (i, a) =>
            let n := min data.length (a.length - off)
            let y := { a with data := mwrite 0 a.data off (data.take n), written := countBytes a.written 0 off n }
            dropBytes (setAslot s p i y) fn (data.length - n)
          | none => drop
      | _, _ => drop)

/-! ### Hashing (R233, R254) -/

/-- MDL.ADAPTER_DONE to the partition's function (R421). -/
def adapterDone (s : State) (p : Nat) (a : ASlot) (status : Nat) (digest : BitVec 256) : State :=
  notify s (s.part p).fn mADAPTER_DONE 0 (leBytes 2 a.loadRef ++ leBytes 2 a.adapter ++ leBytes 1 a.ctx ++ zeros 1 ++ leBytes 2 status ++ digestBytes digest)

/-- An adapter whose chunks are all hashed: its tile index is checked (log 32), and the slot becomes READY and mapped, or FREE (R254). -/
def adapterReady (s : State) (p i : Nat) (a : ASlot) : State :=
  let d := sha256 ((List.range (chunksOf a.length)).flatMap fun c => digestBytes (tget 0 a.hashed c))
  let bad := Config.adapterCheck d
  if bad % 5 = 0 then
    let s1 := match mappedSlot (s.part p) a.ctx a.adapter with
      | some j => retireSlot s p j
      | none => s
    adapterDone (setAslot s1 p i { a with state := .ready, mapped := true, digest := d }) p a stOK d
  else adapterDone (setAslot s p i ASlot.reset) p a (stBAD_TILE + (bad % 5 - 1)) 0

/-- CHUNK_HASHED: the hash engine finishes a chunk whose count has reached its length (R232, R233). -/
def execChunkHashed (part ref image chunk : Nat) (s : State) : Host.Outcome State Fault Refusal :=
  .next (settle (
    match (s.part part).genRef? ref with
    | some g =>
      let k := Gen.key image chunk
      if g.isLoading && g.chunks.contains (image, chunk) && g.full image chunk && !(g.hashed.any fun h => h.1 == k) then
        modGen s part g fun x => { x with hashed := tput x.hashed k (sha256 (genRead s part g image (chunk * chunkSize) (chunkLen (g.len image) chunk))) }
      else s
    | none =>
      match (s.part part).adapters.find? fun a => a.2.state == .loading && a.2.loadRef == ref with
      | some (i, a) =>
        if image == 0 && decide (chunk < chunksOf a.length) && tget 0 a.written chunk == chunkLen a.length chunk && !(a.hashed.any fun h => h.1 == chunk) then
          let a2 := { a with hashed := tput a.hashed chunk (sha256 (mread 0 a.data (chunk * chunkSize) (chunkLen a.length chunk))) }
          let s1 := setAslot s part i a2
          if a2.hashed.length = chunksOf a.length then adapterReady s1 part i a2 else s1
        else s
      | none => s))

/-- RELAY_CHUNK: a target with the generation LOADING writes the chunk, counts it, acknowledges it and forwards it (R236). -/
def execRelayChunk (src part gen image chunk : Nat) (data : List Byte) (s : State) : Host.Outcome State Fault Refusal :=
  .next (
    match (s.part part).gens.find? fun g => g.number == gen && g.isLoading with
    | none => s
    | some g =>
      if g.chunks.contains (image, chunk) ∧ data.length = chunkLen (g.len image) chunk ∧ takesFrom s src then
        let s1 := (loadBytes s part g image (chunk * chunkSize) data).send (.node src) (.relayAck part gen image chunk)
        relayRange s1 part g image (chunk * chunkSize) data.length
      else s)

/-- RELAY_CHUNK_ACK (R236). -/
def execRelayChunkAck (node part gen image chunk : Nat) (s : State) : Host.Outcome State Fault Refusal :=
  .next (
    let p := s.part part
    match p.relay with
    | some r =>
      if r.gen = gen ∧ takesFrom s node then
        s.setPart part { p with relay := some { r with targets := r.targets.map fun t =>
          if t.1 == node && !(t.2.contains (Gen.key image chunk)) then (t.1, t.2 ++ [Gen.key image chunk]) else t } }
      else s
    | none => s)

/-! ### Results of deferred commands

`note` of a deferred command is 0 while it runs, and its status plus 1 once it is decided; DEFERRED_COMMAND_DONE then posts the response. -/

/-- A deferred command's result decided. -/
def decide_ (s : State) (path : Nat) (tag : Word32) (status : Nat) : State :=
  setDeferred s path ((deferredOf s path).map fun d => if d.msg.tag = tag then { d with note := status + 1 } else d)

/-! ### Pinned activation (R242) -/

/-- A message to every package of a partition's jobs, this one included. -/
def sendJob (s : State) (p : Nat) (m : FwMsg) : State := (partNodes s p).foldl (fun s n => s.send (.node n) m) s

/-- GEN_PREPARE: the package votes yes when it holds the generation SEALED. -/
def execGenPrepare (src part model gen : Nat) (s : State) : Host.Outcome State Fault Refusal :=
  .next (
    let yes := match (s.part part).gen? model gen with | some g => g.state == .sealedGen | none => false
    if takesFrom s src then s.send (.node src) (.genVote part model gen yes) else s)

/-- GEN_VOTE: a no aborts; the last yes commits. -/
def execGenVote (src part model gen : Nat) (yes : Bool) (s : State) : Host.Outcome State Fault Refusal :=
  .next (
    let p := s.part part
    match p.act with
    | some a =>
      if a.model = model ∧ a.gen = gen ∧ a.waiting.contains src then
        if !yes then decide_ (s.setPart part { p with act := none }) a.path a.tag stCUTOVER_ABORTED
        else
          let w := a.waiting.filter (· != src)
          if w.isEmpty then decide_ (sendJob (s.setPart part { p with act := none }) part (.genCommit part model gen)) a.path a.tag stOK
          else s.setPart part { p with act := some { a with waiting := w } }
      else s
    | none => s)

/-- ACTIVATE_VOTE_TIMEOUT: a missing vote under R243's timing aborts. -/
def execActivateVoteTimeout (part model : Nat) (s : State) : Host.Outcome State Fault Refusal :=
  .next (
    let p := s.part part
    match p.act with
    | some a =>
      if a.model = model ∧ a.startedAt + msAon (s.cfg 0x0302) / 2 ≤ s.aon then decide_ (s.setPart part { p with act := none }) a.path a.tag stCUTOVER_ABORTED
      else s
    | none => s)

/-- GEN_COMMIT: the SEALED generation becomes LIVE and the former one DRAINING, freed at once when no request is bound to it (R239, R242). -/
def execGenCommit (part model gen : Nat) (s : State) : Host.Outcome State Fault Refusal :=
  .next (
    match (s.part part).gen? model gen with
    | some g =>
      if g.state = .sealedGen then
        let old := (s.part part).live? model
        let s1 := modGen s part g fun x => { x with state := .live }
        match old with
        | some o => if o.bound = 0 then freeGen s1 part o else modGen s1 part o fun x => { x with state := .draining }
        | none => s1
      else s
    | none => s)

/-! ### Cut-over (R243, R244) -/

/-- Contexts of a model of a partition. -/
def modelCtxs (s : State) (p model : Nat) : List Nat :=
  tkeys (s.srv.ctxs.filter fun c => c.2.state != .none && c.2.part == p && c.2.model == model)

/-- The lowest lap not yet started of a model's contexts. -/
def lowestLap (s : State) (p model : Nat) : Nat :=
  let cs := modelCtxs s p model
  let waiting := (s.srv.heats.filter fun h => h.2.live && !h.2.fetched && cs.contains h.2.desc.ctx).map fun h => h.2.desc.lap
  let nxt := cs.map (nextLap s)
  match waiting ++ nxt with
  | [] => 0
  | a :: r => r.foldl min a

/-- PREPARE of a cut-over: the package votes with its lowest unstarted lap; yes when it holds the generation STAGED and takes part in no other cut-over. -/
def cutPrepare (src part model gen images : Nat) (s : State) : State :=
  let p := s.part part
  if !takesFrom s src then s
  else
    let n := lowestLap s part model
    let own := match p.cut with | some c => c.coordinator && c.model == model && c.gen == gen | none => false
    let held := match p.gen? model gen with | some g => g.state == .staged | none => false
    let yes := held && (p.cut.isNone || own)
    let s1 := if yes then
        let c := match p.cut with
          | some c => { c with vote := n, votedAt := s.aon }
          | none => ⟨model, gen, images, false, [], 0, s.aon, n, s.aon, none, false, false, 0, 0⟩
        s.setPart part { p with cut := some c }
      else s
    s1.send (.node src) (.cutVote part model n yes)

/-- A cut-over ends without effect on this package. -/
def abortCut (s : State) (part : Nat) (c : CutSt) : State :=
  let s1 := s.setPart part { s.part part with cut := none }
  if c.coordinator then decide_ s1 c.path c.tag stCUTOVER_ABORTED else s1

/-- A vote: a no aborts; the last yes fixes the cut lap L, the largest vote plus CUT_MARGIN. -/
def cutVote (src part model lowest : Nat) (yes : Bool) (s : State) : State :=
  let p := s.part part
  match p.cut with
  | some c =>
    if c.coordinator ∧ c.model = model ∧ c.cutLap = none ∧ c.waiting.contains src then
      if !yes then sendJob (abortCut s part c) part (.cutAbort part model)
      else
        let c1 := { c with waiting := c.waiting.filter (· != src), largest := max c.largest lowest }
        if c1.waiting.isEmpty then
          let l := c1.largest + s.cfg 0x0301
          sendJob (decide_ (s.setPart part { p with cut := some { c1 with cutLap := some l } }) c.path c.tag stOK) part (.cutCommit part model l)
        else s.setPart part { p with cut := some c1 }
    else s
  | none => s

/-- CUT_TO_MS / 2 from PREPARE without every vote. -/
def cutVoteTimeout (part model : Nat) (s : State) : State :=
  match (s.part part).cut with
  | some c =>
    if c.coordinator ∧ c.model = model ∧ c.cutLap = none ∧ c.startedAt + msAon (s.cfg 0x0302) / 2 ≤ s.aon then
      sendJob (abortCut s part c) part (.cutAbort part model)
    else s
  | none => s

/-- COMMIT: the cut lap is taken and sent on once to every package of the job. -/
def cutCommit (part model cutLap : Nat) (s : State) : State :=
  let p := s.part part
  match p.cut with
  | some c =>
    if c.model = model ∧ !c.forwarded then
      sendJob (s.setPart part { p with cut := some { c with cutLap := some cutLap, forwarded := true } }) part (.cutCommit part model cutLap)
    else s
  | none => s

/-- ABORT changes nothing but the wait. -/
def cutAbort (part model : Nat) (s : State) : State :=
  match (s.part part).cut with
  | some c => if c.model = model ∧ c.cutLap = none then abortCut s part c else s
  | none => s

/-- CUT_TO_MS after this package's vote with neither COMMIT nor ABORT. -/
def cutTimeout (part model : Nat) (s : State) : State :=
  match (s.part part).cut with
  | some c => if c.model = model ∧ c.cutLap = none ∧ c.votedAt + msAon (s.cfg 0x0302) ≤ s.aon then abortCut s part c else s
  | none => s

/-- Whether a heat's lap may start under a cut-over of its model (R243, R244): none from n + CUT_MARGIN on between the vote and the COMMIT, none from
L on before the copy is complete; nor, between its vote and the COMMIT of a role's return, from n + CUT_MARGIN on (R502). -/
def cutAdmits (s : State) (ctx lap : Nat) : Bool :=
  (match s.twin.returning with
  | some r => r.lap.isSome || decide (lap < r.vote + s.cfg 0x0301)
  | none => true) &&
  match (s.part (s.ctx ctx).part).cut with
  | some c =>
    c.model != (s.ctx ctx).model || (match c.cutLap with
      | none => c.votedAt == 0 || decide (lap < c.vote + s.cfg 0x0301)
      | some l => decide (lap < l))
  | none => true

/-- One named image copied from the staged generation over the old one: its near part past the protection entries, its far part into the old
generation's object. Where the images come from a relay source and no object holds them, the bytes are free values (log 33). -/
def copyImage (s : State) (part : Nat) (new old : Gen) (i : Nat) : State :=
  let p := s.part part
  let near := old.nearLen p i
  let n := new.len i
  let src (off k : Nat) : List Byte := match new.objs.find? (·.1 == i) with
    | some o => objRead s o.2 off k
    | none => freeBytes s k
  let s1 := if min near n = 0 then s else (forceWrite s part (old.near i 0) (src 0 (min near n))).count ovCtx 6 (min near n)
  if near < n then objWrite s1 (tget 0 old.objs i) 0 (src near (n - near)) else s1

/-- CUTOVER_COPY: once no lap below L is left here, the named images are copied into the old near ranges. -/
def execCutoverCopy (part model : Nat) (_errs : List EccErr) (s : State) : Host.Outcome State Fault Refusal :=
  .next (
    let p := s.part part
    match p.cut with
    | some c =>
      match c.cutLap, p.gen? model c.gen, p.live? model with
      | some l, some new, some old =>
        let cs := modelCtxs s part model
        let busy := s.srv.heats.any fun h => h.2.live && h.2.lapActive && cs.contains h.2.desc.ctx && decide (h.2.desc.lap < l)
        if c.model ≠ model ∨ c.copying ∨ busy then s
        else
          let s1 := (maskImages c.images).foldl (fun s i => copyImage s part new old i) s
          (s1.setPart part { s1.part part with cut := some { c with copying := true } }).drew 1
      | _, _, _ => s
    | none => s)

/-- The generation after a cut-over: the named images are the new one's, the others the old one's, in the old one's ranges and objects (R244). -/
def cutGen (new old : Gen) (images : Nat) : Gen :=
  let named (i : Nat) : Bool := (maskImages images).contains i
  { new with
    state := .live
    images := (List.range 12).map fun i => nth (0, 0) (if named i then new.images else old.images) i
    streamPages := if named 12 then new.streamPages else old.streamPages
    bases := old.bases
    objs := old.objs
    copies := (old.copies.filter fun e => !named e.1) ++ (if new.keepCopy then new.objs.filter fun e => named e.1 && e.1 != 12 else [])
    digests := (List.range 13).map fun i => nth 0 (if named i then new.digests else old.digests) i
    bound := old.bound + new.bound }

/-- CUTOVER_COPY_DONE: the new generation is LIVE in the old ranges, the old one is gone, and lap L may start (R239, R244). -/
def execCutoverCopyDone (part model : Nat) (s : State) : Host.Outcome State Fault Refusal :=
  .next (
    let p := s.part part
    match p.cut with
    | some c =>
      match c.copying && c.model == model, p.gen? model c.gen, p.live? model with
      | true, some new, some old =>
        let g := cutGen new old c.images
        let gone := (new.objs.map (·.2)).filter (fun o => !(g.copies.any fun e => e.2 == o)) ++
          (old.copies.filter fun e => !(g.copies.any fun x => x.2 == e.2)).map (·.2)
        let s1 := freeObjects s gone
        s1.setPart part { s1.part part with
          cut := none
          gens := ((s1.part part).gens.filter fun x => !(x.model == model && (x.number == new.number || x.number == old.number))) ++ [g] }
      | _, _, _ => s
    | none => s)

/-! ### The expert cache (R249 to R251) -/

/-- A cache slot's key: stack and index. -/
def cacheKey (st i : Nat) : Nat := st * 65536 + i

/-- One cache slot. -/
def Part.cslot (p : Part) (st i : Nat) : CSlot := tget CSlot.reset p.cache (cacheKey st i)

/-- The slot that holds or fetches a unit. -/
def findUnit (p : Part) (st layer unit : Nat) : Option Nat :=
  leastBelow p.cslots fun i => (p.cslot st i).state != .empty && (p.cslot st i).layer == layer && (p.cslot st i).unit == unit

/-- The victim: an EMPTY slot, or the unpinned READY slot with the oldest last use, the lower index on a tie (R250). -/
def victimSlot (p : Part) (st : Nat) : Option Nat :=
  match leastBelow p.cslots fun i => (p.cslot st i).state == .empty with
  | some i => some i
  | none => match (List.range p.cslots).filter fun i => (p.cslot st i).state == .ready && (p.cslot st i).pins == 0 with
    | [] => none
    | a :: r => some (r.foldl (fun b i => if (p.cslot st i).lastLap < (p.cslot st b).lastLap then i else b) a)

/-- Predicted fetches in progress on a stack. -/
def predictedNow (p : Part) (st : Nat) : Nat := ((List.range p.cslots).filter fun i => (p.cslot st i).state == .fetching && (p.cslot st i).predicted).length

/-- Heats with a kept assignment on a unit, each of which pins it. -/
def unitPins (s : State) (part layer unit : Nat) : Nat :=
  (s.srv.heats.filter fun h => h.2.live && h.2.desc.part == part && h.2.sets.any fun x => x.layer == layer && x.kept.any (·.expert == unit)).length

/-- CACHE_FETCH_START: the oldest demand of a stack, else the oldest prediction below LA_FETCH, takes a victim slot (R250, R325). -/
def execCacheFetchStart (part stack : Nat) (s : State) : Host.Outcome State Fault Refusal :=
  .next (
    let p := s.part part
    let mine := p.cacheReq.filter fun r => r.stack == stack
    let pick := match mine.find? fun r => !r.predicted with
      | some r => some r
      | none => if predictedNow p stack < s.cfg 0x0506 then mine.find? (·.predicted) else none
    match pick, victimSlot p stack with
    | some r, some i =>
      s.setPart part { p with
        cacheReq := p.cacheReq.erase r
        cache := tput p.cache (cacheKey stack i) { CSlot.reset with
          state := .fetching, layer := r.layer, unit := r.unit, predicted := r.predicted, pins := unitPins s part r.layer r.unit } }
    | _, _ => s)

/-- The near address of a cache slot: above the images (log 27). -/
def cacheNear (p : Part) (st i : Nat) : Nat := st * 2 ^ 36 + imageUnits p st * unit2M + i * (p.cslotMib * 1048576)

/-- An end ordered through a request's home: here, or by a message to it (R390). -/
def orderEnd (s : State) (home handle status fault : Nat) : State :=
  match reqIdx s handle with
  | some i =>
    if (s.req i).home = home then endReq (if (s.req i).isOpen then s.setReq i { s.req i with fault := fault } else s) i status
    else s.send (.role home) (.endOrder home handle status fault)
  | none => s.send (.role home) (.endOrder home handle status fault)

/-- The requests of a heat with a kept assignment on an expert of a layer. -/
def unitUsers (h : Heat) (layer unit : Nat) : List HeatRow :=
  let rows := (h.sets.filter fun x => x.layer == layer).flatMap fun x => (x.kept.filter fun e => e.expert == unit).map (·.row)
  let side (k : Nat) : List HeatRow := h.desc.rows.filter fun r => sideOf h.desc r.handle == k
  let expand (l : List HeatRow) : List HeatRow := l.flatMap fun r => List.replicate r.positions r
  let pick (k row : Nat) : List HeatRow := ((expand (side k))[row]?).toList
  rows.flatMap fun row => pick 0 row ++ pick 1 row

/-- The object that holds a generation's cold part on a stack, and where the unit lies in it. -/
def coldObject (s : State) (part : Nat) (r : CSlot) (stack : Nat) : Option (Nat × Nat) :=
  (s.part part).bundles.findSome? fun b => match (s.part part).live? b.model with
    | some g => (b.man.coldUnits.find? fun u => u.1 == r.layer && u.2.1 == r.unit && u.2.2.1 == stack).map fun u => (tget 0 g.objs stack, u.2.2.2)
    | none => none

/-- CACHE_FETCH_COMPLETE: the unit is READY in its slot; a failed prediction leaves the slot EMPTY, a failed demand also ends the requests that need
the unit; a NAND page that cannot be corrected damages its object (R218, R250, R251, R391). -/
def execCacheFetchComplete (part stack slot : Nat) (ok : Bool) (s : State) : Host.Outcome State Fault Refusal :=
  .next (settle (
    let p := s.part part
    let x := p.cslot stack slot
    if x.state != .fetching ∨ p.cslots ≤ slot then s
    else
      let obj := coldObject s part x stack
      if ok then
        let n := p.cslotMib * 1048576
        let s1 := match obj with
          | some o => farReads (forceWrite s part (cacheNear p stack slot) (objRead s o.1 o.2 n)) ovCtx o.1 o.2 n
          | none => s
        s1.setPart part { s1.part part with cache := tput (s1.part part).cache (cacheKey stack slot) { x with state := .ready } }
      else
        let s1 := s.setPart part { p with cache := tdel p.cache (cacheKey stack slot) }
        let s2 := match obj with
          | some o => if (s.obj o.1).tier = 2 then objDamage s1 o.1 else s1
          | none => s1
        if x.predicted then s2
        else (s2.srv.heats.filter fun h => h.2.live && (s2.ctx h.2.desc.ctx).part == part).foldl (fun s h =>
          (unitUsers h.2 x.layer x.unit).foldl (fun s r => orderEnd s r.home r.handle stOBJECT_DAMAGED 0) s) s2))

/-! ### The window ring (R252) -/

/-- The stream object and the pages of a Streamed partition's LIVE generation. -/
def streamOf (p : Part) : Option (Nat × Nat) :=
  p.gens.findSome? fun g => if g.state = .live ∧ 0 < g.streamPages then some (tget 0 g.objs 12, g.streamPages) else none

/-- The near address of a ring page: on stack i mod 12, above the images and the expert cache (log 27). -/
def ringNear (p : Part) (i : Nat) : Nat :=
  let st := i % 12
  st * 2 ^ 36 + (imageUnits p st + ceilDiv (p.cslots * p.cslotMib) 2 + i / 12) * unit2M

/-- RING_PAGE_FETCH: the fetch of stream page j into ring page j mod RPAGES starts. That the starter has released page j − RPAGES is the occasion of
the row (log 34). -/
def execRingPageFetch (part : Nat) (s : State) : Host.Outcome State Fault Refusal :=
  .next (
    let p := s.part part
    if p.residency ≠ 2 ∨ p.rpages = 0 ∨ p.loading ∨ (streamOf p).isNone then s
    else
      let i := p.nextPage % p.rpages
      s.setPart part { p with loading := true, ring := tput p.ring i ⟨p.nextPage, false⟩ })

/-- RING_PAGE_FETCH_DONE: the page has landed, or its object is damaged (R218, R252). -/
def execRingPageFetchDone (part page : Nat) (ok : Bool) (s : State) : Host.Outcome State Fault Refusal :=
  .next (settle (
    let p := s.part part
    match p.loading && p.nextPage == page, streamOf p with
    | true, some (o, n) =>
      let i := page % p.rpages
      if ok then
        let off := page % n * unit2M
        let s1 := farReads (forceWrite s part (ringNear p i) (objRead s o off unit2M)) ovCtx o off unit2M
        s1.setPart part { s1.part part with loading := false, nextPage := page + 1, ring := tput (s1.part part).ring i ⟨page, true⟩ }
      else
        let s1 := s.setPart part { p with loading := false, ring := tdel p.ring i }
        if (s.obj o).tier = 2 then objDamage s1 o else s1
    | _, _ => s))

/-! ### Poisoned lines (R208, R218, R297) -/

/-- The bytes of a near line in the generation that owns it, from its far-tier copy. -/
def copyLine (s : State) (p na : Nat) : Option (List Byte) :=
  let st := naStack na
  (s.part p).gens.findSome? fun g =>
    let off := naOff na - nth 0 g.bases st * unit2M
    if !g.isStaged && decide (nth 0 g.bases st * unit2M ≤ naOff na) && decide (off < g.nearLen (s.part p) st) then
      match g.copies.find? (·.1 == st) with
      | some c => if readStatus (s.obj c.2) = stOK then some (objRead s c.2 off 64) else none
      | none => none
    else none

/-- The session with a page over a near address. -/
def pageOwner (s : State) (p na : Nat) : Option Nat :=
  s.srv.maps.findSome? fun e =>
    if e.2.part = p ∧ e.2.lists.any (fun l => l.pages.any fun g =>
      decide (pageNear (s.part p) g ≤ na ∧ na < pageNear (s.part p) g + (s.part p).kvFrame * 1024)) then some e.1 else none

/-- POISON_REWRITE: a weight line from the twin's copy or the far tier; a KV line from the mirror, or its session is dropped; a firmware record from its
second copy. -/
def execPoisonRewrite (die line : Nat) (src : RewriteSource) (s : State) : Host.Outcome State Fault Refusal :=
  .next (
    if 12 ≤ die ∨ !tget false (s.bdie die).poison line then s
    else
      let put (l : List Byte) : State := (writeLine (s, []) die line 0 (bsub l 0 64) false []).1
      match lineOwner s die line with
      | none => match src with
        | .secondCopy l => put l
        | _ => s
      | some (p, na) =>
        match pageOwner s p na, src with
        | some _, .twin l => if s.twin.state = .paired then put l else s
        | some k, _ => dropSession s k
        | none, .twin l => if s.twin.state = .paired then put l else s
        | none, .farTier => (match copyLine s p na with
          | some l => put l
          | none => s)
        | none, .secondCopy l => put l)

/-! ### MDL messages (R421) -/

/-- The model identifier a payload begins with. -/
def mdlModel (m : Msg) : Nat := ble m.payload 0 8
def mdlGen (m : Msg) : Nat := ble m.payload 8 4

/-- Models a partition holds (R382). -/
def partModels (p : Part) : List Nat := dedup (p.bundles.map (·.model) ++ p.gens.map (·.model))

/-- A generation as MDL.GEN_CREATE describes it. -/
def genOfMsg (s : State) (p : Nat) (m : Msg) : Gen where
  model := mdlModel m
  number := mdlGen m
  state := if nbits (ble m.payload 12 1) 0 0 = 1 then .stagedLoading else .loading
  loadRef := newRef (s.part p)
  keepCopy := nbits (ble m.payload 12 1) 1 1 = 1
  copyCxl := nbits (ble m.payload 12 1) 2 2 = 1
  relaySrc := if nbits (ble m.payload 14 2) 15 15 = 1 then some (nbits (ble m.payload 14 2) 9 0) else none
  images := (List.range 12).map fun i => (ble m.payload (16 + 16 * i) 8, ble m.payload (24 + 16 * i) 8)
  streamPages := ble m.payload (16 + 192) 4
  bases := []
  objs := []
  copies := []
  written := []
  hashed := []
  overwrite := false
  dropped := 0
  digests := []
  bound := 0
  reloading := false

/-- Whether a model may have one more generation (R238): two with near images, one staged; four models (R382). -/
def genRoom (p : Part) (g : Gen) : Bool :=
  let mine := p.gens.filter fun x => x.model == g.model && x.isStaged == g.isStaged
  decide (mine.length < (if g.isStaged then 1 else 2)) && ((partModels p).contains g.model || decide ((partModels p).length < 4))

/-- MDL.GEN_CREATE (R231, R238, R239). -/
def bodyMdlGenCreate (s : State) (m : Msg) : State :=
  let p := mp s m
  let g := genOfMsg s p m
  let no (st : Nat) : State := reply s 0x0303 m st []
  if g.images.any (fun e => decide (e.1 < e.2)) then no stBAD_FIELD
  else if (s.part p).gens.any fun x => x.model == g.model && decide (g.number ≤ x.number) then no stGEN_MISMATCH
  else if g.keepCopy ∧ g.copyCxl ∧ !s.hasCxl then no stUNIT_ABSENT
  else if !genRoom (s.part p) g then no stNO_SPACE
  else match placeImages (s.part p) g with
    | none => no stNO_SPACE
    | some bases =>
      let g1 := { g with bases := bases }
      match makeObjects s p (genTier s g.copyCxl) (genObjects (s.part p) g1) [] with
      | some r =>
        let g2 := { g1 with objs := r.2 }
        reply (r.1.setPart p { r.1.part p with gens := (r.1.part p).gens ++ [g2] }) 0x0303 m stOK (leBytes 2 g2.loadRef)
      | none =>
        if g.isStaged ∧ g.relaySrc.isSome then
          reply (s.setPart p { s.part p with gens := (s.part p).gens ++ [g1] }) 0x0303 m stOK (leBytes 2 g1.loadRef)
        else no stTIER_FULL

/-- MDL_GEN_CREATE. -/
def execMdlGenCreate (m : Msg) (s : State) : Host.Outcome State Fault Refusal := .next (settle (serve s 0x0303 m bodyMdlGenCreate))

/-- What fails MDL.GEN_SEAL (R234). -/
def sealFail (g : Gen) : Option Nat :=
  if !g.isLoading then some stBAD_FIELD
  else if g.overwrite then some stLOAD_OVERWRITE
  else if !g.complete then some stLOAD_INCOMPLETE
  else none

/-- MDL.GEN_SEAL begins. -/
def bodyMdlGenSeal (s : State) (m : Msg) : State :=
  match (s.part (mp s m)).genRef? (ble m.payload 0 2) with
  | none => reply s 0x0304 m stBAD_FIELD []
  | some g => match sealFail g with
    | some st => reply s 0x0304 m st []
    | none => beginDeferred s 0x0304 m 0

/-- MDL_GEN_SEAL. -/
def execMdlGenSeal (m : Msg) (s : State) : Host.Outcome State Fault Refusal := .next (settle (serveDeferred s 0x0304 m bodyMdlGenSeal))

/-- Copies of the near images, sealed, or none where a tier has no room (R235). -/
def makeCopies (s : State) (p : Nat) (g : Gen) : Option (State × Tab Nat) :=
  if !g.keepCopy ∨ g.isStaged then some (s, [])
  else
    let l := (List.range 12).filterMap fun i => if g.nearLen (s.part p) i = 0 then none else some (i, g.nearLen (s.part p) i)
    match makeObjects s p (genTier s g.copyCxl) l [] with
    | none => none
    | some r => some (r.2.foldl (fun s e => objSeal (objWrite s e.2 0 (genRead s p g e.1 0 (g.nearLen (s.part p) e.1))) e.2) r.1, r.2)

/-- MDL.GEN_SEAL ends: protection, sealed objects, the 13 digests (R234, R235, R239). -/
def doneMdlGenSeal (s : State) (d : Deferred) : State :=
  let p := mp s d.msg
  match (s.part p).genRef? (ble d.msg.payload 0 2) with
  | none => endDeferred s d stBAD_FIELD []
  | some g => match sealFail g with
    | some st => endDeferred s d st []
    | none => match makeCopies s p g with
      | none => endDeferred s d stTIER_FULL []
      | some (s1, copies) =>
        let ds := (List.range 13).map g.digest
        let s2 := (g.objs.map (·.2)).foldl objSeal (if g.isStaged then s1 else protectGen s1 p g)
        let s3 := modGen s2 p g fun x => { x with state := if g.isStaged then .staged else .sealedGen, copies := copies, digests := ds }
        endDeferred s3 d stOK (ds.flatMap digestBytes)

/-- STATE of MDL.GEN_STATUS, in the order R239 names the states (log 35). -/
def GenState.code (x : GenState) : Nat :=
  match x with
  | .loading => 0
  | .stagedLoading => 1
  | .sealedGen => 2
  | .staged => 3
  | .live => 4
  | .draining => 5

/-- MDL.GEN_STATUS. -/
def bodyMdlGenStatus (s : State) (m : Msg) : State :=
  match (s.part (mp s m)).genRef? (ble m.payload 0 2) with
  | none => reply s 0x0305 m stBAD_FIELD []
  | some g => reply s 0x0305 m stOK (leBytes 1 g.state.code ++ leBytes 1 (b2n g.overwrite) ++ zeros 6 ++ leBytes 8 (g.written.foldl (fun a e => a + e.2) 0) ++
      leBytes 4 g.hashed.length ++ leBytes 4 g.chunks.length ++ leBytes 8 g.dropped ++ leBytes 4 g.bound)

/-- MDL_GEN_STATUS. -/
def execMdlGenStatus (m : Msg) (s : State) : Host.Outcome State Fault Refusal := .next (settle (serve s 0x0305 m bodyMdlGenStatus))

/-- MDL.GEN_ACTIVATE begins: this package coordinates (R242). An unknown generation, or an activation of the model in progress, aborts. -/
def bodyMdlGenActivate (s : State) (m : Msg) : State :=
  let p := mp s m
  match (s.part p).gen? (mdlModel m) (mdlGen m) with
  | none => reply s 0x0306 m stGEN_MISMATCH []
  | some g =>
    if (s.part p).act.isSome then reply s 0x0306 m stCUTOVER_ABORTED []
    else
      let s1 := beginDeferred s 0x0306 m 0
      let s2 := s1.setPart p { s1.part p with act := some ⟨g.model, g.number, partNodes s p, s.aon, m.path, m.tag⟩ }
      sendJob s2 p (.genPrepare p g.model g.number)

/-- MDL_GEN_ACTIVATE. -/
def execMdlGenActivate (m : Msg) (s : State) : Host.Outcome State Fault Refusal := .next (settle (serveDeferred s 0x0306 m bodyMdlGenActivate))

/-- MDL.GEN_CUTOVER begins: this package coordinates (R243). -/
def bodyMdlGenCutover (s : State) (m : Msg) : State :=
  let p := mp s m
  match (s.part p).gen? (mdlModel m) (mdlGen m) with
  | none => reply s 0x0307 m stGEN_MISMATCH []
  | some g =>
    if (s.part p).cut.isSome ∨ g.state ≠ .staged then reply s 0x0307 m stCUTOVER_ABORTED []
    else
      let s1 := beginDeferred s 0x0307 m 0
      let c : CutSt := ⟨g.model, g.number, ble m.payload 12 2, true, partNodes s p, 0, s.aon, 0, 0, none, false, false, m.path, m.tag⟩
      sendJob (s1.setPart p { s1.part p with cut := some c }) p (.cutPrepare p g.model g.number c.images)

/-- MDL_GEN_CUTOVER. -/
def execMdlGenCutover (m : Msg) (s : State) : Host.Outcome State Fault Refusal := .next (settle (serveDeferred s 0x0307 m bodyMdlGenCutover))

/-- A decided deferred command posts its response: CUT_LAP for a cut-over that committed. -/
def doneDecided (s : State) (d : Deferred) : State :=
  if d.note = 0 then s
  else
    let body := if d.type = 0x0307 ∧ d.note = 1 then match (s.part (mp s d.msg)).cut with
        | some c => leBytes 8 (c.cutLap.getD 0)
        | none => leBytes 8 0
      else []
    endDeferred s d (d.note - 1) body

/-- MDL.GEN_DELETE (R239). -/
def bodyMdlGenDelete (s : State) (m : Msg) : State :=
  let p := mp s m
  match (s.part p).gen? (mdlModel m) (mdlGen m) with
  | none => reply s 0x0308 m stGEN_MISMATCH []
  | some g => if g.state = .live ∨ g.state = .draining then reply s 0x0308 m stGEN_IN_USE [] else reply (freeGen s p g) 0x0308 m stOK []

/-- MDL_GEN_DELETE. -/
def execMdlGenDelete (m : Msg) (s : State) : Host.Outcome State Fault Refusal := .next (settle (serve s 0x0308 m bodyMdlGenDelete))

/-- The target roles of MDL.RELAY. -/
def relayRoles (m : Msg) : List Nat := (List.range (ble m.payload 4 1)).map fun i => ble m.payload (8 + 2 * i) 2

/-- MDL.RELAY begins: every chunk already complete is sent (R236). -/
def bodyMdlRelay (s : State) (m : Msg) : State :=
  let p := mp s m
  let n := ble m.payload 4 1
  match (s.part p).genRef? (ble m.payload 0 2) with
  | none => reply s 0x0309 m stBAD_FIELD []
  | some g =>
    if n = 0 ∨ s.cfg 0x0303 < n ∨ (relayRoles m).any (fun r => decide (1023 ≤ r)) then reply s 0x0309 m stBAD_FIELD []
    else if (relayRoles m).any (fun r => (s.roleNode r).isNone) ∨ (s.part p).relay.isSome then reply s 0x0309 m stRELAY_FAILED (zeros 12)
    else
      let nodes := (relayRoles m).filterMap s.roleNode
      let r : Relay := ⟨g.number, g.model, ble m.payload 2 2, nodes.map fun n => (n, []), m.path, m.tag⟩
      let s1 := beginDeferred s 0x0309 m 0
      let s2 := s1.setPart p { s1.part p with relay := some r }
      ((relayChunks g r.images).filter fun x => !g.isLoading || g.full x.1 x.2).foldl (fun s x => sendChunk s p g x.1 x.2 nodes) s2

/-- MDL_RELAY. -/
def execMdlRelay (m : Msg) (s : State) : Host.Outcome State Fault Refusal := .next (settle (serveDeferred s 0x0309 m bodyMdlRelay))

/-- MDL.RELAY ends when every target has acknowledged every chunk, or a target is lost (R237). -/
def doneMdlRelay (s : State) (d : Deferred) : State :=
  let p := mp s d.msg
  match (s.part p).relay with
  | none => endDeferred s d stRELAY_FAILED (zeros 12)
  | some r =>
    let body := (List.range 3).flatMap fun i => leBytes 4 (nth (0, []) r.targets i).2.length
    let s1 := s.setPart p { s.part p with relay := none }
    if r.targets.any (fun t => !reachable s t.1) then endDeferred s1 d stRELAY_FAILED body
    else match (s.part p).gen? r.model r.gen with
      | none => endDeferred s1 d stRELAY_FAILED body
      | some g => if r.targets.all fun t => t.2.length == (relayChunks g r.images).length then endDeferred s1 d stOK body else s

/-- Whether a context belongs to a partition. -/
def ctxOf (s : State) (p c : Nat) : Bool := (s.ctx c).state != .none && (s.ctx c).part == p

/-- MDL.ADAPTER_LOAD and MDL.ADAPTER_REPLACE (R254, R256). -/
def adapterBegin (s : State) (code : Nat) (m : Msg) (replace : Bool) : State :=
  let p := mp s m
  let c := ble m.payload 0 1
  let id := ble m.payload 2 2
  let len := ble m.payload 4 4
  let x := s.part p
  let free := leastBelow x.aslots fun i => (x.aslot i).state == .free
  let no (st : Nat) : State := reply s code m st []
  if !ctxOf s p c then no stCTX_UNKNOWN
  else if id = 0 ∨ len = 0 ∨ x.aslotMib * 1048576 < len then no stBAD_FIELD
  else if !replace ∧ (mappedSlot x c id).isSome then no stBAD_FIELD
  else if replace ∧ (free.isNone ∨ x.adapters.any fun a => a.2.state == .loading && a.2.replace && a.2.ctx == c && a.2.adapter == id) then no stADAPTER_BUSY
  else match free with
    | none => no stNO_SPACE
    | some i =>
      let a := { ASlot.reset with state := ASlotState.loading, ctx := c, adapter := id, replace := replace, fn := pathFn m.path, loadRef := newRef x, length := len }
      reply (setAslot s p i a) code m stOK (leBytes 2 a.loadRef)

/-- MDL.ADAPTER_LOAD. -/
def bodyMdlAdapterLoad (s : State) (m : Msg) : State := adapterBegin s 0x030A m false

/-- MDL_ADAPTER_LOAD. -/
def execMdlAdapterLoad (m : Msg) (s : State) : Host.Outcome State Fault Refusal := .next (settle (serve s 0x030A m bodyMdlAdapterLoad))

/-- MDL.ADAPTER_REPLACE. -/
def bodyMdlAdapterReplace (s : State) (m : Msg) : State := adapterBegin s 0x030B m true

/-- MDL_ADAPTER_REPLACE. -/
def execMdlAdapterReplace (m : Msg) (s : State) : Host.Outcome State Fault Refusal := .next (settle (serve s 0x030B m bodyMdlAdapterReplace))

/-- MDL.ADAPTER_UNLOAD (R254). -/
def bodyMdlAdapterUnload (s : State) (m : Msg) : State :=
  let p := mp s m
  if !ctxOf s p (ble m.payload 0 1) then reply s 0x030C m stCTX_UNKNOWN []
  else match mappedSlot (s.part p) (ble m.payload 0 1) (ble m.payload 2 2) with
    | none => reply s 0x030C m stADAPTER_UNKNOWN []
    | some i => reply (retireSlot s p i) 0x030C m stOK []

/-- MDL_ADAPTER_UNLOAD. -/
def execMdlAdapterUnload (m : Msg) (s : State) : Host.Outcome State Fault Refusal := .next (settle (serve s 0x030C m bodyMdlAdapterUnload))

end Sys2Proof.Machine
end

