-- ==== Sys2Proof/Machine/Kv.lean ====
section
/-!
DEFINITION. KV at work: a lap's frames and slots (R281, R284, R285, R292 to R296), the seal's outcome at a holder (R281, R353), the mirror
(R282, R283), park and resume (R285 to R291), drops (R294).
-/

namespace Sys2Proof.Machine

/-! ### Room in a pool (R292, R293) -/

/-- A session of a partition this package may drop: 1 HELD here or a Summary record in the pool, 2 LIVE with no lap in progress here, none otherwise. -/
def dropClass (m : KvMap) (part : Nat) : Option Nat :=
  if m.part ≠ part then none
  else if !m.present then (if m.poolFrames.isEmpty then none else some 1)
  else if m.lapOn ∨ m.record.isSome ∨ !m.poolFrames.isEmpty then none
  else if m.held then some 1 else some 2

/-- The next session dropped, other than `k`: class, then the earliest last seal, then the lower session index. -/
def dropVictim (s : State) (part k : Nat) : Option Nat :=
  let l := s.srv.maps.filterMap fun e => if e.1 = k then none else (dropClass e.2 part).map fun c => (c, e.2.lastSeal, keyIdx e.1, e.1)
  let lt (a b : Nat × Nat × Nat × Nat) : Bool :=
    decide (a.1 < b.1 ∨ (a.1 = b.1 ∧ (a.2.1 < b.2.1 ∨ (a.2.1 = b.2.1 ∧ a.2.2.1 < b.2.2.1))))
  (sortBy lt l).head?.map fun x => x.2.2.2

/-- An allocation tried again after each drop, until it succeeds or no session is left to drop; `n` bounds the drops. -/
def withRoom (n : Nat) (s : State) (part k : Nat) (f : State → Option State) : State × Bool :=
  match f s with
  | some r => (r, true)
  | none => match n, dropVictim s part k with
    | n + 1, some v => withRoom n (dropSession s v) part k f
    | _, _ => (s, false)

/-! ### Sharing a prefix (R284) -/

/-- The pages of a list over its first `n` positions, shared where they are full and wholly committed, copied otherwise; the partition and the copies
to make: from, to, page. -/
def sharePages (p : Part) (home n : Nat) (l : List Page) (acc : List Page) (cps : List (Page × Nat)) : Option (Part × List Page × List (Page × Nat)) :=
  match l with
  | [] => some (p, acc, cps)
  | g :: r =>
    if n ≤ g.pos0 then some (p, acc, cps)
    else if g.fill = 64 ∧ g.pos0 + 64 ≤ n then
      sharePages { p with frames := tput p.frames g.key (tget 0 p.frames g.key + 1) } home n r (acc ++ [{ g with shared := true }]) cps
    else match takeFrame p home with
      | none => none
      | some x => sharePages x.1 home n r
          (acc ++ [{ g with stack := x.2 / 2 ^ 20, frame := x.2 % 2 ^ 20, fill := min g.fill (n - g.pos0), shared := false, mirror := false }])
          (cps ++ [(g, x.2)])

/-- A list's first `n` positions taken into a new list of the same layer and head. -/
def shareList (s : State) (part n d : Nat) (src : KvList) (dst : KvList) : Option (State × KvList) :=
  match sharePages (s.part part) dst.home n src.pages [] [] with
  | none => none
  | some (p, pages, cps) =>
    let s1 := cps.foldl (fun s c => forceWrite s part (frameNear p c.2)
      (stackRead s c.1.stack (physOff s part (pageNear p c.1)) (kvPageBytes c.1.fmt d))) (s.setPart part p)
    some (s1, KvList.mark { dst with pages := pages })

/-- Every list of a new map takes its prefix from the map of the session it shares with, whose pages are marked SHARED too. -/
def shareLists (s : State) (part n d : Nat) (src : List KvList) (l : List KvList) (acc : List KvList) : Option (State × List KvList) :=
  match l with
  | [] => some (s, acc)
  | x :: r => match src.find? fun y => y.layer == x.layer && y.head == x.head with
    | none => shareLists s part n d src r (acc ++ [x])
    | some y => match shareList s part n d y x with
      | none => none
      | some z => shareLists z.1 part n d src r (acc ++ [z.2])

/-- The pages of a map over its first `n` positions marked SHARED. -/
def KvMap.markShared (m : KvMap) (n : Nat) : KvMap :=
  { m with lists := m.lists.map fun l => { l with pages := l.pages.map fun (g : Page) =>
    if g.fill = 64 ∧ g.pos0 + 64 ≤ n then { g with shared := true } else g } }

/-! ### A heat is fetched (R292, R296) -/

/-- Whether a request's lists lie on this package: it serves a role of the request's side, or the heat is a lock-step heat, or no role is known
(R300, R481, R503). -/
def servesRow (s : State) (h : Heat) (handle : Nat) : Bool :=
  h.lockstep || s.ownRoles.isEmpty || s.ownRoles.any fun r => r % 2 == sideOf h.desc handle

/-- A session's map on this package as a lap finds it: created at its first lap, with its shared prefix; the write format is the partition's (R262). -/
def lapMap (s : State) (part : Nat) (man : Manifest) (r : HeatRow) : Option State :=
  let k := sessKey r.home r.session
  let m := s.map k
  let fmt := (s.part part).kvFmt
  if m.present then some (s.setMap k { m with wfmt := fmt })
  else
    let n := { newMap s part r.home man.headWidth fmt man.lists with record := m.record, poolFrames := m.poolFrames, recLen := m.recLen, recFrames := m.recFrames, outcome := m.outcome }
    match r.share with
    | none => some (s.setMap k n)
    | some i =>
      let ks := sessKey r.home i
      match shareLists s part r.pos0 man.headWidth (s.map ks).lists n.lists [] with
      | none => none
      | some z => some ((z.1.setMap ks ((z.1.map ks).markShared r.pos0)).setMap k { n with lists := z.2, clen := r.pos0 })

/-- The frames of a row's appends. -/
def growRow (s : State) (part : Nat) (man : Manifest) (lap : Nat) (r : HeatRow) : Option State :=
  let k := sessKey r.home r.session
  match lapMap s part man r with
  | none => none
  | some s1 =>
    let m := s1.map k
    match growLists (s1.part part) m.lists m.wfmt r.positions [] with
    | none => none
    | some g => some ((s1.setPart part g.1).setMap k
        { m with lists := g.2, plen := r.positions, lap := lap, lapOn := true, held := false, lastReq := r.handle })

/-- The account a row's energy is charged to on this package (R514, R518, R519); its first charge opens a share (R520). -/
def lapAcct (s : State) (h : Heat) (r : HeatRow) : State :=
  match findAcct s r.home r.handle with
  | some _ => modAcct s r.home r.handle fun a => { a with
      positions := a.positions + r.positions, lapFirst := some (a.lapFirst.getD h.desc.lap), lapLast := some h.desc.lap,
      prefillLap := h.desc.prefill, lapA := 0, lapN := r.positions, lapOpen := true }
  | none =>
    let a : Acct := {
      home := r.home, handle := r.handle, tenant := r.tenant, part := h.desc.part, ctx := h.desc.ctx, gen := h.desc.generation, acts := [],
      lapUj := 0, prefillLap := h.desc.prefill, ePrefill := 0, eDecode := 0, eSpec := 0, eResid := 0, spanAt := s.aon,
      lapFirst := some h.desc.lap, lapLast := some h.desc.lap, positions := r.positions, seq := 0, prevHash := 0, lapA := 0, lapN := r.positions,
      lapOpen := true, finalAt := none, closed := false, late := false }
    let s1 := ({ s with energy := { s.energy with accts := s.energy.accts ++ [a] } }).send (.role r.home) (.shareOpen r.home r.handle s.pkg.serial)
    if (reqIdx s r.handle).isSome && s.hasRole r.home then s1 else bindGen s1 h.desc.part (s.ctx h.desc.ctx).model h.desc.generation

/-- The home's own view of a row at its lap: the session is LIVE with its first lap (R285), and a change of the write format under a running
request is noted (R262). -/
def homeLap (s : State) (part : Nat) (r : HeatRow) : State :=
  match reqIdx s r.handle with
  | none => s
  | some i =>
    let q := s.req i
    if q.home ≠ r.home then s
    else
      let x := s.sess q.sessIdx
      let m := s.map (sessKey r.home r.session)
      let s1 := if x.state = .absent then putSess s q.sessIdx { x with state := .live } else s
      if m.present ∧ m.wfmt ≠ (s.part part).kvFmt then s1.setReq i { q with kvFmtChanged := true } else s1

/-- One row's lap begins here, after what the pool needs has been dropped; where that is not enough the request ends with KV_FULL (R296). -/
def fetchRow (s : State) (h : Heat) (man : Manifest) (r : HeatRow) : State :=
  let part := h.desc.part
  let s0 := lapAcct (homeLap s part r) h r
  if !servesRow s h r.handle then s0
  else
    let k := sessKey r.home r.session
    let x := withRoom (s.srv.maps.length + 1) s0 part k fun s => growRow s part man h.desc.lap r
    if x.2 then fitRecords x.1 k else orderEnd x.1 r.home r.handle stKV_FULL 0

/-- Exits of a heat's rows, as the confidence heads will find them: for each request's positions in order an exit layer that never falls, or none from
some position on (R329 to R331; free values, log 39). -/
def drawExits (s : State) (rows : List HeatRow) (layers : List Nat) (row : Nat) : List (Nat × Nat) × State :=
  match rows with
  | [] => ([], s)
  | r :: rest =>
    let step (a : List (Nat × Nat) × Nat × State) (i : Nat) : List (Nat × Nat) × Nat × State :=
      let d := a.2.2.draw (layers.length + 1)
      let j := max a.2.1 d.1
      match layers[j]? with
      | some l => (a.1 ++ [(row + i, l)], j, d.2)
      | none => (a.1, j, d.2)
    let m := (List.range r.positions).foldl step ([], 0, s)
    let t := drawExits m.2.2 rest layers (row + r.positions)
    (m.1 ++ t.1, t.2)

/-- Whether a heat's lap can start here: the context is RESIDENT with free slots, no earlier outcome of its rows is due (R281), and no cut-over holds
it (R243, R244). -/
def fetchable (s : State) (h : Heat) (man : Manifest) : Bool :=
  let c := h.desc.ctx
  h.live && !h.fetched && !s.entry.flushed && (s.ctx c).state == .resident && (s.part h.desc.part).state == .active && cutAdmits s c h.desc.lap &&
  h.keys.all (fun k => !(s.map k).lapOn) && man.footprint.all fun f => (s.slot f.1 (s.ctx c).slot).heat == 0

/-! ### The seal's outcome (R281, R353) -/

/-- A verifier keeps a verdict until the outcome of the request's following lap arrives, or the request ends (R484). -/
def dropVerdicts (s : State) (o : OutcomeMsg) : State :=
  { s with srv := { s.srv with heats := s.srv.heats.map fun e => (e.1, { e.2 with
    keptVerdicts := e.2.keptVerdicts.filter fun v => !(v.handle == o.handle && (o.final || decide (v.lap < o.lap))) }) } }

/-- The last outcome of a request that ends between two laps: no lap of it is left here, but its share may close, its session's lists are no longer of a
running request, and it counts off its generation (R240, R518). -/
def lateFinal (s : State) (o : OutcomeMsg) : State :=
  match findAcct s o.home o.handle with
  | none => s
  | some a =>
    let s1 := modAcct s o.home o.handle fun x => { x with finalAt := some s.aon }
    let ks := tkeys (s1.srv.maps.filter fun e => e.2.present && !e.2.lapOn && e.2.home == o.home && e.2.lastReq == o.handle)
    let s2 := ks.foldl (fun s k => s.setMap k { s.map k with held := true }) s1
    if s.hasRole o.home then s2 else unbindGen s2 a.part (s.ctx a.ctx).model a.gen

/-- SEAL_OUTCOME: an outcome reaches a holder; it is applied once this package's part of the lap has finished. -/
def execSealOutcome (o : OutcomeMsg) (s : State) : Host.Outcome State Fault Refusal :=
  .next (settle (match (heatsOf s o.home o.handle).find? fun x => x.2.1.desc.lap == o.lap with
    | some (id, h, r) =>
      let s1 := takeOutcome (dropVerdicts s o) id h r o
      -- a package other than the home counts the request off its generation with its last outcome (R240)
      if o.final && !(s.hasRole o.home) then unbindGen s1 h.desc.part (s.ctx h.desc.ctx).model h.desc.generation else s1
    | none => if o.final then lateFinal (dropVerdicts s o) o else s))

/-! ### The mirror (R282, R283) -/

/-- The head width whose one position has `n` bytes in a format. -/
def widthOf (fmt n : Nat) : Option Nat :=
  ((List.range 8).map fun i => 32 * (i + 1)).find? fun d => 2 * (kvRow fmt d + (if fmtBlock fmt then d / 32 else 0)) == n

/-- The partition a mirrored session belongs to: that of its mirror, its map or the heat that carries it. -/
def mirrorPart (s : State) (k : Nat) : Option Nat :=
  if (s.mirror k).present then some (s.mirror k).part
  else if (s.map k).present then some (s.map k).part
  else s.srv.heats.findSome? fun e => if e.2.live && e.2.keys.contains k then some e.2.desc.part else none

/-- The slot of a position in a list's pages: page, slot. -/
def pageSlot (l : KvList) (pos : Nat) : Option (Page × Nat) :=
  (l.pages.find? fun g => decide (g.pos0 ≤ pos ∧ pos < g.pos0 + g.fill)).map fun g => (g, pos - g.pos0)

/-- A mirror list with a position in it, in its format: pages from the first of another format are let go first. -/
def mirrorSlot (s : State) (part k layer head pos fmt : Nat) : Option State :=
  let m := s.mirror k
  let p := s.part part
  let st := poolStacks p
  let l := (m.lists.find? fun l => l.layer == layer && l.head == head).getD
    ⟨layer, head, nth 0 st (if st.isEmpty then 0 else m.lists.length % st.length), true, false, []⟩
  let t := match pageSlot l pos with
    | some (g, _) => if g.fmt = fmt then (p, l) else trimList p l pos
    | none => (p, l)
  match growList (pos / 64 + 3) t.1 t.2 fmt (pos + 1 - listFill t.2) with
  | none => none
  | some g => some ((s.setPart part g.1).setMirror k
      { m with lists := (m.lists.filter fun x => !(x.layer == layer && x.head == head)) ++ [g.2] })

/-- MIRROR_APPEND: the twin's bytes of one appended position are written into this package's mirror page for the same list and position (R282), and
acknowledged. -/
def execMirrorAppend (src session layer head pos fmt : Nat) (data : List Byte) (s : State) : Host.Outcome State Fault Refusal :=
  .next (match mirrorPart s session, widthOf fmt data.length with
    | some part, some d =>
      if s.twinNode ≠ some src ∨ !kvCode fmt ∨ (s.part part).kvFrame * 1024 < kvPageBytes fmt d then s
      else
        let m := s.mirror session
        let s0 := if m.present then s else s.setMirror session { KvMap.reset with present := true, part := part, d := d, wfmt := fmt, home := keyHome session }
        let r := withRoom (s.srv.maps.length + 1) s0 part session fun s => mirrorSlot s part session layer head pos fmt
        match r.2, ((r.1.mirror session).lists.find? fun l => l.layer == layer && l.head == head).bind fun l => pageSlot l pos with
        | true, some (g, j) =>
          let ranges := kvRowRanges fmt d j 1
          let w := ranges.foldl (fun (a : State × List Byte) x => (forceWrite a.1 part (pageNear (a.1.part part) g + x.1) (a.2.take x.2), a.2.drop x.2)) (r.1, data)
          let s1 := chargeReq w.1 (keyHome session) (s.map session).lastReq 6 data.length
          s1.send (.node src) (.mirrorAck session layer head pos 1)
        | _, _ => r.1
    | _, _ => s)

/-- A resumed session is complete here once its pages are mirrored (R291). -/
def resumeDone (s : State) (k : Nat) : State :=
  let m := s.map k
  if m.present && m.record.isSome && m.unacked == 0 && !m.held then
    let s1 := freeRecord s k
    s1.send (.role (keyHome k)) (.resumeReport k true)
  else s

/-- MIRROR_ACK: the twin has written appended positions; with the last one a lap's part here may be complete (R283, R349). -/
def execMirrorAck (session _layer _head _pos count : Nat) (s : State) : Host.Outcome State Fault Refusal :=
  .next (settle (
    let m := s.map session
    if m.unacked = 0 then s
    else
      let s1 := s.setMap session { m with unacked := m.unacked - count }
      if m.unacked ≤ count then
        let ids := tkeys (s1.srv.heats.filter fun e => e.2.live && e.2.lapActive && e.2.keys.contains session)
        resumeDone (ids.foldl reportLap s1) session
      else s1))

/-! ### Park (R285 to R289) -/

/-- Bytes to the next multiple of 64. -/
def pad64 (l : List Byte) : List Byte := l ++ zeros ((64 - l.length % 64) % 64)

/-- Whether Summary mode keeps a page unchanged (R289). -/
def keepsPage (clen : Nat) (g : Page) : Bool := decide (clen ≤ 576) || g.pos0 == 0 || decide (clen < g.pos0 + g.fill + 512)

/-- The format a page has in a record: 1 Park-to-tier, 2 Summary. -/
def recordFmt (mode clen : Nat) (g : Page) : Nat := if mode = 2 ∧ !keepsPage clen g then 4 else g.fmt

/-- The image of a page in a record: its bytes, or its rows decoded and quantized to W2; `u` draws the random values of stochastic rounding (R289). -/
def pageImage (s : State) (p mode clen d : Nat) (seed : Option Nat) (g : Page) : List Byte :=
  let na := pageNear (s.part p) g
  if recordFmt mode clen g = g.fmt then stackRead s g.stack (physOff s p na) (kvPageBytes g.fmt d)
  else
    let rd := pageRd s p na
    let half (v : Bool) : List Byte :=
      let rows := (List.range g.fill).map fun j => kvRowBytes 4
        (fun e => seed.map fun x => random16 x (((2 * (g.pos0 + j) + b2n v) * d + e) % 2 ^ 32))
        ((List.range d).map fun e => (encode 0 none (kvNum rd g.fmt d v j e)).1)
      bsub (rows.flatMap (·.1)) 0 (64 * kvRow 4 d) ++ bsub (rows.flatMap fun r => r.2.1) 0 (kvScales 4 d)
    half false ++ half true

/-- The park record of a session's lists on this package (R287). -/
def parkRecord (s : State) (k mode : Nat) (seed : Option Nat) : List Byte :=
  let m := s.map k
  let lists := sortBy (fun (a b : KvList) => decide (a.layer < b.layer ∨ (a.layer = b.layer ∧ a.head < b.head))) m.lists
  let pages := lists.flatMap (·.pages)
  let imgs := pages.map (pageImage s m.part mode m.clen m.d seed)
  let head := leBytes 4 0x4B505658 ++ leBytes 1 mode ++ leBytes 1 1 ++ leBytes 2 m.d ++ leBytes 4 m.clen ++ leBytes 2 lists.length ++ zeros 2 ++
    leBytes 4 (keyIdx k) ++ zeros 4 ++ leBytes 8 m.lap ++ zeros 32
  let lh := pad64 (lists.flatMap fun l => leBytes 2 l.layer ++ leBytes 1 l.head ++ zeros 1 ++ leBytes 2 l.pages.length ++ zeros 10)
  let base := 64 + lh.length + roundUp (16 * pages.length) 64
  let offs := (imgs.foldl (fun (a : List Nat × Nat) i => (a.1 ++ [a.2], a.2 + i.length)) ([], base)).1
  let ds := pad64 ((List.range pages.length).flatMap fun i =>
    let g := nth ⟨0, 0, 0, 0, 0, false, false⟩ pages i
    leBytes 5 (nth 0 offs i) ++ leBytes 1 (recordFmt mode m.clen g) ++ leBytes 1 g.fill ++ zeros 1 ++ leBytes 4 g.pos0 ++ zeros 4)
  head ++ lh ++ ds ++ imgs.flatMap id

/-- The tier of a park record (R288). -/
def parkTier (s : State) : Nat := if s.cfg 0x0405 = 1 ∨ !s.hasNand then 1 else 2

/-- A record kept: an object, or, for a Summary on a grade without far tiers, frames of the pool (R288, R289). -/
def keepRecord (s : State) (k mode : Nat) (l : List Byte) : Option State :=
  let m := s.map k
  let p := s.part m.part
  if mode = 2 ∧ !s.hasCxl then
    let fb := p.kvFrame * 1024
    match takeFrames (ceilDiv l.length fb) p [] with
    | none => none
    | some r =>
      let s1 := (List.range r.2.length).foldl (fun s i => forceWrite s m.part (frameNear r.1 (nth 0 r.2 i)) (bsub l (i * fb) (min fb (l.length - i * fb)))) (s.setPart m.part r.1)
      some (s1.setMap k { m with poolFrames := r.2, recLen := l.length })
  else match objCreate s m.part (parkTier s) (if mode = 2 then okSUMMARY else okPARKED) l.length (s.cfg 0x0403 * 4000000) with
    | none => none
    | some r => some ((objSeal (objWrite r.1 r.2 0 l) r.2).setMap k { m with record := some r.2, recLen := l.length })

/-- PARK_ORDER: this package builds and seals its park record (R285, R287). A page line that cannot be corrected drops the session (R297). -/
def execParkOrder (session : Nat) (errs : List EccErr) (s : State) : Host.Outcome State Fault Refusal :=
  .next (settle (
    let m := s.map session
    let home : Dest := .role (keyHome session)
    if m.record.isSome ∨ !m.poolFrames.isEmpty ∨ m.lapOn then s
    else if !m.present then s.send home (.parkReport session true)
    else
      let rs := m.lists.flatMap fun l => l.pages.flatMap fun g =>
        (kvRowRanges g.fmt m.d 0 g.fill).map fun x => (pageNear (s.part m.part) g + x.1, x.2)
      let chk := checkRanges s m.part rs errs
      if chk.2 then dropSession chk.1 session
      else
        let mode := if (s.part m.part).park = 2 then 2 else 1
        let sr := s.cfg 0x0404 = 1 ∧ mode = 2
        let d := if sr then chk.1.draw (2 ^ 32) else (0, chk.1)
        let l := parkRecord chk.1 session mode (if sr then some d.1 else none)
        match keepRecord d.2 session mode l with
        | none => d.2.send home (.parkReport session false)
        | some s1 =>
          let s2 := chargeReq (chargeReq s1 (keyHome session) m.lastReq 6 l.length) (keyHome session) m.lastReq 4 l.length
          let s3 := match (s2.map session).record with
            | some _ => chargeReq s2 (keyHome session) m.lastReq 8 l.length
            | none => s2
          s3.send home (.parkReport session true)))

/-- The home of a session orders its parking on every package that holds it (R285). -/
def startPark (s : State) (idx : Nat) : State :=
  let x := s.sess idx
  let k := sessKey x.home idx
  let nodes := jobNodes s x.ctx
  nodes.foldl (fun s n => s.send (.node n) (.parkOrder k)) (putSess s idx { x with state := .parking, waiting := nodes })

/-- PARK_IDLE_EXPIRY: a HELD session's PARK_IDLE_MS has passed (R285). -/
def execParkIdleExpiry (session : Nat) (s : State) : Host.Outcome State Fault Refusal :=
  .next (
    let x := s.sess session
    let ms := s.cfg 0x0402
    if x.isOpen && x.state == .held && ms != 0 && (s.part x.part).park != 0 && decide (x.heldAt + msAon ms ≤ s.aon) then startPark s session else s)

/-- A message about a session to every other package of its job, with its effect here. -/
def tellJob (s : State) (idx : Nat) (m : FwMsg) (here : State → State) : State :=
  (jobNodes s (s.sess idx).ctx).foldl (fun s n => if n = s.fab.node then here s else s.send (.node n) m) s

/-- PARKED: this package frees the frames and mirror frames of a session, its record kept. -/
def parkFree (s : State) (k : Nat) : State := freeMirror (freePages s k) k

/-- PARK_REPORT: with the last package's record sealed the session is PARKED; a failure deletes the records and returns it to HELD (R285). -/
def execParkReport (session node : Nat) (ok : Bool) (s : State) : Host.Outcome State Fault Refusal :=
  .next (
    let x := s.sess session
    let k := sessKey x.home session
    if !x.isOpen ∨ x.state ≠ .parking ∨ !(x.waiting.contains node) then s
    else if !ok then tellJob (putSess s session { x with state := .held, heldAt := s.aon, waiting := [] }) session (.recordDrop k) (freeRecord · k)
    else
      let w := x.waiting.filter (· != node)
      if w.isEmpty then tellJob (putSess s session { x with state := .parked, waiting := [] }) session (.parkDone k) (parkFree · k)
      else putSess s session { x with waiting := w })

/-! ### Resume (R285, R291) -/

/-- The bytes of a package's record of a session, where they can be read. -/
def recordBytes (s : State) (k : Nat) : Option (List Byte) :=
  let m := s.map k
  match m.record with
  | some o =>
    let x := s.obj o
    if x.present && (x.state == .sealedObj || (x.state == .expiring && !x.afterDelete)) then some (objRead s o 0 m.recLen) else none
  | none =>
    if m.poolFrames.isEmpty then none
    else some ((m.poolFrames.flatMap fun f =>
      let na := frameNear (s.part m.part) f
      stackRead s (naStack na) (physOff s m.part na) ((s.part m.part).kvFrame * 1024)).take m.recLen)

/-- A list header of a record: layer, head, pages, and the index of its first descriptor. -/
def recordLists (b : List Byte) : List (Nat × Nat × Nat × Nat) :=
  ((List.range (ble b 0x0C 2)).foldl (fun (a : List (Nat × Nat × Nat × Nat) × Nat) i =>
    let o := 64 + 16 * i
    (a.1 ++ [(ble b o 2, ble b (o + 2) 1, ble b (o + 4) 2, a.2)], a.2 + ble b (o + 4) 2)) ([], 0)).1

/-- The pages of a list taken back into frames of its home stack. -/
def resumePages (s : State) (part home d base n : Nat) (b : List Byte) (acc : List Page) : Option (State × List Page) :=
  match n with
  | 0 => some (s, acc)
  | n + 1 =>
    let x := bsub b (base + 16 * acc.length) 16
    match takeFrame (s.part part) home with
    | none => none
    | some r =>
      let g : Page := ⟨r.2 / 2 ^ 20, r.2 % 2 ^ 20, dFmt x, dFill x, dPos0 x, false, false⟩
      let s1 := forceWrite (s.setPart part r.1) part (frameNear r.1 r.2) (bsub b (ble x 0 5) (kvPageBytes (dFmt x) d))
      resumePages s1 part home d base n b (acc ++ [g])

/-- Every list of a record taken back. -/
def resumeLists (s : State) (part d base : Nat) (b : List Byte) (l : List (Nat × Nat × Nat × Nat)) (acc : List KvList) : Option (State × List KvList) :=
  match l with
  | [] => some (s, acc)
  | (layer, head, n, first) :: r =>
    let st := poolStacks (s.part part)
    let home := nth 0 st (if st.isEmpty then 0 else acc.length % st.length)
    match resumePages s part home d (base + 16 * first) n b [] with
    | none => none
    | some x => resumeLists x.1 part d base b r (acc ++ [KvList.mark ⟨layer, head, home, false, false, x.2⟩])

/-- Every position of a map sent to the twin (R282, R291). -/
def mirrorMap (s : State) (k : Nat) : State :=
  if !mirrors s then s
  else
    let m := s.map k
    m.lists.foldl (fun s l => l.pages.foldl (fun s g =>
      (List.range g.fill).foldl (fun s j => sendMirror s m.part (pageNear (s.part m.part) g) g.fmt m.d j (g.pos0 + j)) s) s) s

/-- A session's pages written back from its record. -/
def resumeMap (s : State) (k : Nat) (b : List Byte) : Option State :=
  let m := s.map k
  let d := ble b 6 2
  let lists := recordLists b
  match resumeLists s m.part d (64 + roundUp (16 * lists.length) 64) b lists [] with
  | none => none
  | some r => some (fitRecords (r.1.setMap k
      { r.1.map k with present := true, d := d, clen := ble b 8 4, plen := 0, lists := r.2, held := false, lapOn := false, unacked := 0 }) k)

/-- RESUME_ORDER: the record is read, every page is written into a frame and mirrored; a read that fails is reported (R285, R291, R292). -/
def execResumeOrder (session : Nat) (s : State) : Host.Outcome State Fault Refusal :=
  .next (settle (
    let m := s.map session
    let home : Dest := .role (keyHome session)
    if m.present then s
    else if m.record.isNone ∧ m.poolFrames.isEmpty then s.send home (.resumeReport session true)
    else match recordBytes s session with
      | none => s.send home (.resumeReport session false)
      | some b =>
        let r := withRoom (s.srv.maps.length + 1) s m.part session fun s => resumeMap s session b
        if !r.2 then r.1.send home (.resumeReport session false)
        else
          let s1 := match m.record with
            | some o => farReads r.1 ovCtx o 0 b.length
            | none => r.1
          let s2 := mirrorMap (chargeReq (chargeReq s1 (keyHome session) m.lastReq 6 b.length) (keyHome session) m.lastReq 4 b.length) session
          let n := s2.map session
          if n.unacked = 0 then (freeRecord s2 session).send home (.resumeReport session true) else s2))

/-- The home of a PARKED session orders its resumption everywhere (R285). -/
def startResume (s : State) (idx : Nat) : State :=
  let x := s.sess idx
  let k := sessKey x.home idx
  let nodes := jobNodes s x.ctx
  nodes.foldl (fun s n => s.send (.node n) (.resumeOrder k)) (putSess s idx { x with state := .resuming, waiting := nodes })

/-- A session of this package is dropped everywhere, here included (R285, R294). -/
def dropEverywhere (s : State) (idx : Nat) : State :=
  let k := sessKey (s.sess idx).home idx
  fitRecords (freeRecord (freeMirror (freePages (markDropped s idx) k) k) k) k

/-- RESUME_REPORT: with the last package's report the session is LIVE; a failed read makes it DROPPED (R285). From a Summary record, later requests carry
SUMMARY_RESUMED (R290). -/
def execResumeReport (session node : Nat) (ok : Bool) (s : State) : Host.Outcome State Fault Refusal :=
  .next (
    let x := s.sess session
    if !x.isOpen ∨ x.state ≠ .resuming ∨ !(x.waiting.contains node) then s
    else if !ok then dropEverywhere s session
    else
      let w := x.waiting.filter (· != node)
      if w.isEmpty then
        let sum := x.summaryResumed || (s.part x.part).park == 2
        let s1 := putSess s session { x with state := .live, waiting := [], summaryResumed := sum }
        match x.request with
        | some i => s1.setReq i { s1.req i with summaryResumed := sum }
        | none => s1
      else putSess s session { x with waiting := w })

/-- SESSION_DROP_REPORT: a package has dropped a session, or its park record has expired or is DAMAGED: the session is DROPPED everywhere (R285, R294). -/
def execSessionDropReport (session _node : Nat) (s : State) : Host.Outcome State Fault Refusal :=
  .next (
    let x := s.sess session
    if x.isOpen ∧ (x.state = .live ∨ x.state = .held ∨ x.state = .parked ∨ x.state = .parking ∨ x.state = .resuming ∨ x.state = .recomputing) then
      dropEverywhere s session
    else s)

end Sys2Proof.Machine
end

