-- ==== Sys2Proof/Machine/Experts.lean ====
section
/-!
DEFINITION. The exchange of expert assignments on this package (R300 to R302, R308 to R318, R324 to R328): dispatch sets, drops, returns, predictions,
and the cancel of a heat.
-/

namespace Sys2Proof.Machine

/-! ### Routing sets (R300, R301) -/

/-- The side whose routing sets an entry's packages form here: that of this package's role. -/
def ownSide (s : State) : Nat := s.fab.ownRole % 2

/-- Rows of a side of a heat before exits, in order: the heat-wide row number of each logical row. -/
def sideRows (d : HeatDesc) (lockstep : Bool) (side : Nat) : List (Nat × HeatRow) :=
  (d.rows.foldl (fun (a : List (Nat × HeatRow) × Nat) r =>
    ((if lockstep || sideOf d r.handle == side then a.1 ++ (List.range r.positions).map (fun i => (a.2 + i, r)) else a.1), a.2 + r.positions)) ([], 0)).1

/-- The routing set of a layer: the rows of the side that have not exited before it (R300, R331). -/
def routingSet (s : State) (h : Heat) (layer : Nat) : List (Nat × HeatRow) :=
  (sideRows h.desc h.lockstep (ownSide s)).filter fun r => !(h.exited.any fun e => e.1 == r.1 && decide (e.2 < layer))

/-- The routing packages of a side in this package's group: one per role, in ascending role (R301); this package where the bundle names no role of
the side there. -/
def sideRouters (s : State) (h : Heat) (side : Nat) : List Nat :=
  let l := dedup (((ctxMan s h.desc.ctx).roles.filter fun r => r % 2 == side).filterMap fun r => match s.roleNode r with
    | some n => if nodeGroup n = nodeGroup s.fab.node then some n else none
    | none => none)
  if l.isEmpty then [s.fab.node] else l

/-- Those of this package's own side. -/
def routers (s : State) (h : Heat) : List Nat := sideRouters s h (ownSide s)

/-- The capacity of an expert for a routing set of `t` rows (R308); none: unlimited. -/
def capacity (s : State) (man : Manifest) (t : Nat) : Option Nat :=
  let f := s.cfg 0x0501
  let u := if s.grade = 1 then 16 else 15
  if f = 0 then none else some (u * ceilDiv (f * t * man.kSel) (16 * man.experts * u))

/-- The order of one expert's assignments (R309): rank, then score descending as R305 compares, then row. -/
def dropLt (a b : XEntry) : Bool :=
  if a.rank ≠ b.rank then decide (a.rank < b.rank)
  else if scoreAbove a.score.toNat b.score.toNat then true
  else if scoreAbove b.score.toNat a.score.toNat then false
  else decide (a.row < b.row)
where
  /-- Whether one FP32 score is above another: a NaN is below every number, and −0 equals +0. -/
  scoreAbove (x y : Nat) : Bool :=
    let nan (v : Nat) : Bool := decide (0x7F800000 < v % 2 ^ 31)
    let key (v : Nat) : Int := if v < 2 ^ 31 then (v : Int) else -((v % 2 ^ 31 : Nat) : Int)
    if nan x then false else if nan y then true else decide (key y < key x)

/-- The assignments an owner keeps, expert by expert, in drop order. -/
def keptOf (c : Option Nat) (rows : List XEntry) : List XEntry :=
  (dedup (rows.map (·.expert))).flatMap fun x =>
    let l := sortBy dropLt (rows.filter (·.expert == x))
    match c with
    | some n => l.take n
    | none => l

/-! ### Sets by layer -/

/-- The exchange of a layer of a heat. -/
def Heat.set (h : Heat) (layer : Nat) : XSet := (h.sets.find? (·.layer == layer)).getD ⟨layer, [], [], [], false, [], 0, []⟩

/-- It replaced. -/
def Heat.putSet (h : Heat) (x : XSet) : Heat := { h with sets := h.sets.filter (·.layer != x.layer) ++ [x] }

/-- A set of a heat changed in place. -/
def modSet (s : State) (id layer : Nat) (f : XSet → XSet) : State := s.setHeat id ((s.heat id).putSet (f ((s.heat id).set layer)))

/-- The partition's statistics changed in place. -/
def modStats (s : State) (p : Nat) (f : PartStats → PartStats) : State := s.setPart p { s.part p with stats := f (s.part p).stats }

/-- Experts predicted for a layer by a set's PRED entries. -/
def XSet.predicted (x : XSet) : List Nat := dedup (x.preds.flatMap (·.2))

/-- Stacks that hold a cold part of a unit. -/
def coldStacks (man : Manifest) (layer unit : Nat) : List Nat :=
  dedup ((man.coldUnits.filter fun u => u.1 == layer && u.2.1 == unit).map fun u => u.2.2.1)

/-- A fetch asked for on a stack, unless the unit is there or asked for: a demand takes over a prediction (R250). -/
def askUnit (p : Part) (stack layer unit : Nat) (predicted : Bool) : Part :=
  match findUnit p stack layer unit with
  | some i =>
    if predicted then p
    else { p with cache := tput p.cache (cacheKey stack i) { p.cslot stack i with predicted := false } }
  | none =>
    let old := p.cacheReq.find? fun r => r.stack == stack && r.layer == layer && r.unit == unit
    match old with
    | some r => if predicted ∨ !r.predicted then p else { p with cacheReq := p.cacheReq.filter (· != r) ++ [{ r with predicted := false }] }
    | none => { p with cacheReq := p.cacheReq ++ [⟨layer, unit, stack, predicted⟩] }

/-- The kept units of a decided set: demands for those not there, pins and last use for those that are (R250). -/
def demandUnits (s : State) (h : Heat) (man : Manifest) (layer : Nat) (units : List Nat) : State :=
  let p := units.foldl (fun p u => (coldStacks man layer u).foldl (fun p st =>
    let q := askUnit p st layer u false
    match findUnit q st layer u with
    | some i => { q with cache := tput q.cache (cacheKey st i) { q.cslot st i with pins := (q.cslot st i).pins + 1, lastLap := h.desc.lap } }
    | none => q) p) (s.part h.desc.part)
  s.setPart h.desc.part p

/-- Predicted fetches of the next layer in a Hot-resident partition, in ascending expert (R325). -/
def predictUnits (s : State) (h : Heat) (man : Manifest) (layer : Nat) (units : List Nat) : State :=
  if (s.part h.desc.part).residency ≠ 1 then s
  else
    let p := (sortBy (fun a b => decide (a < b)) units).foldl (fun p u => (coldStacks man layer u).foldl (fun p st => askUnit p st layer u true) p) (s.part h.desc.part)
    s.setPart h.desc.part p

/-! ### A dispatch set is complete (R309, R310, R313) -/

/-- Whether an END from every routing package has arrived. -/
def setComplete (s : State) (h : Heat) (x : XSet) : Bool := (routers s h).all fun n => x.ends.any (·.fromNode == n)

/-- Whether each END's COUNT equals the ROW entries of its sender. -/
def countsMatch (x : XSet) : Bool := x.ends.all fun e => (x.rows.filter (·.fromNode == e.fromNode)).length == e.count

/-- The drops of a complete set decided. -/
def decideSet (s : State) (id : Nat) (layer : Nat) : State :=
  let h := s.heat id
  let x := h.set layer
  let man := ctxMan s h.desc.ctx
  let kept := keptOf (capacity s man (routingSet s h layer).length) x.rows
  let units := dedup (kept.map (·.expert))
  let hits := (units.filter fun u => x.predicted.contains u).length
  let s1 := modSet s id layer fun y => { y with decided := true, kept := kept }
  let s2 := modStats s1 h.desc.part fun t => { t with
    drops := t.drops + (x.rows.length - kept.length), laHit := t.laHit + hits, laMiss := t.laMiss + (units.length - hits) }
  predictUnits (demandUnits s2 h man layer units) h man (layer + 1) ((s2.heat id).set (layer + 1)).predicted

/-! ### Entries (R318) -/

/-- A row of the routing set goes back to its request: here, where this package is its home, it counts the drop (R310). -/
def noteDrop (s : State) (h : Heat) (e : XEntry) : State :=
  match (sideRows h.desc h.lockstep (ownSide s))[e.row]? with
  | some (_, r) => match reqIdx s r.handle with
    | some i => if (s.req i).home = r.home then s.setReq i { s.req i with drops := (s.req i).drops + 1 } else s
    | none => s
  | none => s

/-- An entry of the live epoch processed. -/
def takeEntry (s : State) (k : XKind) (e : XEntry) (experts : List Nat) : State :=
  let h := s.heat e.heat
  let x := h.set e.layer
  match k with
  | .row => if x.decided then s else modSet s e.heat e.layer fun y => { y with rows := y.rows ++ [e] }
  | .endSet =>
    if x.decided then s
    else
      let s1 := modSet s e.heat e.layer fun y => { y with ends := y.ends ++ [e] }
      let h1 := s1.heat e.heat
      let y := h1.set e.layer
      if !setComplete s1 h1 y then s1
      else if countsMatch y then decideSet s1 e.heat e.layer
      else cancelHeat s1 e.heat
  | .ret =>
    let s1 := modSet s e.heat e.layer fun y => { y with rets := y.rets ++ [e] }
    if e.dropped then noteDrop s1 h e else s1
  | .pred =>
    -- the router of the layer has run here: late (R325)
    if x.decided || !x.rows.isEmpty || !x.ends.isEmpty then modStats s h.desc.part fun t => { t with laMiss := t.laMiss + 1 }
    else modSet s e.heat e.layer fun y => { y with preds := y.preds ++ [(e.fromNode, experts)] }

/-- An entry as it arrives: processed, discarded as stale, or held (R318). -/
def entry (s0 : State) (k : XKind) (e : XEntry) (experts : List Nat) : State :=
  let s := noteHeatLap s0 e.heat e.lap
  let h := s.heat e.heat
  if !h.live ∨ e.epoch < h.epoch then
    modStats s h.desc.part fun t => if k = .ret then { t with staleReturn := t.staleReturn + 1 } else { t with staleDisp := t.staleDisp + 1 }
  else if h.epoch < e.epoch then s.setHeat e.heat { h with held := h.held ++ [(k, e, experts)] }
  else takeEntry s k e experts

/-- The entries held for a heat looked at again once its epoch has risen. -/
def releaseHeld (s : State) (id : Nat) : State :=
  let h := s.heat id
  h.held.foldl (fun s x => entry s x.1 x.2.1 x.2.2) (s.setHeat id { h with held := [] })

/-- DISPATCH_ROW. -/
def execDispatchRow (e : XEntry) (s : State) : Host.Outcome State Fault Refusal := .next (settle (entry s .row e []))

/-- DISPATCH_END. -/
def execDispatchEnd (e : XEntry) (s : State) : Host.Outcome State Fault Refusal := .next (settle (entry s .endSet e []))

/-- EXPERT_RET. -/
def execExpertRet (e : XEntry) (s : State) : Host.Outcome State Fault Refusal := .next (settle (entry s .ret e []))

/-- PRED_ENTRY. -/
def execPredEntry (e : XEntry) (experts : List Nat) (s : State) : Host.Outcome State Fault Refusal := .next (settle (entry s .pred e experts))

/-- HEAT_CANCEL: the heat's live epoch rises, its exchange and its lap stop here, its requests not yet sealed end CANCELLED (R316, R317, R356). -/
def execHeatCancel (heat epoch : Nat) (s : State) : Host.Outcome State Fault Refusal :=
  .next (settle (if (s.heat heat).live ∧ (s.heat heat).epoch < epoch then releaseHeld (applyCancel s heat epoch) heat else s))

end Sys2Proof.Machine
end

