-- ==== Sys2Proof/Machine/Seal.lean ====
section
/-!
DEFINITION. The lap seal (R338 to R343, R349 to R357, R483, R484, R505, R506): what a package's part of a lap yields, verdicts, LAP_DONE, the seal as
one step, and the freeing of a ledger entry; and with them the two ends of a package's part, HEAT_FETCH and END.
-/

namespace Sys2Proof.Machine

/-! ### What a package's part of a lap yields (R339 to R342) -/

/-- The package of a side that combines a logical row (R301). -/
def combiner (s : State) (h : Heat) (side total row : Nat) : Option Nat :=
  let l := sideRouters s h side
  (List.range l.length).findSome? fun j =>
    if j * total / l.length ≤ row ∧ row < (j + 1) * total / l.length then l[j]? else none

/-- The positions of a request on its side, this package's own in a lock-step heat: logical row, heat-wide row, the node that combines it. A package that
serves both roles runs each side's work separately (R498). -/
def positionsOf (s : State) (h : Heat) (handle : Nat) : List (Nat × Nat × Nat) :=
  let side := if h.lockstep then ownSide s else sideOf h.desc handle
  let rows := sideRows h.desc h.lockstep side
  (List.range rows.length).filterMap fun q => match rows[q]? with
    | some (g, r) => if r.handle = handle then (combiner s h side rows.length q).map fun n => (q, g, n) else none
    | none => none

/-- The exit layer of a row here, 0xFFFF where it did not exit (R342). -/
def exitOf (h : Heat) (row : Nat) : Nat := ((h.exited.find? (·.1 == row)).map (·.2)).getD 0xFFFF

/-- What this package sampled for some of its positions, with their exits, and the proposals of its draft heads: free values below the vocabulary
(log 40). -/
def ownTokens (s : State) (h : Heat) (rows : List Nat) : List (Nat × Nat) × List Nat × State :=
  let man := ctxMan s h.desc.ctx
  let tok (k : Nat) : Nat := Config.free (s.drawn + k) % max 1 man.vocab
  let n := rows.length
  ((List.range n).map fun k => (tok k, exitOf h (nth 0 rows k)), (List.range (n * man.headsH)).map fun k => tok (n + k), s.drew (n + n * man.headsH))

/-- Every position's token, exit and proposals, where all are in hand. -/
def gather (h : Heat) (man : Manifest) (own : Nat) (handle : Nat) (ps : List (Nat × Nat × Nat)) (mine : List (Nat × Nat) × List Nat) :
    Option (List (Nat × Nat × List Nat)) :=
  ps.foldl (fun a p =>
    let k := ((ps.takeWhile fun q => q.1 != p.1).filter fun q => q.2.2 == p.2.2).length
    let got := if p.2.2 = own then some mine else (h.proposals.find? fun x => x.1 == handle && x.2.1 == p.2.2).map fun x => (x.2.2.1, x.2.2.2)
    match a, got.bind fun x => x.1[k]?.map fun t => (t.1, t.2, bsubN x.2 (k * man.headsH) man.headsH) with
    | some l, some t => some (l ++ [t])
    | _, _ => none) (some [])
where
  /-- Part of a list. -/
  bsubN (l : List Nat) (off n : Nat) : List Nat := (l.drop off).take n

/-- Accepted drafts (R341): the drafts that equal the token sampled one position before, from the first on. -/
def accepted (drafts : List Nat) (y : List Nat) : Nat := ((drafts.zip y).takeWhile fun p => p.1 == p.2).length

/-- The verdict of a request (R341, R342). A prefill chunk has none of its tokens but the one at the prompt's last position. -/
def verdictOf (h : Heat) (r : HeatRow) (got : List (Nat × Nat × List Nat)) : Verdict :=
  let base : Verdict := ⟨r.handle, h.desc.heat, h.desc.lap, h.epoch, 0, 0, h.desc.prefill, h.desc.prefill && r.promptEnd, [], [], []⟩
  if h.desc.prefill then
    match r.promptEnd, got.getLast? with
    | true, some t => { base with tokens := [t.1], drafts := t.2.2, exits := [t.2.1] }
    | _, _ => base
  else
    let acc := accepted r.drafts (got.map (·.1))
    { base with n := r.positions, acc := acc, tokens := (got.take (acc + 1)).map (·.1), exits := (got.take (acc + 1)).map (·.2.1), drafts := (nth (0, 0, []) got acc).2.2 }

/-- A request's positions here are sampled and reported: as its verifier, once everything is in hand, by a VERDICT to its home; otherwise by proposals to
the verifier (R339, R342). Only a bundle with an output head samples. -/
def requestOutput (s : State) (id : Nat) (r : HeatRow) (first : Bool) : State :=
  let h := s.heat id
  let man := ctxMan s h.desc.ctx
  let ps := positionsOf s h r.handle
  let own := s.fab.node
  let mine := ps.filter fun p => p.2.2 == own
  if man.vocab = 0 ∨ !h.ownDone ∨ h.keptVerdicts.any (fun v => v.handle == r.handle && v.lap == h.desc.lap) then s
  else match ps.head? with
    | none => s
    | some p0 =>
      let t := ownTokens s h (mine.map (·.2.1))
      if p0.2.2 = own then
        -- a chunk that does not end the prompt needs no token
        let got := if h.desc.prefill && !r.promptEnd then some [] else gather h man own r.handle ps (t.1, t.2.1)
        match got with
        | none => s
        | some g =>
          let v := verdictOf h r g
          (t.2.2.setHeat id { h with keptVerdicts := h.keptVerdicts ++ [v] }).send (.role r.home) (.verdict v)
      else if first && !mine.isEmpty then t.2.2.send (.node p0.2.2) (.proposals id h.desc.lap r.handle t.1 t.2.1)
      else s

/-- Every request of a heat, when this package's part of its lap has ended. -/
def heatOutputs (s : State) (id : Nat) : State := (s.heat id).desc.rows.foldl (fun s r => requestOutput s id r true) s

/-- A slot's part of a heat has ended (R349); with the last slot's, what the part yields goes out. -/
def partDone (s : State) (core slot : Nat) : State :=
  let id := (s.slot core slot).heat
  let was := (s.heat id).ownDone
  let s1 := slotDone s core slot
  if id != 0 && !was && (s1.heat id).ownDone then heatOutputs s1 id else s1

/-- DRAFT_PROPOSALS: another package's tokens and proposals for its positions of a request reach its verifier (R339). -/
def execDraftProposals (src heat lap handle : Nat) (tokens : List (Nat × Nat)) (drafts : List Nat) (s : State) : Host.Outcome State Fault Refusal :=
  .next (
    let s := noteHeatLap s heat lap
    let h := s.heat heat
    if h.live && h.desc.lap == lap && takesFrom s src then
      let s1 := s.setHeat heat { h with proposals := h.proposals.filter (fun x => !(x.1 == handle && x.2.1 == src)) ++ [(handle, src, tokens, drafts)] }
      (h.desc.rows.filter fun r => r.handle == handle).foldl (fun s r => requestOutput s heat r false) s1
    else s)

/-- HEAT_FETCH: the starter fetches the heat's descriptor; frames are allocated, and the context's slots begin their part of the lap. -/
def execHeatFetch (heat : Nat) (s : State) : Host.Outcome State Fault Refusal :=
  .next (settle (
    let h := s.heat heat
    let man := ctxMan s h.desc.ctx
    if !fetchable s h man then s
    else
      let s1 := h.desc.rows.foldl (fun s r => fetchRow s h man r) (noteLap s h.desc.ctx h.desc.lap)
      let c := s1.ctx h.desc.ctx
      let s2 := s1.setCtx h.desc.ctx { c with laps := c.laps + 1 }
      let e := if s.cfg 0x0502 = 1 then drawExits s2 h.desc.rows man.exitLayers 0 else ([], s2)
      let s3 := man.footprint.foldl (fun s f => s.setSlot f.1 c.slot { s.slot f.1 c.slot with heat := heat }) e.2
      let own := s3.heat heat
      let s4 := s3.setHeat heat { own with fetched := true, lapActive := true, ownDone := man.footprint.isEmpty, exited := e.1 }
      let p := s4.part h.desc.part
      let s5 := s4.setPart h.desc.part { p with stats := { p.stats with exits := p.stats.exits + e.1.length } }
      if man.footprint.isEmpty then reportLap (heatOutputs s5 heat) heat else s5))

/-! ### The end of a slot's part of a lap -/

/-- END completes once every earlier command of the slot has completed: the slot returns to BOUND with an END record, faults held on
buffers are dropped (R50, R76), and the slot's part of a heat's lap is over (R349). -/
def execEndCmd (core slot : Nat) (s : State) : Host.Outcome State Fault Refusal :=
  .next (settle (match feReady s core slot oEND with
    | none => s
    | some q =>
      if (List.range 4).all fun e => engineClear (s.slot core slot) e then
        let s1 := finish (feTake s core slot q) core slot q.cmd q.seq
        let x := s1.slot core slot
        -- the END's own signal may have faulted the slot (R82)
        if x.state = .running then
          let s2 := s1.setSlot core slot { x with state := .bound, tiles := [] }
          partDone (putRecord s2 core (slotRecord s2 core slot kEND q.cmd.ring q.cmd.tag 0)) core slot
        else s1
      else s))

/-! ### Lock-step mismatches (R505) -/

/-- A mismatch declared: both twins whistle, it is recorded and counted, and every request of the heat is ordered to end. -/
def lsMismatch (s : State) (id : Nat) (at_ : Option (Nat × Nat)) : State :=
  let t := s.twin
  let last := match at_ with
    | some (layer, tensor) => mkWord [(0, layer % 65536), (16, tensor % 2 ^ 32), (48, 1)]
    | none => t.lsLast
  let s1 := { s with twin := { t with lsMismatch := t.lsMismatch + 1, lsLast := last } }
  let s2 := blowWhistle s1 (s.cfg 0x0905) whLockstep
  let s2 := match decide (s.cfg 0x0905 = 0), s.twinNode with
    | true, some n => s2.send (.node n) (.whistle 0 whLockstep)
    | _, _ => s2
  (s.heat id).desc.rows.foldl (fun s r => orderEnd s r.home r.handle stLOCKSTEP_MISMATCH 0) s2

/-! ### The seal (R343, R350 to R352) -/

/-- What a seal does to its request: tokens delivered, positions committed, and whether the request is final. -/
structure SealStep where
  tokens : List Nat
  a : Nat
  stopped : Bool
  final : Bool
  deriving DecidableEq, Repr

/-- The tokens of a verdict cut at the first stop token and at the token limit (R351). -/
def cutTokens (r : Req) (v : Verdict) : List Nat × Bool :=
  let rem := r.maxNew - r.delivered
  let ts := v.tokens.take (v.acc + 1)
  let k := (ts.takeWhile fun t => !r.stop.contains t).length
  if k < ts.length then ((ts.take (k + 1)).take rem, true) else (ts.take rem, false)

/-- The seal's decision (R351, R352); `recompute` for the prefill of a dropped session. -/
def sealStep (r : Req) (v : Verdict) (recompute : Bool) : SealStep :=
  if v.prefill then
    if recompute ∨ r.done + r.lapN < r.prompt then ⟨[], r.lapN, false, false⟩
    else
      let c := cutTokens r { v with acc := 0 }
      ⟨c.1, r.lapN, c.2, c.2 || r.maxNew - r.delivered == c.1.length⟩
  else
    let c := cutTokens r v
    ⟨c.1, c.1.length, c.2, c.2 || r.maxNew - r.delivered == c.1.length⟩

/-- The draft count of the next lap (R343). -/
def draftCount (s : State) (r : Req) (v : Verdict) (left : Nat) : Nat :=
  min (min v.drafts.length (s.cfg 0x0601)) (min (ctxMan s r.ctx).headsH (left - 1))

/-- The digest after some tokens (R555). -/
def digestTokens (d : BitVec 256) (gen : Nat) (l : List Nat) : BitVec 256 :=
  l.foldl (fun d t => sha256 (digestBytes d ++ leBytes 4 t ++ leBytes 4 gen)) d

/-- The token records of a seal; `pos` is the position of the first token in its session (R366). -/
def sealRecords (s : State) (i pos : Nat) (v : Verdict) (q : SealStep) : List Byte :=
  let r := s.req i
  (List.range q.tokens.length).flatMap fun k =>
    tokenRecord (nth 0 q.tokens k) (pos + k) v.lap (boundGen s r) (nth 0xFFFF v.exits k) (q.final && k + 1 == q.tokens.length) (r.handle i)

/-- The session after a seal: the committed tokens join the retained ones (R286), a recomputation advances (R295). -/
def sealSession (x : Session) (r : Req) (v : Verdict) (q : SealStep) (recompute : Bool) : Session :=
  let new := if recompute then [] else if v.prefill then (r.tokens.drop r.done).take r.lapN else (r.pending :: q.tokens).take q.a
  let c := x.committed + q.a
  { x with tokens := x.tokens ++ new, committed := c, state := if recompute ∧ x.tokens.length ≤ c then .live else x.state }

/-- The request after a seal. -/
def sealReq (s : State) (r : Req) (v : Verdict) (q : SealStep) (recompute : Bool) : Req :=
  let m := q.tokens.length
  let left := r.maxNew - r.delivered - m
  let acc := if v.prefill then 0 else q.a - 1
  let rej := if v.prefill then 0 else r.lapN - q.a
  let n := if q.final then 0 else draftCount s r v left
  { r with
    delivered := r.delivered + m
    lap := v.lap
    laps := r.laps + 1
    aonFirst := if r.aonFirst = 0 ∧ 0 < m then s.aon else r.aonFirst
    aonEnd := if q.final then s.aon else r.aonEnd
    state := if q.final then .completed else if v.prefill && !recompute && decide (r.prompt ≤ r.done + r.lapN) then .decode else r.state
    status := if q.final then stOK else r.status
    stoppedByToken := r.stoppedByToken || q.stopped
    draftAcc := r.draftAcc + acc
    draftRej := r.draftRej + rej
    digest := digestTokens r.digest (boundGen s r) q.tokens
    done := if v.prefill && !recompute then r.done + r.lapN else r.done
    pending := if recompute then r.pending else q.tokens.getLast?.getD r.pending
    drafts := if recompute then [] else v.drafts.take n
    inLap := false
    verdicts := []
    lapDone := [] }

/-- The seal of a request's lap: one step of C2 (R351, R352). Where the lost home of an adopted request has sent its outcome already, the survivor
completes the seal and sends none (R496). -/
def sealWith (s : State) (i : Nat) (v : Verdict) (send : Bool) : State :=
  let r := s.req i
  let x := s.sess r.sessIdx
  let recompute := x.state == .recomputing
  let q := sealStep r v recompute
  let y := sealReq s r v q recompute
  let p := s.part r.part
  let pos := if v.prefill then x.committed + r.lapN else x.committed + 1
  let recs := sealRecords s i pos v q
  let s1 := putSess (s.setReq i y) r.sessIdx (sealSession x r v q recompute)
  let s2 := modStats s1 r.part fun t => { t with draftAcc := p.stats.draftAcc + (y.draftAcc - r.draftAcc), draftRej := p.stats.draftRej + (y.draftRej - r.draftRej) }
  let t := s2.tenant r.tenant
  let s3 := putTenant s2 r.tenant { t with balance := t.balance - ((s.cfg 0x0708 * q.tokens.length : Nat) : Int) }
  let twin := if mirrors s then s.twinNode else none
  let s4 := match twin with
    | some n => (s3.send (.node n) (.sealMirror (r.handle i) v.lap q.tokens)).setReq i { y with unposted := y.unposted ++ [(v.lap, recs)] }
    | none => s3
  let s5 := if send then s4.send (.holders r.heat) (.outcome ⟨r.handle i, r.home, v.lap, true, q.a, q.final, y.pending, y.drafts⟩) else s4
  let s6 := if q.final then leaveCohort (unbindReq (releaseSession s5 y) r) r.ctx i else s5
  let s7 := if twin.isNone ∧ !y.withheld then postTokens s6 r.fn recs else s6
  if q.final then postDone s7 i else s7

/-- The seal of a lap by its home. -/
def sealLap (s : State) (i : Nat) (v : Verdict) : State := sealWith s i v true

/-- A seal the lost home made is completed, when the verdict of its lap is here (R496). -/
def completeSeal (s : State) (i : Nat) (v : Verdict) : State :=
  match (s.req i).sealWait with
  | some w => if v.lap = w.1 then sealWith (s.setReq i { s.req i with sealWait := none }) i v false else s
  | none => s

/-- The seal when it holds every input (R350, R506). -/
def trySeal (s : State) (i : Nat) : State :=
  let r := s.req i
  let h := s.heat r.heat
  let verdict (k : Nat) : Option Verdict := (r.verdicts.find? (·.1 == k)).map (·.2)
  if !r.isOpen ∨ !r.inLap ∨ !((lapRoles s h (r.handle i)).all fun x => r.lapDone.contains x) then s
  else if h.lockstep then
    match verdict 0, verdict 1 with
    | some a, some b => if { a with epoch := 0 } = { b with epoch := 0 } then sealLap s i a else lsMismatch s r.heat none
    | _, _ => s
  else match r.verdicts.head? with
    | some v => sealLap s i v.2
    | none => s

/-- The request of this package a verdict or report names. -/
def homedReq (s : State) (handle : Nat) : Option Nat := reqIdx s handle

/-- VERDICT: kept for the seal, or stale and counted (R342, R350). -/
def execVerdict (v : Verdict) (side : Nat) (s : State) : Host.Outcome State Fault Refusal :=
  .next (settle (
    let s := noteHeatLap s v.heat v.lap
    match homedReq s v.handle with
    | none => modStats s (s.heat v.heat).desc.part fun t => { t with staleVerdict := t.staleVerdict + 1 }
    | some i =>
      let r := s.req i
      if r.isOpen && (r.sealWait.map (·.1)) == some v.lap then completeSeal s i v
      else if r.isOpen && r.inLap && r.heat == v.heat && r.curLap == v.lap && decide ((s.heat v.heat).epoch ≤ v.epoch) then
        trySeal (s.setReq i { r with verdicts := r.verdicts.filter (fun x => x.1 != side % 2) ++ [(side % 2, v)] }) i
      else modStats s r.part fun t => { t with staleVerdict := t.staleVerdict + 1 }))

/-- LAP_DONE of a role for one request homed here: counted once per role and lap (R350, R357, R493). One below the heat's live epoch (`low`) is discarded
for the seal; the reuse of an ended request's entry waits for it all the same (log 50). -/
def lapDoneReq (s : State) (role heat lap : Nat) (low : Bool) (row : HeatRow) : State :=
  match homedReq s row.handle with
  | none => s
  | some i =>
    let r := s.req i
    if r.home ≠ row.home ∨ !r.inLap ∨ r.heat ≠ heat ∨ r.curLap ≠ lap ∨ r.lapDone.contains role ∨ (low ∧ r.isOpen) then s
    else
      let r1 := { r with lapDone := r.lapDone ++ [role] }
      if r.isOpen then trySeal (s.setReq i r1) i
      else s.setReq i { r1 with inLap := !((lapRoles s (s.heat heat) row.handle).all fun x => r1.lapDone.contains x) }

/-- LAP_DONE: a package's part of a heat's lap is complete (R349, R350). -/
def execLapDone (role heat lap epoch : Nat) (s : State) : Host.Outcome State Fault Refusal :=
  .next (settle (
    let s := noteHeatLap s heat lap
    let h := s.heat heat
    h.desc.rows.foldl (fun s r => lapDoneReq s role heat lap (decide (epoch < h.epoch)) r) s))

/-! ### LEDGER_FREE (R357, R364) -/

/-- LEDGER_FREE: the completion record is posted or withheld, every LAP_DONE of the last lap is in, and the summary receipt is signed: the entry is free,
its reuse generation kept. -/
def execLedgerFree (index : Nat) (s : State) : Host.Outcome State Fault Refusal :=
  .next (
    let r := s.req index
    if (r.state == .completed || r.state == .ended) && !r.mirror && (r.posted || r.withheld) && !r.inLap && r.receiptSigned then
      s.setReq index { Req.reset with reuse := r.reuse }
    else s)

end Sys2Proof.Machine
end

