-- ==== Sys2Proof/Machine/Admit.lean ====
section
/-!
DEFINITION. Admission and heats (R35, R240, R255, R285, R295, R369 to R378, R480, R481, R499, R503, R550, R554): the pacer, the bindings of a request, the
opening record, cohorts, the forming of heats and the arrival of a heat at a package.
-/

namespace Sys2Proof.Machine

/-! ### The pacer (R371 to R375) -/

/-- The refills due by some AON count, in one step. -/
def refill (t : Tenant) (now : Nat) : Tenant :=
  if t.winUs = 0 ∨ now < t.next then t
  else
    let w := 4 * t.winUs
    let k := (now - t.next) / w + 1
    { t with balance := max t.balance (min (t.cap : Int) (t.balance + ((k * t.refill : Nat) : Int))), next := t.next + k * w }

/-- Some tenants refilled before they are tested. -/
def refillAll (s : State) (l : List Nat) : State := l.foldl (fun s i => s.setTenant i (refill (s.tenant i) s.aon)) s

/-- Tenants with a queued request. -/
def waitingTenants (s : State) : List Nat := tkeys (s.srv.queues.filter fun e => !e.2.isEmpty)

/-- Whether this package admits: its pair agrees (R479), it is not fenced (R491), and no reset is ordered (R586). -/
def admitsNow (s : State) : Bool := !(s.twin.state == .paired && s.twin.pairErr) && !s.twin.fenced && !s.entry.flushed && s.boot.resetWait.isNone

/-- Whether the LIVE generation a request would bind is still being reloaded (R589). -/
def reloadWait (s : State) (r : Req) : Bool :=
  match (s.part r.part).live? (s.ctx r.ctx).model with
  | some g => g.reloading
  | none => false

/-- Whether the head of a tenant's queue is admissible (R374). -/
def headAdmissible (s : State) (i : Nat) : Bool :=
  let r := s.req i
  let t := s.tenant r.tenant
  r.state == .queued && t.refill != 0 && decide (((s.cfg 0x0707 * r.prompt + s.cfg 0x0708 : Nat) : Int) ≤ t.balance) &&
  (s.part r.part).state == .active && (s.ctx r.ctx).state != .failed && !reloadWait s r

/-- The order of admission: context priority, then AON_SUBMIT, then handle. -/
def admitLt (s : State) (a b : Nat) : Bool :=
  let x := s.req a
  let y := s.req b
  let p := (s.ctx x.ctx).prio
  let q := (s.ctx y.ctx).prio
  decide (q < p ∨ (p = q ∧ (x.aonSubmit < y.aonSubmit ∨ (x.aonSubmit = y.aonSubmit ∧ x.handle a < y.handle b))))

/-- The head the pacer admits. -/
def admitNext (s : State) : Option Nat :=
  (sortBy (admitLt s) (((waitingTenants s).filterMap fun t => (tget [] s.srv.queues t).head?).filter (headAdmissible s))).head?

/-! ### Tables of the pair (R480) -/

/-- The indexes of a table of `n` this package may allocate: its side's half while PAIRED or REJOINING. -/
def ownIndexes (s : State) (n : Nat) : Nat × Nat :=
  if s.twin.state = .paired ∨ s.twin.state = .rejoining then (s.fab.ownRole % 2 * (n / 2), n / 2) else (0, n)

/-- A free index this package may allocate: no rule says which, so any of them (log 10). -/
def freeIndex (s : State) (n : Nat) (free : Nat → Bool) : Option (Nat × State) :=
  let r := ownIndexes s n
  pickOne s (((List.range r.2).map (r.1 + ·)).filter free)

/-- A free session index. -/
def freeSess (s : State) : Option (Nat × State) := freeIndex s 32768 fun i => !(s.sess i).isOpen

/-! ### Bindings -/

/-- The generation and adapter a request binds, or why it cannot (R240, R255). -/
def bindings (s : State) (r : Req) : Gen ⊕ Nat :=
  match (s.part r.part).live? (s.ctx r.ctx).model with
  | none => .inr stGEN_NOT_READY
  | some g =>
    if r.adapter = 0 then .inl g
    else match mappedSlot (s.part r.part) r.ctx r.adapter with
      | some _ => .inl g
      | none => .inr stADAPTER_UNKNOWN

/-- The slot an adapter ID is bound to; 0xFF for none. -/
def aslotOf (s : State) (r : Req) : Nat :=
  if r.adapter = 0 then 0xFF else (mappedSlot (s.part r.part) r.ctx r.adapter).getD 0xFF

/-- The length of the longest common prefix of two token lists. -/
def commonPrefix (a b : List Nat) : Nat := ((a.zip b).takeWhile fun p => p.1 == p.2).length

/-- The positions a request shares with its prefix session (R370). -/
def shareLen (s : State) (r : Req) (g : Gen) (x : Session) : Nat :=
  match r.prefixSess with
  | none => 0
  | some i =>
    let y := s.sess i
    let n := min (commonPrefix y.tokens r.tokens) (min y.committed (r.prompt - 1))
    if y.isOpen && x.tokens.isEmpty && x.state == .absent && y.ctx == r.ctx && y.home == r.home && (y.state == .live || y.state == .held) &&
        y.generation == g.number && y.adapter == 0 && r.adapter == 0 && (y.tenant == r.tenant || y.shareOk) && decide (64 ≤ n) then n else 0

/-- What marks a session whose committed KV is of more than one generation. -/
def mixedGen : Nat := 2 ^ 32

/-- A session as the admission of a request leaves it (R285, R367, R369), before what its old state asks for. -/
def bindSession (x : Session) (r : Req) (i : Nat) (g : Gen) (n : Nat) : Session :=
  { x with
    request := some i
    generation := if x.committed = 0 ∨ x.generation = g.number then g.number else mixedGen
    adapter := if x.committed = 0 ∨ x.adapter = 0 then r.adapter else x.adapter
    tokens := if n = 0 then x.tokens else r.tokens.take n
    committed := if n = 0 then x.committed else n }

/-- What the admission does with a session's state: HELD is LIVE, PARKING keeps its frames, PARKED resumes, DROPPED is recomputed from its first token
(R285, R295). -/
def wakeSession (s : State) (idx : Nat) : State :=
  let x := s.sess idx
  match x.state with
  | .held => putSess s idx { x with state := .live }
  | .parking => tellJob (putSess s idx { x with state := .live, waiting := [] }) idx (.recordDrop (sessKey x.home idx)) (freeRecord · (sessKey x.home idx))
  | .parked => startResume s idx
  | .dropped =>
    modStats (putSess s idx { x with state := if x.tokens.isEmpty then .live else .recomputing, committed := 0, recomputed := true }) x.part
      fun t => { t with recomp := t.recomp + 1 }
  | _ => s

/-! ### The opening record (R554) -/

/-- The image digests of a generation, as MDL.GEN_SEAL returned them, hashed together. -/
def weightsDigest (g : Gen) : BitVec 256 := sha256 (g.digests.flatMap digestBytes)

/-- The 256-byte opening record of a request about to be admitted; `x` is its session before admission. -/
def openingRecord (s : State) (r : Req) (g : Gen) (x : Session) (n : Nat) : List Byte :=
  let b := ctxBundle s r.ctx
  let toks := x.tokens ++ r.tokens
  let prev := if n ≠ 0 then (s.sess (r.prefixSess.getD 0)).digest else x.digest
  leBytes 4 0x47445258 ++ leBytes 2 1 ++ leBytes 1 (match b with | some b => b2n b.fast | none => 0) ++ leBytes 1 s.grade ++
  digestBytes (match b with | some b => b.digest | none => 0) ++ digestBytes (weightsDigest g) ++
  digestBytes (if r.adapter = 0 then 0 else ((s.part r.part).aslot (aslotOf s r)).digest) ++ digestBytes prev ++
  digestBytes (sha256 (toks.flatMap (leBytes 4))) ++ leBytes 8 r.seed.toNat ++ leBytes 4 g.number ++ leBytes 4 toks.length ++ leBytes 2 r.adapter ++
  leBytes 1 (s.cfg 0x0102) ++ leBytes 1 (s.cfg 0x0404) ++ leBytes 2 (s.cfg 0x0103) ++ leBytes 1 (s.cfg 0x0501) ++ leBytes 1 (s.cfg 0x0502) ++
  leBytes 2 (s.cfg 0x0503) ++ leBytes 1 (s.cfg 0x0601) ++ leBytes 1 (s.cfg 0x0B01) ++ leBytes 1 (s.part r.part).kvFmt ++ zeros 59

/-! ### Cohorts (R550) -/

/-- A context's open cohort closes: its unused reserved indexes are free again, and its heat may form. -/
def closeCohort (s : State) (c : Nat) : State :=
  let x := s.ctx c
  s.setCtx c { x with cohort := Cohort.reset, closed := x.closed ++ (if x.cohort.members.isEmpty then [] else [x.cohort.members]) }

/-- An admission counts in the context's open cohort, which closes with its FIX_N-th. -/
def cohortAdmit (s : State) (c i : Nat) : State :=
  let x := s.ctx c
  if x.cohort.isOpen && x.cohort.members.contains i then
    let n := x.cohort.admitted + 1
    let s1 := s.setCtx c { x with cohort := { x.cohort with admitted := n, firstAt := if n = 1 then s.aon else x.cohort.firstAt } }
    if s.cfg 0x0B03 ≤ n then closeCohort s1 c else s1
  else s

/-- COHORT_CLOSE_TIMEOUT: FIX_WAIT_MS after the first admission the cohort closes; 0 waits for FIX_N admissions. -/
def execCohortCloseTimeout (ctx : Nat) (s : State) : Host.Outcome State Fault Refusal :=
  .next (
    let c := (s.ctx ctx).cohort
    let w := s.cfg 0x0B04
    if c.isOpen && decide (0 < c.admitted) && w != 0 && decide (c.firstAt + msAon w ≤ s.aon) then closeCohort s ctx else s)

/-! ### Admission -/

/-- A request whose bindings succeed is admitted to its session. -/
def admitTo (s : State) (i idx : Nat) (x : Session) (g : Gen) : State :=
  let r := s.req i
  let t := s.tenant r.tenant
  let n := shareLen s r g x
  let a := aslotOf s r
  let d := sha256 (openingRecord s r g x n)
  let s1 := wakeSession (putSess s idx (bindSession x r i g n)) idx
  let y := s1.sess idx
  let s2 := s1.setReq i { r with
    state := .prefill, aonAdmit := s.aon, generation := g.number, aslot := a, prio := (s.ctx r.ctx).prio, sessIdx := idx, digest := d
    summaryResumed := y.summaryResumed, kvRecomputed := y.recomputed, prefixShared := n != 0, prefixLen := n, done := n }
  let s3 := bindGen s2 r.part (s.ctx r.ctx).model g.number
  let s4 := if a = 0xFF then s3 else bindSlot s3 r.part a
  cohortAdmit (putTenant s4 r.tenant { t with balance := t.balance - ((s.cfg 0x0707 * r.prompt : Nat) : Int) }) r.ctx i

/-- A session made for a one-shot request (R367). -/
def oneShot (s : State) (r : Req) (idx : Nat) : Session :=
  { Session.reset with
    isOpen := true, reuse := nextReuse (s.sess idx).reuse, ctx := r.ctx, part := r.part, tenant := r.tenant, oneShot := true, home := r.home }

/-- The head of a queue is admitted: the generation, the adapter slot and the session are bound in this order; the first that fails ends the request (R374).
A one-shot request for which the session table has no room ends with NO_SPACE. -/
def admitRequest (s : State) (i : Nat) : State :=
  let r := s.req i
  match bindings s r with
  | .inr st => endReq s i st
  | .inl g =>
    let s1 := leaveQueue s r.tenant i
    if r.session ≠ 0 then admitTo s1 i r.sessIdx (s.sess r.sessIdx) g
    else match freeSess s1 with
      | none => endReq s i stNO_SPACE
      | some x => admitTo x.2 i x.1 (oneShot s r x.1) g

/-- PACER_ADMIT. -/
def execPacerAdmit (s : State) : Host.Outcome State Fault Refusal :=
  .next (settle (
    let s1 := refillAll s (waitingTenants s)
    match admitsNow s, admitNext s1 with
    | true, some i => admitRequest s1 i
    | _, _ => s1))

/-! ### Heats (R377, R378) -/

/-- Whether the next lap of a request is a prefill lap. -/
def nextPrefill (s : State) (r : Req) : Bool :=
  let x := (s.sess r.sessIdx).state
  r.state == .prefill || x == .recomputing || (x == .dropped && !(s.sess r.sessIdx).tokens.isEmpty)

/-- Whether a request is ready for a lap: its last outcome has arrived, R375 allows the lap, and its session is LIVE or RECOMPUTING, or about to be: ABSENT
before its first lap, DROPPED with its request in flight (R285). -/
def lapReady (s : State) (i : Nat) : Bool :=
  let r := s.req i
  let x := (s.sess r.sessIdx).state
  let t := s.tenant r.tenant
  (r.state == .prefill || r.state == .decode) && !r.mirror && !r.inLap &&
  (x == .live || x == .recomputing || x == .absent || x == .dropped) && t.refill != 0 && (nextPrefill s r || decide (0 < t.balance))

/-- Positions a prefill lap of a request has left: of its session's tokens while it is recomputed, of its prompt otherwise. -/
def prefillLeft (s : State) (r : Req) : Nat :=
  let x := s.sess r.sessIdx
  if x.state = .dropped then x.tokens.length else if x.state = .recomputing then x.tokens.length - x.committed else r.prompt - r.done

/-- Requests of a context in ascending AON_ADMIT, the lower handle first. -/
def ctxReqs (s : State) (c : Nat) : List Nat :=
  sortBy (fun a b => decide ((s.req a).aonAdmit < (s.req b).aonAdmit ∨
      ((s.req a).aonAdmit = (s.req b).aonAdmit ∧ (s.req a).handle a < (s.req b).handle b)))
    (tkeys (s.srv.ledger.filter fun e => (e.2.state == .prefill || e.2.state == .decode) && e.2.ctx == c && !e.2.mirror))

/-- Heats of a context formed here with a lap in flight. -/
def heatsInFlight (s : State) (c : Nat) : Nat :=
  (s.srv.heats.filter fun h => h.2.mine && h.2.desc.ctx == c && h.2.desc.rows.any fun r => match reqIdx s r.handle with
    | some i => (s.req i).inLap && (s.req i).heat == h.1
    | none => false).length

/-- The pools heats are formed from: with HEAT_FIX the closed cohorts one by one, then the requests of no cohort; otherwise every request. The mark tells a
cohort's decode heat, which holds all of the cohort or is not formed (R550). -/
def heatPools (s : State) (c : Nat) : List (List Nat × Bool) :=
  let x := s.ctx c
  let l := ctxReqs s c
  if s.cfg 0x0B02 = 0 ∧ x.closed.isEmpty then [(l, false)]
  else
    let mine (i : Nat) : Bool := x.cohort.members.contains i || x.closed.any (·.contains i)
    x.closed.map (fun m => (sortBy (fun a b => decide (a < b)) m, true)) ++ [(l.filter fun i => !mine i, false)]

/-- The requests of a pool's next heat of a kind, with the positions each carries. -/
def heatRows (s : State) (pool : List Nat × Bool) (pre : Bool) : List (Nat × Nat) :=
  let ready := pool.1.filter fun i => lapReady s i && nextPrefill s (s.req i) == pre
  match ready with
  | [] => []
  | a :: _ =>
    let same := ready.filter fun i => boundGen s (s.req i) == boundGen s (s.req a)
    if pre then
      (same.foldl (fun (l : List (Nat × Nat) × Nat) i =>
        let n := min l.2 (prefillLeft s (s.req i))
        if n = 0 then l else (l.1 ++ [(i, n)], l.2 - n)) ([], s.cfg 0x0703)).1
    else if pool.2 ∧ same.length ≠ pool.1.length then []
    else (same.take (if pool.2 then same.length else s.cfg 0x0701)).map fun i => (i, 1 + (s.req i).drafts.length)

/-- Whether every role of a bundle is served by some package (R499). -/
def rolesPresent (s : State) (man : Manifest) : Bool :=
  man.roles.all fun r => match s.roleNode r with
    | some n => s.inDb n
    | none => false

/-- A request's part of a heat descriptor. -/
def descRow (s : State) (pre : Bool) (p : Nat × Nat) : HeatRow :=
  let r := s.req p.1
  let x := s.sess r.sessIdx
  let re := x.state == .recomputing
  { handle := r.handle p.1, home := r.home, session := r.sessIdx, pos0 := x.committed, positions := p.2, pending := r.pending
    drafts := if pre then [] else r.drafts, share := if r.prefixShared && x.state == .absent then r.prefixSess else none, tenant := r.tenant
    promptEnd := pre && !re && r.done + p.2 == r.prompt }

/-- The packages a heat's descriptor goes to: those of the job's first stage; this package where the bundle names none. -/
def firstNodes (s : State) (man : Manifest) : List Nat :=
  let l := roleNodes s man.firstStage
  if l.isEmpty then [s.fab.node] else l

/-- A heat of some requests: its lap takes the job's next number, and its descriptor goes to the first stage. -/
def formHeat (s : State) (c : Nat) (pre : Bool) (rows : List (Nat × Nat)) : State :=
  let x := s.ctx c
  let man := ctxMan s c
  -- sessions dropped under a request in flight are recomputed first (R285, R295)
  let s1 := rows.foldl (fun s p =>
    let r := s.req p.1
    if (s.sess r.sessIdx).state = .dropped then
      let s2 := wakeSession s r.sessIdx
      s2.setReq p.1 { s2.req p.1 with kvRecomputed := true }
    else s) s
  let lap := nextLap s c
  let id := s.fab.node * 2 ^ 24 + s.srv.heatSerial + 1
  let gen := match rows with | p :: _ => boundGen s (s.req p.1) | [] => 0
  let sorted := sortBy (fun (a b : HeatRow) => decide (a.handle < b.handle)) (rows.map (descRow s1 pre))
  let lock := x.lockstep && s.twin.state == .paired
  let d : HeatDesc := ⟨id, lap, 0, c, x.part, gen, pre, sorted, lock⟩
  let s2 := rows.foldl (fun s p => s.setReq p.1 { s.req p.1 with
    heat := id, inLap := true, curLap := lap, lapN := p.2, verdicts := [], lapDone := [] }) s1
  let s3 := noteLap (s2.setCtx c { s2.ctx c with lastPrefill := pre }) c lap
  let s4 := { s3 with srv := { s3.srv with heatSerial := s3.srv.heatSerial + 1 } }
  let s5 := s4.setHeat id { Heat.reset with live := true, mine := true, desc := d, lockstep := lock }
  (firstNodes s man).foldl (fun s n => s.send (.node n) (.heatDesc d)) s5

/-- Whether this package starts laps: it is not ISOLATED (R488), not fenced (R491), in no input outage (R637), and no reset is ordered (R586). -/
def startsLaps (s : State) : Bool := !s.twin.isolated && !s.twin.fenced && !s.entry.flushed && s.boot.resetWait.isNone

/-- HEAT_FORM: a heat of a context and a kind is formed from ready requests, the two kinds in turn while both have some. -/
def execHeatForm (ctx : Nat) (prefill : Bool) (s : State) : Host.Outcome State Fault Refusal :=
  .next (
    let s1 := refillAll s (dedup ((ctxReqs s ctx).map fun i => (s.req i).tenant))
    let x := s1.ctx ctx
    let pools := heatPools s1 ctx
    let pick (k : Bool) : Option (List (Nat × Nat)) := (pools.map fun p => heatRows s1 p k).find? fun l => !l.isEmpty
    if x.state == .none || x.state == .failed || (s1.part x.part).state != .active || !startsLaps s1 || !rolesPresent s1 (ctxMan s1 ctx) ||
        decide (s1.cfg 0x0702 ≤ heatsInFlight s1 ctx) || (x.lastPrefill == prefill && (pick (!prefill)).isSome) then s1
    else match pick prefill with
      | some rows => formHeat s1 ctx prefill rows
      | none => s1)

/-- A hand-off arrival noted: the last nine are kept (R387). -/
def noteHandOff (s : State) (c : Nat) : State :=
  let x := s.ctx c
  s.setCtx c { x with handOffs := (x.handOffs ++ [s.aon]).drop (x.handOffs.length + 1 - 9) }

/-- HEAT_DESCRIPTOR: a heat reaches this package, by its descriptor at the first stage, by a hand-off at a later one (R377, R485). -/
def execHeatDescriptor (d : HeatDesc) (s : State) : Host.Outcome State Fault Refusal :=
  .next (
    let x := s.ctx d.ctx
    if x.state == .none || x.part != d.part || !startsLaps s then s
    else
      let s1 := noteLap s d.ctx d.lap
      let first := (ctxMan s d.ctx).firstStage
      let s2 := if first.isEmpty || s.ownRoles.any first.contains then s1 else noteHandOff s1 d.ctx
      if (s.heat d.heat).live || s.srv.heats.any (·.1 == d.heat) then s2
      else s2.setHeat d.heat { Heat.reset with live := true, epoch := d.epoch, desc := d, lockstep := d.lockstep })

end Sys2Proof.Machine
end

