-- ==== Sys2Proof/Machine/Loader.lean ====
section
/-!
DEFINITION. The bundle loader (R170 to R173, R225 to R229, R249, R252, R573 to R575): the fifteen checks of a bundle in their order, and what
becomes of a bundle that passes.
-/

namespace Sys2Proof.Machine

/-! ### The bundle's bytes (R225, R226) -/

/-- A section: type, offset, length. -/
structure Section where
  type : Nat
  off : Nat
  len : Nat
  deriving DecidableEq, Repr

/-- Entries in the section table. -/
def bSections (b : List Byte) : Nat := ble b 0x18 2

/-- One entry of the section table. -/
def bSection (b : List Byte) (i : Nat) : Section := ⟨ble b (0x40 + 16 * i) 2, ble b (0x44 + 16 * i) 4, ble b (0x48 + 16 * i) 4⟩

/-- The section table. -/
def bTable (b : List Byte) : List Section := (List.range (bSections b)).map (bSection b)

/-- The section of a type. -/
def bFind (b : List Byte) (t : Nat) : Option Section := (bTable b).find? (·.type == t)

/-- The bytes of the section of a type; none where the bundle has no such section. -/
def bBytes (b : List Byte) (t : Nat) : List Byte := match bFind b t with | some x => bsub b x.off x.len | none => []

/-- A failure: check number, status, section type (0 the header), byte offset of the first failing item (log 36). -/
structure LoadFail where
  check : Nat
  status : Nat
  section_ : Nat
  off : Nat
  deriving DecidableEq, Repr

/-- The offset of the first item of `n` bytes of a list of items that fails a test. -/
def firstBad (n : Nat) (l : List Byte) (bad : List Byte → Bool) : Option Nat :=
  ((List.range (ceilDiv l.length n)).find? fun i => bad (bsub l (n * i) n)).map (n * ·)

/-- Check 1: the header (R225). -/
def headerBad (b : List Byte) (len : Nat) : Option Nat :=
  if ble b 0 4 ≠ 0x4E424B58 then some 0
  else if ble b 4 2 ≠ 1 then some 4
  else if ble b 6 1 ≠ 1 ∧ ble b 6 1 ≠ 2 then some 6
  else if 1 < ble b 7 1 then some 7
  else if ble b 8 4 ≠ len then some 8
  else if bSections b < 2 ∨ 32 < bSections b then some 0x18
  else if !allZero b 0x1A 6 then some 0x1A
  else none

/-- Check 1: the section table (R226). Each entry lies beyond the table, 64-byte aligned, after the one before it, and inside the bundle; only known
types; four types exactly once; SIGNATURE last and alone. -/
def tableBad (b : List Byte) : Option Nat :=
  let n := bSections b
  let one (i : Nat) : Bool :=
    let x := bSection b i
    let prev := if i = 0 then 0x40 + 16 * n else (bSection b (i - 1)).off + (bSection b (i - 1)).len
    !((1 ≤ x.type && x.type ≤ 7) || x.type == 0x7F) || !allZero b (0x42 + 16 * i) 2 || !allZero b (0x4C + 16 * i) 4 ||
    x.off % 64 != 0 || decide (x.off < prev) || decide (b.length < x.off + x.len) || (decide (i + 1 = n) != (x.type == 0x7F))
  match (List.range n).find? one with
  | some i => some (0x40 + 16 * i)
  | none => if [1, 2, 5, 7].all fun t => ((bTable b).filter (·.type == t)).length == 1 then none else some 0x40

/-- Check 2: the signature (R574, R575). -/
def signatureOk (s : State) (b : List Byte) : Bool :=
  match bFind b 0x7F with
  | none => false
  | some x =>
    let g := bsub b x.off x.len
    let n := bsub g 8 384
    let e := ble g 0x188 4
    let h := sha256 (bsub g 8 388)
    let key (k : Nat) : BitVec 256 := BitVec.ofNat 256 (beNat ((List.range 4).flatMap fun w => leBytes 8 (s.cfg (0x0D00 + 4 * k + w))))
    x.len == 832 && ble g 0 4 == 0x47534B58 && ble g 4 2 == 1 && allZero g 6 2 && allZero g 0x18C 4 && allZero g 0x310 48 &&
    keyForm n e && pssVerify n e (sha256Bytes (b.take x.off)) (bsub g 0x190 384) &&
    (((List.range 4).all fun k => key k == 0) || (List.range 4).any fun k => key k != 0 && key k == h)

/-! ### The manifest -/

/-- What the sections without a byte layout say (R226): questions to `Config.manifestNat` and `Config.manifestList`. The cold units come from the tile
index (R249). -/
def manifestOf (b : List Byte) (units : List (Nat × Nat × Nat × Nat)) : Manifest :=
  let d := sha256 b
  let q (k : Nat) : Nat := Config.manifestNat d k 0
  let l (k : Nat) : List (List Nat) := Config.manifestList d k
  { footprint := (l 0).map fun x => (nth 0 x 0, BitVec.ofNat 64 (nth 0 x 1))
    nearUnits := (l 1).map (nth 0 · 0)
    needsUnits := q 2
    vocab := q 3
    headsH := q 4
    experts := q 5
    kSel := q 6
    headWidth := q 7
    lists := (l 8).map fun x => (nth 0 x 0, nth 0 x 1)
    roles := (l 9).map (nth 0 · 0)
    firstStage := (l 10).map (nth 0 · 0)
    exitLayers := (l 11).map (nth 0 · 0)
    tensors := (l 12).map fun x => (nth 0 x 0, nth 0 x 1 == 1)
    expertOwner := (l 13).map fun x => (nth 0 x 0, nth 0 x 1, nth 0 x 2, nth 0 x 3)
    streamsOk := q 14 == 0
    canonOk := q 15 == 0
    coldUnits := units
    layerPages := q 16 }

/-! ### The tile index (R227, R229) -/

/-- The tile-index entries. -/
def tileEntries (b : List Byte) : List (List Byte) :=
  let l := bBytes b 5
  (List.range (l.length / 96)).map fun i => bsub l (96 * i) 96

def tLayer (t : List Byte) : Nat := ble t 4 2
def tUnit (t : List Byte) : Nat := ble t 6 2
def tStack (t : List Byte) : Nat := ble t 8 1
def tCold (t : List Byte) : Bool := nbits (ble t 9 1) 0 0 = 1
def tStreamed (t : List Byte) : Bool := nbits (ble t 9 1) 1 1 = 1
def tN (t : List Byte) : Nat := ble t 0xA 2
def tLen (t : List Byte) : Nat := ble t 0xC 4
def tOff (t : List Byte) : Nat := ble t 0x10 8
def tK (t : List Byte) : Nat := ble t 0x1C 2
def tFmt (t : List Byte) : Nat := ble t 0x22 1
def tGroups (t : List Byte) : Nat := tN t / 64

/-- The image map's lengths of a stack (R228). -/
def mapLen (b : List Byte) (st : Nat) : Nat := ble (bBytes b 7) (16 * st) 8
def mapNear (b : List Byte) (st : Nat) : Nat := ble (bBytes b 7) (16 * st + 8) 8
def mapPages (b : List Byte) : Nat := ble (bBytes b 7) 192 4

/-- Cold units of a bundle: layer, unit, stack, and where the unit begins in the stack's far object (R249). -/
def coldOf (b : List Byte) : List (Nat × Nat × Nat × Nat) :=
  (tileEntries b).foldl (fun a t =>
    if tCold t && !tStreamed t && !(a.any fun u => u.1 == tLayer t && u.2.1 == tUnit t && u.2.2.1 == tStack t) then
      let mine := (tileEntries b).filter fun x => tCold x && tLayer x == tLayer t && tUnit x == tUnit t && tStack x == tStack t
      a ++ [(tLayer t, tUnit t, tStack t, (mine.map tOff).foldl min (tOff t) - mapNear b (tStack t))]
    else a) []

/-- Bytes of a cold unit, stored contiguously. -/
def coldBytes (b : List Byte) (u : Nat × Nat × Nat × Nat) : Nat :=
  (tileEntries b).foldl (fun a t => if tCold t && tLayer t == u.1 && tUnit t == u.2.1 && tStack t == u.2.2.1 then a + tLen t else a) 0

/-- Whether a tile lies inside its shard (R229). -/
def inShard (p : Part) (b t : List Byte) : Bool :=
  if tStreamed t ∧ p.residency = 2 then
    decide (0 < tLen t ∧ tOff t / unit2M = (tOff t + tLen t - 1) / unit2M ∧ tOff t + tLen t ≤ mapPages b * unit2M)
  else if p.residency = 1 then
    if tCold t then decide (mapNear b (tStack t) ≤ tOff t ∧ tOff t + tLen t ≤ mapLen b (tStack t))
    else decide (tOff t + tLen t ≤ mapNear b (tStack t))
  else decide (tOff t + tLen t ≤ mapLen b (tStack t))

/-- A byte of a tile, from the image of the bundle's generation that holds it. -/
def tileByte (s : State) (p : Nat) (g : Gen) (t : List Byte) (a : Nat) : Nat :=
  let image := if tStreamed t ∧ (s.part p).residency = 2 then 12 else tStack t
  ble (genRead s p g image (tOff t + a) 1) 0 1

/-- Lengths of a tile's scales, width map and outlier records (R151). -/
def scaleLen (t : List Byte) : Nat := tGroups t * (tK t / 32) * 64
def widthMapLen (t : List Byte) : Nat := if tFmt t = 9 then 64 * ceilDiv (tK t) 4096 else 0
def outlierLen (t : List Byte) : Nat := tGroups t * ceilDiv (tK t) 256 * outlierBytes

/-- Where a tile's element bytes end, with or without outlier records, when its length is that of R151. The widths of a WMIX tile are those of the map
that follows its elements. -/
def elementEnd (rd : Nat → Nat) (t : List Byte) (outl : Bool) : Option Nat :=
  let rest := widthMapLen t + scaleLen t + (if outl then outlierLen t else 0)
  if tLen t ≤ rest then none
  else
    let e := tLen t - rest
    if tGroups t * groupBytes (tileWidths rd (tFmt t) e (tK t / 32)) = e then some e else none

/-- The parts of a tile: where its elements end, and whether outlier records follow the scales. -/
def tileParts (rd : Nat → Nat) (t : List Byte) : Option (Nat × Bool) :=
  match elementEnd rd t false with
  | some e => some (e, false)
  | none => (elementEnd rd t true).map fun e => (e, true)

/-- Check 11 of one entry: CLASS and STACK, shard, length and alignment (R151, R152), the record's ORIGIN and reserved fields (R136). A WMIX tile's width
map is judged by check 13: its length is that of some map. -/
def tileBad (rd : Nat → Nat) (p : Part) (b t : List Byte) : Bool :=
  nbits (ble t 9 1) 7 2 != 0 || decide (11 < tStack t) || !inShard p b t ||
  decide (tK t < 32 ∨ 65504 < tK t ∨ tK t % 32 ≠ 0 ∨ tN t < 64 ∨ 1024 < tN t ∨ tN t % 64 ≠ 0) || decide (3112960 < tLen t) || tOff t % 64 != 0 ||
  (tFmt t != 9 && (tileParts rd t).isNone) || ble t 0x20 1 != 1 || nbits (ble t 0x23 1) 7 3 != 0 || !allZero t 0x41 31

/-- Check 12 of one entry (R143). -/
def unresolvedBad (t : List Byte) : Bool := nbits (ble t 0x23 1) 0 0 == 1 || ble t 0x21 1 != tFmt t

/-- Check 13 of one tile (R118, R122). -/
def scaleBad (rd : Nat → Nat) (t : List Byte) : Bool :=
  match tileParts rd t with
  | none => true
  | some (e, _) =>
    (tFmt t == 9 && (List.range (tK t / 32)).any fun i =>
      let w := nbits (rd (e + i / 2)) (4 * (i % 2) + 3) (4 * (i % 2))
      decide (w < 3 ∨ 8 < w)) ||
    (List.range (scaleLen t)).any fun i => rd (e + widthMapLen t + i) == 255

/-- Check 14 of one tile (R125, R126). -/
def outlierRecBad (rd : Nat → Nat) (t : List Byte) : Bool :=
  match tileParts rd t with
  | some (e, true) => (List.range (tGroups t * ceilDiv (tK t) 256)).any fun i =>
      let a := e + widthMapLen t + scaleLen t + i * outlierBytes
      outlierBad rd a (tK t) (i % ceilDiv (tK t) 256)
  | _ => false

/-! ### The checks in order (R171) -/

/-- A core of the footprint whose windows break R45's own limits, or overlap those of another entry on the same core. -/
def windowsBad (l : List (Nat × Word64)) : Bool :=
  let slot (w : Word64) : SlotSt := { SlotSt.reset with cfg := w }
  let fits (x : SlotSt) : Bool := decide (8 ≤ x.spb ∧ x.spb + x.sps ≤ 768 ∧ x.acb + x.acs ≤ 1024 ∧ x.hbase + x.hcount ≤ 64)
  let clash (x y : SlotSt) : Bool := overlap x.spb x.sps y.spb y.sps || overlap x.acb x.acs y.acb y.acs || overlap x.hbase x.hcount y.hbase y.hcount
  (List.range l.length).any fun i =>
    let a := nth (0, 0) l i
    !fits (slot a.2) || (List.range i).any fun j => (nth (0, 0) l j).1 == a.1 && clash (slot a.2) (slot (nth (0, 0) l j).2)

/-- Units of a stack free for a model's near footprint: those no other model's generation takes. -/
def freeFor (p : Part) (model st : Nat) : Nat :=
  imageUnits p st - (takenUnits { p with gens := p.gens.filter fun g => g.model != model } st).foldl (fun a r => a + r.2) 0

/-- The failure of one check, where it fails. -/
def bundleCheck (s : State) (p len : Nat) (b : List Byte) (n : Nat) : Option LoadFail :=
  let x := s.part p
  let model := ble b 0x10 8
  let man := manifestOf b (coldOf b)
  let gen := x.gen? model (ble b 0xC 4)
  let fail (st sec off : Nat) : Option LoadFail := some ⟨n, st, sec, off⟩
  let scan (st sec size : Nat) (bad : List Byte → Bool) : Option LoadFail := (firstBad size (bBytes b sec) bad).map fun o => ⟨n, st, sec, o⟩
  let tile (bad : (Nat → Nat) → List Byte → Bool) (st : Nat) : Option LoadFail := match gen with
    | some g => scan st 5 96 fun t => bad (tileByte s p g t) t
    | none => none
  let needs (k : Nat) : Bool := nbits man.needsUnits k k = 1
  match n with
  | 1 => (match headerBad b len with
    | some o => fail stBUNDLE_FORMAT 0 o
    | none => (tableBad b).bind fun o => fail stBUNDLE_FORMAT 0 o)
  | 2 => if signatureOk s b then none else fail stBUNDLE_AUTH 0x7F 0
  | 3 => if ble b 6 1 = s.grade then none else fail stGRADE_MISMATCH 0 6
  | 4 => if (man.footprint.any fun c => !s.coreOk c.1) || (needs 0 && !s.hasNand) || (needs 1 && !s.hasCxl) || (needs 2 && !s.hasLockstep)
      then fail stUNIT_ABSENT 1 (Config.manifestNat (sha256 b) 4 1) else none
  | 5 => if (man.footprint.any fun c => !bit x.rows (starterOf c.1)) ||
        (List.range man.nearUnits.length).any (fun st => decide ((match x.ranges[st]? with | some r => r.near | none => 0) < nth 0 man.nearUnits st))
      then fail stOUT_OF_PARTITION 1 (Config.manifestNat (sha256 b) 5 1) else none
  | 6 => if windowsBad man.footprint || (List.range man.nearUnits.length).any (fun st => decide (freeFor x model st < nth 0 man.nearUnits st)) ||
        ((partModels x).contains model == false && decide (4 ≤ (partModels x).length))
      then fail stNO_SPACE 1 (Config.manifestNat (sha256 b) 6 1)
      else if x.residency = 1 ∧ ((coldOf b).any fun u => decide (x.cslotMib * 1048576 < coldBytes b u)) then fail stNO_SPACE 5 0
      else if x.residency = 2 ∧ x.rpages < man.layerPages + 1 then fail stNO_SPACE 5 0
      else none
  | 7 => if gen.isSome then none else fail stGEN_MISMATCH 0 0xC
  | 8 => (match scan stBAD_STREAM 2 32 fun c => c.length != 32 || !opcodes.contains (ble c 0 1) with
    | some f => some f
    | none => if man.streamsOk then none else fail stBAD_STREAM 2 (Config.manifestNat (sha256 b) 8 1))
  | 9 => scan stBAD_GROUP_TABLE 3 64 fun e => e.length != 64 || entryBad e || (decide (0 < eM e ∧ 0 < eN e) && entryMisaligned e)
  | 10 => scan stBAD_POINTER_LIST 4 8 fun e =>
      e.length != 8 || nbits (ble e 0 8) 61 40 != 0 ||
      (nbits (ble e 0 8) 63 63 == 1 && (nbits (ble e 0 8) 39 0 % 64 != 0 || (nbits (ble e 0 8) 62 62 == 1 && nbits (ble e 0 8) 39 22 != 0)))
  | 11 => tile (fun rd t => t.length != 96 || tileBad rd x b t) stBAD_TILE
  | 12 => tile (fun _ t => unresolvedBad t) stUNRESOLVED_BLOCK
  | 13 => tile scaleBad stBAD_SCALE
  | 14 => tile outlierRecBad stBAD_OUTLIER
  | _ => if ble b 7 1 = 0 ∧ !((bFind b 6).isSome && man.canonOk) then fail stNOT_CANONICAL 6 (Config.manifestNat (sha256 b) 15 1) else none

/-- The first check that fails. -/
def bundleFail (s : State) (p len : Nat) (b : List Byte) : Option LoadFail :=
  ((List.range 15).map (· + 1)).findSome? (bundleCheck s p len b)

/-! ### MDL.BUNDLE_LOAD and MDL.BUNDLE_UNLOAD -/

/-- Whether a load of a partition is being checked (R170). -/
def loading (s : State) (p : Nat) : Bool :=
  (List.range 16).any fun f => (s.fn f).deferred.any fun d => d.type == 0x0301 && mp s d.msg == p

/-- MDL.BUNDLE_LOAD begins. -/
def bodyMdlBundleLoad (s : State) (m : Msg) : State :=
  let len := ble m.payload 8 4
  if len < 4096 ∨ 268435456 < len then reply s 0x0301 m stBAD_FIELD []
  else if loading s (mp s m) then reply s 0x0301 m stLOADER_BUSY []
  else beginDeferred s 0x0301 m 0

/-- MDL_BUNDLE_LOAD. -/
def execMdlBundleLoad (m : Msg) (s : State) : Host.Outcome State Fault Refusal := .next (settle (serveDeferred s 0x0301 m bodyMdlBundleLoad))

/-- The bundle as the package keeps it. -/
def bundleOf (b : List Byte) : Bundle where
  model := ble b 0x10 8
  generation := ble b 0xC 4
  fast := ble b 7 1 = 1
  grade := ble b 6 1
  digest := sha256 b
  keyHash := match bFind b 0x7F with | some x => sha256 (bsub b (x.off + 8) 388) | none => 0
  man := manifestOf b (coldOf b)

/-- MDL.BUNDLE_LOAD ends (R171, R172): the bundle that passes replaces its model's; one that fails changes nothing. -/
def doneMdlBundleLoad (s : State) (d : Deferred) (h : HostReply) : State :=
  let p := mp s d.msg
  let len := ble d.msg.payload 8 4
  let r := dmaIn h len
  if r.2 then endDeferred s d stDMA_FAULT []
  else
    let b := r.1
    match bundleFail s p len b with
    | some f => endDeferred s d f.status (leBytes 8 (ble b 0x10 8) ++ leBytes 1 f.check ++ zeros 1 ++ leBytes 2 f.section_ ++ leBytes 4 f.off)
    | none =>
      let x := s.part p
      let n := bundleOf b
      let bs := insertBy (fun a c => decide (a.model < c.model)) n (x.bundles.filter fun a => a.model != n.model)
      endDeferred (s.setPart p { x with bundles := bs }) d stOK (leBytes 8 n.model ++ zeros 8)

/-- MDL.BUNDLE_UNLOAD removes a bundle of the partition (R421, R573). -/
def bodyMdlBundleUnload (s : State) (m : Msg) : State :=
  let p := mp s m
  let x := s.part p
  match x.bundles.find? fun b => b.model == mdlModel m with
  | none => reply s 0x0302 m stMODEL_UNKNOWN []
  | some b =>
    if b.generation ≠ mdlGen m then reply s 0x0302 m stGEN_MISMATCH []
    else reply (s.setPart p { x with bundles := x.bundles.filter fun a => a.model != b.model }) 0x0302 m stOK []

/-- MDL_BUNDLE_UNLOAD. -/
def execMdlBundleUnload (m : Msg) (s : State) : Host.Outcome State Fault Refusal := .next (settle (serve s 0x0302 m bodyMdlBundleUnload))

/-- Partition p's bundle list (R573). -/
def bundleList (s : State) (p : Nat) : BitVec 256 :=
  sha256 ((s.part p).bundles.flatMap fun b => leBytes 8 b.model ++ digestBytes b.digest ++ digestBytes b.keyHash)

end Sys2Proof.Machine
end

