-- ==== Sys2Proof/Machine/Sched.lean ====
section
/-!
DEFINITION. The scheduler C1 (R52, R101, R383 to R396, R494, R495): contexts brought in and evicted, the bench rule, faults of a context's slots, the replay of
a heat's lap, and slowdown reports.
-/

namespace Sys2Proof.Machine

/-! ### Footprints and conflicts (R383, R386) -/

/-- The cores of a context's footprint with each slot's FLD_SLOT_CFG. -/
def footprint (s : State) (c : Nat) : List (Nat × Word64) := (ctxMan s c).footprint

/-- Whether two contexts share a core and a slot index. -/
def conflicts (s : State) (a b : Nat) : Bool :=
  a != b && (s.ctx a).slot == (s.ctx b).slot && (footprint s a).any fun f => (footprint s b).any fun g => f.1 == g.1

/-- The resident contexts of a partition. -/
def residents (s : State) (p : Nat) : List Nat := tkeys (s.srv.ctxs.filter fun c => c.2.state == .resident && c.2.part == p)

/-- Every resident context. -/
def allResidents (s : State) : List Nat := tkeys (s.srv.ctxs.filter fun c => c.2.state == .resident)

/-- Whether a context is runnable: a heat of it has a lap ready to start here. -/
def runnable (s : State) (c : Nat) : Bool := s.srv.heats.any fun h => h.2.live && !h.2.fetched && h.2.desc.ctx == c

/-- Whether a context has a heat in flight here. -/
def heatInFlight (s : State) (c : Nat) : Bool := s.srv.heats.any fun h => h.2.live && h.2.desc.ctx == c

/-- Whether a footprint core lies in a row marked unavailable, which accepts no new work (R101). -/
def rowsUp (s : State) (c : Nat) : Bool := (footprint s c).all fun f => !(s.starter (starterOf f.1)).unavailable

/-! ### The bench image (R52, R384) -/

/-- The records of a table from `lo` on, `n` of them by number, taken over those of another. -/
def splice {α : Type} (dst src : Tab α) (lo n : Nat) : Tab α :=
  dst.filter (fun e => decide (e.1 < lo)) ++ src.filter (fun e => decide (lo ≤ e.1 ∧ e.1 < lo + n)) ++ dst.filter (fun e => decide (lo + n ≤ e.1))

/-- One slot's saved state taken from one copy of a core to another: ring, window, accumulator rows, hurdles, inboxes, channels, stream progress and deferred
table. -/
def takeSlot (dst src : Core) (k : Nat) : Core :=
  let x := src.slot k
  let d := { dst with
    spad := splice (splice dst.spad src.spad (k * 0x2000) 0x2000) src.spad (x.spb * 4096) (x.sps * 4096)
    acc := splice dst.acc src.acc (x.acb * 64) (x.acs * 64)
    hurdle := splice dst.hurdle src.hurdle x.hbase x.hcount
    inbox := splice dst.inbox src.inbox (8 * k) 8
    inboxN := splice dst.inboxN src.inboxN (8 * k) 8
    chan := splice dst.chan src.chan (32 * k) 32
    chanSeq := splice dst.chanSeq src.chanSeq (32 * k) 32
    restart := dst.restart.filter (fun c => c / 32 != k) ++ src.restart.filter (fun c => c / 32 == k) }
  d.setSlot k { x with esc := (dst.slot k).esc, cfg := (dst.slot k).cfg, state := (dst.slot k).state }

/-- The image of a resident context's slots. -/
def saveImage (s : State) (c : Nat) : Tab Core :=
  let k := (s.ctx c).slot
  (footprint s c).foldl (fun t f => tput t f.1 ((takeSlot Core.reset (s.core f.1) k).setSlot k (s.slot f.1 k))) []

/-- One slot of a context bound, and restored and resumed where an image is saved (R52, R385). -/
def bringSlot (s : State) (c : Nat) (f : Nat × Word64) : State :=
  let x := s.ctx c
  let k := x.slot
  let w := setBits (setBits f.2 7 0 c) 9 8 x.prio
  let s1 := slotBind (s.setSlot f.1 k { s.slot f.1 k with cfg := w }) f.1 k
  if x.saved && (s1.slot f.1 k).state == .bound then
    let img := tget Core.reset x.image f.1
    let s2 := s1.setCore f.1 (takeSlot (s1.core f.1) img k)
    if (img.slot k).state = .paused then slotResume (slotRestore s2 f.1 k (img.slot k).head.toNat (img.slot k).tail.toNat) f.1 k else s2
  else s1

/-- A BENCHED context becomes RESIDENT: its slots are bound, and what was saved is written back (R385, R386). -/
def bringIn (s : State) (c : Nat) : State :=
  let s1 := (footprint s c).foldl (fun s f => bringSlot s c f) s
  let x := s1.ctx c
  modStats (s1.setCtx c { x with state := .resident, saved := false, image := [], blocked := none, lastStart := s.aon, swaps := x.swaps + 1 }) x.part
    fun t => { t with swaps := t.swaps + 1 }

/-- Whether a context can be brought in now. -/
def canBring (s : State) (c : Nat) : Bool :=
  (s.ctx c).state == .benched && runnable s c && (s.part (s.ctx c).part).state == .active && s.power.fieldOn && rowsUp s c &&
  (allResidents s).all fun r => !conflicts s c r

/-- CONTEXT_BRING_IN. -/
def execContextBringIn (ctx : Nat) (s : State) : Host.Outcome State Fault Refusal := .next (if canBring s ctx then bringIn s ctx else s)

/-! ### Blocked contexts (R387) -/

/-- The mean interval of some arrivals, oldest first. -/
def meanInterval (l : List Nat) : Option Nat :=
  match l with
  | a :: b :: r => some (((b :: r).getLast?.getD b - a) / (r.length + 1))
  | _ => none

/-- The expected remaining block time of a cause, in AON cycles; none is unbounded. -/
def causeTime (s : State) (c : Nat) (b : BlockCause) : Option Nat :=
  let x := s.ctx c
  match b with
  | .handOff => some (match meanInterval (x.handOffs.drop (x.handOffs.length - 8)) with
    | some m => m - (s.aon - x.handOffs.getLast?.getD 0)
    | none => Config.blockGuess c)
  | .farFetch n rate => if rate = 0 then none else some (4 * n / rate)
  | .pacer t => some ((s.tenant t).next - s.aon)
  | .genCopy n rate => if rate = 0 then none else some (4 * n / rate)
  | .idle => none

/-- The smaller of two times, none being unbounded. -/
def minTime (a b : Option Nat) : Option Nat :=
  match a, b with
  | some x, some y => some (min x y)
  | some x, none => some x
  | none, y => y

/-- A blocked context's expected remaining block time. -/
def blockTime (s : State) (c : Nat) : Option Nat := (((s.ctx c).blocked.getD []).map (causeTime s c)).foldl minTime none

/-- Whether a cause holds of a context, as far as this package's state tells. -/
def causeHolds (s : State) (c : Nat) (b : BlockCause) : Bool :=
  match b with
  | .idle => !heatInFlight s c && (ctxReqs s c).isEmpty
  | .pacer t => (ctxReqs s c).any fun i => (s.req i).tenant == t && ((s.tenant t).refill == 0 || decide ((s.tenant t).balance ≤ 0))
  | _ => true

/-- CONTEXT_BLOCKED: no slot of a resident context has started a command for BLOCK_US, and it waits for a cause of R387. -/
def execContextBlocked (ctx : Nat) (causes : List BlockCause) (s : State) : Host.Outcome State Fault Refusal :=
  .next (
    let x := s.ctx ctx
    let l := causes.filter (causeHolds s ctx)
    if x.state == .resident && x.blocked.isNone && decide (x.lastStart + usAon (s.cfg 0x0706) ≤ s.aon) && !l.isEmpty then
      s.setCtx ctx { x with blocked := some l }
    else s)

/-! ### The bench rule (R388, R389) -/

/-- Bytes of a context's image on a Field die: windows, accumulator rows and 1 KiB of registers (R384). -/
def imageBytes (s : State) (c die : Nat) : Nat :=
  ((footprint s c).filter fun f => coreDie f.1 == die).foldl (fun a f => a + bits f.2 42 33 * 4096 + bits f.2 63 53 * 256 + 1024) 0

/-- The partition's measured swap time in AON cycles: the mean of its last 8 swaps, or the estimate of R389 before it has had 8. -/
def swapTime (s : State) (p out inn : Nat) : Nat :=
  let l := (s.part p).swapTimes
  if 8 ≤ l.length then (l.drop (l.length - 8)).foldl (· + ·) 0 / 8
  else usAon 20 + ceilDiv (4 * ((List.range 4).foldl (fun a d => max a (imageBytes s out d + imageBytes s inn d)) 0)) 6150000

/-- The runnable BENCHED contexts that wait for a conflicting resident. -/
def waiting (s : State) (p : Nat) : List Nat :=
  tkeys (s.srv.ctxs.filter fun c => c.2.state == .benched && c.2.part == p && runnable s c.1 && rowsUp s c.1 &&
    (allResidents s).any fun r => conflicts s c.1 r)

/-- The beneficiary of a blocked resident: of the contexts whose only conflict it is, the highest priority, then the lowest ID. -/
def beneficiary (s : State) (p v : Nat) : Option Nat :=
  let l := (waiting s p).filter fun b => (allResidents s).all fun r => (conflicts s b r) == (r == v)
  (sortBy (fun a b => decide ((s.ctx b).prio < (s.ctx a).prio ∨ ((s.ctx a).prio = (s.ctx b).prio ∧ a < b))) l).head?

/-- Whether one candidate comes before another: the lower priority, then the longer expected block, then the higher ID. -/
def candLt (s : State) (a b : Nat × Nat) : Bool :=
  let p := (s.ctx a.1).prio
  let q := (s.ctx b.1).prio
  if p ≠ q then decide (p < q)
  else match blockTime s a.1, blockTime s b.1 with
    | none, some _ => true
    | some _, none => false
    | some x, some y => if x ≠ y then decide (y < x) else decide (b.1 < a.1)
    | none, none => decide (b.1 < a.1)

/-- The candidates with their beneficiaries, in order. -/
def candidates (s : State) (p : Nat) : List (Nat × Nat) :=
  sortBy (candLt s) ((residents s p).filterMap fun v => (beneficiary s p v).bind fun b =>
    if (s.ctx v).blocked.isSome && (match blockTime s v with | some t => decide (2 * swapTime s p v b < t) | none => true) then some (v, b) else none)

/-- Every slot of a context paused. -/
def pauseCtx (s : State) (c : Nat) : State := (footprint s c).foldl (fun s f => slotPause s f.1 (s.ctx c).slot) s

/-- Every slot of a context resumed. -/
def resumeCtx (s : State) (c : Nat) : State := (footprint s c).foldl (fun s f => slotResume s f.1 (s.ctx c).slot) s

/-- The first candidate of a list is paused; with none left the partition waits (R388). -/
def tryEvict (s : State) (p : Nat) (l : List (Nat × Nat)) : State :=
  match l with
  | [] => s.setPart p { s.part p with evict := none }
  | (v, b) :: r => pauseCtx (s.setPart p { s.part p with evict := some ⟨v, b, r, s.aon⟩ }) v

/-- EVICTION: a runnable context waits for a resident one and every resident context of the partition is blocked. -/
def execEviction (part : Nat) (s : State) : Host.Outcome State Fault Refusal :=
  .next (
    let p := s.part part
    if p.state == .active && p.evict.isNone && !(waiting s part).isEmpty && (residents s part).all (fun r => (s.ctx r).blocked.isSome) then
      tryEvict s part (candidates s part)
    else s)

/-- Whether every slot of a context has reported PAUSED; one that runs no ring has nothing to drain. -/
def allPaused (s : State) (c : Nat) : Bool :=
  (footprint s c).all fun f =>
    let x := s.slot f.1 (s.ctx c).slot
    (x.state == .paused && x.drain.isNone) || x.state == .bound || x.state == .unbound

/-- EVICT_TIMEOUT: 50 µs have passed; the candidate resumes, an EVICT_ABORT is counted, and the next candidate is taken. -/
def execEvictTimeout (part : Nat) (s : State) : Host.Outcome State Fault Refusal :=
  .next (match (s.part part).evict with
    | none => s
    | some e =>
      if e.since + usAon 50 ≤ s.aon ∧ !allPaused s e.victim then
        tryEvict (modStats (resumeCtx s e.victim) part fun t => { t with evictAbort := t.evictAbort + 1 }) part e.rest
      else s)

/-- AON cycles from a context's last PAUSED record to now (R389). -/
def sincePaused (s : State) (c : Nat) : Nat :=
  let last := ((footprint s c).flatMap fun f => ((s.starter (starterOf f.1)).queue.filter fun r => r.kind == kPAUSED && r.ctx == c).map (·.cycle)).foldl max 0
  if s.power.freq = 0 then 0 else 4 * (s.fieldCycle - last) / s.power.freq

/-- EVICT_SAVE: every slot of the candidate is PAUSED: its state is saved, its slots are UNBOUND, it is BENCHED, and its beneficiary is brought in. -/
def execEvictSave (part : Nat) (s : State) : Host.Outcome State Fault Refusal :=
  .next (match (s.part part).evict with
    | none => s
    | some e =>
      if !allPaused s e.victim then s
      else
        let v := s.ctx e.victim
        let img := saveImage s e.victim
        let dt := sincePaused s e.victim
        let s1 := (footprint s e.victim).foldl (fun s f => slotUnbind s f.1 v.slot) s
        let s2 := s1.setCtx e.victim { v with state := .benched, saved := true, image := img, blocked := none }
        let p := s2.part part
        let s3 := s2.setPart part { p with evict := none, swapTimes := (p.swapTimes ++ [dt]).drop (p.swapTimes.length + 1 - 8) }
        if canBring s3 e.beneficiary then bringIn s3 e.beneficiary else s3)

/-! ### A lap run again (R494) -/

/-- The provisional positions a heat's lap appended here return to free. -/
def undoRow (s : State) (k : Nat) : State :=
  let m := s.map k
  if m.present && m.lapOn then
    let t := trimLists (s.part m.part) m.lists m.clen
    fitRecords ((s.setPart m.part t.1).setMap k { m with lists := t.2, plen := 0, lapOn := false, unacked := 0 }) k
  else s

/-- LAP_REPLAY here: the heat's live epoch rises without a cancel; a package whose part of the lap is not complete abandons it and runs the stage again from
its kept input, once it is fetched again. -/
def replayLap (s : State) (id epoch : Nat) : State :=
  let h := s.heat id
  if !h.live ∨ epoch ≤ h.epoch then s
  else if h.fetched ∧ !h.ownDone then
    let s1 := stopHeat (unpinHeat s id) id
    -- the abandoned attempt's energy is speculation overhead (R497)
    let s1 := h.desc.rows.foldl (fun s r => modAcct s r.home r.handle fun a => { a with eSpec := a.eSpec + a.lapUj, lapUj := 0 }) s1
    let s2 := h.keys.foldl undoRow s1
    s2.setHeat id { s2.heat id with
      epoch := epoch, fetched := false, lapActive := false, exited := [], proposals := []
      held := h.held.filter fun x => decide (epoch ≤ x.2.1.epoch)
      keptVerdicts := h.keptVerdicts.filter fun v => v.lap != h.desc.lap }
  else s.setHeat id { h with epoch := epoch, held := h.held.filter fun x => decide (epoch ≤ x.2.1.epoch) }

/-- A heat replayed by this package: LAP_REPLAY goes to every package that holds it (R493, R495). -/
def orderReplay (s : State) (id : Nat) : State :=
  let h := s.heat id
  if !h.live then s else replayLap (s.send (.holders id) (.lapReplay id h.desc.lap (h.epoch + 1))) id (h.epoch + 1)

/-! ### Faults (R101, R390, R392, R495) -/

/-- The ledger's FAULT word: cause, core and slot (R363). -/
def ledgerFault (cause core slot : Nat) : Nat := cause + core * 2048 + slot * 2 ^ 22

/-- A context is FAILED: its slots are let go, and every request of it not yet ended ends CONTEXT_FAILED (R385, R392). -/
def failCtx (s : State) (c : Nat) : State :=
  let x := s.ctx c
  if x.state == .none || x.state == .failed then s
  else
    let s1 := if x.state == .resident then
        (footprint s c).foldl (fun s f => slotUnbind (slotStop (slotClear s f.1 x.slot) f.1 x.slot) f.1 x.slot) s
      else s
    endAll (s1.setCtx c { x with state := .failed, blocked := none }) stCONTEXT_FAILED (·.ctx == c)

/-- A fault counts toward FAULT_LIMIT within one second on the AON counter (R392). -/
def countFault (s : State) (c : Nat) : State :=
  let x := s.ctx c
  let n := s.cfg 0x0705
  let l := (x.faultTimes.filter fun t => decide (s.aon < t + 4000000)) ++ [s.aon]
  let s1 := s.setCtx c { x with faultTimes := l, faults := x.faults + 1 }
  if n ≠ 0 ∧ n ≤ l.length then failCtx s1 c else s1

/-- The heats a record's slot serves: those its commands belong to; for a beside command, the context's heats with a lap here. -/
def faultHeats (s : State) (core : Nat) (r : Record) : List Nat :=
  if r.col = 31 then tkeys (s.srv.heats.filter fun h => h.2.live && h.2.lapActive && h.2.desc.ctx == r.ctx)
  else ((s.slot core r.slot).heat :: []).filter (· != 0)

/-- FAULT_RECORD: C1 takes the oldest FAULT record of a starter (R390). A MSG_UNREACH or FABRIC_FAULT met while a node is fenced counts nothing and has its heats
replayed (R495). -/
def execFaultRecord (die row : Nat) (s : State) : Host.Outcome State Fault Refusal :=
  .next (settle (
    let k := die * 16 + row
    let q := s.starter k
    match q.queue.find? (·.kind == kFAULT) with
    | none => s
    | some r =>
      let core := if r.col = 31 then 0 else coreAddr die row r.col
      let heats := faultHeats s core r
      let s1 := s.setStarter k { q with queue := q.queue.erase r }
      let clear (s : State) : State := if r.col = 31 then s else slotClear s core r.slot
      if (r.cause == fcMSG_UNREACH || r.cause == fcFABRIC_FAULT) && !s.twin.fence.isEmpty then
        heats.foldl orderReplay (clear s1)
      else
        let s2 := heats.foldl (fun s id => (s.heat id).desc.rows.foldl
          (fun s x => orderEnd s x.home x.handle stENGINE_FAULT (ledgerFault r.cause core r.slot)) s) s1
        countFault (clear s2) r.ctx))

/-- STARTER_FAULT: the row is unavailable until a warm reset, and the contexts with a core in it are FAILED (R101, R385). -/
def execStarterFault (die row : Nat) (s : State) : Host.Outcome State Fault Refusal :=
  .next (settle (
    if 4 ≤ die ∨ 16 ≤ row ∨ !s.power.fieldOn then s
    else
      let k := die * 16 + row
      let s1 := s.setStarter k { s.starter k with unavailable := true }
      (tkeys s.srv.ctxs).foldl (fun s c => if (footprint s c).any (fun f => starterOf f.1 == k) then failCtx s c else s) s1))

/-! ### Slowdown reports (R393, R394) -/

/-- AON cycles as Field cycles at the clock in effect. -/
def aonField (s : State) (n : Nat) : Nat := n * s.power.freq / 4

/-- LOST charged to a context: on the core and engine with its greatest BUSY, the lower on a tie, in Field cycles. -/
def lostUnit (x : Ctx) : Nat :=
  let key := (x.util.filter fun e => e.1 % 2 == 0).foldl (fun (a : Option (Nat × Nat)) e => match a with
    | none => some e
    | some b => if b.2 < e.2 then some e else some b) none
  match key with
  | some e => tget 0 x.util (e.1 + 1) / 4
  | none => 0

/-- lost_c: what arbitration cost, the time benched while runnable, and the scheduler stall. -/
def lostOf (s : State) (x : Ctx) : Nat := lostUnit x + aonField s x.stallAon + aonField s x.stallAon

/-- R393. -/
def slowdown (s : State) (x : Ctx) : Nat :=
  let run := aonField s x.runAon
  let solo := run - lostOf s x
  if run = 0 then 256 else if solo = 0 then 0xFFFFFFFF else run * 256 / solo

/-- The 32-byte entry of a context. -/
def reportEntry (s : State) (c : Nat) : List Byte :=
  let x := s.ctx c
  leBytes 1 c ++ leBytes 1 (match x.state with | .benched => 0 | .resident => 1 | .failed => 2 | .none => 0) ++ zeros 2 ++ leBytes 4 (min (slowdown s x) 0xFFFFFFFF) ++
  leBytes 4 (x.runAon / 4) ++ leBytes 4 (if s.power.freq = 0 then 0 else lostOf s x / s.power.freq) ++ leBytes 4 (x.stallAon / 4) ++ leBytes 2 x.swaps ++
  leBytes 2 x.faults ++ leBytes 4 x.laps ++ zeros 4

/-- The contexts of a partition. -/
def partCtxs (s : State) (p : Nat) : List Nat := tkeys (s.srv.ctxs.filter fun c => c.2.state != .none && c.2.part == p)

/-- The entries of a partition, and the next report interval begun. -/
def report (s : State) (p : Nat) : List Byte × State :=
  ((partCtxs s p).flatMap (reportEntry s),
   (partCtxs s p).foldl (fun s c => s.setCtx c { s.ctx c with stallAon := 0, runAon := 0, swaps := 0, faults := 0, laps := 0, util := [] })
     (s.setPart p { s.part p with reportAt := s.aon }))

/-- SLOWDOWN_REPORT: PAR.REPORT every REPORT_MS. -/
def execSlowdownReport (part : Nat) (s : State) : Host.Outcome State Fault Refusal :=
  .next (settle (
    let p := s.part part
    let w := s.cfg 0x0704
    if p.state == .free || w == 0 || decide (s.aon < p.reportAt + msAon w) then s
    else
      let r := report s part
      notify r.2 p.fn mPAR_REPORT 0 r.1))

/-- PAR.STATS. -/
def bodyParStats (s : State) (m : Msg) : State :=
  let r := report s (mp s m)
  reply r.2 0x0208 m stOK r.1

/-- PAR_STATS. -/
def execParStats (m : Msg) (s : State) : Host.Outcome State Fault Refusal := .next (settle (serve s 0x0208 m bodyParStats))

end Sys2Proof.Machine
end

