-- ==== Sys2Proof/Machine/FabLink.lean ====
section
/-!
DEFINITION. Fabric links, the link-state database, routing and the arrival of packets (R433 to R460, R467, R473 to R476), with what starts the
pairing and the suspicion of a twin (R479, R486, R487).
-/

namespace Sys2Proof.Machine

/-! ### The twin: pairing and suspicion -/

/-- The twin's state changed in place. -/
def State.mapTwin (s : State) (f : Twin → Twin) : State := { s with twin := f s.twin }

/-- The values PAIR carries (R479): FLD_NUM_CFG, STW_EXP_CFG, STW_SPEC_CFG, STW_WGT_CFG, STW_DET_CFG and KV_SR. -/
def pairValues (s : State) : List Word64 :=
  [s.numCfg 0, cfgWord s.settings (regFields .expCfg), cfgWord s.settings (regFields .specCfg), cfgWord s.settings (regFields .wgtCfg),
   cfgWord s.settings (regFields .detCfg), BitVec.ofNat 64 (s.cfg 0x0404)]

/-- What this package's PAIR says. -/
def ownPair (s : State) : PairInfo := ⟨s.fab.node, s.fab.ownRole, s.twin.state.code, pairValues s⟩

/-- A PAIR message to the twin, where the plan names one (R479). -/
def sendPair (s : State) : State :=
  match s.twinNode with
  | some t => (s.send (.node t) (.pair (ownPair s))).mapTwin fun w => { w with pairRetryAt := s.aon }
  | none => s

/-- The package that asks after the twin on this package's behalf: the group head, or the live member with the lowest slot other than this package and
its twin (R487). -/
def witnessOf (s : State) : Option Nat :=
  let g := nodeGroup s.fab.node
  let ok (n : Nat) : Bool := s.nodes.contains n && n != s.fab.node && some n != s.twinNode
  match groupHead s g with
  | some h => if ok h then some h else (List.range 8).findSome? fun k => if ok (8 * g + k) then some (8 * g + k) else none
  | none => none

/-- The twin is suspected, and probed through the witness (R486, R487). -/
def suspect (s : State) : State :=
  if (s.twin.state == .paired || s.twin.state == .rejoining) && s.twin.probeAt.isNone && !s.twin.fenced then
    let s1 := s.mapTwin fun w => { w with suspected := true, probeAt := some s.aon }
    match witnessOf s1, s.twinNode with
    | some w, some t => s1.send (.node w) (.probe t)
    | _, _ => s1
  else s

/-- This package learns it is fenced: it starts no further lap and is to be reset warm (R479, R491). An UNPAIRED package has nothing to be fenced from. -/
def fencedSelf (s : State) : State :=
  if s.twin.fenced || s.twin.state == .unpaired then s
  else { s.mapTwin (fun w => { w with fenced := true }) with
    boot := { s.boot with resetWait := some 4 }
    mbx := { s.mbx with resetting := true } }

/-! ### Links -/

/-- FAB.LINK_EVENT on PF0 (R422). -/
def linkEvent (s : State) (l : Nat) : State :=
  notify s 0 mLINK_EVENT 0 (leBytes 1 l ++ leBytes 1 (s.link l).state.code ++ zeros 6 ++ leBytes 8 s.aon)

/-- The database after a change: records of nodes no path reaches leave it, conflicts and the plan's conditions are found again, and what waits on a node
that left it fails (R448, R450, R452, R467). -/
def refresh (s : State) : State :=
  let reach := (hopsFrom s s.fab.node).map (·.1)
  let keep := s.fab.db.filter fun e => reach.contains e.1.node
  let gone := dedup ((s.fab.db.filter fun e => !reach.contains e.1.node).map (·.1.node))
  let nodes := keep.map (·.1.node)
  let conflict := dedup (nodes.filter fun n => n == s.fab.node || decide (2 ≤ (nodes.filter (· == n)).length))
  let s1 := { s with fab := { s.fab with db := keep, conflict := conflict } }
  let s2 := { s1 with fab := { s1.fab with planWeak := !topologyOk s1 } }
  gone.foldl failNode (if gone.isEmpty then s2 else topoChanged s2)

/-- A link of this package came up or went away: its record is flooded and its routes are computed again (R448). -/
def linkChanged (s : State) : State := refresh (topoChanged (flood s))

/-- A link is DOWN (R434, R458): counted, announced, its flits kept until the ends have told each other what they accepted, its record flooded. With the
last twin link the twin is suspected (R486). -/
def linkDown (s : State) (l : Nat) : State :=
  let k := s.link l
  if k.state == .down then s
  else
    let up := k.state.isUp
    let s1 := s.setLink l { k with
      state := .down, twoLane := false, downs := min 255 (k.downs + 1), since := s.aon, retryAt := max 1 s.aon
      resync := if up then some s.aon else none }
    if up then
      let s2 := linkChanged ((linkEvent s1 l).send (.node k.peer) (.resyncAsk k.peerLink k.rxSeq))
      if planUse (s2.plan l) = 1 ∧ !twinLinkUp s2 then suspect s2 else s2
    else s1

/-- What this end sends at IDENTIFY (R435). -/
def ownIdent (s : State) (l : Nat) : Ident := ⟨s.fab.node, s.pkg.serial, s.grade, l, planUse (s.plan l), planPeer (s.plan l)⟩

/-- Whether a link may train: its Junction die is powered and the plan uses it (R434). -/
def linkUsable (s : State) (l : Nat) : Bool := decide (l < 36) && s.power.junctionOn && planUse (s.plan l) != 0

/-- A link begins training. -/
def startTraining (s : State) (l : Nat) : State := s.setLink l { s.link l with state := .training, since := s.aon, retryAt := 0 }

/-- LINK_SIGNAL_DETECT (R434). -/
def execLinkSignalDetect (link : Nat) (s : State) : Host.Outcome State Fault Refusal :=
  .next (if linkUsable s link && (s.link link).state == .down then startTraining s link else s)

/-- A link enters IDENTIFY and sends its identity. -/
def startIdentify (s : State) (l : Nat) (two : Bool) : State :=
  (s.setLink l { s.link l with state := .identify, twoLane := two, since := s.aon, retryAt := 0, changing := false }).emit (.ident l (ownIdent s l))

/-- TRAIN_MS as AON cycles (R474). -/
def trainTime (s : State) : Nat := msAon (s.cfg 0x0804)

/-- LINK_LOCK: FEC lock and alignment on all lanes, or on two, within TRAIN_MS (R434). -/
def execLinkLock (link : Nat) (lanes : LockLanes) (s : State) : Host.Outcome State Fault Refusal :=
  .next (
    if decide (link < 36) && (s.link link).state == .training && decide (s.aon < (s.link link).since + trainTime s) then
      startIdentify s link (lanes != .all)
    else s)

/-- TRAIN_TIMEOUT (R434). -/
def execTrainTimeout (link : Nat) (s : State) : Host.Outcome State Fault Refusal :=
  .next (
    let k := s.link link
    if decide (link < 36) && k.state == .training && decide (k.since + trainTime s ≤ s.aon) then
      s.setLink link { k with state := .down, downs := min 255 (k.downs + 1), since := s.aon, retryAt := s.aon + msAon 100, changing := false }
    else s)

/-- TRAIN_RETRY: 100 ms after a training timeout, at once after a loss (R434). -/
def execTrainRetry (link : Nat) (s : State) : Host.Outcome State Fault Refusal :=
  .next (
    let k := s.link link
    if linkUsable s link && k.state == .down && !k.miswired && k.retryAt != 0 && decide (k.retryAt ≤ s.aon) then startTraining s link else s)

/-- The checks of R435. -/
def identOk (s : State) (l : Nat) (i : Ident) : Bool :=
  i.node == planPeer (s.plan l) && i.use == planUse (s.plan l) && (planUse (s.plan l) != 1 || i.grade == s.grade)

/-- A flit of the replay buffer sent again under a new sequence number. -/
def resendFlit (s : State) (l : Nat) (f : Flit) : State := sendFlit s l f.vc f.hop f.first f.payload

/-- A link reaches UP or DEGRADED: sequence numbers start again, flits a retrain interrupted are sent again, the event is posted, the record flooded, and on
the first twin link PAIR is sent (R434, R448, R479). -/
def linkUp (s : State) (l : Nat) (i : Ident) : State :=
  let k := s.link l
  let first := planUse (s.plan l) = 1 ∧ !twinLinkUp s
  let left := if k.resync.isSome then [] else k.replay.map (·.2)
  let s1 := s.setLink l { k with
    state := if k.twoLane then .degraded else .up, miswired := false, peer := i.node, peerLink := i.link, since := s.aon
    txSeq := 0, rxSeq := 4095, lastAck := 4095, replay := [], replaysOf := 0, resync := none }
  let s2 := left.foldl (fun s f => resendFlit s l f) (linkChanged (linkEvent s1 l))
  if first then sendPair s2 else s2

/-- LINK_IDENTIFY (R434, R435): a link that fails a check goes DOWN MISWIRED, its identify retried after 1 s. -/
def execLinkIdentify (link : Nat) (ident : Ident) (s : State) : Host.Outcome State Fault Refusal :=
  .next (
    let k := s.link link
    if 36 ≤ link ∨ k.state ≠ .identify then s
    else if identOk s link ident then linkUp s link ident
    else s.setLink link { k with
      state := .down, miswired := true, downs := min 255 (k.downs + 1), since := s.aon, retryAt := s.aon + msAon 1000 })

/-- IDENTIFY_RETRY (R434). -/
def execIdentifyRetry (link : Nat) (s : State) : Host.Outcome State Fault Refusal :=
  .next (
    let k := s.link link
    if linkUsable s link && k.state == .down && k.miswired && decide (k.retryAt ≤ s.aon) then startIdentify s link k.twoLane else s)

/-- LINK_FAULT: loss of lock, no valid flit for 256 flit times, or a flit failing three replays (R434, R458). -/
def execLinkFault (link : Nat) (s : State) : Host.Outcome State Fault Refusal :=
  .next (if decide (link < 36) && (s.link link).state.isUp then linkDown s link else s)

/-- LANE_LOSS: one lane of an UP link loses lock while the others hold; the link trains again (R434). -/
def execLaneLoss (link lane : Nat) (s : State) : Host.Outcome State Fault Refusal :=
  .next (
    if decide (link < 36) && decide (lane < 4) && (s.link link).state == .up then
      let s1 := linkChanged (startTraining s link)
      if planUse (s1.plan link) = 1 ∧ !twinLinkUp s1 then suspect s1 else s1
    else s)

/-! ### Flits (R436) -/

/-- How far a sequence number lies beyond another, modulo 4,096. -/
def seqDist (a b : Nat) : Nat := (b + 4096 - a % 4096) % 4096

/-- The far end has received in order every flit up to one: those leave the replay buffer. -/
def ackFlits (k : Link) (ack : Nat) : Link :=
  { k with replay := k.replay.filter fun e => decide (2048 ≤ seqDist e.1 ack) }

/-- A NAK of a flit: it and every later flit are sent again in order. The fourth NAK of one flit says that it failed three replays, and the link is DOWN
(R434, R436). -/
def nakFlit (s : State) (l seq : Nat) : State :=
  let k := s.link l
  let n := if k.replaysOf / 8 = seq then k.replaysOf % 8 + 1 else 1
  let k1 := { ackFlits k ((seq + 4095) % 4096) with replays := min 65535 (k.replays + 1), replaysOf := seq * 8 + n }
  let s1 := s.setLink l k1
  if 4 ≤ n then linkDown s1 l
  else k1.replay.foldl (fun s e => s.emit (.flit l { e.2 with ack := k1.rxSeq })) s1

/-- FLIT_RECEIVE: a flit whose CRC fails, as one that FEC could not correct does, is NAKed and not passed on; a good one in order is taken and acknowledged
at least every 32 flits (R436). What a flit acknowledges is taken from any good flit; an IDLE flit carries nothing else (R439). -/
def execFlitReceive (link : Nat) (f : Flit) (s : State) : Host.Outcome State Fault Refusal :=
  .next (
    let k := s.link link
    if 36 ≤ link ∨ !k.state.isUp then s
    else if !f.crcOk || f.fecBad then
      (s.setLink link { k with
        fecUncorr := min 65535 (k.fecUncorr + b2n f.fecBad), replays := min 65535 (k.replays + 1), lastAck := k.rxSeq }).emit (.flitCtl link k.rxSeq true)
    else
      let s1 := s.setLink link (ackFlits k f.ack)
      let s2 := if f.nak then nakFlit s1 link ((f.ack + 1) % 4096) else s1
      let k2 := s2.link link
      if f.vc = 7 ∨ !k2.state.isUp ∨ f.seq ≠ (k2.rxSeq + 1) % 4096 then s2
      else
        let s3 := s2.setLink link { k2 with rxSeq := f.seq }
        if 32 ≤ seqDist k2.lastAck f.seq then (s3.setLink link { k2 with rxSeq := f.seq, lastAck := f.seq }).emit (.flitCtl link f.seq false) else s3)

/-- FLIT_NAK (R436). -/
def execFlitNak (link seq : Nat) (s : State) : Host.Outcome State Fault Refusal :=
  .next (if decide (link < 36) && (s.link link).state.isUp && decide (seq < 4096) then nakFlit s link seq else s)

/-! ### A failed link's flits (R458) -/

/-- The link on which flits of a failed link leave again: another to the same peer, else a backup next hop toward it. -/
def backupLink (s : State) (peer : Nat) : Option Nat :=
  match (ownLinks s).find? fun p => p.2 == peer with
  | some p => some p.1
  | none => (nextHops s peer).head?

/-- LINK_RESYNC: the far end names the last flit it accepted; every later flit is sent again, in order (R458). -/
def execLinkResync (link lastAccepted : Nat) (s : State) : Host.Outcome State Fault Refusal :=
  .next (
    let k := s.link link
    match k.resync with
    | none => s
    | some t =>
      if s.aon ≥ t + usAon 3 then s
      else
        let left := (ackFlits k lastAccepted).replay.map (·.2)
        let s1 := s.setLink link { k with resync := none, replay := [] }
        match backupLink s1 k.peer with
        | some l => left.foldl (fun s f => resendFlit s l f) s1
        | none => s1)

/-- A PUT or RSIG of this package that began in a lost flit waits for its resend (R458, R465). -/
def lostFlit (s : State) (f : Flit) : State :=
  let h := f.payload
  let core := ble h 24 2
  let chan := ble h 26 1
  if f.first != 0 || ble h 2 1 != s.fab.node || (ble h 0 1 != pkPUT && ble h 0 1 != pkRSIG) then s
  else
    let x := s.slot core (chan / 32)
    match x.started.find? fun t => ofChan (chan / 32) chan t && msgSeq t == some (ble h 12 4) with
    | some t => s.setSlot core (chan / 32) (x.modify t.serial fun u => { u with work := msgWait s.aon u.work })
    | none => s

/-- RESYNC_TIMEOUT: no answer within 3 µs; nothing is resent (R458). -/
def execResyncTimeout (link : Nat) (s : State) : Host.Outcome State Fault Refusal :=
  .next (
    let k := s.link link
    match k.resync with
    | none => s
    | some t =>
      if s.aon < t + usAon 3 then s
      else (k.replay.map (·.2)).foldl lostFlit (s.setLink link { k with resync := none, replay := [] }))

/-! ### The link-state database (R448) -/

/-- Two records of one package, seen from their routes. -/
def sameTopo (a b : LsRecord) : Bool := a.links == b.links && a.serial == b.serial

/-- LINK_STATE_RECORD: the record with the highest sequence number of each package is kept; it carries roles with their epochs, and this package finds itself
fenced where a role it holds stands under a higher epoch (R448, R453, R491). -/
def execLinkStateRecord (r : LsRecord) (s : State) : Host.Outcome State Fault Refusal :=
  .next (
    if 256 ≤ r.node ∨ (r.node = s.fab.node ∧ r.serial = s.pkg.serial) then s
    else
      let old := (s.fab.db.find? fun e => e.1.node == r.node && e.1.serial == r.serial).map (·.1)
      if (match old with | some o => decide (r.seq ≤ o.seq) | none => false) then s
      else
        let lost := r.roles.any fun e => s.hasRole e.1 && decide (s.roleEpoch e.1 < e.2)
        let rest := s.fab.db.filter fun e => !(e.1.node == r.node && e.1.serial == r.serial)
        let s1 := { s with fab := { s.fab with db := rest ++ [(r, s.aon)] } }
        let s2 := r.roles.foldl (fun s e => setRole s e.1 r.node e.2) s1
        let same := match old with | some o => sameTopo o r | none => false
        let s3 := if same then s2 else refresh (topoChanged s2)
        if lost then fencedSelf s3 else s3)

/-- RECORD_REFLOOD: at least every 10 ms, while some link carries traffic (R448). -/
def execRecordReflood (s : State) : Host.Outcome State Fault Refusal :=
  .next (if decide (s.fab.refloodAt + msAon 10 ≤ s.aon) && !(ownLinks s).isEmpty then flood s else s)

/-- RECORD_AGE_OUT: a record not refreshed for 50 ms leaves the database, and its node with its last record (R448). -/
def execRecordAgeOut (node : Nat) (s : State) : Host.Outcome State Fault Refusal :=
  .next (
    let old (e : LsRecord × Nat) : Bool := e.1.node == node && decide (e.2 + msAon 50 ≤ s.aon)
    if s.fab.db.any old then
      let s1 := refresh (topoChanged { s with fab := { s.fab with db := s.fab.db.filter fun e => !old e } })
      if s1.inDb node then s1 else failNode s1 node
    else s)

/-! ### Packets on their way (R444, R445, R450, R454, R455) -/

/-- A packet dropped with sub-cause UNREACHABLE: a request is answered so, any other packet is not. -/
def dropUnreachable (s : State) (p : Packet) : State :=
  let answer (type : Nat) : State := sendPacket s ovCtx (mkPacket s type p.src p.part p.pseq (rspArgs scUNREACHABLE 0) [])
  if p.src = s.fab.node then s
  else if p.type = pkLOAD then answer pkLOAD_DATA
  else if p.type = pkSTORE ∨ p.type = pkFW then answer pkDONE
  else if p.type = pkATOMIC then answer pkATOMIC_DATA
  else s

/-- A packet sent on toward its destination; NM ends on entering the group INTER (R455). -/
def routeOn (s : State) (p : Packet) : State :=
  let p := if p.nm && p.inter == nodeGroup s.fab.node then { p with nm := false } else p
  if 8 ≤ p.hops then { s with fab := { s.fab with hopDrop := min 65535 (s.fab.hopDrop + 1) } }
  else if s.fab.conflict.contains p.dst ∨ (chooseHop s (routeTarget s p) p.src (flowKey p)).isNone then dropUnreachable s p
  else transmit s p

/-- PACKET_ROUTE: a packet not at its destination goes on; a packet for a role this package does not hold is forwarded once from its own table (R445, R454,
R455). A packet of a fenced node is dropped (R490). -/
def execPacketRoute (p : Packet) (s : State) : Host.Outcome State Fault Refusal :=
  .next (
    if !takesFrom s p.src then s
    else if p.dst ≠ s.fab.node then routeOn s p
    else if !p.role || s.hasRole p.dstRole then s
    else if p.fwd then dropUnreachable s p
    else match s.roleNode p.dstRole with
      | none => dropUnreachable s p
      | some n =>
        routeOn { s with fab := { s.fab with roleFwd := min 65535 (s.fab.roleFwd + 1) } } { p with dst := n, fwd := true })

/-- CTL codes of messages that have no row of their own (log 41): the end of a request ordered at its home, and a probed package's reply. -/
def ctlEnd : Nat := 0xE0
def ctlProbeReply : Nat := 0xE1

/-- What a CTL message without a row of its own does here. -/
def ctlBody (s : State) (src code : Nat) (l : List Byte) : State :=
  if code = ctlEnd then
    match reqIdx s (ble l 4 4) with
    | some i => if (s.req i).home = ble l 0 2 then orderEnd s (ble l 0 2) (ble l 4 4) (ble l 8 2) (ble l 12 4) else s
    | none => s
  else if code = ctlProbeReply then
    let (mine, rest) := s.twin.witness.partition fun w => w.2.1 == src
    (mine.filter fun w => decide (s.aon ≤ w.2.2 + usAon (s.cfg 0x0903) / 2)).foldl (fun s w => s.send (.node w.1) (.probeAnswer true))
      (s.mapTwin fun t => { t with witness := rest })
  else s

/-! ### Firmware messages without a row of their own (R446, R482; log 42) -/

/-- A ledger entry as the twin sent it. -/
def ledgerParse (b : List Byte) : Req :=
  { Req.reset with
    reuse := ble b 0 2, mirror := true, ctx := ble b 5 1, tenant := ble b 6 2, session := ble b 8 4, sessIdx := ble b 10 2, generation := ble b 12 4
    state := match ble b 4 1 with | 1 => .queued | 2 => .prefill | 3 => .decode | 4 => .completed | 5 => .ended | _ => .free
    adapter := ble b 16 2, aslot := ble b 18 1
    summaryResumed := nbits (ble b 19 1) 0 0 = 1, kvRecomputed := nbits (ble b 19 1) 1 1 = 1, prefixShared := nbits (ble b 19 1) 2 2 = 1
    stoppedByToken := nbits (ble b 19 1) 3 3 = 1, kvFmtChanged := nbits (ble b 19 1) 4 4 = 1
    maxNew := ble b 20 4, prompt := ble b 24 4, delivered := ble b 28 4, lap := ble b 32 8, seed := BitVec.ofNat 64 (ble b 40 8)
    aonSubmit := ble b 48 8, aonAdmit := ble b 56 8, aonFirst := ble b 64 8, aonEnd := ble b 72 8, wall := BitVec.ofNat 64 (ble b 80 8)
    drops := ble b 88 4, draftAcc := ble b 92 4, draftRej := ble b 96 4, laps := ble b 100 4
    ePrefill := ble b 104 8, eDecode := ble b 112 8, eSpec := ble b 120 8, eResid := signed 64 (ble b 128 8)
    status := ble b 136 2, stop := (List.range (min 8 (ble b 138 1))).map fun k => ble b (144 + 4 * k) 4, prio := ble b 139 1, fault := ble b 140 4
    digest := BitVec.ofNat 256 (beNat (bsub b 176 32)), done := ble b 260 4, pending := ble b 264 4, home := ble b 272 2
    tokens := (List.range (ble b 256 4)).map fun k => ble b (280 + 4 * k) 4
    drafts := (List.range (ble b 268 4)).map fun k => ble b (280 + 4 * (ble b 256 4 + k)) 4 }

/-- The twin's copy of a ledger entry: kept where no request of this package holds the index; its partition is the context's. -/
def takeLedger (s : State) (b : List Byte) : State :=
  let i := ble b 2 2
  let r := s.req i
  if r.state != .free && !r.mirror then s
  else
    let x := ledgerParse b
    s.setReq i { x with part := (s.ctx x.ctx).part, fn := (s.part (s.ctx x.ctx).part).fn, unposted := r.unposted }

/-- A tenant entry as the twin sent it. -/
def takeTenant (s : State) (i : Nat) (b : List Byte) : State :=
  if 4096 ≤ i then s
  else s.setTenant i { refill := ble b 0 4, winUs := ble b 4 4, cap := ble b 8 8, balance := signed 64 (ble b 16 8), next := ble b 24 8 }

/-- A session entry as the twin sent it: reuse, context, partition, tenant, flags, state, tokens. -/
def takeSession (s : State) (i : Nat) (b : List Byte) : State :=
  let x := s.sess i
  if 32768 ≤ i || (x.isOpen && x.home == s.fab.ownRole && s.twin.state != .rejoining) then s
  else s.setSess i { Session.reset with
    isOpen := nbits (ble b 8 1) 0 0 = 1, shareOk := nbits (ble b 8 1) 1 1 = 1, oneShot := nbits (ble b 8 1) 2 2 = 1
    summaryResumed := nbits (ble b 8 1) 3 3 = 1, recomputed := nbits (ble b 8 1) 4 4 = 1
    reuse := ble b 0 2, ctx := ble b 2 1, part := ble b 3 1, tenant := ble b 4 2, home := ble b 6 2
    state := match ble b 9 1 with
      | 1 => .live | 2 => .held | 3 => .parking | 4 => .parked | 5 => .resuming | 6 => .dropped | 7 => .recomputing | _ => .absent
    adapter := ble b 10 2, generation := ble b 12 4, committed := ble b 16 4, heldAt := ble b 24 8
    tokens := (List.range (ble b 20 4)).map fun k => ble b (32 + 4 * k) 4 }

/-- The twin's modelled energy of a request not yet signed (R482, R497): kept with the AON counts of its first and last receipt. A new span of the twin's
begins where its share number rises. -/
def takeEnergy (s : State) (b : List Byte) : State :=
  let home := ble b 0 2
  let handle := ble b 4 4
  let old := s.energy.mirrored.find? fun a => a.home == home && a.handle == handle
  let first := match old with | some a => if a.seq = ble b 44 4 then a.spanAt else s.aon | none => s.aon
  let lapNo (v : Nat) : Option Nat := if v = 2 ^ 64 - 1 then none else some v
  let a : Acct := {
    home := home, handle := handle, tenant := ble b 2 2, part := ble b 8 1, ctx := ble b 9 1, gen := 0, acts := [], lapUj := 0, prefillLap := false
    ePrefill := ble b 16 8, eDecode := ble b 24 8, eSpec := ble b 32 8, eResid := 0, spanAt := first
    lapFirst := lapNo (ble b 48 8), lapLast := lapNo (ble b 56 8)
    positions := ble b 40 4, seq := ble b 44 4, prevHash := beNat (bsub b 64 32), lapA := 0, lapN := 0, lapOpen := false, finalAt := some s.aon
    closed := false, late := false }
  { s with energy := { s.energy with mirrored := (s.energy.mirrored.filter fun x => !(x.home == home && x.handle == handle)) ++ [a] } }

/-- A chain of a request as a signed share leaves it: the last share hash, whether it is FINAL, and the totals of its shares but LATE ones (R520, R523). -/
def noteShare (s : State) (m : ShareMsg) : State :=
  let mine (c : Chain) : Bool := c.handle == m.handle && c.subject == m.subject
  let c := (s.energy.chains.find? mine).getD ⟨m.handle, m.subject, 0, false, 0, 0, 0, 0⟩
  let n := if m.late then { c with lastHash := m.hash }
    else ⟨m.handle, m.subject, m.hash, c.final || m.final, c.ePrefill + m.ePrefill, c.eDecode + m.eDecode, c.eSpec + m.eSpec, c.eResid + m.eResid⟩
  let known := s.energy.chains.map fun c => if mine c then n else c
  { s with energy := { s.energy with chains := if s.energy.chains.any mine then known else s.energy.chains ++ [n] } }

/-- A share report as the twin sends it on. -/
def parseShare (b : List Byte) : ShareMsg :=
  ⟨ble b 0 4, ble b 8 8, ble b 4 4, nbits (ble b 16 1) 0 0 = 1, nbits (ble b 16 1) 3 3 = 1, beNat (bsub b 24 32), ble b 56 8, ble b 64 8, ble b 72 8,
    signed 64 (ble b 80 8)⟩

/-- A firmware message's effect: ARGS give its code and a number. -/
def fwBody (s : State) (p : Packet) : State :=
  let n := ble p.args 4 8
  let twin := s.twinNode == some p.src
  match ble p.args 0 2 with
  | 1 => if twin then takeLedger s p.data else s
  | 2 => if twin then takeTenant s n p.data else s
  | 3 => freeSession s n
  | 4 => parkFree s n
  | 5 => freeRecord s n
  | 6 => if twin then takeSession s n p.data else s
  | 7 => if twin then takeEnergy s p.data else s
  | 8 => if twin then noteShare s (parseShare p.data) else s
  | _ => s

/-- FW_PACKET: a firmware message arrives on REQ or BLK and is answered DONE (R440, R446). Messages with rows of their own have their effect in those rows. -/
def execFwPacket (p : Packet) (s : State) : Host.Outcome State Fault Refusal :=
  .next (settle (
    if p.type != pkFW || p.dst != s.fab.node || !takesFrom s p.src || (p.role && !s.hasRole p.dstRole) then s
    else sendPacket (fwBody s p) ovCtx (mkPacket s pkDONE p.src p.part p.pseq (rspArgs scOK p.data.length) [])))

end Sys2Proof.Machine
end

