-- ==== Sys2Proof/Machine/Twin.lean ====
section
/-!
DEFINITION. Twin pairs (R477 to R509): pairing, heartbeats and probes, failover, the replay of a lost side's laps, adoption, rejoin, the return of a
role, and the lock-step comparator.
-/

namespace Sys2Proof.Machine

/-! ### Pairing (R478, R479) -/

/-- Whether two roles are those of a pair: they differ in bit 0 alone (R478). -/
def rolesPair (a b : Nat) : Bool := a < 1024 && b < 1024 && a != 0x3FF && b != 0x3FF && a / 2 == b / 2 && a != b

/-- The other role of a pair. -/
def otherRole (r : Nat) : Nat := if r % 2 = 0 then r + 1 else r - 1

/-- The pair forms: mirroring begins, and silence counts from now (R479, R486). -/
def pairTo (s : State) (st : PairState) : State :=
  s.mapTwin fun t => { t with
    state := st, pairErr := false, hbSeenAt := s.aon, suspected := false, probeAt := none
    serial := match s.twinNode.bind s.record with | some r => r.serial | none => t.serial }

/-- The twin's node leaves the fence list. -/
def unfence (s : State) (n : Nat) : State := s.mapTwin fun t => { t with fence := t.fence.filter (· != n) }

/-- The models, partitions and sealed generations this package holds, as JOIN carries them (R500). -/
def ownJoin (s : State) : JoinInfo where
  node := s.fab.node
  parts := tkeys (s.parts.filter fun p => p.2.state != .free)
  ctxs := (s.srv.ctxs.filter fun c => c.2.state != .none).map fun c => (c.1, c.2.model)
  gens := s.parts.flatMap fun p => (p.2.gens.filter fun g => g.state == .sealedGen || g.state == .staged || g.state == .live).map fun g =>
    (p.1, g.model, g.number, g.digests.map BitVec.toNat)

/-- PAIR: exchanged, it may form the pair, find an error, or begin a rejoin (R479). The answer carries the state before the exchange. -/
def execPair (info : PairInfo) (s : State) : Host.Outcome State Fault Refusal :=
  .next (
    if s.twinNode ≠ some info.node then s
    else
      let equal := info.values == pairValues s
      let answer (s1 : State) : State := s1.send (.node info.node) (.pair (ownPair s))
      let err (s1 : State) : State := s1.mapTwin fun t => { t with pairErr := true, pairRetryAt := if s.twin.pairErr then t.pairRetryAt else s.aon }
      match s.twin.state with
      | .unpaired =>
        if !rolesPair s.fab.ownRole info.role || !equal then err s
        else if info.state = 0 then answer (pairTo s .paired)
        else if info.state = 2 then (pairTo s .rejoining).send (.node info.node) .joinReq
        else s
      | .paired => if equal then s.mapTwin fun t => { t with pairErr := false } else err s
      | .single =>
        let s1 := s.mapTwin fun t => { t with pairErr := if equal then false else t.pairErr }
        if info.state = 0 then answer (unfence s1 info.node) else s1
      | .rejoining => if equal then s.mapTwin fun t => { t with pairErr := false } else s)

/-- PAIR_RETRY: every 1 s while PAIR_ERR holds (R479). -/
def execPairRetry (s : State) : Host.Outcome State Fault Refusal :=
  .next (if s.twin.pairErr && decide (s.twin.pairRetryAt + msAon 1000 ≤ s.aon) then sendPair s else s)

/-! ### Heartbeats and probes (R486 to R488) -/

/-- The twin links that carry traffic. -/
def twinLinks (s : State) : List Nat := ((ownLinks s).filter fun p => planUse (s.plan p.1) = 1).map (·.1)

/-- HEARTBEAT_SEND: every HB_US on every twin link that is up, unless C5 is halted (R606). -/
def execHeartbeatSend (s : State) : Host.Outcome State Fault Refusal :=
  .next (
    match s.twinNode with
    | some t =>
      if s.aon < s.twin.hbSentAt + usAon (s.cfg 0x0901) ∨ (twinLinks s).isEmpty ∨ s.captHalted 5 then s
      else (twinLinks s).foldl (fun s _ => s.send (.node t) .heartbeat) (s.mapTwin fun w => { w with hbSentAt := s.aon })
    | none => s)

/-- Token records a package held back while ISOLATED: their mirrors are sent again, and acknowledged again. -/
def resumePosting (s : State) : State :=
  match s.twinNode with
  | some t => s.srv.ledger.foldl (fun s e =>
      if e.2.mirror then s
      else if e.2.unposted.isEmpty then postDone s e.1
      else e.2.unposted.foldl (fun s u =>
        s.send (.node t) (.sealMirror (e.2.handle e.1) u.1 ((List.range (u.2.length / 32)).map fun j => ble u.2 (32 * j) 4))) s) s
  | none => s

/-- HEARTBEAT: suspicion and ISOLATED end (R486, R488). -/
def execHeartbeat (link : Nat) (s : State) : Host.Outcome State Fault Refusal :=
  .next (settle (
    if !(twinLinks s).contains link || !takesFrom s (s.link link).peer then s
    else
      let s1 := s.mapTwin fun t => { t with hbSeenAt := s.aon, suspected := false, probeAt := none, isolated := false }
      if s.twin.isolated then resumePosting s1 else s1))

/-- HB_MISS_EXPIRY: no heartbeat for HB_MISS_US; not while RESTING (R539). -/
def execHbMissExpiry (s : State) : Host.Outcome State Fault Refusal :=
  .next (if decide (s.twin.hbSeenAt + usAon (s.cfg 0x0902) ≤ s.aon) && !s.power.resting then suspect s else s)

/-- PROBE: the probed package replies; a witness forwards the probe and waits (R487). -/
def execProbe (src target : Nat) (s : State) : Host.Outcome State Fault Refusal :=
  .next (
    if !takesFrom s src then s
    else if target = s.fab.node then s.send (.node src) .probeReply
    else (s.mapTwin fun t => { t with witness := t.witness ++ [(src, target, s.aon)] }).send (.node target) (.probe target))

/-- PROBE_REPLY_TIMEOUT: the witness answers DEAD for the probes not replied to within PROBE_US / 2. -/
def execProbeReplyTimeout (s : State) : Host.Outcome State Fault Refusal :=
  .next (
    let late (w : Nat × Nat × Nat) : Bool := decide (w.2.2 + usAon (s.cfg 0x0903) / 2 ≤ s.aon)
    (s.twin.witness.filter late).foldl (fun s w => s.send (.node w.1) (.probeAnswer false))
      (s.mapTwin fun t => { t with witness := t.witness.filter fun w => !late w }))

/-- PROBE_NO_ANSWER: no live group member answered within PROBE_US (R488). -/
def execProbeNoAnswer (s : State) : Host.Outcome State Fault Refusal :=
  .next (
    match s.twin.probeAt with
    | some t => if t + usAon (s.cfg 0x0903) ≤ s.aon then s.mapTwin fun w => { w with isolated := true, probeAt := none } else s
    | none => s)

/-! ### A role moves (R490) -/

/-- FAB.FAILOVER on PF0 (R422). -/
def failoverEvent (s : State) (role src dst : Nat) : State :=
  notify s 0 mFAILOVER 0 (leBytes 2 role ++ leBytes 1 src ++ leBytes 1 dst ++ zeros 4 ++ leBytes 8 s.aon)

/-- Starter firmware writes the new node into every remote channel that named the old one; a channel so changed starts its SEQ again (R454, R466). -/
def moveChannels (s : State) (old new : Nat) : State :=
  { s with cores := s.cores.map fun e =>
      let hit := tkeys (e.2.chan.filter fun c => chEn c.2 && chRemote c.2 && chNode c.2 == old)
      (e.1, if hit.isEmpty then e.2 else { e.2 with
        chan := e.2.chan.map fun c => if hit.contains c.1 then (c.1, setBits c.2 9 2 new) else c
        chanSeq := e.2.chanSeq.map fun c => if hit.contains c.1 then (c.1, 0) else c
        restart := dedup (e.2.restart ++ hit) }) }

/-- The node is fenced: its packets are dropped, and what waits on it fails (R490). -/
def fenceNode (s : State) (n : Nat) : State :=
  failNode (s.mapTwin fun t => { t with fence := if t.fence.contains n then t.fence else t.fence ++ [n] }) n

/-- The verdicts kept for requests of a role are sent to its new holder (R484). -/
def resendVerdicts (s : State) (role : Nat) : State :=
  s.srv.heats.foldl (fun s e => e.2.keptVerdicts.foldl (fun s v =>
    if e.2.desc.rows.any fun r => r.handle == v.handle && r.home == role then s.send (.role role) (.verdict v) else s) s) s

/-- A role is held by another package from now on, and the old one is fenced (R484, R490). -/
def roleMoved (s : State) (role old new epoch : Nat) : State :=
  let s1 := setRole s role new epoch
  resendVerdicts (moveChannels (failoverEvent (fenceNode s1 old) role old new) old new) role

/-- ROLE_MOVE: a package that is itself the old node is fenced (R490, R491). A move under no higher epoch than the table's is old news. -/
def execRoleMove (role oldNode newNode epoch : Nat) (s : State) : Host.Outcome State Fault Refusal :=
  .next (settle (
    if oldNode = s.fab.node then fencedSelf s
    else if !takesFrom s newNode || (decide (epoch ≤ s.roleEpoch role) && (s.roleNode role).isSome) then s
    else roleMoved s role oldNode newNode epoch))

/-! ### The twin is lost (R489, R493 to R497, R507) -/

/-- The twin's mirror lists lose MIRROR and are this package's own (R494). -/
def adoptMap (s : State) (k : Nat) : State :=
  let v := s.mirror k
  if !v.present then s
  else
    let own := v.lists.map fun (l : KvList) => { l with mirror := false, pages := l.pages.map fun (g : Page) => { g with mirror := false } }
    let m := s.map k
    let new := if m.present then { m with lists := m.lists ++ own.filter fun l => !(m.lists.any fun x => x.layer == l.layer && x.head == l.head) }
      else { v with lists := own, lapOn := m.lapOn, lap := m.lap, lastReq := m.lastReq, record := m.record, poolFrames := m.poolFrames, recLen := m.recLen,
                    recFrames := m.recFrames, sealedLap := m.sealedLap, sealedA := m.sealedA }
    let s1 := s.setMap k new
    { s1 with srv := { s1.srv with mirrors := tdel s1.srv.mirrors k }, twin := { s1.twin with adopted := s1.twin.adopted ++ [k] } }

/-- The twin's requests are homed here; their events go to this package's function (R496). A request whose lap is still in flight waits for its seal. -/
def adoptReq (s : State) (i : Nat) : State :=
  let r := s.req i
  let h := handleOf i r.reuse
  let lap (r : Req) : Req := match heatOf s r.home h with
    | some (id, x, row) => { r with heat := id, inLap := true, curLap := x.desc.lap, lapN := row.positions, lapDone := [], verdicts := [] }
    | none => { r with inLap := false }
  let r1 := { (if r.state = .prefill ∨ r.state = .decode then lap r else r) with mirror := false, adopted := true, fn := (s.part r.part).fn }
  let s1 := s.setReq i r1
  if r.state = .queued then
    { s1 with srv := { s1.srv with queues := tput s1.srv.queues r.tenant ((tget [] s1.srv.queues r.tenant) ++ [i]) } }
  else if r.state = .prefill ∨ r.state = .decode then
    (jobNodes s1 r.ctx).foldl (fun s n => s.send (.node n) (.sealQuery h)) s1
  else s1

/-- The tokens of each adopted request's last mirrored seal are posted again (R496). -/
def repostTokens (s : State) (i : Nat) : State :=
  let r := s.req i
  postDone (postTokens (s.setReq i { r with unposted := [] }) r.fn (r.unposted.flatMap (·.2))) i

/-- The heats the lost role formed go on here; each lock-step heat is counted and goes on without comparison (R507). -/
def takeHeats (s : State) (lost : List Nat) : State :=
  s.srv.heats.foldl (fun s e =>
    if !e.2.live then s
    else
      let h := s.heat e.1
      let s1 := s.setHeat e.1 { h with mine := h.mine || h.desc.rows.any (fun r => lost.contains r.home), lockstep := false, digests := [] }
      if h.lockstep then s1.mapTwin fun t => { t with lsUnchecked := t.lsUnchecked + 1 } else s1) s

/-- Each heat with a lap in flight: where the lost twin's HANDOFF_OK for it is held, its part is reported for it; otherwise the lap is replayed (R493). -/
def resumeLaps (s : State) (lost : List Nat) : State :=
  s.srv.heats.foldl (fun s e =>
    let h := s.heat e.1
    if !h.live then s
    else if s.twin.handoff.contains (e.1, h.desc.lap) then
      (dedup (h.desc.rows.map (·.home))).foldl (fun s home => lost.foldl (fun s r => s.send (.role home) (.lapDone r e.1 h.desc.lap h.epoch)) s) s
    else orderReplay s e.1) s

/-- The roles the twin serves: those the table names it for; in a pair, the pair's other role. -/
def twinRoles (s : State) (t : Nat) : List Nat :=
  let l := tkeys (s.fab.roles.filter fun e => e.2.1 == t + 1)
  if l.isEmpty && s.twin.state == .paired && s.fab.ownRole != 0x3FF then [otherRole s.fab.ownRole] else l

/-- A lost role is taken with its epoch advanced by 1, and the move broadcast (R489). -/
def takeRole (s : State) (r old : Nat) : State :=
  let e := s.roleEpoch r + 1
  (roleMoved s r old s.fab.node e).send .all (.roleMove r old s.fab.node e)

/-- C5 declares its twin lost (R489): the role taken, the node fenced, the move broadcast, the directories and the line cache cleared (R204, R473), FAB.FAILOVER
posted; then the lost side's laps, lists and requests are taken over (R493 to R497). An ISOLATED package takes no role (R488). -/
def declareLost (s : State) : State :=
  match s.twinNode with
  | none => s
  | some t =>
    if s.twin.isolated || s.twin.fenced || !(s.twin.state == .paired || s.twin.state == .rejoining) then s
    else
      let lost := twinRoles s t
      let s1 := s.mapTwin fun w => { w with
        state := .single, failovers := w.failovers + 1, suspected := false, probeAt := none, copying := false, returning := none, joinWait := none, retryAt := none }
      let s2 := dropLines (clearDirs (lost.foldl (fun s r => takeRole s r t) (fenceNode s1 t)))
      let s3 := flood s2
      let s4 := (tkeys s3.srv.mirrors).foldl adoptMap s3
      let reqs := tkeys (s4.srv.ledger.filter fun e => e.2.mirror && e.2.state != .free)
      let s5 := resumeLaps (takeHeats (reqs.foldl adoptReq s4) lost) lost
      (reqs.foldl repostTokens s5).mapTwin fun w => { w with handoff := [] }

/-- TWIN_YIELD: the twin is declared lost without a probe (R486, R489). -/
def execTwinYield (src : Nat) (s : State) : Host.Outcome State Fault Refusal :=
  .next (settle (if s.twinNode = some src then declareLost s else s))

/-- PROBE_ANSWER: ALIVE causes no failover; DEAD declares the twin lost (R487, R489). -/
def execProbeAnswer (src : Nat) (alive : Bool) (s : State) : Host.Outcome State Fault Refusal :=
  .next (settle (
    if s.twin.probeAt.isNone || !takesFrom s src then s
    else
      let s1 := s.mapTwin fun t => { t with probeAt := none }
      if alive then s1 else declareLost s1))

/-- HANDOFF_OK: the twin's part of a lap is past (R485, R493). -/
def execHandoffOk (heat lap : Nat) (s : State) : Host.Outcome State Fault Refusal :=
  .next (
    let s := noteHeatLap s heat lap
    if s.twin.state == .paired && !s.twin.handoff.contains (heat, lap) then s.mapTwin fun t => { t with handoff := t.handoff ++ [(heat, lap)] } else s)

/-- LAP_REPLAY (R494). -/
def execLapReplay (heat lap epoch : Nat) (s : State) : Host.Outcome State Fault Refusal :=
  .next (settle (if (s.heat heat).desc.lap = lap then replayLap (noteHeatLap s heat lap) heat epoch else noteHeatLap s heat lap))

/-! ### Seals and the twin (R483, R496) -/

/-- Token records as the survivor posts them for the twin's seal: position after position up to the committed length. -/
def mirrorRecords (s : State) (i lap : Nat) (tokens : List Nat) : List Byte :=
  let r := s.req i
  let first := (s.sess r.sessIdx).committed + 1 - tokens.length
  ((List.range tokens.length).zip tokens).flatMap fun p => tokenRecord p.2 (first + p.1) lap r.generation 0xFFFF false (r.handle i)

/-- SEAL_MIRROR: the twin's seal is kept and acknowledged (R483). -/
def execSealMirror (handle lap : Nat) (tokens : List Nat) (s : State) : Host.Outcome State Fault Refusal :=
  .next (
    match s.twinNode with
    | none => s
    | some t =>
      if !takesFrom s t then s
      else
        let i := handle / 65536
        let r := s.req i
        let ack (s : State) : State := s.send (.node t) (.sealMirrorAck handle lap)
        if !r.mirror ∨ r.reuse ≠ handle % 65536 then s
        else if lap ≤ r.lap ∧ !r.unposted.isEmpty then ack s
        else ack (s.setReq i { r with
          lap := lap, delivered := r.delivered + tokens.length, tokens := r.tokens ++ tokens, unposted := [(lap, mirrorRecords s i lap tokens)]
          pending := tokens.getLast?.getD r.pending }))

/-- SEAL_MIRROR_ACK: the seal's tokens are posted (R483). -/
def execSealMirrorAck (handle lap : Nat) (s : State) : Host.Outcome State Fault Refusal :=
  .next (settle (match reqIdx s handle with | some i => postWaiting s i lap | none => s))

/-- SEAL_QUERY: a holder answers with the last lap whose outcome it applied, and its A (R496). -/
def execSealQuery (src handle : Nat) (s : State) : Host.Outcome State Fault Refusal :=
  .next (
    if !takesFrom s src then s
    else match s.srv.maps.find? fun e => e.2.lastReq == handle && s.roleNode e.2.home == some src with
      | some e => s.send (.node src) (.sealReply handle e.2.sealedLap e.2.sealedA)
      | none => s.send (.node src) (.sealReply handle 0 0))

/-- A verdict of a lap this package holds for a request: its own kept one, or one the verifier sent. -/
def heldVerdict (s : State) (r : Req) (handle lap : Nat) : Option Verdict :=
  match (r.verdicts.map (·.2)).find? fun v => v.lap == lap with
  | some v => some v
  | none => s.srv.heats.findSome? fun e => e.2.keptVerdicts.find? fun v => v.handle == handle && v.lap == lap

/-- SEAL_QUERY_REPLY: where a holder applied a later lap than the last mirrored seal, that lap's seal is completed from its verdict (R496). -/
def execSealQueryReply (src handle lap a : Nat) (s : State) : Host.Outcome State Fault Refusal :=
  .next (settle (
    match reqIdx s handle with
    | none => s
    | some i =>
      let r := s.req i
      if !takesFrom s src || !r.adopted || !r.isOpen || decide (lap ≤ r.lap) then s
      else
        let s1 := s.setReq i { r with sealWait := some (lap, a), inLap := if r.curLap = lap then false else r.inLap }
        match heldVerdict s r handle lap with
        | some v => completeSeal s1 i v
        | none => s1))

/-! ### Rejoin (R500 to R502) -/

/-- Whether the rejoiner holds what the survivor holds: the same partitions, contexts and models, and SEALED every generation that is LIVE, DRAINING or STAGED
here, with equal digests (R500). -/
def joinOk (s : State) (i : JoinInfo) : Bool :=
  let own := ownJoin s
  own.parts == i.parts && own.ctxs == i.ctxs &&
  s.parts.all fun p => (p.2.gens.filter fun g => g.state == .live || g.state == .draining || g.state == .staged).all fun g =>
    i.gens.contains (p.1, g.model, g.number, g.digests.map BitVec.toNat)

/-- The copy begins: the pair's mirrored state and this package's lists leave for the rejoiner (R501). -/
def startCopy (s : State) (n : Nat) : State :=
  let s1 := s.mapTwin fun t => { t with state := .rejoining, copying := true, joinWait := none, hbSeenAt := s.aon, suspected := false, probeAt := none }
  let s2 := (unfence s1 n).send (.node n) .joinOk
  let s3 := s2.srv.ledger.foldl (fun s e => if e.2.state == .free then s else s.send (.node n) (.ledgerCopy (e.2.handle e.1))) s2
  let s4 := (tkeys s3.srv.tenants).foldl (fun s t => s.send (.node n) (.tenantCopy t)) s3
  let s5 := (tkeys (s4.srv.sessions.filter fun e => e.2.isOpen)).foldl (fun s k => s.send (.node n) (.sessionCopy k)) s4
  (tkeys (s5.srv.maps.filter fun e => e.2.present)).foldl mirrorMap s5

/-- A JOIN is tested: accepted, or answered JOIN_WAIT and kept for the next test. -/
def testJoin (s : State) (i : JoinInfo) : State :=
  if joinOk s i then startCopy s i.node
  else (s.mapTwin fun t => { t with joinWait := some i, joinAt := s.aon }).send (.node i.node) .joinWait

/-- JOIN (R479, R500). -/
def execJoin (info : JoinInfo) (s : State) : Host.Outcome State Fault Refusal :=
  .next (if s.twinNode = some info.node ∧ s.twin.state = .single then testJoin s info else s)

/-- JOIN_RETEST: every 100 ms (R500). -/
def execJoinRetest (s : State) : Host.Outcome State Fault Refusal :=
  .next (
    match s.twin.joinWait with
    | some i => if s.twin.state = .single ∧ s.twin.joinAt + msAon 100 ≤ s.aon then testJoin s i else s
    | none => s)

/-- The messages of a role's return are those of a cut-over (R502), with this number in place of a partition and the role in place of the model (log 44). -/
def rolePart : Nat := 0xFF

/-- The lowest lap not yet started of every context. -/
def lowestOfAll (s : State) : Nat :=
  let cs := tkeys (s.srv.ctxs.filter fun c => c.2.state != .none)
  let waiting := (s.srv.heats.filter fun h => h.2.live && !h.2.fetched).map fun h => h.2.desc.lap
  match waiting ++ cs.map (nextLap s) with
  | [] => 0
  | a :: r => r.foldl min a

/-- L is fixed: the largest vote plus CUT_MARGIN, and COMMIT is broadcast (R243, R502). -/
def commitReturn (s : State) (r : RoleReturn) : State :=
  let l := r.largest + s.cfg 0x0301
  (s.mapTwin fun t => { t with returning := some { r with waiting := [], lap := some l } }).send .all (.cutCommit rolePart r.role l)

/-- The return of the twin's role is prepared: every package of the database votes (R502). -/
def startReturn (s : State) : State :=
  match s.twinNode with
  | none => s
  | some t =>
    let role := otherRole s.fab.ownRole
    let others := s.nodes.filter (· != s.fab.node)
    let n := lowestOfAll s
    let r : RoleReturn := ⟨role, t, s.roleEpoch role + 1, true, others, n, s.aon, n, none⟩
    let s1 := (s.mapTwin fun w => { w with returning := some r, retryAt := none }).send .all (.cutPrepare rolePart role t 0)
    if others.isEmpty then commitReturn s1 r else s1

/-- The coordinator gives up: both packages stay REJOINING, and the return is tried again after CUT_TO_MS (R502). -/
def abortReturn (s : State) (r : RoleReturn) : State :=
  (s.mapTwin fun t => { t with returning := none, retryAt := some (s.aon + msAon (s.cfg 0x0302)) }).send .all (.cutAbort rolePart r.role)

/-- REJOIN_COPY_DONE: the copy is complete, and the role starts to return (R502). -/
def execRejoinCopyDone (s : State) : Host.Outcome State Fault Refusal :=
  .next (if s.twin.state == .rejoining && s.twin.copying && s.twin.returning.isNone && s.twin.retryAt.isNone then startReturn s else s)

/-- ROLE_RETURN_RETRY: the wait after an aborted return is over (R502). -/
def execRoleReturnRetry (s : State) : Host.Outcome State Fault Refusal :=
  .next (
    match s.twin.returning, s.twin.retryAt with
    | none, some t => if t ≤ s.aon ∧ s.twin.state = .rejoining ∧ s.twin.copying then startReturn s else s
    | _, _ => s)

/-- The lists a survivor took over become mirror lists again (R502). -/
def returnMap (s : State) (k : Nat) : State :=
  let m := s.map k
  if !m.present then s
  else
    let l := m.lists.map fun (l : KvList) => { l with mirror := true, pages := l.pages.map fun (g : Page) => { g with mirror := true } }
    let s1 := s.setMirror k { KvMap.reset with present := true, part := m.part, d := m.d, clen := m.clen, wfmt := m.wfmt, lists := l, home := m.home }
    s1.setMap k { m with present := false, lists := [], clen := 0, plen := 0 }

/-- The role changes hands at lap L (R502): the epoch advances, FAB.FAILOVER is posted; at the survivor its lists and requests of the role are the rejoiner's
again, at the rejoiner the mirrored ones are its own; the two are PAIRED. -/
def applyReturn (s : State) (r : RoleReturn) : State :=
  let old := (s.roleNode r.role).getD s.fab.node
  let s1 := failoverEvent (moveChannels (unfence (setRole s r.role r.node r.epoch) r.node) old r.node) r.role old r.node
  let s2 := s1.mapTwin fun t => { t with returning := none, retryAt := none }
  if r.node = s.fab.node then
    let s3 := (tkeys s2.srv.mirrors).foldl adoptMap s2
    let s4 := { s3 with srv := { s3.srv with ledger := s3.srv.ledger.map fun e =>
      if e.2.home = r.role then (e.1, { e.2 with mirror := false, fn := (s.part e.2.part).fn }) else e } }
    flood ((pairTo s4 .paired).mapTwin fun t => { t with adopted := [] })
  else if s.twinNode = some r.node ∧ s.twin.state = .rejoining then
    let s3 := s2.twin.adopted.foldl returnMap s2
    let s4 := { s3 with srv := { s3.srv with ledger := s3.srv.ledger.map fun e =>
      if e.2.home = r.role ∧ e.2.state ≠ .free then (e.1, { e.2 with mirror := true, adopted := false }) else e } }
    flood ((pairTo s4 .paired).mapTwin fun t => { t with copying := false, adopted := [] })
  else s2

/-- The return takes place once no lap below L is unstarted or in flight here. -/
def returnDue (s : State) : State :=
  match s.twin.returning with
  | some r => match r.lap with
    | some l => if l ≤ lowestOfAll s ∧ !(s.srv.heats.any fun h => h.2.live && h.2.lapActive && decide (h.2.desc.lap < l)) then applyReturn s r else s
    | none => s
  | none => s

/-- A package's part in a role's return: it votes with its lowest unstarted lap. -/
def rolePrepare (s : State) (src role node : Nat) : State :=
  let n := lowestOfAll s
  let own := match s.twin.returning with | some r => r.coordinator | none => false
  let s1 := if own then s else s.mapTwin fun t => { t with returning := some ⟨role, node, s.roleEpoch role + 1, false, [], 0, s.aon, n, none⟩ }
  s1.send (.node src) (.cutVote rolePart role n true)

/-- A vote for a role's return. -/
def roleVote (s : State) (src role lowest : Nat) (yes : Bool) : State :=
  match s.twin.returning with
  | some r =>
    if r.coordinator ∧ r.lap.isNone ∧ r.role = role ∧ r.waiting.contains src then
      if !yes then abortReturn s r
      else
        let r1 := { r with waiting := r.waiting.filter (· != src), largest := max r.largest lowest }
        if r1.waiting.isEmpty then commitReturn s r1 else s.mapTwin fun t => { t with returning := some r1 }
    else s
  | none => s

/-- CUT_PREPARE (R243); with a role in place of a model, R502. -/
def execCutPrepare (src part model gen images : Nat) (s : State) : Host.Outcome State Fault Refusal :=
  .next (if part ≠ rolePart then cutPrepare src part model gen images s else if takesFrom s src then rolePrepare s src model gen else s)

/-- CUT_VOTE (R243, R502). -/
def execCutVote (src part model lowest : Nat) (yes : Bool) (s : State) : Host.Outcome State Fault Refusal :=
  .next (if part = rolePart then roleVote s src model lowest yes else cutVote src part model lowest yes s)

/-- CUT_VOTE_TIMEOUT: CUT_TO_MS / 2 from PREPARE without every vote (R243, R502). -/
def execCutVoteTimeout (part model : Nat) (s : State) : Host.Outcome State Fault Refusal :=
  .next (
    if part ≠ rolePart then cutVoteTimeout part model s
    else match s.twin.returning with
      | some r => if r.coordinator ∧ r.lap.isNone ∧ r.role = model ∧ r.startedAt + msAon (s.cfg 0x0302) / 2 ≤ s.aon then abortReturn s r else s
      | none => s)

/-- CUT_COMMIT (R243); a role's return takes place once no lap below L is unstarted or in flight here (R502). -/
def execCutCommit (part model cutLap : Nat) (s : State) : Host.Outcome State Fault Refusal :=
  .next (
    if part ≠ rolePart then cutCommit part model cutLap s
    else match s.twin.returning with
      | some r => if r.role = model then returnDue (s.mapTwin fun t => { t with returning := some { r with lap := some cutLap } }) else s
      | none => s)

/-- CUT_ABORT (R243, R502). -/
def execCutAbort (part model : Nat) (s : State) : Host.Outcome State Fault Refusal :=
  .next (
    if part ≠ rolePart then cutAbort part model s
    else match s.twin.returning with
      | some r => if r.role = model ∧ !r.coordinator ∧ r.lap.isNone then s.mapTwin fun t => { t with returning := none } else s
      | none => s)

/-- CUT_TIMEOUT: CUT_TO_MS after this package's vote with neither COMMIT nor ABORT (R243, R502). -/
def execCutTimeout (part model : Nat) (s : State) : Host.Outcome State Fault Refusal :=
  .next (
    if part ≠ rolePart then cutTimeout part model s
    else match s.twin.returning with
      | some r =>
        if r.role = model ∧ !r.coordinator ∧ r.lap.isNone ∧ r.startedAt + msAon (s.cfg 0x0302) ≤ s.aon then s.mapTwin fun t => { t with returning := none } else s
      | none => s)

/-! ### CTL packets (R444, R460) -/

/-- CTL_MSG: a packet whose sender and PSEQ were processed is discarded; a group's head forwards a broadcast copy from another group once to every other
member of its group (R444, R460). -/
def execCtlMsg (src pseq : Nat) (bcast : Bool) (code : Nat) (payload : List Byte) (s : State) : Host.Outcome State Fault Refusal :=
  .next (settle (
    if !takesFrom s src || s.fab.seen.contains (src, pseq) then s
    else
      let s1 := { s with fab := { s.fab with seen := (src, pseq) :: s.fab.seen } }
      let g := nodeGroup s.fab.node
      let s2 := if bcast && s.isHead && nodeGroup src != g then
          (s.nodes.filter fun n => nodeGroup n == g && n != s.fab.node).foldl (fun s n =>
            transmit s { mkPacket s 0x01 n 0 pseq (leBytes 2 code) payload with src := src }) s1
        else s1
      ctlBody s2 src code payload))

/-! ### Lock-step (R504, R505) -/

/-- CHECKPOINT: an own digest leaves for the twin; with its counterpart at hand the two are compared. -/
def execCheckpoint (heat lap layer tensor : Nat) (digest : BitVec 256) (own : Bool) (s : State) : Host.Outcome State Fault Refusal :=
  .next (settle (
    let h := s.heat heat
    if !s.hasLockstep || !h.live || !h.lockstep || h.desc.lap != lap then s
    else
      let s1 := match own, s.twinNode with
        | true, some t => s.send (.node t) (.checkpoint heat lap layer tensor digest)
        | _, _ => s
      match h.digests.find? fun d => d.1 == lap && d.2.1 == layer && d.2.2.1 == tensor && d.2.2.2.2.1 != own with
      | none => s1.setHeat heat { h with digests := h.digests ++ [(lap, layer, tensor, digest, own, s.aon)] }
      | some d =>
        let s2 := (s1.setHeat heat { h with digests := h.digests.erase d }).mapTwin fun t => { t with lsChecks := t.lsChecks + 1 }
        if d.2.2.2.1 = digest then s2 else lsMismatch s2 heat (some (layer, tensor))))

/-- LS_WAIT_EXPIRY: the twin's digest has not arrived within LS_WAIT_US of the package's own (R505). -/
def execLsWaitExpiry (heat lap layer tensor : Nat) (s : State) : Host.Outcome State Fault Refusal :=
  .next (settle (
    let h := s.heat heat
    match h.digests.find? fun d => d.1 == lap && d.2.1 == layer && d.2.2.1 == tensor && d.2.2.2.2.1 with
    | none => s
    | some d =>
      if s.aon < d.2.2.2.2.2 + usAon (s.cfg 0x0904) then s
      else lsMismatch (s.setHeat heat { h with digests := h.digests.erase d }) heat (some (layer, tensor))))

end Sys2Proof.Machine
end

