-- ==== Sys2Proof/Machine/Energy.lean ====
section
/-!
DEFINITION. Energy and receipts (R510 to R527): meter samples, reconciliation, shares, summaries, overhead receipts, receipt blocks and the flush; the
boot record's markers (R568, R588).
-/

namespace Sys2Proof.Machine

/-! ### The boot record (R568) -/

/-- Where the boot record region lies in the NOR (R561). -/
def recordBase : Nat := 0x02250000

/-- One byte of the NOR; erased bytes read 0xFF. -/
def norByte (s : State) (a : Nat) : Byte := mget 0xFF s.boot.nor a

/-- Bytes of the NOR. -/
def norRead (s : State) (a n : Nat) : List Byte := mread 0xFF s.boot.nor a n

/-- Bytes of the NOR written. -/
def norWrite (s : State) (a : Nat) (l : List Byte) : State := { s with boot := { s.boot with nor := mwrite 0xFF s.boot.nor a l } }

/-- A sector of 64 KiB of the NOR erased. -/
def norErase (s : State) (a : Nat) : State :=
  { s with boot := { s.boot with nor := s.boot.nor.filter fun e => !(decide (a ≤ e.1) && decide (e.1 < a + 65536)) } }

/-- The entry at a place of the boot record; `none` where the place is erased. -/
def recordAt (s : State) (i : Nat) : Option BootRec :=
  let b := norRead s (recordBase + 16 * i) 16
  if ble b 0 1 = 0xFF then none else some ⟨ble b 0 1, ble b 1 1, ble b 4 4, ble b 8 8⟩

/-- The entries of the boot record from a place on; `n` bounds them. -/
def recordsFrom (n : Nat) (s : State) (i : Nat) : List BootRec :=
  match n with
  | 0 => []
  | n + 1 => match recordAt s i with
    | some r => r :: recordsFrom n s (i + 1)
    | none => []

/-- The boot record, oldest entry first: up to 4,096 entries. -/
def bootLog (s : State) : List BootRec := recordsFrom 4096 s 0

/-- The 16 bytes of an entry. -/
def recordBytes16 (r : BootRec) : List Byte := leBytes 1 r.kind ++ leBytes 1 r.cause ++ [0, 0] ++ leBytes 4 r.boot ++ leBytes 8 r.aon

/-- The OPEN entry no CLEAN has closed and no LEDGER_LOSS has answered: the newest of the three (R588). -/
def openEntry (l : List BootRec) : Option BootRec :=
  match (l.filter fun r => r.kind == 2 || r.kind == 3 || r.kind == 4).getLast? with
  | some r => if r.kind = 2 then some r else none
  | none => none

/-- The entries firmware writes back after it has erased a full region: the newest BOOT entry, the open marker, the latest 256 LEDGER_LOSS entries (R568). -/
def keptRecords (l : List BootRec) : List BootRec :=
  let boot := (l.filter (·.kind == 1)).getLast?.toList
  let mark := match openEntry l with
    | some r => [r]
    | none => []
  let loss := l.filter (·.kind == 4)
  loss.drop (loss.length - 256) ++ boot ++ mark

/-- An entry appended to the boot record. -/
def bootRecord (s : State) (r : BootRec) : State :=
  let l := bootLog s
  if l.length < 4096 then norWrite s (recordBase + 16 * l.length) (recordBytes16 r)
  else
    let k := keptRecords l ++ [r]
    norWrite (norErase s recordBase) recordBase (k.flatMap recordBytes16)

/-- A marker entry of this boot. -/
def bootMark (s : State) (kind : Nat) : State := bootRecord s ⟨kind, s.boot.cause, s.boot.bootCount, s.aon⟩

/-- OPEN at the first energy charge after a boot or a completed flush (R588). -/
def openMark (s : State) : State :=
  if s.energy.openMark then s else { bootMark s 2 with energy := { s.energy with openMark := true } }

/-! ### The meters (R510, R512, R530) -/

/-- METER_SAMPLE: every 10 µs the counters rise, the 1 ms mean of the input power is kept; a sample above 1.2 × CAP_W lowers the Field clock by 100 MHz
at once, and C4 adopts it (R512, R530). -/
def execMeterSample (inputUj mw vin : Nat) (stages : List Nat) (s : State) : Host.Outcome State Fault Refusal :=
  .next (
    if s.entry.oscDead then s
    else
      let e := s.energy
      let samples := (e.samples ++ [mw]).drop (e.samples.length + 1 - 100)
      let s1 := { s with energy := { e with
        inputUj := e.inputUj + inputUj
        stageUj := (List.range 64).map fun i => nth 0 e.stageUj i + nth 0 stages i
        samples := samples, powerMw := samples.foldl (· + ·) 0 / samples.length, vin := vin } }
      if 1200 * s.cfg 0x0A01 < mw ∧ s.power.fieldOn then
        let f := max 1000 (s.power.freq - 100)
        { s1 with power := { s1.power with freq := f, fastLimit := f, limit := 3, fastTrips := s1.power.fastTrips + 1 } }
      else s1)

/-- Whether a coefficient set stays within 0.5..2 times the factory values (R515). -/
def coefsOk (l : List Nat) : Bool :=
  l.length == 16 && (l.zip factoryCoefs).all fun p => decide (p.2 ≤ 2 * p.1 ∧ p.1 ≤ 2 * p.2)

/-- COEF_REFIT: every second; a fit out of bounds or on fewer than 16 seconds of data changes nothing (R515). -/
def execCoefRefit (fit : Option (List Nat)) (s : State) : Host.Outcome State Fault Refusal :=
  .next (
    let e := s.energy
    if s.aon < e.refitAt + 4000000 then s
    else
      let n := match fit with
        | some l => if coefsOk l ∧ 16 ≤ e.dataSecs + 1 then some l else e.coefNext
        | none => e.coefNext
      { s with energy := { e with refitAt := s.aon, dataSecs := min 64 (e.dataSecs + 1), coefNext := n } })

/-! ### Receipts and blocks (R519, R523 to R526) -/

/-- The block chain of a partition (0..15) or of the overhead account (16). -/
def State.chain (s : State) (c : Nat) : BlockChain := tget ⟨[], [], 0, 0⟩ s.energy.blocks c

/-- A block chain replaced. -/
def State.setChain (s : State) (c : Nat) (x : BlockChain) : State := { s with energy := { s.energy with blocks := tput s.energy.blocks c x } }

/-- Bytes of a block of some receipts, signature included. -/
def blockLen (l : List Receipt) : Nat := 128 + 384 + l.foldl (fun a r => a + r.bytes.length) 0

/-- A chain's open block is closed. -/
def closeBlock (s : State) (c : Nat) : State :=
  let x := s.chain c
  if x.openR.isEmpty then s else s.setChain c { x with openR := [], closedB := x.closedB ++ [(x.openR, s.aon)] }

/-- A receipt enters a chain's open block, which is closed first where it holds 256 receipts or the receipt would take it past 1 MiB (R526). -/
def addReceipt (s : State) (c : Nat) (bytes : List Byte) : State :=
  let x := s.chain c
  let r : Receipt := ⟨bytes, s.aon, none⟩
  let s1 := if 256 ≤ x.openR.length ∨ 1048576 < blockLen (x.openR ++ [r]) then closeBlock s c else s
  let y := s1.chain c
  s1.setChain c { y with openR := y.openR ++ [r] }

/-- A number that may be absent, as all ones. -/
def optNat (o : Option Nat) : Nat := match o with | some n => n | none => 2 ^ 64 - 1

/-- The 128 bytes of a share receipt (R519). -/
def shareBytes (a : Acct) (final proxy cut : Bool) (subject last coefSeq : Nat) : List Byte :=
  [1] ++ leBytes 1 (b2n final + 2 * b2n proxy + 4 * b2n cut + 8 * b2n a.late) ++ leBytes 2 (a.home % 1024) ++ leBytes 4 a.handle ++ leBytes 8 subject ++
  leBytes 2 (a.tenant % 4096) ++ leBytes 1 a.part ++ [0] ++ leBytes 4 a.seq ++ leBytes 8 a.spanAt ++ leBytes 8 last ++
  leBytes 8 (optNat a.lapFirst) ++ leBytes 8 (optNat a.lapLast) ++ leBytes 8 a.ePrefill ++ leBytes 8 a.eDecode ++ leBytes 8 a.eSpec ++
  leBytes 8 (unsigned 64 a.eResid) ++ leBytes 4 a.positions ++ leBytes 4 coefSeq ++ beBytes 32 a.prevHash

/-- An account after a share of it has closed: the next span begins (R518). -/
def Acct.next (a : Acct) (hash aon : Nat) (closed : Bool) : Acct :=
  { a with seq := a.seq + 1, prevHash := hash, ePrefill := 0, eDecode := 0, eSpec := 0, eResid := 0, spanAt := aon, lapFirst := none, lapLast := none,
           positions := 0, closed := closed }

/-- A share of an account closes into its partition's chain (R518). -/
def closeShare (s : State) (a : Acct) (final cut : Bool) : State × Acct :=
  let b := shareBytes a final false cut s.pkg.serial s.aon s.energy.coefSeq
  (addReceipt s a.part b, a.next (sha256 b).toNat s.aon (final || a.late))

/-- What decides whether an account's share closes at the end of an interval that began at `begin_`: FINAL 10 ms after the outcome with FINAL and the
package's own part; otherwise INTERIM_MS after the span began (R518). -/
def shareDue (s : State) (begin_ : Nat) (a : Acct) : Option Bool :=
  let fin := match a.finalAt with | some t => decide (t + msAon 10 ≤ begin_) && !a.late | none => false
  if a.closed then none
  else if fin then some true
  else if a.spanAt + msAon (s.cfg 0x0A07) ≤ s.aon then some false
  else none

/-- Every share that is due closes; with `cut`, every open one (R527). -/
def closeShares (s : State) (begin_ : Nat) (cut : Bool) : State :=
  let r := s.energy.accts.foldl (fun (p : State × List Acct) a =>
    match (if cut && !a.closed then some false else shareDue s begin_ a) with
    | some final => let q := closeShare p.1 a final cut; (q.1, p.2 ++ [q.2])
    | none => (p.1, p.2 ++ [a])) (s, [])
  { r.1 with energy := { r.1.energy with accts := r.2 } }

/-- The overhead receipt of the span that ends now (R524). -/
def overheadBytes (s : State) (cut : Bool) : List Byte :=
  let e := s.energy
  [3] ++ leBytes 1 (b2n cut) ++ [0, 0] ++ leBytes 4 e.ovSeq ++ leBytes 8 e.ovAt ++ leBytes 8 s.aon ++ leBytes 8 e.ovMeasured ++
  leBytes 8 (unsigned 64 e.ovRequests) ++ leBytes 8 (unsigned 64 e.ovAccount) ++ leBytes 4 e.coefSeq ++ leBytes 4 e.ovActive.length ++ zeros 40 ++
  e.coefs.flatMap (leBytes 4) ++ beBytes 32 e.ovPrev

/-- The overhead receipt closes into the overhead chain. -/
def closeOverhead (s : State) (cut : Bool) : State :=
  let b := overheadBytes s cut
  let s1 := addReceipt s 16 b
  { s1 with energy := { s1.energy with
    ovMeasured := 0, ovRequests := 0, ovAccount := 0, ovSeq := s1.energy.ovSeq + 1, ovPrev := (sha256 b).toNat, ovAt := s.aon, ovActive := [] } }

/-! ### Summaries (R523) -/

/-- The chains of a request at its home, in ascending serial. -/
def chainsOf (s : State) (handle : Nat) : List Chain :=
  sortBy (fun a b => decide (a.subject < b.subject)) (s.energy.chains.filter fun c => c.handle == handle)

/-- Whether a chain's package has left the database with no survivor to sign for it. -/
def chainLost (s : State) (c : Chain) : Bool :=
  c.subject != s.pkg.serial && !(s.fab.db.any fun e => e.1.serial == c.subject) && c.subject != s.twin.serial

/-- Whether a summary of a request stands in a block that is not signed yet. -/
def summaryWaits (s : State) (part handle : Nat) : Bool :=
  let x := s.chain part
  (x.openR ++ x.closedB.flatMap (·.1)).any fun r => ble r.bytes 0 1 == 2 && ble r.bytes 4 4 == handle

/-- The summary receipt of a request. -/
def summaryBytes (i : Nat) (r : Req) (l : List Chain) : List Byte :=
  let pre := l.foldl (fun a c => a + c.ePrefill) 0
  let dec := l.foldl (fun a c => a + c.eDecode) 0
  let spec := l.foldl (fun a c => a + c.eSpec) 0
  let res := l.foldl (fun (a : Int) c => a + c.eResid) 0
  [2] ++ leBytes 1 (b2n r.adopted + 2 * b2n (l.any fun c => !c.final)) ++ leBytes 2 (r.home % 1024) ++ leBytes 4 (r.handle i) ++ leBytes 2 r.status ++
  leBytes 2 l.length ++ leBytes 2 (r.tenant % 4096) ++ leBytes 1 r.part ++ [0] ++ leBytes 4 (if r.aonAdmit = 0 then 0 else r.prompt) ++ leBytes 4 r.delivered ++
  leBytes 4 r.generation ++ zeros 4 ++ leBytes 8 r.aonSubmit ++ leBytes 8 r.aonEnd ++ leBytes 8 r.wall.toNat ++ leBytes 8 pre ++ leBytes 8 dec ++
  leBytes 8 spec ++ leBytes 8 (unsigned 64 res) ++ leBytes 8 (unsigned 64 ((pre + dec + spec : Nat) + res)) ++ digestBytes r.digest ++
  l.flatMap fun c => leBytes 8 c.subject ++ beBytes 32 c.lastHash

/-- The summary of a request closes once its end is past and every chain has its FINAL share, or belongs to a lost package no survivor signs for (R523). -/
def trySummary (s : State) (i : Nat) : State :=
  let r := s.req i
  let l := chainsOf s (r.handle i)
  if !(r.state == .completed || r.state == .ended) || r.mirror || r.receiptSigned || r.inLap || summaryWaits s r.part (r.handle i) ||
      !(l.all fun c => c.final || chainLost s c) then s
  else addReceipt s r.part (summaryBytes i r (l.take 255))

/-- Every summary that can close. -/
def trySummaries (s : State) : State := (tkeys s.srv.ledger).foldl trySummary s

/-- SHARE_OPEN: a package charges a request of this home for the first time (R520). -/
def execShareOpen (home handle subject : Nat) (s : State) : Host.Outcome State Fault Refusal :=
  .next (
    match reqIdx s handle with
    | none => s
    | some i =>
      if (s.req i).home ≠ home ∨ s.energy.chains.any (fun c => c.handle == handle && c.subject == subject) then s
      else { s with energy := { s.energy with chains := s.energy.chains ++ [⟨handle, subject, 0, false, 0, 0, 0, 0⟩] } })

/-- SHARE_SIGNED: the home keeps the last hash and the totals, its twin gets a copy, and the summary closes when it can (R482, R520, R521, R523). -/
def execShareSigned (m : ShareMsg) (s : State) : Host.Outcome State Fault Refusal :=
  .next (
    match reqIdx s m.handle with
    | none => s
    | some i =>
      let r := s.req i
      let s1 := noteShare s m
      let s2 := if m.late then s1
        else s1.setReq i { r with ePrefill := r.ePrefill + m.ePrefill, eDecode := r.eDecode + m.eDecode, eSpec := r.eSpec + m.eSpec, eResid := r.eResid + m.eResid }
      let s3 := match mirrors s2, s2.twinNode with
        | true, some t => s2.send (.node t) (.shareCopy m)
        | _, _ => s2
      trySummary s3 i)

/-! ### Blocks (R525, R526) -/

/-- The function a chain is posted on: the partition's, PF0 for the overhead chain. -/
def chainFn (s : State) (c : Nat) : Nat := if c < 16 then (s.part c).fn else 0

/-- The bytes of a block before its signature (R525). -/
def blockBytes (s : State) (c : Nat) (l : List Receipt) (closedAt : Nat) : List Byte :=
  let x := s.chain c
  leBytes 4 0x54524B58 ++ leBytes 2 1 ++ leBytes 1 (chainFn s c) ++ leBytes 1 (if c < 16 then c else 0xFF) ++ leBytes 8 s.pkg.serial ++ leBytes 8 x.bseq ++
  leBytes 8 closedAt ++ leBytes 2 l.length ++ [0, 0] ++ leBytes 4 (blockLen l) ++ digestBytes Config.certDigest ++ digestBytes x.prev ++
  leBytes 4 s.boot.bootCount ++ zeros 20 ++ l.flatMap (·.bytes)

/-- A signed receipt's report: SHARE_SIGNED to the home of a share; a summary's ledger entry may be freed (R364, R520). -/
def receiptSigned (s : State) (r : Receipt) : State :=
  let b := r.bytes
  if ble b 0 1 = 1 then
    let f := ble b 1 1
    s.send (.role (ble b 2 2)) (.shareSigned ⟨ble b 4 4, ble b 8 8, ble b 0x14 4, nbits f 0 0 = 1, nbits f 3 3 = 1, (sha256 b).toNat,
      ble b 0x38 8, ble b 0x40 8, ble b 0x48 8, signed 64 (ble b 0x50 8)⟩)
  else if ble b 0 1 = 2 then
    match reqIdx s (ble b 4 4) with
    | some i => s.setReq i { s.req i with receiptSigned := true }
    | none => s
  else s

/-- A closed block is signed and posted (R525, R526). -/
def signBlock (s : State) (c : Nat) : State :=
  let x := s.chain c
  match x.closedB with
  | [] => s
  | (l, t) :: rest =>
    let b := blockBytes s c l t
    let sig := bsub (Config.signature s.drawn b) 0 384
    let block := b ++ sig
    let s1 := (s.drew 1).setChain c { x with closedB := rest, bseq := x.bseq + 1, prev := sha256 block }
    let s2 := { s1 with energy := { s1.energy with blocksSigned := s1.energy.blocksSigned + 1 } }
    notify (l.foldl receiptSigned s2) (chainFn s c) mRECEIPT_BLOCK 0 block

/-- When the oldest receipt of a chain's first closed block closed. -/
def oldestOf (x : BlockChain) : Option Nat := x.closedB.head?.bind fun b => b.1.head?.map (·.closedAt)

/-- BLOCK_CLOSE: the block holds 256 receipts, or its oldest has waited SIGN_MS (R526). -/
def execBlockClose (chain : Nat) (s : State) : Host.Outcome State Fault Refusal :=
  .next (
    let x := s.chain chain
    match x.openR with
    | [] => s
    | r :: _ => if 256 ≤ x.openR.length ∨ r.closedAt + msAon (s.cfg 0x0A06) ≤ s.aon then closeBlock s chain else s)

/-- BLOCK_SIGNED: the enclave has signed the closed block with the oldest receipt (R526). -/
def execBlockSigned (chain : Nat) (s : State) : Host.Outcome State Fault Refusal :=
  .next (settle (
    match oldestOf (s.chain chain) with
    | none => s
    | some t => if s.energy.blocks.all fun e => match oldestOf e.2 with | some u => decide (t ≤ u) | none => true then signBlock s chain else s))

/-! ### Reconciliation (R513, R514, R516, R517) -/

/-- The modelled energy of some counts in fJ; `v` is (V / V_nom)² in millionths, which no rule gives (log 46). -/
def countsFj (coefs : List Nat) (v : Nat) (n : Nat → Nat) : Nat :=
  (List.range 10).foldl (fun a c => a + nth 0 coefs c * n c * (if c ≤ 3 ∨ c = 9 then v else 1000000) / 1000000) 0

/-- The modelled energy of a context's activity in the interval. -/
def ctxFj (s : State) (v c : Nat) : Nat := countsFj s.energy.coefs v fun k => tget 0 s.energy.activity (c * 16 + k)

/-- Positions the open laps of a context carry on this package. -/
def ctxPositions (s : State) (c : Nat) : Nat := (s.energy.accts.filter fun a => a.ctx == c && a.lapOpen && !a.closed).foldl (fun n a => n + a.lapN) 0

/-- A request's modelled energy of the interval in µJ: what it caused alone, and its part of its context's activity by positions (R514). -/
def modelled (s : State) (v : Nat) (a : Acct) : Nat :=
  let own := countsFj s.energy.coefs v fun k => tget 0 a.acts k
  let n := ctxPositions s a.ctx
  let part := if a.lapOpen ∧ n ≠ 0 then ctxFj s v a.ctx * a.lapN / n else 0
  if a.closed then 0 else (own + part) / 1000000000

/-- Whether any energy is charged to an account in the interval (R516). -/
def activeAcct (s : State) (a : Acct) : Bool :=
  !a.closed && (a.acts.any (fun e => e.2 != 0) || (a.lapOpen && (List.range 10).any fun k => tget 0 s.energy.activity (a.ctx * 16 + k) != 0))

/-- The modelled static energy and the overhead's dynamic energy in µJ, conversion loss included (R513). -/
def overheadUj (s : State) (v : Nat) : Nat :=
  let e := s.energy
  let us := (s.aon - e.intervalAt) / 4
  let on (b : Bool) (n k : Nat) : Nat := if b then n * nth 0 e.coefs k * us else 0
  let st := on s.power.fieldOn 4 10 + on s.power.besideOn 12 11 + on s.power.junctionOn 2 12 + on s.power.portOn 1 13 + on s.power.stewardOn 1 14
  let ctxs := dedup (e.activity.map fun x => x.1 / 16)
  let all := ctxs.foldl (fun a c => a + ctxFj s v c) 0 + (e.accts.filter fun a => !a.closed).foldl (fun n a => n + countsFj e.coefs v fun k => tget 0 a.acts k) 0
  let own := (ctxs.filter fun c => c == ovCtx || ctxPositions s c == 0).foldl (fun a c => a + ctxFj s v c) 0
  (st + own + (st + all) * nth 0 e.coefs 15 / 1000000) / 1000000000

/-- What an interval charges to one request: its modelled energy on its open lap, or on the decode line outside a lap (R357), and its share of the
residual (R517). -/
def chargeAcct (s : State) (v : Nat) (resid : Int) (total : Nat) (a : Acct) : Acct × Int :=
  let m := modelled s v a
  let share : Int := if total = 0 then 0 else max ((resid * m) / total) (-(m : Int))
  let b := if a.lapOpen then { a with lapUj := a.lapUj + m } else { a with eDecode := a.eDecode + m }
  ({ b with eResid := b.eResid + share, acts := [] }, share)

/-- The interval up to now is reconciled (R517), a new coefficient set taken, and every share and overhead receipt that is due closes. -/
def reconcile (s0 : State) (cut : Bool) : State :=
  let v := Config.free s0.drawn
  let s := s0.drew 1
  let e := s.energy
  let meas := e.inputUj - e.intervalUj
  let mo := overheadUj s v
  let total := e.accts.foldl (fun n a => n + modelled s v a) 0
  let resid : Int := (meas : Int) - total - mo
  let r := e.accts.map (chargeAcct s v resid total)
  let given := r.foldl (fun (n : Int) p => n + p.2) 0
  let active := (e.accts.filter (activeAcct s)).map fun a => (a.home, a.handle)
  let begin_ := e.intervalAt
  let s1 := if active.isEmpty then s else openMark s
  let e1 := { s1.energy with
    accts := r.map (·.1)
    ovMeasured := e.ovMeasured + meas
    ovRequests := e.ovRequests + ((total : Nat) + given)
    ovAccount := e.ovAccount + ((mo : Int) + resid - given)
    ovActive := e.ovActive ++ active.filter fun a => !e.ovActive.contains a
    activity := [], intervalAt := s.aon, intervalUj := e.inputUj
    coefs := e.coefNext.getD e.coefs, coefSeq := e.coefSeq + b2n e.coefNext.isSome, coefNext := none }
  let s2 := closeShares { s1 with energy := e1 } begin_ cut
  let s3 := if cut ∨ e.ovAt + msAon (s.cfg 0x0A07) ≤ s.aon then closeOverhead s2 cut else s2
  trySummaries s3

/-- The proxy shares of a lost twin: for the modelled energy it mirrored and no share of its own covered (R497). -/
def proxyShares (s : State) : State :=
  if s.twin.state != .single then s
  else
    let s1 := s.energy.mirrored.foldl (fun s a =>
      let hash := match s.energy.chains.find? fun c => c.handle == a.handle && c.subject == s.twin.serial with | some c => c.lastHash | none => 0
      addReceipt s a.part (shareBytes { a with prevHash := hash } true true false s.twin.serial (a.finalAt.getD s.aon) s.energy.coefSeq)) s
    { s1 with energy := { s1.energy with mirrored := [] } }

/-- RECONCILE: at the end of an interval of 1 ms; while no request is active the interval goes on (R516). A survivor signs for its lost twin here (R497). -/
def execReconcile (s : State) : Host.Outcome State Fault Refusal :=
  .next (
    let s1 := proxyShares s
    if s1.aon < s1.energy.intervalAt + msAon 1 then s1
    else if s1.energy.accts.any (activeAcct s1) then reconcile s1 false
    else s1)

/-! ### The flush (R527, R588) -/

/-- Every closed block of a chain is signed. -/
def signAll (n : Nat) (s : State) (c : Nat) : State :=
  match n with
  | 0 => s
  | n + 1 => if (s.chain c).closedB.isEmpty then s else signAll n (signBlock s c) c

/-- The flush: the interval is reconciled at once, every open share and overhead receipt closes with CUT, every block is signed, and CLEAN is recorded. -/
def flush (s : State) : State :=
  let s1 := reconcile s true
  let s2 := (List.range 17).foldl (fun s c => let s := closeBlock s c; signAll (s.chain c).closedB.length s c) s1
  let s3 := bootMark s2 3
  { s3 with energy := { s3.energy with openMark := false } }

end Sys2Proof.Machine
end

