-- ==== Sys2Proof/Machine/Power.lean ====
section
/-!
DEFINITION. The governor and frequency domains (R528 to R534), and the power states (R535 to R541).
-/

namespace Sys2Proof.Machine

/-! ### Frequency (R528 to R533) -/

/-- The mode ceiling: 2,250 MHz in boost mode, FREQ_MHZ in fixed-pace mode (R529). -/
def ceiling (s : State) : Nat := if s.cfg 0x0A02 = 0 then 2250 else s.cfg 0x0A03

/-- The latest offers of the domain's other members that are in the database (R531). -/
def memberOffers (s : State) : List (Nat × Nat × Nat) :=
  if s.cfg 0x0A04 = 0 then [] else s.power.offers.filter fun e => e.1 != s.fab.node && s.inDb e.1

/-- The members of the frequency domain as this package knows them, itself included. -/
def members (s : State) : List Nat := s.fab.node :: (memberOffers s).map (·.1)

/-- The running frequency: the lowest of the own offer and the offers held (R531); what sets it (R543), and PACE_LOST (R533). -/
def setFreq (s : State) : State :=
  let p := s.power
  let dom := ((memberOffers s).map (·.2.1)).foldl min p.offer
  let lim := if dom < p.offer then 4
    else if p.offer = ceiling s then 0
    else if p.offer = p.fastLimit ∧ p.fastLimit < min p.capLimit p.thermLimit then 3
    else if p.offer = p.thermLimit ∧ p.thermLimit < p.capLimit then 2
    else 1
  { s with power := { p with freq := dom, limit := lim, paceLost := s.cfg 0x0A02 = 1 && decide (dom < s.cfg 0x0A03) } }

/-- One step down of a limit, not below the lowest frequency. -/
def stepDown (f : Nat) : Nat := max 1000 (f - 25)

/-- FREQ_OFFER broadcast to the domain (R531). -/
def sendOffer (s : State) : State :=
  let q := s.power.offerSeq + 1
  let s1 := { s with power := { s.power with offerSeq := q, offers := tput s.power.offers s.fab.node (s.power.offer, s.aon) } }
  ((memberOffers s1).map (·.1) ++ (if (memberOffers s1).isEmpty ∧ s.cfg 0x0A04 ≠ 0 then s.nodes.filter (· != s.fab.node) else [])).foldl
    (fun s n => s.send (.node n) (.freqOffer (s.cfg 0x0A04) s.power.offer q)) s1

/-- GOVERNOR_TICK: C4's offer is the lowest of the mode ceiling, the cap limit, the thermal limit and the fast limit; it is sent when it changes and at
least every 10 ms (R529 to R531). Each raise takes 10 ms of its own (log 51). Since when a reading has been low is kept plus 1; 0 says it is not. -/
def execGovernorTick (r : Reading) (s : State) : Host.Outcome State Fault Refusal :=
  .next (
    if s.power.state != .run || s.entry.oscDead then s
    else
      let p := s.power
      let cap := s.cfg 0x0A01 * 1000
      let capLow := decide (100 * r.meanMw < 97 * cap)
      let capSince := if capLow then (if p.capBelowSince = 0 then s.aon + 1 else p.capBelowSince) else 0
      let tj : Int := s.cfg 0x0A05
      let thLow := decide (r.hottest < tj - 5)
      let thSince := if thLow then (if p.thermBelowSince = 0 then s.aon + 1 else p.thermBelowSince) else 0
      let rise (t : Nat) : Bool := t != 0 && decide (t + msAon 10 ≤ s.aon + 1)
      let top := ceiling s
      let capL := if cap < r.meanMw then stepDown p.capLimit else if rise capSince then p.capLimit + 25 else p.capLimit
      let thL := if tj ≤ r.hottest then stepDown p.thermLimit else if rise thSince then p.thermLimit + 25 else p.thermLimit
      let fast := if rise capSince then p.fastLimit + 25 else p.fastLimit
      let p1 := { p with
        capLimit := min top capL, thermLimit := min top thL, fastLimit := min 2250 fast
        capBelowSince := if rise capSince then s.aon + 1 else capSince, thermBelowSince := if rise thSince then s.aon + 1 else thSince
        offer := min (min top (min top capL)) (min (min top thL) fast) }
      let s1 := { s with power := p1 }
      let sent := match s.power.offers.find? fun e => e.1 == s.fab.node with
        | some e => e.2.1 == p1.offer && decide (s.aon < e.2.2 + msAon 10)
        | none => false
      setFreq (if sent then s1 else sendOffer s1))

/-- FREQ_OFFER: the latest offer of a member is held (R531). -/
def execFreqOffer (src dom offer seq : Nat) (s : State) : Host.Outcome State Fault Refusal :=
  .next (
    let new := match s.power.offers.find? fun e => e.1 == src with
      | some e => decide (e.2.2 < seq)
      | none => true
    if dom = 0 ∨ dom ≠ s.cfg 0x0A04 ∨ src = s.fab.node ∨ !takesFrom s src ∨ !s.inDb src ∨ !new then s
    else setFreq { s with power := { s.power with offers := tput s.power.offers src (offer, seq) } })

/-- DROOP_STRETCH: the stretched cycles are counted (R534). -/
def execDroopStretch (field : Bool) (die cycles : Nat) (s : State) : Host.Outcome State Fault Refusal :=
  .next (
    let on := if field then decide (die < 4) && s.power.fieldOn else decide (die < 12) && s.power.besideOn
    if on && s.power.state == .run then { s with power := { s.power with stretch := s.power.stretch + cycles } } else s)

/-! ### The choice (R536 to R538) -/

/-- ENG.POWER_EVENT on PF0 (R541). -/
def powerEvent (s : State) (src dst : Nat) : State :=
  notify s 0 mPOWER_EVENT 0 (leBytes 1 src ++ leBytes 1 dst ++ zeros 6 ++ leBytes 8 s.aon)

/-- The code of a power state. -/
def PowerState.code (x : PowerState) : Nat :=
  match x with
  | .run => 0
  | .hold => 1
  | .nap => 2
  | .rest => 3
  | .dormant => 4

/-- Whether a slot has a command queued. -/
def slotBusy (x : SlotSt) : Bool := !x.queued.isEmpty || !x.started.isEmpty || (x.state == .running && x.head != x.tail)

/-- Whether no command is queued on any core or beside ring (R538). -/
def noCommand (s : State) : Bool :=
  s.cores.all (fun e => (List.range 4).all fun k => !slotBusy (e.2.slot k)) &&
  s.beside.all fun d => d.2.rings.all fun r => r.2.started.isEmpty && (r.2.state != .running || r.2.head == r.2.tail)

/-- AON counts of the known events that lie ahead (R537), but for the FTL's next duty. -/
def knownEvents (s : State) : List Nat :=
  s.mbx.fns.filterMap (·.2.announce) ++
  (s.far.objs.filter fun o => o.2.present && o.2.ttl != 0).map (·.2.deadline) ++
  s.energy.blocks.filterMap (fun b => b.2.openR.head?.map fun r => r.closedAt + msAon (s.cfg 0x0A06)) ++
  (tkeys (s.srv.ctxs.filter fun c => c.2.state == .resident && c.2.blocked.isSome)).filterMap (fun c => (blockTime s c).map (s.aon + ·)) ++
  (if s.energy.accts.any (activeAcct s) then [s.energy.intervalAt + msAon 1] else [])

/-- Time to the next known event in µs; `none`: unbounded. A deadline passes once reached. -/
def nextEvent (s : State) (ftlDuty : Option Nat) : Option Nat :=
  let l := ((knownEvents s).filter fun t => decide (s.aon < t)).map fun t => (t - s.aon) / 4
  (l.map some ++ [ftlDuty]).foldl minTime none

/-- Wake latencies in µs (R535). -/
def wakeUs (x : PowerState) : Nat :=
  match x with
  | .run => 0
  | .hold => 2
  | .nap => 40
  | .rest => 3000
  | .dormant => 450000

/-- Break-even times in µs (R542). -/
def breakEven (s : State) (x : PowerState) : Nat :=
  match x with
  | .run => 0
  | .hold => s.cfg 0x0A08
  | .nap => s.cfg 0x0A09
  | .rest => s.cfg 0x0A0A * 1000
  | .dormant => s.cfg 0x0A0B * 1000000

/-- Whether a generation has a NAND copy of every image (R235, R538). -/
def hasCopy (s : State) (p : Part) (g : Gen) : Bool :=
  (List.range 12).all fun i => g.nearLen p i == 0 || g.copies.any fun e => e.1 == i && (s.obj e.2).present && (s.obj e.2).tier == 2

/-- What REST requires but for the domain's agreement; DORMANT requires more (R538). -/
def restReady (s : State) (x : PowerState) : Bool :=
  s.cfg 0x0A0C == 1 && s.srv.ctxs.all (fun c => c.2.state != .resident) && s.srv.ledger.all (fun e => !e.2.isOpen) &&
  s.srv.sessions.all (fun e => !e.2.isOpen || (e.2.state != .parking && e.2.state != .resuming)) &&
  s.parts.all (fun p => p.2.gens.all fun g => g.state != .loading && g.state != .stagedLoading) &&
  (List.range 17).all (fun f => (deferredOf s f).isEmpty) &&
  (x != .dormant || (s.cfg 0x0A0D == 1 && s.hasNand && s.parts.all fun p => p.2.gens.all (hasCopy s p.2)))

/-- Whether a state pays (R538): t reaches its break-even and twice its wake latency. -/
def pays (s : State) (t : Option Nat) (x : PowerState) : Bool :=
  match t with
  | some t => decide (breakEven s x ≤ t) && decide (2 * wakeUs x ≤ t)
  | none => true

/-- The wake timer armed for t less the wake latency. -/
def arm (s : State) (t : Option Nat) (x : PowerState) : State :=
  { s with power := { s.power with wakeAt := t.map fun t => s.aon + usAon (t - wakeUs x) } }

/-- A core loses what REST clears (R590): everything but its statistics and its debug control. -/
def Core.cleared (k : Core) : Core := { Core.reset with counters := k.counters, ctrl := k.ctrl, serial := k.serial }

/-- The fabric as it is with the Junction dies off: every link DOWN, the database and the other packages' roles to be discovered again. -/
def Fab.dark (f : Fab) : Fab :=
  { f with
    links := f.links.map fun e => (e.1, { e.2 with state := .down, twoLane := false, replay := [], resync := none, retryAt := 0, changing := false })
    db := [], conflict := [], planWeak := false, roles := f.roles.filter fun e => e.2.1 == f.node + 1, txns := [], lines := [] }

/-- REST is entered (R535, R539, R541, R590). -/
def enterRest (s : State) : State :=
  let s1 := powerEvent s s.power.state.code 3
  let s2 := flood { s1 with power := { s1.power with resting := true, readySent := none } }
  { s2 with
    power := { s2.power with state := .rest, fieldOn := false, junctionOn := false }
    cores := s2.cores.map fun e => (e.1, e.2.cleared)
    starters := s2.starters.map fun e => (e.1, { Starter.reset with unavailable := e.2.unavailable })
    beside := s2.beside.map fun e => (e.1, { e.2.repair e.1 with rings := [], dir := [], waits := [] })
    fab := s2.fab.dark }

/-- REST_GO for DORMANT: the flush, and RESTING in the record; DORMANT_ENTRY follows (R539, R589). -/
def goDormant (s : State) : State := flood (({ flush s with power := { (flush s).power with resting := true, readySent := none } }))

/-- HOLD or NAP (R535). -/
def enterLight (s : State) (x : PowerState) : State :=
  { s with power := { s.power with state := x, fieldOn := s.power.fieldOn && x != .nap } }

/-- The agreement of a domain on REST or DORMANT begins with this package's readiness (R539); a package alone in its domain needs none. -/
def tellReady (s : State) (x : PowerState) (t : Option Nat) : State :=
  let c := (members s).foldl min s.fab.node
  ({ s with power := { s.power with readySent := some x.code } }).send (.node c) (.restReady x.code (t.getD (2 ^ 32 - 1)))

/-- A readiness that has lapsed is taken back (R539). -/
def lapseReady (s : State) : State :=
  match s.power.readySent with
  | some _ =>
    let c := (members s).foldl min s.fab.node
    ({ s with power := { s.power with readySent := none } }).send (.node c) .restCancel
  | none => s

/-- POWER_STATE_CHOOSE (R538). -/
def execPowerStateChoose (ftlDuty : Option Nat) (s : State) : Host.Outcome State Fault Refusal :=
  .next (
    if s.power.state != .run || s.power.resting || !noCommand s || s.entry.oscDead || s.entry.flushed || s.boot.stage != 3 then s
    else
      let t := nextEvent s ftlDuty
      let deep (x : PowerState) : Bool := restReady s x && pays s t x
      let want : Option PowerState := if deep .dormant then some .dormant else if deep .rest then some .rest else none
      let light (s : State) : State :=
        if pays s t .nap then arm (enterLight s .nap) t .nap else if pays s t .hold then arm (enterLight s .hold) t .hold else s
      match want with
      | some x =>
        if s.cfg 0x0A04 = 0 then arm (if x = .dormant then goDormant s else enterRest s) t x
        else light (if s.power.readySent = some x.code then s else tellReady s x t)
      | none => light (lapseReady s))

/-! ### The domain's agreement (R539) -/

/-- REST_READY at the coordinator: when every member is ready it sends REST_GO with the smallest t less 1 ms. -/
def execRestReady (node state t : Nat) (s : State) : Host.Outcome State Fault Refusal :=
  .next (
    if !(members s).contains node || !(state == 3 || state == 4) || (members s).foldl min s.fab.node != s.fab.node || !takesFrom s node then s
    else
      let ready := (s.power.ready.filter fun r => r.1 != node) ++ [(node, state, t)]
      if (members s).all fun m => ready.any fun r => r.1 == m then
        let x := (ready.map (·.2.1)).foldl min 4
        let d := (ready.map (·.2.2)).foldl min t - 1000
        (members s).foldl (fun s m => s.send (.node m) (.restGo x d)) { s with power := { s.power with ready := [] } }
      else { s with power := { s.power with ready := ready } })

/-- REST_CANCEL: no REST_GO is sent until the member is ready again. -/
def execRestCancel (node : Nat) (s : State) : Host.Outcome State Fault Refusal :=
  .next { s with power := { s.power with ready := s.power.ready.filter fun r => r.1 != node } }

/-- REST_GO: the state is entered and the wake timer armed for the delay, in µs. -/
def execRestGo (state delay : Nat) (s : State) : Host.Outcome State Fault Refusal :=
  .next (
    if s.power.resting || s.power.state == .rest || s.power.state == .dormant || !(state == 3 || state == 4) || (state == 4 && !s.hasNand) then s
    else
      let s1 := if state = 3 then enterRest s else goDormant s
      { s1 with power := { s1.power with wakeAt := some (s.aon + usAon delay) } })

/-! ### Waking (R536, R540, R541) -/

/-- With the Junction dies on, every link the plan uses trains again (R434, R437). -/
def startLinks (s : State) : State :=
  (List.range 36).foldl (fun s l =>
    if planUse (s.plan l) ≠ 0 ∧ (s.link l).state == .down then s.setLink l { s.link l with since := s.aon, retryAt := max 1 s.aon } else s) s

/-- RUN follows from HOLD, NAP or REST: the gated dies are powered again (the Field dies not during an input outage, R637), the wake timer is disarmed, RESTING
ends. -/
def wakeRun (s : State) : State :=
  let from_ := s.power.state
  let s1 := { s with power := { s.power with
    state := .run, fieldOn := !s.entry.flushed, junctionOn := true, wakeAt := none, resting := false }, twin := { s.twin with hbSeenAt := s.aon } }
  let s2 := if from_ = .rest then startLinks (powerEvent s1 3 0) else s1
  if s.power.resting then flood s2 else s2

/-- WAKE_EVENT: a CTL packet wakes from HOLD and NAP; a mailbox CTRL write or a sideband message from REST too (R414, R432, R536). A write of a function that is
not enabled reaches nothing. -/
def execWakeEvent (k : WakeKind) (s : State) : Host.Outcome State Fault Refusal :=
  .next (
    let light := s.power.state == .hold || s.power.state == .nap
    let wakes := match k with
      | .ctlPacket => light
      | .mailboxCtrl f => (light || s.power.state == .rest) && (s.fn f).enabled
      | .sideband => light || s.power.state == .rest
    if wakes && !s.entry.oscDead then lapseReady (wakeRun s) else s)

end Sys2Proof.Machine
end

