-- ==== Sys2Proof/Machine/SysMsg.lean ====
section
/-!
DEFINITION. The messages of class SYS and those of classes ENG and FAB that act on the package as a whole (R371, R420, R422, R425, R427, R451, R479, R503, R512, R532,
R537, R579 to R584, R586, R652).
-/

namespace Sys2Proof.Machine

/-! ### Settings (R427, R579 to R583) -/

/-- A settings field changed on the running package: it has changed since the last commit, and WDOG_US reaches every core at once (R579). -/
def setCfg (s : State) (id v : Nat) : State :=
  let st := s.settings.set id v
  let st := { st with changed := if st.changed.contains id then st.changed else st.changed ++ [id] }
  let s1 := { s with settings := st }
  if id = 0x0101 then { s1 with cores := s1.cores.map fun e => (e.1, { e.2 with wdog := none }) } else s1

/-- Whether a field names a unit this grade lacks (R2, R579). -/
def fieldAbsent (s : State) (id : Nat) : Bool :=
  ((id == 0x0904 || id == 0x0905) && !s.hasLockstep) || (id == 0x0A0D && !s.hasNand) || ((id == 0x0C01 || id == 0x0C02) && !s.hasCxl)

/-- Whether a FIELD_ID is one of LINK_PLAN[0..35]. -/
def isPlanField (id : Nat) : Bool := decide (0x0810 ≤ id ∧ id < 0x0834)

/-- Whether a J field may not change now: a context is RESIDENT, or a request open (R582). -/
def jobBusy (s : State) : Bool := s.srv.ctxs.any (fun c => c.2.state == .resident) || s.srv.ledger.any fun e => e.2.isOpen && !e.2.mirror

/-- The links whose entry a plan changes, as FAB.LINK_PLAN leaves them: DOWN, to be trained again where the plan uses them (R434, R451). -/
def applyPlan (s : State) (plan : List Nat) : State :=
  let diff := (List.range 36).filter fun l => nth 0 plan l != s.plan l
  let s1 := diff.foldl linkDown s
  let s2 := diff.foldl (fun s l => setCfg s (0x0810 + l) (nth 0 plan l)) s1
  diff.foldl (fun s l => s.setLink l { s.link l with
    state := .down, twoLane := false, miswired := false, peer := 0, peerLink := 0, since := s.aon, retryAt := if planUse (nth 0 plan l) = 0 then 0 else max 1 s.aon
    replay := [], resync := none, changing := planUse (nth 0 plan l) != 0 }) s2

/-- The entries of a SETTINGS_SET message, in index order: FIELD_ID and VALUE. -/
def setEntries (m : Msg) : List (Nat × Nat) :=
  (List.range (ble m.payload 0 2)).map fun i => (ble m.payload (8 + 16 * i) 2, ble m.payload (16 + 16 * i) 8)

/-- The first check an entry fails (R427). -/
def entryFail (s : State) (e : Nat × Nat) : Option Nat :=
  match fieldDef e.1 with
  | none => some stBAD_FIELD
  | some d =>
    if fieldReadOnly e.1 ∨ 2 ^ d.width ≤ e.2 then some stBAD_FIELD
    else if fieldAbsent s e.1 then some stUNIT_ABSENT
    else if d.job ∧ jobBusy s then some stCTX_BUSY
    else none

/-- The plan as a message's LINK_PLAN entries would leave it. -/
def planAfter (s : State) (l : List (Nat × Nat)) : List Nat :=
  l.foldl (fun p e => if isPlanField e.1 then setNth p (e.1 - 0x0810) e.2 else p) s.planAll

/-- Every entry applied in index order; the link plan as FAB.LINK_PLAN, and PAIR sent again after a J change (R427, R579, R582). -/
def applyEntries (s : State) (l : List (Nat × Nat)) : State :=
  let s1 := (l.filter fun e => !isPlanField e.1).foldl (fun s e => setCfg s e.1 e.2) s
  let s2 := if l.any fun e => isPlanField e.1 then applyPlan s1 (planAfter s l) else s1
  if l.any fun e => match fieldDef e.1 with | some d => d.job | none => false then sendPair s2 else s2

/-- The position of the first element that satisfies a test. -/
def firstIdx {α : Type} (p : α → Bool) (l : List α) (i : Nat) : Option Nat :=
  match l with
  | [] => none
  | x :: r => if p x then some i else firstIdx p r (i + 1)

/-- SYS.SETTINGS_SET (R427): all of the entries or none. -/
def bodySysSettingsSet (s : State) (m : Msg) : State :=
  let l := setEntries m
  let no (st i : Nat) : State := reply s 0x0103 m st (leBytes 2 i)
  match firstIdx (fun e => (entryFail s e).isSome) l 0 with
  | some i => no ((entryFail s (nth (0, 0) l i)).getD stBAD_FIELD) i
  | none => match firstIdx (fun e => isPlanField e.1) l 0 with
    | some i => if planOk s.fab.node (planAfter s l) then reply (applyEntries s l) 0x0103 m stOK [] else no stBAD_FIELD i
    | none => reply (applyEntries s l) 0x0103 m stOK []

/-- SYS_SETTINGS_SET. -/
def execSysSettingsSet (m : Msg) (s : State) : Host.Outcome State Fault Refusal := .next (settle (serve s 0x0103 m bodySysSettingsSet))

/-- The value SYS.SETTINGS_GET returns for a field: as applied, after clamping; the read-only fields are those of STW_BOOT_STAT (R579, R581, R592). -/
def fieldValue (s : State) (id : Nat) : Nat :=
  match id with
  | 1 => s.settings.src
  | 2 => s.settings.seq
  | 3 => s.boot.bootCount
  | 4 => s.boot.cause
  | _ => s.cfg id

/-- SYS.SETTINGS_GET (R420, R652). -/
def bodySysSettingsGet (s : State) (m : Msg) : State :=
  let ids := (List.range (ble m.payload 0 2)).map fun i => ble m.payload (8 + 2 * i) 2
  if 255 < ids.length then reply s 0x0102 m stBAD_FIELD []
  else match firstIdx (fun id => (fieldDef id).isNone && !fieldReadOnly id) ids 0 with
    | some i => reply s 0x0102 m stBAD_FIELD (leBytes 2 i)
    | none => reply s 0x0102 m stOK (leBytes 2 ids.length ++ zeros 6 ++ ids.flatMap fun id =>
        leBytes 2 id ++ leBytes 2 (b2n (s.settings.changed.contains id) + 2 * b2n (s.settings.ignored.contains id)) ++ zeros 4 ++
        leBytes 8 (fieldValue s id))

/-- SYS_SETTINGS_GET. -/
def execSysSettingsGet (m : Msg) (s : State) : Host.Outcome State Fault Refusal := .next (settle (serve s 0x0102 m bodySysSettingsGet))

/-! ### Settings banks (R576, R577, R583, R584) -/

/-- NOR address of settings bank b. -/
def bankAt (b : Nat) : Nat := 0x02230000 + b * 0x10000

/-- A bank's bytes with the CRC field taken as given. -/
def bankBytes (seq serial crc : Nat) (l : List (Nat × Nat)) : List Byte :=
  leBytes 4 0x54534B58 ++ leBytes 2 1 ++ leBytes 2 l.length ++ leBytes 4 seq ++ leBytes 4 crc ++ leBytes 8 serial ++ zeros 40 ++
  l.flatMap fun e => leBytes 2 e.1 ++ zeros 6 ++ leBytes 8 e.2

/-- A bank with its CRC (R576). -/
def sealBank (seq serial : Nat) (l : List (Nat × Nat)) : List Byte := bankBytes seq serial (crc32c (bankBytes seq serial 0 l)).toNat l

/-- The entries of a bank in the NOR, as far as its COUNT goes. -/
def bankEntries (s : State) (b : Nat) : List (Nat × Nat) :=
  (List.range (leNat (norRead s (bankAt b + 6) 2))).map fun i =>
    (leNat (norRead s (bankAt b + 64 + 16 * i) 2), leNat (norRead s (bankAt b + 72 + 16 * i) 8))

/-- The entries a commit writes: the fields that differ from their factory values, and the in-use bank's entries of ignored fields, by FIELD_ID. -/
def commitEntries (s : State) (st : Settings) : List (Nat × Nat) :=
  let old := if st.src = 0 then [] else (bankEntries s (st.src - 1)).filter fun e => st.ignored.contains e.1
  sortBy (fun (a b : Nat × Nat) => decide (a.1 < b.1)) ((st.run.filter fun e => !st.ignored.contains e.1).map (fun e => (e.1, e.2.toNat)) ++ old)

/-- SYS.SETTINGS_COMMIT begins: the running settings are snapshot (R583). With the in-use SEQUENCE at its largest it fails (R584). -/
def bodySysSettingsCommit (s : State) (m : Msg) : State :=
  if s.settings.seq = 0xFFFFFFFF then reply s 0x0104 m stCOMMIT_FAILED []
  else
    let s1 := beginDeferred s 0x0104 m 0
    { s1 with boot := { s1.boot with commits := s1.boot.commits ++ [(m.path, m.tag, s.settings)] } }

/-- SYS_SETTINGS_COMMIT. -/
def execSysSettingsCommit (m : Msg) (s : State) : Host.Outcome State Fault Refusal := .next (settle (serveDeferred s 0x0104 m bodySysSettingsCommit))

/-- The bank a commit writes: the one not in use, bank 0 on factory values. -/
def commitBank (s : State) : Nat := if s.settings.src = 1 then 1 else 0

/-- SYS.SETTINGS_COMMIT ends: the oldest one, with the bank erased, programmed and verified, or not (`ok` false): then the bank in use stays in use (R583, R584). -/
def doneSysSettingsCommit (s : State) (d : Deferred) (ok : Bool) : State :=
  match s.boot.commits with
  | [] => endDeferred s d stCOMMIT_FAILED []
  | c :: rest =>
    if c.1 ≠ d.msg.path ∨ c.2.1 ≠ d.msg.tag then s
    else
      let b := commitBank s
      let seq := s.settings.seq + 1
      let s1 := { s with boot := { s.boot with commits := rest } }
      let s2 := norErase s1 (bankAt b)
      if !ok ∨ 0xFFFFFFFF < seq then endDeferred (if ok then s1 else s2) d stCOMMIT_FAILED []
      else
        let s3 := norWrite s2 (bankAt b) (sealBank seq s.pkg.serial (commitEntries s c.2.2))
        endDeferred { s3 with settings := { s3.settings with
          src := b + 1, seq := seq, changed := s3.settings.changed.filter fun id => s3.settings.raw id != c.2.2.raw id } } d stOK
          (leBytes 1 b ++ zeros 3 ++ leBytes 4 seq)

/-! ### Capabilities, tenants, reset, wake -/

/-- SYS.CAPS (R425). -/
def bodySysCaps (s : State) (m : Msg) : State := reply s 0x0101 m stOK (capRecord s (pathFn m.path))

/-- SYS_CAPS. -/
def execSysCaps (m : Msg) (s : State) : Host.Outcome State Fault Refusal := .next (settle (serve s 0x0101 m bodySysCaps))

/-- The entry SYS.TENANT_SET leaves (R371). -/
def tenantSet (t : Tenant) (aon refill win cap : Nat) : Tenant :=
  if t.winUs = 0 then
    if win = 0 then { t with refill := refill, winUs := 0, cap := cap }
    else { refill := refill, winUs := win, cap := cap, balance := cap, next := aon + 4 * win }
  else { t with refill := refill, winUs := win, cap := cap, balance := min t.balance (cap : Int) }

/-- SYS.TENANT_SET. -/
def bodySysTenantSet (s : State) (m : Msg) : State :=
  let i := ble m.payload 0 2
  if 4096 ≤ i then reply s 0x0105 m stBAD_FIELD []
  else
    let t := tenantSet (s.tenant i) s.aon (ble m.payload 8 4) (ble m.payload 12 4) (ble m.payload 16 8)
    reply (putTenant s i t) 0x0105 m stOK (tenantBytes t)

/-- SYS_TENANT_SET. -/
def execSysTenantSet (m : Msg) (s : State) : Host.Outcome State Fault Refusal := .next (settle (serve s 0x0105 m bodySysTenantSet))

/-- SYS.TENANT_GET. -/
def bodySysTenantGet (s : State) (m : Msg) : State :=
  let i := ble m.payload 0 2
  if 4096 ≤ i then reply s 0x0106 m stBAD_FIELD [] else reply s 0x0106 m stOK (tenantBytes (s.tenant i))

/-- SYS_TENANT_GET. -/
def execSysTenantGet (m : Msg) (s : State) : Host.Outcome State Fault Refusal := .next (settle (serve s 0x0106 m bodySysTenantGet))

/-- TWIN_YIELD: sent before this package stops serving of its own accord (R486). -/
def yield_ (s : State) : State :=
  match s.twinNode with
  | some n => if s.twin.state = .unpaired then s else s.send (.node n) .twinYield
  | none => s

/-- Every REQ.DONE still to be posted, with the tokens before it (R586). -/
def postEnds (s : State) : State :=
  (tkeys (s.srv.ledger.filter fun e => e.2.state != .free && !e.2.isOpen && !e.2.posted && !e.2.mirror)).foldl (fun s i => postWaiting s i (2 ^ 64)) s

/-- The three steps before a warm reset: TWIN_YIELD, the end of every request, the flush (R586). -/
def warmFirst (s : State) : State := flush (postEnds (endAll (yield_ s) stPARTITION_RESET fun _ => true))

/-- A warm reset ordered: RESETTING is set, and its three steps are taken; the reset itself is WARM_RESET. -/
def orderReset (s : State) (cause : Nat) : State :=
  let s1 := warmFirst { s with mbx := { s.mbx with resetting := true } }
  { s1 with boot := { s1.boot with resetWait := some cause, resetSteps := true } }

/-- SYS.RESET: the response first, then the reset is ordered (R586, R652). -/
def bodySysReset (s : State) (m : Msg) : State :=
  if ble m.payload 0 1 ≠ 1 then reply s 0x0107 m stBAD_FIELD []
  else
    orderReset (reply s 0x0107 m stOK []) 3

/-- SYS_RESET. -/
def execSysReset (m : Msg) (s : State) : Host.Outcome State Fault Refusal := .next (settle (serve s 0x0107 m bodySysReset))

/-! ### Energy and power -/

/-- ENG.CAP_SET (R532). -/
def bodyEngCapSet (s : State) (m : Msg) : State :=
  let w := ble m.payload 0 2
  if w < 1200 ∨ 3800 < w then reply s 0x0701 m stBAD_FIELD [] else reply (setCfg s 0x0A01 w) 0x0701 m stOK []

/-- ENG_CAP_SET. -/
def execEngCapSet (m : Msg) (s : State) : Host.Outcome State Fault Refusal := .next (settle (serve s 0x0701 m bodyEngCapSet))

/-- ENG.PACE_SET (R532). FREQ_MHZ counts with MODE 1 only. -/
def bodyEngPaceSet (s : State) (m : Msg) : State :=
  let mode := ble m.payload 0 1
  let f := ble m.payload 2 2
  if 1 < mode ∨ mode = 1 ∧ (f % 25 ≠ 0 ∨ f < 1000 ∨ 2000 < f) then reply s 0x0702 m stBAD_FIELD []
  else
    let s1 := setCfg s 0x0A02 mode
    reply (if mode = 1 then setCfg s1 0x0A03 f else s1) 0x0702 m stOK []

/-- ENG_PACE_SET. -/
def execEngPaceSet (m : Msg) (s : State) : Host.Outcome State Fault Refusal := .next (settle (serve s 0x0702 m bodyEngPaceSet))

/-- ENG.STATUS (R512). -/
def bodyEngStatus (s : State) (m : Msg) : State :=
  reply s 0x0703 m stOK (leBytes 1 s.power.state.code ++ leBytes 1 (s.cfg 0x0A02) ++ leBytes 2 (s.cfg 0x0A01) ++ leBytes 2 s.power.freq ++ zeros 2 ++
    leBytes 4 s.energy.powerMw ++ zeros 4 ++ leBytes 8 s.energy.inputUj)

/-- ENG_STATUS. -/
def execEngStatus (m : Msg) (s : State) : Host.Outcome State Fault Refusal := .next (settle (serve s 0x0703 m bodyEngStatus))

/-- ENG.ANNOUNCE (R537). -/
def bodyEngAnnounce (s : State) (m : Msg) : State :=
  let d := ble m.payload 0 4
  let f := pathFn m.path
  reply (s.setFn f { s.fn f with announce := if d = 0xFFFFFFFF then none else some (s.aon + 4 * d) }) 0x0704 m stOK []

/-- ENG_ANNOUNCE. -/
def execEngAnnounce (m : Msg) (s : State) : Host.Outcome State Fault Refusal := .next (settle (serve s 0x0704 m bodyEngAnnounce))

/-! ### Fabric -/

/-- FAB.LINK_PLAN begins: changed links go DOWN (R451). -/
def bodyFabLinkPlan (s : State) (m : Msg) : State :=
  let plan := (List.range 36).map fun l => ble m.payload (4 * l) 4
  if planOk s.fab.node plan then beginDeferred (applyPlan s plan) 0x0801 m 0 else reply s 0x0801 m stBAD_FIELD []

/-- FAB_LINK_PLAN. -/
def execFabLinkPlan (m : Msg) (s : State) : Host.Outcome State Fault Refusal := .next (settle (serveDeferred s 0x0801 m bodyFabLinkPlan))

/-- FAB.LINK_PLAN responds once each changed link has left TRAINING; one that nothing answers has, after TRAIN_MS (R434, R451). -/
def doneFabLinkPlan (s : State) (d : Deferred) : State :=
  let waits (k : Link) : Bool := k.changing && (k.state == .training || (k.state == .down && decide (s.aon < k.since + trainTime s)))
  if s.fab.links.any (fun e => waits e.2) then s
  else endDeferred { s with fab := { s.fab with links := s.fab.links.map fun e => (e.1, { e.2 with changing := false }) } } d stOK []

/-- FAB.STATUS (R422). -/
def bodyFabStatus (s : State) (m : Msg) : State :=
  reply s 0x0802 m stOK (leBytes 1 s.fab.node ++ zeros 1 ++ leBytes 2 s.fab.ownRole ++ zeros 4 ++
    (List.range 36).flatMap (fun l => leBytes 1 (s.link l).state.code) ++ zeros 4)

/-- FAB_STATUS. -/
def execFabStatus (m : Msg) (s : State) : Host.Outcome State Fault Refusal := .next (settle (serve s 0x0802 m bodyFabStatus))

/-- FAB.TWIN_STATUS (R479). -/
def bodyFabTwinStatus (s : State) (m : Msg) : State :=
  reply s 0x0803 m stOK (leBytes 1 s.twin.state.code ++ leBytes 1 (s.twinNode.getD 0) ++ zeros 6)

/-- FAB_TWIN_STATUS. -/
def execFabTwinStatus (m : Msg) (s : State) : Host.Outcome State Fault Refusal := .next (settle (serve s 0x0803 m bodyFabTwinStatus))

/-- FAB.LOCKSTEP_SET (R503). -/
def bodyFabLockstepSet (s : State) (m : Msg) : State :=
  let c := ble m.payload 0 1
  let e := ble m.payload 1 1
  let no (st : Nat) : State := reply s 0x0804 m st []
  if !s.hasLockstep then no stUNIT_ABSENT
  else if 1 < e then no stBAD_FIELD
  else if s.twin.state ≠ .paired then no stNOT_PAIRED
  else if (s.ctx c).state = .none then no stCTX_UNKNOWN
  else reply (s.setCtx c { s.ctx c with lockstep := e == 1 }) 0x0804 m stOK []

/-- FAB_LOCKSTEP_SET. -/
def execFabLockstepSet (m : Msg) (s : State) : Host.Outcome State Fault Refusal := .next (settle (serve s 0x0804 m bodyFabLockstepSet))

end Sys2Proof.Machine
end

