-- ==== Sys2Proof/Machine/ParMsg.lean ====
section
/-!
DEFINITION. The messages of classes PAR and REQ (R262, R285, R355, R360 to R370, R376, R379 to R385, R424, R550, R652).
-/

namespace Sys2Proof.Machine

/-! ### PAR.CREATE (R261, R379, R420, R652) -/

/-- NEAR, KV and BENCH of stack k as a message gives them. -/
def crNear (m : Msg) (k : Nat) : Nat := ble m.payload (0x30 + 6 * k) 2
def crKv (m : Msg) (k : Nat) : Nat := ble m.payload (0x32 + 6 * k) 2
def crBench (m : Msg) (k : Nat) : Nat := ble m.payload (0x34 + 6 * k) 2

/-- The partition a message describes, its bases given. -/
def createdPart (old : Part) (aon : Nat) (m : Msg) (bases : List Nat) : Part :=
  let b := m.payload
  { Part.reset with
    state := .active, fn := ble b 0 1, residency := ble b 1 1, park := ble b 2 1, linkShare := ble b 3 1, share := ble b 4 2, kvFrame := ble b 6 2
    rows := BitVec.ofNat 64 (ble b 8 8), cslots := ble b 0x10 2, cslotMib := ble b 0x12 2, rpages := ble b 0x14 2, aslots := ble b 0x16 1
    kvFmt := ble b 0x17 1, aslotMib := ble b 0x18 2, quotaCxl := ble b 0x1C 4, quotaNand := ble b 0x20 4
    ranges := (List.range 12).map fun k => ⟨crNear m k, crKv m k, crBench m k, nth 0 bases k⟩
    stats := old.stats, reportAt := aon }

/-- The head widths of a partition's models; with none loaded the least width a list can have (R259, R262). -/
def headWidths (p : Part) : List Nat := if p.bundles.isEmpty then [32] else p.bundles.map (·.man.headWidth)

/-- Whether a partition may have a KV write format (R262). -/
def kvFmtOk (p : Part) (fmt : Nat) : Bool := kvCode fmt && (headWidths p).all fun d => decide (kvPageBytes fmt d ≤ p.kvFrame * 1024)

/-- The positions at which a range of `n` units fits on a stack (R180). -/
def freeBases (s : State) (st n : Nat) : List Nat :=
  (List.range (32768 - 128 + 1 - n)).filterMap fun i =>
    let b := 128 + i
    if (List.range 16).any fun q => mapEn (mapWord s q st) && overlap b n (mapBase (mapWord s q st)) (mapSize (mapWord s q st)) then none else some b

/-- A base for each stack, each one any that fits (log 10); none where some stack has no room. -/
def pickBases (n : Nat) (s : State) (m : Msg) (acc : List Nat) : Option (List Nat × State) :=
  match n with
  | 0 => some (acc, s)
  | n + 1 =>
    let k := acc.length
    if crNear m k = 0 then pickBases n s m (acc ++ [0])
    else match pickOne s (if 32640 < crNear m k then [] else freeBases s k (crNear m k)) with
      | some r => pickBases n r.2 m (acc ++ [r.1])
      | none => none

/-- What fails PAR.CREATE but for the ranges. -/
def createFail (s : State) (m : Msg) : Option Nat :=
  let p := createdPart Part.reset 0 m []
  let others := (s.parts.filter fun e => e.2.state != .free).map (·.2)
  if 15 < p.fn ∨ 2 < p.residency ∨ 2 < p.park ∨ 64 < p.linkShare ∨ 64 < p.aslots ∨ p.rows = 0 ∨ !kvFmtOk p p.kvFmt ∨
      p.ranges.any (fun r => decide (r.near < r.kv + r.bench)) then some stBAD_FIELD
  else if s.pkg.variant = .C ∧ (p.residency ≠ 0 ∨ p.park = 1) then some stUNIT_ABSENT
  else if partExists s m.part ∨ others.any (fun q => q.fn == p.fn) ∨ others.any (fun q => q.rows &&& p.rows != 0) ∨
      64 < others.foldl (fun a q => a + q.linkShare) p.linkShare ∨
      (List.range 64).any (fun r => bit p.rows r && (s.starter r).unavailable) ∨
      (List.range 12).any (fun k => decide (0 < crNear m k ∧ crNear m k < crKv m k + crBench m k + fixedUnits p k)) then some stNO_SPACE
  else none

/-- The rows of a partition as starter numbers. -/
def rowList (w : Word64) : List Nat := (List.range 64).filter (bit w)

/-- A partition's map entry and ring on one Beside die; which of its starters owns the ring the captain decides (log 10). -/
def openDie (s : State) (p k base : Nat) (m : Msg) (rows : List Nat) : State :=
  if crNear m k = 0 then s
  else
    let r := (pickOne s rows).getD (0, s)
    let b := r.2.bdie k
    r.2.setBdie k { b with
      map := tput b.map p (mkWord [(0, 1), (1, nbits (ble m.payload 4 2) k k), (16, base), (32, crNear m k)])
      rings := tput b.rings p { Ring.reset with owner := BitVec.ofNat 6 r.1, en := true } }

/-- PAR.CREATE begins: FREE becomes ACTIVE, part maps, rings and protections are written (R381); the bases wait in the deferred command's note. -/
def bodyParCreate (s : State) (m : Msg) : State :=
  match createFail s m with
  | some st => reply s 0x0201 m st []
  | none => match pickBases 12 s m [] with
    | none => reply s 0x0201 m stNO_SPACE []
    | some (bases, s1) =>
      let p := createdPart (s.part m.part) s.aon m bases
      let s2 := s1.setPart m.part p
      let s3 := (List.range 12).foldl (fun s k => openDie s m.part k (nth 0 bases k) m (rowList p.rows)) s2
      beginDeferred s3 0x0201 m (leNat (bases.flatMap (leBytes 2)))

/-- PAR_CREATE. -/
def execParCreate (m : Msg) (s : State) : Host.Outcome State Fault Refusal := .next (settle (serveDeferred s 0x0201 m bodyParCreate))

/-- PAR.CREATE ends with the bases. -/
def doneParCreate (s : State) (d : Deferred) : State := endDeferred s d stOK (leBytes 24 d.note)

/-! ### Ends of a partition (R381, R590, R591) -/

/-- The contexts of a partition destroyed, the watches on them disarmed (R619). -/
def destroyCtxs (s : State) (p : Nat) : State :=
  let l := partCtxs s p
  { s with
    srv := { s.srv with ctxs := s.srv.ctxs.filter fun e => !l.contains e.1 }
    dport := { s.dport with watches := s.dport.watches.filter fun w => !l.contains w.ctx } }

/-- Every session of a partition closed: those homed here everywhere, those of other homes dropped here. -/
def closeSessions (s : State) (p : Nat) : State :=
  let mine := tkeys (s.srv.sessions.filter fun e => e.2.isOpen && e.2.part == p && (e.2.home == s.fab.ownRole || s.hasRole e.2.home))
  let s1 := mine.foldl closeSession s
  let rest := tkeys (s1.srv.maps.filter fun e => e.2.part == p)
  let s2 := rest.foldl (fun s k => if (s.map k).present then dropSession s k else s) s1
  { s2 with srv := { s2.srv with
      maps := s2.srv.maps.filter fun e => e.2.part != p
      mirrors := s2.srv.mirrors.filter fun e => e.2.part != p } }

/-- Every request of a partition ended, then every heat of it cancelled (R317, R381). -/
def haltPart (s : State) (p status : Nat) : State :=
  let s1 := (tkeys (s.srv.ledger.filter fun e => e.2.isOpen && !e.2.mirror && e.2.part == p)).foldl (fun s i => endOne s i status) s
  (tkeys (s1.srv.heats.filter fun h => h.2.live && h.2.desc.part == p)).foldl cancelHeat s1

/-- The cores of some rows as a partition reset leaves them: their statistics and debug control kept (R590). -/
def clearRows (s : State) (rows : Word64) : State :=
  { s with
    cores := s.cores.map fun e => (e.1, if bit rows (starterOf e.1) then e.2.cleared else e.2)
    starters := s.starters.map fun e => (e.1, if bit rows e.1 then { Starter.reset with unavailable := e.2.unavailable } else e.2) }

/-- A partition's beside rings emptied, enabled as they were. -/
def clearRings (s : State) (p : Nat) : State :=
  { s with beside := s.beside.map fun d => (d.1, { d.2 with rings := d.2.rings.map fun r =>
      (r.1, if r.1 = p then { Ring.reset with owner := r.2.owner, en := r.2.en } else r.2) }) }

/-- PAR.STOP begins (R381). -/
def bodyParStop (s : State) (m : Msg) : State :=
  let p := mp s m
  let s1 := if (s.part p).state = .active then
      let s2 := haltPart s p stPARTITION_STOPPED
      s2.setPart p { s2.part p with state := .stopped }
    else s
  beginDeferred s1 0x0203 m 0

/-- PAR_STOP. -/
def execParStop (m : Msg) (s : State) : Host.Outcome State Fault Refusal := .next (settle (serveDeferred s 0x0203 m bodyParStop))

/-- PAR.START begins (R381). -/
def bodyParStart (s : State) (m : Msg) : State :=
  let p := mp s m
  beginDeferred (s.setPart p { s.part p with state := .active }) 0x0204 m 0

/-- PAR_START. -/
def execParStart (m : Msg) (s : State) : Host.Outcome State Fault Refusal := .next (settle (serveDeferred s 0x0204 m bodyParStart))

/-- PAR.RESET begins: the partition reset (R381, R585, R590). -/
def bodyParReset (s : State) (m : Msg) : State :=
  let p := mp s m
  let s1 := closeSessions (destroyCtxs (haltPart s p stPARTITION_RESET) p) p
  let s2 := clearRings (clearRows s1 (s.part p).rows) p
  let x := s2.part p
  beginDeferred (s2.setPart p { x with state := .active, frames := [], evict := none, swapTimes := [] }) 0x0205 m 0

/-- PAR_RESET. -/
def execParReset (m : Msg) (s : State) : Host.Outcome State Fault Refusal := .next (settle (serveDeferred s 0x0205 m bodyParReset))

/-- PAR.STOP, PAR.START and PAR.RESET respond when the state change is complete (R652). -/
def donePar (s : State) (d : Deferred) : State := endDeferred s d stOK []

/-- PAR.DESTROY: a STOPPED partition without context and generation becomes FREE, all its resources released (R381). A partition that is FREE already has
nothing to destroy: BAD_FIELD (log 47). -/
def bodyParDestroy (s : State) (m : Msg) : State :=
  let p := m.part
  let x := s.part p
  if x.state = .free then reply s 0x0202 m stBAD_FIELD []
  else if x.state ≠ .stopped ∨ !(partCtxs s p).isEmpty ∨ !x.gens.isEmpty then reply s 0x0202 m stPARTITION_BUSY []
  else
    let s1 := closeSessions s p
    let s2 := freeObjects s1 (tkeys (s1.far.objs.filter fun o => o.2.present && o.2.part == p))
    let s3 := { s2 with beside := s2.beside.map fun (d : Nat × BesideDie) => (d.1, { d.2 with
      map := tdel d.2.map p, rings := tdel d.2.rings p, wp := d.2.wp.filter fun e => e.1 / 8 != p }) }
    reply (s3.setPart p { Part.reset with stats := x.stats }) 0x0202 m stOK []

/-- PAR_DESTROY. -/
def execParDestroy (m : Msg) (s : State) : Host.Outcome State Fault Refusal := .next (settle (serve s 0x0202 m bodyParDestroy))

/-! ### Contexts (R380, R383 to R385) -/

/-- Why a message may not act on a context: there is none, or it is another partition's (R380). -/
def ctxFail (s : State) (p c : Nat) : Option Nat :=
  if (s.ctx c).state = .none then some stCTX_UNKNOWN else if (s.ctx c).part ≠ p then some stOUT_OF_PARTITION else none

/-- Whether a bundle's windows or hurdle ranges at a slot index overlap, on a shared core, those of a context of another index (R383). -/
def windowClash (s : State) (man : Manifest) (slot : Nat) : Bool :=
  let view (w : Word64) : SlotSt := { SlotSt.reset with cfg := w }
  let clash (x y : SlotSt) : Bool := overlap x.spb x.sps y.spb y.sps || overlap x.acb x.acs y.acb y.acs || overlap x.hbase x.hcount y.hbase y.hcount
  s.srv.ctxs.any fun e => e.2.state != .none && e.2.slot != slot &&
    (footprint s e.1).any fun f => man.footprint.any fun g => f.1 == g.1 && clash (view f.2) (view g.2)

/-- Bytes of a bundle's bench image on a Field die (R384). -/
def benchBytes (man : Manifest) (die : Nat) : Nat :=
  (man.footprint.filter fun f => coreDie f.1 == die).foldl (fun a f => a + bits f.2 42 33 * 4096 + bits f.2 63 53 * 256 + 1024) 0

/-- Whether one more bench image fits the partition's bench area of the stacks attached to each Field die (R29, R384). -/
def benchFits (s : State) (p : Nat) (man : Manifest) : Bool :=
  (List.range 4).all fun die =>
    let area := (List.range 3).foldl (fun a k => a + (match (s.part p).ranges[3 * die + k]? with | some r => r.bench | none => 0)) 0
    decide ((partCtxs s p).foldl (fun a c => a + imageBytes s c die) (benchBytes man die) ≤ area * unit2M)

/-- PAR.CTX_CREATE (R383). -/
def bodyParCtxCreate (s : State) (m : Msg) : State :=
  let p := mp s m
  let model := ble m.payload 0 8
  let prio := ble m.payload 8 1
  let slot := ble m.payload 9 1
  let no (st : Nat) : State := reply s 0x0206 m st []
  if 3 < prio ∨ 3 < slot then no stBAD_FIELD
  else match (s.part p).bundles.find? fun b => b.model == model with
    | none => no stMODEL_UNKNOWN
    | some b => match pickOne s ((List.range 256).filter fun c => (s.ctx c).state == .none) with
      | none => no stNO_SPACE
      | some (c, s1) =>
        if windowClash s b.man slot || !benchFits s p b.man then no stNO_SPACE
        else reply (s1.setCtx c { Ctx.reset with state := .benched, part := p, model := model, prio := prio, slot := slot }) 0x0206 m stOK (leBytes 1 c)

/-- PAR_CTX_CREATE. -/
def execParCtxCreate (m : Msg) (s : State) : Host.Outcome State Fault Refusal := .next (settle (serve s 0x0206 m bodyParCtxCreate))

/-- PAR.CTX_DESTROY: a resident context without requests lets its slots go first (R385). -/
def bodyParCtxDestroy (s : State) (m : Msg) : State :=
  let c := ble m.payload 0 1
  let p := mp s m
  match ctxFail s p c with
  | some st => reply s 0x0207 m st []
  | none =>
    let x := s.ctx c
    if s.srv.ledger.any fun e => e.2.isOpen && !e.2.mirror && e.2.ctx == c then reply s 0x0207 m stCTX_BUSY []
    else
      let s1 := if x.state = .resident then
          (footprint s c).foldl (fun s f => slotUnbind (slotStop (slotClear s f.1 x.slot) f.1 x.slot) f.1 x.slot) s
        else s
      let q := s1.part p
      let s2 := s1.setPart p { q with evict := match q.evict with | some e => if e.victim = c then none else some e | none => none }
      reply { s2 with
        srv := { s2.srv with ctxs := tdel s2.srv.ctxs c }
        dport := { s2.dport with watches := s2.dport.watches.filter fun w => w.ctx != c } } 0x0207 m stOK []

/-- PAR_CTX_DESTROY. -/
def execParCtxDestroy (m : Msg) (s : State) : Host.Outcome State Fault Refusal := .next (settle (serve s 0x0207 m bodyParCtxDestroy))

/-- PAR.KV_FMT_SET: the code sessions take at their next lap (R262). -/
def bodyParKvFmtSet (s : State) (m : Msg) : State :=
  let p := mp s m
  let f := ble m.payload 0 1
  if kvFmtOk (s.part p) f then reply (s.setPart p { s.part p with kvFmt := f }) 0x020A m stOK [] else reply s 0x020A m stBAD_FIELD []

/-- PAR_KV_FMT_SET. -/
def execParKvFmtSet (m : Msg) (s : State) : Host.Outcome State Fault Refusal := .next (settle (serve s 0x020A m bodyParKvFmtSet))

/-! ### REQ.SUBMIT (R360 to R370, R376, R423, R424, R550) -/

def suCtx (m : Msg) : Nat := ble m.payload 0 1
def suHost (m : Msg) : Bool := nbits (ble m.payload 1 1) 0 0 = 1
def suPrefix (m : Msg) : Bool := nbits (ble m.payload 1 1) 1 1 = 1
def suTenant (m : Msg) : Nat := ble m.payload 2 2
def suSession (m : Msg) : Nat := ble m.payload 4 4
def suPrefSess (m : Msg) : Nat := ble m.payload 8 4
def suStops (m : Msg) : Nat := ble m.payload 0xE 1
def suMaxNew (m : Msg) : Nat := ble m.payload 0x10 4
def suPrompt (m : Msg) : Nat := ble m.payload 0x14 4
def suStop (m : Msg) (k : Nat) : Nat := ble m.payload (0x30 + 4 * k) 4

/-- Positions a session already has (R368). -/
def suHeld (s : State) (m : Msg) : Nat := match sessIdx s (suSession m) with | some i => (s.sess i).tokens.length | none => 0

/-- The first of R424's checks that fails, up to the queue's; a STOPPED partition takes no request (R381). -/
def submitFail (s : State) (m : Msg) : Option Nat :=
  let p := mp s m
  let t := s.tenant (suTenant m)
  let sess := if suSession m = 0 then none else sessIdx s (suSession m)
  match ctxFail s p (suCtx m) with
  | some st => some st
  | none =>
    if (s.part p).state = .stopped then some stPARTITION_STOPPED
    else if suPrompt m = 0 ∨ 262144 < suPrompt m ∨ 8 < suStops m ∨ (List.range 8).any (fun k => decide (suStops m ≤ k) && suStop m k != 0) ∨
        (!suHost m ∧ ble m.payload 0x28 8 ≠ 0) then some stBAD_FIELD
    else if t.winUs = 0 then some stTENANT_UNKNOWN
    else if (suSession m ≠ 0 ∧ sess.isNone) ∨ (suPrefix m ∧ (sessIdx s (suPrefSess m)).isNone) then some stSESSION_UNKNOWN
    else if sess.any fun i => (s.sess i).request.isSome then some stSESSION_BUSY
    else if 262144 < suHeld s m + suPrompt m + suMaxNew m ∨ sess.any (fun i => (s.sess i).ctx != suCtx m) then some stBAD_FIELD
    else if t.cap < s.cfg 0x0707 * suPrompt m + s.cfg 0x0708 then some stOVER_BUDGET
    else if s.cfg 0x0709 ≤ (tget [] s.srv.queues (suTenant m)).length then some stQUEUE_FULL
    else none

/-- Whether a ledger index is FREE: its entry is, and no cohort has reserved it (R550). -/
def ledgerFree (s : State) (i : Nat) : Bool := (s.req i).state == .free && !(s.srv.ctxs.any fun c => c.2.cohort.reserved.contains i)

/-- The lowest run of `n` free indexes of this package's range. -/
def freeRun (s : State) (n : Nat) : Option Nat :=
  let r := ownIndexes s 65536
  ((List.range (r.2 + 1 - n)).find? fun i => (List.range n).all fun k => ledgerFree s (r.1 + i + k)).map (r.1 + ·)

/-- The ledger index of a submission: with HEAT_FIX the next one its function's cohort has reserved, the first one opening the cohort; otherwise any that is
FREE (R360, R550, log 10). The mark says whether it is a cohort's. -/
def takeIndex (s : State) (c fn : Nat) : Option (Nat × Bool × State) :=
  let x := s.ctx c
  let any_ := (freeIndex s 65536 (ledgerFree s)).map fun r => (r.1, false, r.2)
  if s.cfg 0x0B02 = 0 then any_
  else if x.cohort.isOpen then
    match x.cohort.reserved with
    | i :: rest =>
      if x.cohort.fn = fn then some (i, true, s.setCtx c { x with cohort := { x.cohort with reserved := rest, members := x.cohort.members ++ [i] } }) else any_
    | [] => any_
  else match freeRun s (s.cfg 0x0B03) with
    | some i => some (i, true, s.setCtx c { x with cohort :=
        ⟨true, fn, (List.range (s.cfg 0x0B03 - 1)).map (i + 1 + ·), [i], 0, 0⟩ })
    | none => none

/-- The prompt of a message: inline, or read from host memory. -/
def suTokens (m : Msg) : List Nat × Bool :=
  let r := if suHost m then dmaIn m.host (4 * suPrompt m) else (bsub m.payload 0x80 (4 * suPrompt m), false)
  ((List.range (suPrompt m)).map fun i => ble r.1 (4 * i) 4, r.2)

/-- The ledger entry a submission allocates: QUEUED (R363, R364). -/
def newReq (s : State) (m : Msg) (i : Nat) (cohort : Bool) (toks : List Nat) : Req :=
  { Req.reset with
    reuse := nextReuse (s.req i).reuse, state := .queued, ctx := suCtx m, part := mp s m, fn := pathFn m.path, tenant := suTenant m
    session := suSession m, sessIdx := (sessIdx s (suSession m)).getD 0, adapter := ble m.payload 0xC 2, aslot := 0xFF, maxNew := suMaxNew m
    prompt := suPrompt m, seed := BitVec.ofNat 64 (ble m.payload 0x18 8), aonSubmit := s.aon, wall := BitVec.ofNat 64 (ble m.payload 0x20 8)
    stop := (List.range (suStops m)).map (suStop m), tokens := toks, prefixSess := if suPrefix m then sessIdx s (suPrefSess m) else none
    cohort := cohort, home := s.fab.ownRole }

/-- REQ.SUBMIT (R364, R424); the twin's copy of the entry leaves before the response (R482). -/
def bodyReqSubmit (s : State) (m : Msg) : State :=
  let no (st : Nat) : State := reply s 0x0501 m st []
  match submitFail s m with
  | some st => no st
  | none => match takeIndex s (suCtx m) (pathFn m.path) with
    | none => no stLEDGER_FULL
    | some (i, cohort, s1) =>
      let t := suTokens m
      if t.2 then no stDMA_FAULT
      else if t.1.any fun x => decide ((ctxMan s (suCtx m)).vocab ≤ x) then no stBAD_FIELD
      else
        let r := newReq s m i cohort t.1
        let s2 := s1.setReq i r
        let s3 := if r.session = 0 then s2 else putSess s2 r.sessIdx { s2.sess r.sessIdx with request := some i }
        let s4 := { s3 with srv := { s3.srv with queues := tput s3.srv.queues r.tenant (tget [] s3.srv.queues r.tenant ++ [i]) } }
        reply (copyLedger s4 i) 0x0501 m stOK (leBytes 4 (r.handle i))

/-- REQ_SUBMIT. -/
def execReqSubmit (m : Msg) (s : State) : Host.Outcome State Fault Refusal := .next (settle (serve s 0x0501 m bodyReqSubmit))

/-! ### The other request messages -/

/-- The ledger index a message's handle names in its partition, or why it names none (R361, R380). -/
def reqOf (s : State) (m : Msg) : Nat ⊕ Nat :=
  match reqIdx s (ble m.payload 0 4) with
  | none => .inr stUNKNOWN_HANDLE
  | some i => if (s.req i).part = mp s m then .inl i else .inr stOUT_OF_PARTITION

/-- REQ.CANCEL (R355): a request that has ended or been sealed FINAL is ALREADY_DONE. -/
def bodyReqCancel (s : State) (m : Msg) : State :=
  match reqOf s m with
  | .inr st => reply s 0x0502 m st []
  | .inl i => if (s.req i).isOpen then reply (endReq s i stCANCELLED) 0x0502 m stOK [] else reply s 0x0502 m stALREADY_DONE []

/-- REQ_CANCEL. -/
def execReqCancel (m : Msg) (s : State) : Host.Outcome State Fault Refusal := .next (settle (serve s 0x0502 m bodyReqCancel))

/-- REQ.STATUS (R363). -/
def bodyReqStatus (s : State) (m : Msg) : State :=
  match reqOf s m with
  | .inr st => reply s 0x0503 m st []
  | .inl i => reply s 0x0503 m stOK (ledgerBytes i (s.req i))

/-- REQ_STATUS. -/
def execReqStatus (m : Msg) (s : State) : Host.Outcome State Fault Refusal := .next (settle (serve s 0x0503 m bodyReqStatus))

/-- REQ.SESSION_OPEN (R367, R371). -/
def bodyReqSessionOpen (s : State) (m : Msg) : State :=
  let c := ble m.payload 0 1
  let p := mp s m
  match ctxFail s p c with
  | some st => reply s 0x0504 m st []
  | none =>
    if (s.tenant (ble m.payload 2 2)).winUs = 0 then reply s 0x0504 m stTENANT_UNKNOWN []
    else match freeSess s with
      | none => reply s 0x0504 m stNO_SPACE []
      | some (i, s1) =>
        let x : Session := { Session.reset with
          isOpen := true, reuse := nextReuse (s.sess i).reuse, ctx := c, part := p, tenant := ble m.payload 2 2
          shareOk := nbits (ble m.payload 1 1) 0 0 == 1, home := s.fab.ownRole }
        reply (putSess s1 i x) 0x0504 m stOK (leBytes 4 (handleOf i x.reuse))

/-- REQ_SESSION_OPEN. -/
def execReqSessionOpen (m : Msg) (s : State) : Host.Outcome State Fault Refusal := .next (settle (serve s 0x0504 m bodyReqSessionOpen))

/-- The session index a message's handle names in its partition, or why it names none. -/
def sessOf (s : State) (m : Msg) : Nat ⊕ Nat :=
  match sessIdx s (ble m.payload 0 4) with
  | none => .inr stSESSION_UNKNOWN
  | some i =>
    if (s.sess i).part ≠ mp s m then .inr stOUT_OF_PARTITION
    else if (s.sess i).request.isSome then .inr stSESSION_BUSY
    else .inl i

/-- REQ.SESSION_CLOSE (R285, R429). -/
def bodyReqSessionClose (s : State) (m : Msg) : State :=
  match sessOf s m with
  | .inr st => reply s 0x0505 m st []
  | .inl i => reply (closeSession s i) 0x0505 m stOK []

/-- REQ_SESSION_CLOSE. -/
def execReqSessionClose (m : Msg) (s : State) : Host.Outcome State Fault Refusal := .next (settle (serve s 0x0505 m bodyReqSessionClose))

/-- REQ.PARK: a HELD session of a partition whose park mode is not None begins to park; a session in another state stays as it is (R285). -/
def bodyReqPark (s : State) (m : Msg) : State :=
  match sessOf s m with
  | .inr st => reply s 0x0506 m st []
  | .inl i => reply (if (s.sess i).state = .held ∧ (s.part (s.sess i).part).park ≠ 0 then startPark s i else s) 0x0506 m stOK []

/-- REQ_PARK. -/
def execReqPark (m : Msg) (s : State) : Host.Outcome State Fault Refusal := .next (settle (serve s 0x0506 m bodyReqPark))

end Sys2Proof.Machine
end

