-- ==== Sys2Proof/Machine/Boot.lean ====
section
/-!
DEFINITION. Resets and boot (R561 to R592, R634, R636, R653): what each reset clears, the boot stages, settings banks, the boot record, the dormant image.
-/

namespace Sys2Proof.Machine

/-! ### What a reset clears (R585, R590, R591) -/

/-- The fabric after a reset: links down, the database empty. The numbers this package has put on what it sent go on rising, so that no receiver takes a later
message for an older one (R448, R460). -/
def clearedFab (s : State) : Fab := { Fab.reset with node := s.fab.node, ownSeq := s.fab.ownSeq, pseq := s.fab.pseq }

/-- Energy state after a reset: the counters of R512 are kept, the interval begins anew; refitted coefficients are kept by a warm reset alone. -/
def clearedEnergy (s : State) (coefs : Bool) : Energy :=
  let e := s.energy
  { Energy.reset with
    inputUj := e.inputUj, stageUj := e.stageUj, powerMw := e.powerMw, vin := e.vin, coefs := if coefs then e.coefs else factoryCoefs
    coefSeq := if coefs then e.coefSeq else 0, refitAt := s.aon, intervalAt := s.aon, intervalUj := e.inputUj, ovAt := s.aon }

/-- Boot state before the boot ROM runs: what the boot record counts is kept. -/
def clearedBoot (b : Boot) (cause : Nat) : Boot :=
  { Boot.reset with nor := b.nor, cause := cause, bootCount := b.bootCount, captFails := b.captFails }

/-- Debug state after a reset: locked, every register and halt at its H: value (R599, R623); the TAP itself stands in the AON domain. -/
def clearedDebug (d : Debug) : Debug := { Debug.reset with boundary := d.boundary, extest := d.extest, ir := d.ir, dr := d.dr }

/-- What every reset but an FLR and a partition reset clears, near memory and the tables of serving apart: every die loses its registers, cores,
mailboxes, settings, links, pair, open shares and statistics; the whistle is released (R590, R610). -/
def clearDies (s : State) (cause : Nat) (coefs : Bool) : State :=
  { s with
    fieldQ := 0, countQ := 0, besideQ := 0, settings := Settings.reset, cores := [], starters := [], mbx := { Mbx.reset with resetting := s.mbx.resetting }, fab := clearedFab s
    twin := Twin.reset, energy := clearedEnergy s coefs, power := Power.reset, dport := clearedDebug s.dport, boot := clearedBoot s.boot cause
    entry := { s.entry with warnTaken := false, flushed := false } }

/-- Far-tier objects at a power-on or package reset: what is being written, what has a TTL and what lies on CXL is freed (R222). -/
def coldObjects (f : Far) : Far :=
  { f with
    objs := (f.objs.filter fun o => o.2.state != .writing && o.2.ttl == 0 && o.2.tier == 2).map fun o => (o.1, { o.2 with readers := 0 })
    devs := [], farSeq := 0 }

/-- The node ID sampled from its straps as they stand (R447, R631). -/
def sampleStraps (s : State) (pins : BitVec 8) : State :=
  { s with fab := { s.fab with node := pins.toNat }, entry := { s.entry with straps := pins, nid := pins } }

/-- The package reset: everything outside the AON domain (R585, R590). -/
def packageReset (s : State) : State :=
  let c := clearDies s 2 false
  { c with beside := [], parts := [], srv := Serving.reset, far := coldObjects s.far, entry := { c.entry with pwrgd := true } }

/-- Whether the package cannot run for want of input power or for a latched thermal trip (R633, R639). -/
def State.isOff (s : State) : Bool := !s.entry.inputOn || !s.entry.thermtripN

/-- Every power stage off; the AON domain stays while a supply does (R633, R634, R639). -/
def stagesOff (s : State) : State :=
  { s with power := { s.power with stewardOn := false }, entry := { s.entry with pwrgd := false } }

/-- Power-on: the AON domain too. An oscillator that has failed stays so (R632). -/
def powerOnReset (s : State) : State :=
  { packageReset s with
    aon := 0, energy := { Energy.reset with vin := s.energy.vin }, dport := Debug.reset, boot := clearedBoot s.boot 1
    entry := { s.entry with warnTaken := false, flushed := false, uvEvent := false, thermTrip := false, warns := 0 } }

/-! ### Warm reset -/

/-- Generations being loaded or draining and adapter slots loading or retiring are freed; no request stays bound (R591). -/
def warmGens (s : State) (p : Nat) : State :=
  let s1 := ((s.part p).gens.filter fun g => g.isLoading || g.state == .draining).foldl (fun s g => freeGen s p g) s
  let x := s1.part p
  s1.setPart p { x with
    gens := x.gens.map fun g => { g with bound := 0 }
    adapters := (x.adapters.filter fun a => a.2.state == .ready).map fun (a : Nat × ASlot) => (a.1, { a.2 with bound := 0 })
    cache := (x.cache.filter fun c => c.2.state == .ready).map fun (c : Nat × CSlot) => (c.1, { c.2 with pins := 0 })
    cacheReq := [], ring := [], nextPage := 0, loading := false, swapTimes := [], evict := none, act := none, cut := none, relay := none
    stats := PartStats.reset, reportAt := s.aon }

/-- A context kept BENCHED with no saved state; a FAILED one stays so (R591 note 4). -/
def keptCtx (c : Ctx) : Ctx :=
  { Ctx.reset with state := if c.state = .failed then .failed else .benched, part := c.part, model := c.model, prio := c.prio, slot := c.slot, lockstep := c.lockstep }

/-- The session of this package a map belongs to; another home's reads as absent. -/
def mapSess (s : State) (k : Nat) : Session :=
  let x := s.sess (keyIdx k)
  if x.isOpen && x.home == keyHome k then x else Session.reset

/-- A map at a warm reset: the lap's provisional positions are lost, an unfinished park record is deleted, and what was resuming is dropped (R587, R591). -/
def warmMap (s : State) (k : Nat) : State :=
  let st := (mapSess s k).state
  if st = .resuming ∨ st = .recomputing then freeRecord (freePages s k) k
  else
    let s1 := if (s.map k).present && ((s.map k).record.isSome || !(s.map k).poolFrames.isEmpty) then freeRecord s k else s
    let m := s1.map k
    let t := trimLists (s1.part m.part) m.lists m.clen
    (s1.setPart m.part t.1).setMap k { m with lists := t.2, plen := 0, lapOn := false, outcome := none, unacked := 0, held := m.held || st == .live || st == .parking }

/-- A session at a warm reset (R591 note 2). -/
def warmSess (x : Session) : Session :=
  { x with
    request := none, waiting := []
    state := if x.state = .live ∨ x.state = .parking then .held else if x.state = .resuming ∨ x.state = .recomputing then .dropped else x.state }

/-- The serving tables after a warm reset: contexts, tenants and sessions kept; the ledger cleared, its reuse generations going on (R360, R590). -/
def warmServing (v : Serving) : Serving :=
  { v with
    ledger := (v.ledger.filter fun e => e.2.reuse != 0).map fun (e : Nat × Req) => (e.1, { Req.reset with reuse := e.2.reuse })
    sessions := v.sessions.map fun e => (e.1, warmSess e.2)
    queues := [], ctxs := v.ctxs.map fun e => (e.1, keptCtx e.2), heats := [], mirrors := [] }

/-- A Beside die at a warm reset: its memory is held in self-refresh, its rings, directory and statistics are cleared. -/
def BesideDie.warm (b : BesideDie) : BesideDie :=
  { b with rings := [], dir := [], dirOrder := 0, waits := [], dlvBytes := 0, bsdBytes := 0, atomics := 0, engCtr := [] }

/-- Partitions, sessions and far objects as a warm reset keeps them. -/
def warmTables (s : State) : State :=
  let s1 := (tkeys s.srv.mirrors).foldl freeMirror s
  let s2 := (tkeys s1.srv.maps).foldl warmMap s1
  let s3 := (tkeys s2.parts).foldl warmGens s2
  let s4 := (tkeys (s3.far.objs.filter fun o => o.2.state == .expiring)).foldl objFree s3
  { s4 with
    srv := warmServing s4.srv
    far := { s4.far with objs := s4.far.objs.map fun (o : Nat × Obj) => (o.1, { o.2 with readers := 0 }) } }

/-- The warm reset (R585, R586, R590). -/
def warmReset (s : State) (cause : Nat) : State :=
  let s1 := warmTables (if s.boot.resetSteps then s else warmFirst s)
  { clearDies s1 cause true with beside := s1.beside.map fun d => (d.1, (d.2.repair d.1).warm) }

/-- WARM_RESET: one that SYS.RESET, fencing or a captain's watchdog has ordered; it waits for a settings commit to end (R584 to R586). -/
def execWarmReset (cause : Nat) (s : State) : Host.Outcome State Fault Refusal :=
  .next (if s.boot.resetWait = some cause ∧ 3 ≤ cause ∧ s.boot.commits.isEmpty ∧ s.power.stewardOn ∧ !s.entry.oscDead then warmReset s cause else s)

/-- CAPTAIN_WATCHDOG: a captain that is not halted by debug misses its watchdog while its clock runs: a warm reset is ordered (R585, R606). -/
def execCaptainWatchdog (captain : Nat) (s : State) : Host.Outcome State Fault Refusal :=
  .next (
    if captain < 8 ∧ 2 ≤ s.boot.stage ∧ !s.boot.stopped ∧ s.power.stewardOn ∧ s.power.state = .run ∧ !s.captHalted captain ∧ s.boot.resetWait = none ∧ !s.entry.oscDead then
      settle (orderReset s 5)
    else s)

/-! ### Power-on and PERST# (R585, R634, R636) -/

/-- POWER_ON: a PERST# still asserted holds only the host port (R636). -/
def execPowerOn (aux : Bool) (straps : BitVec 8) (s : State) : Host.Outcome State Fault Refusal :=
  .next (
    let s1 := powerOnReset s
    let s2 := { s1 with entry := { s1.entry with aux := aux, inputOn := true, warnPin := false, pwrgd := true, thermtripN := true, hostHeld := s.entry.perst } }
    sampleStraps s2 straps)

/-- Loss of power during a settings commit leaves the bank being written invalid (R584). -/
def lostCommit (s : State) : State := if s.boot.commits.isEmpty then s else norErase s (bankAt (commitBank s))

/-- PACKAGE_RESET. One that PERST# has begun waits for a settings commit to end (R584). The straps are sampled when it is released: at once, or with PERST#. -/
def execPackageReset (straps : BitVec 8) (s : State) : Host.Outcome State Fault Refusal :=
  .next (
    let byPerst := s.boot.resetWait = some 2
    if (byPerst ∧ !s.boot.commits.isEmpty) ∨ s.isOff ∨ s.entry.oscDead then s
    else
      let held := s.entry.perst && !s.entry.hostHeld
      let s1 := packageReset (lostCommit s)
      if held then s1 else sampleStraps s1 straps)

/-- PERST_ASSERT: an assertion of 10 µs or more is a package reset, begun at the assertion; while the package is off it is only held. -/
def execPerstAssert (us : Nat) (s : State) : Host.Outcome State Fault Refusal :=
  .next (
    if us < 10 ∨ s.entry.perst ∨ s.entry.oscDead then s
    else
      let s1 := { s with entry := { s.entry with perst := true } }
      if s.isOff then s1
      else if s.boot.commits.isEmpty then packageReset s1
      else { s1 with boot := { s1.boot with resetWait := some 2 } })

/-- PERST_RELEASE: the reset is released and the straps sampled, or the host port proceeds. -/
def execPerstRelease (straps : BitVec 8) (s : State) : Host.Outcome State Fault Refusal :=
  .next (
    if !s.entry.perst ∨ s.entry.oscDead then s
    else
      let s1 := { s with entry := { s.entry with perst := false, hostHeld := false } }
      if s.entry.hostHeld ∨ s.isOff ∨ s.boot.resetWait = some 2 then s1 else sampleStraps s1 straps)

/-! ### Firmware images (R561, R564 to R566) -/

/-- Where slot k of a KIND begins, and its size. -/
def fwAt (kind slot : Nat) : Nat := if kind = 1 then slot * 0x100000 else 0x200000 + slot * 0x1000000
def fwSize (kind : Nat) : Nat := if kind = 1 then 0x100000 else 0x1000000

/-- The 1 KiB header of an image. -/
def fwHeader (s : State) (kind slot : Nat) : List Byte := norRead s (fwAt kind slot) 1024

/-- The whole image: header and body. -/
def fwImage (s : State) (kind slot : Nat) : List Byte := norRead s (fwAt kind slot) (1024 + ble (fwHeader s kind slot) 0x10 4)

/-- FW_VERSION and SVN of an image. -/
def fwVersion (s : State) (kind slot : Nat) : Nat := ble (fwHeader s kind slot) 8 4
def fwSvn (s : State) (kind slot : Nat) : Nat := ble (fwHeader s kind slot) 12 4

/-- The fused minimum SVN of a KIND. -/
def svnMin (s : State) (kind : Nat) : Nat := if kind = 1 then s.pkg.svnMinBoot else s.pkg.svnMinCapt

/-- The vendor key slot whose hash a signing key has, unless it is revoked (R565). -/
def vendorSlot (s : State) (nAndE : List Byte) : Option Nat :=
  (List.range 4).find? fun k => nth 0 s.pkg.vendorKeys k == sha256 nAndE && !s.pkg.revoked.contains k

/-- Whether a stage accepts an image (R565). -/
def fwOk (s : State) (kind slot : Nat) : Bool :=
  let h := fwHeader s kind slot
  let n := bsub h 0x40 384
  let e := ble h 0x1C0 4
  let len := ble h 0x10 4
  ble h 0 4 == 0x57464B58 && ble h 4 2 == 1 && ble h 6 1 == kind && allZero h 7 1 && allZero h 0x14 12 && allZero h 0x1C4 60 && allZero h 0x380 128 &&
  decide (len + 1024 ≤ fwSize kind) && keyForm n e && (vendorSlot s (bsub h 0x40 388)).isSome &&
  pssVerify n e (sha256Bytes (h.take 0x200)) (bsub h 0x200 384) &&
  bsub h 0x20 32 == sha256Bytes (norRead s (fwAt kind slot + 1024) len) && decide (svnMin s kind ≤ ble h 12 4)

/-- Consecutive failures of a captain firmware slot to set READY. -/
def captFails (s : State) (slot : Nat) : Nat := tget 0 s.boot.captFails slot

/-- The slot of a KIND a stage takes: the one with the higher FW_VERSION first, slot 0 when they are equal; a captain slot that has failed three times is
skipped (R566). -/
def fwChoose (s : State) (kind : Nat) : Option Nat :=
  (if fwVersion s kind 0 < fwVersion s kind 1 then [1, 0] else [0, 1]).find? fun k => fwOk s kind k && !(kind == 2 && decide (3 ≤ captFails s k))

/-! ### The boot ROM (R563, R569, R571) -/

/-- Whether reset is released and the Steward runs its ROM. -/
def romRuns (s : State) : Bool :=
  s.boot.stage == 0 && !s.boot.stopped && s.power.stewardOn && s.entry.pwrgd && !s.isOff && !(s.entry.perst && !s.entry.hostHeld) &&
  s.power.state == .run && s.boot.resetWait.isNone && !s.entry.oscDead

/-- BOOT_ROM: the root key is rebuilt and the identity key unwrapped, or IDENTITY_FAIL is set; boot firmware is chosen, verified and measured. -/
def execBootRom (puf : PufResult) (s : State) : Host.Outcome State Fault Refusal :=
  .next (
    if !romRuns s then s
    else
      let l0 := sha256 (digestBytes s.pkg.romDigest)
      let b := { s.boot with l0 := l0, identityFail := !(puf.rebuilt && puf.unwrapped) }
      match fwChoose s 1 with
      | none => { s with boot := { b with stopped := true } }
      | some k => { s with boot := { b with
          stage := 1, bootSlot := k == 1, fwBoot := fwVersion s 1 k, svnBoot := fwSvn s 1 k, keySlot := (vendorSlot s (bsub (fwHeader s 1 k) 0x40 388)).getD 0
          l1 := sha256 (digestBytes l0 ++ sha256Bytes (fwImage s 1 k)) } })

/-! ### Boot firmware: the settings bank (R576 to R578, R653) -/

/-- Whether FIELD_IDs rise strictly. -/
def fieldsRise : List Nat → Bool
  | a :: b :: r => decide (a < b) && fieldsRise (b :: r)
  | _ => true

/-- Whether a settings bank is valid (R577). -/
def bankOk (s : State) (b : Nat) : Bool :=
  let h := norRead s (bankAt b) 64
  let n := ble h 6 2
  let body := norRead s (bankAt b + 64) (16 * n)
  let crc := (crc32c (h.take 12 ++ zeros 4 ++ h.drop 16 ++ body)).toNat
  ble h 0 4 == 0x54534B58 && ble h 4 2 == 1 && decide (n ≤ 4092) && ble h 8 4 != 0 && crc == ble h 12 4 &&
  (ble h 16 8 == 0 || ble h 16 8 == s.pkg.serial) && allZero h 24 40 && fieldsRise ((bankEntries s b).map (·.1)) &&
  (List.range n).all fun i => allZero body (16 * i + 2) 6

/-- SEQUENCE of a bank. -/
def bankSeq (s : State) (b : Nat) : Nat := leNat (norRead s (bankAt b + 8) 4)

/-- The bank boot firmware uses: the valid one with the higher SEQUENCE, bank 0 when they are equal. -/
def bankChoose (s : State) : Option Nat :=
  match bankOk s 0, bankOk s 1 with
  | true, true => some (if bankSeq s 0 < bankSeq s 1 then 1 else 0)
  | true, false => some 0
  | false, true => some 1
  | false, false => none

/-- One entry applied over the factory values (R578). -/
def bankEntry (s : State) (st : Settings) (e : Nat × Nat) : Settings :=
  match fieldDef e.1 with
  | none => st
  | some d =>
    if fieldReadOnly e.1 ∨ 2 ^ d.width ≤ e.2 then st
    else if fieldAbsent s e.1 then { st with ignored := st.ignored ++ [e.1] }
    else st.put e.1 e.2

/-- The settings a boot begins with. -/
def bootSettings (s : State) : Settings :=
  let err : BitVec 2 := BitVec.ofNat 2 (b2n (!bankOk s 0) + 2 * b2n (!bankOk s 1))
  match bankChoose s with
  | none => { Settings.reset with bankErr := err }
  | some b => { (bankEntries s b).foldl (bankEntry s) Settings.reset with src := b + 1, seq := bankSeq s b, bankErr := err }

/-- A link plan that breaks R451 is replaced by the factory plan, and PLAN_ERR is set (R653). -/
def checkPlan (s : State) : State :=
  if planOk s.fab.node s.planAll then s
  else { s with settings := { s.settings with run := s.settings.run.filter fun e => !isPlanField e.1 }, boot := { s.boot with planErr := true } }

/-- This boot's entry of the boot record, and LEDGER_LOSS for an earlier boot left OPEN (R568, R588). -/
def bootEntries (s : State) : State :=
  let l := bootLog s
  let n := match (l.filter (·.kind == 1)).getLast? with | some r => r.boot + 1 | none => 1
  let s1 := bootRecord { s with boot := { s.boot with bootCount := n } } ⟨1, s.boot.cause, n, s.aon⟩
  match openEntry l with
  | some r => bootRecord { s1 with boot := { s1.boot with ledgerLoss := true } } ⟨4, s.boot.cause, r.boot, r.aon⟩
  | none => s1

/-- The role of the settings, at epoch 0 in the role table (R453, R580). -/
def bootRole (s : State) : State :=
  let r := s.cfg 0x0805
  { s with fab := { s.fab with ownRole := r, roles := if r = 0x3FF then [] else [(r, (s.fab.node + 1, 0))] } }

/-- BOOT_FIRMWARE: near DRAM is up, the boot is recorded, the settings bank applied, captain firmware chosen, verified and measured (R563). -/
def execBootFirmware (s : State) : Host.Outcome State Fault Refusal :=
  .next (
    if s.boot.stage ≠ 1 ∨ s.boot.stopped ∨ !s.power.stewardOn ∨ s.boot.resetWait.isSome ∨ s.entry.oscDead then s
    else
      let s1 := bootEntries { s with power := { s.power with besideOn := true } }
      let s2 := bootRole (checkPlan { s1 with settings := bootSettings s1 })
      let b := s2.boot
      match if b.identityFail then none else fwChoose s2 2 with
      | none => { s2 with boot := { b with stopped := true } }
      | some k => { s2 with boot := { b with
          stage := 2, captSlot := k == 1, fwCapt := fwVersion s2 2 k, svnCapt := fwSvn s2 2 k, captStarted := some s2.aon
          l2 := sha256 (digestBytes b.l1 ++ sha256Bytes (fwImage s2 2 k)) } })

/-! ### Captain firmware -/

/-- The rings of the partitions a boot kept are enabled again, each owned by one of its partition's starters (R196, log 10). -/
def reopenRings (s : State) : State :=
  (s.parts.filter fun p => p.2.state != .free).foldl (fun s p => (List.range 12).foldl (fun s d =>
    match p.2.ranges[d]? with
    | some r =>
      if r.near = 0 then s
      else
        let o := (pickOne s (rowList p.2.rows)).getD (0, s)
        let b := o.2.bdie d
        o.2.setBdie d { b with rings := tput b.rings p.1 { Ring.reset with owner := BitVec.ofNat 6 o.1, en := true } }
    | none => s) s) s

/-- The fused minima rise to the SVNs of the images accepted (R565). -/
def raiseMinima (s : State) : State :=
  { s with pkg := { s.pkg with svnMinBoot := max s.pkg.svnMinBoot s.boot.svnBoot, svnMinCapt := max s.pkg.svnMinCapt s.boot.svnCapt } }

/-- CAPTAIN_FIRMWARE: the dies are brought up, READY is set within 2 s of its start, SYS.CAPS is posted on every enabled function before any other event
(R415, R566), and after DORMANT the return to RUN is announced (R541). -/
def execCaptainFirmware (s : State) : Host.Outcome State Fault Refusal :=
  .next (settle (
    match s.boot.captStarted with
    | none => s
    | some t =>
      if s.boot.stage ≠ 2 ∨ s.power.dormantImage.isSome ∨ t + msAon 2000 ≤ s.aon ∨ !s.power.stewardOn ∨ s.boot.resetWait.isSome ∨ s.entry.oscDead ∨ s.captHalted 0 then s
      else
        let s1 := { s with
          power := { s.power with fieldOn := !s.entry.flushed, junctionOn := true, portOn := true, resting := false }
          mbx := { s.mbx with ready := true, resetting := false }
          boot := { s.boot with stage := 3, captStarted := none, captFails := tdel s.boot.captFails (b2n s.boot.captSlot) }
          twin := { s.twin with hbSeenAt := s.aon } }
        let s2 := startLinks (reopenRings (raiseMinima s1))
        let s3 := (enabledFns s2).foldl (fun s f => notify s f mSYS_CAPS 0 (capRecord s f)) s2
        let s4 := if s.fab.ownRole = 0x3FF then s3 else flood s3
        if s.boot.cause = 6 then powerEvent s4 4 0 else s4))

/-- CAPT_FAIL: captain firmware has run for 2 s without READY: one failure of its slot, and its entry in the boot record (R566, R568). -/
def execCaptFail (s : State) : Host.Outcome State Fault Refusal :=
  .next (
    match s.boot.captStarted with
    | none => s
    | some t =>
      if s.boot.stage ≠ 2 ∨ s.aon < t + msAon 2000 ∨ s.entry.oscDead then s
      else
        let k := b2n s.boot.captSlot
        bootMark { s with boot := { s.boot with captStarted := none, captFails := tput s.boot.captFails k (captFails s k + 1) } } 5)

/-! ### DORMANT (R535, R536, R589) -/

/-- Whether a map's park record lies in NAND. -/
def nandRecord (s : State) (m : KvMap) : Bool :=
  match m.record with
  | some o => (s.obj o).present && (s.obj o).tier == 2 && (s.obj o).state == .sealedObj
  | none => false

/-- A session in the dormant image: PARKED with records in NAND stays so, every other is DROPPED; its tokens are retained (R591 note 8). -/
def dormantSess (s : State) (x : Session) (idx : Nat) : Session :=
  { x with request := none, waiting := [], state := if x.state = .parked ∧ nandRecord s (s.map (sessKey x.home idx)) then .parked else .dropped }

/-- A partition in the dormant image: adapters, cache, window ring and frames are lost with near memory, statistics cleared. -/
def dormantPart (p : Part) : Part :=
  { p with
    gens := p.gens.map fun g => { g with bound := 0, reloading := g.state == .live || g.state == .sealedGen }
    adapters := [], cache := [], cacheReq := [], ring := [], nextPage := 0, loading := false, frames := [], swapTimes := [], evict := none, act := none
    cut := none, relay := none, stats := PartStats.reset }

/-- The dormant image. -/
def dormantImage (s : State) : Dormant where
  parts := s.parts.map fun p => (p.1, dormantPart p.2)
  ctxs := s.srv.ctxs.map fun c => (c.1, keptCtx c.2)
  tenants := s.srv.tenants
  sessions := (s.srv.sessions.filter fun x => x.2.isOpen || x.2.reuse != 0).map fun x => (x.1, if x.2.isOpen then dormantSess s x.2 x.1 else x.2)
  records := (s.srv.maps.filter fun m => !m.2.present && nandRecord s m.2).map fun (m : Nat × KvMap) => (m.1, { m.2 with recFrames := [], poolFrames := [] })
  dies := s.beside.map fun d => (d.1, { BesideDie.reset with map := d.2.map, wp := d.2.wp })

/-- Park records that do not stay: those of sessions that become DROPPED. -/
def looseRecords (s : State) : List Nat :=
  (s.srv.maps.filter fun m => m.2.present || !nandRecord s m.2).filterMap fun m => m.2.record

/-- DORMANT_ENTRY: after the flush, C7 writes the image and everything but the AON domain and the sideband is powered off. -/
def execDormantEntry (s : State) : Host.Outcome State Fault Refusal :=
  .next (
    if !s.power.resting ∨ s.power.state = .rest ∨ s.power.state = .dormant ∨ !s.hasNand ∨ !s.boot.commits.isEmpty ∨ s.entry.oscDead then s
    else
      let s1 := freeObjects s (looseRecords s)
      let c := clearDies s1 6 false
      { c with
        beside := [], parts := [], srv := { Serving.reset with heatSerial := s.srv.heatSerial, jobLap := s.srv.jobLap }, far := { s1.far with devs := [] }
        power := { Power.reset with state := .dormant, stewardOn := false, resting := true, wakeAt := s.power.wakeAt, dormantImage := some (dormantImage s1) }
        entry := { c.entry with pwrgd := false } })

/-- The package leaves DORMANT: the Steward is powered and boots with CAUSE 6 (R536, R568). -/
def wakeDormant (s : State) : State :=
  { s with
    power := { s.power with state := .run, stewardOn := true, wakeAt := none }
    boot := clearedBoot s.boot 6, entry := { s.entry with pwrgd := true, warnTaken := false } }

/-- DORMANT_EXIT: captain firmware restores the image before READY; the reloads of the LIVE and SEALED generations begin (R589). -/
def execDormantExit (s : State) : Host.Outcome State Fault Refusal :=
  .next (
    match s.power.dormantImage with
    | none => s
    | some d =>
      if s.boot.stage ≠ 2 ∨ s.boot.captStarted.isNone ∨ s.entry.oscDead then s
      else { s with
        parts := d.parts.map fun p => (p.1, { p.2 with reportAt := s.aon })
        beside := d.dies
        srv := { s.srv with ctxs := d.ctxs, tenants := d.tenants, sessions := d.sessions, maps := d.records }
        power := { s.power with dormantImage := none } })

/-- One near image rewritten from its NAND copy. -/
def reloadImage (s : State) (p : Nat) (g : Gen) (i : Nat) : State :=
  let n := g.nearLen (s.part p) i
  match g.copies.find? fun e => e.1 == i with
  | some e => if n = 0 then s else (forceWrite s p (g.near i 0) (objRead s e.2 0 n)).count ovCtx 6 n
  | none => s

/-- GEN_RELOAD_DONE: a generation's near images are back, and its admissions resume (R589). -/
def execGenReloadDone (part model gen : Nat) (s : State) : Host.Outcome State Fault Refusal :=
  .next (
    match (s.part part).gen? model gen with
    | none => s
    | some g =>
      let usable := g.copies.all fun e => (s.obj e.2).present && (s.obj e.2).state != .damaged
      if !g.reloading ∨ !usable ∨ !s.power.besideOn ∨ s.entry.oscDead then s
      else modGen ((List.range 12).foldl (fun s i => reloadImage s part g i) s) part g fun g => { g with reloading := false })

/-! ### Waking (R432, R536) -/

/-- WAKE_TIMER: C4's wake timer has expired. -/
def execWakeTimer (s : State) : Host.Outcome State Fault Refusal :=
  .next (
    match s.power.wakeAt with
    | none => s
    | some t =>
      if s.aon < t ∨ s.entry.oscDead ∨ !s.entry.inputOn then s
      else if s.power.state = .dormant then wakeDormant s
      else if s.power.state = .run then { s with power := { s.power with wakeAt := none } }
      else wakeRun s)

/-- SYS.WAKE: from DORMANT to RUN; no effect in any other state. -/
def bodySysWake (s : State) (m : Msg) : State :=
  let s1 := reply s 0x0108 m stOK []
  if s.power.state = .dormant ∧ s.entry.inputOn then wakeDormant s1 else s1

/-- SYS_WAKE. -/
def execSysWake (m : Msg) (s : State) : Host.Outcome State Fault Refusal :=
  .next (if s.entry.oscDead then s else settle (serve s 0x0108 m bodySysWake))

end Sys2Proof.Machine
end

