-- ==== Sys2Proof/Machine/PowerEntry.lean ====
section
/-!
DEFINITION. Power entry (R632 to R641): the input-power warning, undervoltage lockout, the return and the turn-on of the input, the thermal trip, and the failure
of the oscillator.
-/

namespace Sys2Proof.Machine

/-- Laps in progress here are abandoned, to be run again from their kept inputs (R494, R637). -/
def abandonLaps (s : State) : State :=
  (tkeys (s.srv.heats.filter fun h => h.2.live && h.2.fetched && !h.2.ownDone)).foldl orderReplay s

/-- What a warning does once the package serves: TWIN_YIELD, no further lap, the Field dies gated, the flush with its CLEAN (R637). `flushed` lasts until the
input returns. -/
def warnAct (s : State) : State :=
  let s1 := yield_ s
  let s2 := abandonLaps { s1 with entry := { s1.entry with flushed := true } }
  flush { s2 with power := { s2.power with fieldOn := false } }

/-- PWR_WARN: a warning is taken once per outage; the pin is low, or the input below 40.0 V. -/
def execPwrWarn (pin : Bool) (s : State) : Host.Outcome State Fault Refusal :=
  .next (
    if s.entry.flushed ∨ s.isOff ∨ !s.power.stewardOn ∨ s.entry.oscDead then s
    else
      let s1 := { s with entry := { s.entry with warnPin := pin, warnTaken := true, warns := s.entry.warns + 1 } }
      if s.boot.stage = 3 then settle (warnAct s1) else { s1 with entry := { s1.entry with flushed := true } })

/-- INPUT_RETURN: the input has been back for 10 ms after the flush. A package its twin has taken the role of is fenced and resets warm; any other resumes
(R491, R638). -/
def execInputReturn (s : State) : Host.Outcome State Fault Refusal :=
  .next (
    if !s.entry.flushed ∨ s.isOff ∨ s.entry.oscDead then s
    else
      let s1 := { s with entry := { s.entry with flushed := false, warnPin := false } }
      if s.twin.state = .paired ∨ s.twin.state = .rejoining then
        settle (orderReset (s1.mapTwin fun w => { w with fenced := true }) 4)
      else if s.boot.stage = 3 then { s1 with power := { s1.power with state := if s.power.state = .rest then .rest else .run, fieldOn := s.power.state != .rest } }
      else s1)

/-- UNDERVOLTAGE_LOCKOUT: every power stage off; the boot ends as by a package reset, and a latched thermal trip lets go (R633, R634, R638, R639). -/
def execUndervoltageLockout (s : State) : Host.Outcome State Fault Refusal :=
  .next (
    if !s.entry.inputOn ∨ s.entry.oscDead then s
    else
      let s1 := stagesOff (packageReset (lostCommit s))
      { s1 with entry := { s1.entry with inputOn := false, uvEvent := true, thermtripN := true, hostHeld := false } })

/-- INPUT_TURN_ON: the input rises through 41.0 V while AUX_3V3 holds the AON domain: power-up and a boot with CAUSE 2 (R633 to R636). -/
def execInputTurnOn (straps : BitVec 8) (s : State) : Host.Outcome State Fault Refusal :=
  .next (
    if s.entry.inputOn ∨ !s.entry.aux ∨ s.entry.oscDead then s
    else
      let s1 := packageReset s
      sampleStraps { s1 with entry := { s1.entry with inputOn := true, hostHeld := s1.entry.perst } } straps)

/-- THERMAL_TRIP: THERMTRIP_N is asserted, every stage turned off without a flush, the trip latched (R639). -/
def execThermalTrip (s : State) : Host.Outcome State Fault Refusal :=
  .next (
    if s.isOff ∨ s.entry.oscDead then s
    else
      let s1 := stagesOff (packageReset (lostCommit s))
      { s1 with entry := { s1.entry with thermTrip := true, thermtripN := false } })

/-- OSCILLATOR_FAILURE: every clock stops, AON included; THERMTRIP_N is not asserted (R632). -/
def execOscillatorFailure (s : State) : Host.Outcome State Fault Refusal := .next { s with entry := { s.entry with oscDead := true } }

end Sys2Proof.Machine
end

