-- ==== Sys2Proof/Machine/Registers.lean ====
section
/-!
DEFINITION. Registers as software reaches them (R15, R19, R102 to R106, R146, R180, R196, R210, R247, R402, R403, R614, R622, R623, R640), the halts of cores
and captains (R603 to R606), and the two rows for registers without a row of their own.
-/

namespace Sys2Proof.Machine

/-! ### A core's register and counter blocks (R102, R614, R617) -/

/-- The code of FLD_SLOT_STAT.STATE (R104). -/
def SlotState.code (x : SlotState) : Nat :=
  match x with
  | .unbound => 0
  | .bound => 1
  | .running => 2
  | .paused => 3
  | .frozen => 4

/-- FLD_SLOT_STAT (R104). -/
def regSlotStat (x : SlotSt) : Word64 :=
  mkWord [(0, x.state.code), (3, x.head.toNat), (11, b2n x.defOvf), (12, b2n x.bindErr), (13, x.fpf.toNat),
    (18, (List.range 4).foldl (fun a e => a + 2 ^ e * b2n (!(x.queue e).isEmpty)) 0)]

/-- FLD_SLOT_CTRL as it reads (R104). -/
def regSlotCtrl (x : SlotSt) : Word64 := mkWord [(0, x.tail.toNat), (8, x.tstage.toNat)]

/-- DBG_CORE_CTRL as it reads: HALTED says that the core is halted for any cause (R623). -/
def regCoreCtrl (s : State) (c : Nat) : Word64 := setBits (setBits (s.core c).ctrl 1 1 0) 5 5 (b2n (s.coreHeld c))

/-- A counter of R614 with IDLE worked out: what remains of the Field cycles counted, in quarters. -/
def unitQ (k : Core) (countQ u st : Nat) : Nat :=
  if st = 1 then countQ - tget 0 k.counters 99 - ((List.range 10).foldl (fun a i => if i = 1 then a else a + tget 0 k.counters (u * 10 + i)) 0)
  else tget 0 k.counters (u * 10 + st)

/-- The 768 bytes of a core's counters (R617). -/
def counterRecord (k : Core) (countQ : Nat) : List Byte :=
  ((List.range 5).flatMap fun u => (List.range 10).flatMap fun st => leBytes 8 (unitQ k countQ u st / 4)) ++
  ((List.range 4).flatMap fun i => (List.range 5).flatMap fun u =>
    leBytes 8 (tget 0 k.counters (100 + i * 11 + u * 2) / 4) ++ leBytes 8 (tget 0 k.counters (101 + i * 11 + u * 2) / 4)) ++
  ((List.range 4).flatMap fun i => leBytes 4 (sat 32 (k.slot i).esc)) ++ ((List.range 4).flatMap fun i => leBytes 1 (k.slot i).ctx) ++ zeros 28

/-- A register of a core's block at the 8-byte word that holds an offset; an offset R102, R600 and R622 do not list reads zero. -/
def coreReg (s : State) (c off : Nat) : Word64 :=
  let k := s.core c
  let i := off % 0x20 / 8
  if off < 0x20 then (k.slot i).cfg
  else if off < 0x40 then regSlotCtrl (k.slot i)
  else if off < 0x60 then regSlotStat (k.slot i)
  else if off < 0x80 then (k.slot i).fault
  else if off < 0xA0 then setBits (k.slot i).faddr 63 48 0
  else if 0x100 ≤ off ∧ off < 0x200 then tget 0 k.inbox ((off - 0x100) / 8)
  else if 0x200 ≤ off ∧ off < 0x600 then tget 0 k.chan ((off - 0x200) / 8)
  else if 0x600 ≤ off ∧ off < 0x608 then BitVec.ofNat 64 (wdogUs s c)
  else if 0x800 ≤ off ∧ off < 0xA00 then tget 0 k.hurdle ((off - 0x800) / 8)
  else if 0xA00 ≤ off ∧ off < 0xA08 then regCoreCtrl s c
  else if 0x1000 ≤ off ∧ off < 0x1300 then BitVec.ofNat 64 (ble (counterRecord k s.countQ) ((off - 0x1000) / 8 * 8) 8)
  else 0

/-! ### Halting and stepping a core (R603, R604) -/

/-- HALT written: 1 halts the core, 0 releases a halt by HALT or by a breakpoint. -/
def coreHalt (s : State) (c : Nat) (halt : Bool) : State := s.setCore c { s.core c with ctrl := setBits (s.core c).ctrl 0 0 (b2n halt) }

/-- Whether the wait of a slot's next command admits it (R604). -/
def stepAdmits (k : Core) (slot : Nat) : Bool :=
  let x := skipStarted 256 (k.slot slot)
  let cmd := ringCmd k slot x
  !cmd.waitEn || !opcodes.contains cmd.opc || admits k x cmd.waitH k.serial

/-- STEP_DONE is set. -/
def stepEnds (s : State) (c : Nat) : State := s.setCore c { s.core c with step := none, ctrl := setBits (s.core c).ctrl 4 4 1 }

/-- STEP, written with the core halted: the next command of the slot is dispatched, and the engines run until it completes; STEP_DONE is set at once where
nothing is dispatched (R604). A step in progress is left to end. -/
def coreStep (s : State) (c slot : Nat) : State :=
  let k := s.core c
  let s1 := s.setCore c { k with ctrl := setBits k.ctrl 3 2 slot }
  if !s.coreHeld c || k.step.isSome then s1
  else if !canDispatch k slot || !stepAdmits k slot then stepEnds s1 c
  else
    let s2 := dispatchSlot s1 c slot
    if (s2.core c).serial = k.serial + 1 then s2.setCore c { s2.core c with step := some (slot, some k.serial) } else stepEnds s2 c

/-! ### Captains (R606) -/

/-- HALT of a captain written. Halting a captain other than C5 on a PAIRED package sends TWIN_YIELD; C5's heartbeats end with it. -/
def captHalt (s : State) (c : Nat) (halt : Bool) : State :=
  let s1 := s.setCapt c { s.capt c with ctrl := setBits (s.capt c).ctrl 0 0 (b2n halt) }
  if halt && !s.captHalted c && c != 5 && s.twin.state == .paired then yield_ s1 else s1

/-- STEP of a halted captain: one instruction; the instruction set is not given, so its next program counter is a free value. -/
def captStep (s : State) (c : Nat) : State :=
  if s.captHalted c then s.setCapt c { s.capt c with pc := Config.captainNext c (s.capt c).pc } else s

/-! ### The NOR through DBG_FLASH (R562, R623) -/

/-- Whether the debug port may erase and program a sector: those of the firmware slots and of the settings banks. -/
def flashOpen (sector : Nat) : Bool := decide (sector < 0x220) || sector == 0x223 || sector == 0x224

/-- ERASE of a sector begins; none while another is in progress. -/
def flashErase (s : State) (sector : Nat) : State :=
  if flashOpen sector && !s.dport.erasing then { s with dport := { s.dport with flash := BitVec.ofNat 64 sector, erasing := true } } else s

/-! ### DBG_ registers (R622, R623) -/

/-- A DBG_ register at the word that holds an offset. -/
def dbgReg (s : State) (off : Nat) : Word64 :=
  if off < 8 then regDbgStatus s
  else if 0x10 ≤ off ∧ off < 0x18 then s.dport.whistle
  else if 0x18 ≤ off ∧ off < 0x20 then setBits s.dport.flash 63 10 (2 * b2n s.dport.erasing)
  else if 0x100 ≤ off ∧ off < 0x140 then mkWord [(0, b2n (s.captHalted ((off - 0x100) / 8))), (2, b2n (s.captHalted ((off - 0x100) / 8)))]
  else if 0x200 ≤ off ∧ off < 0x300 then tget 0 (s.capt ((off - 0x200) / 32)).brk ((off - 0x200) % 32 / 8)
  else if 0x400 ≤ off ∧ off < 0x800 then
    let i := (off - 0x400) / 0x100 * 16 + off % 0x100 / 16
    if off % 16 < 8 then tget 0 s.dport.brk i else tget 0 s.dport.brkSel i
  else 0

/-- DBG_WHISTLE written: RELEASE acts as SCOPE 0 of R612, which has no effect under an appliance whistle; otherwise REASON blows. -/
def dbgWhistle (s : State) (v : Word64) : State :=
  if bit v 17 then (if s.dport.applWhistle then s else releasePackage s) else blowWhistle s (bits v 16 16) (bits v 15 0)

/-- A DBG_ register written at a word offset. -/
def dbgWrite (s : State) (off : Nat) (v : Word64) : State :=
  let d := s.dport
  if off = 8 then dbgWhistle s v
  else if off = 0x18 then
    let s1 := if d.erasing then s else { s with dport := { d with flash := BitVec.ofNat 64 (bits v 9 0) } }
    if bit v 10 then flashErase s1 (bits v 9 0) else s1
  else if 0x100 ≤ off ∧ off < 0x140 then
    let c := (off - 0x100) / 8
    let s1 := captHalt s c (bit v 0)
    if bit v 1 then captStep s1 c else s1
  else if 0x200 ≤ off ∧ off < 0x300 then
    let c := (off - 0x200) / 32
    s.setCapt c { s.capt c with brk := tput (s.capt c).brk ((off - 0x200) % 32 / 8) (setBits (setBits v 63 32 0) 1 1 0) }
  else if 0x400 ≤ off ∧ off < 0x800 then
    let i := (off - 0x400) / 0x100 * 16 + off % 0x100 / 16
    if off % 16 < 8 then { s with dport := { d with brk := tput d.brk i (setBits v 63 32 0) } }
    else { s with dport := { d with brkSel := tput d.brkSel i (setBits v 63 40 (bits (tget 0 d.brkSel i) 63 40)) } }
  else s

/-! ### Writes of a core's block -/

/-- FLD_SLOT_CTRL written: OP selects (R52, R104). -/
def slotCtrl (s : State) (c slot : Nat) (v : Word64) : State :=
  match bits v 18 16 with
  | 0 =>
    let x := s.slot c slot
    if x.state == .unbound then s
    else setTail (s.setSlot c slot { x with tstage := BitVec.ofNat 8 (bits v 15 8) }) c slot (BitVec.ofNat 8 (bits v 7 0))
  | 1 => slotBind s c slot
  | 2 => slotUnbind s c slot
  | 3 => slotPause s c slot
  | 4 => slotResume s c slot
  | 5 => slotStop s c slot
  | 6 => slotClear s c slot
  | _ => slotRestore s c slot (bits v 15 8) (bits v 7 0)

/-- Bits that a write of 1 clears. -/
def w1c (old v : Word64) (mask : Word64) : Word64 := old &&& ~~~(v &&& mask)

/-- DBG_CORE_CTRL written: STEP_DONE is W1C, HALT and STEP_SLOT are stored, STEP steps (R604, R623). -/
def coreCtrl (s : State) (c : Nat) (v : Word64) : State :=
  let k := s.core c
  let done := bit k.ctrl 4 && !bit v 4
  let s1 := coreHalt (s.setCore c { k with ctrl := mkWord [(0, b2n (bit k.ctrl 0)), (2, bits v 3 2), (4, b2n done)] }) c (bit v 0)
  if bit v 1 then coreStep s1 c (bits v 3 2) else s1

/-- A register of a core's block written at a word offset; FLD_SLOT_CFG only while its slot is UNBOUND (R103), an unlisted offset is ignored. -/
def coreWrite (s : State) (c off : Nat) (v : Word64) : State :=
  let k := s.core c
  let i := off % 0x20 / 8
  let x := k.slot i
  if off < 0x20 then (if x.state = .unbound then s.setSlot c i { x with cfg := v } else s)
  else if off < 0x40 then slotCtrl s c i v
  else if off < 0x60 then s.setSlot c i { x with bindErr := x.bindErr && !bit v 12, fpf := x.fpf &&& ~~~(BitVec.ofNat 5 (bits v 17 13)) }
  else if off < 0x80 then (if bit v 8 then s.setSlot c i { x with fault := setBits x.fault 9 8 0 } else s)
  else if 0x100 ≤ off ∧ off < 0x200 then s.setCore c (inboxWrite k ((off - 0x100) / 8) v)
  else if 0x200 ≤ off ∧ off < 0x600 then chanWrite s c ((off - 0x200) / 8) v
  else if off = 0x600 then s.setCore c { k with wdog := some (BitVec.ofNat 32 (bits v 31 0)) }
  else if 0x800 ≤ off ∧ off < 0xA00 then s.setCore c { k with hurdle := tput k.hurdle ((off - 0x800) / 8) (setBits v 63 33 0) }
  else if off = 0xA00 then coreCtrl s c v
  else s

/-! ### A function's BAR0 (R402 to R404, R408, R409, R416, R417) -/

/-- MBX_STATUS (R398, R403). -/
def mbxStatus (s : State) (f : Fn) : Word64 :=
  mkWord [(0, b2n (s.mbx.ready && !s.mbx.degraded)), (1, b2n s.mbx.degraded), (2, s.power.state.code % 8), (5, b2n s.mbx.resetting),
    (6, b2n (s.boot.stopped || s.captHalted 0)), (7, b2n f.evtOverrun), (8, f.cmdHead % 256), (16, f.evtTail % 256), (32, sat 24 f.backlog.length)]

/-- A function register at the word that holds an offset. -/
def mbxReg (s : State) (fn off : Nat) : Word64 :=
  let f := s.fn fn
  if off < 8 then mbxStatus s f
  else if off < 0x10 then mkWord [(0, f.coalUs), (16, f.cmdLwm)]
  else if 0x100 ≤ off ∧ off < 0x120 then tget 0 f.ap ((off - 0x100) / 8)
  else if 0x140 ≤ off ∧ off < 0x148 then BitVec.ofNat 64 (sat 48 f.loadDrop)
  else 0

/-- One byte of BAR0 as a host read returns it. -/
def bar0Byte (s : State) (fn off : Nat) : Byte :=
  let f := s.fn fn
  if off < 0x1000 then BitVec.ofNat 8 (bits (mbxReg s fn off) (off % 8 * 8 + 7) (off % 8 * 8))
  else if 0x9000 ≤ off ∧ off < 0x9008 then (if off = 0x9000 then f.pba else 0)
  else if (0x8000 ≤ off ∧ off < 0x8080) ∨ (0x10000 ≤ off ∧ off < 0x18000) ∨ (0x100000 ≤ off ∧ off < 0x300000) then mget 0 f.sram off
  else 0

/-- Whether the host reaches a function: it is enabled, the package is on, and its host port is not held in reset or in L2 (R400, R414, R636). -/
def hostReaches (s : State) (fn : Nat) : Bool :=
  decide (fn < 16) && (s.fn fn).enabled && s.power.stewardOn && !s.isOff && !s.entry.perst && !s.entry.oscDead

/-- A pending vector that has been unmasked is sent (R417). -/
def firePending (s : State) (fn v : Nat) : State :=
  let f := s.fn fn
  if f.pba.getLsbD v && !msixMasked f v then
    (s.setFn fn { f with pba := f.pba &&& ~~~(BitVec.ofNat 8 (2 ^ v)) }).emit (.msix fn v)
  else s

/-- An event slot returned: backlogged events are posted (R409, R413). -/
def evtReturn (s : State) (fn slot : Nat) : State :=
  let f := s.fn fn
  if slotOwn f (evtHdr slot) then drainBacklog 256 (s.setFn fn { f with sram := mput 0 f.sram (evtHdr slot) 0 }) fn else s

/-- A register word of a function written. -/
def mbxWrite (s : State) (fn off : Nat) (v : Word64) : State :=
  let f := s.fn fn
  if off = 8 then s.setFn fn { f with coalUs := bits v 15 0, cmdLwm := bits v 23 16 }
  else if 0x100 ≤ off ∧ off < 0x120 then
    s.setFn fn { f with ap := tput f.ap ((off - 0x100) / 8) (mkWord [(0, bits v 4 0), (8, bits v 55 8)]) }
  else s

/-- A host write into BAR0: registers by their words, the MSI-X table with the vectors it unmasks, a command slot while the host has it, the return of an event
slot; the Port die drops every other (R402, R408, R409). -/
def bar0Write (s : State) (fn off size : Nat) (v : Word64) : State :=
  let f := s.fn fn
  let l := leBytes size v.toNat
  let store (s : State) : State := s.setFn fn { s.fn fn with sram := mwrite 0 (s.fn fn).sram off l }
  if off < 0x1000 then
    mbxWrite s fn (off / 8 * 8) (BitVec.ofNat 64 (leNat ((List.range 8).map fun i =>
      if off % 8 ≤ i ∧ i < off % 8 + size then nth 0 l (i - off % 8) else bar0Byte s fn (off / 8 * 8 + i))))
  else if 0x8000 ≤ off ∧ off < 0x8080 then (List.range 8).foldl (fun s v => firePending s fn v) (store s)
  else if 0x10000 ≤ off ∧ off < 0x14000 then (if slotOwn f (cmdHdr ((off - 0x10000) / 0x40)) then s else store s)
  else if 0x14000 ≤ off ∧ off < 0x18000 then
    (if off % 0x40 = 0 ∧ !bit v 0 then evtReturn s fn ((off - 0x14000) / 0x40) else s)
  else if 0x100000 ≤ off ∧ off < 0x200000 then (if slotOwn f (cmdHdr ((off - 0x100000) / 0x1000)) then s else store s)
  else s

/-! ### Who reaches a register -/

/-- Whether a master reaches a register: a starter its own row's cores, its die's FLD_NUM_CFG and the rings it owns, a captain everything but the host's BAR0, the
ring entries and the DBG_ registers, the debug port at OBSERVE what APACC reaches, the host its function's BAR0 alone (R102, R146, R180, R196, R247, R402, R596). -/
def reaches (s : State) (w : Writer) (r : RegAddr) : Bool :=
  match w, r with
  | .host f, .bar0 g _ _ => f == g && hostReaches s g
  | .host _, _ => false
  | _, .bar0 _ _ _ => false
  | .starter d row, .ringEntry e p _ => decide (e < 12) && s.power.besideOn && (tget Ring.reset (s.bdie e).rings p).owner.toNat == 16 * d + row
  | _, .ringEntry _ _ _ => false
  | .debugPort, .spad _ _ | .debugPort, .acc _ _ => false
  | .debugPort, _ => decide (1 ≤ s.dport.level)
  | _, .dbg _ => false
  | .captain, .core c _ | .captain, .spad c _ | .captain, .acc c _ => s.coreRegs c
  | .captain, .besideCfg d | .captain, .memStat d | .captain, .ueAddr d | .captain, .wp d _ _ | .captain, .ring d _ => decide (d < 12) && s.power.besideOn
  | .captain, _ => s.power.stewardOn
  | .starter d row, .core c _ | .starter d row, .spad c _ | .starter d row, .acc c _ => coreDie c == d && coreRow c == row && s.coreRegs c
  | .starter d _, .numCfg e => d == e && s.power.fieldOn
  | .starter d row, .ring e p => decide (e < 12) && s.power.besideOn && (tget Ring.reset (s.bdie e).rings p).owner.toNat == 16 * d + row
  | .starter _ _, _ => false

/-- BSD_RING as it reads (R196). -/
def regRing (r : Ring) : Word64 :=
  mkWord [(0, r.tail.toNat), (8, r.head.toNat), (16, match r.state with | .idle => 0 | .running => 1 | .stopped => 2), (19, r.owner.toNat), (25, b2n r.en)]

/-- Two neighbouring elements of the accumulator store as one word, the lower element in its low half. -/
def accPair (k : Core) (i : Nat) : Word64 := BitVec.ofNat 64 ((mget 0 k.acc (2 * i)).toNat + (mget 0 k.acc (2 * i + 1)).toNat * 2 ^ 32)

/-- A register's value. -/
def regValue (s : State) (r : RegAddr) : Word64 :=
  match r with
  | .core c off => if s.coreRegs c then coreReg s c off else 0
  | .spad c off => if s.coreRegs c ∧ off < 768 * 4096 then BitVec.ofNat 64 (leNat (mread 0 (s.core c).spad (off / 8 * 8) 8)) else 0
  | .acc c off => if s.coreRegs c ∧ off < 0x40000 then accPair (s.core c) (off / 8) else 0
  | .ringEntry d p off => if off < 0x4000 then BitVec.ofNat 64 (leNat (mread 0 (tget Ring.reset (s.bdie d).rings p).sram (off / 8 * 8) 8)) else 0
  | .besideCfg d => s.besideCfg d
  | .memStat d => regMemStat s d
  | .ueAddr d => (s.bdie d).ueAddr
  | .wp d p i => tget 0 (s.bdie d).wp (p * 8 + i)
  | .ring d p => regRing (tget Ring.reset (s.bdie d).rings p)
  | .bar0 fn off size => BitVec.ofNat 64 (leNat ((List.range size).map fun i => bar0Byte s fn (off + i)))
  | .numCfg d => s.numCfg d
  | .kvStat p => regKvStat s p
  | .expStat p => regExpStat s p
  | .expLa p => regExpLa s p
  | .specStat p => regSpecStat s p
  | .schedStat p => regSchedStat s p
  | .ftlCfg => regFtlCfg s
  | .ftlStat => regFtlStat s
  | .fabStat => regFabStat s
  | .linkStat l => regLinkStat s l
  | .twinStat => regTwinStat s
  | .lsLast => s.twin.lsLast
  | .govStat => regGovStat s
  | .enStat => regEnStat s
  | .bootStat => regBootStat s
  | .inStat => regInStat s
  | .dbg off => dbgReg s off
  | .placeCfg | .wgtCfg | .kvCfg | .expCfg | .specCfg | .schedCfg | .pacerCfg | .fabCfg | .twinCfg | .govCfg | .stateCfg | .detCfg =>
    cfgWord s.settings (regFields r)

/-- A partition's statistics changed in place. -/
def clearStats (s : State) (p : Nat) (f : PartStats → PartStats) : State := s.setPart p { s.part p with stats := f (s.part p).stats }

/-- The RC fields of a register cleared (R19). -/
def clearRc (s : State) (r : RegAddr) : State :=
  match r with
  | .memStat d => s.setBdie d { s.bdie d with ceCount := 0, ueCount := 0 }
  | .bar0 fn off size => if off < 0x148 ∧ 0x140 < off + size then s.setFn fn { s.fn fn with loadDrop := 0 } else s
  | .kvStat p => clearStats s p fun t => { t with kvDrops := 0, recomp := 0 }
  | .expStat p => clearStats s p fun t => { t with drops := 0, staleReturn := 0, staleDisp := 0, exits := 0 }
  | .expLa p => clearStats s p fun t => { t with laHit := 0, laMiss := 0 }
  | .specStat p => clearStats s p fun t => { t with draftAcc := 0, draftRej := 0, staleVerdict := 0 }
  | .schedStat p => clearStats s p fun t => { t with swaps := 0, evictAbort := 0, schedStall := 0 }
  | .fabStat => { s with fab := { s.fab with hopDrop := 0, roleFwd := 0 } }
  | .linkStat l => s.setLink l { s.link l with replays := 0, fecUncorr := 0, downs := 0 }
  | .twinStat => { s with twin := { s.twin with failovers := 0, lsChecks := 0, lsMismatch := 0, lsUnchecked := 0 } }
  | .govStat => { s with power := { s.power with fastTrips := 0, stretch := 0 } }
  | .enStat => { s with energy := { s.energy with blocksSigned := 0, flushFail := 0 } }
  | .inStat => { s with entry := { s.entry with warns := 0 } }
  | .dbg off =>
    if 0x10 ≤ off ∧ off < 0x18 then { s with dport := { s.dport with whistle := setBits s.dport.whistle 41 26 0 } }
    else if 0x400 ≤ off ∧ off < 0x800 ∧ 8 ≤ off % 16 then
      let i := (off - 0x400) / 0x100 * 16 + off % 0x100 / 16
      { s with dport := { s.dport with brkSel := tput s.dport.brkSel i (setBits (tget 0 s.dport.brkSel i) 63 40 0) } }
    else s
  | _ => s

/-- The fields of a configuration register set as settings of the running package, as its captains write them (R579). -/
def cfgWrite (s : State) (l : List (Nat × Nat)) (v : Word64) : State :=
  l.foldl (fun s p =>
    match fieldDef p.2 with
    | some d => let x := nbits v.toNat (p.1 + d.width - 1) p.1
      if s.settings.raw p.2 = x then s else setCfg s p.2 x
    | none => s) s

/-- A register written; a read-only field ignores it, a W1C bit is cleared by 1 (R19). -/
def regWrite (s : State) (w : Writer) (r : RegAddr) (v : Word64) : State :=
  match r with
  | .core c off => if s.coreRegs c then coreWrite s c (off / 8 * 8) v else s
  | .spad c off =>
    if s.coreRegs c ∧ off < 768 * 4096 then
      s.setCore c { s.core c with spad := mwrite 0 (s.core c).spad (off / 8 * 8) (leBytes 8 v.toNat) }
    else s
  | .acc c off =>
    if s.coreRegs c ∧ off < 0x40000 then
      s.setCore c { s.core c with acc := mwrite 0 (s.core c).acc (off / 8 * 2) [BitVec.ofNat 32 (bits v 31 0), BitVec.ofNat 32 (bits v 63 32)] }
    else s
  | .ringEntry d p off =>
    if p < 16 ∧ off < 0x4000 then
      let x := tget Ring.reset (s.bdie d).rings p
      s.setBdie d { s.bdie d with rings := tput (s.bdie d).rings p { x with sram := mwrite 0 x.sram (off / 8 * 8) (leBytes 8 v.toNat) } }
    else s
  | .besideCfg d => { s with settings := { s.settings with bsdCfg := tput s.settings.bsdCfg d (setBits v 63 21 0) } }
  | .ueAddr d => s.setBdie d { s.bdie d with ueAddr := w1c (s.bdie d).ueAddr v (BitVec.ofNat 64 (2 ^ 36)) }
  | .wp d p i =>
    if w = .captain ∧ p < 16 ∧ i < 8 then
      s.setBdie d { s.bdie d with wp := tput (s.bdie d).wp (p * 8 + i) (mkWord [(0, bits v 0 0), (16, bits v 30 16), (32, bits v 46 32)]) }
    else s
  | .ring d p =>
    if w = .captain ∧ p < 16 then
      let x := tget Ring.reset (s.bdie d).rings p
      s.setBdie d { s.bdie d with rings := tput (s.bdie d).rings p { x with owner := BitVec.ofNat 6 (bits v 24 19), en := bit v 25 } }
    else s
  | .bar0 fn off size => bar0Write s fn off size v
  | .numCfg d => if d < 4 then { s with settings := { s.settings with numCfg := tput s.settings.numCfg d (setBits v 63 12 0) } } else s
  | .placeCfg | .wgtCfg | .kvCfg | .expCfg | .specCfg | .schedCfg | .pacerCfg | .fabCfg | .twinCfg | .govCfg | .stateCfg | .detCfg =>
    cfgWrite s (regFields r) v
  | .lsLast => { s with twin := { s.twin with lsLast := w1c s.twin.lsLast v (BitVec.ofNat 64 (2 ^ 48)) } }
  | .inStat => { s with entry := { s.entry with uvEvent := s.entry.uvEvent && !bit v 19, thermTrip := s.entry.thermTrip && !bit v 20 } }
  | .dbg off => dbgWrite s (off / 8 * 8) v
  | .memStat _ | .kvStat _ | .expStat _ | .expLa _ | .specStat _ | .schedStat _ | .ftlCfg | .ftlStat | .fabStat | .linkStat _ | .twinStat | .govStat
  | .enStat | .bootStat => s

/-- REGISTER_WRITE. The debug port writes at CONTROL alone (R596). -/
def execRegisterWrite (w : Writer) (r : RegAddr) (value : Word64) (s : State) : Host.Outcome State Fault Refusal :=
  .next (if reaches s w r && (w != .debugPort || s.dport.level == 2) then settle (regWrite s w r value) else s)

/-- RC_REGISTER_READ: the value is returned, then its RC fields are cleared. Through the debug port a read changes nothing but the DBG_ registers' own RC fields
(R19, R601). A master that does not reach the register reads zero. -/
def execRcRegisterRead (w : Writer) (r : RegAddr) (s : State) : Host.Outcome State Fault Refusal :=
  .next (
    if reaches s w r then
      let s1 := s.emit (.regRead (regValue s r))
      match w, r with
      | .debugPort, .dbg _ => clearRc s1 r
      | .debugPort, _ => s1
      | _, _ => clearRc s1 r
    else s.emit (.regRead 0))

end Sys2Proof.Machine
end

