-- ==== Sys2Proof/Machine/Debug.lean ====
section
/-!
DEFINITION. The debug port, halts, the whistle's commands, the scoreboard and the tensor watch (R593 to R623).
-/

namespace Sys2Proof.Machine

/-! ### The TAP (R593 to R595) -/

/-- A TAP instruction is selected. -/
def tapIr (s : State) (ir : Nat) : State := { s with dport := { s.dport with ir := ir, scanPos := if s.dport.ir = 0x22 ∧ ir = 0x22 then s.dport.scanPos else 0 } }

/-- Bits a scan shifts out. -/
def tdo (s : State) (v : Nat) : State := ({ s with dport := { s.dport with dr := v } }).emit (.tdo v)

/-- The pins' levels a boundary scan captures: no rule gives the register's cells, so a free value (log 10). -/
def sampled (s : State) (n : Nat) : State := let d := s.draw (2 ^ n); tdo d.2 d.1

/-- EXTEST: the boundary register drives the covered pins, and their levels are captured (R594). -/
def execExtest (bits : List Bool) (s : State) : Host.Outcome State Fault Refusal :=
  .next (sampled { tapIr s 0 with dport := { (tapIr s 0).dport with boundary := bits, extest := true } } bits.length)

/-- SAMPLE/PRELOAD: the pins' levels are captured, and the boundary register is preloaded. -/
def execSamplePreload (bits : List Bool) (s : State) : Host.Outcome State Fault Refusal :=
  .next (sampled { tapIr s 1 with dport := { (tapIr s 1).dport with boundary := bits } } bits.length)

/-- IDCODE (R594). -/
def idcodeValue (p : Package) : Nat := p.idRev.toNat * 2 ^ 28 + 0x9600 * 2 ^ 12 + p.jedec.toNat * 2 + 1

/-- IDCODE. -/
def execIdcode (s : State) : Host.Outcome State Fault Refusal := .next (tdo (tapIr s 2) (idcodeValue s.pkg))

/-- STATUS: DBG_STATUS is read. -/
def execTapStatus (s : State) : Host.Outcome State Fault Refusal := .next (tdo (tapIr s 0x10) (regDbgStatus s).toNat)

/-- BYPASS, and every code R595 does not list: the one-bit register returns what was last shifted in. -/
def execBypass (ir : Nat) (tdi : Bool) (s : State) : Host.Outcome State Fault Refusal :=
  .next (
    if [0, 1, 2, 0x10, 0x11, 0x12, 0x13, 0x20, 0x21, 0x22].contains ir ∨ 256 ≤ ir then s
    else
      let old := if s.dport.ir = ir then s.dport.dr % 2 else 0
      let s1 := tdo (tapIr s ir) old
      { s1 with dport := { s1.dport with dr := b2n tdi } })

/-! ### Unlock (R596 to R599) -/

/-- The 64 bytes of a challenge with its NONCE. -/
def challengeBytes (s : State) (nonce : List Byte) : List Byte :=
  leBytes 4 0x55444B58 ++ leBytes 2 1 ++ zeros 2 ++ leBytes 8 s.pkg.serial ++ leBytes 4 s.boot.bootCount ++ zeros 4 ++ nonce ++ zeros 8

/-- UNLOCK_CHAL: a new challenge replaces any earlier one; its NONCE comes from the enclave's random source (log 10). -/
def execUnlockChal (s : State) : Host.Outcome State Fault Refusal :=
  .next (
    let c := challengeBytes s (freeBytes s 32)
    let s1 := tapIr (s.drew 32) 0x11
    tdo { s1 with dport := { s1.dport with challenge := some (c, s.aon) } } (leNat c))

/-- Whether a response grants its LEVEL (R598). -/
def responseOk (s : State) (r : List Byte) : Bool :=
  let level := ble r 0 1
  let slot := ble r 1 1
  let n := bsub r 8 384
  let key := bsub r 8 388
  (level == 1 || level == 2) && decide (slot < 4) && r.length == 784 && keyForm n (ble r 392 4) && nth 0 s.pkg.vendorKeys slot == sha256 key &&
  !s.pkg.revoked.contains slot &&
  match s.dport.challenge with
  | some (c, t) => decide (s.aon < t + msAon 60000) && pssVerify n (ble r 392 4) (sha256Bytes (c ++ r.take 400)) (bsub r 400 384)
  | none => false

/-- UNLOCK_RESP: ignored in lockout; a challenge takes one response; three failures lock the port out (R599). -/
def execUnlockResp (resp : List Byte) (s : State) : Host.Outcome State Fault Refusal :=
  .next (
    let s1 := tapIr s 0x12
    let d := s1.dport
    if d.lockout then s1
    else if responseOk s resp then { s1 with dport := { d with level := ble resp 0 1, unlocked := true, challenge := none } }
    else { s1 with dport := { d with fails := d.fails + 1, lockout := decide (3 ≤ d.fails + 1), challenge := none } })

/-- LOCK. -/
def execLock (s : State) : Host.Outcome State Fault Refusal := .next { tapIr s 0x13 with dport := { (tapIr s 0x13).dport with level := 0 } }

/-! ### APACC (R600 to R602) -/

/-- STATUS codes. -/
def apOK : Nat := 0
def apLOCKED : Nat := 1
def apADDR : Nat := 2
def apOFF : Nat := 3
def apREFUSED : Nat := 4
def apPOISON : Nat := 5
def apBUSY : Nat := 6

/-- APACC: the scan returns the last access's data and STATUS, and its update starts an access: refused while the port's level does not allow it, BUSY while
one is in progress. -/
def execApacc (dr : BitVec 136) (s : State) : Host.Outcome State Fault Refusal :=
  .next (
    let s1 := tdo (tapIr s 0x20) (s.dport.apData.toNat + s.dport.apStatus * 2 ^ 132)
    let d := s1.dport
    let w := dr.toNat
    let write := nbits w 128 128 = 1
    if d.level = 0 ∨ (write ∧ d.level < 2) then { s1 with dport := { d with apData := 0, apStatus := apLOCKED } }
    else if d.access.isSome then { s1 with dport := { d with apData := 0, apStatus := apBUSY } }
    else { s1 with dport := { d with access := some ⟨BitVec.ofNat 64 (nbits w 127 64), BitVec.ofNat 64 (nbits w 63 0), nbits w 130 129, write⟩ } })

/-- Bytes of a core's accumulator store. -/
def accByte (k : Core) (i : Nat) : Byte := BitVec.ofNat 8 ((tget 0 k.acc (i / 4)).toNat / 2 ^ (8 * (i % 4)))

/-- One byte of the accumulator store written. -/
def accPut (k : Core) (i : Nat) (b : Byte) : Core :=
  let w := (tget 0 k.acc (i / 4)).toNat
  { k with acc := mput 0 k.acc (i / 4) (BitVec.ofNat 32 (nset w (8 * (i % 4) + 7) (8 * (i % 4)) b.toNat)) }

/-- A write of some bytes of a register word: the other bytes keep the value they read, with the bits that a write of 1 acts on written 0. -/
def mergeWord (old keep : Word64) (off n v : Nat) : Word64 :=
  let o := (old &&& keep).toNat
  BitVec.ofNat 64 (leNat ((List.range 8).map fun i =>
    if off % 8 ≤ i ∧ i < off % 8 + n then BitVec.ofNat 8 (v / 2 ^ (8 * (i - off % 8))) else BitVec.ofNat 8 (o / 2 ^ (8 * i))))

/-- Bits of a core's register word that a narrower write may give back as they read. -/
def keepBits (off : Nat) : Word64 :=
  if 0x20 ≤ off ∧ off < 0x40 then 0xFFFF
  else if 0x40 ≤ off ∧ off < 0x60 then 0
  else if 0x60 ≤ off ∧ off < 0x80 then ~~~0x100
  else if 0xA00 ≤ off ∧ off < 0xA08 then 0xD
  else ~~~0

/-- What an access answers: state, data, STATUS. -/
abbrev Answer : Type := State × Nat × Nat

/-- Bytes read. -/
def answered (s : State) (l : List Byte) : Answer := (s, leNat l, apOK)

/-- An access to a core's scratchpad, block or accumulator store; a disabled core and a die without power answer POWERED_OFF with zero data. -/
def apCore (s : State) (kind c off n : Nat) (write : Bool) (v : Nat) : Answer :=
  let k := s.core c
  let size := if kind = 0 then 768 * 4096 else if kind = 1 then 0x10000 else 0x40000
  if size < off + n ∨ 24 ≤ coreCol c then (s, 0, apADDR)
  else if !s.coreRegs c then (s, 0, apOFF)
  else match kind, write with
    | 0, false => answered s (mread 0 k.spad off n)
    | 0, true => (s.setCore c { k with spad := mwrite 0 k.spad off (leBytes n v) }, 0, apOK)
    | 1, false => answered s (bsub (leBytes 8 (coreReg s c off).toNat) (off % 8) n)
    | 1, true => (settle (coreWrite s c (off / 8 * 8) (mergeWord (coreReg s c off) (keepBits off) off n v)), 0, apOK)
    | _, false => answered s ((List.range n).map fun i => accByte k (off + i))
    | _, true => (s.setCore c ((List.range n).foldl (fun k i => accPut k (off + i) (BitVec.ofNat 8 (v / 2 ^ (8 * i)))) k), 0, apOK)

/-- An access to physical near memory: poison is reported, a write passes the protection and the directory (R203, R246). -/
def apNear (s : State) (a n : Nat) (write : Bool) (v : Nat) : Answer :=
  let st := nbits a 39 36
  let off := nbits a 35 0
  let guarded := match lineOwner s st (off / 64) with
    | some (p, na) => wpHit s p (na + off % 64) n
    | none => false
  if 12 ≤ st then (s, 0, apADDR)
  else if !s.power.besideOn ∨ s.power.state = .rest then (s, 0, apOFF)
  else if write then
    if guarded then (s, 0, apREFUSED) else ((stackWrite 2 (s, []) st off (leBytes n v) false []).1, 0, apOK)
  else (s, leNat (stackRead s st off n), if tget false (s.bdie st).poison (off / 64) then apPOISON else apOK)

/-- An access to the NOR: identity and PUF data are never read; programming takes 8-byte writes into erased bytes of an erased sector (R596, R601). -/
def apNor (s : State) (a n : Nat) (write : Bool) (v : Nat) : Answer :=
  let sector := a / 65536
  if !s.power.stewardOn then (s, 0, apOFF)
  else if write then
    if n ≠ 8 ∨ !flashOpen sector ∨ !s.dport.erased.contains sector ∨ s.dport.erasing ∨ (norRead s a 8).any (· != 0xFF) then (s, 0, apREFUSED)
    else
      let s1 := norWrite s a (leBytes 8 v)
      let slot := if 0x20 ≤ sector ∧ sector < 0x120 then some 0 else if 0x120 ≤ sector ∧ sector < 0x220 then some 1 else none
      (match slot with | some k => { s1 with boot := { s1.boot with captFails := tdel s1.boot.captFails k } } | none => s1, 0, apOK)
  else if sector = 0x221 ∨ sector = 0x222 then (s, 0, apREFUSED)
  else answered s (norRead s a n)

/-- An access to a captain's memory and registers: what firmware keeps there is not given, so an unwritten byte reads as a free value. -/
def apCaptain (s : State) (c a n : Nat) (write : Bool) (v : Nat) : Answer :=
  let x := s.capt c
  if !s.power.stewardOn then (s, 0, apOFF)
  else if write then
    (s.setCapt c { x with mem := (List.range n).foldl (fun m i => tput m (a + i) (BitVec.ofNat 8 (v / 2 ^ (8 * i)))) x.mem }, 0, apOK)
  else answered s ((List.range n).map fun i => tget (BitVec.ofNat 8 (Config.dieRegister (0x40 + c) (a + i))) x.mem (a + i))

/-- One access carried out (R600, R601). Beside, Steward, Port and Junction register offsets are not given: reads are free values, writes reach nothing. -/
def apAccess (s : State) (x : Access) : Answer :=
  let a := x.addr.toNat
  let t := nbits a 63 56
  let n := 2 ^ x.size
  let v := x.data.toNat
  let core (d : Nat) : Nat := coreAddr d (nbits a 55 52) (nbits a 51 47)
  if a % n ≠ 0 then (s, 0, apADDR)
  else if 0x10 ≤ t ∧ t < 0x14 then apCore s 0 (core (t - 0x10)) (nbits a 21 0) n x.write v
  else if 0x14 ≤ t ∧ t < 0x18 then apCore s 1 (core (t - 0x14)) (nbits a 15 0) n x.write v
  else if 0x18 ≤ t ∧ t < 0x1C then apCore s 2 (core (t - 0x18)) (nbits a 17 0) n x.write v
  else if 0x1C ≤ t ∧ t < 0x20 then
    let st := 16 * (t - 0x1C) + nbits a 55 52
    let off := nbits a 18 0
    if !s.power.fieldOn then (s, 0, apOFF)
    else if x.write then (s.setStarter st { s.starter st with mem := mwrite 0 (s.starter st).mem off (leBytes n v) }, 0, apOK)
    else answered s (mread 0 (s.starter st).mem off n)
  else if t = 0x20 then apNear s (nbits a 39 0) n x.write v
  else if 0x30 ≤ t ∧ t < 0x3C then
    if !s.power.besideOn then (s, 0, apOFF) else if x.write then (s, 0, apOK) else (s, Config.dieRegister t (nbits a 15 0) % 2 ^ (8 * n), apOK)
  else if 0x40 ≤ t ∧ t < 0x48 then apCaptain s (t - 0x40) (nbits a 31 0) n x.write v
  else if t = 0x50 then
    if !s.power.stewardOn then (s, 0, apOFF) else if x.write then (s, 0, apOK) else (s, Config.dieRegister t (nbits a 23 0) % 2 ^ (8 * n), apOK)
  else if t = 0x60 then apNor s (nbits a 25 0) n x.write v
  else if t = 0x70 then
    let off := nbits a 11 0
    if x.write then
      if off / 8 * 8 = 0x18 ∧ nbits (v * 2 ^ (8 * (off % 8))) 10 10 = 1 ∧ !flashOpen (nbits v 9 0) then (s, 0, apREFUSED)
      else (dbgWrite s (off / 8 * 8) (mergeWord (dbgReg s off) (~~~0) off n v), 0, apOK)
    else (clearRc s (.dbg off), leNat (bsub (leBytes 8 (dbgReg s off).toNat) (off % 8) n), apOK)
  else (s, 0, apADDR)

/-- APACC_ACCESS_DONE: the access completes; the next scan returns its data and STATUS. -/
def execApaccAccessDone (s : State) : Host.Outcome State Fault Refusal :=
  .next (
    match s.dport.access with
    | none => s
    | some x =>
      let r := apAccess s x
      { r.1 with dport := { r.1.dport with access := none, apData := BitVec.ofNat 64 r.2.1, apStatus := r.2.2 } })

/-! ### Halts (R603 to R606) -/

/-- CORE_HALT: at CONTROL (R596, R603). -/
def execCoreHalt (core : Nat) (halt : Bool) (s : State) : Host.Outcome State Fault Refusal :=
  .next (if s.dport.level = 2 ∧ s.coreRegs core then coreHalt s core halt else s)

/-- CORE_STEP: at CONTROL (R596, R604). -/
def execCoreStep (core slot : Nat) (s : State) : Host.Outcome State Fault Refusal :=
  .next (if s.dport.level = 2 ∧ s.coreRegs core ∧ slot < 4 then settle (coreStep s core slot) else s)

/-- CAPT_HALT: at CONTROL (R596, R606). -/
def execCaptHalt (captain : Nat) (halt : Bool) (s : State) : Host.Outcome State Fault Refusal :=
  .next (if s.dport.level = 2 ∧ captain < 8 then captHalt s captain halt else s)

/-- CAPT_STEP: at CONTROL (R596, R606). -/
def execCaptStep (captain : Nat) (s : State) : Host.Outcome State Fault Refusal :=
  .next (if s.dport.level = 2 ∧ captain < 8 then captStep s captain else s)

/-- CAPT_BREAKPOINT: a running captain reaches the instruction an enabled breakpoint names, and halts before it (R606). -/
def execCaptBreakpoint (captain brk : Nat) (s : State) : Host.Outcome State Fault Refusal :=
  .next (
    let w := tget 0 (s.capt captain).brk brk
    if captain < 8 ∧ brk < 4 ∧ bit w 0 ∧ !s.captHalted captain then
      captHalt (s.setCapt captain { s.capt captain with pc := BitVec.ofNat 32 (bits w 31 2 * 4) }) captain true
    else s)

/-! ### The NOR (R601, R623) -/

/-- FLASH_ERASE: at CONTROL, in firmware slots and settings banks. -/
def execFlashErase (sector : Nat) (s : State) : Host.Outcome State Fault Refusal :=
  .next (if s.dport.level = 2 ∧ s.power.stewardOn then flashErase s sector else s)

/-- FLASH_ERASE_DONE: BUSY clears, and the sector takes programming. -/
def execFlashEraseDone (s : State) : Host.Outcome State Fault Refusal :=
  .next (
    if s.dport.erasing then
      let k := bits s.dport.flash 9 0
      let s1 := norErase s (k * 65536)
      { s1 with dport := { s1.dport with erasing := false, erased := if s1.dport.erased.contains k then s1.dport.erased else s1.dport.erased ++ [k] } }
    else s)

/-! ### The whistle (R607 to R613) -/

/-- TAP_WHISTLE: the package whistle with the shifted REASON, 0x8001 when it is 0 (R608). -/
def execTapWhistle (reason : Nat) (s : State) : Host.Outcome State Fault Refusal :=
  .next (blowWhistle (tapIr s 0x21) 0 (if reason % 65536 = 0 then 0x8001 else reason % 65536))

/-- WHISTLE_REG_BLOW: REASON written to DBG_WHISTLE at CONTROL blows the whistle SCOPE names (R623). -/
def execWhistleRegBlow (value : Word64) (s : State) : Host.Outcome State Fault Refusal :=
  .next (if s.dport.level = 2 ∧ !bit value 17 then dbgWhistle s value else s)

/-- WHISTLE_REG_RELEASE: RELEASE written to DBG_WHISTLE at CONTROL (R612). -/
def execWhistleRegRelease (s : State) : Host.Outcome State Fault Refusal :=
  .next (if s.dport.level = 2 then dbgWhistle s (BitVec.ofNat 64 (2 ^ 17)) else s)

/-- WHISTLE received on CTL: the package holds a whistle of its scope (R609). -/
def execWhistle (src pseq scope reason : Nat) (s : State) : Host.Outcome State Fault Refusal :=
  .next (if takesFrom s src ∧ scope < 2 then holdWhistle s scope reason src pseq else s)

/-- WHISTLE_NOTE or its release note: the sender is marked WHISTLED, or no longer (R609). -/
def execWhistleNote (src _pseq : Nat) (release : Bool) (s : State) : Host.Outcome State Fault Refusal :=
  .next (
    if !takesFrom s src ∨ src = s.fab.node then s
    else
      let l := s.dport.whistled.filter (· != src)
      { s with dport := { s.dport with whistled := if release then l else l ++ [src] } })

/-- WHISTLE_RELEASE received on CTL: every appliance whistle received before it is released (R612). -/
def execWhistleRelease (src _pseq : Nat) (s : State) : Host.Outcome State Fault Refusal :=
  .next (if takesFrom s src then releaseAppliance s else s)

/-- DBG.WHISTLE: blows with a host REASON, or releases with 0xFFFF (R608, R612). -/
def bodyDbgWhistle (s : State) (m : Msg) : State :=
  let scope := ble m.payload 0 1
  let reason := ble m.payload 2 2
  let ok (s : State) : State := reply s 0x0901 m stOK []
  let no (st : Nat) : State := reply s 0x0901 m st []
  if 1 < scope then no stBAD_FIELD
  else if reason = 0xFFFF then
    if scope = 0 then (if s.dport.applWhistle then no stNOT_PERMITTED else ok (releasePackage s))
    else ok (releaseAppliance (s.send .all .whistleRelease))
  else if reason = 0 ∨ 0x8000 ≤ reason then no stBAD_FIELD
  else ok (blowWhistle s scope reason)

/-- DBG_WHISTLE. -/
def execDbgWhistle (m : Msg) (s : State) : Host.Outcome State Fault Refusal := .next (settle (serve s 0x0901 m bodyDbgWhistle))

/-- SCOREBOARD_IMAGE_READY: the whistle image is complete (R611). -/
def execScoreboardImageReady (s : State) : Host.Outcome State Fault Refusal :=
  .next (if s.dport.imageW.isSome then { s with dport := { s.dport with imageReady := true } } else s)

/-! ### The scoreboard image (R615 to R618) -/

/-- A section: its header and body. -/
def section_ (kind inst cycle : Nat) (body : List Byte) : List Byte :=
  leBytes 1 kind ++ zeros 1 ++ leBytes 2 inst ++ leBytes 4 body.length ++ leBytes 8 cycle ++ body

/-- Every core place of a Field die in order 24r + c. -/
def dieCores (d : Nat) : List Nat := (List.range 16).flatMap (rowCores d)

/-- A core of an image. -/
def Image.core (x : Image) (c : Nat) : Core := tget Core.reset x.cores c

/-- The 16 bytes of a slot in a HALT record. -/
def haltSlot (x : SlotSt) : List Byte :=
  let run (e : Nat) : Option Started := x.started.find? (·.engine == e)
  leBytes 1 x.state.code ++ leBytes 1 x.head.toNat ++ leBytes 1 x.tail.toNat ++ leBytes 1 (if bit x.fault 8 then bits x.fault 7 0 else 0) ++
  ((List.range 4).flatMap fun e => leBytes 1 (match run e with | some t => t.cmd.ring | none => 0xFF)) ++
  leBytes 2 (match run 0 with | some t => t.cmd.tag | none => 0) ++ zeros 6

/-- The 24 bytes of a beside engine: BUSY, IDLE and WAIT_DRAM; IDLE is what remains of the Beside cycles. -/
def engineRecord (b : BesideDie) (cycle e : Nat) : List Byte :=
  let busy := tget 0 b.engCtr (e * 3)
  let wait := tget 0 b.engCtr (e * 3 + 2)
  leBytes 8 busy ++ leBytes 8 (cycle - busy - wait) ++ leBytes 8 wait

/-- The bytes of an image. -/
def whistleBytes (s : State) (x : Image) : List Byte :=
  let core (c : Nat) : List Byte := if s.coreOk c then counterRecord (x.core c) x.countQ else zeros 768
  let halt (c : Nat) : List Byte := if s.coreOk c then (List.range 4).flatMap fun k => haltSlot ((x.core c).slot k) else zeros 64
  let body :=
    ((List.range 4).flatMap fun d => section_ 1 d x.cycle ((dieCores d).flatMap core)) ++
    ((List.range 12).flatMap fun d =>
      let b := tget BesideDie.reset x.beside d
      section_ 2 d x.besideCycle (((List.range 64).flatMap (engineRecord b x.besideCycle)) ++ leBytes 8 b.dlvBytes ++ leBytes 8 b.bsdBytes ++
        leBytes 8 b.atomics ++ zeros 8)) ++
    section_ 3 0 x.aon (x.regs.flatMap fun w => leBytes 8 w.toNat) ++
    (if x.cause = 1 then (List.range 4).flatMap fun d => section_ 4 d x.cycle ((dieCores d).flatMap halt) else [])
  leBytes 4 0x42534B58 ++ leBytes 2 1 ++ leBytes 1 x.cause ++ leBytes 1 x.scope ++ leBytes 8 s.pkg.serial ++ leBytes 8 x.aon ++ leBytes 2 x.reason ++
  leBytes 1 x.source ++ leBytes 1 s.fab.node ++ leBytes 2 x.freq ++ leBytes 2 (if x.cause = 1 then 21 else 17) ++ leBytes 4 (64 + body.length) ++
  leBytes 4 x.boot ++ zeros 24 ++ body

/-- DBG.SCOREBOARD: the whistle image while one is held, else a new request image, posted in chained slots. -/
def bodyDbgScoreboard (s : State) (m : Msg) : State :=
  match s.dport.imageW with
  | some x => reply s 0x0902 m stOK (whistleBytes s x)
  | none =>
    let x := freeze s 2 0 0 s.fab.node
    reply { s with dport := { s.dport with imageR := some x } } 0x0902 m stOK (whistleBytes s x)

/-- DBG_SCOREBOARD. -/
def execDbgScoreboard (m : Msg) (s : State) : Host.Outcome State Fault Refusal := .next (settle (serve s 0x0902 m bodyDbgScoreboard))

/-- The image SCANOUT returns: the whistle image, or the latest request image. -/
def scanImage (s : State) : List Byte :=
  match s.dport.imageW, s.dport.imageR with
  | some x, _ => whistleBytes s x
  | none, some x => whistleBytes s x
  | none, none => []

/-- SCANOUT: the next 32-bit word of the image, zero after the last; locked, the code acts as BYPASS does (R596, R618). -/
def execScanout (s : State) : Host.Outcome State Fault Refusal :=
  .next (
    let s1 := tapIr s 0x22
    if s.dport.level = 0 then tdo s1 0
    else
      let s2 := tdo s1 (ble (scanImage s) (4 * s1.dport.scanPos) 4)
      { s2 with dport := { s2.dport with scanPos := s1.dport.scanPos + 1 } })

/-! ### The tensor watch (R619 to R621) -/

/-- DBG.TENSOR_WATCH. -/
def bodyDbgTensorWatch (s : State) (m : Msg) : State :=
  let c := ble m.payload 0 1
  let id := ble m.payload 4 4
  let w : Watch := ⟨c, id, ble m.payload 8 8, ble m.payload 0x10 8, ble m.payload 0x18 4, pathFn m.path⟩
  let rest := s.dport.watches.filter fun x => !(x.ctx == c && x.tensor == id && x.lap == w.lap)
  let ok (l : List Watch) : State := reply { s with dport := { s.dport with watches := l } } 0x0903 m stOK []
  if s.dport.level = 0 then reply s 0x0903 m stDEBUG_LOCKED []
  else if (s.ctx c).state = .none then reply s 0x0903 m stCTX_UNKNOWN []
  else if !((ctxMan s c).tensors.any fun t => t.1 == id && !t.2) then reply s 0x0903 m stBAD_FIELD []
  else if w.length = 0 then ok rest
  else if rest.length = s.dport.watches.length ∧ 16 ≤ rest.length then reply s 0x0903 m stNO_SPACE []
  else ok (rest ++ [w])

/-- DBG_TENSOR_WATCH. -/
def execDbgTensorWatch (m : Msg) (s : State) : Host.Outcome State Fault Refusal := .next (settle (serve s 0x0903 m bodyDbgTensorWatch))

/-- The row mask of a copy: bit i for row i, clear where the row is a draft position's. -/
def rowMask (rows : List (Bool × List Byte)) : List Byte :=
  let n := rows.length
  let m := (List.range n).foldl (fun a i => a + (if (nth (false, []) rows i).1 then 0 else 2 ^ i)) 0
  leBytes ((n + 7) / 8) m ++ zeros (roundUp ((n + 7) / 8) 64 - (n + 7) / 8)

/-- Rows that fit a watch's LENGTH behind the header and the mask: the most, whole ones. -/
def rowsFit (len total rowBytes : Nat) : Nat :=
  ((List.range (total + 1)).filter fun n => decide (64 + roundUp ((n + 7) / 8) 64 + n * rowBytes ≤ len)).foldl max 0

/-- The 60 bytes of a copy's header before VALID (R621). -/
def watchHeader (s : State) (w : Watch) (heat fmt row0 rowBytes n : Nat) (trunc masked : Bool) (status : Nat) : List Byte :=
  leBytes 4 w.tensor ++ leBytes 1 w.ctx ++ leBytes 1 fmt ++ zeros 2 ++ leBytes 8 w.lap ++ leBytes 4 heat ++ leBytes 4 row0 ++ leBytes 4 n ++
  leBytes 4 rowBytes ++ leBytes 8 s.aon ++ leBytes 2 (b2n trunc + 2 * b2n masked) ++ leBytes 2 status ++ zeros 16

/-- TENSOR_WATCH_FIRE: the starter copies the tensor's rows by host DMA; draft rows are zeros; VALID is written last. A copy waits while the package is whistled
(R610). A transfer that fails leaves its STATUS in the header. -/
def execTensorWatchFire (ctx tensor lap heat fmt row0 rowBytes : Nat) (rows : List (Bool × List Byte)) (host : HostReply) (s : State) :
    Host.Outcome State Fault Refusal :=
  .next (
    match s.dport.watches.find? fun w => w.ctx == ctx && w.tensor == tensor && w.lap == lap with
    | none => s
    | some w =>
      let h := s.heat heat
      if s.whistled ∨ !h.live ∨ h.desc.ctx ≠ ctx ∨ h.desc.lap ≠ lap ∨ w.length < 64 ∨ s.entry.oscDead then s
      else
        let n := rowsFit w.length rows.length rowBytes
        let kept := rows.take n
        let data := kept.flatMap fun r => if r.1 then zeros rowBytes else (r.2 ++ zeros rowBytes).take rowBytes
        let masked := kept.any (·.1)
        let s1 := { s with dport := { s.dport with watches := s.dport.watches.erase w } }
        let r := dmaOut s1 w.fn (w.hostAddr + 64) (rowMask kept ++ data) host
        let head := watchHeader s w heat fmt row0 rowBytes n (decide (n < rows.length)) masked (if r.2 then stDMA_FAULT else stOK)
        (r.1.emit (.dma w.fn w.hostAddr head)).emit (.dma w.fn (w.hostAddr + 0x3C) (leBytes 4 0x57544B58)))

end Sys2Proof.Machine
end

