-- ==== Sys2Proof/Machine/Mailbox.lean ====
section
/-!
DEFINITION. The host port's mailboxes (R397 to R418, R651), the sideband and the SPDM responder (R430 to R432, R570 to R573): taking commands, returning event
slots, coalescing, function resets, and the ends of deferred commands (R411).
-/

namespace Sys2Proof.Machine

/-! ### The body of each command type (R420 to R423) -/

/-- What a SYS or PAR command does once its checks 1 to 6 have passed. -/
def sysBody (code : Nat) : State → Msg → State :=
  match code with
  | 0x0101 => bodySysCaps
  | 0x0102 => bodySysSettingsGet
  | 0x0103 => bodySysSettingsSet
  | 0x0104 => bodySysSettingsCommit
  | 0x0105 => bodySysTenantSet
  | 0x0106 => bodySysTenantGet
  | 0x0107 => bodySysReset
  | 0x0108 => bodySysWake
  | 0x0201 => bodyParCreate
  | 0x0202 => bodyParDestroy
  | 0x0203 => bodyParStop
  | 0x0204 => bodyParStart
  | 0x0205 => bodyParReset
  | 0x0206 => bodyParCtxCreate
  | 0x0207 => bodyParCtxDestroy
  | 0x0208 => bodyParStats
  | 0x020A => bodyParKvFmtSet
  | _ => fun s _ => s

/-- The same of an MDL or TIR command. -/
def mdlBody (code : Nat) : State → Msg → State :=
  match code with
  | 0x0301 => bodyMdlBundleLoad
  | 0x0302 => bodyMdlBundleUnload
  | 0x0303 => bodyMdlGenCreate
  | 0x0304 => bodyMdlGenSeal
  | 0x0305 => bodyMdlGenStatus
  | 0x0306 => bodyMdlGenActivate
  | 0x0307 => bodyMdlGenCutover
  | 0x0308 => bodyMdlGenDelete
  | 0x0309 => bodyMdlRelay
  | 0x030A => bodyMdlAdapterLoad
  | 0x030B => bodyMdlAdapterReplace
  | 0x030C => bodyMdlAdapterUnload
  | 0x0401 => bodyTirCreate
  | 0x0402 => bodyTirWrite
  | 0x0403 => bodyTirRead
  | 0x0404 => bodyTirSeal
  | 0x0405 => bodyTirDelete
  | 0x0406 => bodyTirStatus
  | _ => fun s _ => s

/-- The same of a REQ, MEM, ENG, FAB or DBG command. -/
def reqBody (code : Nat) : State → Msg → State :=
  match code with
  | 0x0501 => bodyReqSubmit
  | 0x0502 => bodyReqCancel
  | 0x0503 => bodyReqStatus
  | 0x0504 => bodyReqSessionOpen
  | 0x0505 => bodyReqSessionClose
  | 0x0506 => bodyReqPark
  | 0x0601 => bodyMemRead
  | 0x0602 => bodyMemWrite
  | 0x0701 => bodyEngCapSet
  | 0x0702 => bodyEngPaceSet
  | 0x0703 => bodyEngStatus
  | 0x0704 => bodyEngAnnounce
  | 0x0801 => bodyFabLinkPlan
  | 0x0802 => bodyFabStatus
  | 0x0803 => bodyFabTwinStatus
  | 0x0804 => bodyFabLockstepSet
  | 0x0901 => bodyDbgWhistle
  | 0x0902 => bodyDbgScoreboard
  | 0x0903 => bodyDbgTensorWatch
  | _ => fun s _ => s

/-- The body of a command type, by its class. -/
def bodyOf (code : Nat) : State → Msg → State :=
  if code < 0x0300 then sysBody code else if code < 0x0500 then mdlBody code else reqBody code

/-- Whether a type is deferred (R411). -/
def isDeferred (code : Nat) : Bool := match msgType code with | some t => t.defer | none => false

/-- A command of any TYPE acted on (R418). -/
def command (s : State) (code : Nat) (m : Msg) : State :=
  if isDeferred code then serveDeferred s code m (bodyOf code) else serve s code m (bodyOf code)

/-! ### Command rows of the tier and memory classes -/

/-- TIR_CREATE. -/
def execTirCreate (m : Msg) (s : State) : Host.Outcome State Fault Refusal := .next (settle (serve s 0x0401 m bodyTirCreate))

/-- TIR_WRITE. -/
def execTirWrite (m : Msg) (s : State) : Host.Outcome State Fault Refusal := .next (settle (serveDeferred s 0x0402 m bodyTirWrite))

/-- TIR_READ. -/
def execTirRead (m : Msg) (s : State) : Host.Outcome State Fault Refusal := .next (settle (serveDeferred s 0x0403 m bodyTirRead))

/-- TIR_SEAL. -/
def execTirSeal (m : Msg) (s : State) : Host.Outcome State Fault Refusal := .next (settle (serve s 0x0404 m bodyTirSeal))

/-- TIR_DELETE. -/
def execTirDelete (m : Msg) (s : State) : Host.Outcome State Fault Refusal := .next (settle (serve s 0x0405 m bodyTirDelete))

/-- TIR_STATUS. -/
def execTirStatus (m : Msg) (s : State) : Host.Outcome State Fault Refusal := .next (settle (serve s 0x0406 m bodyTirStatus))

/-- MEM_READ. -/
def execMemRead (m : Msg) (s : State) : Host.Outcome State Fault Refusal := .next (settle (serveDeferred s 0x0601 m bodyMemRead))

/-- MEM_WRITE. -/
def execMemWrite (m : Msg) (s : State) : Host.Outcome State Fault Refusal := .next (settle (serveDeferred s 0x0602 m bodyMemWrite))

/-! ### The command ring (R406 to R408, R411, R416) -/

/-- Whether any field of a header that a command keeps zero is not: CTRL [31:1], STATUS, FLAGS, AON and the reserved bytes; on the sideband OWN too (R651). -/
def headerResv (h : List Byte) (side : Bool) : Bool :=
  (if side then ble h 0 4 != 0 else nbits (ble h 0 4) 31 1 != 0) || !allZero h 0x0C 4 || !allZero h 0x11 7 || !allZero h 0x18 40

/-- TYPE of a header. -/
def hdrType (h : List Byte) : Nat := ble h 4 2

/-- The message a header and its payload make. -/
def headerMsg (path : Nat) (h payload : List Byte) (host : HostReply) : Msg where
  path := path
  part := ble h 0x10 1
  tag := BitVec.ofNat 32 (ble h 8 4)
  resv := headerResv h (path == 16)
  payload := payload
  host := host

/-- Whether a command waits at CMD_HEAD of a function. -/
def cmdWaits (s : State) (fn : Nat) : Bool := (s.fn fn).enabled && slotOwn (s.fn fn) (cmdHdr (s.fn fn).cmdHead)

/-- The function whose turn it is: the first after the one served last that has a command waiting (R411). -/
def nextFn (s : State) : Option Nat := ((List.range 16).map fun i => (s.mbx.fnRr + 1 + i) % 16).find? (cmdWaits s)

/-- Free slots of a command ring. -/
def cmdFree (f : Fn) : Nat := ((List.range 256).filter fun i => !slotOwn f (cmdHdr i)).length

/-- A slot taken: its OWN is cleared and CMD_HEAD advances; CMD_SPACE fires once the free slots of a ring that was full have risen to CMD_LWM (R408, R416). -/
def takeSlotAt (s : State) (fn : Nat) : State :=
  let f := s.fn fn
  let full := f.wasFull || cmdFree f == 0
  let a := cmdHdr f.cmdHead
  let f1 := { f with sram := mput 0 f.sram a (mget 0 f.sram a &&& 0xFE), cmdHead := (f.cmdHead + 1) % 256, wasFull := full }
  let fire := full && decide (f1.cmdLwm ≤ cmdFree f1)
  let s1 := { s with mbx := { s.mbx with fnRr := fn } }
  if fire then interrupt (s1.setFn fn { f1 with wasFull := false }) fn 3 else s1.setFn fn f1

/-- Whether C0 takes commands: READY, the host link not degraded, RUN, C0 not halted (R398, R403, R606). -/
def takesCommands (s : State) : Bool :=
  s.mbx.ready && !s.mbx.degraded && s.power.state == .run && s.power.stewardOn && !s.captHalted 0 && !s.entry.oscDead

/-- CMD_SLOT_TAKE: the slot is copied whole, given back, and its message acted on. -/
def execCmdSlotTake (fn : Nat) (host : HostReply) (s : State) : Host.Outcome State Fault Refusal :=
  .next (
    if !takesCommands s || nextFn s != some fn then s
    else
      let f := s.fn fn
      let h := mread 0 f.sram (cmdHdr f.cmdHead) 64
      let m := headerMsg fn h (mread 0 f.sram (cmdPay f.cmdHead) (ble h 6 2)) host
      settle (command (takeSlotAt s fn) (hdrType h) m))

/-! ### The event ring (R409, R413, R417) -/

/-- EVT_SLOT_RETURN. -/
def execEvtSlotReturn (fn slot : Nat) (s : State) : Host.Outcome State Fault Refusal :=
  .next (if hostReaches s fn && decide (slot < 256) then evtReturn s fn slot else s)

/-- COAL_INTERVAL: an interval of a vector has ended; the vector fires if an event arrived in it, and the next interval begins. -/
def execCoalInterval (fn vector : Nat) (s : State) : Host.Outcome State Fault Refusal :=
  .next (
    let f := s.fn fn
    match f.coal.find? (·.1 == vector) with
    | none => s
    | some p =>
      if !f.enabled || s.entry.oscDead || decide (s.aon < p.2.1 + usAon f.coalUs) then s
      else if p.2.2 then fireVector (s.setFn fn { f with coal := tput f.coal vector (s.aon, false) }) fn vector
      else s.setFn fn { f with coal := tdel f.coal vector })

/-! ### Function resets (R405, R585, R590, R591) -/

/-- The parts of a receipt block that already stand in the event ring when the rest of it waits in the backlog: the slots before EVT_TAIL that continue. -/
def postedParts (n : Nat) (f : Fn) (tail : Nat) : List Event :=
  match n with
  | 0 => []
  | n + 1 =>
    let i := (tail + 255) % 256
    let h := mread 0 f.sram (evtHdr i) 64
    if hdrType h = mRECEIPT_BLOCK ∧ nbits (ble h 0x0E 2) 2 2 = 1 then
      postedParts n f i ++ [⟨mRECEIPT_BLOCK, 0, 65536, false, mread 0 f.sram (evtPay i) (ble h 6 2)⟩]
    else []

/-- The receipt blocks of a backlog, whole: they are posted again after the reset (R405). -/
def keptReceipts (f : Fn) : List Event :=
  match f.backlog with
  | [] => []
  | e :: r => (if e.type = mRECEIPT_BLOCK ∧ !e.rsp then postedParts 255 f f.evtTail else []) ++ (e :: r).filter fun e => e.type == mRECEIPT_BLOCK && !e.rsp

/-- A function as a reset of it leaves it: both rings empty, registers and MSI-X table at their defaults. -/
def resetFn (f : Fn) (enabled : Bool) : Fn :=
  let l := keptReceipts f
  { Fn.reset with
    enabled := enabled, deferred := f.deferred, announce := f.announce
    backlog := l, backlogBytes := l.foldl (fun a e => a + 64 + e.payload.length) 0 }

/-- The windows of a slot undefined: fresh values in its scratchpad bytes and accumulator words (R591 note 1). -/
def looseWindows (s : State) (c slot : Nat) : State :=
  let k := s.core c
  let x := k.slot slot
  let n := x.sps * 4096
  let spad := mwrite 0 k.spad (x.spb * 4096) (freeBytes s n)
  let s1 := s.drew n
  let w := x.acs * 64
  let acc := mwrite 0 k.acc (x.acb * 64) ((List.range w).map fun i => BitVec.ofNat 32 (Config.free (s1.drawn + i)))
  (s1.drew w).setCore c { k with spad := spad, acc := acc }

/-- A slot of the partition of a function that is reset: stopped, its windows undefined, its hurdles, inboxes and channels cleared. -/
def resetSlot (s : State) (c slot : Nat) : State :=
  let x := s.slot c slot
  if x.state = .unbound then s
  else
    let s1 := looseWindows (slotStop (slotClear s c slot) c slot) c slot
    let k := s1.core c
    s1.setCore c { forgetSeq k slot with
      hurdle := k.hurdle.filter fun e => !decide (x.hbase ≤ e.1 ∧ e.1 < x.hbase + x.hcount)
      inbox := k.inbox.filter fun e => e.1 / 8 != slot
      inboxN := k.inboxN.filter fun e => e.1 / 8 != slot
      chan := k.chan.filter fun e => e.1 / 32 != slot
      chanSeq := k.chanSeq.filter fun e => e.1 / 32 != slot
      restart := k.restart.filter fun e => e / 32 != slot }

/-- What the reset of its function does to a partition: every slot stopped, starter memory and rings cleared; each context restarts from its bundle's initial
contents (R590, R591 note 1). -/
def resetPart (s : State) (p : Nat) : State :=
  let rows := (s.part p).rows
  let s1 := (tkeys (s.cores.filter fun e => bit rows (starterOf e.1))).foldl (fun s c => (List.range 4).foldl (fun s k => resetSlot s c k) s) s
  let s2 := { s1 with starters := s1.starters.map fun e => (e.1, if bit rows e.1 then { Starter.reset with unavailable := e.2.unavailable } else e.2) }
  (partCtxs s2 p).foldl (fun s c => s.setCtx c { s.ctx c with saved := false, image := [] }) (clearRings s2 p)

/-- A reset of one function (R405): its requests end withheld, no token record of them is posted any more, its rings and backlog are emptied but for receipt
blocks, and its partition's slots are stopped. -/
def fnReset (s : State) (fn : Nat) (enabled : Bool) : State :=
  let mine := tkeys (s.srv.ledger.filter fun e => e.2.isOpen && !e.2.mirror && e.2.fn == fn)
  let s1 := mine.foldl (fun s i => s.setReq i { s.req i with withheld := true, unposted := [] }) s
  let s2 := endAll s1 stFUNCTION_RESET (·.fn == fn)
  let s3 := match fnPart s2 fn with
    | some p => resetPart s2 p
    | none => s2
  drainBacklog 256 (s3.setFn fn (resetFn (s3.fn fn) enabled)) fn

/-- Whether the host port can carry a reset or a change of NumVFs. -/
def portUp (s : State) : Bool := s.power.stewardOn && !s.isOff && !s.entry.perst && !s.entry.oscDead

/-- FLR. -/
def execFlr (fn : Nat) (s : State) : Host.Outcome State Fault Refusal :=
  .next (if hostReaches s fn then settle (fnReset s fn true) else s)

/-- HOT_RESET: an FLR of every function. -/
def execHotReset (s : State) : Host.Outcome State Fault Refusal :=
  .next (if portUp s then settle ((enabledFns s).foldl (fun s f => fnReset s f true) s) else s)

/-- VF_DISABLE: NumVFs lowered; every virtual function above it is reset and no longer enabled. -/
def execVfDisable (numVfs : Nat) (s : State) : Host.Outcome State Fault Refusal :=
  .next (if portUp s then settle (((enabledFns s).filter fun f => decide (numVfs < f)).foldl (fun s f => fnReset s f false) s) else s)

/-- VF_ENABLE: NumVFs raised; the virtual functions 1 to NumVFs are enabled, each with its registers at their defaults (R399, R400). -/
def execVfEnable (numVfs : Nat) (s : State) : Host.Outcome State Fault Refusal :=
  .next (
    if portUp s ∧ numVfs ≤ 15 then
      (List.range numVfs).foldl (fun s i => if (s.fn (i + 1)).enabled then s else s.setFn (i + 1) { s.fn (i + 1) with enabled := true }) s
    else s)

/-- HOST_LINK_TRAINED: below 64 GT/s or x8 the link is degraded; another width or rate is announced (R398, R426). -/
def execHostLinkTrained (width rate : Nat) (s : State) : Host.Outcome State Fault Refusal :=
  .next (
    if !portUp s then s
    else
      let s1 := { s with mbx := { s.mbx with linkWidth := width, linkRate := rate, degraded := decide (rate < 64 ∨ width < 8) } }
      if (width ≠ s.mbx.linkWidth ∨ rate ≠ s.mbx.linkRate) ∧ s.mbx.ready then settle (capsChanged s1) else s1)

/-! ### The sideband (R431, R432) -/

/-- SIDEBAND_MESSAGE: taken in RUN, or after the wake it causes from HOLD, NAP and REST; in DORMANT SYS.WAKE alone is taken. -/
def execSidebandMessage (hdr payload : List Byte) (s : State) : Host.Outcome State Fault Refusal :=
  .next (
    let code := hdrType hdr
    let m := headerMsg 16 hdr payload ⟨[], none⟩
    if hdr.length ≠ 64 ∨ payload.length ≠ ble hdr 6 2 ∨ s.entry.oscDead ∨ s.captHalted 0 then s
    else if s.power.state = .dormant then (if code = 0x0108 ∧ !m.resv ∧ payload = [] then settle (command s code m) else s)
    else if !s.mbx.ready ∨ !s.power.stewardOn then s
    else if s.power.state = .run then settle (command s code m)
    else settle (command (lapseReady (wakeRun s)) code m))

/-! ### SPDM (R430, R570 to R573) -/

/-- Response codes of DSP0274. PRESUMED (log 48). -/
def spVERSION : Nat := 0x04
def spCAPABILITIES : Nat := 0x61
def spALGORITHMS : Nat := 0x63
def spDIGESTS : Nat := 0x01
def spCERTIFICATE : Nat := 0x02
def spCHALLENGE_AUTH : Nat := 0x03
def spMEASUREMENTS : Nat := 0x60
def spERROR : Nat := 0x7F

/-- An SPDM response leaves by the way its request came. -/
def spdmSay (s : State) (doe : Bool) (code : Nat) (l : List Byte) : State := s.emit (.spdm doe code l)

/-- A signed SPDM response: the identity key signs the nonce and what is answered; without the key the answer is an error (R569, R572). -/
def spdmSigned (s : State) (doe : Bool) (code : Nat) (nonce l : List Byte) : State :=
  if s.boot.identityFail ∨ s.boot.stage = 0 then spdmSay s doe spERROR [0x05]
  else spdmSay { s with drawn := s.drawn + 1 } doe code (l ++ Config.signature s.drawn (nonce ++ l))

/-- The LEDGER_LOSS entries of the boot record, oldest first, at most 256 (R572). -/
def lossBytes (s : State) : List Byte := (((bootLog s).filter (·.kind == 4)).take 256).flatMap recordBytes16

/-- The settings bank in use over its first 0x40 + 16 × COUNT bytes, or the factory region's (R561, R572). -/
def bankInUse (s : State) : List Byte :=
  let a := if s.settings.src = 0 then 0x02200000 else bankAt (s.settings.src - 1)
  norRead s a (0x40 + 16 * leNat (norRead s (a + 6) 2))

/-- What index 4 states: both SVNs, the fused minima, the vendor key slot used, debug unlocked since this boot. The form of its 16 bytes is not given. -/
def securityFacts (s : State) : List Nat :=
  [s.boot.svnBoot, s.boot.svnCapt, s.pkg.svnMinBoot, s.pkg.svnMinCapt, s.boot.keySlot, b2n s.dport.unlocked]

/-- A measurement block's value (R572). -/
def measurement (s : State) (index : Nat) : Option (List Byte) :=
  if index = 1 then some (digestBytes s.boot.l0)
  else if index = 2 then some (digestBytes s.boot.l1)
  else if index = 3 then some (digestBytes s.boot.l2)
  else if index = 4 then some (bsub (Config.securityForm (securityFacts s)) 0 16)
  else if index = 5 then some (sha256Bytes (bankInUse s))
  else if index = 6 then some (lossBytes s)
  else if 0x10 ≤ index ∧ index < 0x20 then some (digestBytes (bundleList s (index - 0x10)))
  else none

/-- The indexes of R572. -/
def measureIndexes : List Nat := [1, 2, 3, 4, 5, 6] ++ (List.range 16).map (0x10 + ·)

/-- The answer to one SPDM request (R430). Index 0 asks for the number of blocks and 0xFF for all of them (PRESUMED, log 48). -/
def spdmAnswer (s : State) (doe : Bool) (q : SpdmReq) : State :=
  match q with
  | .getVersion => spdmSay s doe spVERSION [0x12, 0x13]
  | .getCapabilities => spdmSay s doe spCAPABILITIES (Config.spdmBytes 0xE1 0)
  | .negotiateAlgorithms asym hash =>
    if nbits asym 3 3 = 1 ∧ nbits hash 0 0 = 1 then spdmSay s doe spALGORITHMS (leBytes 4 8 ++ leBytes 4 1 ++ leBytes 4 1)
    else spdmSay s doe spERROR [0x01]
  | .getDigests => spdmSay s doe spDIGESTS (1 :: sha256Bytes Config.certChain)
  | .getCertificate slot off len =>
    if slot = 0 ∧ off < Config.certChain.length then spdmSay s doe spCERTIFICATE ((Config.certChain.drop off).take len)
    else spdmSay s doe spERROR [0x01]
  | .challenge slot nonce =>
    if slot = 0 then spdmSigned s doe spCHALLENGE_AUTH nonce (sha256Bytes Config.certChain) else spdmSay s doe spERROR [0x01]
  | .getMeasurements index nonce =>
    if index = 0 then spdmSigned s doe spMEASUREMENTS nonce [BitVec.ofNat 8 measureIndexes.length]
    else if index = 0xFF then spdmSigned s doe spMEASUREMENTS nonce (measureIndexes.flatMap fun i => (measurement s i).getD [])
    else match measurement s index with
      | some l => spdmSigned s doe spMEASUREMENTS nonce l
      | none => spdmSay s doe spERROR [0x01]
  | .other code => spdmSay s doe spERROR [0x07, BitVec.ofNat 8 code]

/-- SPDM_REQUEST: over DOE on PF0 or over MCTP on the sideband; the enclave, on the Steward die, answers. -/
def execSpdmRequest (doe : Bool) (q : SpdmReq) (s : State) : Host.Outcome State Fault Refusal :=
  .next (if !s.power.stewardOn ∨ s.entry.oscDead ∨ (doe ∧ !hostReaches s 0) then s else spdmAnswer s doe q)

/-! ### Deferred commands (R411) -/

/-- A deferred command's completion, by its type. -/
def deferredDone (s : State) (d : Deferred) (host : HostReply) (errs : List EccErr) (ok : Bool) : State :=
  match d.type with
  | 0x0104 => doneSysSettingsCommit s d ok
  | 0x0201 => doneParCreate s d
  | 0x0203 => donePar s d
  | 0x0204 => donePar s d
  | 0x0205 => donePar s d
  | 0x0301 => doneMdlBundleLoad s d host
  | 0x0304 => doneMdlGenSeal s d
  | 0x0306 => doneDecided s d
  | 0x0307 => doneDecided s d
  | 0x0309 => doneMdlRelay s d
  | 0x0402 => doneTirWrite s d host
  | 0x0403 => doneTirRead s d host ok
  | 0x0601 => doneMemRead s d host errs
  | 0x0602 => doneMemWrite s d host
  | 0x0801 => doneFabLinkPlan s d
  | _ => s

/-- DEFERRED_COMMAND_DONE: a deferred command in progress ends and its response is posted. -/
def execDeferredCommandDone (path : Nat) (tag : Word32) (host : HostReply) (errs : List EccErr) (ok : Bool) (s : State) :
    Host.Outcome State Fault Refusal :=
  .next (
    match findDeferred s path tag with
    | none => s
    | some d => if s.entry.oscDead then s else settle (deferredDone s d host errs ok))

end Sys2Proof.Machine
end

