-- ==== Sys2Proof/Machine/Mover.lean ====
section
/-!
DEFINITION. The data mover: LOAD and STORE (R58, R78, R179, R246, R647), STREAM and its tiles (R51, R75 to R77), GATHER (R165 to R168), SPCOPY
(R647, R648), RACONF and RADROP (R78).
-/

namespace Sys2Proof.Machine

/-! ### Rows in pieces of one line -/

/-- The pieces of at most 64 bytes of a run of `n` bytes: offset and length. -/
def pieces (n : Nat) : List (Nat × Nat) := (List.range (ceilDiv n 64)).map fun i => (64 * i, min 64 (n - 64 * i))

/-- Bytes that may each hold the old or the moved value (R647): a free choice per byte. -/
def mixBytes (s : State) (old new : List Byte) : List Byte :=
  (List.range old.length).map fun i => if Config.free (s.drawn + i) % 2 = 0 then nth 0 old i else nth 0 new i

/-- The cause for which a piece cannot be loaded: near address unreachable, its line poisoned, or its destination outside the window. -/
def loadCauses (s : State) (c : Nat) (x : SlotSt) (na sp n : Nat) : List Nat :=
  let p := corePart s c
  (if nearOk s p na n then
    (if (linesOf (physOff s p na) n).any fun l => tget false (s.bdie (naStack na)).poison l then [fcNEAR_POISON] else [])
   else [fcNEAR_RANGE]) ++
  (if x.inWin sp n then [] else [fcSPAD_RANGE])

/-- The bytes of a piece of near memory, zeros where it cannot be reached. -/
def nearBytes (s : State) (p na n : Nat) : List Byte := if nearOk s p na n then stackRead s (naStack na) (physOff s p na) n else zeros n

/-- The part of a window range that lies inside the window, as a length. -/
def inside (x : SlotSt) (sp n : Nat) : Nat := min n (x.sps * 4096 - sp)

/-- The deferred table takes a fault under a tag (R78). -/
def defer (x : SlotSt) (tag cause : Nat) : SlotSt :=
  if x.deferred.any (·.1 == tag) then x
  else if 16 ≤ x.deferred.length then { x with defOvf := true }
  else { x with deferred := x.deferred ++ [(tag, cause)] }

/-- One row of near memory moved into the window, after the check code has read it: the pieces without a fault are written; a run-ahead row
leaves the others unwritten, any other row leaves all of its bytes old or new. -/
def landRow (s : State) (c slot na sp n : Nat) (ra : Bool) : State × List (Nat × Nat) :=
  let x := s.slot c slot
  let p := corePart s c
  let bad := (pieces n).flatMap fun i => (loadCauses s c x (na + i.1) (sp + i.1) i.2).map fun f =>
    (f, if f = fcSPAD_RANGE then sp + i.1 else na + i.1)
  if bad.isEmpty then (s.setCore c (winWrite (s.core c) x sp (nearBytes s p na n)), [])
  else if ra then
    ((pieces n).foldl (fun s i =>
      if (loadCauses s c x (na + i.1) (sp + i.1) i.2).isEmpty then s.setCore c (winWrite (s.core c) x (sp + i.1) (nearBytes s p (na + i.1) i.2))
      else s) s, bad)
  else
    let old := winRead (s.core c) x sp (inside x sp n)
    let new := (pieces n).flatMap fun i =>
      if nearOk s p (na + i.1) i.2 then nearBytes s p (na + i.1) i.2 else winRead (s.core c) x (sp + i.1) i.2
    ((s.setCore c (winWrite (s.core c) x sp (mixBytes s old new))).drew old.length, bad)

/-- The near side of a row read through the check code, where it can be reached. -/
def readRow (s : State) (c : Nat) (na n : Nat) (errs : List EccErr) : State :=
  (pieces n).foldl (fun s i => if nearOk s (corePart s c) (na + i.1) i.2 then (nearRead s (corePart s c) (na + i.1) i.2 errs).1 else s) s

/-- Bytes moved by the data mover over near memory, counted for a slot's context (R513). -/
def countMove (s : State) (c slot na n : Nat) : State :=
  let ctx := (s.slot c slot).ctx
  (countNear s ctx (naStack na) n).count ctx 4 n

/-! ### LOAD -/

def mvNear (c : Cmd) : Nat := bits c.w1 39 0
def mvSpad (c : Cmd) : Nat := bits c.w2 21 0
def mvLen (c : Cmd) : Nat := bits c.w2 45 22
def mvRows (c : Cmd) : Nat := bits c.w2 61 46
def mvNs (c : Cmd) : Nat := bits c.w3 39 0
def mvSs (c : Cmd) : Nat := bits c.w3 61 40

/-- The near ranges of a LOAD or STORE: row address and length, rows that can be reached only. -/
def moveRanges (s : State) (core : Nat) (c : Cmd) : List (Nat × Nat) :=
  if mvLen c = 0 then []
  else ((List.range (mvRows c)).map fun r => (mvNear c + r * mvNs c, mvLen c)).filter fun r => nearOk s (corePart s core) r.1 r.2

/-- The rows of a LOAD from row `r` on, `n` of them (R647, R78). -/
def loadRows (n : Nat) (s : State) (c slot : Nat) (q : QEntry) (errs : List EccErr) (r : Nat) : State :=
  match n with
  | 0 => pushStarted s c slot 2 q .done
  | n + 1 =>
    let na := mvNear q.cmd + r * mvNs q.cmd
    let sp := mvSpad q.cmd + r * mvSs q.cmd
    let len := mvLen q.cmd
    let ra := nbits q.cmd.flags 0 0 = 1
    let s1 := readRow s c na len errs
    let m := landRow s1 c slot na sp len ra
    let s2 := countMove m.1 c slot na len
    if ra then
      let s3 := m.2.foldl (fun s f => s.setSlot c slot (defer (s.slot c slot) q.cmd.tag f.1)) s2
      loadRows n s3 c slot q errs (r + 1)
    else match pickOne s2 m.2 with
      | some (f, s3) => cmdFault s3 c slot q.cmd q.seq f.1 f.2 false
      | none => loadRows n s2 c slot q errs (r + 1)

/-- LOAD: the data mover starts the picked command, once no line it reads is modified in the twin's cache (R470). -/
def execLoad (core : Nat) (errs : List EccErr) (s : State) : Host.Outcome State Fault Refusal :=
  .next (match headOf s core oLOAD with
    | none => s
    | some (_, q) =>
      let held := heldLines s (corePart s core) (moveRanges s core q.cmd) false
      if held.isEmpty then
        engineStart s core oLOAD fun s k q => loadRows (if mvLen q.cmd = 0 then 0 else mvRows q.cmd) s core k q errs 0
      else probeLines s held)

/-! ### STORE -/

/-- The causes for which a piece cannot be stored: its source outside the window, its target unreachable or protected (R246). -/
def storeCauses (s : State) (c : Nat) (x : SlotSt) (na sp n : Nat) : List Nat :=
  let p := corePart s c
  (if nearOk s p na n && !wpHit s p na n then [] else [fcNEAR_RANGE]) ++ (if x.inWin sp n then [] else [fcSPAD_RANGE])

/-- The faulting row of a STORE: each byte that can be written holds its old or its new value (R647). -/
def storeMixed (s : State) (c slot na sp n : Nat) (errs : List EccErr) : State :=
  let x := s.slot c slot
  let p := corePart s c
  (pieces n).foldl (fun s i =>
    if (storeCauses s c x (na + i.1) (sp + i.1) i.2).isEmpty then
      let old := stackRead s (naStack na) (physOff s p (na + i.1)) i.2
      (nearWrite (s.drew i.2) p (na + i.1) (mixBytes s old (winRead (s.core c) x (sp + i.1) i.2)) false errs).1
    else s) s

/-- The rows of a STORE from row `r` on, `n` of them; `wait` gathers the lines the twin holds (R203). -/
def storeRows (n : Nat) (s : State) (c slot : Nat) (q : QEntry) (errs : List EccErr) (r : Nat) (wait : List (Nat × Nat)) : State :=
  match n with
  | 0 => pushStarted s c slot 2 q (linesWork wait)
  | n + 1 =>
    let x := s.slot c slot
    let na := mvNear q.cmd + r * mvNs q.cmd
    let sp := mvSpad q.cmd + r * mvSs q.cmd
    let len := mvLen q.cmd
    let bad := (pieces len).flatMap fun i => (storeCauses s c x (na + i.1) (sp + i.1) i.2).map fun f =>
      (f, if f = fcSPAD_RANGE then sp + i.1 else na + i.1)
    match pickOne s bad with
    | some (f, s1) => cmdFault (storeMixed s1 c slot na sp len errs) c slot q.cmd q.seq f.1 f.2 false
    | none =>
      let w := nearWrite s (corePart s c) na (winRead (s.core c) x sp len) false errs
      storeRows n (countMove w.1 c slot na len) c slot q errs (r + 1) (wait ++ w.2)

/-- STORE: the data mover starts the picked command. -/
def execStore (core : Nat) (errs : List EccErr) (s : State) : Host.Outcome State Fault Refusal :=
  .next (engineStart s core oSTORE fun s k q => storeRows (if mvLen q.cmd = 0 then 0 else mvRows q.cmd) s core k q errs 0 [])

/-! ### STREAM -/

def strNear (c : Cmd) : Nat := bits c.w1 39 0
def strBuf (c : Cmd) : Nat := bits c.w2 21 0
def strBytes (c : Cmd) : Nat := bits c.w2 45 22

/-- Whether a hurdle is a semaphore with TARGET 1 (R75). -/
def unitSem (w : Word64) : Bool := hSem w && hTarget w == 1

/-- STREAM starts: both hurdles must be semaphores of TARGET 1 (R75); TILES = 0 is no work (R58). -/
def streamStart (s : State) (c slot : Nat) (q : QEntry) : State :=
  let k := s.core c
  let x := k.slot slot
  if strTiles q.cmd = 0 then pushStarted s c slot 2 q .done
  else if unitSem (k.hur (x.hbase + strFull q.cmd)) && unitSem (k.hur (x.hbase + strEmpty q.cmd)) then
    pushStarted s c slot 2 q (.stream ⟨0, [], 0, false⟩)
  else cmdFault s c slot q.cmd q.seq fcBAD_OPERAND 0 false

/-- STREAM: the data mover starts the picked command. -/
def execStream (core : Nat) (s : State) : Host.Outcome State Fault Refusal :=
  .next (engineStart s core oSTREAM fun s k q => streamStart s core k q)

/-- STREAM_TILE_FETCH: the next tile's fetch begins; from tile DEPTH on it waits on EMPTY_H (R75). A slot that is not RUNNING fetches no new
tile (R51, R94). -/
def execStreamTileFetch (core slot serial : Nat) (s : State) : Host.Outcome State Fault Refusal :=
  .next (
    let k := s.core core
    let x := k.slot slot
    if !s.coreRuns core || 4 ≤ slot || x.state != .running then s
    else match x.find serial with
      | none => s
      | some t => match t.work with
        | .stream st =>
          if st.stopped ∨ strTiles t.cmd ≤ st.next then s
          else if strDepth t.cmd ≤ st.next ∧ !admits k x (strEmpty t.cmd) t.seq then s
          else
            let k1 := if strDepth t.cmd ≤ st.next then passHurdle k x (strEmpty t.cmd) else k
            let y := (k1.slot slot).modify serial fun t => { t with work := .stream { st with next := st.next + 1, inflight := st.inflight ++ [st.next] } }
            touchCtx (s.setCore core (k1.setSlot slot y)) x.ctx
        | _ => s)

/-- The tile data in its buffer (R75, R76): pieces without a fault are written; the bytes of the others are free values, and the first cause
is held on the buffer. -/
def landTile (s : State) (c slot na sp n : Nat) : State × Option Nat :=
  let x := s.slot c slot
  let p := corePart s c
  let r := (pieces n).foldl (fun (r : State × List Nat) i =>
    let f := loadCauses s c x (na + i.1) (sp + i.1) i.2
    if f.isEmpty then (r.1.setCore c (winWrite (r.1.core c) x (sp + i.1) (nearBytes s p (na + i.1) i.2)), r.2)
    else
      let m := inside x (sp + i.1) i.2
      ((r.1.setCore c (winWrite (r.1.core c) x (sp + i.1) (freeBytes r.1 m))).drew m, r.2 ++ f)) (s, [])
  match pickOne r.1 r.2 with
  | some (f, s1) => (s1, some f)
  | none => (r.1, none)

/-- A tile of a stream has landed: FULL_H counts it, and the stream's work is done after its last tile (R75). -/
def tileLanded (s : State) (c slot : Nat) (t : Started) (st : StreamSt) (tile : Nat) (cause : Option Nat) : State :=
  let x := s.slot c slot
  let st2 := { st with inflight := st.inflight.filter (· != tile), landed := st.landed + 1 }
  let fin := st2.inflight.isEmpty && (st2.stopped || decide (strTiles t.cmd ≤ st2.landed))
  let y := x.modify t.serial fun t => { t with work := if fin then .done else .stream st2 }
  let z := if st.stopped then y else { y with tiles := y.tiles ++ [⟨strFull t.cmd, t.serial, tile, cause⟩] }
  hurdleAdd (s.setSlot c slot z) c (x.hbase + strFull t.cmd) 1 (some t.cmd)

/-- STREAM_TILE_LANDED (R75, R76): data in flight lands whatever the state of the core or slot (R603). -/
def execStreamTileLanded (core slot serial tile : Nat) (errs : List EccErr) (s : State) : Host.Outcome State Fault Refusal :=
  .next (
    let x := s.slot core slot
    if !s.coreRegs core || 4 ≤ slot then s
    else match x.find serial with
      | none => s
      | some t => match t.work with
        | .stream st =>
          let na := strNear t.cmd + tile * strBytes t.cmd
          let n := strBytes t.cmd
          let p := corePart s core
          let held := if nearOk s p na n then heldLines s p [(na, n)] false else []
          if !st.inflight.contains tile then s
          else if !held.isEmpty then probeLines s held
          else
            let s1 := readRow s core na n errs
            let m := landTile s1 core slot na (strBuf t.cmd + tile % max 1 (strDepth t.cmd) * n) n
            tileLanded (countMove m.1 core slot na n) core slot t st tile m.2
        | _ => s)

/-- SSTOP: every active STREAM of the slot whose TAG is STAG stops, its unconsumed tiles discarded (R77). -/
def sstopStart (s : State) (c slot : Nat) (q : QEntry) : State :=
  let x := s.slot c slot
  let hit (t : Started) : Bool := (match t.work with | .stream _ => true | _ => false) && t.cmd.tag == bits q.cmd.w1 15 0
  let gone := (x.started.filter hit).map (·.serial)
  let y := { x with
    started := x.started.map fun t => if hit t then { t with work := haltWork t.work } else t
    tiles := x.tiles.filter fun t => !gone.contains t.serial }
  pushStarted (s.setSlot c slot y) c slot 2 q .done

/-- SSTOP: the data mover starts the picked command. -/
def execSstop (core : Nat) (s : State) : Host.Outcome State Fault Refusal :=
  .next (engineStart s core oSSTOP fun s k q => sstopStart s core k q)

/-! ### GATHER -/

def gaCount (c : Cmd) : Nat := bits c.w2 36 24
def gaLen (c : Cmd) : Nat := bits c.w2 23 0

/-- Fields of a pointer-list entry (R166). -/
def ptrValid (w : Nat) : Bool := nbits w 63 63 = 1
def ptrSpad (w : Nat) : Bool := nbits w 62 62 = 1
def ptrAddr (w : Nat) : Nat := nbits w 39 0
/-- Whether a pointer faults with BAD_OPERAND (R168). -/
def ptrBad (w : Nat) : Bool :=
  nbits w 61 40 != 0 || (ptrValid w && (ptrAddr w % 64 != 0 || (ptrSpad w && decide (2 ^ 22 ≤ ptrAddr w))))

/-- The pointer list as it stands. -/
def gaList (k : Core) (x : SlotSt) (c : Cmd) : List Nat := (List.range (gaCount c)).map fun r => winNat k x (bits c.w1 21 0 + 8 * r) 8

/-- A padding row: PADV in PFMT, repeated (R167). -/
def gaPad (c : Cmd) : List Byte :=
  let f := bits c.w3 35 32
  let e := leBytes (outBytes f) (encode f none (dec32 (bits c.w3 31 0))).1
  (List.range (gaLen c / outBytes f)).flatMap fun _ => e

/-- A row of a GATHER from the window. -/
def gaWindowRow (s : State) (c slot src dst n : Nat) : State × List (Nat × Nat) :=
  let x := s.slot c slot
  if x.inWin src n then (s.setCore c (winWrite (s.core c) x dst (winRead (s.core c) x src n)), [])
  else
    let old := winRead (s.core c) x dst n
    ((s.setCore c (winWrite (s.core c) x dst (mixBytes s old (winRead (s.core c) x src n)))).drew n, [(fcSPAD_RANGE, src)])

/-- The rows of a GATHER in ascending order; each source is read after every lower row is written (R167, R168). -/
def gatherRows (n : Nat) (s : State) (c slot : Nat) (q : QEntry) (errs : List EccErr) (r : Nat) : State :=
  match n with
  | 0 => pushStarted s c slot 2 q .done
  | n + 1 =>
    let x := s.slot c slot
    let w := winNat (s.core c) x (bits q.cmd.w1 21 0 + 8 * r) 8
    let dst := bits q.cmd.w1 43 22 + r * bits q.cmd.w2 58 37
    let len := gaLen q.cmd
    if ptrBad w then cmdFault s c slot q.cmd q.seq fcBAD_OPERAND (bits q.cmd.w1 21 0 + 8 * r) false
    else
      let m : State × List (Nat × Nat) :=
        if !ptrValid w then (s.setCore c (winWrite (s.core c) x dst (gaPad q.cmd)), [])
        else if ptrSpad w then gaWindowRow s c slot (ptrAddr w) dst len
        else
          let k := landRow (readRow s c (ptrAddr w) len errs) c slot (ptrAddr w) dst len false
          (countMove k.1 c slot (ptrAddr w) len, k.2)
      match pickOne m.1 m.2 with
      | some (f, s1) => cmdFault s1 c slot q.cmd q.seq f.1 f.2 false
      | none => gatherRows n m.1 c slot q errs (r + 1)

/-- GATHER: the data mover starts the picked command, once no line it reads is modified in the twin's cache. -/
def execGather (core : Nat) (errs : List EccErr) (s : State) : Host.Outcome State Fault Refusal :=
  .next (match headOf s core oGATHER with
    | none => s
    | some (slot, q) =>
      let x := s.slot core slot
      let n := gaLen q.cmd
      let rs := ((gaList (s.core core) x q.cmd).filter fun w => ptrValid w && !ptrSpad w && nearOk s (corePart s core) (ptrAddr w) n).map
        fun w => (ptrAddr w, n)
      let held := if n = 0 then [] else heldLines s (corePart s core) rs false
      if held.isEmpty then
        engineStart s core oGATHER fun s k q => gatherRows (if gaLen q.cmd = 0 then 0 else gaCount q.cmd) s core k q errs 0
      else probeLines s held)

/-! ### SPCOPY, RACONF, RADROP -/

/-- SPCOPY: the whole source is read before any byte is written (R648); a range fault leaves the destination old or new (R647). -/
def spcopyStart (s : State) (c slot : Nat) (q : QEntry) : State :=
  let k := s.core c
  let x := k.slot slot
  let src := bits q.cmd.w1 21 0
  let dst := bits q.cmd.w2 21 0
  let n := bits q.cmd.w2 45 22
  match pickOne s ((if x.inWin src n then [] else [src]) ++ (if x.inWin dst n then [] else [dst])) with
  | some (a, s1) =>
    let old := winRead k x dst (inside x dst n)
    let s2 := s1.setCore c (winWrite k x dst (mixBytes s1 old (winRead k x src (inside x dst n))))
    cmdFault (s2.drew old.length) c slot q.cmd q.seq fcSPAD_RANGE a false
  | none => pushStarted ((s.setCore c (winWrite k x dst (winRead k x src n))).count x.ctx 4 n) c slot 2 q .done

/-- SPCOPY: the data mover starts the picked command. -/
def execSpcopy (core : Nat) (s : State) : Host.Outcome State Fault Refusal :=
  .next (engineStart s core oSPCOPY fun s k q => spcopyStart s core k q)

/-- RACONF: a deferred fault held under RTAG faults the slot now; with DEF_OVF set, an unmatched RACONF faults with RUNAHEAD_LOST (R78). -/
def raconfStart (s : State) (c slot : Nat) (q : QEntry) : State :=
  let x := s.slot c slot
  match x.deferred.find? (·.1 == bits q.cmd.w1 15 0) with
  | some e => cmdFault s c slot q.cmd q.seq e.2 0 true
  | none => if x.defOvf then cmdFault s c slot q.cmd q.seq fcRUNAHEAD_LOST 0 true else pushStarted s c slot 2 q .done

/-- RACONF: the data mover starts the picked command. -/
def execRaconf (core : Nat) (s : State) : Host.Outcome State Fault Refusal :=
  .next (engineStart s core oRACONF fun s k q => raconfStart s core k q)

/-- RADROP removes the entry for RTAG (R78). -/
def radropStart (s : State) (c slot : Nat) (q : QEntry) : State :=
  let x := s.slot c slot
  pushStarted (s.setSlot c slot { x with deferred := x.deferred.filter (·.1 != bits q.cmd.w1 15 0) }) c slot 2 q .done

/-- RADROP: the data mover starts the picked command. -/
def execRadrop (core : Nat) (s : State) : Host.Outcome State Fault Refusal :=
  .next (engineStart s core oRADROP fun s k q => radropStart s core k q)

end Sys2Proof.Machine
end

