-- ==== Sys2Proof/Machine/Dispatch.lean ====
section
/-!
DEFINITION. One arm per command of the opcode table, each one direct call of its meaning.
-/

namespace Sys2Proof.Machine

/-- The effect of a command on everything but the queue. -/
def exec (i : Instr) (s : State) : Host.Outcome State Fault Refusal :=
  match i with
  | .frontEndDispatch core => Sys2Proof.Machine.execFrontEndDispatch core s
  | .nop core slot => Sys2Proof.Machine.execNop core slot s
  | .harm core slot => Sys2Proof.Machine.execHarm core slot s
  | .hsig core slot => Sys2Proof.Machine.execHsig core slot s
  | .fence core slot => Sys2Proof.Machine.execFence core slot s
  | .endCmd core slot => Sys2Proof.Machine.execEndCmd core slot s
  | .mma core => Sys2Proof.Machine.execMma core s
  | .aclr core => Sys2Proof.Machine.execAclr core s
  | .gmm core => Sys2Proof.Machine.execGmm core s
  | .gmmEntry core slot serial => Sys2Proof.Machine.execGmmEntry core slot serial s
  | .gmmEpilogue core slot serial => Sys2Proof.Machine.execGmmEpilogue core slot serial s
  | .attn core walk errs => Sys2Proof.Machine.execAttn core walk errs s
  | .vop core => Sys2Proof.Machine.execVop core s
  | .vred core => Sys2Proof.Machine.execVred core s
  | .epi core => Sys2Proof.Machine.execEpi core s
  | .vcvt core => Sys2Proof.Machine.execVcvt core s
  | .route core => Sys2Proof.Machine.execRoute core s
  | .sample core => Sys2Proof.Machine.execSample core s
  | .load core errs => Sys2Proof.Machine.execLoad core errs s
  | .store core errs => Sys2Proof.Machine.execStore core errs s
  | .stream core => Sys2Proof.Machine.execStream core s
  | .streamTileFetch core slot serial => Sys2Proof.Machine.execStreamTileFetch core slot serial s
  | .streamTileLanded core slot serial tile errs => Sys2Proof.Machine.execStreamTileLanded core slot serial tile errs s
  | .sstop core => Sys2Proof.Machine.execSstop core s
  | .gather core errs => Sys2Proof.Machine.execGather core errs s
  | .spcopy core => Sys2Proof.Machine.execSpcopy core s
  | .raconf core => Sys2Proof.Machine.execRaconf core s
  | .radrop core => Sys2Proof.Machine.execRadrop core s
  | .put core => Sys2Proof.Machine.execPut core s
  | .rsig core => Sys2Proof.Machine.execRsig core s
  | .fload core errs => Sys2Proof.Machine.execFload core errs s
  | .fstore core errs => Sys2Proof.Machine.execFstore core errs s
  | .fatom core errs => Sys2Proof.Machine.execFatom core errs s
  | .ipop core => Sys2Proof.Machine.execIpop core s
  | .commandComplete core slot serial => Sys2Proof.Machine.execCommandComplete core slot serial s
  | .tailWrite core slot value => Sys2Proof.Machine.execTailWrite core slot value s
  | .bind core slot => Sys2Proof.Machine.execBind core slot s
  | .unbind core slot => Sys2Proof.Machine.execUnbind core slot s
  | .pause core slot => Sys2Proof.Machine.execPause core slot s
  | .resume core slot => Sys2Proof.Machine.execResume core slot s
  | .stop core slot => Sys2Proof.Machine.execStop core slot s
  | .clear core slot => Sys2Proof.Machine.execClear core slot s
  | .restore core slot value => Sys2Proof.Machine.execRestore core slot value s
  | .slotDrained core slot => Sys2Proof.Machine.execSlotDrained core slot s
  | .rowFire die row value => Sys2Proof.Machine.execRowFire die row value s
  | .inboxArrival a => Sys2Proof.Machine.execInboxArrival a s
  | .rsigArrival a => Sys2Proof.Machine.execRsigArrival a s
  | .creditReturn core chan => Sys2Proof.Machine.execCreditReturn core chan s
  | .watchdogExpiry core slot engine => Sys2Proof.Machine.execWatchdogExpiry core slot engine s
  | .completionRecordWrite core => Sys2Proof.Machine.execCompletionRecordWrite core s
  | .starterFault die row => Sys2Proof.Machine.execStarterFault die row s
  | .inboxEnable core inbox value => Sys2Proof.Machine.execInboxEnable core inbox value s
  | .chanEnable core chan value => Sys2Proof.Machine.execChanEnable core chan value s
  | .faultValidClear core slot => Sys2Proof.Machine.execFaultValidClear core slot s
  | .registerWrite w r value => Sys2Proof.Machine.execRegisterWrite w r value s
  | .rcRegisterRead w r => Sys2Proof.Machine.execRcRegisterRead w r s
  | .bmv die part errs => Sys2Proof.Machine.execBmv die part errs s
  | .battn die part errs => Sys2Proof.Machine.execBattn die part errs s
  | .bnop die part => Sys2Proof.Machine.execBnop die part s
  | .besideCommandComplete die part index => Sys2Proof.Machine.execBesideCommandComplete die part index s
  | .bsdRingTailWrite die part starter tail => Sys2Proof.Machine.execBsdRingTailWrite die part starter tail s
  | .bsdRingClear die part starter => Sys2Proof.Machine.execBsdRingClear die part starter s
  | .bsdPartMapWrite die part value => Sys2Proof.Machine.execBsdPartMapWrite die part value s
  | .scrub die errs => Sys2Proof.Machine.execScrub die errs s
  | .poisonRewrite die line src => Sys2Proof.Machine.execPoisonRewrite die line src s
  | .farPortEnumerate found => Sys2Proof.Machine.execFarPortEnumerate found s
  | .cxlDeviceLoss dev => Sys2Proof.Machine.execCxlDeviceLoss dev s
  | .ftlRelocate block target => Sys2Proof.Machine.execFtlRelocate block target s
  | .ftlRefresh block target => Sys2Proof.Machine.execFtlRefresh block target s
  | .objectTtlExpiry obj => Sys2Proof.Machine.execObjectTtlExpiry obj s
  | .objectReadEnd obj => Sys2Proof.Machine.execObjectReadEnd obj s
  | .loadWindowWrite fn ap x data => Sys2Proof.Machine.execLoadWindowWrite fn ap x data s
  | .chunkHashed part ref image chunk => Sys2Proof.Machine.execChunkHashed part ref image chunk s
  | .relayChunk src part gen image chunk data => Sys2Proof.Machine.execRelayChunk src part gen image chunk data s
  | .relayChunkAck node part gen image chunk => Sys2Proof.Machine.execRelayChunkAck node part gen image chunk s
  | .genPrepare src part model gen => Sys2Proof.Machine.execGenPrepare src part model gen s
  | .genVote src part model gen yes => Sys2Proof.Machine.execGenVote src part model gen yes s
  | .genCommit part model gen => Sys2Proof.Machine.execGenCommit part model gen s
  | .cutPrepare src part model gen images => Sys2Proof.Machine.execCutPrepare src part model gen images s
  | .cutVote src part model lowest yes => Sys2Proof.Machine.execCutVote src part model lowest yes s
  | .cutVoteTimeout part model => Sys2Proof.Machine.execCutVoteTimeout part model s
  | .cutCommit part model cutLap => Sys2Proof.Machine.execCutCommit part model cutLap s
  | .cutAbort part model => Sys2Proof.Machine.execCutAbort part model s
  | .cutTimeout part model => Sys2Proof.Machine.execCutTimeout part model s
  | .cutoverCopy part model errs => Sys2Proof.Machine.execCutoverCopy part model errs s
  | .cutoverCopyDone part model => Sys2Proof.Machine.execCutoverCopyDone part model s
  | .cacheFetchStart part stack => Sys2Proof.Machine.execCacheFetchStart part stack s
  | .cacheFetchComplete part stack slot ok => Sys2Proof.Machine.execCacheFetchComplete part stack slot ok s
  | .ringPageFetch part => Sys2Proof.Machine.execRingPageFetch part s
  | .ringPageFetchDone part page ok => Sys2Proof.Machine.execRingPageFetchDone part page ok s
  | .sealOutcome o => Sys2Proof.Machine.execSealOutcome o s
  | .mirrorAppend src session layer head pos fmt data => Sys2Proof.Machine.execMirrorAppend src session layer head pos fmt data s
  | .mirrorAck session layer head pos count => Sys2Proof.Machine.execMirrorAck session layer head pos count s
  | .heatFetch heat => Sys2Proof.Machine.execHeatFetch heat s
  | .parkIdleExpiry session => Sys2Proof.Machine.execParkIdleExpiry session s
  | .parkOrder session errs => Sys2Proof.Machine.execParkOrder session errs s
  | .parkReport session node ok => Sys2Proof.Machine.execParkReport session node ok s
  | .resumeOrder session => Sys2Proof.Machine.execResumeOrder session s
  | .resumeReport session node ok => Sys2Proof.Machine.execResumeReport session node ok s
  | .sessionDropReport session node => Sys2Proof.Machine.execSessionDropReport session node s
  | .dispatchRow e => Sys2Proof.Machine.execDispatchRow e s
  | .dispatchEnd e => Sys2Proof.Machine.execDispatchEnd e s
  | .expertRet e => Sys2Proof.Machine.execExpertRet e s
  | .predEntry e experts => Sys2Proof.Machine.execPredEntry e experts s
  | .heatCancel heat epoch => Sys2Proof.Machine.execHeatCancel heat epoch s
  | .draftProposals src heat lap handle tokens drafts => Sys2Proof.Machine.execDraftProposals src heat lap handle tokens drafts s
  | .verdict v side => Sys2Proof.Machine.execVerdict v side s
  | .lapDone role heat lap epoch => Sys2Proof.Machine.execLapDone role heat lap epoch s
  | .pacerAdmit => Sys2Proof.Machine.execPacerAdmit s
  | .heatForm ctx prefill => Sys2Proof.Machine.execHeatForm ctx prefill s
  | .heatDescriptor d => Sys2Proof.Machine.execHeatDescriptor d s
  | .contextBlocked ctx causes => Sys2Proof.Machine.execContextBlocked ctx causes s
  | .contextBringIn ctx => Sys2Proof.Machine.execContextBringIn ctx s
  | .eviction part => Sys2Proof.Machine.execEviction part s
  | .evictTimeout part => Sys2Proof.Machine.execEvictTimeout part s
  | .evictSave part => Sys2Proof.Machine.execEvictSave part s
  | .faultRecord die row => Sys2Proof.Machine.execFaultRecord die row s
  | .slowdownReport part => Sys2Proof.Machine.execSlowdownReport part s
  | .ledgerFree index => Sys2Proof.Machine.execLedgerFree index s
  | .cmdSlotTake fn host => Sys2Proof.Machine.execCmdSlotTake fn host s
  | .evtSlotReturn fn slot => Sys2Proof.Machine.execEvtSlotReturn fn slot s
  | .coalInterval fn vector => Sys2Proof.Machine.execCoalInterval fn vector s
  | .flr fn => Sys2Proof.Machine.execFlr fn s
  | .hotReset => Sys2Proof.Machine.execHotReset s
  | .vfDisable numVfs => Sys2Proof.Machine.execVfDisable numVfs s
  | .hostLinkTrained width rate => Sys2Proof.Machine.execHostLinkTrained width rate s
  | .sidebandMessage hdr payload => Sys2Proof.Machine.execSidebandMessage hdr payload s
  | .spdmRequest doe q => Sys2Proof.Machine.execSpdmRequest doe q s
  | .sysCaps m => Sys2Proof.Machine.execSysCaps m s
  | .sysSettingsGet m => Sys2Proof.Machine.execSysSettingsGet m s
  | .sysSettingsSet m => Sys2Proof.Machine.execSysSettingsSet m s
  | .sysSettingsCommit m => Sys2Proof.Machine.execSysSettingsCommit m s
  | .sysTenantSet m => Sys2Proof.Machine.execSysTenantSet m s
  | .sysTenantGet m => Sys2Proof.Machine.execSysTenantGet m s
  | .sysReset m => Sys2Proof.Machine.execSysReset m s
  | .sysWake m => Sys2Proof.Machine.execSysWake m s
  | .parCreate m => Sys2Proof.Machine.execParCreate m s
  | .parDestroy m => Sys2Proof.Machine.execParDestroy m s
  | .parStop m => Sys2Proof.Machine.execParStop m s
  | .parStart m => Sys2Proof.Machine.execParStart m s
  | .parReset m => Sys2Proof.Machine.execParReset m s
  | .parCtxCreate m => Sys2Proof.Machine.execParCtxCreate m s
  | .parCtxDestroy m => Sys2Proof.Machine.execParCtxDestroy m s
  | .parStats m => Sys2Proof.Machine.execParStats m s
  | .parKvFmtSet m => Sys2Proof.Machine.execParKvFmtSet m s
  | .mdlBundleLoad m => Sys2Proof.Machine.execMdlBundleLoad m s
  | .mdlBundleUnload m => Sys2Proof.Machine.execMdlBundleUnload m s
  | .mdlGenCreate m => Sys2Proof.Machine.execMdlGenCreate m s
  | .mdlGenSeal m => Sys2Proof.Machine.execMdlGenSeal m s
  | .mdlGenStatus m => Sys2Proof.Machine.execMdlGenStatus m s
  | .mdlGenActivate m => Sys2Proof.Machine.execMdlGenActivate m s
  | .mdlGenCutover m => Sys2Proof.Machine.execMdlGenCutover m s
  | .mdlGenDelete m => Sys2Proof.Machine.execMdlGenDelete m s
  | .mdlRelay m => Sys2Proof.Machine.execMdlRelay m s
  | .mdlAdapterLoad m => Sys2Proof.Machine.execMdlAdapterLoad m s
  | .mdlAdapterReplace m => Sys2Proof.Machine.execMdlAdapterReplace m s
  | .mdlAdapterUnload m => Sys2Proof.Machine.execMdlAdapterUnload m s
  | .tirCreate m => Sys2Proof.Machine.execTirCreate m s
  | .tirWrite m => Sys2Proof.Machine.execTirWrite m s
  | .tirRead m => Sys2Proof.Machine.execTirRead m s
  | .tirSeal m => Sys2Proof.Machine.execTirSeal m s
  | .tirDelete m => Sys2Proof.Machine.execTirDelete m s
  | .tirStatus m => Sys2Proof.Machine.execTirStatus m s
  | .memRead m => Sys2Proof.Machine.execMemRead m s
  | .memWrite m => Sys2Proof.Machine.execMemWrite m s
  | .reqSubmit m => Sys2Proof.Machine.execReqSubmit m s
  | .reqCancel m => Sys2Proof.Machine.execReqCancel m s
  | .reqStatus m => Sys2Proof.Machine.execReqStatus m s
  | .reqSessionOpen m => Sys2Proof.Machine.execReqSessionOpen m s
  | .reqSessionClose m => Sys2Proof.Machine.execReqSessionClose m s
  | .reqPark m => Sys2Proof.Machine.execReqPark m s
  | .engCapSet m => Sys2Proof.Machine.execEngCapSet m s
  | .engPaceSet m => Sys2Proof.Machine.execEngPaceSet m s
  | .engStatus m => Sys2Proof.Machine.execEngStatus m s
  | .engAnnounce m => Sys2Proof.Machine.execEngAnnounce m s
  | .fabLinkPlan m => Sys2Proof.Machine.execFabLinkPlan m s
  | .fabStatus m => Sys2Proof.Machine.execFabStatus m s
  | .fabTwinStatus m => Sys2Proof.Machine.execFabTwinStatus m s
  | .fabLockstepSet m => Sys2Proof.Machine.execFabLockstepSet m s
  | .dbgWhistle m => Sys2Proof.Machine.execDbgWhistle m s
  | .dbgScoreboard m => Sys2Proof.Machine.execDbgScoreboard m s
  | .dbgTensorWatch m => Sys2Proof.Machine.execDbgTensorWatch m s
  | .deferredCommandDone path tag host errs ok => Sys2Proof.Machine.execDeferredCommandDone path tag host errs ok s
  | .linkSignalDetect link => Sys2Proof.Machine.execLinkSignalDetect link s
  | .linkLock link lanes => Sys2Proof.Machine.execLinkLock link lanes s
  | .trainTimeout link => Sys2Proof.Machine.execTrainTimeout link s
  | .trainRetry link => Sys2Proof.Machine.execTrainRetry link s
  | .linkIdentify link ident => Sys2Proof.Machine.execLinkIdentify link ident s
  | .identifyRetry link => Sys2Proof.Machine.execIdentifyRetry link s
  | .linkFault link => Sys2Proof.Machine.execLinkFault link s
  | .laneLoss link lane => Sys2Proof.Machine.execLaneLoss link lane s
  | .flitReceive link f => Sys2Proof.Machine.execFlitReceive link f s
  | .flitNak link seq => Sys2Proof.Machine.execFlitNak link seq s
  | .linkStateRecord r => Sys2Proof.Machine.execLinkStateRecord r s
  | .recordReflood => Sys2Proof.Machine.execRecordReflood s
  | .recordAgeOut node => Sys2Proof.Machine.execRecordAgeOut node s
  | .linkResync link lastAccepted => Sys2Proof.Machine.execLinkResync link lastAccepted s
  | .resyncTimeout link => Sys2Proof.Machine.execResyncTimeout link s
  | .packetRoute p => Sys2Proof.Machine.execPacketRoute p s
  | .ctlMsg src pseq bcast code payload => Sys2Proof.Machine.execCtlMsg src pseq bcast code payload s
  | .fwPacket p => Sys2Proof.Machine.execFwPacket p s
  | .loadPacket p errs => Sys2Proof.Machine.execLoadPacket p errs s
  | .storePacket p errs => Sys2Proof.Machine.execStorePacket p errs s
  | .atomicPacket p errs => Sys2Proof.Machine.execAtomicPacket p errs s
  | .putAck core chan seq accept reason => Sys2Proof.Machine.execPutAck core chan seq accept reason s
  | .putResend core chan => Sys2Proof.Machine.execPutResend core chan s
  | .creditPacket core chan credits => Sys2Proof.Machine.execCreditPacket core chan credits s
  | .loadData txn data poisonLine sub => Sys2Proof.Machine.execLoadData txn data poisonLine sub s
  | .donePacket txn sub bytes => Sys2Proof.Machine.execDonePacket txn sub bytes s
  | .atomicData txn sub old => Sys2Proof.Machine.execAtomicData txn sub old s
  | .fabricTimeout txn => Sys2Proof.Machine.execFabricTimeout txn s
  | .rdS line errs => Sys2Proof.Machine.execRdS line errs s
  | .rdM line needData errs => Sys2Proof.Machine.execRdM line needData errs s
  | .cohData line modified poison data => Sys2Proof.Machine.execCohData line modified poison data s
  | .inv line => Sys2Proof.Machine.execInv line s
  | .recall line => Sys2Proof.Machine.execRecall line s
  | .cohAck line noData => Sys2Proof.Machine.execCohAck line noData s
  | .wb line poisoned data => Sys2Proof.Machine.execWb line poisoned data s
  | .evict line => Sys2Proof.Machine.execEvict line s
  | .wbAck line => Sys2Proof.Machine.execWbAck line s
  | .pair info => Sys2Proof.Machine.execPair info s
  | .pairRetry => Sys2Proof.Machine.execPairRetry s
  | .heartbeatSend => Sys2Proof.Machine.execHeartbeatSend s
  | .heartbeat link => Sys2Proof.Machine.execHeartbeat link s
  | .hbMissExpiry => Sys2Proof.Machine.execHbMissExpiry s
  | .twinYield src => Sys2Proof.Machine.execTwinYield src s
  | .probe src target => Sys2Proof.Machine.execProbe src target s
  | .probeReplyTimeout => Sys2Proof.Machine.execProbeReplyTimeout s
  | .probeAnswer src alive => Sys2Proof.Machine.execProbeAnswer src alive s
  | .probeNoAnswer => Sys2Proof.Machine.execProbeNoAnswer s
  | .roleMove role oldNode newNode epoch => Sys2Proof.Machine.execRoleMove role oldNode newNode epoch s
  | .handoffOk heat lap => Sys2Proof.Machine.execHandoffOk heat lap s
  | .lapReplay heat lap epoch => Sys2Proof.Machine.execLapReplay heat lap epoch s
  | .sealMirror handle lap tokens => Sys2Proof.Machine.execSealMirror handle lap tokens s
  | .sealMirrorAck handle lap => Sys2Proof.Machine.execSealMirrorAck handle lap s
  | .sealQuery src handle => Sys2Proof.Machine.execSealQuery src handle s
  | .sealQueryReply src handle lap a => Sys2Proof.Machine.execSealQueryReply src handle lap a s
  | .join info => Sys2Proof.Machine.execJoin info s
  | .joinRetest => Sys2Proof.Machine.execJoinRetest s
  | .rejoinCopyDone => Sys2Proof.Machine.execRejoinCopyDone s
  | .checkpoint heat lap layer tensor digest own => Sys2Proof.Machine.execCheckpoint heat lap layer tensor digest own s
  | .lsWaitExpiry heat lap layer tensor => Sys2Proof.Machine.execLsWaitExpiry heat lap layer tensor s
  | .meterSample inputUj mw vin stages => Sys2Proof.Machine.execMeterSample inputUj mw vin stages s
  | .coefRefit fit => Sys2Proof.Machine.execCoefRefit fit s
  | .reconcile => Sys2Proof.Machine.execReconcile s
  | .shareOpen home handle subject => Sys2Proof.Machine.execShareOpen home handle subject s
  | .shareSigned m => Sys2Proof.Machine.execShareSigned m s
  | .blockClose chain => Sys2Proof.Machine.execBlockClose chain s
  | .blockSigned chain => Sys2Proof.Machine.execBlockSigned chain s
  | .governorTick r => Sys2Proof.Machine.execGovernorTick r s
  | .freqOffer src dom offer seq => Sys2Proof.Machine.execFreqOffer src dom offer seq s
  | .droopStretch field die cycles => Sys2Proof.Machine.execDroopStretch field die cycles s
  | .powerStateChoose ftlDuty => Sys2Proof.Machine.execPowerStateChoose ftlDuty s
  | .wakeEvent k => Sys2Proof.Machine.execWakeEvent k s
  | .wakeTimer => Sys2Proof.Machine.execWakeTimer s
  | .restReady node state t => Sys2Proof.Machine.execRestReady node state t s
  | .restGo state delay => Sys2Proof.Machine.execRestGo state delay s
  | .restCancel node => Sys2Proof.Machine.execRestCancel node s
  | .powerOn aux straps => Sys2Proof.Machine.execPowerOn aux straps s
  | .packageReset straps => Sys2Proof.Machine.execPackageReset straps s
  | .perstAssert us => Sys2Proof.Machine.execPerstAssert us s
  | .perstRelease straps => Sys2Proof.Machine.execPerstRelease straps s
  | .warmReset cause => Sys2Proof.Machine.execWarmReset cause s
  | .captainWatchdog captain => Sys2Proof.Machine.execCaptainWatchdog captain s
  | .bootRom puf => Sys2Proof.Machine.execBootRom puf s
  | .bootFirmware => Sys2Proof.Machine.execBootFirmware s
  | .captainFirmware => Sys2Proof.Machine.execCaptainFirmware s
  | .captFail => Sys2Proof.Machine.execCaptFail s
  | .dormantEntry => Sys2Proof.Machine.execDormantEntry s
  | .dormantExit => Sys2Proof.Machine.execDormantExit s
  | .genReloadDone part model gen => Sys2Proof.Machine.execGenReloadDone part model gen s
  | .extest bits => Sys2Proof.Machine.execExtest bits s
  | .samplePreload bits => Sys2Proof.Machine.execSamplePreload bits s
  | .idcode => Sys2Proof.Machine.execIdcode s
  | .tapStatus => Sys2Proof.Machine.execTapStatus s
  | .unlockChal => Sys2Proof.Machine.execUnlockChal s
  | .unlockResp resp => Sys2Proof.Machine.execUnlockResp resp s
  | .lock => Sys2Proof.Machine.execLock s
  | .apacc dr => Sys2Proof.Machine.execApacc dr s
  | .apaccAccessDone => Sys2Proof.Machine.execApaccAccessDone s
  | .tapWhistle reason => Sys2Proof.Machine.execTapWhistle reason s
  | .scanout => Sys2Proof.Machine.execScanout s
  | .bypass ir tdi => Sys2Proof.Machine.execBypass ir tdi s
  | .coreHalt core halt => Sys2Proof.Machine.execCoreHalt core halt s
  | .coreStep core slot => Sys2Proof.Machine.execCoreStep core slot s
  | .captHalt captain halt => Sys2Proof.Machine.execCaptHalt captain halt s
  | .captStep captain => Sys2Proof.Machine.execCaptStep captain s
  | .captBreakpoint captain brk => Sys2Proof.Machine.execCaptBreakpoint captain brk s
  | .flashErase sector => Sys2Proof.Machine.execFlashErase sector s
  | .flashEraseDone => Sys2Proof.Machine.execFlashEraseDone s
  | .whistleRegBlow value => Sys2Proof.Machine.execWhistleRegBlow value s
  | .whistleRegRelease => Sys2Proof.Machine.execWhistleRegRelease s
  | .whistle src pseq scope reason => Sys2Proof.Machine.execWhistle src pseq scope reason s
  | .whistleNote src pseq release => Sys2Proof.Machine.execWhistleNote src pseq release s
  | .whistleRelease src pseq => Sys2Proof.Machine.execWhistleRelease src pseq s
  | .scoreboardImageReady => Sys2Proof.Machine.execScoreboardImageReady s
  | .tensorWatchFire ctx tensor lap heat fmt row0 rowBytes rows host => Sys2Proof.Machine.execTensorWatchFire ctx tensor lap heat fmt row0 rowBytes rows host s
  | .pwrWarn pin => Sys2Proof.Machine.execPwrWarn pin s
  | .undervoltageLockout => Sys2Proof.Machine.execUndervoltageLockout s
  | .inputReturn => Sys2Proof.Machine.execInputReturn s
  | .thermalTrip => Sys2Proof.Machine.execThermalTrip s
  | .cohortCloseTimeout ctx => Sys2Proof.Machine.execCohortCloseTimeout ctx s
  | .activateVoteTimeout part model => Sys2Proof.Machine.execActivateVoteTimeout part model s
  | .roleReturnRetry => Sys2Proof.Machine.execRoleReturnRetry s
  | .inputTurnOn straps => Sys2Proof.Machine.execInputTurnOn straps s
  | .vfEnable numVfs => Sys2Proof.Machine.execVfEnable numVfs s
  | .oscillatorFailure => Sys2Proof.Machine.execOscillatorFailure s

end Sys2Proof.Machine
end

