-- ==== Sys2Proof/Machine/Tick.lean ====
section
/-!
DEFINITION. What happens when no command waits: one cycle of the AON clock (R24, R26), and what counts with it (R97, R393, R513, R614).
-/

namespace Sys2Proof.Machine

/-! ### Clocks -/

/-- Quarters of a Field cycle in one AON cycle: the Field clock runs at FREQ MHz and AON at 4 MHz; in every power state but RUN and with the
Field dies unpowered the clock stands (R24, R535). -/
def fieldQuarters (s : State) : Nat :=
  if s.power.fieldOn && s.power.state == .run then s.power.freq else 0

/-- Quarters of a Beside cycle in one AON cycle: 1,400 MHz while the Beside dies are powered and clocked (R24, R535). -/
def besideQuarters (s : State) : Nat := if s.power.besideOn && s.power.state == .run then 1400 else 0

/-! ### The states of a core's units (R97, R614). One AON cycle counts whole for the state a unit is in at its end (log 6). -/

/-- Whether a started command only waits: a PUT or RSIG for its resend. -/
def waitsResend (t : Started) : Bool :=
  match t.work with
  | .put _ _ _ (some _) => true
  | .rsig _ (some _) => true
  | _ => false

/-- Whether a started data-mover command waits on memory: tiles in flight, lines the twin holds, a fabric transaction. -/
def waitsData (t : Started) : Bool :=
  match t.work with
  | .stream st => !st.inflight.isEmpty
  | .lines _ => true
  | .txn _ => true
  | _ => false

/-- The state of an engine with commands started: BUSY, or what all of them wait for. -/
def startedState (l : List Started) (e : Nat) : Nat :=
  if e = 3 ∧ l.all waitsResend then 3 else if e = 2 ∧ l.all waitsData then 6 else 0

/-- The state of an engine with nothing started, from the head command of the slot whose turn is next. -/
def headState (k : Core) (slot e : Nat) : Nat :=
  let x := k.slot slot
  match x.queue e with
  | [] => 1
  | q :: _ =>
    if x.waits q && !admits k x q.cmd.waitH q.seq then 2
    else if resourcesFree k slot x q.cmd then 0
    else if q.cmd.opc == oPUT then 3 else 5

/-- The slot whose turn is next among those with a command queued for an engine. -/
def nextHead (k : Core) (e : Nat) : Option Nat :=
  ((List.range 4).map fun i => (k.rr e + 1 + i) % 4).find? fun i => !((k.slot i).queue e).isEmpty

/-- The state of a front end: what its blocking command waits for, a full sub-queue, or dispatching. -/
def feState (k : Core) : Nat :=
  match ((List.range 4).map fun i => (k.rrFe + 1 + i) % 4).find? fun i => (k.slot i).state == .running && ((k.slot i).fe.isSome || (k.slot i).head != (k.slot i).tail) with
  | none => 1
  | some i =>
    let x := k.slot i
    match x.fe with
    | some q => if q.cmd.waitEn && !admits k x q.cmd.waitH q.seq then 2 else if q.cmd.opc == oFENCE then 9 else 0
    | none => if canDispatch k i then 0 else 8

/-- The state of a unit: engines 0 to 3, 4 the front end. -/
def unitState (k : Core) (u : Nat) : Nat :=
  if u = 4 then feState k
  else
    let l := startedOn k u
    if !l.isEmpty then startedState l u
    else match nextHead k u with
      | some i => headState k i u
      | none => 1

/-- Whether a slot has a command started on an engine. -/
def holdsUnit (k : Core) (i u : Nat) : Bool := (k.slot i).started.any (·.engine == u)

/-- Whether a slot loses an engine to other slots: its head could start but for what their started commands hold. -/
def slotLost (k : Core) (i u : Nat) : Bool :=
  let x := k.slot i
  !holdsUnit k i u && (List.range 4).any (fun j => j != i && holdsUnit k j u) && x.state == .running &&
  match x.queue u with
  | q :: _ => !x.waits q || admits k x q.cmd.waitH q.seq
  | [] => false

/-! ### Counting -/

/-- A counter of a core raised. -/
def Core.countUp (k : Core) (key q : Nat) : Core := { k with counters := tput k.counters key (tget 0 k.counters key + q) }

/-- BUSY (d = 0) or LOST (d = 1) charged to a slot, and so to its context. -/
def chargeSlot (s : State) (c i u d q : Nat) : State :=
  let k := s.core c
  let x := s.ctx (k.slot i).ctx
  let key := c * 16 + u * 2 + d
  let s1 := s.setCore c (k.countUp (100 + i * 11 + u * 2 + d) q)
  if x.state = .none then s1 else s1.setCtx (k.slot i).ctx { x with util := tput x.util key (tget 0 x.util key + q) }

/-- One unit of a core for one AON cycle of q quarters and n whole Field cycles. A state is charged to a slot when one slot alone is responsible for it. -/
def chargeUnit (s : State) (c u q n : Nat) : State :=
  let k := s.core c
  let st := unitState k u
  let s1 := if st = 1 then s else s.setCore c (k.countUp (u * 10 + st) q)
  if u = 4 then s1
  else
    let busy := (List.range 4).filter fun i => holdsUnit k i u
    let s2 := match busy with
      | [i] => if st = 0 then chargeSlot s1 c i u 0 q else s1
      | _ => s1
    let s3 := ((List.range 4).filter fun i => slotLost k i u).foldl (fun s i => chargeSlot s c i u 1 q) s2
    match busy with
    | i :: _ => if u = 3 ∧ st = 0 then s3.count (k.slot i).ctx 9 n else s3
    | [] => s3

/-- One core for one AON cycle: a core that HALT holds counts in no state. -/
def chargeCore (s : State) (q n c : Nat) : State :=
  if !s.coreOk c then s
  else if s.coreHeld c then s.setCore c ((s.core c).countUp 99 q)
  else (List.range 5).foldl (fun s u => chargeUnit s c u q n) s

/-- The time a context was runnable while BENCHED, and its run time (R393). -/
def chargeCtx (s : State) (c : Nat) : State :=
  let x := s.ctx c
  let stalls := x.state == .benched && runnable s c
  let runs := stalls || (x.state == .resident && heatInFlight s c)
  let s1 := if runs then s.setCtx c { x with stallAon := x.stallAon + b2n stalls, runAon := x.runAon + 1 } else s
  if stalls then
    let p := s1.part x.part
    s1.setPart x.part { p with stats := { p.stats with schedStall := p.stats.schedStall + 1 } }
  else s1

/-- The counters of the cores and contexts; a whistle holds every one of them still (R607, R615). -/
def countCycle (s : State) : State :=
  let q := fieldQuarters s
  if q = 0 ∨ s.whistled then s
  else
    let n := (s.countQ + q) / 4 - s.countQ / 4
    (tkeys s.srv.ctxs).foldl chargeCtx ((tkeys s.cores).foldl (fun s c => chargeCore s q n c) { s with countQ := s.countQ + q })

/-- Whether the AON domain has a supply (R633, R634). -/
def aonPowered (s : State) : Bool := s.entry.aux || s.entry.inputOn

/-- One AON cycle with no command (log 6). With the oscillator dead, or no supply, no clock runs (R632, R634). What an earlier command left due follows: the
return of a role at its lap (R502) and the requests of functions whose backlog overflowed (R413). -/
def tick (s : State) : State :=
  if s.entry.oscDead || !aonPowered s then s
  else
    let s1 := countCycle s
    settle (returnDue { s1 with aon := s.aon + 1, fieldQ := s.fieldQ + fieldQuarters s, besideQ := s.besideQ + besideQuarters s })

end Sys2Proof.Machine
end

