-- ==== Sys2Proof/Safety.lean ====
section
/-!
DEFINITION. The terms the statements use: the canonical form of every byte memory, the reads of one byte, what a step leaves unchanged, and
when a command of an engine, a slot or the mailbox is taken.
-/

namespace Sys2Proof.Machine

/-! ### The fuses -/

/-- The package is the one `p` names: its variant, serial number, disabled cores, identifiers, vendor keys, revocations and ROM digest are the fused ones, and
neither of its two version minima has fallen (R2 to R6, R565). -/
def Anchored (p : Package) (s : State) : Prop :=
  s.pkg = { p with svnMinBoot := s.pkg.svnMinBoot, svnMinCapt := s.pkg.svnMinCapt } ∧ p.svnMinBoot ≤ s.pkg.svnMinBoot ∧ p.svnMinCapt ≤ s.pkg.svnMinCapt

/-! ### Memories -/

/-- Every scratchpad, accumulator store, starter memory, stack, beside ring, far-tier object and function SRAM, and the NOR, is in canonical form: addresses
strictly rising, no entry equal to what an unlisted address reads as. -/
def Memory.wf (s : State) : Bool :=
  (s.cores.all fun e => mwf 0 e.2.spad && mwf 0 e.2.acc) && (s.starters.all fun e => mwf 0 e.2.mem) &&
  (s.beside.all fun e => mwf 0 e.2.mem && e.2.rings.all fun r => mwf 0 r.2.sram) && (s.far.objs.all fun e => mwf 0 e.2.data) &&
  (s.mbx.fns.all fun e => mwf 0 e.2.sram) && mwf 0xFF s.boot.nor

/-- One byte of a core's scratchpad (R41). -/
def spadByte (s : State) (c a : Nat) : Byte := mget 0 (s.core c).spad a
/-- One element of a core's accumulator file, at row · 64 + column. -/
def accWord (s : State) (c i : Nat) : Word32 := mget 0 (s.core c).acc i
/-- One byte of a DRAM stack, by its offset. -/
def nearByte (s : State) (d a : Nat) : Byte := mget 0 (s.bdie d).mem a
/-- One byte of a far-tier object. -/
def objByte (s : State) (o a : Nat) : Byte := mget 0 (s.obj o).data a
/-- One byte of a function's BAR0 SRAM. -/
def sramByte (s : State) (f a : Nat) : Byte := mget 0 (s.fn f).sram a

/-- Every byte of every scratchpad, accumulator file and DRAM stack reads as before. -/
def KeepsMemory (s t : State) : Prop :=
  (∀ c a, spadByte t c a = spadByte s c a) ∧ (∀ c i, accWord t c i = accWord s c i) ∧ ∀ d a, nearByte t d a = nearByte s d a

/-- A table lists each key once. -/
def Keyed {α : Type} (t : Tab α) : Prop := (tkeys t).Nodup

/-- A firmware message to a destination has left the package (R445, R460). -/
def Tells (t : State) (d : Dest) (m : FwMsg) : Prop := ∃ k, Out.fw k d m ∈ t.out

/-- No function's backlog has overflowed with its requests still to end (R413). -/
def Settled (s : State) : Prop := ∀ f, f < 16 → (s.fn f).stalled = false

/-! ### Slots -/

/-- Core `c` is enabled and powered, and `k` numbers one of its slots (R40, R46). -/
def Reaches (s : State) (c k : Nat) : Prop := s.coreRegs c = true ∧ k < 4

/-- Nothing but one slot of one core changes, its core's expected SEQ values, hurdles and counters aside. -/
def OneSlot (s t : State) (c k : Nat) : Prop :=
  t = { s with cores := t.cores } ∧ KeepsMemory s t ∧
  (∀ c' k', k' < 4 → (c' ≠ c ∨ k' ≠ k) → t.slot c' k' = s.slot c' k') ∧
  (∀ c', (t.core c').inbox = (s.core c').inbox ∧ (t.core c').chan = (s.core c').chan ∧ (t.core c').ctrl = (s.core c').ctrl ∧
    (t.core c').held = (s.core c').held) ∧
  ∀ c', c' ≠ c → t.core c' = s.core c'

/-- A slot whose front end, in round-robin order, has a command to dispatch (R62). -/
def Dispatches (s : State) (c k : Nat) : Prop :=
  s.coreRuns c = true ∧ s.coreHeld c = false ∧
  ((List.range 4).map fun i => ((s.core c).rrFe + 1 + i) % 4).find? (canDispatch (s.core c)) = some k

/-- The slot as its front end sees it, past commands that started before a PAUSE rewound HEAD (R51). -/
def headSlot (s : State) (c k : Nat) : SlotSt := skipStarted 256 (s.slot c k)

/-- The command at that slot's HEAD (R47). -/
def headCmd (s : State) (c k : Nat) : Cmd := ringCmd (s.core c) k (headSlot s c k)

/-- A record enters the starter's queue at once: it has room, the core holds no earlier record and runs (R100). -/
def RecordRoom (s : State) (c : Nat) : Prop :=
  (s.core c).held = [] ∧ (s.starter (starterOf c)).queue.length < 1024 ∧ s.coreRuns c = true

/-- A command's own signal, where it has one, fits its hurdle's count (R82). -/
def SignalFits (s : State) (c k : Nat) (cmd : Cmd) : Prop :=
  cmd.sigEn = true → hCount ((s.core c).hur ((s.slot c k).hbase + cmd.sigH)) + 1 ≤ 65535

/-! ### Engines -/

/-- An engine of a running core picks slot `k`, whose head command on it is `q`, of the opcode named (R64, R65). -/
def EngineTakes (s : State) (c opc k : Nat) (q : QEntry) : Prop :=
  s.coreRuns c = true ∧ pickSlot (s.core c) (engineOf opc) = some k ∧ (((s.core c).slot k).queue (engineOf opc)).head? = some q ∧ q.cmd.opc = opc

/-- The command has left its sub-queue and is one of the slot's started commands, with the work `w` left to it; the slot keeps its state, its
configuration, HEAD, TAIL and fault record. -/
def Starts (s t : State) (c k e : Nat) (q : QEntry) (w : Work) : Prop :=
  (∃ u, (t.slot c k).started = (s.slot c k).started ++ [u] ∧ u.cmd = q.cmd ∧ u.seq = q.seq ∧ u.engine = e ∧ u.work = w) ∧
  ((t.slot c k).queue e).length + 1 = ((s.slot c k).queue e).length ∧ (t.slot c k).state = (s.slot c k).state ∧
  (t.slot c k).cfg = (s.slot c k).cfg ∧ (t.slot c k).head = (s.slot c k).head ∧ (t.slot c k).tail = (s.slot c k).tail ∧
  (t.slot c k).fault = (s.slot c k).fault

/-- Every scratchpad byte reads as before but those of some ranges of one core, given as first address and length. -/
def SpadExcept (s t : State) (c : Nat) (l : List (Nat × Nat)) : Prop :=
  ∀ c' a, (c' = c → ∀ r ∈ l, a < r.1 ∨ r.1 + r.2 ≤ a) → spadByte t c' a = spadByte s c' a

/-- Every accumulator element reads as before but those of some ranges of one core. -/
def AccExcept (s t : State) (c : Nat) (l : List (Nat × Nat)) : Prop :=
  ∀ c' a, (c' = c → ∀ r ∈ l, a < r.1 ∨ r.1 + r.2 ≤ a) → accWord t c' a = accWord s c' a

/-- Every byte of every stack reads as before but those of some ranges of one stack. -/
def NearExcept (s t : State) (d : Nat) (l : List (Nat × Nat)) : Prop :=
  ∀ d' a, (d' = d → ∀ r ∈ l, a < r.1 ∨ r.1 + r.2 ≤ a) → nearByte t d' a = nearByte s d' a

/-- Every byte of every stack reads as before but those of some ranges, each given as its stack, first offset and length. -/
def StackExcept (s t : State) (l : List (Nat × Nat × Nat)) : Prop :=
  ∀ d a, (∀ r ∈ l, r.1 = d → a < r.2.1 ∨ r.2.1 + r.2.2 ≤ a) → nearByte t d a = nearByte s d a

/-- What the start of a command on core `c` for slot `k` leaves: every scratchpad byte and accumulator element outside the ranges it writes,
every byte of every stack, every other core, the core's inbox and channel registers, and the state, configuration and started commands of its
other slots. -/
def EngineFrame (s t : State) (c k : Nat) (sp ac : List (Nat × Nat)) : Prop :=
  SpadExcept s t c sp ∧ AccExcept s t c ac ∧ (∀ d a, nearByte t d a = nearByte s d a) ∧ (∀ j, j ≠ c → t.core j = s.core j) ∧
  (t.core c).inbox = (s.core c).inbox ∧ (t.core c).chan = (s.core c).chan ∧
  ∀ j, j < 4 → j ≠ k → (t.slot c j).started = (s.slot c j).started ∧ (t.slot c j).state = (s.slot c j).state ∧
    (t.slot c j).cfg = (s.slot c j).cfg

/-- A vector command has run: it is started with its work done, writes nothing but the ranges named, and clears no sticky floating-point bit. -/
def VectorRan (s t : State) (c k : Nat) (q : QEntry) (sp : List (Nat × Nat)) : Prop :=
  Starts s t c k 1 q .done ∧ EngineFrame s t c k sp [] ∧ (t.slot c k).fpf &&& (s.slot c k).fpf = (s.slot c k).fpf

/-- The tile a matrix command's header wait takes carries no fault (R76). -/
def TileClean (s : State) (c k : Nat) (q : QEntry) : Prop :=
  q.cmd.waitEn = true → (consumeTile (s.slot c k) q.cmd.waitH).1 = none

/-- Bytes of near space that a partition reaches, no line of which is poisoned or modified in the twin's cache (R179, R206, R470). -/
def ReadsClean (s : State) (p na n : Nat) : Prop :=
  nearOk s p na n = true ∧ (∀ l ∈ linesOf (physOff s p na) n, tget false (s.bdie (naStack na)).poison l = false) ∧
  heldLines s p [(na, n)] false = []

/-- Bytes of near space that a partition may write, no line of which the twin holds (R179, R203, R246). -/
def WritesFree (s : State) (p na n : Nat) : Prop :=
  nearOk s p na n = true ∧ wpHit s p na n = false ∧ ∀ l ∈ linesOf (physOff s p na) n, lineHeld s (naStack na) l = false

/-- Every error the check code meets is correctable (R205). -/
def Correctable (errs : List EccErr) : Prop := ∀ e ∈ errs, e.correctable = true

/-- The scratchpad address of a window offset of a slot (R43). -/
def winAddr (s : State) (c k off : Nat) : Nat := (s.slot c k).spb * 4096 + off

/-! ### Serving -/

/-- The near ranges a session's lists occupy, which its park record reads (R287). -/
def parkRanges (s : State) (k : Nat) : List (Nat × Nat) :=
  (s.map k).lists.flatMap fun l => l.pages.flatMap fun g =>
    (kvRowRanges g.fmt (s.map k).d 0 g.fill).map fun x => (pageNear (s.part (s.map k).part) g + x.1, x.2)

/-- The rows of the heat of a kind that a context could form now (R377, R378). -/
def heatPick (s : State) (c : Nat) (pre : Bool) : Option (List (Nat × Nat)) :=
  ((heatPools s c).map fun p => heatRows s p pre).find? fun l => !l.isEmpty

/-- Every row of a heat served here finds room for its appends, one row after the other (R292, R296). -/
def heatFits (s : State) (h : Heat) (man : Manifest) : List HeatRow → Prop
  | [] => True
  | r :: l =>
    (servesRow s h r.handle = true →
      ∃ s1, withRoom (s.srv.maps.length + 1) (lapAcct (homeLap s h.desc.part r) h r) h.desc.part (sessKey r.home r.session)
        (fun s => growRow s h.desc.part man h.desc.lap r) = (s1, true)) ∧
    heatFits (fetchRow s h man r) h man l

/-! ### Messages -/

/-- The rows of the mailbox's command types, each with its type's code (R420 to R423). -/
def messageRows : List ((Msg → Instr) × Nat) :=
  [(.sysCaps, 0x0101), (.sysSettingsGet, 0x0102), (.sysSettingsSet, 0x0103), (.sysSettingsCommit, 0x0104), (.sysTenantSet, 0x0105),
   (.sysTenantGet, 0x0106), (.sysReset, 0x0107), (.sysWake, 0x0108), (.parCreate, 0x0201), (.parDestroy, 0x0202), (.parStop, 0x0203),
   (.parStart, 0x0204), (.parReset, 0x0205), (.parCtxCreate, 0x0206), (.parCtxDestroy, 0x0207), (.parStats, 0x0208), (.parKvFmtSet, 0x020A),
   (.mdlBundleLoad, 0x0301), (.mdlBundleUnload, 0x0302), (.mdlGenCreate, 0x0303), (.mdlGenSeal, 0x0304), (.mdlGenStatus, 0x0305),
   (.mdlGenActivate, 0x0306), (.mdlGenCutover, 0x0307), (.mdlGenDelete, 0x0308), (.mdlRelay, 0x0309), (.mdlAdapterLoad, 0x030A),
   (.mdlAdapterReplace, 0x030B), (.mdlAdapterUnload, 0x030C), (.tirCreate, 0x0401), (.tirWrite, 0x0402), (.tirRead, 0x0403), (.tirSeal,
   0x0404), (.tirDelete, 0x0405), (.tirStatus, 0x0406), (.reqSubmit, 0x0501), (.reqCancel, 0x0502), (.reqStatus, 0x0503), (.reqSessionOpen,
   0x0504), (.reqSessionClose, 0x0505), (.reqPark, 0x0506), (.memRead, 0x0601), (.memWrite, 0x0602), (.engCapSet, 0x0701), (.engPaceSet,
   0x0702), (.engStatus, 0x0703), (.engAnnounce, 0x0704), (.fabLinkPlan, 0x0801), (.fabStatus, 0x0802), (.fabTwinStatus, 0x0803),
   (.fabLockstepSet, 0x0804), (.dbgWhistle, 0x0901), (.dbgScoreboard, 0x0902), (.dbgTensorWatch, 0x0903)]

/-- A message of a type passes the checks every command meets first, with the oscillator running (R418). -/
def Serves (s : State) (code : Nat) (m : Msg) : Prop := s.entry.oscDead = false ∧ firstFailure s code m = none

/-- The same of a deferred type, with fewer than 64 deferred commands in progress on its path (R411). -/
def Begins (s : State) (code : Nat) (m : Msg) : Prop := Serves s code m ∧ (deferredOf s m.path).length < 64

/-- What a command answers is state `u` with the message's one response sent, and what the end of a function's requests adds where that overflowed its
backlog (R410, R413). -/
def Answers (o : Host.Outcome State Fault Refusal) (u : State) (code : Nat) (m : Msg) (st : Nat) (l : List Byte) : Prop :=
  o = .next (settle (reply u code m st l))

/-- What a command answers is state `u` with the message one of its path's deferred commands in progress, no response yet (R411). -/
def InBackground (o : Host.Outcome State Fault Refusal) (u : State) (code : Nat) (m : Msg) (note : Nat) : Prop :=
  o = .next (settle (setDeferred u m.path (deferredOf u m.path ++ [⟨code, m, note⟩])))

/-- What a command answers is state `t`, with the message one of its path's deferred commands in progress, and no response yet (R411). -/
def GoesOn (o : Host.Outcome State Fault Refusal) (s t : State) (code : Nat) (m : Msg) : Prop :=
  o = .next (settle t) ∧ deferredOf t m.path = deferredOf s m.path ++ [⟨code, m, 0⟩]

/-- What a command answers is state `u` with a deferred command ended: no longer in progress, its one response sent (R411). -/
def Ends (o : Host.Outcome State Fault Refusal) (u : State) (d : Deferred) (st : Nat) (l : List Byte) : Prop :=
  o = .next (settle (respond (setDeferred u d.msg.path ((deferredOf u d.msg.path).erase d)) d.msg.path d.type d.msg.tag st l))

end Sys2Proof.Machine
end

