-- ==== Sys2Proof/Certificates/Slice0/Obligations.lean ====
section
/-!
DEFINITION. The statements for the provers, in the terms of Safety.lean.
-/

open Sys2Proof Sys2Proof.Machine

/-- For every command c, queue rest and state s, step of s with c at the front of its queue is exec of c on s with the queue's rest. -/
def Obligations.StepRunsTheFrontCommand : Prop :=
  ∀ (c : Instr) (rest : List Instr) (s : State), step { s with pending := c :: rest } = exec c { s with pending := rest }

/-- On an empty queue a step, while the oscillator runs and the AON domain has a supply, answers a next state in which the AON counter has risen by one and the queue is empty. That an idle step stands for one AON cycle is log 6 (DESIGN CHOICE). -/
def Obligations.IdleStepIsOneAonCycle : Prop :=
  ∀ s : State, s.pending = [] → s.entry.oscDead = false → (s.entry.aux = true ∨ s.entry.inputOn = true) →
    ∃ t, step s = .next t ∧ t.aon = s.aon + 1 ∧ t.pending = []

/-- In the From state R50 gives it, each slot operation on an enabled, powered core completes: BIND of a valid configuration leaves BOUND with HEAD = TAIL = 0 and the slot's hurdles zero; PAUSE leaves PAUSED with nothing queued and TAIL kept; RESUME leaves RUNNING and changes nothing else of the slot; STOP and CLEAR leave BOUND with HEAD = TAIL, nothing queued, the deferred table empty and the fault record kept; UNBIND leaves UNBOUND; RESTORE leaves PAUSED with HEAD and TAIL from the write. Every other slot, every memory byte, inbox and channel register is unchanged, and everything outside the core. An operation whose From column does not hold leaves the whole state as it was (R645), and a BIND of an UNBOUND slot that R45 refuses changes only BIND_ERR. -/
def Obligations.SlotOperationsActAsTabled : Prop :=
  (∀ (s : State) (c k : Nat), Reaches s c k →
    ((s.slot c k).state = .unbound → bindOk (s.core c) k = true → ∃ t, exec (.bind c k) s = .next t ∧
      (t.slot c k).state = .bound ∧ (t.slot c k).head = 0 ∧ (t.slot c k).tail = 0 ∧ (t.slot c k).cfg = (s.slot c k).cfg ∧
      (∀ h, (s.slot c k).hbase ≤ h → h < (s.slot c k).hbase + (s.slot c k).hcount → (t.core c).hur h = 0) ∧ OneSlot s t c k) ∧
    ((s.slot c k).state = .running → ∃ t, exec (.pause c k) s = .next t ∧
      (t.slot c k).state = .paused ∧ (t.slot c k).queued = [] ∧ (t.slot c k).tail = (s.slot c k).tail ∧
      (t.slot c k).cfg = (s.slot c k).cfg ∧ (t.slot c k).drain = some .pausing ∧ OneSlot s t c k) ∧
    ((s.slot c k).state = .paused → ∃ t, exec (.resume c k) s = .next t ∧
      t.slot c k = { s.slot c k with state := .running, drain := none } ∧ OneSlot s t c k) ∧
    ((s.slot c k).state = .running ∨ (s.slot c k).state = .paused → ∃ t, exec (.stop c k) s = .next t ∧
      (t.slot c k).state = .bound ∧ (t.slot c k).head = (s.slot c k).tail ∧ (t.slot c k).tail = (s.slot c k).tail ∧
      (t.slot c k).queued = [] ∧ (t.slot c k).deferred = [] ∧ (t.slot c k).drain = some .stopping ∧ OneSlot s t c k) ∧
    ((s.slot c k).state = .frozen → ∃ t, exec (.clear c k) s = .next t ∧
      (t.slot c k).state = .bound ∧ (t.slot c k).head = (s.slot c k).tail ∧ (t.slot c k).queued = [] ∧ (t.slot c k).deferred = [] ∧
      (t.slot c k).fault = (s.slot c k).fault ∧ (t.slot c k).faddr = (s.slot c k).faddr ∧ OneSlot s t c k) ∧
    ((s.slot c k).state = .bound ∨ (s.slot c k).state = .paused → ∃ t, exec (.unbind c k) s = .next t ∧
      (t.slot c k).state = .unbound ∧ (t.slot c k).cfg = (s.slot c k).cfg ∧ (t.slot c k).fault = (s.slot c k).fault ∧ OneSlot s t c k) ∧
    ((s.slot c k).state = .bound → ∀ v : Word64, bits v 18 16 = 7 → ∃ t, exec (.restore c k v) s = .next t ∧
      t.slot c k = { s.slot c k with state := .paused, head := BitVec.ofNat 8 (bits v 15 8), tail := BitVec.ofNat 8 (bits v 7 0), drain := none } ∧
      OneSlot s t c k)) ∧
  (∀ (s : State) (c k : Nat), Reaches s c k →
    ((s.slot c k).state ≠ .unbound → exec (.bind c k) s = .next s) ∧
    ((s.slot c k).state ≠ .running → exec (.pause c k) s = .next s) ∧
    ((s.slot c k).state ≠ .paused → exec (.resume c k) s = .next s) ∧
    ((s.slot c k).state ≠ .running → (s.slot c k).state ≠ .paused → exec (.stop c k) s = .next s) ∧
    ((s.slot c k).state ≠ .frozen → exec (.clear c k) s = .next s) ∧
    ((s.slot c k).state ≠ .bound → (s.slot c k).state ≠ .paused → exec (.unbind c k) s = .next s) ∧
    ((s.slot c k).state ≠ .bound → ∀ v : Word64, bits v 18 16 = 7 → exec (.restore c k v) s = .next s) ∧
    ((s.slot c k).state = .unbound → bindOk (s.core c) k = false →
      exec (.bind c k) s = .next (s.setSlot c k { s.slot c k with bindErr := true })))

/-- TAIL_WRITE with OP = 0: in a BOUND slot of a row that is available, TSTAGE and TAIL are written and the slot is RUNNING exactly when TAIL differs from HEAD; in a RUNNING, PAUSED or FROZEN slot TSTAGE and TAIL are written and nothing else; in an UNBOUND slot nothing changes. In a BOUND slot of an unavailable row only TSTAGE is written. -/
def Obligations.TailWriteFiresABoundSlot : Prop :=
  ∀ (s : State) (c k : Nat) (v : Word64), Reaches s c k → bits v 18 16 = 0 →
    ((s.slot c k).state = .unbound → exec (.tailWrite c k v) s = .next s) ∧
    ((s.slot c k).state = .bound → (s.starter (starterOf c)).unavailable = false → ∃ t, exec (.tailWrite c k v) s = .next t ∧
      t.slot c k = { s.slot c k with
        tstage := BitVec.ofNat 8 (bits v 15 8), tail := BitVec.ofNat 8 (bits v 7 0)
        state := if BitVec.ofNat 8 (bits v 7 0) = (s.slot c k).head then .bound else .running } ∧ OneSlot s t c k) ∧
    ((s.slot c k).state = .bound → (s.starter (starterOf c)).unavailable = true → ∃ t, exec (.tailWrite c k v) s = .next t ∧
      t.slot c k = { s.slot c k with tstage := BitVec.ofNat 8 (bits v 15 8) } ∧ OneSlot s t c k) ∧
    ((s.slot c k).state = .running ∨ (s.slot c k).state = .paused ∨ (s.slot c k).state = .frozen → ∃ t, exec (.tailWrite c k v) s = .next t ∧
      t.slot c k = { s.slot c k with tstage := BitVec.ofNat 8 (bits v 15 8), tail := BitVec.ofNat 8 (bits v 7 0) } ∧ OneSlot s t c k)

/-- In a row that is available, ROW_FIRE leaves TAIL = TSTAGE in the named slot of every core of MASK that is enabled, powered and whose slot is bound; a core whose mask bit is clear, or that is disabled, keeps every slot as it was. -/
def Obligations.RowFireCopiesTstageToTail : Prop :=
  ∀ (s : State) (die row : Nat) (v : Word64), die < 4 → row < 16 → (s.starter (die * 16 + row)).unavailable = false →
    ∃ t, exec (.rowFire die row v) s = .next t ∧
      (∀ col, col < 24 → bit v col = true → s.coreRegs (coreAddr die row col) = true →
        (s.slot (coreAddr die row col) (bits v 25 24)).state ≠ .unbound →
        (t.slot (coreAddr die row col) (bits v 25 24)).tail = (s.slot (coreAddr die row col) (bits v 25 24)).tstage) ∧
      (∀ c, (∀ col, col < 24 → bit v col = true → s.coreRegs c = true → c ≠ coreAddr die row col) → t.core c = s.core c) ∧
      (∀ c, s.coreOk c = false → t.core c = s.core c) ∧ KeepsMemory s t ∧ t = { s with cores := t.cores }

/-- On a running core that is not held, for the slot the round-robin serves and a command no breakpoint matches: with no cause found before dispatch, an engine's command joins the end of that engine's sub-queue and HEAD advances by one, and a front-end command becomes the slot's blocking front-end command with HEAD on it; either way the slot is the last served and nothing outside that slot changes. With some cause found and VALID clear, the slot is FROZEN, FLD_CORE_FAULT names one of the causes found with the command's ring index, opcode and TAG, HEAD stays on the command and no memory changes. -/
def Obligations.FrontEndDispatchQueuesOrFaults : Prop :=
  ∀ (s : State) (c k : Nat), k < 4 → Dispatches s c k → brkMatches s c k (headCmd s c k) = [] →
    ((headCmd s c k).causes (headSlot s c k) = [] → ∃ t, exec (.frontEndDispatch c) s = .next t ∧
      (engineOf (headCmd s c k).opc ≠ 4 →
        (t.slot c k).queue (engineOf (headCmd s c k).opc) =
          (headSlot s c k).queue (engineOf (headCmd s c k).opc) ++ [⟨headCmd s c k, (s.core c).serial, 0, s.aon⟩] ∧
        (t.slot c k).head = (headSlot s c k).head + 1 ∧ (t.slot c k).fe = (headSlot s c k).fe) ∧
      (engineOf (headCmd s c k).opc = 4 →
        (t.slot c k).fe = some ⟨headCmd s c k, (s.core c).serial, 0, s.aon⟩ ∧ (t.slot c k).head = (headSlot s c k).head) ∧
      (t.core c).rrFe = k ∧ (t.slot c k).state = (headSlot s c k).state ∧ OneSlot s t c k) ∧
    ((headCmd s c k).causes (headSlot s c k) ≠ [] → bit (headSlot s c k).fault 8 = false → (headSlot s c k).state = .running →
      ∃ t f, exec (.frontEndDispatch c) s = .next t ∧ f ∈ (headCmd s c k).causes (headSlot s c k) ∧
        (t.slot c k).state = .frozen ∧
        (t.slot c k).fault = faultWord f false (headCmd s c k).ring (headCmd s c k).opc (headCmd s c k).tag ∧
        (t.slot c k).head = (headSlot s c k).head ∧ (∀ k', k' < 4 → k' ≠ k → t.slot c k' = s.slot c k') ∧ KeepsMemory s t)

/-- When the blocking front-end command of a RUNNING slot is admitted by its header wait: NOP advances HEAD and blocks no longer; FENCE does so once the queues of QMASK are clear; HARM, with no earlier waiter on the hurdle, leaves MODE, TARGET and COUNT as its operands say (its own signal aside); HSIG without a wait or signal of its own adds INC to the count where it fits; END, once every earlier command of the slot has completed, leaves the slot BOUND with HEAD past it and, where records have room, an END record last in the starter's queue (for a slot that serves no heat). No memory changes. -/
def Obligations.FrontEndCommandsTakeEffect : Prop :=
  ∀ (s : State) (c k : Nat) (q : QEntry),
    (feReady s c k oNOP = some q → ∃ t, exec (.nop c k) s = .next t ∧
      (t.slot c k).fe = none ∧ (t.slot c k).head = (s.slot c k).head + 1 ∧ KeepsMemory s t) ∧
    (feReady s c k oFENCE = some q → ((List.range 4).all fun e => !bit q.cmd.w1 e || engineClear (s.slot c k) e) = true →
      ∃ t, exec (.fence c k) s = .next t ∧ (t.slot c k).fe = none ∧ (t.slot c k).head = (s.slot c k).head + 1 ∧ KeepsMemory s t) ∧
    (feReady s c k oHARM = some q → earlierWaiter (s.core c) (s.slot c k) (bits q.cmd.w1 5 0) q.seq = false →
      ∃ t, exec (.harm c k) s = .next t ∧ (t.slot c k).fe = none ∧ (t.slot c k).head = (s.slot c k).head + 1 ∧ KeepsMemory s t ∧
        (q.cmd.sigEn = false → (t.core c).hur ((s.slot c k).hbase + bits q.cmd.w1 5 0) =
          mkWord [(0, bits q.cmd.w1 47 32), (16, bits q.cmd.w1 31 16), (32, bits q.cmd.w1 6 6)])) ∧
    (feReady s c k oHSIG = some q → ∃ t, exec (.hsig c k) s = .next t ∧
      (t.slot c k).fe = none ∧ (t.slot c k).head = (s.slot c k).head + 1 ∧ KeepsMemory s t ∧
      (q.cmd.waitEn = false → q.cmd.sigEn = false →
        hCount ((s.core c).hur ((s.slot c k).hbase + bits q.cmd.w1 5 0)) + bits q.cmd.w1 31 16 ≤ 65535 →
        hCount ((t.core c).hur ((s.slot c k).hbase + bits q.cmd.w1 5 0)) =
          hCount ((s.core c).hur ((s.slot c k).hbase + bits q.cmd.w1 5 0)) + bits q.cmd.w1 31 16)) ∧
    (feReady s c k oEND = some q → ((List.range 4).all fun e => engineClear (s.slot c k) e) = true → Settled s →
      (s.slot c k).heat = 0 → q.cmd.sigEn = false → q.cmd.mark = false → (s.core c).step = none → RecordRoom s c →
      ∃ t, exec (.endCmd c k) s = .next t ∧ (t.slot c k).state = .bound ∧ (t.slot c k).head = (s.slot c k).head + 1 ∧
        (t.slot c k).fe = none ∧ KeepsMemory s t ∧
        (t.starter (starterOf c)).queue = (s.starter (starterOf c)).queue ++
          [⟨kEND, coreCol c, k, (s.slot c k).ctx, q.cmd.ring, q.cmd.tag, 0, s.fieldCycle⟩])

/-- On a running core: a started command whose work is done leaves the slot's started commands when it completes, its hurdle's count rising by one where it signals and a MARK record entering the queue where it asks for one and there is room; a pausing slot whose started work is parked, or a stopping slot with nothing started, writes its PAUSED or STOPPED record with HEAD as RING and drains no more; a held record enters a queue that has room and is held no more; a command found waiting longer than the watchdog's time freezes its RUNNING slot with cause WATCHDOG where VALID is clear. None of them writes memory. -/
def Obligations.CompletionSignalsAndRecords : Prop :=
  ∀ (s : State) (c k : Nat), s.coreRuns c = true → k < 4 →
    (∀ n u, (s.slot c k).find n = some u → workDone u.work = true → SignalFits s c k u.cmd → (s.core c).step = none →
      ∃ t, exec (.commandComplete c k n) s = .next t ∧ (t.slot c k).started = (s.slot c k).started.filter (·.serial != n) ∧
        (u.cmd.sigEn = true → hCount ((t.core c).hur ((s.slot c k).hbase + u.cmd.sigH)) =
          hCount ((s.core c).hur ((s.slot c k).hbase + u.cmd.sigH)) + 1) ∧
        (u.cmd.mark = true → RecordRoom s c → (t.starter (starterOf c)).queue = (s.starter (starterOf c)).queue ++
          [⟨kMARK, coreCol c, k, (s.slot c k).ctx, u.cmd.ring, u.cmd.tag, 0, s.fieldCycle⟩]) ∧ KeepsMemory s t) ∧
    ((s.slot c k).drain = some .pausing → (s.slot c k).started.all parked = true → RecordRoom s c →
      ∃ t, exec (.slotDrained c k) s = .next t ∧ (t.slot c k).drain = none ∧ (t.slot c k).state = (s.slot c k).state ∧
        (t.starter (starterOf c)).queue = (s.starter (starterOf c)).queue ++
          [⟨kPAUSED, coreCol c, k, (s.slot c k).ctx, (s.slot c k).head.toNat, 0, 0, s.fieldCycle⟩] ∧ KeepsMemory s t) ∧
    ((s.slot c k).drain = some .stopping → (s.slot c k).started = [] → RecordRoom s c →
      ∃ t, exec (.slotDrained c k) s = .next t ∧ (t.slot c k).drain = none ∧ (t.slot c k).state = (s.slot c k).state ∧
        (t.starter (starterOf c)).queue = (s.starter (starterOf c)).queue ++
          [⟨kSTOPPED, coreCol c, k, (s.slot c k).ctx, (s.slot c k).head.toNat, 0, 0, s.fieldCycle⟩] ∧ KeepsMemory s t) ∧
    (∀ r rest, (s.core c).held = r :: rest → (s.starter (starterOf c)).queue.length < 1024 →
      ∃ t, exec (.completionRecordWrite c) s = .next t ∧ (t.core c).held = rest ∧
        (t.starter (starterOf c)).queue = (s.starter (starterOf c)).queue ++ [r] ∧ KeepsMemory s t) ∧
    (∀ e cmd since, (s.slot c k).state = .running → wdogUs s c ≠ 0 → stalled (s.core c) k e = some (cmd, since, none) →
      since + usAon (wdogUs s c) < s.aon → bit (s.slot c k).fault 8 = false →
      ∃ t, exec (.watchdogExpiry c k e) s = .next t ∧ (t.slot c k).state = .frozen ∧
        (t.slot c k).fault = faultWord fcWATCHDOG false cmd.ring cmd.opc cmd.tag ∧ KeepsMemory s t)

/-- On an enabled, powered core: enabling an inbox that R84 allows sets EN with BASE, ESZ, ENL, ARR_H and ARR_EN as written, one it refuses leaves EN 0; enabling a channel sets EN unless R40 refuses it, a channel newly enabled starts SEQ at 0; clearing VALID clears VALID and MORE of FLD_CORE_FAULT. HEAD and TAIL of the inbox are kept, and no memory or other slot changes. -/
def Obligations.CoreRegistersTakeTheirWrites : Prop :=
  ∀ (s : State) (c : Nat), s.coreRegs c = true →
    (∀ i (v : Word64), i < 32 → bit v 0 = true → ∃ t, exec (.inboxEnable c i v) s = .next t ∧
      ((t.core c).inbox = tput (s.core c).inbox i
        (mkWord [(0, bits v 33 2 * 4), (34, bits (tget 0 (s.core c).inbox i) 57 34), (0, b2n (inboxOk ((s.core c).slot (i / 8)) v))])) ∧
      (∀ k, t.slot c k = s.slot c k) ∧ KeepsMemory s t ∧ t = { s with cores := t.cores }) ∧
    (∀ j (v : Word64), j < 128 → bit v 0 = true → ∃ t, exec (.chanEnable c j v) s = .next t ∧
      ((t.core c).chan = tput (s.core c).chan j (setBits (setBits v 63 42 0) 0 0 (b2n (!chanRefused s v)))) ∧
      (chanRefused s v = false → chEn (tget 0 (s.core c).chan j) = false → tget 0 (t.core c).chanSeq j = 0) ∧
      (∀ k, t.slot c k = s.slot c k) ∧ KeepsMemory s t ∧ t = { s with cores := t.cores }) ∧
    (∀ k, k < 4 → ∃ t, exec (.faultValidClear c k) s = .next t ∧
      t.slot c k = { s.slot c k with fault := setBits (s.slot c k).fault 9 8 0 } ∧ OneSlot s t c k)

/-- When the vector engine takes a command whose operands lie in the slot's window (for EPI also its rows in the accumulator window; for VCVT a valid tally record of a block-scaled input; for SAMPLE zero reserved words), the command is started with its work done, every scratchpad byte outside its destination, every accumulator element and every stack byte is unchanged, and no sticky FPF bit is cleared. A VOP copy leaves at the destination the bytes the source held. -/
def Obligations.VectorCommandsRun : Prop :=
  ∀ (s : State) (c k : Nat) (q : QEntry),
    (EngineTakes s c oVOP k q → ∀ op b n, op = nbits q.cmd.flags 5 0 → b = outBytes (nbits q.cmd.flags 7 6) → n = bits q.cmd.w2 41 22 →
      (s.slot c k).inWin (bits q.cmd.w1 21 0) (n * b) = true →
      (1 ≤ op → op ≤ 6 → (s.slot c k).inWin (bits q.cmd.w1 43 22) (n * b) = true) →
      (s.slot c k).inWin (bits q.cmd.w2 21 0) (n * b) = true →
      ∃ t, exec (.vop c) s = .next t ∧ VectorRan s t c k q [(winAddr s c k (bits q.cmd.w2 21 0), n * b)] ∧
        (op = 0 → ∀ i, i < n * b →
          spadByte t c (winAddr s c k (bits q.cmd.w2 21 0) + i) = spadByte s c (winAddr s c k (bits q.cmd.w1 21 0) + i))) ∧
    (EngineTakes s c oVRED k q → ∀ b n rows, b = outBytes (nbits q.cmd.flags 7 6) → n = bits q.cmd.w2 41 22 → rows = bits q.cmd.w3 15 0 →
      (s.slot c k).inWin (bits q.cmd.w1 21 0) (if rows = 0 then 0 else (rows - 1) * roundUp (n * b) 64 + n * b) = true →
      (s.slot c k).inWin (bits q.cmd.w2 21 0) (rows * b) = true →
      ∃ t, exec (.vred c) s = .next t ∧ VectorRan s t c k q [(winAddr s c k (bits q.cmd.w2 21 0), rows * b)]) ∧
    (EngineTakes s c oEPI k q → ∀ rows dst stride b, rows = bits q.cmd.w1 20 10 → dst = bits q.cmd.w2 21 0 → stride = bits q.cmd.w2 51 30 →
      b = 64 * outBytes (bits q.cmd.w2 25 22) →
      (rows ≠ 0 → bits q.cmd.w1 9 0 + rows ≤ (s.slot c k).acs ∧ (s.slot c k).inWin dst ((rows - 1) * stride + b) = true ∧
        (nbits q.cmd.flags 0 0 = 1 → (s.slot c k).inWin (bits q.cmd.w1 42 21) 256 = true)) →
      ∃ t, exec (.epi c) s = .next t ∧
        VectorRan s t c k q ((List.range rows).map fun r => (winAddr s c k (dst + r * stride), b))) ∧
    (EngineTakes s c oVCVT k q → ∀ i o src dst n, i = nbits q.cmd.flags 3 0 → o = nbits q.cmd.flags 7 4 → src = bits q.cmd.w1 21 0 →
      dst = bits q.cmd.w2 21 0 → n = bits q.cmd.w2 41 22 → o ≤ 8 → (fmtBlock o = true → n % 32 = 0) →
      (n ≠ 0 → (s.slot c k).inWin src (areaBytes i n) = true ∧ (s.slot c k).inWin dst (areaBytes o n) = true ∧
        (fmtBlock i = true → (spadByte s c (winAddr s c k (src + 1))).toNat = i ∧
          3 ≤ (spadByte s c (winAddr s c k (src + 2))).toNat ∧ (spadByte s c (winAddr s c k (src + 2))).toNat ≤ 8)) →
      ∃ t, exec (.vcvt c) s = .next t ∧ VectorRan s t c k q [(winAddr s c k dst, if n = 0 then 0 else areaBytes o n)]) ∧
    (EngineTakes s c oROUTE k q → ∀ e rows src out, e = bits q.cmd.w3 10 0 → rows = bits q.cmd.w2 37 22 → src = bits q.cmd.w1 21 0 →
      out = bits q.cmd.w2 21 0 →
      (rows ≠ 0 → (s.slot c k).inWin src ((rows - 1) * roundUp (4 * e) 64 + 4 * e) = true ∧
        (s.slot c k).inWin (bits q.cmd.w1 43 22) (4 * e) = true ∧ (s.slot c k).inWin out (128 * rows) = true) →
      ∃ t, exec (.route c) s = .next t ∧ VectorRan s t c k q [(winAddr s c k out, 128 * rows)]) ∧
    (EngineTakes s c oSAMPLE k q → ∀ v rows src out par, v = bits q.cmd.w3 51 32 → rows = bits q.cmd.w2 34 22 → src = bits q.cmd.w1 21 0 →
      out = bits q.cmd.w1 43 22 → par = bits q.cmd.w2 21 0 →
      (rows ≠ 0 → (s.slot c k).inWin src ((rows - 1) * roundUp (4 * v) 64 + 4 * v) = true ∧
        (s.slot c k).inWin out (16 * rows) = true ∧ (s.slot c k).inWin par (16 * rows) = true) →
      (∀ r i, r < rows → i < 4 → spadByte s c (winAddr s c k (par + 16 * r + 12 + i)) = 0) →
      ∃ t, exec (.sample c) s = .next t ∧ VectorRan s t c k q [(winAddr s c k out, 16 * rows)])

/-- When the matrix engine takes a command whose tile carries no fault: an MMA with no fault among its operands is started with its work done and changes only its accumulator rows; an ACLR inside its window leaves its rows zero and every other element, scratchpad byte and stack byte unchanged; a GMM is started at the entry a PAUSE left it at, or at entry 0, and changes no memory; an ATTN with a well-formed block, no fault, no poison and no line with the twin is started with its work done, and changes accumulator elements only in its own rows; one with no query and no append writes only its result record. -/
def Obligations.MatrixCommandsRun : Prop :=
  ∀ (s : State) (c k : Nat) (q : QEntry), TileClean s c k q →
    (EngineTakes s c oMMA k q → ∀ p rows, p = prodOfMma q.cmd → rows = p.groups * p.at_ 5 →
      (rows ≠ 0 → p.accOk (s.slot c k) = true ∧ (p.at_ 6 ≠ 0 → p.tallyOut (s.slot c k) = [] ∧
        p.tallyBad (s.core c) (s.slot c k) = false ∧ p.faults (s.core c) (s.slot c k) fcBAD_OPERAND = [])) →
      ∃ t, exec (.mma c) s = .next t ∧ Starts s t c k 0 q .done ∧
        EngineFrame s t c k [] [(((s.slot c k).acb + p.at_ 8) * 64, rows * 64)]) ∧
    (EngineTakes s c oACLR k q → ∀ row n, row = bits q.cmd.w1 9 0 → n = bits q.cmd.w1 20 10 → (n ≠ 0 → row + n ≤ (s.slot c k).acs) →
      ∃ t, exec (.aclr c) s = .next t ∧ Starts s t c k 0 q .done ∧ EngineFrame s t c k [] [(((s.slot c k).acb + row) * 64, n * 64)] ∧
        ∀ i, i < n * 64 → accWord t c (((s.slot c k).acb + row) * 64 + i) = 0) ∧
    (EngineTakes s c oGMM k q → ∃ t, exec (.gmm c) s = .next t ∧ EngineFrame s t c k [] [] ∧
      Starts s t c k 0 q (if gmmEntries q.cmd ≤ (s.slot c k).gmmNext.getD 0 then .done else .gmm ⟨(s.slot c k).gmmNext.getD 0, [], false⟩)) ∧
    (EngineTakes s c oATTN k q → ∀ (walk : List Nat) (errs : List EccErr) (b : List Byte) (l : List (List Byte)),
      b = attnBlock (s.core c) (s.slot c k) q.cmd → l = attnList (s.core c) (s.slot c k) b →
      (s.slot c k).inWin (bits q.cmd.w1 21 0) 128 = true → abBad b (2 ^ 22) = false → abNq b + abNa b ≠ 0 →
      attnFaults s c (s.slot c k) q.cmd b l (attnPages l walk) = [] → attnHeld s c k q walk = [] →
      (∀ r ∈ pageRanges (abD b) l (attnPages l walk), ∀ m ∈ linesOf (physOff s (corePart s c) r.1) r.2,
        tget false (s.bdie (naStack r.1)).poison m = false) → Correctable errs →
      ∃ t, exec (.attn c walk errs) s = .next t ∧ Starts s t c k 0 q .done ∧
        AccExcept s t c (if abNq b = 0 then [] else [(((s.slot c k).acb + bits q.cmd.w1 53 44) * 64, ceilDiv (abD b) 64 * 256 * 64)])) ∧
    (EngineTakes s c oATTN k q → ∀ (walk : List Nat) (errs : List EccErr) (b : List Byte), b = attnBlock (s.core c) (s.slot c k) q.cmd →
      (s.slot c k).inWin (bits q.cmd.w1 21 0) 128 = true → abBad b (2 ^ 22) = false → abNq b = 0 → abNa b = 0 →
      (s.slot c k).inWin (abRes b) 64 = true → attnHeld s c k q walk = [] →
      ∃ t, exec (.attn c walk errs) s = .next t ∧ Starts s t c k 0 q .done ∧ EngineFrame s t c k [(winAddr s c k (abRes b), 64)] [])

/-- For a started GMM of a RUNNING slot with entries left: an entry of zero M or N that passes its checks is skipped, the next entry is one further and no memory changes; an entry with no fault, whose hurdle admits it and whose rows no waiting epilogue holds, changes accumulator elements only in its own rows and no scratchpad byte, and the GMM has one entry fewer to read, its epilogue waiting where it has one. With no vector command in progress, GMM_EPILOGUE takes the oldest epilogue from the GMM, writing its output rows and no accumulator element. -/
def Obligations.GroupTableWalkAdvances : Prop :=
  ∀ (s : State) (c k n : Nat) (u : Started) (g : GmmSt), s.coreRuns c = true → k < 4 → (s.slot c k).find n = some u → u.work = .gmm g →
    (∀ e, (s.slot c k).state = .running → g.ended = false → g.next < gmmEntries u.cmd →
      e = winRead (s.core c) (s.slot c k) (gmmOff u.cmd g.next) 64 → entryBad e = false →
      (eM e = 0 ∨ eN e = 0 → ∃ t, exec (.gmmEntry c k n) s = .next t ∧ KeepsMemory s t ∧
        (t.slot c k).started = (s.slot c k).started.map fun v => if v.serial = n then
          { v with work := if g.epilogues.isEmpty && decide (gmmEntries u.cmd ≤ g.next + 1) then .done else .gmm { g with next := g.next + 1 } }
          else v) ∧
      (eM e ≠ 0 → eN e ≠ 0 → entryFaults (s.slot c k) u.cmd e = [] → (g.epilogues.any fun p => entriesOverlap p.2 e) = false →
        (nbits (eF e 0x34 1) 7 7 = 1 → admits (s.core c) (s.slot c k) (nbits (eF e 0x34 1) 5 0) u.seq = true ∧
          (consumeTile (s.slot c k) (nbits (eF e 0x34 1) 5 0)).1 = none) →
        (nbits (eF e 0x35 1) 7 7 = 1 → hCount ((s.core c).hur ((s.slot c k).hbase + nbits (eF e 0x35 1) 5 0)) + 1 ≤ 65535) →
        ((prodOfEntry u.cmd e).at_ 6 ≠ 0 → (prodOfEntry u.cmd e).tallyOut (s.slot c k) = [] ∧
          (prodOfEntry u.cmd e).tallyBad (s.core c) (s.slot c k) = false ∧
          (prodOfEntry u.cmd e).faults (s.core c) (s.slot c k) fcGROUP_TABLE = []) →
        ∃ t, exec (.gmmEntry c k n) s = .next t ∧
          EngineFrame s t c k [] [(((s.slot c k).acb + eF e 0x2C 2) * 64, eGroups e * eM e * 64)] ∧
          (t.slot c k).started = (s.slot c k).started.map fun v => if v.serial = n then
            { v with work := if (g.epilogues.isEmpty && !eEpi e) && decide (gmmEntries u.cmd ≤ g.next + 1) then .done
              else .gmm { g with next := g.next + 1, epilogues := if eEpi e then g.epilogues ++ [(g.next, e)] else g.epilogues } } else v)) ∧
    (∀ p r, startedOn (s.core c) 1 = [] → g.epilogues = p :: r → g.ended = false →
      ∃ t, exec (.gmmEpilogue c k n) s = .next t ∧
        EngineFrame s t c k ((List.range (eGroups p.2 * eR p.2)).map fun m =>
          (winAddr s c k (eF p.2 0x18 4 + m * eF p.2 0x1C 4), 64 * outBytes (eF p.2 0x31 1))) [] ∧
        (t.slot c k).started = (s.slot c k).started.map fun v => if v.serial = n then
          { v with work := if r.isEmpty && decide (gmmEntries u.cmd ≤ g.next) then .done else .gmm { g with epilogues := r } } else v)

/-- When the data mover takes a LOAD every row of which it can read cleanly into the window, the command is started with its work done, every scratchpad byte outside its destination rows is unchanged, every accumulator element and stack byte too, and a LOAD of one row leaves at the destination the bytes near memory holds. When it takes a STORE every row of which lies in the window and may be written, with no line held by the twin, the command is started with its work done, no scratchpad byte or accumulator element changes, every stack byte outside its destination rows is unchanged, and a STORE of one row leaves the window's bytes there. -/
def Obligations.LoadAndStoreMoveRows : Prop :=
  ∀ (s : State) (c k : Nat) (q : QEntry) (errs : List EccErr), Correctable errs →
    (EngineTakes s c oLOAD k q → ∀ p na sp len rows, p = corePart s c → na = mvNear q.cmd → sp = mvSpad q.cmd → len = mvLen q.cmd →
      rows = (if len = 0 then 0 else mvRows q.cmd) →
      (∀ r, r < rows → ReadsClean s p (na + r * mvNs q.cmd) len ∧ (s.slot c k).inWin (sp + r * mvSs q.cmd) len = true) →
      ∃ t, exec (.load c errs) s = .next t ∧ Starts s t c k 2 q .done ∧
        EngineFrame s t c k ((List.range rows).map fun r => (winAddr s c k (sp + r * mvSs q.cmd), len)) [] ∧
        (rows = 1 → ∀ i, i < len → spadByte t c (winAddr s c k sp + i) = nearByte s (naStack na) (physOff s p na + i))) ∧
    (EngineTakes s c oSTORE k q → ∀ p na sp len rows, p = corePart s c → na = mvNear q.cmd → sp = mvSpad q.cmd → len = mvLen q.cmd →
      rows = (if len = 0 then 0 else mvRows q.cmd) →
      (∀ r, r < rows → WritesFree s p (na + r * mvNs q.cmd) len ∧ (s.slot c k).inWin (sp + r * mvSs q.cmd) len = true) →
      ∃ t, exec (.store c errs) s = .next t ∧ Starts s t c k 2 q .done ∧ SpadExcept s t c [] ∧ AccExcept s t c [] ∧
        (∀ d a, (∀ r, r < rows → d ≠ naStack (na + r * mvNs q.cmd) ∨ a < physOff s p (na + r * mvNs q.cmd) ∨
          physOff s p (na + r * mvNs q.cmd) + len ≤ a) → nearByte t d a = nearByte s d a) ∧
        (rows = 1 → ∀ i, i < len → nearByte t (naStack na) (physOff s p na + i) = spadByte s c (winAddr s c k sp + i)))

/-- A STREAM with no tiles starts with its work done; one whose hurdles are semaphores of TARGET 1 starts with tile 0 next, neither changing memory. A stream of a RUNNING slot that is not stopped, with tiles left, of index below DEPTH or admitted by EMPTY_H, fetches its next tile: that tile is in flight and the next index is one further. A tile in flight that can be read cleanly lands: it is in flight no more, its data is in its buffer, FULL_H counts one more where that fits, and no other scratchpad byte changes. An SSTOP leaves no active stream of its tag and none of their unconsumed tiles. -/
def Obligations.StreamsFetchAndLandTiles : Prop :=
  ∀ (s : State) (c k : Nat) (q : QEntry),
    (EngineTakes s c oSTREAM k q → strTiles q.cmd = 0 → ∃ t, exec (.stream c) s = .next t ∧ Starts s t c k 2 q .done ∧ EngineFrame s t c k [] []) ∧
    (EngineTakes s c oSTREAM k q → strTiles q.cmd ≠ 0 →
      unitSem ((s.core c).hur ((s.slot c k).hbase + strFull q.cmd)) = true →
      unitSem ((s.core c).hur ((s.slot c k).hbase + strEmpty q.cmd)) = true →
      ∃ t, exec (.stream c) s = .next t ∧ Starts s t c k 2 q (.stream ⟨0, [], 0, false⟩) ∧ EngineFrame s t c k [] []) ∧
    (EngineTakes s c oSSTOP k q → ∃ t, exec (.sstop c) s = .next t ∧ EngineFrame s t c k [] [] ∧
      (∃ u ∈ (t.slot c k).started, u.cmd = q.cmd ∧ u.work = .done) ∧
      (∀ u ∈ (t.slot c k).started, ∀ st, u.work = .stream st → u.cmd.tag = bits q.cmd.w1 15 0 → st.stopped = true) ∧
      (∀ u ∈ (s.slot c k).started, ∀ st, u.work = .stream st → u.cmd.tag = bits q.cmd.w1 15 0 →
        ∀ x ∈ (t.slot c k).tiles, x.serial ≠ u.serial)) ∧
    (∀ n u st, s.coreRuns c = true → k < 4 → (s.slot c k).state = .running → (s.slot c k).find n = some u → u.work = .stream st →
      st.stopped = false → st.next < strTiles u.cmd →
      (strDepth u.cmd ≤ st.next → admits (s.core c) (s.slot c k) (strEmpty u.cmd) u.seq = true) →
      ∃ t, exec (.streamTileFetch c k n) s = .next t ∧ KeepsMemory s t ∧
        (t.slot c k).started = (s.slot c k).started.map fun v => if v.serial = n then
          { v with work := .stream { st with next := st.next + 1, inflight := st.inflight ++ [st.next] } } else v) ∧
    (∀ n u st tile errs, s.coreRegs c = true → k < 4 → (s.slot c k).find n = some u → u.work = .stream st → st.inflight.contains tile = true →
      Correctable errs → ReadsClean s (corePart s c) (strNear u.cmd + tile * strBytes u.cmd) (strBytes u.cmd) →
      (s.slot c k).inWin (strBuf u.cmd + tile % max 1 (strDepth u.cmd) * strBytes u.cmd) (strBytes u.cmd) = true →
      hCount ((s.core c).hur ((s.slot c k).hbase + strFull u.cmd)) + 1 ≤ 65535 →
      ∃ t, exec (.streamTileLanded c k n tile errs) s = .next t ∧
        SpadExcept s t c [(winAddr s c k (strBuf u.cmd + tile % max 1 (strDepth u.cmd) * strBytes u.cmd), strBytes u.cmd)] ∧
        (∀ i, i < strBytes u.cmd →
          spadByte t c (winAddr s c k (strBuf u.cmd + tile % max 1 (strDepth u.cmd) * strBytes u.cmd) + i) =
          nearByte s (naStack (strNear u.cmd + tile * strBytes u.cmd))
            (physOff s (corePart s c) (strNear u.cmd + tile * strBytes u.cmd) + i)) ∧
        hCount ((t.core c).hur ((s.slot c k).hbase + strFull u.cmd)) =
          hCount ((s.core c).hur ((s.slot c k).hbase + strFull u.cmd)) + 1 ∧
        (∀ v ∈ (t.slot c k).started, v.serial = n → ∀ z, v.work = .stream z → tile ∉ z.inflight))

/-- When the data mover takes a SPCOPY inside the window, the destination holds the bytes the source held before (R648) and nothing else of memory changes. A GATHER whose pointers are valid in form and whose sources can be read cleanly is started with its work done and writes only its output rows. A RACONF with no deferred fault under its tag and no overflow is started and done; one that finds a fault freezes the slot with that cause and DEFERRED set where VALID is clear; a RADROP leaves no entry under its tag and every other entry. -/
def Obligations.GatherCopyAndRunAheadCommandsRun : Prop :=
  ∀ (s : State) (c k : Nat) (q : QEntry),
    (EngineTakes s c oSPCOPY k q → ∀ src dst n, src = bits q.cmd.w1 21 0 → dst = bits q.cmd.w2 21 0 → n = bits q.cmd.w2 45 22 →
      (s.slot c k).inWin src n = true → (s.slot c k).inWin dst n = true →
      ∃ t, exec (.spcopy c) s = .next t ∧ Starts s t c k 2 q .done ∧ EngineFrame s t c k [(winAddr s c k dst, n)] [] ∧
        ∀ i, i < n → spadByte t c (winAddr s c k dst + i) = spadByte s c (winAddr s c k src + i)) ∧
    (EngineTakes s c oGATHER k q → ∀ (errs : List EccErr) p n rows dst stride, Correctable errs → p = corePart s c → n = gaLen q.cmd →
      rows = (if n = 0 then 0 else gaCount q.cmd) → dst = bits q.cmd.w1 43 22 → stride = bits q.cmd.w2 58 37 →
      overlap (bits q.cmd.w1 21 0) (gaCount q.cmd * 8) dst (if rows = 0 then 0 else (rows - 1) * stride + n) = false →
      n % outBytes (bits q.cmd.w3 35 32) = 0 → outBytes (bits q.cmd.w3 35 32) ≠ 0 →
      (∀ r, r < rows → ∀ w, w = winNat (s.core c) (s.slot c k) (bits q.cmd.w1 21 0 + 8 * r) 8 → ptrBad w = false ∧
        (ptrValid w = true → ptrSpad w = true → (s.slot c k).inWin (ptrAddr w) n = true) ∧
        (ptrValid w = true → ptrSpad w = false → ReadsClean s p (ptrAddr w) n) ∧ (s.slot c k).inWin (dst + r * stride) n = true) →
      ∃ t, exec (.gather c errs) s = .next t ∧ Starts s t c k 2 q .done ∧
        EngineFrame s t c k ((List.range rows).map fun r => (winAddr s c k (dst + r * stride), n)) []) ∧
    (EngineTakes s c oRACONF k q → ((s.slot c k).deferred.find? (·.1 == bits q.cmd.w1 15 0)) = none → (s.slot c k).defOvf = false →
      ∃ t, exec (.raconf c) s = .next t ∧ Starts s t c k 2 q .done ∧ EngineFrame s t c k [] []) ∧
    (EngineTakes s c oRACONF k q → ∀ e, ((s.slot c k).deferred.find? (·.1 == bits q.cmd.w1 15 0)) = some e →
      (s.slot c k).state = .running → bit (s.slot c k).fault 8 = false →
      ∃ t, exec (.raconf c) s = .next t ∧ (t.slot c k).state = .frozen ∧
        (t.slot c k).fault = faultWord e.2 true q.cmd.ring q.cmd.opc q.cmd.tag ∧ KeepsMemory s t) ∧
    (EngineTakes s c oRADROP k q → ∃ t, exec (.radrop c) s = .next t ∧ Starts s t c k 2 q .done ∧ EngineFrame s t c k [] [] ∧
      (t.slot c k).deferred = (s.slot c k).deferred.filter (·.1 != bits q.cmd.w1 15 0))

/-- When the message engine takes a PUT that no cause keeps from starting, the command is started as an unaccepted PUT under its channel's next SEQ, its channel has one credit fewer and its next SEQ is one higher modulo 2^32, RESTART is spent, and no memory changes. An RSIG through an enabled channel whose node is not lost is started unaccepted and changes no memory. An IPOP of no more entries than its inbox holds is started with its work done; HEAD advances by that many entries modulo the ring's size, and the inbox holds that many fewer. -/
def Obligations.MessageCommandsStart : Prop :=
  ∀ (s : State) (c k : Nat) (q : QEntry),
    (EngineTakes s c oPUT k q → ∀ ch w, ch = chanOf k q.cmd → w = tget 0 (s.core c).chan ch → putCauses s (s.slot c k) w q.cmd = [] →
      ∃ t, exec (.put c) s = .next t ∧
        Starts s t c k 3 q (.put (tget 0 (s.core c).chanSeq ch) ((s.core c).restart.contains ch) 1 none) ∧
        (t.core c).chan = tput (s.core c).chan ch (setBits w 41 26 (chCredits w - 1)) ∧
        (t.core c).chanSeq = tput (s.core c).chanSeq ch ((tget 0 (s.core c).chanSeq ch + 1) % 2 ^ 32) ∧
        (t.core c).restart = (s.core c).restart.filter (· != ch) ∧ KeepsMemory s t) ∧
    (EngineTakes s c oRSIG k q → ∀ w, w = tget 0 (s.core c).chan (chanOf k q.cmd) → chEn w = true → chLost s w = false →
      ∃ t, exec (.rsig c) s = .next t ∧ Starts s t c k 3 q (.rsig 1 none) ∧ (t.core c).chan = (s.core c).chan ∧ KeepsMemory s t) ∧
    (EngineTakes s c oIPOP k q → ∀ i n w, i = 8 * k + bits q.cmd.w1 2 0 → n = bits q.cmd.w1 15 3 → w = tget 0 (s.core c).inbox i →
      n ≤ tget 0 (s.core c).inboxN i →
      ∃ t, exec (.ipop c) s = .next t ∧ Starts s t c k 3 q .done ∧
        (t.core c).inbox = tput (s.core c).inbox i (setBits w 45 34 ((ibHead w + n) % inboxSize w)) ∧
        (t.core c).inboxN = tput (s.core c).inboxN i (tget 0 (s.core c).inboxN i - n) ∧ KeepsMemory s t)

/-- A PUT the destination inbox does not reject, from the same package or another one, has its entry written at the inbox's TAIL, TAIL is one entry further modulo the ring's size, the inbox holds one entry more, and nothing else of that core's scratchpad changes; a near PUT is thereby done. A near RSIG whose inbox is open and not full is done, and its hurdle, where in the slot's range, counts its increment where that fits; a far one likewise. -/
def Obligations.MessagesArriveAtOpenInboxes : Prop :=
  ∀ (s : State),
    (∀ c k n u w seq r b wt, nearMsg s c k n = some (u, w) → u.work = .put seq r b wt →
      putReject s s.fab.node c (chanOf k u.cmd) (chCore w) (chInbox w) seq (putLen u.cmd) r = none →
      ∃ t, exec (.inboxArrival (.near c k n)) s = .next t ∧
        (∀ v ∈ (t.slot c k).started, v.serial = n → v.work = .done) ∧
        tget 0 (t.core (chCore w)).inboxN (chInbox w) = tget 0 (s.core (chCore w)).inboxN (chInbox w) + 1 ∧
        tget 0 (t.core (chCore w)).inbox (chInbox w) =
          setBits (inboxReg s (chCore w) (chInbox w)) 57 46 ((ibTail (inboxReg s (chCore w) (chInbox w)) + 1) % inboxSize (inboxReg s (chCore w) (chInbox w))) ∧
        SpadExcept s t (chCore w) [(winAddr s (chCore w) (chInbox w / 8) (ibBase (inboxReg s (chCore w) (chInbox w)) * 64 +
          ibTail (inboxReg s (chCore w) (chInbox w)) * 2 ^ ibEsz (inboxReg s (chCore w) (chInbox w))), putLen u.cmd + 16)] ∧
        ∀ i, i < putLen u.cmd + 16 → spadByte t (chCore w) (winAddr s (chCore w) (chInbox w / 8)
          (ibBase (inboxReg s (chCore w) (chInbox w)) * 64 +
            ibTail (inboxReg s (chCore w) (chInbox w)) * 2 ^ ibEsz (inboxReg s (chCore w) (chInbox w))) + i) =
          ((putEntry s c k u.cmd seq)[i]?).getD 0) ∧
    (∀ p core inbox w, p.type = pkPUT → p.dst = s.fab.node → takesFrom s p.src = true → core = ble p.args 0 2 → inbox = ble p.args 2 1 →
      w = inboxReg s core inbox → 16 ≤ p.data.length →
      putReject s p.src (ble p.args 8 2) (ble p.args 10 1) core inbox p.pseq (p.data.length - 16) (nbits (ble p.args 3 1) 0 0 = 1) = none →
      ∃ t, exec (.inboxArrival (.far p)) s = .next t ∧
        tget 0 (t.core core).inboxN inbox = tget 0 (s.core core).inboxN inbox + 1 ∧
        tget 0 (t.core core).inbox inbox = setBits w 57 46 ((ibTail w + 1) % inboxSize w) ∧
        SpadExcept s t core [(winAddr s core (inbox / 8) (ibBase w * 64 + ibTail w * 2 ^ ibEsz w), p.data.length)] ∧
        ∀ i, i < p.data.length → spadByte t core (winAddr s core (inbox / 8) (ibBase w * 64 + ibTail w * 2 ^ ibEsz w) + i) = (p.data[i]?).getD 0) ∧
    (∀ c k n u w b wt h, nearMsg s c k n = some (u, w) → u.work = .rsig b wt → rsigReject s (chCore w) (chInbox w) = none →
      h = (s.slot (chCore w) (chInbox w / 8)).hbase + rsigHur w → rsigHur w < (s.slot (chCore w) (chInbox w / 8)).hcount →
      hCount ((s.core (chCore w)).hur h) + rsigInc u.cmd ≤ 65535 →
      ∃ t, exec (.rsigArrival (.near c k n)) s = .next t ∧ (∀ v ∈ (t.slot c k).started, v.serial = n → v.work = .done) ∧
        hCount ((t.core (chCore w)).hur h) = hCount ((s.core (chCore w)).hur h) + rsigInc u.cmd ∧ KeepsMemory s t) ∧
    (∀ p core inbox h, p.type = pkRSIG → p.dst = s.fab.node → takesFrom s p.src = true → core = ble p.args 0 2 → inbox = ble p.args 2 1 →
      rsigReject s core inbox = none → h = (s.slot core (inbox / 8)).hbase + ble p.args 4 2 % 64 →
      ble p.args 4 2 % 64 < (s.slot core (inbox / 8)).hcount → hCount ((s.core core).hur h) + ble p.args 6 2 ≤ 65535 →
      ∃ t, exec (.rsigArrival (.far p)) s = .next t ∧
        hCount ((t.core core).hur h) = hCount ((s.core core).hur h) + ble p.args 6 2 ∧ KeepsMemory s t)

/-- Credits on their way inside the package, or carried by a CREDIT packet to an enabled core, are added to their channel's CREDITS (65,535 at most) and are on their way no more. ACCEPT ends the PUT or RSIG it names; REJECT leaves that message waiting to be resent. Once the wait of a channel's earliest waiting message is over, no message of that channel waits. None of them changes memory. -/
def Obligations.CreditsAndAnswersReachTheirChannel : Prop :=
  ∀ (s : State),
    (∀ core chan c0 K n, s.cores.find? (fun e => e.2.creditOut.any fun o => o.1 == core && o.2.1 == chan) = some (c0, K) → s.core c0 = K →
      n = (K.creditOut.filter fun o => o.1 == core && o.2.1 == chan).foldl (fun a o => a + o.2.2) 0 →
      ∃ t, exec (.creditReturn core chan) s = .next t ∧
        tget 0 (t.core core).chan chan = setBits (tget 0 (s.core core).chan chan) 41 26 (min 65535 (chCredits (tget 0 (s.core core).chan chan) + n)) ∧
        ((t.core c0).creditOut.any fun o => o.1 == core && o.2.1 == chan) = false ∧ KeepsMemory s t) ∧
    (∀ core chan n, chan < 128 → s.coreOk core = true → ∃ t, exec (.creditPacket core chan n) s = .next t ∧
      tget 0 (t.core core).chan chan = setBits (tget 0 (s.core core).chan chan) 41 26 (min 65535 (chCredits (tget 0 (s.core core).chan chan) + n)) ∧
      (∀ j, j ≠ chan → tget 0 (t.core core).chan j = tget 0 (s.core core).chan j) ∧ KeepsMemory s t ∧ t = { s with cores := t.cores }) ∧
    (∀ core chan seq reason u, chan < 128 → reason ≤ 3 → chFar s (tget 0 (s.core core).chan chan) = true →
      ((s.slot core (chan / 32)).started.find? fun v => ofChan (chan / 32) chan v && msgSeq v == some seq) = some u →
      (∃ t, exec (.putAck core chan seq true reason) s = .next t ∧
        (∀ v ∈ (t.slot core (chan / 32)).started, v.serial = u.serial → v.work = .done) ∧ OneSlot s t core (chan / 32)) ∧
      (∃ t, exec (.putAck core chan seq false reason) s = .next t ∧
        (∀ v ∈ (t.slot core (chan / 32)).started, v.serial = u.serial → msgSeq v = some seq → (waitOf v).isSome = true) ∧
        OneSlot s t core (chan / 32))) ∧
    (∀ core chan v l w b, chan < 128 → s.coreRuns core = true →
      ((s.slot core (chan / 32)).started.filter fun t => ofChan (chan / 32) chan t && (waitOf t).isSome) = v :: l → waitOf v = some (w, b) →
      w + usAon b ≤ s.aon → ∃ t, exec (.putResend core chan) s = .next t ∧
        (∀ u ∈ (t.slot core (chan / 32)).started, ofChan (chan / 32) chan u = true → waitOf u = none) ∧ KeepsMemory s t)

/-- When the message engine takes a fabric command whose data and status word lie in the window and no line it needs is with the twin: aimed at another reachable package and not served by the line cache, it is started with an open transaction of that node, near address and length; of length 0 (FLOAD, FSTORE) it is done with sub-cause OK; aimed at an unreachable node with NOFAULT it is done. An FLOAD of this package's own memory whose lines can be read cleanly is done and leaves near memory's bytes in the window outside the status word; an FSTORE of its own memory whose lines may be written is done and leaves the window's bytes there; an FATOM of its own memory is done, leaving the new value there. -/
def Obligations.FabricCommandsStart : Prop :=
  ∀ (s : State) (c k : Nat) (q : QEntry) (errs : List EccErr), Correctable errs →
    (s.slot c k).inWin (fcStat q.cmd) 8 = true →
    (EngineTakes s c oFLOAD k q → (s.slot c k).inWin (fcSpad q.cmd) (fcLen q.cmd) = true →
      (fcLen q.cmd = 0 → ∃ t, exec (.fload c errs) s = .next t ∧ Starts s t c k 3 q .done ∧
        EngineFrame s t c k [(winAddr s c k (fcStat q.cmd), 8)] []) ∧
      (fcLen q.cmd ≠ 0 → fcNode s q.cmd ≠ s.fab.node → reachable s (fcNode s q.cmd) = true →
        cacheable s (fcNode s q.cmd) (corePart s c) (fcNear q.cmd) (fcLen q.cmd) false = false →
        ∃ t, exec (.fload c errs) s = .next t ∧ Starts s t c k 3 q (.txn s.fab.txnNext) ∧ KeepsMemory s t ∧
          (t.txn s.fab.txnNext).open_ = true ∧ (t.txn s.fab.txnNext).node = fcNode s q.cmd ∧
          (t.txn s.fab.txnNext).near = fcNear q.cmd ∧ (t.txn s.fab.txnNext).len = fcLen q.cmd) ∧
      (fcLen q.cmd ≠ 0 → fcLen q.cmd % 64 = 0 → fcNode s q.cmd = s.fab.node → fabHeld s c q.cmd = [] →
        (s.part (corePart s c)).state = .active → ReadsClean s (corePart s c) (fcNear q.cmd) (fcLen q.cmd) →
        ∃ t, exec (.fload c errs) s = .next t ∧ Starts s t c k 3 q .done ∧
          EngineFrame s t c k [(winAddr s c k (fcSpad q.cmd), fcLen q.cmd), (winAddr s c k (fcStat q.cmd), 8)] [] ∧
          ∀ i, i < fcLen q.cmd → (fcSpad q.cmd + i < fcStat q.cmd ∨ fcStat q.cmd + 8 ≤ fcSpad q.cmd + i) →
            spadByte t c (winAddr s c k (fcSpad q.cmd) + i) =
              nearByte s (naStack (fcNear q.cmd)) (physOff s (corePart s c) (fcNear q.cmd) + i))) ∧
    (EngineTakes s c oFSTORE k q → (s.slot c k).inWin (fcSpad q.cmd) (fcLen q.cmd) = true →
      (fcLen q.cmd ≠ 0 → fcNode s q.cmd ≠ s.fab.node → reachable s (fcNode s q.cmd) = true →
        cacheable s (fcNode s q.cmd) (corePart s c) (fcNear q.cmd) (fcLen q.cmd) true = false →
        ∃ t, exec (.fstore c errs) s = .next t ∧ Starts s t c k 3 q (.txn s.fab.txnNext) ∧ KeepsMemory s t ∧
          (t.txn s.fab.txnNext).open_ = true ∧ (t.txn s.fab.txnNext).node = fcNode s q.cmd ∧
          (t.txn s.fab.txnNext).near = fcNear q.cmd ∧ (t.txn s.fab.txnNext).len = fcLen q.cmd) ∧
      (fcLen q.cmd ≠ 0 → fcLen q.cmd % 64 = 0 → fcNode s q.cmd = s.fab.node → fabHeld s c q.cmd = [] →
        (s.part (corePart s c)).state = .active → WritesFree s (corePart s c) (fcNear q.cmd) (fcLen q.cmd) →
        ∃ t, exec (.fstore c errs) s = .next t ∧ Starts s t c k 3 q .done ∧ SpadExcept s t c [(winAddr s c k (fcStat q.cmd), 8)] ∧
          NearExcept s t (naStack (fcNear q.cmd)) [(physOff s (corePart s c) (fcNear q.cmd), fcLen q.cmd)] ∧
          ∀ i, i < fcLen q.cmd → nearByte t (naStack (fcNear q.cmd)) (physOff s (corePart s c) (fcNear q.cmd) + i) =
            spadByte s c (winAddr s c k (fcSpad q.cmd) + i))) ∧
    (EngineTakes s c oFATOM k q → (s.slot c k).inWin (fcSpad q.cmd) 24 = true →
      (fcNode s q.cmd ≠ s.fab.node → reachable s (fcNode s q.cmd) = true →
        ∃ t, exec (.fatom c errs) s = .next t ∧ Starts s t c k 3 q (.txn s.fab.txnNext) ∧ KeepsMemory s t ∧
          (t.txn s.fab.txnNext).open_ = true ∧ (t.txn s.fab.txnNext).node = fcNode s q.cmd ∧
          (t.txn s.fab.txnNext).near = fcNear q.cmd) ∧
      (∀ size, size = (if bit q.cmd.w3 26 then 8 else 4) → fcNear q.cmd % size = 0 → fcNode s q.cmd = s.fab.node → fabHeld s c q.cmd = [] →
        (s.part (corePart s c)).state = .active → ReadsClean s (corePart s c) (fcNear q.cmd) size →
        WritesFree s (corePart s c) (fcNear q.cmd) size →
        ∃ t, exec (.fatom c errs) s = .next t ∧ Starts s t c k 3 q .done ∧
          NearExcept s t (naStack (fcNear q.cmd)) [(physOff s (corePart s c) (fcNear q.cmd), size)] ∧
          mread 0 (t.bdie (naStack (fcNear q.cmd))).mem (physOff s (corePart s c) (fcNear q.cmd)) size =
            leBytes size (atomicNew (bits q.cmd.w3 25 23) size
              (leNat (mread 0 (s.bdie (naStack (fcNear q.cmd))).mem (physOff s (corePart s c) (fcNear q.cmd)) size))
              (leNat (mread 0 (s.core c).spad (winAddr s c k (fcSpad q.cmd)) 8) % 2 ^ (8 * size))
              (leNat (mread 0 (s.core c).spad (winAddr s c k (fcSpad q.cmd + 8)) 8) % 2 ^ (8 * size)) (bit q.cmd.w3 27))))

/-- A LOAD of another package to an ACTIVE partition whose lines can be read cleanly is answered LOAD_DATA with sub-cause OK and near memory's bytes, no memory changing. A STORE whose lines may be written is applied whole and answered DONE with sub-cause OK and its length. An ATOMIC on a word that can be read cleanly and written replaces it by the operation's result and is answered with the old value. -/
def Obligations.FabricRequestsAreServed : Prop :=
  ∀ (s : State) (p : Packet) (errs : List EccErr) (na len : Nat), Correctable errs → na = ble p.args 0 5 → (s.part p.part).state = .active →
    (forUs s p pkLOAD = true → len = ble p.args 5 2 → len % 64 = 0 → ReadsClean s p.part na len →
      ∃ t s1, exec (.loadPacket p errs) s = .next t ∧ KeepsMemory s s1 ∧ KeepsMemory s t ∧
        t = sendPacket s1 ovCtx (mkPacket s pkLOAD_DATA p.src p.part p.pseq (rspArgs scOK (len / 64))
          (mread 0 (s.bdie (naStack na)).mem (physOff s p.part na) len))) ∧
    (forUs s p pkSTORE = true → len = p.data.length → len % 64 = 0 → WritesFree s p.part na len →
      ∃ t s1, exec (.storePacket p errs) s = .next t ∧ t = sendPacket s1 ovCtx (mkPacket s pkDONE p.src p.part p.pseq (rspArgs scOK len) []) ∧
        NearExcept s t (naStack na) [(physOff s p.part na, len)] ∧ SpadExcept s t 0 [] ∧
        ∀ i, i < len → nearByte t (naStack na) (physOff s p.part na + i) = (p.data[i]?).getD 0) ∧
    (forUs s p pkATOMIC = true → len = (if nbits (ble p.args 5 1) 3 3 = 1 then 8 else 4) → na % len = 0 → ReadsClean s p.part na len →
      WritesFree s p.part na len →
      ∃ t s1, exec (.atomicPacket p errs) s = .next t ∧
        t = sendPacket s1 ovCtx (mkPacket s pkATOMIC_DATA p.src p.part p.pseq (rspArgs scOK 0)
          (leBytes 8 (leNat (mread 0 (s.bdie (naStack na)).mem (physOff s p.part na) len)))) ∧
        NearExcept s t (naStack na) [(physOff s p.part na, len)] ∧
        mread 0 (t.bdie (naStack na)).mem (physOff s p.part na) len = leBytes len (atomicNew (nbits (ble p.args 5 1) 2 0) len
          (leNat (mread 0 (s.bdie (naStack na)).mem (physOff s p.part na) len)) (ble p.data 0 8 % 2 ^ (8 * len)) (ble p.data 8 8 % 2 ^ (8 * len))
          (nbits (ble p.args 5 1) 4 4 = 1)))

/-- For an open transaction not served by the line cache whose command is started: LOAD_DATA with sub-cause OK and enough data puts the data in the window outside the status word; each of LOAD_DATA, DONE_PACKET, ATOMIC_DATA with sub-cause OK, and FABRIC_TIMEOUT of a NOFAULT command after FAB_TO_US, leaves the transaction closed, the command's work done and the status word written, and changes no scratchpad byte outside the data and the status word, no accumulator element and no stack byte. -/
def Obligations.FabricAnswersEndTheirTransaction : Prop :=
  ∀ (s : State) (id : Nat) (x : Txn) (u : Started), s.txn id = x → x.open_ = true → x.cached = false → x.slot < 4 →
    (s.slot x.core x.slot).find x.serial = some u →
    (x.kind = oFLOAD → ∀ data, x.len ≤ data.length → ∃ t, exec (.loadData id data none 0) s = .next t ∧ (t.txn id).open_ = false ∧
      (∀ v ∈ (t.slot x.core x.slot).started, v.serial = x.serial → v.work = .done) ∧
      SpadExcept s t x.core [(winAddr s x.core x.slot x.spad, x.len), (winAddr s x.core x.slot x.stat, 8)] ∧
      AccExcept s t x.core [] ∧ NearExcept s t 0 [] ∧
      ∀ i, i < x.len → (x.spad + i < x.stat ∨ x.stat + 8 ≤ x.spad + i) →
        spadByte t x.core (winAddr s x.core x.slot x.spad + i) = (data[i]?).getD 0) ∧
    (x.kind = oFSTORE → ∀ n, ∃ t, exec (.donePacket id 0 n) s = .next t ∧ (t.txn id).open_ = false ∧
      (∀ v ∈ (t.slot x.core x.slot).started, v.serial = x.serial → v.work = .done) ∧
      SpadExcept s t x.core [(winAddr s x.core x.slot x.stat, 8)] ∧ AccExcept s t x.core [] ∧ NearExcept s t 0 []) ∧
    (x.kind = oFATOM → ∀ old : Word64, ∃ t, exec (.atomicData id 0 old) s = .next t ∧ (t.txn id).open_ = false ∧
      (∀ v ∈ (t.slot x.core x.slot).started, v.serial = x.serial → v.work = .done) ∧
      SpadExcept s t x.core [(winAddr s x.core x.slot (x.spad + 16), 8), (winAddr s x.core x.slot x.stat, 8)] ∧ AccExcept s t x.core [] ∧
      NearExcept s t 0 []) ∧
    (x.noFault = true → x.since + usAon (s.cfg 0x0803) ≤ s.aon → ∃ t, exec (.fabricTimeout id) s = .next t ∧ (t.txn id).open_ = false ∧
      (∀ v ∈ (t.slot x.core x.slot).started, v.serial = x.serial → v.work = .done) ∧
      SpadExcept s t x.core [(winAddr s x.core x.slot x.stat, 8)] ∧ AccExcept s t x.core [] ∧ NearExcept s t 0 [] ∧
      mread 0 (t.core x.core).spad (winAddr s x.core x.slot x.stat) 8 = statusWord scTIMEOUT x.moved)

/-- With no backlog overflow pending, a write by a master that reaches the register: FLD_SLOT_CFG of an UNBOUND slot takes the value and nothing else changes, of any other slot changes nothing; a captain's write of BSD_WP stores EN, BASE and SIZE in that entry alone; of BSD_RING it stores OWNER and EN of that ring alone; BSD_UE_ADDR's VALID is cleared exactly by writing 1; FLD_NUM_CFG stores the value with reserved bits zero; a write of a read-only register changes nothing; a word written to a core's scratchpad or accumulator store, in canonical form, by its starter or a captain reads back there and changes no other byte, element or slot; a word written to a ring's entries by the ring's OWNER stores those eight bytes alone. A write by a master that does not reach the register changes nothing. -/
def Obligations.RegisterWritesReachTheirRegister : Prop :=
  ∀ s : State, Settled s →
    (∀ w c off v, reaches s w (.core c off) = true → s.coreRegs c = true → (w = .debugPort → s.dport.level = 2) → off < 0x20 →
      ((s.slot c (off / 8)).state = .unbound → ∃ t, exec (.registerWrite w (.core c off) v) s = .next t ∧
        t.slot c (off / 8) = { s.slot c (off / 8) with cfg := v } ∧ OneSlot s t c (off / 8)) ∧
      ((s.slot c (off / 8)).state ≠ .unbound → exec (.registerWrite w (.core c off) v) s = .next s)) ∧
    (∀ d p i v, d < 12 → p < 16 → i < 8 → s.power.besideOn = true → ∃ t, exec (.registerWrite .captain (.wp d p i) v) s = .next t ∧
      tget 0 (t.bdie d).wp (p * 8 + i) = mkWord [(0, bits v 0 0), (16, bits v 30 16), (32, bits v 46 32)] ∧
      (∀ j, j ≠ p * 8 + i → tget 0 (t.bdie d).wp j = tget 0 (s.bdie d).wp j) ∧ (∀ e, e ≠ d → t.bdie e = s.bdie e) ∧ KeepsMemory s t) ∧
    (∀ d p v, d < 12 → p < 16 → s.power.besideOn = true → ∃ t, exec (.registerWrite .captain (.ring d p) v) s = .next t ∧
      t.ring d p = { s.ring d p with owner := BitVec.ofNat 6 (bits v 24 19), en := bit v 25 } ∧
      (∀ q, q ≠ p → t.ring d q = s.ring d q) ∧ (∀ e, e ≠ d → t.bdie e = s.bdie e) ∧ KeepsMemory s t) ∧
    (∀ d v, d < 12 → s.power.besideOn = true → ∃ t, exec (.registerWrite .captain (.ueAddr d) v) s = .next t ∧
      (bit v 36 = true → bit (t.bdie d).ueAddr 36 = false) ∧ (bit v 36 = false → (t.bdie d).ueAddr = (s.bdie d).ueAddr) ∧
      bits (t.bdie d).ueAddr 35 0 = bits (s.bdie d).ueAddr 35 0 ∧ KeepsMemory s t) ∧
    (∀ d v, d < 4 → s.power.stewardOn = true → ∃ t, exec (.registerWrite .captain (.numCfg d) v) s = .next t ∧
      t.numCfg d = setBits v 63 12 0 ∧ (∀ e, e ≠ d → t.numCfg e = s.numCfg e) ∧ KeepsMemory s t) ∧
    (∀ r v, r = .ftlStat ∨ r = .fabStat ∨ r = .twinStat ∨ r = .govStat ∨ r = .enStat ∨ r = .bootStat ∨ r = .ftlCfg ∨
      (∃ d, r = .memStat d) ∨ (∃ p, r = .kvStat p ∨ r = .expStat p ∨ r = .expLa p ∨ r = .specStat p ∨ r = .schedStat p ∨ r = .linkStat p) →
      exec (.registerWrite .captain r v) s = .next s) ∧
    (∀ w c off v, reaches s w (.spad c off) = true → off < 768 * 4096 → mwf 0 (s.core c).spad = true →
      ∃ t, exec (.registerWrite w (.spad c off) v) s = .next t ∧ SpadExcept s t c [(off / 8 * 8, 8)] ∧
        (∀ i, i < 8 → spadByte t c (off / 8 * 8 + i) = BitVec.ofNat 8 (bits v (8 * i + 7) (8 * i))) ∧ (∀ k, t.slot c k = s.slot c k) ∧
        (∀ e, e ≠ c → t.core e = s.core e) ∧ t = { s with cores := t.cores }) ∧
    (∀ w c off v, reaches s w (.acc c off) = true → off < 0x40000 → mwf 0 (s.core c).acc = true →
      ∃ t, exec (.registerWrite w (.acc c off) v) s = .next t ∧ AccExcept s t c [(off / 8 * 2, 2)] ∧
        accWord t c (off / 8 * 2) = BitVec.ofNat 32 (bits v 31 0) ∧ accWord t c (off / 8 * 2 + 1) = BitVec.ofNat 32 (bits v 63 32) ∧
        (∀ k, t.slot c k = s.slot c k) ∧ (∀ e, e ≠ c → t.core e = s.core e) ∧ t = { s with cores := t.cores }) ∧
    (∀ f row d p off v, d < 12 → p < 16 → off < 0x4000 → s.power.besideOn = true → (s.ring d p).owner.toNat = 16 * f + row →
      ∃ t, exec (.registerWrite (.starter f row) (.ringEntry d p off) v) s = .next t ∧
        t.ring d p = { s.ring d p with sram := mwrite 0 (s.ring d p).sram (off / 8 * 8) (leBytes 8 v.toNat) } ∧
        (∀ q, q ≠ p → t.ring d q = s.ring d q) ∧ (∀ e, e ≠ d → t.bdie e = s.bdie e) ∧ KeepsMemory s t) ∧
    ∀ w r v, reaches s w r = false → exec (.registerWrite w r v) s = .next s

/-- While the oscillator runs, a read by a master that reaches the register leaves the package as its value at that moment, as the last output; the read-clear counters of that register then read zero (BSD_MEM_STAT, the partition statistics, the fabric, link, twin, governor and energy counters), and every core, every byte of memory, every partition's state and the AON counter are unchanged. A read through the debug port of a register outside DBG_ changes nothing but the output; a read by a master that does not reach the register returns zero and changes nothing else. -/
def Obligations.ReadsReturnTheValueAndClearCounters : Prop :=
  ∀ s : State, s.entry.oscDead = false →
    (∀ w r, reaches s w r = true → ∃ t, exec (.rcRegisterRead w r) s = .next t ∧ t.out = s.out ++ [.regRead (regValue s r)] ∧
      t.cores = s.cores ∧ KeepsMemory s t ∧ t.aon = s.aon ∧ t.pending = s.pending ∧ (∀ p, (t.part p).state = (s.part p).state)) ∧
    (∀ d, d < 12 → s.power.besideOn = true → ∃ t, exec (.rcRegisterRead .captain (.memStat d)) s = .next t ∧
      (t.bdie d).ceCount = 0 ∧ (t.bdie d).ueCount = 0 ∧ (t.bdie d).ueAddr = (s.bdie d).ueAddr) ∧
    (s.power.stewardOn = true → (∀ p, ∃ t, exec (.rcRegisterRead .captain (.kvStat p)) s = .next t ∧
        (t.part p).stats.kvDrops = 0 ∧ (t.part p).stats.recomp = 0 ∧ (t.part p).stats.drops = (s.part p).stats.drops) ∧
      (∀ p, ∃ t, exec (.rcRegisterRead .captain (.expStat p)) s = .next t ∧
        (t.part p).stats.drops = 0 ∧ (t.part p).stats.staleReturn = 0 ∧ (t.part p).stats.staleDisp = 0 ∧ (t.part p).stats.exits = 0) ∧
      (∀ p, ∃ t, exec (.rcRegisterRead .captain (.schedStat p)) s = .next t ∧
        (t.part p).stats.swaps = 0 ∧ (t.part p).stats.evictAbort = 0 ∧ (t.part p).stats.schedStall = 0) ∧
      (∀ l, ∃ t, exec (.rcRegisterRead .captain (.linkStat l)) s = .next t ∧
        (t.link l).replays = 0 ∧ (t.link l).fecUncorr = 0 ∧ (t.link l).downs = 0 ∧ (t.link l).state = (s.link l).state) ∧
      (∃ t, exec (.rcRegisterRead .captain .twinStat) s = .next t ∧ t.twin.failovers = 0 ∧ t.twin.lsChecks = 0 ∧ t.twin.lsMismatch = 0 ∧
        t.twin.lsUnchecked = 0 ∧ t.twin.state = s.twin.state) ∧
      (∃ t, exec (.rcRegisterRead .captain .enStat) s = .next t ∧ t.energy.blocksSigned = 0 ∧ t.energy.flushFail = 0 ∧
        t.energy.inputUj = s.energy.inputUj)) ∧
    (∀ r, reaches s .debugPort r = true → (∀ f o n, r ≠ .bar0 f o n) → (∀ o, r ≠ .dbg o) →
      exec (.rcRegisterRead .debugPort r) s = .next { s with out := s.out ++ [.regRead (regValue s r)] }) ∧
    ∀ w r, reaches s w r = false → exec (.rcRegisterRead w r) s = .next { s with out := s.out ++ [.regRead 0] }

/-- On a powered Beside die, a TAIL write by the OWNER starter of an enabled ring stores TAIL and sets an IDLE ring RUNNING exactly when TAIL differs from HEAD; one by any other starter, or to a ring not enabled, changes nothing. CLEAR by the OWNER makes a STOPPED ring IDLE with HEAD = TAIL, and changes nothing of a ring that is not STOPPED. A map entry is stored with its reserved bits zero while the partition has no bound slot and its rings are IDLE and the captain does not refuse it, and is left as it was otherwise; no other entry and no byte of memory changes. -/
def Obligations.BesideRingsTakeTailAndClear : Prop :=
  ∀ (s : State) (d p : Nat), d < 12 → p < 16 → s.power.besideOn = true →
    (∀ st tail, (s.ring d p).en = true → (s.ring d p).owner.toNat = st → ∃ t, exec (.bsdRingTailWrite d p st tail) s = .next t ∧
      t.ring d p = { s.ring d p with
        tail := BitVec.ofNat 8 tail
        state := if (s.ring d p).state = .idle ∧ BitVec.ofNat 8 tail ≠ (s.ring d p).head then .running else (s.ring d p).state } ∧
      (∀ q, q ≠ p → t.ring d q = s.ring d q) ∧ (∀ e, e ≠ d → t.bdie e = s.bdie e) ∧ KeepsMemory s t ∧ t = { s with beside := t.beside }) ∧
    (∀ st tail, (s.ring d p).en = false ∨ (s.ring d p).owner.toNat ≠ st → exec (.bsdRingTailWrite d p st tail) s = .next s) ∧
    ((s.ring d p).state = .stopped → ∃ t, exec (.bsdRingClear d p (s.ring d p).owner.toNat) s = .next t ∧
      t.ring d p = { s.ring d p with state := .idle, head := (s.ring d p).tail } ∧
      (∀ q, q ≠ p → t.ring d q = s.ring d q) ∧ (∀ e, e ≠ d → t.bdie e = s.bdie e) ∧ KeepsMemory s t ∧ t = { s with beside := t.beside }) ∧
    ((s.ring d p).state ≠ .stopped → ∀ st, exec (.bsdRingClear d p st) s = .next s) ∧
    (∀ v, mapWritable s p = true → mapRefused s d p v = false → ∃ t, exec (.bsdPartMapWrite d p v) s = .next t ∧
      mapWord t p d = mkWord [(0, bits v 1 0), (16, bits v 30 16), (32, bits v 46 32)] ∧
      (∀ q e, q ≠ p ∨ e ≠ d → mapWord t q e = mapWord s q e) ∧ KeepsMemory s t ∧ t = { s with beside := t.beside }) ∧
    ∀ v, mapWritable s p = false ∨ mapRefused s d p v = true → exec (.bsdPartMapWrite d p v) s = .next s

/-- For the entry at the HEAD of a RUNNING ring that may start: BNOP, and a BMV with M = 0 or N = 0, only advance HEAD. A BMV with work that no check of R194 refuses, with no poison anywhere, correctable errors only, no line of its operands modified at the twin and no output line held there, writes for every row and output group the bytes R184 gives, when rows do not overlap, and no other byte of any stack, scratchpad or accumulator; HEAD advances and no poison is noted. A BATTN with queries and no appends writes each query row's bytes (where no later write of the command covers them) and its result record. An entry that fails a check stops the ring with a FAULT record in the OWNER's queue where there is room, and changes no memory. A started entry with its effect whole leaves the ring when it completes; its MARK record enters the OWNER's queue, and its hurdle counts one more. -/
def Obligations.BesideCommandsRun : Prop :=
  ∀ (s : State) (d p : Nat) (b : List Byte) (errs : List EccErr), Correctable errs →
    (ringHead s d p = some b →
      (bcOpc b = 3 → ∃ t, exec (.bnop d p) s = .next t ∧ t.ring d p = { s.ring d p with
        head := (s.ring d p).head + 1, started := (s.ring d p).started ++ [⟨(s.ring d p).head.toNat, b, false, []⟩] } ∧
        KeepsMemory s t ∧ t = { s with beside := t.beside }) ∧
      (bcOpc b = 1 → bmCauses s d p b = [] → bmWork b = false → ∃ t, exec (.bmv d p errs) s = .next t ∧ t.ring d p = { s.ring d p with
        head := (s.ring d p).head + 1, started := (s.ring d p).started ++ [⟨(s.ring d p).head.toNat, b, false, []⟩] } ∧
        KeepsMemory s t ∧ t = { s with beside := t.beside }) ∧
      (bcOpc b = 1 → bmCauses s d p b = [] → bmWork b = true → (∀ e l, tget false (s.bdie e).poison l = false) →
        heldLines s p (bmWeightRanges b (bmWidths s p b) ++ bmActRanges b ++ bmBiasRange b) false = [] →
        (∀ r ∈ bmDstRanges b, ∀ l ∈ linesOf (physOff s p r.1) r.2, lineHeld s (naStack r.1) l = false) →
        ∃ t, exec (.bmv d p errs) s = .next t ∧ (t.ring d p).head = (s.ring d p).head + 1 ∧
          (t.ring d p).started = (s.ring d p).started ++ [⟨(s.ring d p).head.toNat, b, false, []⟩] ∧ t.cores = s.cores ∧
          StackExcept s t ((bmDstRanges b).map fun r => (naStack r.1, physOff s p r.1, r.2)) ∧
          (bmM b ≤ 1 ∨ bmOutBytes b ≤ bmDs b → ∀ m g i, m < bmM b → g < bmOutGroups b → i < 64 * outBytes (bmOfmt b) →
            nearByte t (naStack (bmDst b + m * bmDs b)) (physOff s p (bmDst b + m * bmDs b) + g * (64 * outBytes (bmOfmt b)) + i) =
              ((bmOut s p b (bmWidths s p b) g m)[i]?).getD 0)) ∧
      (bcOpc b = 1 → bmCauses s d p b ≠ [] → ringRoom s d p 1 = true → ∃ t f, exec (.bmv d p errs) s = .next t ∧ f ∈ bmCauses s d p b ∧
        t.ring d p = { s.ring d p with state := .stopped } ∧ (t.starter (s.ring d p).owner.toNat).queue =
          (s.starter (s.ring d p).owner.toNat).queue ++ [ringRecord s kFAULT (s.ring d p).head.toNat f b] ∧ KeepsMemory s t) ∧
      (bcOpc b = 2 → baBad b = false → nearOk s p (baBlock b) 128 = true → ∀ a, a = baRead s p b → baCauses s d p b a = [] → 0 < abNq a →
        abNa a = 0 → (∀ e l, tget false (s.bdie e).poison l = false) → heldLines s p (baReads s p b a) false = [] →
        (∀ r ∈ baWrites a, ∀ l ∈ linesOf (physOff s p r.1) r.2, lineHeld s (naStack r.1) l = false) →
        ∃ t, exec (.battn d p errs) s = .next t ∧ (t.ring d p).head = (s.ring d p).head + 1 ∧
          (t.ring d p).started = (s.ring d p).started ++ [⟨(s.ring d p).head.toNat, b, false, []⟩] ∧ t.cores = s.cores ∧
          StackExcept s t ((baWrites a).map fun r => (naStack r.1, physOff s p r.1, r.2)) ∧
          ∀ rows, rows = attendAll a (baList s p a) (queryNum a (nearRd s p)) ((baList s p a).map fun x => pageRd s p (dAddr x)) →
            (∀ i, i < 64 → nearByte t (naStack (abRes a)) (physOff s p (abRes a) + i) = ((attnRecord a (baList s p a) rows)[i]?).getD 0) ∧
            ∀ r i, r < abRows a → i < abD a * outBytes (abOfmt a) →
              (∀ q ∈ (baWrites a).drop (r + 1), naStack q.1 ≠ naStack (abOut a + r * abOs a) ∨
                physOff s p (abOut a + r * abOs a) + i < physOff s p q.1 ∨ physOff s p q.1 + q.2 ≤ physOff s p (abOut a + r * abOs a) + i) →
              nearByte t (naStack (abOut a + r * abOs a)) (physOff s p (abOut a + r * abOs a) + i) =
                ((nth ([], false, false, 0) rows r).1[i]?).getD 0) ∧
      (bcOpc b = 2 → baBad b = true → ringRoom s d p 1 = true → ∃ t, exec (.battn d p errs) s = .next t ∧
        t.ring d p = { s.ring d p with state := .stopped } ∧ KeepsMemory s t)) ∧
    (∀ index c h, (s.ring d p).started.find? (·.index == index) = some c → besideRuns s d p = true → c.lines = [] → c.poisoned = false →
      ringRoom s d p (b2n (bcFlag c.words 6)) = true → h = nbits (bcSig c.words) 18 13 →
      ∃ t, exec (.besideCommandComplete d p index) s = .next t ∧ (t.ring d p).started = (s.ring d p).started.filter (·.index != index) ∧
        KeepsMemory s t ∧
        (bcFlag c.words 5 = true → ∀ core k, core = nbits (bcSig c.words) 10 0 → k = nbits (bcSig c.words) 12 11 → s.coreOk core = true →
          s.power.fieldOn = true → (s.slot core k).state ≠ .unbound → h < (s.slot core k).hcount →
          hCount ((s.core core).hur ((s.slot core k).hbase + h)) + 1 ≤ 65535 →
          hCount ((t.core core).hur ((s.slot core k).hbase + h)) = hCount ((s.core core).hur ((s.slot core k).hbase + h)) + 1) ∧
        (bcFlag c.words 5 = false → bcFlag c.words 6 = true → (t.starter (s.ring d p).owner.toNat).queue =
          (s.starter (s.ring d p).owner.toNat).queue ++ [ringRecord s kMARK index 0 c.words]))

/-- On a powered Beside die out of self-refresh with SCRUB_H not 0, SCRUB moves to the next line, changes no byte of memory and no other die; a correctable error at its line raises CE_COUNT by one and poisons nothing; an uncorrectable one at a line not yet poisoned poisons that line, raises UE_COUNT by one and records the line's offset in BSD_UE_ADDR; a line already poisoned changes no error register. A poisoned line the twin does not hold is rewritten whole and no longer poisoned, from the second copy where no partition maps it, from the twin while PAIRED, or from the far-tier copy for a line no KV page covers. -/
def Obligations.DramLinesAreScrubbedAndRewritten : Prop :=
  ∀ (s : State) (d : Nat), d < 12 → s.power.besideOn = true →
    (s.scrubH d ≠ 0 → s.power.state ≠ .rest → s.power.state ≠ .dormant → ∀ errs, ∃ t, exec (.scrub d errs) s = .next t ∧
      (t.bdie d).scrubPos = ((s.bdie d).scrubPos + 1) % 2 ^ 30 ∧ KeepsMemory s t ∧ (∀ e, e ≠ d → t.bdie e = s.bdie e) ∧ t.cores = s.cores ∧
      (tget false (s.bdie d).poison (s.bdie d).scrubPos = true → (t.bdie d).ceCount = (s.bdie d).ceCount ∧
        (t.bdie d).ueCount = (s.bdie d).ueCount ∧ (t.bdie d).ueAddr = (s.bdie d).ueAddr ∧ (t.bdie d).poison = (s.bdie d).poison) ∧
      (∀ e, tget false (s.bdie d).poison (s.bdie d).scrubPos = false →
        errs.find? (fun e => e.stack == d && e.line == (s.bdie d).scrubPos) = some e →
        (e.correctable = true → (t.bdie d).ceCount = (s.bdie d).ceCount + 1 ∧ (t.bdie d).ueCount = (s.bdie d).ueCount ∧
          (t.bdie d).poison = (s.bdie d).poison) ∧
        (e.correctable = false → (t.bdie d).ceCount = (s.bdie d).ceCount ∧ (t.bdie d).ueCount = (s.bdie d).ueCount + 1 ∧
          (t.bdie d).ueAddr = mkWord [(0, (s.bdie d).scrubPos * 64), (36, 1)] ∧
          ∀ l, tget false (t.bdie d).poison l = (l == (s.bdie d).scrubPos || tget false (s.bdie d).poison l)))) ∧
    (∀ line l src, tget false (s.bdie d).poison line = true → lineHeld s d line = false → l.length = 64 →
      (src = .secondCopy l ∧ lineOwner s d line = none ∨
        (∃ p na, src = .twin l ∧ lineOwner s d line = some (p, na) ∧ s.twin.state = .paired) ∨
        (∃ p na, src = .farTier ∧ lineOwner s d line = some (p, na) ∧ pageOwner s p na = none ∧ copyLine s p na = some l)) →
      ∃ t, exec (.poisonRewrite d line src) s = .next t ∧ tget false (t.bdie d).poison line = false ∧
        (∀ j, j ≠ line → tget false (t.bdie d).poison j = tget false (s.bdie d).poison j) ∧
        (∀ i, i < 64 → nearByte t d (line * 64 + i) = (l[i]?).getD 0) ∧ StackExcept s t [(d, line * 64, 64)] ∧ t.cores = s.cores)

/-- With each object listed once: on a grade with CXL and the port powered, an enumeration of at most four devices leaves the device table it gives, which uses 4,096 GiB at most in all, and the table's sequence one higher modulo 2^32; the loss of a device in use leaves it link down. Either way every object with an extent on a device that was in use and no longer is becomes DAMAGED, and every other object, and every byte of near memory and of a core, is as before. -/
def Obligations.FarPortListsItsDevices : Prop :=
  (∀ l, (farTable l 4096).foldl (fun a d => a + d.usedGib) 0 ≤ 4096) ∧
  ∀ s : State, Keyed s.far.objs →
    (∀ found, s.hasCxl = true → s.power.portOn = true → found.length ≤ 4 →
      ∃ t, exec (.farPortEnumerate found) s = .next t ∧ t.far.devs = farTable found 4096 ∧ t.far.farSeq = (s.far.farSeq + 1) % 2 ^ 32 ∧
        (∀ id i d, (s.obj id).present = true → (s.obj id).tier = 1 → nth 0 (s.obj id).devices i ≠ 0 → s.far.devs[i]? = some d → d.state = 1 →
          ((farTable found 4096)[i]?.map (·.state)) ≠ some 1 → (t.obj id).state = .damaged) ∧
        (∀ id, (s.obj id).tier ≠ 1 → t.obj id = s.obj id) ∧ (∀ id, (t.obj id).data = (s.obj id).data) ∧
        t.cores = s.cores ∧ t.beside = s.beside) ∧
    (∀ i d, s.far.devs[i]? = some d → d.state = 1 →
      ∃ t, exec (.cxlDeviceLoss i) s = .next t ∧ t.far.devs[i]? = some ⟨3, 0, 0, 0⟩ ∧ (∀ j, j ≠ i → t.far.devs[j]? = s.far.devs[j]?) ∧
        (∀ id, (s.obj id).present = true → (s.obj id).tier = 1 → nth 0 (s.obj id).devices i ≠ 0 → (t.obj id).state = .damaged) ∧
        (∀ id, (s.obj id).tier ≠ 1 ∨ nth 0 (s.obj id).devices i = 0 → t.obj id = s.obj id) ∧ t.cores = s.cores ∧ t.beside = s.beside)

/-- Where a mapped block can move to an erased one (and, for a relocation, has been read since its erase), the move maps the target with no page reads, leaves the old block erased with one program/erase cycle more, changes no other block and no object; RELOC counts relocations alone; READ_ONLY, once set, stays set. A sealed object whose deadline has passed is freed, its extents released to its partition, when no read of it is in progress, and becomes EXPIRING when one is; an EXPIRING object with no read left is freed. Every other object is as before. -/
def Obligations.NandBlocksMoveAndObjectsExpire : Prop :=
  ∀ s : State,
    (∀ b c, canMove s b c = true →
      (0 < (s.block b).reads → ∃ t, exec (.ftlRelocate b c) s = .next t ∧ t.far.reloc = s.far.reloc + 1 ∧
        (t.block c).mapped = true ∧ (t.block c).reads = 0 ∧ (t.block b).mapped = false ∧ (t.block b).reads = 0 ∧ (t.block b).pe = (s.block b).pe + 1 ∧
        (∀ j, j ≠ b → j ≠ c → t.block j = s.block j) ∧ t.far.objs = s.far.objs ∧ (s.far.readOnly = true → t.far.readOnly = true) ∧
        t = { s with far := t.far }) ∧
      (∃ t, exec (.ftlRefresh b c) s = .next t ∧ t.far.reloc = s.far.reloc ∧
        (t.block c).mapped = true ∧ (t.block c).reads = 0 ∧ (t.block c).writtenAt = s.aon ∧ (t.block b).mapped = false ∧
        (t.block b).pe = (s.block b).pe + 1 ∧ (∀ j, j ≠ b → j ≠ c → t.block j = s.block j) ∧ t.far.objs = s.far.objs ∧
        (s.far.readOnly = true → t.far.readOnly = true) ∧ t = { s with far := t.far })) ∧
    (∀ id, (s.obj id).present = true → (s.obj id).state = .sealedObj → (s.obj id).ttl ≠ 0 → (s.obj id).deadline ≤ s.aon →
      ((s.obj id).readers = 0 → ∃ t, exec (.objectTtlExpiry id) s = .next t ∧ (t.obj id).present = false ∧
        partExtents (t.part (s.obj id).part) (s.obj id).tier = partExtents (s.part (s.obj id).part) (s.obj id).tier - extents (s.obj id).size ∧
        (∀ j, j ≠ id → t.obj j = s.obj j) ∧ KeepsMemory s t) ∧
      ((s.obj id).readers ≠ 0 → ∃ t, exec (.objectTtlExpiry id) s = .next t ∧
        t.obj id = { s.obj id with state := .expiring, afterDelete := false } ∧ (∀ j, j ≠ id → t.obj j = s.obj j) ∧ KeepsMemory s t)) ∧
    (∀ id, (s.obj id).present = true → (s.obj id).state = .expiring → (s.obj id).readers = 0 → ∃ t, exec (.objectReadEnd id) s = .next t ∧
      (t.obj id).present = false ∧ (∀ j, j ≠ id → t.obj j = s.obj j) ∧ KeepsMemory s t ∧
      partExtents (t.part (s.obj id).part) (s.obj id).tier = partExtents (s.part (s.obj id).part) (s.obj id).tier - extents (s.obj id).size)

/-- Bytes written through an enabled aperture of a partition's function into the near part of an image of a loading generation, whose lines the twin does not hold, stand at their place in the stack, and no other byte of any stack or core changes; into its far part they stand in the image's object. Through an aperture that is not enabled they are dropped and counted in LOAD_DROP, and nothing else changes. A chunk fully written and not yet hashed gains its SHA-256 digest when the hash engine finishes it, and nothing else of the machine changes. A relayed chunk of a LOADING generation from a package that is not fenced is acknowledged to its sender, and stands in near memory; an acknowledgement is noted once for its target. -/
def Obligations.WeightBytesArriveAndAreHashed : Prop :=
  ∀ s : State,
    (∀ fn ap x data p g w image off, (s.fn fn).enabled = true → ap < 4 → x + data.length ≤ 2 ^ Nat.log2 s.mbx.bar2 / 4 → s.power.portOn = true →
      w = tget 0 (s.fn fn).ap ap → bit w 0 = true → fnPart s fn = some p → (s.part p).genRef? (bits w 23 8) = some g → image = bits w 4 1 →
      image ≤ 12 → g.isLoading = true → off = bits w 55 24 * (2 ^ Nat.log2 s.mbx.bar2 / 4) + x → off + data.length ≤ g.len image →
      (off + data.length ≤ g.nearLen (s.part p) image →
        (∀ l ∈ linesOf (physOff s p (g.near image off)) data.length, lineHeld s (naStack (g.near image off)) l = false) →
        ∃ t, exec (.loadWindowWrite fn ap x data) s = .next t ∧
          (∀ i, i < data.length → nearByte t (naStack (g.near image off)) (physOff s p (g.near image off) + i) = (data[i]?).getD 0) ∧
          StackExcept s t [(naStack (g.near image off), physOff s p (g.near image off), data.length)] ∧ t.cores = s.cores ∧
          (t.fn fn).loadDrop = (s.fn fn).loadDrop) ∧
      (g.nearLen (s.part p) image ≤ off → ∃ t, exec (.loadWindowWrite fn ap x data) s = .next t ∧
        (∀ i, i < data.length → objByte t (tget 0 g.objs image) (off - g.nearLen (s.part p) image + i) = (data[i]?).getD 0) ∧ KeepsMemory s t)) ∧
    (∀ fn ap x data, (s.fn fn).enabled = true → ap < 4 → x + data.length ≤ 2 ^ Nat.log2 s.mbx.bar2 / 4 → s.power.portOn = true →
      bit (tget 0 (s.fn fn).ap ap) 0 = false → exec (.loadWindowWrite fn ap x data) s =
        .next (s.setFn fn { s.fn fn with loadDrop := (s.fn fn).loadDrop + data.length })) ∧
    (∀ p ref i c g, Settled s → (s.part p).genRef? ref = some g → g.isLoading = true → g.chunks.contains (i, c) = true → g.full i c = true →
      (∀ h ∈ g.hashed, h.1 ≠ Gen.key i c) → ∀ d, d = sha256 (genRead s p g i (c * chunkSize) (chunkLen (g.len i) c)) →
        exec (.chunkHashed p ref i c) s = .next (modGen s p g fun y => { y with hashed := tput y.hashed (Gen.key i c) d })) ∧
    (∀ src p gen i c data g, (s.part p).gens.find? (fun g => g.number == gen && g.isLoading) = some g → g.chunks.contains (i, c) = true →
      data.length = chunkLen (g.len i) c → takesFrom s src = true → s.entry.oscDead = false →
      c * chunkSize + data.length ≤ g.nearLen (s.part p) i →
      (∀ l ∈ linesOf (physOff s p (g.near i (c * chunkSize))) data.length, lineHeld s (naStack (g.near i (c * chunkSize))) l = false) →
      ∃ t, exec (.relayChunk src p gen i c data) s = .next t ∧ Tells t (.node src) (.relayAck p gen i c) ∧ t.cores = s.cores ∧
        (∀ j, j < data.length → nearByte t (naStack (g.near i (c * chunkSize))) (physOff s p (g.near i (c * chunkSize)) + j) = (data[j]?).getD 0) ∧
        StackExcept s t [(naStack (g.near i (c * chunkSize)), physOff s p (g.near i (c * chunkSize)), data.length)]) ∧
    ∀ n p gen i c r, (s.part p).relay = some r → r.gen = gen → takesFrom s n = true → ∃ t, exec (.relayChunkAck n p gen i c) s = .next t ∧
      (t.part p).relay = some { r with targets := r.targets.map fun x =>
        if x.1 == n && !(x.2.contains (Gen.key i c)) then (x.1, x.2 ++ [Gen.key i c]) else x } ∧
      (∀ q, q ≠ p → t.part q = s.part q) ∧ t = { s with parts := t.parts }

/-- While the oscillator runs: GEN_PREPARE from a package not fenced is answered with a vote, yes exactly when the generation is held SEALED, and changes nothing else but the send count. A vote from a package waited for ends the activation and decides CUTOVER_ABORTED when it is no, leaves the others waited for when it is yes, and the last yes ends it and tells every package of the partition's jobs to commit. A vote missing after half of CUT_TO_MS ends it. GEN_COMMIT makes the SEALED generation LIVE, and a former LIVE one with requests still bound DRAINING. Once its copies are usable a reloading generation is no longer reloading, and no other partition changes. -/
def Obligations.ActivationCommitsOnEveryYes : Prop :=
  ∀ s : State, s.entry.oscDead = false →
    (∀ src p model gen, takesFrom s src = true → exec (.genPrepare src p model gen) s = .next (s.send (.node src) (.genVote p model gen
      (match (s.part p).gen? model gen with
        | some g => g.state == .sealedGen
        | none => false)))) ∧
    (∀ src p a, (s.part p).act = some a → a.waiting.contains src = true →
      (∃ t, exec (.genVote src p a.model a.gen false) s = .next t ∧ (t.part p).act = none ∧ (t.part p).gens = (s.part p).gens ∧
        t = decide_ (s.setPart p { s.part p with act := none }) a.path a.tag stCUTOVER_ABORTED) ∧
      (a.waiting.filter (· != src) ≠ [] → exec (.genVote src p a.model a.gen true) s =
        .next (s.setPart p { s.part p with act := some { a with waiting := a.waiting.filter (· != src) } })) ∧
      (a.waiting.filter (· != src) = [] → ∃ t, exec (.genVote src p a.model a.gen true) s = .next t ∧ (t.part p).act = none ∧
        (t.part p).gens = (s.part p).gens ∧ ∀ n ∈ partNodes s p, Tells t (.node n) (.genCommit p a.model a.gen))) ∧
    (∀ p a, (s.part p).act = some a → a.startedAt + msAon (s.cfg 0x0302) / 2 ≤ s.aon → ∃ t, exec (.activateVoteTimeout p a.model) s = .next t ∧
      (t.part p).act = none ∧ (t.part p).gens = (s.part p).gens ∧ t = decide_ (s.setPart p { s.part p with act := none }) a.path a.tag stCUTOVER_ABORTED) ∧
    (∀ p model gen g, (s.part p).gen? model gen = some g → g.state = .sealedGen → (∀ o, (s.part p).live? model = some o → o.number ≠ gen) →
      ∃ t, exec (.genCommit p model gen) s = .next t ∧ (t.part p).gen? model gen = some { g with state := .live } ∧
        ∀ o, (s.part p).live? model = some o → o.bound ≠ 0 → (s.part p).gen? model o.number = some o →
          (t.part p).gen? model o.number = some { o with state := .draining } ∧ t = { s with parts := t.parts }) ∧
    ∀ p model gen g, (s.part p).gen? model gen = some g → g.reloading = true → s.power.besideOn = true →
      (∀ e ∈ g.copies, (s.obj e.2).present = true ∧ (s.obj e.2).state ≠ .damaged) →
      ∃ t, exec (.genReloadDone p model gen) s = .next t ∧ (t.part p).gen? model gen = some { g with reloading := false } ∧
        (∀ q, q ≠ p → t.part q = s.part q) ∧ t.cores = s.cores ∧ t.far = s.far

/-- While the oscillator runs, for a partition and a model: PREPARE from a package not fenced is answered with this package's lowest unstarted lap, yes exactly when it holds the generation STAGED and takes part in no other cut-over, and then its vote is noted. At the coordinator a no, or half of CUT_TO_MS without every vote, ends the cut-over and tells every package to abort; the last yes fixes L as the largest vote plus CUT_MARGIN and tells every package to commit at L. COMMIT is taken once and sent on; ABORT before L is known, or CUT_TO_MS after the vote, ends the wait. The copy begins once no lap below L is in flight, and when it is complete the generation of R244 is LIVE and the cut-over ended. -/
def Obligations.CutOverFollowsItsProtocol : Prop :=
  ∀ (s : State) (p : Nat), s.entry.oscDead = false → p ≠ rolePart →
    (∀ src model gen images g, takesFrom s src = true → (s.part p).gen? model gen = some g → g.state = .staged → (s.part p).cut = none →
      ∃ t, exec (.cutPrepare src p model gen images) s = .next t ∧ Tells t (.node src) (.cutVote p model (lowestLap s p model) true) ∧
        (t.part p).cut = some ⟨model, gen, images, false, [], 0, s.aon, lowestLap s p model, s.aon, none, false, false, 0, 0⟩ ∧
        (t.part p).gens = (s.part p).gens) ∧
    (∀ src model gen images, takesFrom s src = true → (∀ g, (s.part p).gen? model gen = some g → g.state ≠ .staged) →
      exec (.cutPrepare src p model gen images) s = .next (s.send (.node src) (.cutVote p model (lowestLap s p model) false))) ∧
    (∀ c, (s.part p).cut = some c →
      (c.coordinator = true → c.cutLap = none → ∀ src n, c.waiting.contains src = true →
        (∃ t, exec (.cutVote src p c.model n false) s = .next t ∧ (t.part p).cut = none ∧
          ∀ k ∈ partNodes s p, Tells t (.node k) (.cutAbort p c.model)) ∧
        (c.waiting.filter (· != src) = [] → ∃ t, exec (.cutVote src p c.model n true) s = .next t ∧
          (t.part p).cut = some { c with waiting := [], largest := max c.largest n, cutLap := some (max c.largest n + s.cfg 0x0301) } ∧
          ∀ k ∈ partNodes s p, Tells t (.node k) (.cutCommit p c.model (max c.largest n + s.cfg 0x0301))) ∧
        (c.waiting.filter (· != src) ≠ [] → exec (.cutVote src p c.model n true) s = .next (s.setPart p { s.part p with
          cut := some { c with waiting := c.waiting.filter (· != src), largest := max c.largest n } }))) ∧
      (c.coordinator = true → c.cutLap = none → c.startedAt + msAon (s.cfg 0x0302) / 2 ≤ s.aon → ∃ t, exec (.cutVoteTimeout p c.model) s = .next t ∧
        (t.part p).cut = none ∧ ∀ k ∈ partNodes s p, Tells t (.node k) (.cutAbort p c.model)) ∧
      (c.forwarded = false → ∀ l, ∃ t, exec (.cutCommit p c.model l) s = .next t ∧
        (t.part p).cut = some { c with cutLap := some l, forwarded := true } ∧ ∀ k ∈ partNodes s p, Tells t (.node k) (.cutCommit p c.model l)) ∧
      (c.forwarded = true → ∀ l, exec (.cutCommit p c.model l) s = .next s) ∧
      (c.cutLap = none → ∃ t, exec (.cutAbort p c.model) s = .next t ∧ (t.part p).cut = none ∧ (t.part p).gens = (s.part p).gens) ∧
      (c.cutLap = none → c.votedAt + msAon (s.cfg 0x0302) ≤ s.aon → ∃ t, exec (.cutTimeout p c.model) s = .next t ∧ (t.part p).cut = none ∧
        (t.part p).gens = (s.part p).gens) ∧
      (∀ l new old errs, c.cutLap = some l → c.copying = false → (s.part p).gen? c.model c.gen = some new → (s.part p).live? c.model = some old →
        (∀ h ∈ s.srv.heats, h.2.live = true → h.2.lapActive = true → h.2.desc.ctx ∈ modelCtxs s p c.model → l ≤ h.2.desc.lap) →
        ∃ t, exec (.cutoverCopy p c.model errs) s = .next t ∧ (t.part p).cut = some { c with copying := true } ∧
          (t.part p).gens = (s.part p).gens ∧ t.cores = s.cores) ∧
      (∀ new old, c.copying = true → (s.part p).gen? c.model c.gen = some new → (s.part p).live? c.model = some old →
        (∀ x ∈ (s.part p).gens, x.model = c.model → x.state = .live → x.number = old.number) →
        ∃ t, exec (.cutoverCopyDone p c.model) s = .next t ∧ (t.part p).cut = none ∧
          (t.part p).live? c.model = some (cutGen new old c.images) ∧ KeepsMemory s t))

/-- When a demand waits for a stack and a victim slot exists, a fetch takes the oldest demand off the queue and leaves the victim slot FETCHING that unit, pinned by the heats that need it; no other slot of the cache changes. A fetch that completes leaves its slot READY with the same unit; a predicted fetch that fails leaves the slot EMPTY and ends no request. In a Streamed partition with a LIVE stream, the fetch of the next page marks its ring place not yet landed and is the one in progress; when it is done the page has landed there and the next page number is one higher. With no backlog overflow pending. -/
def Obligations.ColdUnitsAndStreamPagesAreFetched : Prop :=
  ∀ (s : State) (p : Nat), Settled s →
    (∀ st r i, ((s.part p).cacheReq.filter fun r => r.stack == st).find? (fun r => !r.predicted) = some r → victimSlot (s.part p) st = some i →
      ∃ t, exec (.cacheFetchStart p st) s = .next t ∧ (t.part p).cacheReq = (s.part p).cacheReq.erase r ∧
        (t.part p).cslot st i = { CSlot.reset with
          state := .fetching, layer := r.layer, unit := r.unit, predicted := false, pins := unitPins s p r.layer r.unit } ∧
        (∀ k, k ≠ cacheKey st i → tget CSlot.reset (t.part p).cache k = tget CSlot.reset (s.part p).cache k) ∧
        (∀ q, q ≠ p → t.part q = s.part q) ∧ t = { s with parts := t.parts }) ∧
    (∀ st i, i < (s.part p).cslots → ((s.part p).cslot st i).state = .fetching →
      (∃ t, exec (.cacheFetchComplete p st i true) s = .next t ∧ (t.part p).cslot st i = { (s.part p).cslot st i with state := .ready } ∧
        (∀ k, k ≠ cacheKey st i → tget CSlot.reset (t.part p).cache k = tget CSlot.reset (s.part p).cache k) ∧ t.cores = s.cores ∧
        t.srv = s.srv) ∧
      (((s.part p).cslot st i).predicted = true → coldObject s p ((s.part p).cslot st i) st = none →
        ∃ t, exec (.cacheFetchComplete p st i false) s = .next t ∧ (t.part p).cslot st i = CSlot.reset ∧ t.srv = s.srv ∧ KeepsMemory s t)) ∧
    ((s.part p).residency = 2 → (s.part p).rpages ≠ 0 → (s.part p).loading = false → (streamOf (s.part p)).isSome = true →
      ∃ t, exec (.ringPageFetch p) s = .next t ∧ (t.part p).loading = true ∧ (t.part p).nextPage = (s.part p).nextPage ∧
        tget RPage.reset (t.part p).ring ((s.part p).nextPage % (s.part p).rpages) = ⟨(s.part p).nextPage, false⟩ ∧ t = { s with parts := t.parts }) ∧
    ∀ o n, (s.part p).loading = true → streamOf (s.part p) = some (o, n) →
      ∃ t, exec (.ringPageFetchDone p (s.part p).nextPage true) s = .next t ∧ (t.part p).loading = false ∧
        (t.part p).nextPage = (s.part p).nextPage + 1 ∧
        tget RPage.reset (t.part p).ring ((s.part p).nextPage % (s.part p).rpages) = ⟨(s.part p).nextPage, true⟩ ∧ t.cores = s.cores ∧ t.srv = s.srv

/-- A HELD session whose idle time has passed becomes PARKING and PARK_ORDER goes to every package of its job. A package given the order reports at once when it holds nothing of the session; otherwise it reports with its park record kept, or without one where no room is; a line that cannot be corrected drops the session. The last report makes the session PARKED and frees its pages here, with PARKED told to every other package; a failed one returns it to HELD with the record deleted. RESUME_ORDER does nothing to a session whose map is present, reports at once with no record, reports failure for a record it cannot read, and otherwise restores the map with the record's committed length. The last report of a resume makes the session LIVE; a failed one, and a drop report, make it DROPPED with its map here freed. -/
def Obligations.SessionsParkAndResume : Prop :=
  (∀ (s : State) (i : Nat), s.entry.oscDead = false → (s.sess i).isOpen = true →
    ((s.sess i).state = .held → s.cfg 0x0402 ≠ 0 → (s.part (s.sess i).part).park ≠ 0 → (s.sess i).heldAt + msAon (s.cfg 0x0402) ≤ s.aon →
      ∃ t, exec (.parkIdleExpiry i) s = .next t ∧ (t.sess i).state = .parking ∧ (t.sess i).waiting = jobNodes s (s.sess i).ctx ∧
        (∀ n ∈ jobNodes s (s.sess i).ctx, Tells t (.node n) (.parkOrder (sessKey (s.sess i).home i))) ∧
        (∀ j, j ≠ i → t.sess j = s.sess j) ∧ KeepsMemory s t) ∧
    (∀ n, (s.sess i).state = .parking → (s.sess i).waiting.contains n = true →
      ((s.sess i).waiting.filter (· != n) = [] → ∃ t, exec (.parkReport i n true) s = .next t ∧ (t.sess i).state = .parked ∧
        (t.map (sessKey (s.sess i).home i)).present = false ∧ (t.map (sessKey (s.sess i).home i)).record = (s.map (sessKey (s.sess i).home i)).record ∧
        (∀ m ∈ jobNodes s (s.sess i).ctx, m ≠ s.fab.node → Tells t (.node m) (.parkDone (sessKey (s.sess i).home i))) ∧ KeepsMemory s t) ∧
      ((s.sess i).waiting.filter (· != n) ≠ [] → ∃ t, exec (.parkReport i n true) s = .next t ∧ (t.sess i).state = .parking ∧
        (t.sess i).waiting = (s.sess i).waiting.filter (· != n) ∧ t.srv.maps = s.srv.maps ∧ KeepsMemory s t) ∧
      (∃ t, exec (.parkReport i n false) s = .next t ∧ (t.sess i).state = .held ∧ (t.sess i).heldAt = s.aon ∧
        (t.map (sessKey (s.sess i).home i)).record = none ∧ KeepsMemory s t)) ∧
    (∀ n, (s.sess i).state = .resuming → (s.sess i).waiting.contains n = true →
      ((s.sess i).waiting.filter (· != n) = [] → ∃ t, exec (.resumeReport i n true) s = .next t ∧ (t.sess i).state = .live ∧
        (t.sess i).waiting = [] ∧ t.srv.maps = s.srv.maps ∧ KeepsMemory s t) ∧
      (∃ t, exec (.resumeReport i n false) s = .next t ∧ (t.sess i).state = .dropped ∧
        (t.map (sessKey (s.sess i).home i)).present = false ∧ KeepsMemory s t)) ∧
    (∀ n, (s.sess i).state ≠ .absent → (s.sess i).state ≠ .dropped → ∃ t, exec (.sessionDropReport i n) s = .next t ∧
      (t.sess i).state = .dropped ∧ (t.map (sessKey (s.sess i).home i)).present = false ∧ KeepsMemory s t)) ∧
  ∀ (s : State) (k : Nat), Settled s →
    ((s.map k).record = none → (s.map k).poolFrames = [] → (s.map k).lapOn = false →
      ((s.map k).present = false → ∀ errs, exec (.parkOrder k errs) s = .next (s.send (.role (keyHome k)) (.parkReport k true))) ∧
      ((s.map k).present = true → ∀ errs s1,
        (checkRanges s (s.map k).part (parkRanges s k) errs = (s1, true) → Settled s1 → s1.entry.oscDead = false →
          ∃ t, exec (.parkOrder k errs) s = .next t ∧ (t.map k).present = false ∧ Tells t (.role (keyHome k)) (.dropReport k)) ∧
        (∀ m s2, checkRanges s (s.map k).part (parkRanges s k) errs = (s1, false) → m = (if (s.part (s.map k).part).park = 2 then 2 else 1) →
          ¬(s.cfg 0x0404 = 1 ∧ m = 2) → keepRecord s1 k m (parkRecord s1 k m none) = some s2 → Settled s2 → s2.entry.oscDead = false →
          ∃ t, exec (.parkOrder k errs) s = .next t ∧ t.srv = s2.srv ∧ t.far = s2.far ∧ t.beside = s2.beside ∧ t.cores = s2.cores ∧
            Tells t (.role (keyHome k)) (.parkReport k true)))) ∧
    ((s.map k).present = true → exec (.resumeOrder k) s = .next s) ∧
    ((s.map k).present = false →
      ((s.map k).record = none → (s.map k).poolFrames = [] → exec (.resumeOrder k) s = .next (s.send (.role (keyHome k)) (.resumeReport k true))) ∧
      ((s.map k).record ≠ none ∨ (s.map k).poolFrames ≠ [] →
        (recordBytes s k = none → exec (.resumeOrder k) s = .next (s.send (.role (keyHome k)) (.resumeReport k false))) ∧
        (∀ b s1, recordBytes s k = some b → resumeMap s k b = some s1 → ∃ t, exec (.resumeOrder k) s = .next t ∧
          (t.map k).present = true ∧ (t.map k).clen = ble b 8 4 ∧ (t.map k).d = ble b 6 2 ∧ (t.map k).lists = (s1.map k).lists ∧
          t.beside = s1.beside ∧ t.cores = s.cores)))

/-- An entry of a live heat's epoch joins its layer's set: a ROW or END while the set is undecided, a RET always (one marked dropped aside), a PRED before the layer has been routed; a PRED after that counts as a miss. An END that completes a set whose counts match decides it: the assignments kept are those the capacity keeps in drop order, and the rest count as drops. An entry of a heat that is not live or of an earlier epoch is discarded and counted, STALE_RETURN for RET and STALE_DISP for the others, and no heat changes. An entry of a later epoch is held. HEAT_CANCEL with a later epoch raises the epoch to it, abandons every exchange of the heat and leaves no slot running it (stated for a heat with nothing held and no request homed here). -/
def Obligations.ExchangeEntriesFollowTheirEpoch : Prop :=
  ∀ s : State, Settled s →
    (∀ (e : XEntry) (xs : List Nat) (h : Heat) (x : XSet), h = s.heat e.heat → x = h.set e.layer →
      (h.live = true → e.epoch = h.epoch →
        (x.decided = false →
          (∃ t, exec (.dispatchRow e) s = .next t ∧ ((t.heat e.heat).set e.layer).rows = x.rows ++ [e] ∧
            (∀ l, l ≠ e.layer → (t.heat e.heat).set l = h.set l) ∧ (∀ j, j ≠ e.heat → t.heat j = s.heat j) ∧ KeepsMemory s t) ∧
          (∀ y, y = { x with ends := x.ends ++ [e] } →
            (setComplete s h y = false → ∃ t, exec (.dispatchEnd e) s = .next t ∧ (t.heat e.heat).set e.layer = y ∧
              (∀ j, j ≠ e.heat → t.heat j = s.heat j) ∧ KeepsMemory s t) ∧
            (setComplete s h y = true → countsMatch y = true → ∀ kept,
              kept = keptOf (capacity s (ctxMan s h.desc.ctx) (routingSet s h e.layer).length) x.rows →
              ∃ t, exec (.dispatchEnd e) s = .next t ∧ (t.heat e.heat).set e.layer = { y with decided := true, kept := kept } ∧
                (t.part h.desc.part).stats.drops = (s.part h.desc.part).stats.drops + (x.rows.length - kept.length) ∧
                (∀ j, j ≠ e.heat → t.heat j = s.heat j) ∧ KeepsMemory s t))) ∧
        (e.dropped = false → ∃ t, exec (.expertRet e) s = .next t ∧ (t.heat e.heat).set e.layer = { x with rets := x.rets ++ [e] } ∧
          (∀ j, j ≠ e.heat → t.heat j = s.heat j) ∧ KeepsMemory s t) ∧
        (x.decided = false → x.rows = [] → x.ends = [] → ∃ t, exec (.predEntry e xs) s = .next t ∧
          (t.heat e.heat).set e.layer = { x with preds := x.preds ++ [(e.fromNode, xs)] } ∧ (∀ j, j ≠ e.heat → t.heat j = s.heat j) ∧ KeepsMemory s t) ∧
        (x.decided = true ∨ x.rows ≠ [] ∨ x.ends ≠ [] → ∃ t, exec (.predEntry e xs) s = .next t ∧ t.srv.heats = s.srv.heats ∧
          (t.part h.desc.part).stats.laMiss = (s.part h.desc.part).stats.laMiss + 1 ∧ KeepsMemory s t)) ∧
      (h.live = false ∨ e.epoch < h.epoch →
        (∀ c, c = .dispatchRow e ∨ c = .dispatchEnd e ∨ c = .predEntry e xs → ∃ t, exec c s = .next t ∧ t.srv.heats = s.srv.heats ∧
          (t.part h.desc.part).stats.staleDisp = (s.part h.desc.part).stats.staleDisp + 1 ∧
          (t.part h.desc.part).stats.staleReturn = (s.part h.desc.part).stats.staleReturn ∧ KeepsMemory s t) ∧
        ∃ t, exec (.expertRet e) s = .next t ∧ t.srv.heats = s.srv.heats ∧
          (t.part h.desc.part).stats.staleReturn = (s.part h.desc.part).stats.staleReturn + 1 ∧
          (t.part h.desc.part).stats.staleDisp = (s.part h.desc.part).stats.staleDisp ∧ KeepsMemory s t) ∧
      (h.live = true → h.epoch < e.epoch →
        ∀ c k l, (c, k, l) ∈ [(Instr.dispatchRow e, XKind.row, []), (.dispatchEnd e, .endSet, []), (.expertRet e, .ret, []), (.predEntry e xs, .pred, xs)] →
          ∃ t, exec c s = .next t ∧ t.heat e.heat = { h with held := h.held ++ [(k, e, l)] } ∧ (∀ j, j ≠ e.heat → t.heat j = s.heat j) ∧
            KeepsMemory s t)) ∧
    (∀ id epoch, id ≠ 0 → Keyed s.cores → (s.heat id).live = true → (s.heat id).epoch < epoch → (s.heat id).held = [] →
      (∀ r ∈ (s.heat id).desc.rows, reqIdx s r.handle = none) →
      ∃ t, exec (.heatCancel id epoch) s = .next t ∧ (t.heat id).epoch = epoch ∧ (t.heat id).sets = [] ∧ (t.heat id).fetched = true ∧
        heatSlots t id = [] ∧ t.srv.ledger = s.srv.ledger ∧ KeepsMemory s t)

/-- Where the package starts laps and a heat of the kind asked for can be formed, HEAT_FORM gives it the ID made of the node and the next serial, epoch 0 and the job's next lap number, marks every request of it as in that lap, changes no other request, and sends the descriptor to every package of the first stage. A descriptor of a context of this package makes a live heat of its epoch where none of that ID is listed, and raises the job's lap number above its own. HEAT_FETCH of a heat that may start, whose rows the pool has room for, starts its lap: the heat is fetched, the context counts a lap, every slot of the context's footprint carries the heat, and each session served here has its lap in progress; no scratchpad byte changes. -/
def Obligations.LapsStartFromHeats : Prop :=
  (∀ (s s1 : State) (c : Nat) (pre : Bool) (rows : List (Nat × Nat)), s.entry.oscDead = false →
    s1 = refillAll s (dedup ((ctxReqs s c).map fun i => (s.req i).tenant)) → (s.ctx c).state ≠ .none → (s.ctx c).state ≠ .failed →
    (s.part (s.ctx c).part).state = .active → startsLaps s = true → rolesPresent s (ctxMan s c) = true → heatsInFlight s c < s.cfg 0x0702 →
    heatPick s1 c pre = some rows → ((s.ctx c).lastPrefill = pre → heatPick s1 c (!pre) = none) →
    ∀ id, id = s.fab.node * 2 ^ 24 + s.srv.heatSerial + 1 →
      ∃ t, exec (.heatForm c pre) s = .next t ∧ (t.heat id).live = true ∧ (t.heat id).mine = true ∧ (t.heat id).epoch = 0 ∧
        (t.heat id).desc.heat = id ∧ (t.heat id).desc.lap = nextLap s c ∧ (t.heat id).desc.ctx = c ∧ (t.heat id).desc.prefill = pre ∧
        (t.heat id).desc.rows.length = rows.length ∧ (t.heat id).desc.generation = boundGen s (s.req (nth (0, 0) rows 0).1) ∧
        t.srv.heatSerial = s.srv.heatSerial + 1 ∧ nextLap t c = nextLap s c + 1 ∧ (t.ctx c).lastPrefill = pre ∧
        (∀ p ∈ rows, (t.req p.1).inLap = true ∧ (t.req p.1).heat = id ∧ (t.req p.1).curLap = nextLap s c) ∧
        (∀ i, (∀ p ∈ rows, p.1 ≠ i) → t.req i = s.req i) ∧ (∀ j, j ≠ id → t.heat j = s.heat j) ∧
        (∀ n ∈ firstNodes s (ctxMan s c), Tells t (.node n) (.heatDesc (t.heat id).desc)) ∧ KeepsMemory s t) ∧
  (∀ (s : State) (d : HeatDesc), (s.ctx d.ctx).state ≠ .none → (s.ctx d.ctx).part = d.part → startsLaps s = true →
    (s.srv.heats.any (·.1 == d.heat)) = false →
    ∃ t, exec (.heatDescriptor d) s = .next t ∧
      t.heat d.heat = { Heat.reset with live := true, epoch := d.epoch, desc := d, lockstep := d.lockstep } ∧
      (∀ j, j ≠ d.heat → t.heat j = s.heat j) ∧ nextLap t d.ctx = max (nextLap s d.ctx) (d.lap + 1) ∧ t.srv.ledger = s.srv.ledger ∧ KeepsMemory s t) ∧
  ∀ (s : State) (id c : Nat) (h : Heat), Settled s → h = s.heat id → c = h.desc.ctx → fetchable s h (ctxMan s c) = true →
    (ctxMan s c).footprint ≠ [] → heatFits (noteLap s c h.desc.lap) h (ctxMan s c) h.desc.rows →
    ∃ t, exec (.heatFetch id) s = .next t ∧ (t.heat id).fetched = true ∧ (t.heat id).lapActive = true ∧ (t.heat id).ownDone = false ∧
      (t.heat id).desc = h.desc ∧ (t.ctx c).laps = (s.ctx c).laps + 1 ∧
      (∀ f ∈ (ctxMan s c).footprint, (t.slot f.1 (s.ctx c).slot).heat = id) ∧
      (∀ r ∈ h.desc.rows, servesRow s h r.handle = true → (t.map (sessKey r.home r.session)).lapOn = true ∧
        (t.map (sessKey r.home r.session)).lap = h.desc.lap) ∧ ∀ e a, spadByte t e a = spadByte s e a

/-- Proposals for a live heat's lap from a package that is not fenced are kept. A verdict for no request of this package counts as stale. A verdict of a request's current decode lap, with every LAP_DONE in hand, seals it: the tokens left by the stop set and the token limit are delivered and enter the digest, the lap is over, the request is COMPLETED exactly when the seal is final, and the outcome goes to every holder. A LAP_DONE that is not the last one is noted for its role. An outcome whose lap still runs here is kept; otherwise it advances the session's committed length by A and frees the rest. A mirrored position reads back as sent and is acknowledged; an acknowledgement lowers the count of those waiting. -/
def Obligations.SealsCommitALap : Prop :=
  (∀ (s : State) (src heat lap handle : Nat) (ts : List (Nat × Nat)) (ds : List Nat), (s.heat heat).live = true → (s.heat heat).desc.lap = lap →
    takesFrom s src = true → ∃ t, exec (.draftProposals src heat lap handle ts ds) s = .next t ∧ (handle, src, ts, ds) ∈ (t.heat heat).proposals ∧
      (∀ x ∈ (t.heat heat).proposals, x ≠ (handle, src, ts, ds) → x ∈ (s.heat heat).proposals) ∧ t.srv.ledger = s.srv.ledger ∧ KeepsMemory s t) ∧
  (∀ (s : State) (v : Verdict) (side : Nat), Settled s →
    (reqIdx s v.handle = none → ∃ t, exec (.verdict v side) s = .next t ∧ t.srv.ledger = s.srv.ledger ∧
      (t.part (s.heat v.heat).desc.part).stats.staleVerdict = (s.part (s.heat v.heat).desc.part).stats.staleVerdict + 1 ∧ KeepsMemory s t) ∧
    (∀ i r q, s.entry.oscDead = false → reqIdx s v.handle = some i → r = s.req i → r.isOpen = true → r.state = .decode → r.sealWait = none →
      r.inLap = true → r.heat = v.heat → r.curLap = v.lap → r.verdicts = [] → (s.heat v.heat).epoch ≤ v.epoch → (s.heat v.heat).lockstep = false →
      v.prefill = false → (s.sess r.sessIdx).state ≠ .recomputing →
      ((lapRoles s (s.heat v.heat) (r.handle i)).all fun x => r.lapDone.contains x) = true → q = sealStep r v false →
      ∃ t, exec (.verdict v side) s = .next t ∧ (t.req i).delivered = r.delivered + q.tokens.length ∧
        (t.req i).digest = digestTokens r.digest (boundGen s r) q.tokens ∧ (t.req i).lap = v.lap ∧ (t.req i).inLap = false ∧
        (t.req i).pending = q.tokens.getLast?.getD r.pending ∧ ((t.req i).state = .completed ↔ q.final = true) ∧
        (∃ ds, Tells t (.holders v.heat) (.outcome ⟨r.handle i, r.home, v.lap, true, q.a, q.final, q.tokens.getLast?.getD r.pending, ds⟩)) ∧
        ∀ c a, spadByte t c a = spadByte s c a)) ∧
  (∀ (s : State) (role heat lap epoch i : Nat) (row : HeatRow) (r : Req), Settled s → (s.heat heat).desc.rows = [row] →
    reqIdx s row.handle = some i → r = s.req i → r.home = row.home → r.isOpen = true → r.inLap = true → r.heat = heat → r.curLap = lap →
    r.lapDone.contains role = false →
    ((s.heat heat).epoch ≤ epoch → ((lapRoles s (s.heat heat) (r.handle i)).all fun x => (r.lapDone ++ [role]).contains x) = false →
      ∃ t, exec (.lapDone role heat lap epoch) s = .next t ∧ t.req i = { r with lapDone := r.lapDone ++ [role] } ∧
        (∀ j, j ≠ i → t.req j = s.req j) ∧ KeepsMemory s t) ∧
    (epoch < (s.heat heat).epoch → ∃ t, exec (.lapDone role heat lap epoch) s = .next t ∧ t.srv.ledger = s.srv.ledger ∧ KeepsMemory s t)) ∧
  (∀ (s : State) (o : OutcomeMsg) (id : Nat) (h : Heat) (r : HeatRow) (m : KvMap), Settled s → o.final = false ∨ s.hasRole o.home = true →
    (heatsOf s o.home o.handle).find? (fun x => x.2.1.desc.lap == o.lap) = some (id, h, r) → m = s.map (sessKey r.home r.session) →
    (h.ownDone = false → ∃ t, exec (.sealOutcome o) s = .next t ∧ t.map (sessKey r.home r.session) = { m with outcome := some o } ∧
      (∀ k, k ≠ sessKey r.home r.session → t.map k = s.map k) ∧ KeepsMemory s t) ∧
    (h.ownDone = true → m.present = true → ∃ t, exec (.sealOutcome o) s = .next t ∧
      (t.map (sessKey r.home r.session)).clen = m.clen + (if o.accept then o.a else 0) ∧ (t.map (sessKey r.home r.session)).plen = 0 ∧
      (t.map (sessKey r.home r.session)).lapOn = false ∧ (t.map (sessKey r.home r.session)).sealedLap = o.lap ∧
      (∀ l ∈ (t.map (sessKey r.home r.session)).lists, ∀ g ∈ l.pages, g.pos0 + g.fill ≤ m.clen + (if o.accept then o.a else 0)) ∧
      (∀ k, k ≠ sessKey r.home r.session → t.map k = s.map k) ∧ KeepsMemory s t)) ∧
  (∀ (s : State) (src k layer head pos fmt p d j na : Nat) (data : List Byte) (l : KvList) (g : Page), s.entry.oscDead = false →
    s.twinNode = some src → kvCode fmt = true → (s.mirror k).present = true → (s.mirror k).part = p → widthOf fmt data.length = some d →
    kvPageBytes fmt d ≤ (s.part p).kvFrame * 1024 → ((s.mirror k).lists.find? fun l => l.layer == layer && l.head == head) = some l →
    pageSlot l pos = some (g, j) → g.fmt = fmt → j < 64 → pos + 1 ≤ listFill l → na = pageNear (s.part p) g →
    naOff na + kvPageBytes fmt d ≤ 2 ^ 36 → (∀ i ∈ linesOf (physOff s p na) (kvPageBytes fmt d), lineHeld s (naStack na) i = false) →
    ∃ t, exec (.mirrorAppend src k layer head pos fmt data) s = .next t ∧ posBytes t p na fmt d j = data ∧
      StackExcept s t [(naStack na, physOff s p na, kvPageBytes fmt d)] ∧ Tells t (.node src) (.mirrorAck k layer head pos 1) ∧ t.cores = s.cores) ∧
  ∀ (s : State) (k layer head pos n : Nat), Settled s → (s.map k).unacked ≠ 0 →
    ∃ t, exec (.mirrorAck k layer head pos n) s = .next t ∧ (t.map k).unacked = (s.map k).unacked - n ∧ KeepsMemory s t

/-- Where the pacer admits, the request it takes leaves its tenant's queue. With its bindings made it is in PREFILL with the generation bound, its session holds it, and its tenant has paid IN_W for each prompt token; where a binding fails it ends with that failure's status. (Stated for a request with a session of its own.) A cohort whose wait is over closes, its members joining the closed cohorts. An ended entry, posted or withheld, with its last lap's reports in and its receipt signed, is free, only its reuse generation kept. -/
def Obligations.RequestsAreAdmittedAndFreed : Prop :=
  (∀ (s s1 : State) (i : Nat) (r : Req), Settled s → s1 = refillAll s (waitingTenants s) → admitsNow s = true → admitNext s1 = some i →
    r = s.req i → r.mirror = false → r.session ≠ 0 →
    (∀ g, bindings s1 r = .inl g → ∃ t, exec .pacerAdmit s = .next t ∧ (t.req i).state = .prefill ∧ (t.req i).generation = g.number ∧
      (t.req i).aonAdmit = s.aon ∧ (t.sess r.sessIdx).request = some i ∧
      tget [] t.srv.queues r.tenant = (tget [] s.srv.queues r.tenant).filter (· != i) ∧
      (t.tenant r.tenant).balance = (s1.tenant r.tenant).balance - ((s.cfg 0x0707 * r.prompt : Nat) : Int) ∧
      (∀ j, j ≠ i → t.req j = s.req j) ∧ KeepsMemory s t) ∧
    (∀ st, bindings s1 r = .inr st → ∃ t, exec .pacerAdmit s = .next t ∧ (t.req i).state = .ended ∧ (t.req i).status = st)) ∧
  (∀ (s : State) (c : Nat) (x : Cohort), x = (s.ctx c).cohort → x.isOpen = true → 0 < x.admitted → s.cfg 0x0B04 ≠ 0 →
    x.firstAt + msAon (s.cfg 0x0B04) ≤ s.aon →
    ∃ t, exec (.cohortCloseTimeout c) s = .next t ∧ (t.ctx c).cohort.isOpen = false ∧ (t.ctx c).cohort.members = [] ∧
      (x.members ≠ [] → (t.ctx c).closed = (s.ctx c).closed ++ [x.members]) ∧ (∀ d, d ≠ c → t.ctx d = s.ctx d) ∧
      t.srv.ledger = s.srv.ledger ∧ KeepsMemory s t) ∧
  ∀ (s : State) (i : Nat) (r : Req), r = s.req i → r.state = .completed ∨ r.state = .ended → r.mirror = false →
    r.posted = true ∨ r.withheld = true → r.inLap = false → r.receiptSigned = true →
    ∃ t, exec (.ledgerFree i) s = .next t ∧ (t.req i).state = .free ∧ t.req i = { Req.reset with reuse := r.reuse } ∧
      (∀ j, j ≠ i → t.req j = s.req j) ∧ t.srv.sessions = s.srv.sessions ∧ KeepsMemory s t

/-- A context that can be brought in becomes RESIDENT and counts a swap. A resident context with no start for BLOCK_US and a cause that holds is blocked on it. Where the bench rule applies its first candidate is taken and every running slot of its footprint paused; with no candidate nothing changes. Past 50 µs a candidate not yet paused is let go, an EVICT_ABORT counted, and the next is taken. A candidate wholly PAUSED is saved and BENCHED, and its beneficiary is RESIDENT or as before. A starter fault makes the row unavailable and every context with a core in it FAILED, no other. A report is due every REPORT_MS: its interval begins and its contexts' counts restart. -/
def Obligations.ContextsComeAndGo : Prop :=
  (∀ (s : State) (c : Nat), canBring s c = true → ∃ t, exec (.contextBringIn c) s = .next t ∧ (t.ctx c).state = .resident ∧
    (t.ctx c).saved = false ∧ (t.ctx c).blocked = none ∧ (t.ctx c).swaps = (s.ctx c).swaps + 1 ∧ (∀ d, d ≠ c → t.ctx d = s.ctx d) ∧
    (t.part (s.ctx c).part).stats.swaps = (s.part (s.ctx c).part).stats.swaps + 1 ∧ t.beside = s.beside ∧ t.srv.ledger = s.srv.ledger) ∧
  (∀ (s : State) (c : Nat) (l : List BlockCause), (s.ctx c).state = .resident → (s.ctx c).blocked = none →
    (s.ctx c).lastStart + usAon (s.cfg 0x0706) ≤ s.aon → l.filter (causeHolds s c) ≠ [] →
    ∃ t, exec (.contextBlocked c l) s = .next t ∧ (t.ctx c).blocked = some (l.filter (causeHolds s c)) ∧ (∀ d, d ≠ c → t.ctx d = s.ctx d) ∧
      t = { s with srv := t.srv } ∧ t.srv.ledger = s.srv.ledger) ∧
  (∀ (s : State) (p : Nat), (s.part p).state = .active → (s.part p).evict = none → waiting s p ≠ [] →
    ((residents s p).all fun r => (s.ctx r).blocked.isSome) = true →
    (candidates s p = [] → ∃ t, exec (.eviction p) s = .next t ∧ t.cores = s.cores ∧ (t.part p) = s.part p) ∧
    (∀ v b r, candidates s p = (v, b) :: r → ∃ t, exec (.eviction p) s = .next t ∧ (t.part p).evict = some ⟨v, b, r, s.aon⟩ ∧
      (∀ f ∈ footprint s v, (s.slot f.1 (s.ctx v).slot).state = .running → (t.slot f.1 (s.ctx v).slot).state = .paused) ∧
      t.srv.ctxs = s.srv.ctxs ∧ KeepsMemory s t)) ∧
  (∀ (s : State) (p : Nat) (e : Evict), (s.part p).evict = some e →
    (e.since + usAon 50 ≤ s.aon → allPaused s e.victim = false → ∃ t, exec (.evictTimeout p) s = .next t ∧
      (t.part p).stats.evictAbort = (s.part p).stats.evictAbort + 1 ∧
      (∀ v b r, e.rest = (v, b) :: r → (t.part p).evict = some ⟨v, b, r, s.aon⟩) ∧ (e.rest = [] → (t.part p).evict = none) ∧
      t.srv.ctxs = s.srv.ctxs ∧ KeepsMemory s t) ∧
    (allPaused s e.victim = true → e.victim ≠ e.beneficiary → ∃ t, exec (.evictSave p) s = .next t ∧ (t.ctx e.victim).state = .benched ∧
      (t.ctx e.victim).saved = true ∧ (t.ctx e.victim).image = saveImage s e.victim ∧ (t.ctx e.victim).blocked = none ∧ (t.part p).evict = none ∧
      ((t.ctx e.beneficiary).state = .resident ∨ t.ctx e.beneficiary = s.ctx e.beneficiary) ∧
      (∀ c, c ≠ e.victim → c ≠ e.beneficiary → t.ctx c = s.ctx c) ∧ t.beside = s.beside)) ∧
  (∀ (s : State) (d w : Nat), d < 4 → w < 16 → s.power.fieldOn = true → ∃ t, exec (.starterFault d w) s = .next t ∧
    (t.starter (d * 16 + w)).unavailable = true ∧
    ∀ c, (((footprint s c).any fun f => starterOf f.1 == d * 16 + w) = true → (s.ctx c).state ≠ .none → (t.ctx c).state = .failed) ∧
      (((footprint s c).any fun f => starterOf f.1 == d * 16 + w) = false → (t.ctx c).state = (s.ctx c).state)) ∧
  ∀ (s : State) (p : Nat), (s.part p).state ≠ .free → s.cfg 0x0704 ≠ 0 → (s.part p).reportAt + msAon (s.cfg 0x0704) ≤ s.aon →
    ∃ t, exec (.slowdownReport p) s = .next t ∧
      t = settle (notify (report s p).2 (s.part p).fn mPAR_REPORT 0 ((partCtxs s p).flatMap (reportEntry s))) ∧ (t.part p).reportAt = s.aon ∧
      ∀ c ∈ partCtxs s p, (t.ctx c).runAon = 0 ∧ (t.ctx c).stallAon = 0 ∧ (t.ctx c).laps = 0 ∧ (t.ctx c).faults = 0 ∧ (t.ctx c).swaps = 0

/-- The oldest FAULT record of a starter counts toward its context's FAULT_LIMIT (one met while a node is fenced that R495 has replayed counts nothing). With it and the faults of the last 4,000,000 AON cycles FAULT_LIMIT in number, the context becomes FAILED; with fewer it does not; with FAULT_LIMIT 0 no context's state changes. -/
def Obligations.FaultLimitFailsAContext : Prop :=
  ∀ (s : State) (die row : Nat),
    (s.cfg 0x0705 = 0 → ∃ t, exec (.faultRecord die row) s = .next t ∧ ∀ c, (t.ctx c).state = (s.ctx c).state) ∧
    ∀ (r : Record) (n : Nat), (s.starter (die * 16 + row)).queue.find? (fun r => r.kind == kFAULT) = some r →
      ¬((r.cause = fcMSG_UNREACH ∨ r.cause = fcFABRIC_FAULT) ∧ s.twin.fence ≠ []) →
      n = ((s.ctx r.ctx).faultTimes.filter fun t => decide (s.aon < t + 4000000)).length + 1 →
      ∃ t, exec (.faultRecord die row) s = .next t ∧ (t.ctx r.ctx).faults = (s.ctx r.ctx).faults + 1 ∧
        (s.cfg 0x0705 ≠ 0 → s.cfg 0x0705 ≤ n → (s.ctx r.ctx).state ≠ .none → (t.ctx r.ctx).state = .failed) ∧
        (n < s.cfg 0x0705 → (t.ctx r.ctx).state = (s.ctx r.ctx).state) ∧
        ∀ c, c ≠ r.ctx → (t.ctx c).state = (s.ctx c).state

/-- For each of the 54 message rows: where the message fails one of the first six checks of R418, its one response carries the first failure and no payload, and that response is all that happens. A message of a deferred type that passes them with 64 deferred commands in progress on its path answers BUSY and does nothing else. -/
def Obligations.FailedMessagesChangeNothing : Prop :=
  ∀ (s : State) (m : Msg), s.entry.oscDead = false →
    ∀ e ∈ messageRows,
      (∀ st, firstFailure s e.2 m = some st → Answers (exec (e.1 m) s) s e.2 m st []) ∧
      (isDeferred e.2 = true → firstFailure s e.2 m = none → 64 ≤ (deferredOf s m.path).length → Answers (exec (e.1 m) s) s e.2 m stBUSY [])

/-- With its checks passed: SYS.CAPS returns the capability record; SETTINGS_GET of known fields returns each field's ID, flags and value; SETTINGS_SET applies all of its entries, so that one entry of a field that is not of the link plan gives the field its value and marks it changed, and where an entry fails answers the index of the first failing one with its status and applies none; SETTINGS_COMMIT begins with a snapshot of the running settings, and fails once the sequence is at its largest; TENANT_SET writes its entry and returns it; TENANT_GET returns it; SYS.RESET answers, ends every open request of this package and orders a warm reset; SYS.WAKE answers, and wakes a DORMANT package. -/
def Obligations.SystemMessagesAct : Prop :=
  ∀ (s : State) (m : Msg),
    (Serves s 0x0101 m → Answers (exec (.sysCaps m) s) s 0x0101 m stOK (capRecord s (pathFn m.path))) ∧
    (Serves s 0x0102 m → ∀ ids, ids = (List.range (ble m.payload 0 2)).map (fun i => ble m.payload (8 + 2 * i) 2) → ids.length ≤ 255 →
      (∀ id ∈ ids, (fieldDef id).isSome = true ∨ fieldReadOnly id = true) →
      Answers (exec (.sysSettingsGet m) s) s 0x0102 m stOK (leBytes 2 ids.length ++ zeros 6 ++ ids.flatMap fun id =>
        leBytes 2 id ++ leBytes 2 (b2n (s.settings.changed.contains id) + 2 * b2n (s.settings.ignored.contains id)) ++ zeros 4 ++
        leBytes 8 (fieldValue s id))) ∧
    (Serves s 0x0103 m →
      (∀ a e b, setEntries m = a ++ e :: b → (∀ x ∈ a, entryFail s x = none) → (∀ st, entryFail s e = some st →
        Answers (exec (.sysSettingsSet m) s) s 0x0103 m st (leBytes 2 a.length))) ∧
      (Keyed s.settings.run → (∀ x ∈ setEntries m, entryFail s x = none ∧ isPlanField x.1 = false) → ∃ u, Answers (exec (.sysSettingsSet m) s) u 0x0103 m stOK [] ∧
        (∀ id v, (setEntries m).filter (fun x => x.1 == id) = [(id, v)] → u.settings.raw id = v ∧ id ∈ u.settings.changed) ∧
        (∀ id, (∀ x ∈ setEntries m, x.1 ≠ id) → u.settings.raw id = s.settings.raw id) ∧ u.srv = s.srv ∧ KeepsMemory s u)) ∧
    (Begins s 0x0104 m →
      (s.settings.seq ≠ 0xFFFFFFFF → ∃ u, InBackground (exec (.sysSettingsCommit m) s) u 0x0104 m 0 ∧
        u = { s with boot := { s.boot with commits := s.boot.commits ++ [(m.path, m.tag, s.settings)] } }) ∧
      (s.settings.seq = 0xFFFFFFFF → Answers (exec (.sysSettingsCommit m) s) s 0x0104 m stCOMMIT_FAILED [])) ∧
    (Serves s 0x0105 m → ∀ i x, i = ble m.payload 0 2 → i < 4096 →
      x = tenantSet (s.tenant i) s.aon (ble m.payload 8 4) (ble m.payload 12 4) (ble m.payload 16 8) →
      ∃ u, Answers (exec (.sysTenantSet m) s) u 0x0105 m stOK (tenantBytes x) ∧ u.tenant i = x ∧ (∀ j, j ≠ i → u.tenant j = s.tenant j) ∧
        x.refill = ble m.payload 8 4 ∧ x.winUs = ble m.payload 12 4 ∧ x.cap = ble m.payload 16 8 ∧
        ((s.tenant i).winUs = 0 → x.winUs ≠ 0 → x.balance = x.cap ∧ x.next = s.aon + 4 * x.winUs) ∧
        ((s.tenant i).winUs ≠ 0 → x.balance = min (s.tenant i).balance (x.cap : Int) ∧ x.next = (s.tenant i).next) ∧ KeepsMemory s u) ∧
    (Serves s 0x0106 m → ble m.payload 0 2 < 4096 →
      Answers (exec (.sysTenantGet m) s) s 0x0106 m stOK (tenantBytes (s.tenant (ble m.payload 0 2)))) ∧
    (Serves s 0x0107 m → ble m.payload 0 1 = 1 → ∃ t, exec (.sysReset m) s = .next t ∧ t.boot.resetWait = some 3 ∧ t.mbx.resetting = true ∧
      (∀ i, (s.req i).isOpen = true → (s.req i).mirror = false → (t.req i).state = .ended) ∧ ∀ c a, spadByte t c a = spadByte s c a) ∧
    (Serves s 0x0108 m →
      (s.power.state ≠ .dormant ∨ s.entry.inputOn = false → Answers (exec (.sysWake m) s) s 0x0108 m stOK []) ∧
      (s.power.state = .dormant → s.entry.inputOn = true →
        exec (.sysWake m) s = .next (settle (wakeDormant (reply s 0x0108 m stOK [])))))

/-- With its checks passed: ENG.CAP_SET sets the cap within 1,200..3,800 W and fails BAD_FIELD outside; PACE_SET sets MODE 0, or MODE 1 with a clock of 25 MHz steps within 1,000..2,000, and fails BAD_FIELD otherwise; STATUS, FAB.STATUS and TWIN_STATUS report; ANNOUNCE sets or clears its function's deadline; LINK_PLAN with a plan the rules allow begins, its changed links DOWN and the plan in force, and fails BAD_FIELD otherwise; LOCKSTEP_SET of a PAIRED package with lock-step sets its context's mode; DBG.WHISTLE with a host reason blows; SCOREBOARD returns the held whistle image, else a new one; TENSOR_WATCH arms the watch in place of one of the same tensor and lap, and with LENGTH 0 disarms it. -/
def Obligations.EnergyFabricAndDebugMessagesAct : Prop :=
  ∀ (s : State) (m : Msg), Keyed s.settings.run →
    (Serves s 0x0701 m → ∀ w, w = ble m.payload 0 2 →
      (w < 1200 ∨ 3800 < w → Answers (exec (.engCapSet m) s) s 0x0701 m stBAD_FIELD []) ∧
      (1200 ≤ w → w ≤ 3800 → ∃ u, Answers (exec (.engCapSet m) s) u 0x0701 m stOK [] ∧ u.settings.raw 0x0A01 = w ∧
        (∀ id, id ≠ 0x0A01 → u.settings.raw id = s.settings.raw id) ∧ u = { s with settings := u.settings })) ∧
    (Serves s 0x0702 m → ∀ mode f, mode = ble m.payload 0 1 → f = ble m.payload 2 2 →
      (1 < mode ∨ mode = 1 ∧ (f % 25 ≠ 0 ∨ f < 1000 ∨ 2000 < f) → Answers (exec (.engPaceSet m) s) s 0x0702 m stBAD_FIELD []) ∧
      (mode = 0 ∨ mode = 1 ∧ f % 25 = 0 ∧ 1000 ≤ f ∧ f ≤ 2000 → ∃ u, Answers (exec (.engPaceSet m) s) u 0x0702 m stOK [] ∧
        u.settings.raw 0x0A02 = mode ∧ u.settings.raw 0x0A03 = (if mode = 1 then f else s.settings.raw 0x0A03) ∧
        (∀ id, id ≠ 0x0A02 → id ≠ 0x0A03 → u.settings.raw id = s.settings.raw id) ∧ u = { s with settings := u.settings })) ∧
    (Serves s 0x0703 m → Answers (exec (.engStatus m) s) s 0x0703 m stOK (leBytes 1 s.power.state.code ++ leBytes 1 (s.cfg 0x0A02) ++
      leBytes 2 (s.cfg 0x0A01) ++ leBytes 2 s.power.freq ++ zeros 2 ++ leBytes 4 s.energy.powerMw ++ zeros 4 ++ leBytes 8 s.energy.inputUj)) ∧
    (Serves s 0x0704 m → ∃ u, Answers (exec (.engAnnounce m) s) u 0x0704 m stOK [] ∧
      (u.fn (pathFn m.path)).announce = (if ble m.payload 0 4 = 0xFFFFFFFF then none else some (s.aon + 4 * ble m.payload 0 4)) ∧
      (∀ f, f ≠ pathFn m.path → u.fn f = s.fn f) ∧ u = { s with mbx := u.mbx }) ∧
    (Begins s 0x0801 m → ∀ plan, plan = (List.range 36).map (fun l => ble m.payload (4 * l) 4) →
      (planOk s.fab.node plan = false → Answers (exec (.fabLinkPlan m) s) s 0x0801 m stBAD_FIELD []) ∧
      (planOk s.fab.node plan = true → ∃ u, InBackground (exec (.fabLinkPlan m) s) u 0x0801 m 0 ∧
        (∀ l, l < 36 → nth 0 plan l ≠ s.plan l → (u.link l).state = .down) ∧ (∀ l, l < 36 → u.plan l = nth 0 plan l) ∧
        (∀ l, l < 36 → nth 0 plan l = s.plan l → (u.link l).state = (s.link l).state))) ∧
    (Serves s 0x0802 m → Answers (exec (.fabStatus m) s) s 0x0802 m stOK (leBytes 1 s.fab.node ++ zeros 1 ++ leBytes 2 s.fab.ownRole ++ zeros 4 ++
      (List.range 36).flatMap (fun l => leBytes 1 (s.link l).state.code) ++ zeros 4)) ∧
    (Serves s 0x0803 m → Answers (exec (.fabTwinStatus m) s) s 0x0803 m stOK
      (leBytes 1 s.twin.state.code ++ leBytes 1 (s.twinNode.getD 0) ++ zeros 6)) ∧
    (Serves s 0x0804 m → ∀ c e, c = ble m.payload 0 1 → e = ble m.payload 1 1 →
      (s.hasLockstep = false → Answers (exec (.fabLockstepSet m) s) s 0x0804 m stUNIT_ABSENT []) ∧
      (s.hasLockstep = true → e ≤ 1 → s.twin.state ≠ .paired → Answers (exec (.fabLockstepSet m) s) s 0x0804 m stNOT_PAIRED []) ∧
      (s.hasLockstep = true → e ≤ 1 → s.twin.state = .paired → (s.ctx c).state ≠ .none → ∃ u, Answers (exec (.fabLockstepSet m) s) u 0x0804 m stOK [] ∧
        u.ctx c = { s.ctx c with lockstep := e == 1 } ∧ (∀ d, d ≠ c → u.ctx d = s.ctx d) ∧ u = { s with srv := u.srv })) ∧
    (Serves s 0x0901 m → ∀ sc r, sc = ble m.payload 0 1 → r = ble m.payload 2 2 →
      (1 < sc ∨ (sc ≤ 1 ∧ r ≠ 0xFFFF ∧ (r = 0 ∨ 0x8000 ≤ r)) → Answers (exec (.dbgWhistle m) s) s 0x0901 m stBAD_FIELD []) ∧
      (sc ≤ 1 → r ≠ 0 → r < 0x8000 → Answers (exec (.dbgWhistle m) s) (blowWhistle s sc r) 0x0901 m stOK []) ∧
      (sc = 0 → r = 0xFFFF → s.dport.applWhistle = true → Answers (exec (.dbgWhistle m) s) s 0x0901 m stNOT_PERMITTED []) ∧
      (sc = 0 → r = 0xFFFF → s.dport.applWhistle = false → Answers (exec (.dbgWhistle m) s) (releasePackage s) 0x0901 m stOK []) ∧
      (sc = 1 → r = 0xFFFF → Answers (exec (.dbgWhistle m) s) (releaseAppliance (s.send .all .whistleRelease)) 0x0901 m stOK [])) ∧
    (Serves s 0x0902 m → (∀ x, s.dport.imageW = some x → Answers (exec (.dbgScoreboard m) s) s 0x0902 m stOK (whistleBytes s x)) ∧
      (s.dport.imageW = none → ∃ u x, Answers (exec (.dbgScoreboard m) s) u 0x0902 m stOK (whistleBytes s x) ∧ x = freeze s 2 0 0 s.fab.node ∧
        u = { s with dport := { s.dport with imageR := some x } })) ∧
    (Serves s 0x0903 m → ∀ c id n, c = ble m.payload 0 1 → id = ble m.payload 4 4 → n = ble m.payload 0x18 4 →
      (s.dport.level = 0 → Answers (exec (.dbgTensorWatch m) s) s 0x0903 m stDEBUG_LOCKED []) ∧
      (s.dport.level ≠ 0 → (s.ctx c).state ≠ .none → ((ctxMan s c).tensors.any fun t => t.1 == id && !t.2) = true →
        (n = 0 → ∃ u, Answers (exec (.dbgTensorWatch m) s) u 0x0903 m stOK [] ∧
          (∀ w ∈ u.dport.watches, ¬(w.ctx = c ∧ w.tensor = id ∧ w.lap = ble m.payload 8 8)) ∧
          (∀ w ∈ s.dport.watches, ¬(w.ctx = c ∧ w.tensor = id ∧ w.lap = ble m.payload 8 8) → w ∈ u.dport.watches)) ∧
        (n ≠ 0 → s.dport.watches.length < 16 → ∃ u, Answers (exec (.dbgTensorWatch m) s) u 0x0903 m stOK [] ∧
          ⟨c, id, ble m.payload 8 8, ble m.payload 0x10 8, n, pathFn m.path⟩ ∈ u.dport.watches ∧ u = { s with dport := u.dport }))) 

/-- With its checks passed: PAR.CREATE that nothing fails makes the partition ACTIVE with the message's parameters and the bases it picked, writes its map entry on every stack it has memory on, changes no other partition, and goes on in the background; where something fails it answers that. PAR.STOP of an ACTIVE partition makes it STOPPED with all its requests ended; PAR.START makes it ACTIVE; PAR.RESET makes it ACTIVE with no context, no frame taken and every core of its rows as a reset leaves it. PAR.DESTROY of a STOPPED partition without context and generation makes it FREE, its objects freed. CTX_CREATE makes a free ID a BENCHED context; CTX_DESTROY of one without open requests frees it. STATS returns the entries and begins the interval; KV_FMT_SET sets a format that fits the frames. -/
def Obligations.PartitionMessagesAct : Prop :=
  ∀ (s : State) (m : Msg) (p : Nat), p = mp s m →
    (Begins s 0x0201 m →
      (∀ st, createFail s m = some st → Answers (exec (.parCreate m) s) s 0x0201 m st []) ∧
      (createFail s m = none → pickBases 12 s m [] = none → Answers (exec (.parCreate m) s) s 0x0201 m stNO_SPACE []) ∧
      (∀ bases s1, createFail s m = none → pickBases 12 s m [] = some (bases, s1) →
        ∃ u, InBackground (exec (.parCreate m) s) u 0x0201 m (leNat (bases.flatMap (leBytes 2))) ∧
          u.part m.part = createdPart (s.part m.part) s.aon m bases ∧ (u.part m.part).state = .active ∧ (∀ q, q ≠ m.part → u.part q = s.part q) ∧
          (∀ k, k < 12 → crNear m k ≠ 0 → tget 0 (u.bdie k).map m.part =
            mkWord [(0, 1), (1, nbits (ble m.payload 4 2) k k), (16, nth 0 bases k), (32, crNear m k)]) ∧ KeepsMemory s u)) ∧
    (Serves s 0x0202 m → (s.part m.part).state = .stopped →
      (partCtxs s m.part ≠ [] ∨ (s.part m.part).gens ≠ [] → Answers (exec (.parDestroy m) s) s 0x0202 m stPARTITION_BUSY []) ∧
      (partCtxs s m.part = [] → (s.part m.part).gens = [] → Keyed s.far.objs → ∃ u, Answers (exec (.parDestroy m) s) u 0x0202 m stOK [] ∧
        u.part m.part = { Part.reset with stats := (s.part m.part).stats } ∧
        (∀ id, (s.obj id).present = true → (s.obj id).part = m.part → (u.obj id).present = false) ∧ KeepsMemory s u)) ∧
    (Begins s 0x0203 m →
      ((s.part p).state ≠ .active → InBackground (exec (.parStop m) s) s 0x0203 m 0) ∧
      ((s.part p).state = .active → ∃ u, InBackground (exec (.parStop m) s) u 0x0203 m 0 ∧ (u.part p).state = .stopped ∧
        (∀ i, (s.req i).isOpen = true → (s.req i).mirror = false → (s.req i).part = p → (u.req i).state = .ended) ∧ KeepsMemory s u)) ∧
    (Begins s 0x0204 m → ∃ u, InBackground (exec (.parStart m) s) u 0x0204 m 0 ∧ u.part p = { s.part p with state := .active } ∧
      (∀ q, q ≠ p → u.part q = s.part q) ∧ u = { s with parts := u.parts }) ∧
    (Begins s 0x0205 m → ∃ u, InBackground (exec (.parReset m) s) u 0x0205 m 0 ∧ (u.part p).state = .active ∧ (u.part p).frames = [] ∧
      partCtxs u p = [] ∧ (∀ c a, bit (s.part p).rows (starterOf c) = true → spadByte u c a = 0) ∧
      (∀ c k, bit (s.part p).rows (starterOf c) = true → (u.slot c k).state = .unbound) ∧ ∀ d a, nearByte u d a = nearByte s d a) ∧
    (Serves s 0x0206 m → ∀ b c s1, ble m.payload 8 1 ≤ 3 → ble m.payload 9 1 ≤ 3 →
      (s.part p).bundles.find? (fun b => b.model == ble m.payload 0 8) = some b →
      pickOne s ((List.range 256).filter fun c => (s.ctx c).state == .none) = some (c, s1) →
      windowClash s b.man (ble m.payload 9 1) = false → benchFits s p b.man = true →
      (s.ctx c).state = .none ∧ ∃ u, Answers (exec (.parCtxCreate m) s) u 0x0206 m stOK (leBytes 1 c) ∧
        u.ctx c = { Ctx.reset with state := .benched, part := p, model := ble m.payload 0 8, prio := ble m.payload 8 1, slot := ble m.payload 9 1 } ∧
        (∀ d, d ≠ c → u.ctx d = s.ctx d) ∧ KeepsMemory s u) ∧
    (Serves s 0x0207 m → ∀ c, c = ble m.payload 0 1 →
      (∀ st, ctxFail s p c = some st → Answers (exec (.parCtxDestroy m) s) s 0x0207 m st []) ∧
      (ctxFail s p c = none → (s.srv.ledger.any fun e => e.2.isOpen && !e.2.mirror && e.2.ctx == c) = false → Keyed s.srv.ctxs →
        ∃ u, Answers (exec (.parCtxDestroy m) s) u 0x0207 m stOK [] ∧ (u.ctx c).state = .none ∧ (∀ d, d ≠ c → u.ctx d = s.ctx d) ∧
          u.srv.ledger = s.srv.ledger ∧ KeepsMemory s u)) ∧
    (Serves s 0x0208 m → ∃ u, Answers (exec (.parStats m) s) u 0x0208 m stOK ((partCtxs s p).flatMap (reportEntry s)) ∧ (u.part p).reportAt = s.aon ∧
      (∀ c ∈ partCtxs s p, (u.ctx c).runAon = 0 ∧ (u.ctx c).stallAon = 0 ∧ (u.ctx c).laps = 0) ∧ KeepsMemory s u) ∧
    (Serves s 0x020A m → ∀ f, f = ble m.payload 0 1 →
      (kvFmtOk (s.part p) f = false → Answers (exec (.parKvFmtSet m) s) s 0x020A m stBAD_FIELD []) ∧
      (kvFmtOk (s.part p) f = true → ∃ u, Answers (exec (.parKvFmtSet m) s) u 0x020A m stOK [] ∧ u.part p = { s.part p with kvFmt := f } ∧
        (∀ q, q ≠ p → u.part q = s.part q) ∧ u = { s with parts := u.parts }))

/-- With its checks passed: REQ.SUBMIT that fails a check of R424 answers it and changes nothing; one that passes them, finds an index and reads its prompt makes that index a QUEUED request with the message's fields, last in its tenant's queue, and returns its handle; no other entry changes. CANCEL ends an open request CANCELLED and answers ALREADY_DONE for one that has ended; STATUS returns the 256-byte entry. SESSION_OPEN opens a free session with the next reuse generation; SESSION_CLOSE closes an idle one, only its reuse generation kept; PARK begins to park a HELD session of a partition that parks, and otherwise changes nothing. A handle that names nothing here answers why. -/
def Obligations.RequestMessagesAct : Prop :=
  ∀ (s : State) (m : Msg),
    (Serves s 0x0501 m →
      (∀ st, submitFail s m = some st → Answers (exec (.reqSubmit m) s) s 0x0501 m st []) ∧
      (∀ i coh s1 toks, submitFail s m = none → takeIndex s (suCtx m) (pathFn m.path) = some (i, coh, s1) → suTokens m = (toks, false) →
        (∀ x ∈ toks, x < (ctxMan s (suCtx m)).vocab) →
        ∃ u, Answers (exec (.reqSubmit m) s) u 0x0501 m stOK (leBytes 4 (handleOf i (nextReuse (s.req i).reuse))) ∧
          u.req i = newReq s m i coh toks ∧ (u.req i).state = .queued ∧ (∀ j, j ≠ i → u.req j = s.req j) ∧
          tget [] u.srv.queues (suTenant m) = tget [] s.srv.queues (suTenant m) ++ [i] ∧
          (suSession m ≠ 0 → ∀ k, sessIdx s (suSession m) = some k → (u.sess k).request = some i) ∧ KeepsMemory s u)) ∧
    (Serves s 0x0502 m →
      (∀ st, reqOf s m = .inr st → Answers (exec (.reqCancel m) s) s 0x0502 m st []) ∧
      (∀ i, reqOf s m = .inl i →
        ((s.req i).isOpen = false → Answers (exec (.reqCancel m) s) s 0x0502 m stALREADY_DONE []) ∧
        ((s.req i).isOpen = true → ∃ u, Answers (exec (.reqCancel m) s) u 0x0502 m stOK [] ∧ (u.req i).state = .ended ∧
          (u.req i).status = stCANCELLED ∧ (u.req i).delivered = (s.req i).delivered ∧ KeepsMemory s u))) ∧
    (Serves s 0x0503 m →
      (∀ st, reqOf s m = .inr st → Answers (exec (.reqStatus m) s) s 0x0503 m st []) ∧
      (∀ i, reqOf s m = .inl i → Answers (exec (.reqStatus m) s) s 0x0503 m stOK (ledgerBytes i (s.req i)))) ∧
    (Serves s 0x0504 m → ∀ i s1, ctxFail s (mp s m) (ble m.payload 0 1) = none → (s.tenant (ble m.payload 2 2)).winUs ≠ 0 →
      freeSess s = some (i, s1) → (s.sess i).isOpen = false ∧
      ∃ u, Answers (exec (.reqSessionOpen m) s) u 0x0504 m stOK (leBytes 4 (handleOf i (nextReuse (s.sess i).reuse))) ∧ (u.sess i).isOpen = true ∧
        (u.sess i).state = .absent ∧ (u.sess i).ctx = ble m.payload 0 1 ∧ (u.sess i).tenant = ble m.payload 2 2 ∧
        (u.sess i).reuse = nextReuse (s.sess i).reuse ∧ (∀ j, j ≠ i → u.sess j = s.sess j) ∧ u.srv.ledger = s.srv.ledger ∧ KeepsMemory s u) ∧
    (Serves s 0x0505 m →
      (∀ st, sessOf s m = .inr st → Answers (exec (.reqSessionClose m) s) s 0x0505 m st []) ∧
      (∀ i, sessOf s m = .inl i → ∃ u, Answers (exec (.reqSessionClose m) s) u 0x0505 m stOK [] ∧
        u.sess i = { Session.reset with reuse := (s.sess i).reuse } ∧ (∀ j, j ≠ i → u.sess j = s.sess j) ∧ u.srv.ledger = s.srv.ledger ∧
        KeepsMemory s u)) ∧
    (Serves s 0x0506 m →
      (∀ st, sessOf s m = .inr st → Answers (exec (.reqPark m) s) s 0x0506 m st []) ∧
      (∀ i, sessOf s m = .inl i →
        ((s.sess i).state = .held → (s.part (s.sess i).part).park ≠ 0 → ∃ u, Answers (exec (.reqPark m) s) u 0x0506 m stOK [] ∧
          (u.sess i).state = .parking ∧ (∀ j, j ≠ i → u.sess j = s.sess j) ∧ KeepsMemory s u) ∧
        ((s.sess i).state ≠ .held ∨ (s.part (s.sess i).part).park = 0 → Answers (exec (.reqPark m) s) s 0x0506 m stOK [])))

/-- With its checks passed: BUNDLE_LOAD of 4,096 bytes to 256 MiB begins when the partition loads nothing else; UNLOAD removes the model's bundle where the generation matches; GEN_CREATE that fits adds a loading generation and returns its reference; GEN_SEAL of a complete one begins, else answers why not; GEN_STATUS reports; ACTIVATE begins, notes the activation and sends GEN_PREPARE to every package of the partition's jobs; CUTOVER of a staged generation likewise with CUT_PREPARE; GEN_DELETE of one that is neither LIVE nor DRAINING removes it; RELAY begins and sends every whole chunk to every target; ADAPTER_LOAD and REPLACE take the lowest free slot; UNLOAD retires the mapped slot. A generation, bundle or adapter that is not there answers so, nothing changed. -/
def Obligations.ModelMessagesAct : Prop :=
  ∀ (s : State) (m : Msg) (p : Nat) (x : Part), p = mp s m → x = s.part p →
    (Begins s 0x0301 m → ∀ n, n = ble m.payload 8 4 →
      (n < 4096 ∨ 268435456 < n → Answers (exec (.mdlBundleLoad m) s) s 0x0301 m stBAD_FIELD []) ∧
      (4096 ≤ n → n ≤ 268435456 → loading s p = true → Answers (exec (.mdlBundleLoad m) s) s 0x0301 m stLOADER_BUSY []) ∧
      (4096 ≤ n → n ≤ 268435456 → loading s p = false → InBackground (exec (.mdlBundleLoad m) s) s 0x0301 m 0)) ∧
    (Serves s 0x0302 m →
      (x.bundles.find? (fun b => b.model == mdlModel m) = none → Answers (exec (.mdlBundleUnload m) s) s 0x0302 m stMODEL_UNKNOWN []) ∧
      (∀ b, x.bundles.find? (fun b => b.model == mdlModel m) = some b →
        (b.generation ≠ mdlGen m → Answers (exec (.mdlBundleUnload m) s) s 0x0302 m stGEN_MISMATCH []) ∧
        (b.generation = mdlGen m → ∃ u, Answers (exec (.mdlBundleUnload m) s) u 0x0302 m stOK [] ∧
          u.part p = { x with bundles := x.bundles.filter fun a => a.model != b.model } ∧ (∀ q, q ≠ p → u.part q = s.part q) ∧
          u = { s with parts := u.parts }))) ∧
    (Serves s 0x0303 m → ∀ g bases r, g = genOfMsg s p m → (g.images.any fun e => decide (e.1 < e.2)) = false →
      (x.gens.any fun y => y.model == g.model && decide (g.number ≤ y.number)) = false → ¬(g.keepCopy = true ∧ g.copyCxl = true ∧ s.hasCxl = false) →
      genRoom x g = true → placeImages x g = some bases →
      makeObjects s p (genTier s g.copyCxl) (genObjects x { g with bases := bases }) [] = some r →
      ∃ u, Answers (exec (.mdlGenCreate m) s) u 0x0303 m stOK (leBytes 2 g.loadRef) ∧
        (u.part p).gens = x.gens ++ [{ g with bases := bases, objs := r.2 }] ∧ u.far = r.1.far ∧ (∀ q, q ≠ p → u.part q = s.part q) ∧ KeepsMemory s u) ∧
    (Begins s 0x0304 m →
      (x.genRef? (ble m.payload 0 2) = none → Answers (exec (.mdlGenSeal m) s) s 0x0304 m stBAD_FIELD []) ∧
      (∀ g, x.genRef? (ble m.payload 0 2) = some g →
        (∀ st, sealFail g = some st → Answers (exec (.mdlGenSeal m) s) s 0x0304 m st []) ∧
        (sealFail g = none → InBackground (exec (.mdlGenSeal m) s) s 0x0304 m 0))) ∧
    (Serves s 0x0305 m → ∀ g, x.genRef? (ble m.payload 0 2) = some g → Answers (exec (.mdlGenStatus m) s) s 0x0305 m stOK
      (leBytes 1 g.state.code ++ leBytes 1 (b2n g.overwrite) ++ zeros 6 ++ leBytes 8 (g.written.foldl (fun a e => a + e.2) 0) ++
        leBytes 4 g.hashed.length ++ leBytes 4 g.chunks.length ++ leBytes 8 g.dropped ++ leBytes 4 g.bound)) ∧
    (Begins s 0x0306 m →
      (x.gen? (mdlModel m) (mdlGen m) = none → Answers (exec (.mdlGenActivate m) s) s 0x0306 m stGEN_MISMATCH []) ∧
      (∀ g, x.gen? (mdlModel m) (mdlGen m) = some g → x.act = none → ∃ t, GoesOn (exec (.mdlGenActivate m) s) s t 0x0306 m ∧
        t.part p = { x with act := some ⟨g.model, g.number, partNodes s p, s.aon, m.path, m.tag⟩ } ∧
        (∀ n ∈ partNodes s p, Tells t (.node n) (.genPrepare p g.model g.number)) ∧ KeepsMemory s t)) ∧
    (Begins s 0x0307 m →
      (x.gen? (mdlModel m) (mdlGen m) = none → Answers (exec (.mdlGenCutover m) s) s 0x0307 m stGEN_MISMATCH []) ∧
      (∀ g, x.gen? (mdlModel m) (mdlGen m) = some g →
        (x.cut ≠ none ∨ g.state ≠ .staged → Answers (exec (.mdlGenCutover m) s) s 0x0307 m stCUTOVER_ABORTED []) ∧
        (x.cut = none → g.state = .staged → ∃ t, GoesOn (exec (.mdlGenCutover m) s) s t 0x0307 m ∧
          (∃ c, (t.part p).cut = some c ∧ c.model = g.model ∧ c.gen = g.number ∧ c.images = ble m.payload 12 2) ∧
          (∀ n ∈ partNodes s p, Tells t (.node n) (.cutPrepare p g.model g.number (ble m.payload 12 2))) ∧ KeepsMemory s t))) ∧
    (Serves s 0x0308 m →
      (x.gen? (mdlModel m) (mdlGen m) = none → Answers (exec (.mdlGenDelete m) s) s 0x0308 m stGEN_MISMATCH []) ∧
      (∀ g, x.gen? (mdlModel m) (mdlGen m) = some g →
        (g.state = .live ∨ g.state = .draining → Answers (exec (.mdlGenDelete m) s) s 0x0308 m stGEN_IN_USE []) ∧
        (g.state ≠ .live → g.state ≠ .draining → ∃ u, Answers (exec (.mdlGenDelete m) s) u 0x0308 m stOK [] ∧
          (u.part p).gens = x.gens.filter (fun y => !(y.model == g.model && y.number == g.number)) ∧ u.srv = s.srv ∧ KeepsMemory s u))) ∧
    (Begins s 0x0309 m → ∀ g nodes, x.genRef? (ble m.payload 0 2) = some g → ble m.payload 4 1 ≠ 0 → ble m.payload 4 1 ≤ s.cfg 0x0303 →
      (relayRoles m).any (fun r => decide (1023 ≤ r)) = false → (relayRoles m).any (fun r => (s.roleNode r).isNone) = false → x.relay = none →
      nodes = (relayRoles m).filterMap s.roleNode →
      ∃ t, GoesOn (exec (.mdlRelay m) s) s t 0x0309 m ∧
        (t.part p).relay = some ⟨g.number, g.model, ble m.payload 2 2, nodes.map fun n => (n, []), m.path, m.tag⟩ ∧
        (∀ c ∈ relayChunks g (ble m.payload 2 2), g.isLoading = false ∨ g.full c.1 c.2 = true → ∀ n ∈ nodes,
          ∃ l, Tells t (.node n) (.relayChunk p g.number c.1 c.2 l)) ∧ KeepsMemory s t) ∧
    (∀ rep code c, (rep, code, c) ∈ [(false, 0x030A, Instr.mdlAdapterLoad m), (true, 0x030B, .mdlAdapterReplace m)] → Serves s code m →
      ∀ ctx id len, ctx = ble m.payload 0 1 → id = ble m.payload 2 2 → len = ble m.payload 4 4 →
      (ctxOf s p ctx = false → Answers (exec c s) s code m stCTX_UNKNOWN []) ∧
      (ctxOf s p ctx = true → id ≠ 0 → len ≠ 0 → len ≤ x.aslotMib * 1048576 → (rep = false → mappedSlot x ctx id = none) →
        (rep = true → (x.adapters.any fun a => a.2.state == .loading && a.2.replace && a.2.ctx == ctx && a.2.adapter == id) = false) →
        ∀ i, leastBelow x.aslots (fun i => (x.aslot i).state == .free) = some i →
        ∃ u, Answers (exec c s) u code m stOK (leBytes 2 (newRef x)) ∧ ((u.part p).aslot i).state = .loading ∧ ((u.part p).aslot i).ctx = ctx ∧
          ((u.part p).aslot i).adapter = id ∧ ((u.part p).aslot i).length = len ∧ ((u.part p).aslot i).replace = rep ∧
          (∀ j, j ≠ i → (u.part p).aslot j = x.aslot j) ∧ u = { s with parts := u.parts })) ∧
    (Serves s 0x030C m → ∀ i, ctxOf s p (ble m.payload 0 1) = true → mappedSlot x (ble m.payload 0 1) (ble m.payload 2 2) = some i →
      ∃ u, Answers (exec (.mdlAdapterUnload m) s) u 0x030C m stOK [] ∧
        ((x.aslot i).bound = 0 → (u.part p).aslot i = ASlot.reset) ∧
        ((x.aslot i).bound ≠ 0 → (u.part p).aslot i = { x.aslot i with state := .retiring, mapped := false }) ∧
        (∀ j, j ≠ i → (u.part p).aslot j = x.aslot j) ∧ u = { s with parts := u.parts })

/-- With its checks passed: TIR.CREATE with valid fields on a tier that is present and has room makes a new WRITING object of the size asked for and returns its ID, TIER_FULL where it has none; WRITE, READ, MEM.READ and MEM.WRITE whose own checks pass and whose length is not 0 go on in the background, READ counting one reader more; with length 0 they answer OK with no effect, and a failed check is answered; SEAL makes a WRITING object SEALED with its deadline; DELETE of a sealed object being read makes it EXPIRING, and of one that is not EXPIRING otherwise frees it; STATUS reports. An object of another partition is OBJECT_UNKNOWN. -/
def Obligations.TierAndMemoryMessagesAct : Prop :=
  ∀ (s : State) (m : Msg) (p id : Nat), p = mp s m → id = tirId m →
    (Serves s 0x0401 m → ∀ tier kind size, tier = ble m.payload 0 1 → kind = ble m.payload 1 1 → size = ble m.payload 8 8 →
      tier = 1 ∨ tier = 2 → kind = okWEIGHT ∨ kind = okHOST → size ≠ 0 → size ≤ 2 ^ 40 →
      (tierPresent s tier = false → Answers (exec (.tirCreate m) s) s 0x0401 m stUNIT_ABSENT []) ∧
      (tierPresent s tier = true → canCreate s p tier size = false → Answers (exec (.tirCreate m) s) s 0x0401 m stTIER_FULL []) ∧
      (canCreate s p tier size = true → ∃ u o, Answers (exec (.tirCreate m) s) u 0x0401 m stOK (leBytes 8 o) ∧ (u.obj o).present = true ∧
        (u.obj o).state = .writing ∧ (u.obj o).size = size ∧ (u.obj o).tier = tier ∧ (u.obj o).part = p ∧ (u.obj o).data = [] ∧
        (∀ j, j ≠ o → u.obj j = s.obj j) ∧ KeepsMemory s u)) ∧
    (Begins s 0x0402 m →
      (∀ st, tirFail s m true = some st → Answers (exec (.tirWrite m) s) s 0x0402 m st []) ∧
      (tirFail s m true = none → tirLen m = 0 → Answers (exec (.tirWrite m) s) s 0x0402 m stOK []) ∧
      (tirFail s m true = none → tirLen m ≠ 0 → InBackground (exec (.tirWrite m) s) s 0x0402 m 0)) ∧
    (Begins s 0x0403 m →
      (∀ st, tirFail s m false = some st → Answers (exec (.tirRead m) s) s 0x0403 m st []) ∧
      (tirFail s m false = none → tirLen m = 0 → Answers (exec (.tirRead m) s) s 0x0403 m stOK []) ∧
      (tirFail s m false = none → tirLen m ≠ 0 → ∃ u, InBackground (exec (.tirRead m) s) u 0x0403 m 0 ∧
        u.obj id = { s.obj id with readers := (s.obj id).readers + 1 } ∧ (∀ j, j ≠ id → u.obj j = s.obj j) ∧ u = { s with far := u.far })) ∧
    (Serves s 0x0404 m →
      (objOf s p id = false → Answers (exec (.tirSeal m) s) s 0x0404 m stOBJECT_UNKNOWN []) ∧
      (objOf s p id = true → (s.obj id).state = .sealedObj → Answers (exec (.tirSeal m) s) s 0x0404 m stOBJECT_SEALED []) ∧
      (objOf s p id = true → (s.obj id).state = .writing → ∃ u, Answers (exec (.tirSeal m) s) u 0x0404 m stOK [] ∧
        u.obj id = { s.obj id with state := .sealedObj, deadline := if (s.obj id).ttl = 0 then 0 else s.aon + (s.obj id).ttl } ∧
        (∀ j, j ≠ id → u.obj j = s.obj j) ∧ u = { s with far := u.far })) ∧
    (Serves s 0x0405 m →
      (objOf s p id = false → Answers (exec (.tirDelete m) s) s 0x0405 m stOBJECT_UNKNOWN []) ∧
      (objOf s p id = true → (s.obj id).state = .sealedObj → 0 < (s.obj id).readers → ∃ u, Answers (exec (.tirDelete m) s) u 0x0405 m stOK [] ∧
        u.obj id = { s.obj id with state := .expiring, afterDelete := true } ∧ (∀ j, j ≠ id → u.obj j = s.obj j) ∧ u = { s with far := u.far }) ∧
      (objOf s p id = true → (s.obj id).state ≠ .expiring → ¬((s.obj id).state = .sealedObj ∧ 0 < (s.obj id).readers) → Keyed s.far.objs →
        ∃ u, Answers (exec (.tirDelete m) s) u 0x0405 m stOK [] ∧ (u.obj id).present = false ∧ (∀ j, j ≠ id → u.obj j = s.obj j) ∧
          partExtents (u.part p) (s.obj id).tier = partExtents (s.part p) (s.obj id).tier - extents (s.obj id).size ∧ KeepsMemory s u)) ∧
    (Serves s 0x0406 m → objOf s p id = true → Answers (exec (.tirStatus m) s) s 0x0406 m stOK
      (leBytes 1 (match (s.obj id).state with | .writing => 0 | .sealedObj => 1 | .expiring => 2 | .damaged => 3) ++ leBytes 1 (s.obj id).kind ++ zeros 6 ++
        leBytes 8 (s.obj id).size ++ leBytes 8 (if (s.obj id).ttl = 0 then 0 else (s.obj id).deadline))) ∧
    (∀ code c, (code, c) ∈ [(0x0601, Instr.memRead m), (0x0602, .memWrite m)] → Begins s code m →
      (∀ st, memFail s m = some st → Answers (exec c s) s code m st []) ∧
      (memFail s m = none → memLen m = 0 → Answers (exec c s) s code m stOK []) ∧
      (memFail s m = none → memLen m ≠ 0 → InBackground (exec c s) s code m 0))

/-- A deferred command in progress ends, its response sent: PAR commands OK; PAR.CREATE with its bases; TIR.WRITE stores the host's bytes; TIR.READ of an object that reads clean sends its bytes to the host; MEM.READ of clean lines sends them, MEM.WRITE of free ones stores the host's bytes, no other byte of near memory changed; BUNDLE_LOAD that fails a check answers the check and changes nothing, one that passes them makes the bundle the model's own; GEN_SEAL seals and returns the 13 digests; ACTIVATE and CUTOVER answer what was decided; RELAY ends once every target has every chunk; SETTINGS_COMMIT that verifies puts the other bank in use under the next sequence number, and one that does not leaves the bank in use; LINK_PLAN ends once no changed link trains. -/
def Obligations.DeferredCommandsEnd : Prop :=
  ∀ (s : State) (path : Nat) (tag : Word32) (d : Deferred) (p : Nat), s.entry.oscDead = false → findDeferred s path tag = some d → p = mp s d.msg →
    (d.type = 0x0203 ∨ d.type = 0x0204 ∨ d.type = 0x0205 → ∀ h errs ok, Ends (exec (.deferredCommandDone path tag h errs ok) s) s d stOK []) ∧
    (d.type = 0x0201 → ∀ h errs ok, Ends (exec (.deferredCommandDone path tag h errs ok) s) s d stOK (leBytes 24 d.note)) ∧
    (d.type = 0x0402 → tirFail s d.msg true = none → ∀ b errs ok, b.length = tirLen d.msg →
      ∃ u, Ends (exec (.deferredCommandDone path tag ⟨b, none⟩ errs ok) s) u d stOK [] ∧
        (∀ i, i < b.length → objByte u (tirId d.msg) (tirOff d.msg + i) = (b[i]?).getD 0) ∧
        (∀ a, a < tirOff d.msg ∨ tirOff d.msg + b.length ≤ a → objByte u (tirId d.msg) a = objByte s (tirId d.msg) a) ∧
        (∀ j a, j ≠ tirId d.msg → objByte u j a = objByte s j a) ∧ KeepsMemory s u) ∧
    (d.type = 0x0403 → (s.obj (tirId d.msg)).present = true → (s.obj (tirId d.msg)).state ≠ .damaged → ∀ b errs,
      ∃ u, Ends (exec (.deferredCommandDone path tag ⟨b, none⟩ errs true) s) u d stOK [] ∧
        Out.dma (pathFn d.msg.path) (tirAddr d.msg) (objRead s (tirId d.msg) (tirOff d.msg) (tirLen d.msg)) ∈ u.out ∧
        (u.obj (tirId d.msg)).readers = (s.obj (tirId d.msg)).readers - 1 ∧ (∀ j a, objByte u j a = objByte s j a) ∧ KeepsMemory s u) ∧
    (∀ na n, na = memNear d.msg → n = memLen d.msg → memFail s d.msg = none →
      (d.type = 0x0601 → ReadsClean s p na n → ∀ b ok, ∃ u, Ends (exec (.deferredCommandDone path tag ⟨b, none⟩ [] ok) s) u d stOK [] ∧
        Out.dma (pathFn d.msg.path) (memAddr d.msg) (stackRead s (naStack na) (physOff s p na) n) ∈ u.out ∧ KeepsMemory s u) ∧
      (d.type = 0x0602 → WritesFree s p na n → heldLines s p [(na, n)] true = [] → ∀ b ok, b.length = n →
        ∃ u, Ends (exec (.deferredCommandDone path tag ⟨b, none⟩ [] ok) s) u d stOK [] ∧
          (∀ i, i < n → nearByte u (naStack na) (physOff s p na + i) = (b[i]?).getD 0) ∧
          StackExcept s u [(naStack na, physOff s p na, n)] ∧ u.cores = s.cores)) ∧
    (d.type = 0x0301 → ∀ b errs ok, b.length = ble d.msg.payload 8 4 →
      (∀ f, bundleFail s p b.length b = some f → Ends (exec (.deferredCommandDone path tag ⟨b, none⟩ errs ok) s) s d f.status
        (leBytes 8 (ble b 0x10 8) ++ leBytes 1 f.check ++ zeros 1 ++ leBytes 2 f.section_ ++ leBytes 4 f.off)) ∧
      (bundleFail s p b.length b = none → ∃ u, Ends (exec (.deferredCommandDone path tag ⟨b, none⟩ errs ok) s) u d stOK
          (leBytes 8 (bundleOf b).model ++ zeros 8) ∧
        bundleOf b ∈ (u.part p).bundles ∧ (∀ c ∈ (u.part p).bundles, c ≠ bundleOf b → c ∈ (s.part p).bundles ∧ c.model ≠ (bundleOf b).model) ∧
        (∀ c ∈ (s.part p).bundles, c.model ≠ (bundleOf b).model → c ∈ (u.part p).bundles) ∧ u = { s with parts := u.parts })) ∧
    (d.type = 0x0304 → ∀ g r, (s.part p).genRef? (ble d.msg.payload 0 2) = some g → sealFail g = none → makeCopies s p g = some r →
      ∀ h errs ok, ∃ u, Ends (exec (.deferredCommandDone path tag h errs ok) s) u d stOK (((List.range 13).map g.digest).flatMap digestBytes) ∧
        (∀ y ∈ (u.part p).gens, y.model = g.model → y.number = g.number → y.state = (if g.isStaged then .staged else .sealedGen) ∧
          y.digests = (List.range 13).map g.digest ∧ y.copies = r.2) ∧ (u.part p).gens.length = (s.part p).gens.length ∧ KeepsMemory s u) ∧
    (d.type = 0x0306 → d.note ≠ 0 → ∀ h errs ok, Ends (exec (.deferredCommandDone path tag h errs ok) s) s d (d.note - 1) []) ∧
    (d.type = 0x0307 → 1 < d.note → ∀ h errs ok, Ends (exec (.deferredCommandDone path tag h errs ok) s) s d (d.note - 1) []) ∧
    (d.type = 0x0307 → d.note = 1 → ∀ c, (s.part p).cut = some c → ∀ h errs ok,
      Ends (exec (.deferredCommandDone path tag h errs ok) s) s d 0 (leBytes 8 (c.cutLap.getD 0))) ∧
    (d.type = 0x0309 → ∀ r g, (s.part p).relay = some r → (s.part p).gen? r.model r.gen = some g →
      (∀ x ∈ r.targets, reachable s x.1 = true ∧ x.2.length = (relayChunks g r.images).length) → ∀ h errs ok,
      ∃ u, Ends (exec (.deferredCommandDone path tag h errs ok) s) u d stOK
          ((List.range 3).flatMap fun i => leBytes 4 (nth (0, []) r.targets i).2.length) ∧
        u.part p = { s.part p with relay := none } ∧ u = { s with parts := u.parts }) ∧
    (d.type = 0x0104 → ∀ st rest, s.boot.commits = (d.msg.path, d.msg.tag, st) :: rest →
      (s.settings.seq < 0xFFFFFFFF → ∀ h errs, ∃ u, Ends (exec (.deferredCommandDone path tag h errs true) s) u d stOK
          (leBytes 1 (commitBank s) ++ zeros 3 ++ leBytes 4 (s.settings.seq + 1)) ∧
        u.settings.src = commitBank s + 1 ∧ u.settings.seq = s.settings.seq + 1 ∧ u.settings.run = s.settings.run ∧ u.boot.commits = rest ∧
        norRead u (bankAt (commitBank s)) (64 + 16 * (commitEntries s st).length) = sealBank (s.settings.seq + 1) s.pkg.serial (commitEntries s st)) ∧
      (∀ h errs, ∃ u, Ends (exec (.deferredCommandDone path tag h errs false) s) u d stCOMMIT_FAILED [] ∧ u.settings = s.settings ∧
        u.boot.commits = rest)) ∧
    (d.type = 0x0801 → (∀ e ∈ s.fab.links, e.2.changing = false) → ∀ h errs ok, ∃ u, Ends (exec (.deferredCommandDone path tag h errs ok) s) u d stOK [] ∧
      (∀ l, (u.link l).state = (s.link l).state) ∧ u = { s with fab := u.fab })

/-- Each message row is the command of its code. CMD_SLOT_TAKE of the function whose turn it is gives its slot back, moves CMD_HEAD on, changes no other byte of the SRAM and runs the command the slot holds; SIDEBAND_MESSAGE in RUN runs its command. A response to an enabled function with an empty backlog and a free slot is one header and payload at EVT_TAIL. EVT_SLOT_RETURN clears the slot's CTRL, or posts the one backlogged part that waits for it. An interval that ends fires the vector that waits, or ends coalescing. FLR ends the function's open requests withheld with FUNCTION_RESET, empties its rings and leaves no slot of its partition running; HOT_RESET does so for every enabled function; VF_DISABLE disables the functions above NumVFs, VF_ENABLE enables those up to it. A trained host link is noted with its width, rate and whether it is degraded. -/
def Obligations.HostPortEventsAct : Prop :=
  (∀ (s : State) (m : Msg), s.entry.oscDead = false → ∀ e ∈ messageRows, exec (e.1 m) s = .next (settle (command s e.2 m))) ∧
  (∀ (s : State) (f code : Nat) (tag : Word32) (st : Nat) (l : List Byte), s.entry.oscDead = false → f < 16 → (s.fn f).enabled = true →
    (s.fn f).backlog = [] → slotOwn (s.fn f) (evtHdr (s.fn f).evtTail) = false → l.length ≤ 4096 → (s.fn f).evtTail < 256 →
    ∀ u, u = respond s f code tag st l → (u.fn f).evtTail = ((s.fn f).evtTail + 1) % 256 ∧
      (∀ i, i < l.length → sramByte u f (evtPay (s.fn f).evtTail + i) = (l[i]?).getD 0) ∧
      (∀ i, i < 64 → sramByte u f (evtHdr (s.fn f).evtTail + i) = ((evtHeader ⟨code, tag, st, true, l⟩ false l.length s.aon)[i]?).getD 0) ∧
      (∀ g, g ≠ f → u.fn g = s.fn g) ∧ KeepsMemory s u) ∧
  (∀ (s : State) (f : Nat) (host : HostReply) (a : Nat) (h : List Byte), takesCommands s = true → nextFn s = some f → Keyed (s.fn f).sram →
    a = cmdHdr (s.fn f).cmdHead → h = mread 0 (s.fn f).sram a 64 →
    ∃ u, exec (.cmdSlotTake f host) s = .next (settle (command u (hdrType h)
        (headerMsg f h (mread 0 (s.fn f).sram (cmdPay (s.fn f).cmdHead) (ble h 6 2)) host))) ∧
      (u.fn f).cmdHead = ((s.fn f).cmdHead + 1) % 256 ∧ sramByte u f a = sramByte s f a &&& 0xFE ∧
      (∀ b, b ≠ a → sramByte u f b = sramByte s f b) ∧ (∀ g, g ≠ f → u.fn g = s.fn g) ∧ u.srv = s.srv ∧ KeepsMemory s u) ∧
  (∀ (s : State) (hdr l : List Byte), hdr.length = 64 → l.length = ble hdr 6 2 → s.entry.oscDead = false → s.captHalted 0 = false →
    s.mbx.ready = true → s.power.stewardOn = true →
    (s.power.state = .run → exec (.sidebandMessage hdr l) s = .next (settle (command s (hdrType hdr) (headerMsg 16 hdr l ⟨[], none⟩)))) ∧
    (s.power.state ≠ .run → s.power.state ≠ .dormant →
      exec (.sidebandMessage hdr l) s = .next (settle (command (lapseReady (wakeRun s)) (hdrType hdr) (headerMsg 16 hdr l ⟨[], none⟩))))) ∧
  (∀ (s : State) (f k : Nat), hostReaches s f = true → k < 256 → slotOwn (s.fn f) (evtHdr k) = true → Keyed (s.fn f).sram →
    ((s.fn f).backlog = [] → ∃ t, exec (.evtSlotReturn f k) s = .next t ∧ sramByte t f (evtHdr k) = 0 ∧
      (∀ b, b ≠ evtHdr k → sramByte t f b = sramByte s f b) ∧ (∀ g, g ≠ f → t.fn g = s.fn g) ∧ t = { s with mbx := t.mbx }) ∧
    (∀ e, (s.fn f).backlog = [e] → (s.fn f).evtTail = k → ∃ t, exec (.evtSlotReturn f k) s = .next t ∧ (t.fn f).backlog = [] ∧
      (t.fn f).evtTail = (k + 1) % 256 ∧ slotOwn (t.fn f) (evtHdr k) = true ∧ (∀ g, g ≠ f → t.fn g = s.fn g) ∧ KeepsMemory s t)) ∧
  (∀ (s : State) (f v : Nat) (q : Nat × Nat × Bool), (s.fn f).enabled = true → s.entry.oscDead = false → (s.fn f).coal.find? (fun e => e.1 == v) = some q →
    q.2.1 + usAon (s.fn f).coalUs ≤ s.aon → Keyed (s.fn f).coal →
    (q.2.2 = true → msixMasked (s.fn f) v = false → ∃ t, exec (.coalInterval f v) s = .next t ∧ t.out = s.out ++ [.msix f v] ∧
      tget (0, true) (t.fn f).coal v = (s.aon, false) ∧ (∀ g, g ≠ f → t.fn g = s.fn g) ∧ KeepsMemory s t) ∧
    (q.2.2 = false → ∃ t, exec (.coalInterval f v) s = .next t ∧ ((t.fn f).coal.find? fun e => e.1 == v) = none ∧ t.out = s.out ∧
      (∀ g, g ≠ f → t.fn g = s.fn g) ∧ KeepsMemory s t)) ∧
  (∀ (s : State) (f : Nat), Settled s → hostReaches s f = true → (s.fn f).backlog = [] →
    ∃ t, exec (.flr f) s = .next t ∧ (t.fn f).enabled = true ∧ (t.fn f).cmdHead = 0 ∧ (t.fn f).evtTail = 0 ∧ (t.fn f).sram = Fn.reset.sram ∧
      (∀ i, (s.req i).isOpen = true → (s.req i).mirror = false → (s.req i).fn = f →
        (t.req i).state = .ended ∧ (t.req i).status = stFUNCTION_RESET ∧ (t.req i).withheld = true) ∧
      (∀ p c k, fnPart s f = some p → bit (s.part p).rows (starterOf c) = true → k < 4 →
        (t.slot c k).state = .bound ∨ (t.slot c k).state = .unbound) ∧ ∀ d a, nearByte t d a = nearByte s d a) ∧
  (∀ s : State, Settled s → portUp s = true →
    (∃ t, exec .hotReset s = .next t ∧ (∀ f, f < 16 → (s.fn f).enabled = true → (t.fn f).enabled = true ∧ (t.fn f).cmdHead = 0) ∧
      (∀ i, (s.req i).isOpen = true → (s.req i).mirror = false → (s.req i).fn < 16 → (s.fn (s.req i).fn).enabled = true → (t.req i).state = .ended) ∧
      ∀ d a, nearByte t d a = nearByte s d a) ∧
    (∀ n, ∃ t, exec (.vfDisable n) s = .next t ∧ (∀ f, n < f → f < 16 → (t.fn f).enabled = false) ∧
      (∀ f, f ≤ n → f < 16 → (t.fn f).enabled = (s.fn f).enabled) ∧
      (∀ i, (s.req i).isOpen = true → (s.req i).mirror = false → n < (s.req i).fn → (s.req i).fn < 16 → (s.fn (s.req i).fn).enabled = true →
        (t.req i).state = .ended) ∧ ∀ d a, nearByte t d a = nearByte s d a) ∧
    (∀ n, n ≤ 15 → ∃ t, exec (.vfEnable n) s = .next t ∧ (∀ f, 1 ≤ f → f ≤ n → t.fn f = { s.fn f with enabled := true }) ∧
      (∀ f, f = 0 ∨ n < f → t.fn f = s.fn f) ∧ t = { s with mbx := t.mbx }) ∧
    ∀ w r, ∃ t, exec (.hostLinkTrained w r) s = .next t ∧ t.mbx.linkWidth = w ∧ t.mbx.linkRate = r ∧ t.mbx.degraded = decide (r < 64 ∨ w < 8) ∧
      t.far = s.far ∧ KeepsMemory s t)

/-- A usable link that is DOWN begins TRAINING on a signal, or when its retry is due; locked in time it enters IDENTIFY, on two lanes or all, and sends its identity; past TRAIN_MS it is DOWN, counted, to be retried after 100 ms. An identity that meets R435 brings it UP, DEGRADED on two lanes, with its peer and its sequence numbers restarted; one that does not leaves it DOWN and MISWIRED, identified again after 1 s. A fault takes an UP or DEGRADED link DOWN, counted, its resync begun; the loss of one lane makes an UP link train again. None of these changes another link's state. A flit that fails is NAKed and not taken; a good one in order is taken, one out of order is not. The first three NAKs of a flit send every flit from it on again; the fourth takes the link DOWN. -/
def Obligations.LinksTrainAndReplay : Prop :=
  ∀ (s : State) (l : Nat) (k : Link), k = s.link l → s.entry.oscDead = false →
    (linkUsable s l = true → k.state = .down →
      (∃ t, exec (.linkSignalDetect l) s = .next t ∧ t.link l = { k with state := .training, since := s.aon, retryAt := 0 } ∧
        (∀ j, j ≠ l → t.link j = s.link j) ∧ t = { s with fab := t.fab }) ∧
      (k.miswired = false → k.retryAt ≠ 0 → k.retryAt ≤ s.aon → ∃ t, exec (.trainRetry l) s = .next t ∧
        t.link l = { k with state := .training, since := s.aon, retryAt := 0 } ∧ (∀ j, j ≠ l → t.link j = s.link j) ∧ t = { s with fab := t.fab }) ∧
      (k.miswired = true → k.retryAt ≤ s.aon → ∃ t, exec (.identifyRetry l) s = .next t ∧ (t.link l).state = .identify ∧ (t.link l).twoLane = k.twoLane ∧
        t.out = s.out ++ [.ident l (ownIdent s l)] ∧ (∀ j, j ≠ l → t.link j = s.link j))) ∧
    (l < 36 → k.state = .training →
      (s.aon < k.since + trainTime s → ∀ lanes, ∃ t, exec (.linkLock l lanes) s = .next t ∧
        t.link l = { k with state := .identify, twoLane := lanes != .all, since := s.aon, retryAt := 0, changing := false } ∧
        t.out = s.out ++ [.ident l (ownIdent s l)] ∧ (∀ j, j ≠ l → t.link j = s.link j)) ∧
      (k.since + trainTime s ≤ s.aon → ∃ t, exec (.trainTimeout l) s = .next t ∧
        t.link l = { k with state := .down, downs := min 255 (k.downs + 1), since := s.aon, retryAt := s.aon + msAon 100, changing := false } ∧
        (∀ j, j ≠ l → t.link j = s.link j) ∧ t = { s with fab := t.fab })) ∧
    (l < 36 → k.state = .identify → ∀ i,
      (identOk s l i = true → ∃ t, exec (.linkIdentify l i) s = .next t ∧ (t.link l).state = (if k.twoLane then .degraded else .up) ∧
        (t.link l).peer = i.node ∧ (t.link l).peerLink = i.link ∧ (t.link l).miswired = false ∧ (t.link l).rxSeq = 4095 ∧
        (∀ j, j ≠ l → (t.link j).state = (s.link j).state)) ∧
      (identOk s l i = false → ∃ t, exec (.linkIdentify l i) s = .next t ∧
        t.link l = { k with state := .down, miswired := true, downs := min 255 (k.downs + 1), since := s.aon, retryAt := s.aon + msAon 1000 } ∧
        (∀ j, j ≠ l → t.link j = s.link j) ∧ t = { s with fab := t.fab })) ∧
    (l < 36 → k.state = .up ∨ k.state = .degraded →
      (∃ t, exec (.linkFault l) s = .next t ∧ (t.link l).state = .down ∧ (t.link l).downs = min 255 (k.downs + 1) ∧ (t.link l).resync = some s.aon ∧
        (∀ j, j ≠ l → (t.link j).state = (s.link j).state)) ∧
      (∀ f : Flit, f.crcOk = false ∨ f.fecBad = true → ∃ t, exec (.flitReceive l f) s = .next t ∧ (t.link l).rxSeq = k.rxSeq ∧
        (t.link l).replays = min 65535 (k.replays + 1) ∧ t.out = s.out ++ [.flitCtl l k.rxSeq true] ∧ (∀ j, j ≠ l → t.link j = s.link j)) ∧
      (∀ f : Flit, f.crcOk = true → f.fecBad = false → f.nak = false → f.vc ≠ 7 → ∃ t, exec (.flitReceive l f) s = .next t ∧
        (t.link l).state = k.state ∧ (t.link l).rxSeq = (if f.seq = (k.rxSeq + 1) % 4096 then f.seq else k.rxSeq) ∧
        (t.link l).replay = k.replay.filter (fun e => decide (2048 ≤ seqDist e.1 f.ack)) ∧ (∀ j, j ≠ l → t.link j = s.link j)) ∧
      (∀ q n, q < 4096 → n = (if k.replaysOf / 8 = q then k.replaysOf % 8 + 1 else 1) →
        (n < 4 → ∃ t, exec (.flitNak l q) s = .next t ∧ (t.link l).state = k.state ∧ (t.link l).replays = min 65535 (k.replays + 1) ∧
          (∀ e ∈ k.replay, 2048 ≤ seqDist e.1 ((q + 4095) % 4096) → Out.flit l { e.2 with ack := k.rxSeq } ∈ t.out) ∧ (∀ j, j ≠ l → t.link j = s.link j)) ∧
        (4 ≤ n → ∃ t, exec (.flitNak l q) s = .next t ∧ (t.link l).state = .down))) ∧
    (l < 36 → k.state = .up → ∀ i, i < 4 → ∃ t, exec (.laneLoss l i) s = .next t ∧ (t.link l).state = .training ∧ (t.link l).since = s.aon ∧
      (∀ j, j ≠ l → (t.link j).state = (s.link j).state))

/-- A link-state record no newer than the one kept changes nothing; a newer one fills each role it names under a higher epoch, and fences a paired package that holds such a role. A reflood sends this package's own record with the next sequence number. An aged record leaves the database. At a resync every later flit is sent again on the backup link; past 3 µs none is. A packet for another node goes on one hop further, or is dropped and counted at 8 hops; one for a role held elsewhere is forwarded once and counted. A CTL packet already seen does nothing, a new one is noted. A firmware message from the twin has its effect and is answered DONE. -/
def Obligations.FabricRoutesAndFloods : Prop :=
  ∀ s : State, s.entry.oscDead = false →
    (∀ r : LsRecord, r.node < 256 → ¬(r.node = s.fab.node ∧ r.serial = s.pkg.serial) →
      (∀ o, (s.fab.db.find? fun e => e.1.node == r.node && e.1.serial == r.serial) = some o → r.seq ≤ o.1.seq →
        exec (.linkStateRecord r) s = .next s) ∧
      ((∀ o, (s.fab.db.find? fun e => e.1.node == r.node && e.1.serial == r.serial) = some o → o.1.seq < r.seq) →
        ∃ t, exec (.linkStateRecord r) s = .next t ∧ (∀ e ∈ t.fab.db, e = (r, s.aon) ∨ e ∈ s.fab.db) ∧
          ((r.roles.map (·.1)).Nodup → ∀ e ∈ r.roles, s.roleEpoch e.1 < e.2 → t.roleEpoch e.1 = e.2 ∧ t.roleNode e.1 = some r.node) ∧
          ((∃ e ∈ r.roles, s.hasRole e.1 = true ∧ s.roleEpoch e.1 < e.2) → s.twin.state ≠ .unpaired → t.twin.fenced = true) ∧
          (∀ o, (s.fab.db.find? fun e => e.1.node == r.node && e.1.serial == r.serial) = some o → o.1.links = r.links → (r, s.aon) ∈ t.fab.db))) ∧
    (s.fab.refloodAt + msAon 10 ≤ s.aon → ownLinks s ≠ [] → ∃ t r, exec .recordReflood s = .next t ∧ Tells t .all (.linkState r) ∧
      r.node = s.fab.node ∧ r.seq = s.fab.ownSeq + 1 ∧ r.links = (ownRecord s).links ∧ t.fab.ownSeq = s.fab.ownSeq + 1 ∧ t.fab.refloodAt = s.aon ∧
      KeepsMemory s t) ∧
    (∀ n, (∃ e ∈ s.fab.db, e.1.node = n ∧ e.2 + msAon 50 ≤ s.aon) → ∃ t, exec (.recordAgeOut n) s = .next t ∧
      ∀ e ∈ t.fab.db, e ∈ s.fab.db ∧ ¬(e.1.node = n ∧ e.2 + msAon 50 ≤ s.aon)) ∧
    (∀ l a u, (s.link l).resync = some u →
      (s.aon < u + usAon 3 → ∃ t, exec (.linkResync l a) s = .next t ∧ (t.link l).resync = none ∧ KeepsMemory s t ∧
        ∀ s1 b, s1 = s.setLink l { s.link l with resync := none, replay := [] } → backupLink s1 (s.link l).peer = some b →
          ∀ e ∈ (ackFlits (s.link l) a).replay, ∃ f, Out.flit b f ∈ t.out ∧ f.payload = e.2.payload) ∧
      (u + usAon 3 ≤ s.aon → ∃ t, exec (.resyncTimeout l) s = .next t ∧ (t.link l).resync = none ∧ (t.link l).replay = [] ∧ t.out = s.out ∧
        (∀ j, j ≠ l → t.link j = s.link j) ∧ KeepsMemory s t)) ∧
    (∀ p : Packet, takesFrom s p.src = true →
      (p.dst ≠ s.fab.node → 8 ≤ p.hops → ∃ t, exec (.packetRoute p) s = .next t ∧ t.fab.hopDrop = min 65535 (s.fab.hopDrop + 1) ∧ t.out = s.out) ∧
      (p.dst ≠ s.fab.node → p.hops < 8 → s.fab.conflict.contains p.dst = false → p.nm = false →
        (chooseHop s p.dst p.src (flowKey p)).isSome = true → ∃ t q, exec (.packetRoute p) s = .next t ∧ Out.packet q ∈ t.out ∧ q.hops = p.hops + 1 ∧
          q.dst = p.dst ∧ q.src = p.src ∧ q.type = p.type ∧ q.data = p.data ∧ q.args = p.args ∧ KeepsMemory s t) ∧
      (∀ n, p.dst = s.fab.node → p.role = true → s.hasRole p.dstRole = false → p.fwd = false → s.roleNode p.dstRole = some n → p.hops < 8 →
        s.fab.conflict.contains n = false → p.nm = false → (chooseHop s n p.src (flowKey p)).isSome = true →
        ∃ t q, exec (.packetRoute p) s = .next t ∧ Out.packet q ∈ t.out ∧ q.dst = n ∧ q.fwd = true ∧ q.data = p.data ∧
          t.fab.roleFwd = min 65535 (s.fab.roleFwd + 1))) ∧
    (Settled s → ∀ src q b code l,
      (takesFrom s src = false ∨ s.fab.seen.contains (src, q) = true → exec (.ctlMsg src q b code l) s = .next s) ∧
      (takesFrom s src = true → s.fab.seen.contains (src, q) = false → code ≠ ctlEnd → code ≠ ctlProbeReply →
        ∃ t, exec (.ctlMsg src q b code l) s = .next t ∧ t.fab.seen = (src, q) :: s.fab.seen ∧ t.srv = s.srv ∧ KeepsMemory s t)) ∧
    (Settled s → ∀ p : Packet, p.type = pkFW → p.dst = s.fab.node → takesFrom s p.src = true → p.role = false →
      (ble p.args 0 2 = 2 → s.twinNode = some p.src → ble p.args 4 8 < 4096 → ∃ t, exec (.fwPacket p) s = .next t ∧
        (t.tenant (ble p.args 4 8)).refill = ble p.data 0 4 ∧ (t.tenant (ble p.args 4 8)).winUs = ble p.data 4 4 ∧
        (t.tenant (ble p.args 4 8)).cap = ble p.data 8 8 ∧
        ((chooseHop s p.src s.fab.node p.pseq).isSome = true →
          ∃ q, Out.packet q ∈ t.out ∧ q.type = pkDONE ∧ q.dst = p.src ∧ q.pseq = p.pseq) ∧ KeepsMemory s t) ∧
      (ble p.args 0 2 = 4 → ∃ t, exec (.fwPacket p) s = .next t ∧ (t.map (ble p.args 4 8)).present = false ∧
        (t.map (ble p.args 4 8)).record = (s.map (ble p.args 4 8)).record ∧ KeepsMemory s t) ∧
      (ble p.args 0 2 = 5 → ∃ t, exec (.fwPacket p) s = .next t ∧ (t.map (ble p.args 4 8)).record = none ∧ KeepsMemory s t))

/-- A request for a shared line with nothing in progress and room in its set is granted: DATA leaves, carrying the line where it was asked for, and the directory holds the line for the twin in S or M. In a full set the entry allocated least recently is recalled first; behind a transaction of its own line a request queues. An ACK with NODATA changes nothing; an answering ACK ends the directory's entry and applies the write that waited. A WB ends the entry, stores the line with its poison and is answered WB_ACK; an EVICT ends it and stores nothing. At the line cache DATA grants what was asked for and lets the waiting transactions go on; INV and RECALL take the line and answer ACK or WB, and ACK with NODATA where the line is not so held; WB_ACK ends an eviction. No other line's entry or copy changes, and no other byte of memory. -/
def Obligations.DirectoryAndLineCacheExchange : Prop :=
  ∀ s : State, s.entry.oscDead = false →
    (∀ l d x p na, homeLine s l = some (d, x) → lineOwner s d x = some (p, na) → cohLine p na = l → mapShare (mapWord s p d) = true →
      mapShare (mapWord s (cohPart l) d) = true →
      (lineWaits s d x = none → ((dirOf s d x).held = true ∨ (dirSet s d x).length < 16) → ∀ errs, Correctable errs →
        (∃ t, exec (.rdS l errs) s = .next t ∧ t.out = s.out ++ [.coh (.data l false (tget false (s.bdie d).poison x) (some (stackRead s d (x * 64) 64)))] ∧
          (dirOf t d x).held = true ∧ (dirOf t d x).modified = false ∧ (∀ d' x', d' ≠ d ∨ x' ≠ x → dirOf t d' x' = dirOf s d' x') ∧ KeepsMemory s t) ∧
        ∀ need, ∃ t, exec (.rdM l need errs) s = .next t ∧
          t.out = s.out ++ [.coh (.data l true (need && tget false (s.bdie d).poison x) (if need then some (stackRead s d (x * 64) 64) else none))] ∧
          (dirOf t d x).held = true ∧ (dirOf t d x).modified = true ∧ (∀ d' x', d' ≠ d ∨ x' ≠ x → dirOf t d' x' = dirOf s d' x') ∧ KeepsMemory s t) ∧
      (lineWaits s d x = none → (dirOf s d x).held = false → 16 ≤ (dirSet s d x).length → ∀ errs,
        ∃ o ∈ dirSet s d x, (∀ e ∈ dirSet s d x, o.2.order ≤ e.2.order) ∧
          (∃ t, exec (.rdS l errs) s = .next t ∧ lineWaits t d o.1 = some ((lineWaits s d o.1).getD [] ++ [.evictFor x false true]) ∧
            (∀ d' x', dirOf t d' x' = dirOf s d' x') ∧ KeepsMemory s t) ∧
          ∀ need, ∃ t, exec (.rdM l need errs) s = .next t ∧ lineWaits t d o.1 = some ((lineWaits s d o.1).getD [] ++ [.evictFor x true need]) ∧
            (∀ d' x', dirOf t d' x' = dirOf s d' x') ∧ KeepsMemory s t) ∧
      (∀ jobs, lineWaits s d x = some jobs → ∀ errs need,
        (∃ t, exec (.rdS l errs) s = .next t ∧ lineWaits t d x = some (jobs ++ [.rdS]) ∧ t.out = s.out ∧ (∀ d' x', dirOf t d' x' = dirOf s d' x') ∧ KeepsMemory s t) ∧
        ∃ t, exec (.rdM l need errs) s = .next t ∧ lineWaits t d x = some (jobs ++ [.rdM need]) ∧ t.out = s.out ∧ (∀ d' x', dirOf t d' x' = dirOf s d' x') ∧
          KeepsMemory s t)) ∧
    (∀ l d x, homeLine s l = some (d, x) → Keyed (s.bdie d).dir → Keyed (s.bdie d).poison →
      exec (.cohAck l true) s = .next s ∧
      (lineWaits s d x = none → exec (.cohAck l false) s = .next s) ∧
      (∀ off data poison, lineWaits s d x = some [.write off data poison] → data.length ≤ 64 →
        ∃ t, exec (.cohAck l false) s = .next t ∧ (dirOf t d x).held = false ∧ lineWaits t d x = none ∧
          (∀ i, i < data.length → nearByte t d (x * 64 + off + i) = nth 0 data i) ∧ StackExcept s t [(d, x * 64 + off, data.length)] ∧
          (∀ d' x', d' ≠ d ∨ x' ≠ x → dirOf t d' x' = dirOf s d' x')) ∧
      ((dirOf s d x).held = true → (lineWaits s d x = none ∨ lineWaits s d x = some [.read]) → ∀ poison data, data.length = 64 →
        ∃ t, exec (.wb l poison data) s = .next t ∧ (dirOf t d x).held = false ∧ Out.coh (.wbAck l) ∈ t.out ∧ tget false (t.bdie d).poison x = poison ∧
          (∀ i, i < 64 → nearByte t d (x * 64 + i) = nth 0 data i) ∧ StackExcept s t [(d, x * 64, 64)] ∧
          (∀ d' x', d' ≠ d ∨ x' ≠ x → dirOf t d' x' = dirOf s d' x')) ∧
      ((dirOf s d x).held = true → lineWaits s d x = none → ∃ t, exec (.evict l) s = .next t ∧ (dirOf t d x).held = false ∧ t.out = s.out ∧
        (∀ d' x', d' ≠ d ∨ x' ≠ x → dirOf t d' x' = dirOf s d' x') ∧ KeepsMemory s t) ∧
      ((dirOf s d x).held = false → exec (.evict l) s = .next s)) ∧
    (Keyed s.fab.lines → ∀ l k, k = s.cline l →
      (k.asking = false → ∀ m poison data, exec (.cohData l m poison data) s = .next s) ∧
      (k.asking = true → ∀ m poison data, (k.state ≠ .I ∨ data.isSome = true) →
        ∃ u, exec (.cohData l m poison data) s = .next (advanceAll u) ∧ (u.cline l).asking = false ∧ (u.cline l).state = (if m then .M else .S) ∧
          (u.cline l).data = data.getD k.data ∧ (u.cline l).poison = (if data.isSome then poison else k.poison) ∧
          (∀ j, j ≠ l → u.cline j = s.cline j) ∧ u = { s with fab := u.fab }) ∧
      (k.asking = true → k.state = .I → k.data = [] → (∀ e ∈ s.fab.txns, e.2.cached = false) → ∀ poison, ∃ t, exec (.cohData l true poison none) s = .next t ∧
        t.cline l = CacheLine.reset ∧ t.out = s.out ++ [.coh (.evict l)] ∧ (∀ j, j ≠ l → t.cline j = s.cline j) ∧ KeepsMemory s t) ∧
      (k.state = .S → k.asking = false → ∃ t, exec (.inv l) s = .next t ∧ t.cline l = CacheLine.reset ∧ t.out = s.out ++ [.coh (.ack l false)] ∧
        (∀ j, j ≠ l → t.cline j = s.cline j) ∧ KeepsMemory s t) ∧
      (k.state ≠ .S → ∃ t, exec (.inv l) s = .next t ∧ t = { s with out := s.out ++ [.coh (.ack l true)] }) ∧
      (k.state = .M → ∃ t, exec (.recall l) s = .next t ∧ t.cline l = CacheLine.reset ∧ t.out = s.out ++ [.coh (.wb l k.poison k.data)] ∧
        (∀ j, j ≠ l → t.cline j = s.cline j) ∧ KeepsMemory s t) ∧
      (k.state ≠ .M → ∃ t, exec (.recall l) s = .next t ∧ t = { s with out := s.out ++ [.coh (.ack l true)] }) ∧
      (k.evicting = true → ∃ u, exec (.wbAck l) s = .next (advanceAll u) ∧ u.cline l = CacheLine.reset ∧ (∀ j, j ≠ l → u.cline j = s.cline j) ∧
        u = { s with fab := u.fab }) ∧
      (k.evicting = false → exec (.wbAck l) s = .next s))

/-- Roles of one pair with equal values form the pair, or begin a rejoin where the twin is SINGLE; unequal ones set PAIR_ERR, retried every second. A heartbeat leaves on every twin link when due; one that arrives ends a suspicion, a probe and ISOLATED; silence past HB_MISS_US suspects the twin and probes it through the witness. A probed package replies; a witness forwards the probe, and answers DEAD past half of PROBE_US. No answer within PROBE_US sets ISOLATED. ALIVE ends the probe and nothing else; DEAD or TWIN_YIELD declares the twin lost: SINGLE, the node fenced, each of its roles taken under the next epoch and broadcast, every directory and the line cache cleared. ROLE_MOVE under a higher epoch moves the role, fences the old node and rewrites the channels that named it; one that names this package as the old node fences it and orders a warm reset. -/
def Obligations.TwinsPairBeatAndFailOver : Prop :=
  ∀ s : State, s.entry.oscDead = false →
    (∀ i : PairInfo, s.twinNode = some i.node → ∃ t, exec (.pair i) s = .next t ∧ t = { s with twin := t.twin, fab := t.fab, out := t.out } ∧
      (s.twin.state = .unpaired → rolesPair s.fab.ownRole i.role = true → i.values = pairValues s →
        (i.state = 0 → t.twin.state = .paired ∧ t.twin.pairErr = false ∧ t.twin.hbSeenAt = s.aon ∧ Tells t (.node i.node) (.pair (ownPair s))) ∧
        (i.state = 2 → t.twin.state = .rejoining ∧ t.twin.pairErr = false ∧ Tells t (.node i.node) .joinReq)) ∧
      (s.twin.state = .unpaired → (rolesPair s.fab.ownRole i.role = false ∨ i.values ≠ pairValues s) →
        t.twin.state = .unpaired ∧ t.twin.pairErr = true ∧ t.out = s.out) ∧
      (s.twin.state = .paired → t.twin.state = .paired ∧ (i.values = pairValues s → t.twin.pairErr = false) ∧
        (i.values ≠ pairValues s → t.twin.pairErr = true))) ∧
    (∀ n, s.twinNode = some n → s.twin.pairErr = true → s.twin.pairRetryAt + msAon 1000 ≤ s.aon → ∃ t, exec .pairRetry s = .next t ∧
      Tells t (.node n) (.pair (ownPair s)) ∧ t.twin = { s.twin with pairRetryAt := s.aon } ∧ t = { s with twin := t.twin, fab := t.fab, out := t.out }) ∧
    (∀ n, s.twinNode = some n → s.twin.hbSentAt + usAon (s.cfg 0x0901) ≤ s.aon → twinLinks s ≠ [] → s.captHalted 5 = false →
      ∃ t, exec .heartbeatSend s = .next t ∧ t.out.length = s.out.length + (twinLinks s).length ∧
        (∀ o ∈ t.out, o ∈ s.out ∨ ∃ k, o = .fw k (.node n) .heartbeat) ∧ t.twin = { s.twin with hbSentAt := s.aon } ∧
        t = { s with twin := t.twin, fab := t.fab, out := t.out }) ∧
    (Settled s → ∀ l, l ∈ twinLinks s → takesFrom s (s.link l).peer = true → ∃ t, exec (.heartbeat l) s = .next t ∧ t.twin.hbSeenAt = s.aon ∧
      t.twin.suspected = false ∧ t.twin.probeAt = none ∧ t.twin.isolated = false ∧ KeepsMemory s t ∧
      (s.twin.isolated = false → t = { s with twin := t.twin })) ∧
    (s.twin.hbSeenAt + usAon (s.cfg 0x0902) ≤ s.aon → s.power.resting = false → (s.twin.state = .paired ∨ s.twin.state = .rejoining) →
      s.twin.probeAt = none → s.twin.fenced = false → ∃ t, exec .hbMissExpiry s = .next t ∧
        t.twin = { s.twin with suspected := true, probeAt := some s.aon } ∧ t = { s with twin := t.twin, fab := t.fab, out := t.out } ∧
        ∀ w n, witnessOf s = some w → s.twinNode = some n → Tells t (.node w) (.probe n)) ∧
    (∀ src, takesFrom s src = true → (∃ t, exec (.probe src s.fab.node) s = .next t ∧ Tells t (.node src) .probeReply ∧ t = { s with fab := t.fab, out := t.out }) ∧
      ∀ n, n ≠ s.fab.node → ∃ t, exec (.probe src n) s = .next t ∧ Tells t (.node n) (.probe n) ∧ t.twin.witness = s.twin.witness ++ [(src, n, s.aon)] ∧
        t = { s with twin := t.twin, fab := t.fab, out := t.out }) ∧
    (∃ t, exec .probeReplyTimeout s = .next t ∧ t = { s with twin := t.twin, fab := t.fab, out := t.out } ∧
      (∀ w ∈ s.twin.witness, w.2.2 + usAon (s.cfg 0x0903) / 2 ≤ s.aon → Tells t (.node w.1) (.probeAnswer false) ∧ w ∉ t.twin.witness) ∧
      ∀ w ∈ s.twin.witness, s.aon < w.2.2 + usAon (s.cfg 0x0903) / 2 → w ∈ t.twin.witness) ∧
    (∀ u, s.twin.probeAt = some u → u + usAon (s.cfg 0x0903) ≤ s.aon →
      exec .probeNoAnswer s = .next { s with twin := { s.twin with isolated := true, probeAt := none } }) ∧
    (Settled s → ∀ src, s.twin.probeAt.isSome = true → takesFrom s src = true →
      exec (.probeAnswer src true) s = .next { s with twin := { s.twin with probeAt := none } }) ∧
    (Settled s → Keyed s.fab.roles → ∀ n, s.twinNode = some n → s.twin.isolated = false → s.twin.fenced = false →
      (s.twin.state = .paired ∨ s.twin.state = .rejoining) → ∀ c : Instr,
      (c = .twinYield n ∨ ∃ src, c = .probeAnswer src false ∧ s.twin.probeAt.isSome = true ∧ takesFrom s src = true) →
      ∃ t, exec c s = .next t ∧ t.twin.state = .single ∧ t.twin.failovers = s.twin.failovers + 1 ∧ n ∈ t.twin.fence ∧
        (∀ r ∈ twinRoles s n, t.roleNode r = some s.fab.node ∧ t.roleEpoch r = s.roleEpoch r + 1 ∧
          Tells t .all (.roleMove r n s.fab.node (s.roleEpoch r + 1))) ∧
        t.fab.lines = [] ∧ (∀ d, d < 12 → (t.bdie d).dir = []) ∧
        (∀ d x, d < 12 → (dirOf s d x).held = true → (dirOf s d x).modified = true → lineWaits s d x = none → tget false (t.bdie d).poison x = true) ∧
        (∀ c i, accWord t c i = accWord s c i) ∧ ((∀ d, d < 12 → (s.bdie d).waits = []) → ∀ d a, nearByte t d a = nearByte s d a)) ∧
    (Settled s → s.twin.fenced = false → s.twin.state ≠ .unpaired → ∀ r n e, ∃ t, exec (.roleMove r s.fab.node n e) s = .next t ∧
      t.twin = { s.twin with fenced := true } ∧ t.boot = { s.boot with resetWait := some 4 } ∧ t.mbx = { s.mbx with resetting := true } ∧
      t = { s with twin := t.twin, boot := t.boot, mbx := t.mbx }) ∧
    (Settled s → ∀ r old n e, old ≠ s.fab.node → takesFrom s n = true →
      (e ≤ s.roleEpoch r → (s.roleNode r).isSome = true → exec (.roleMove r old n e) s = .next s) ∧
      (s.roleEpoch r < e → old < 256 → n < 256 → ∃ t, exec (.roleMove r old n e) s = .next t ∧ t.roleNode r = some n ∧ t.roleEpoch r = e ∧ old ∈ t.twin.fence ∧
        (∀ j, j ≠ r → t.roleNode j = s.roleNode j ∧ t.roleEpoch j = s.roleEpoch j) ∧
        (∀ c, ∀ k ∈ (s.core c).chan, chEn k.2 = true → chRemote k.2 = true → chNode k.2 = old → ∃ v, (k.1, v) ∈ (t.core c).chan ∧ chNode v = n) ∧
        (∀ c i, accWord t c i = accWord s c i) ∧ (∀ d a, nearByte t d a = nearByte s d a)))

/-- While PAIRED a HANDOFF_OK is kept once per heat and lap. LAP_REPLAY of the current lap raises the heat's epoch, and a package still at work on it abandons the attempt. A mirrored seal enters the mirror entry and is acknowledged; one already kept is only acknowledged. While ISOLATED an acknowledgement posts nothing. SEAL_QUERY is answered with the last lap applied and its A, or zeros. A reply that names a later lap than the last mirrored seal is kept until its verdict is here. A JOIN that matches begins the copy, one that does not waits and is tested every 100 ms. Once the copy is done, or the wait after an aborted return is over, the role's return is prepared under its next epoch. A checkpoint digest is sent and kept until its counterpart is here; equal ones count, differing ones and one that stays away for LS_WAIT_US declare a mismatch, with its layer and tensor. -/
def Obligations.TwinsReplaySealAndRejoin : Prop :=
  ∀ s : State, s.entry.oscDead = false →
    (∀ h l, s.twin.state = .paired → ∃ t, exec (.handoffOk h l) s = .next t ∧
      t.twin.handoff = (if s.twin.handoff.contains (h, l) then s.twin.handoff else s.twin.handoff ++ [(h, l)]) ∧
      t.srv.heats = s.srv.heats ∧ t.out = s.out ∧ KeepsMemory s t) ∧
    (Settled s → ∀ id e, (s.heat id).live = true → (s.heat id).epoch < e → ∃ t, exec (.lapReplay id (s.heat id).desc.lap e) s = .next t ∧
      (t.heat id).epoch = e ∧ (t.heat id).live = true ∧ (t.heat id).desc = (s.heat id).desc ∧ (∀ j, j ≠ id → t.heat j = s.heat j) ∧
      ((s.heat id).fetched = true → (s.heat id).ownDone = false → (t.heat id).fetched = false ∧ (t.heat id).lapActive = false) ∧ KeepsMemory s t) ∧
    (∀ n h l tk, s.twinNode = some n → takesFrom s n = true → (s.req (h / 65536)).mirror = true → (s.req (h / 65536)).reuse = h % 65536 →
      ((s.req (h / 65536)).lap < l → ∃ t, exec (.sealMirror h l tk) s = .next t ∧ (t.req (h / 65536)).lap = l ∧
        (t.req (h / 65536)).tokens = (s.req (h / 65536)).tokens ++ tk ∧
        (t.req (h / 65536)).delivered = (s.req (h / 65536)).delivered + tk.length ∧ Tells t (.node n) (.sealMirrorAck h l) ∧
        (∀ j, j ≠ h / 65536 → t.req j = s.req j) ∧ KeepsMemory s t) ∧
      (l ≤ (s.req (h / 65536)).lap → (s.req (h / 65536)).unposted ≠ [] → ∃ t, exec (.sealMirror h l tk) s = .next t ∧
        Tells t (.node n) (.sealMirrorAck h l) ∧ t = { s with fab := t.fab, out := t.out })) ∧
    (Settled s → ∀ h l, (reqIdx s h = none ∨ s.twin.isolated = true → exec (.sealMirrorAck h l) s = .next s) ∧
      ∀ i, reqIdx s h = some i → s.twin.isolated = false → (s.req i).isOpen = true → (s.req i).withheld = true → ∃ t, exec (.sealMirrorAck h l) s = .next t ∧
        (t.req i).unposted = (s.req i).unposted.filter (fun e => decide (l < e.1)) ∧ (∀ j, j ≠ i → t.req j = s.req j) ∧ t.out = s.out ∧ KeepsMemory s t) ∧
    (Settled s → ∀ h l i, reqIdx s h = some i → s.twin.isolated = false → (s.req i).isOpen = true → (s.req i).withheld = false →
      (∀ e ∈ (s.req i).unposted, e.1 ≤ l) → ((s.req i).unposted.flatMap (·.2)) ≠ [] → ∃ t, exec (.sealMirrorAck h l) s = .next t ∧
        ∃ u, t = settle (notify u (s.req i).fn mTOKENS 0
          (leBytes 2 (((s.req i).unposted.flatMap (·.2)).length / 32) ++ zeros 6 ++ (s.req i).unposted.flatMap (·.2))) ∧
          (u.req i).unposted = [] ∧ (∀ j, j ≠ i → u.req j = s.req j) ∧ u = { s with srv := u.srv }) ∧
    (∀ src h, takesFrom s src = true → ∃ t, exec (.sealQuery src h) s = .next t ∧ t = { s with fab := t.fab, out := t.out } ∧
      (∀ e, (s.srv.maps.find? fun e => e.2.lastReq == h && s.roleNode e.2.home == some src) = some e →
        Tells t (.node src) (.sealReply h e.2.sealedLap e.2.sealedA)) ∧
      ((s.srv.maps.find? fun e => e.2.lastReq == h && s.roleNode e.2.home == some src) = none → Tells t (.node src) (.sealReply h 0 0))) ∧
    (Settled s → ∀ src h l a i, reqIdx s h = some i → takesFrom s src = true → (s.req i).adopted = true → (s.req i).isOpen = true →
      (l ≤ (s.req i).lap → exec (.sealQueryReply src h l a) s = .next s) ∧
      ((s.req i).lap < l → heldVerdict s (s.req i) h l = none → ∃ t, exec (.sealQueryReply src h l a) s = .next t ∧ (t.req i).sealWait = some (l, a) ∧
        (∀ j, j ≠ i → t.req j = s.req j) ∧ t.out = s.out ∧ KeepsMemory s t)) ∧
    (∀ i : JoinInfo, s.twinNode = some i.node → s.twin.state = .single → ∀ c : Instr,
      (c = .join i ∨ c = .joinRetest ∧ s.twin.joinWait = some i ∧ s.twin.joinAt + msAon 100 ≤ s.aon) →
      (joinOk s i = true → ∃ t, exec c s = .next t ∧ t.twin.state = .rejoining ∧ t.twin.copying = true ∧ t.twin.joinWait = none ∧
        (takesFrom t i.node = true) ∧ Tells t (.node i.node) .joinOk ∧
        (∀ k, (s.map k).present = true → t.map k = s.map k) ∧ KeepsMemory s t) ∧
      (joinOk s i = false → ∃ t, exec c s = .next t ∧ t.twin = { s.twin with joinWait := some i, joinAt := s.aon } ∧ Tells t (.node i.node) .joinWait ∧
        t = { s with twin := t.twin, fab := t.fab, out := t.out })) ∧
    (∀ n (c : Instr), s.twinNode = some n → s.twin.state = .rejoining → s.twin.copying = true → s.twin.returning = none →
      (c = .rejoinCopyDone ∧ s.twin.retryAt = none ∨ c = .roleReturnRetry ∧ ∃ u, s.twin.retryAt = some u ∧ u ≤ s.aon) →
      ∃ t r, exec c s = .next t ∧ t.twin = { s.twin with returning := some r, retryAt := none } ∧ r.role = otherRole s.fab.ownRole ∧ r.node = n ∧
        r.epoch = s.roleEpoch (otherRole s.fab.ownRole) + 1 ∧ r.coordinator = true ∧
        Tells t .all (.cutPrepare rolePart (otherRole s.fab.ownRole) n 0) ∧ t = { s with twin := t.twin, fab := t.fab, out := t.out }) ∧
    (Settled s → s.hasLockstep = true → ∀ id, (s.heat id).live = true → (s.heat id).lockstep = true → ∀ layer x dig own,
      ((s.heat id).digests.find? (fun d => d.1 == (s.heat id).desc.lap && d.2.1 == layer && d.2.2.1 == x && d.2.2.2.2.1 != own) = none →
        ∃ t, exec (.checkpoint id (s.heat id).desc.lap layer x dig own) s = .next t ∧
          (t.heat id).digests = (s.heat id).digests ++ [((s.heat id).desc.lap, layer, x, dig, own, s.aon)] ∧
          (∀ n, own = true → s.twinNode = some n → Tells t (.node n) (.checkpoint id (s.heat id).desc.lap layer x dig)) ∧
          (∀ j, j ≠ id → t.heat j = s.heat j) ∧ t.twin = s.twin ∧ KeepsMemory s t) ∧
      (∀ d, (s.heat id).digests.find? (fun d => d.1 == (s.heat id).desc.lap && d.2.1 == layer && d.2.2.1 == x && d.2.2.2.2.1 != own) = some d →
        ∃ t, exec (.checkpoint id (s.heat id).desc.lap layer x dig own) s = .next t ∧ t.twin.lsChecks = s.twin.lsChecks + 1 ∧
          (d.2.2.2.1 = dig → t.twin.lsMismatch = s.twin.lsMismatch ∧ (t.heat id).digests = (s.heat id).digests.erase d ∧ (∀ j, j ≠ id → t.heat j = s.heat j)) ∧
          (d.2.2.2.1 ≠ dig → t.twin.lsMismatch = s.twin.lsMismatch + 1 ∧
            t.twin.lsLast = mkWord [(0, layer % 65536), (16, x % 2 ^ 32), (48, 1)]) ∧ KeepsMemory s t)) ∧
    (Settled s → ∀ id l layer x d, (s.heat id).digests.find? (fun d => d.1 == l && d.2.1 == layer && d.2.2.1 == x && d.2.2.2.2.1) = some d →
      (s.aon < d.2.2.2.2.2 + usAon (s.cfg 0x0904) → exec (.lsWaitExpiry id l layer x) s = .next s) ∧
      (d.2.2.2.2.2 + usAon (s.cfg 0x0904) ≤ s.aon → ∃ t, exec (.lsWaitExpiry id l layer x) s = .next t ∧
        t.twin.lsMismatch = s.twin.lsMismatch + 1 ∧ t.twin.lsLast = mkWord [(0, layer % 65536), (16, x % 2 ^ 32), (48, 1)] ∧ KeepsMemory s t))

/-- A sample raises the cumulative counters and the 1 ms mean; one above 1.2 times CAP_W lowers the Field clock by 100 MHz and counts. A refit within bounds on enough data waits for the next interval, and any other changes nothing. A reconciliation bills the interval's measured energy once: what it adds to the requests' lines and to the overhead account sums to the meter's reading. It takes a waiting coefficient set and begins the next interval. A first charge opens one chain; a signed share keeps its hash and adds its energies to the request unless LATE. A block closes at 256 receipts or after SIGN_MS; the closed block with the oldest receipt is signed next, its number and hash chained. No memory and no other chain changes. -/
def Obligations.EnergyIsMeteredSharedAndSigned : Prop :=
  ∀ s : State, s.entry.oscDead = false →
    (∀ uj mw vin stages, ∃ t, exec (.meterSample uj mw vin stages) s = .next t ∧ t = { s with energy := t.energy, power := t.power } ∧
      t.energy.inputUj = s.energy.inputUj + uj ∧ (∀ i, i < 64 → nth 0 t.energy.stageUj i = nth 0 s.energy.stageUj i + nth 0 stages i) ∧
      t.energy.vin = vin ∧ t.energy.samples = (s.energy.samples ++ [mw]).drop (s.energy.samples.length + 1 - 100) ∧
      t.energy.powerMw = t.energy.samples.foldl (· + ·) 0 / t.energy.samples.length ∧ t.energy.accts = s.energy.accts ∧
      (1200 * s.cfg 0x0A01 < mw → s.power.fieldOn = true → t.power.freq = max 1000 (s.power.freq - 100) ∧ t.power.fastLimit = t.power.freq ∧
        t.power.limit = 3 ∧ t.power.fastTrips = s.power.fastTrips + 1) ∧
      (mw ≤ 1200 * s.cfg 0x0A01 → t.power = s.power)) ∧
    (∀ fit, (s.aon < s.energy.refitAt + 4000000 → exec (.coefRefit fit) s = .next s) ∧
      (s.energy.refitAt + 4000000 ≤ s.aon → ∃ t, exec (.coefRefit fit) s = .next t ∧ t = { s with energy := t.energy } ∧ t.energy.refitAt = s.aon ∧
        t.energy.coefs = s.energy.coefs ∧ t.energy.dataSecs = min 64 (s.energy.dataSecs + 1) ∧
        (∀ l, fit = some l → coefsOk l = true → 16 ≤ s.energy.dataSecs + 1 → t.energy.coefNext = some l) ∧
        ((∀ l, fit = some l → coefsOk l = false ∨ s.energy.dataSecs + 1 < 16) → t.energy.coefNext = s.energy.coefNext))) ∧
    (s.twin.state = .single → s.aon < s.energy.intervalAt + msAon 1 → ∃ t, exec .reconcile s = .next t ∧ t = { s with energy := t.energy } ∧
      t.energy.mirrored = [] ∧ t.energy.accts = s.energy.accts) ∧
    (s.twin.state ≠ .single ∨ s.energy.mirrored = [] →
      (s.aon < s.energy.intervalAt + msAon 1 ∨ s.energy.accts.any (activeAcct s) = false → exec .reconcile s = .next s) ∧
      (s.energy.intervalAt + msAon 1 ≤ s.aon → s.energy.accts.any (activeAcct s) = true → ∃ t, exec .reconcile s = .next t ∧
        t = { s with energy := t.energy, boot := t.boot, drawn := t.drawn } ∧ t.energy.intervalAt = s.aon ∧ t.energy.intervalUj = s.energy.inputUj ∧
        t.energy.activity = [] ∧ t.energy.coefs = s.energy.coefNext.getD s.energy.coefs ∧ t.energy.coefNext = none ∧
        t.energy.coefSeq = s.energy.coefSeq + (if s.energy.coefNext.isSome then 1 else 0) ∧ t.energy.openMark = true ∧
        t.energy.accts.length = s.energy.accts.length ∧ (∀ a ∈ t.energy.accts, a.acts = []) ∧
        (s.aon < s.energy.ovAt + msAon (s.cfg 0x0A07) → t.energy.ovMeasured = s.energy.ovMeasured + (s.energy.inputUj - s.energy.intervalUj) ∧
          t.energy.ovRequests + t.energy.ovAccount = s.energy.ovRequests + s.energy.ovAccount + ((s.energy.inputUj - s.energy.intervalUj : Nat) : Int)) ∧
        (s.energy.ovAt + msAon (s.cfg 0x0A07) ≤ s.aon → t.energy.ovMeasured = 0 ∧ t.energy.ovRequests = 0 ∧ t.energy.ovAccount = 0 ∧
          t.energy.ovSeq = s.energy.ovSeq + 1 ∧ t.energy.ovAt = s.aon))) ∧
    (∀ h sub i, reqIdx s h = some i →
      (s.energy.chains.any (fun c => c.handle == h && c.subject == sub) = false → exec (.shareOpen (s.req i).home h sub) s =
        .next { s with energy := { s.energy with chains := s.energy.chains ++ [⟨h, sub, 0, false, 0, 0, 0, 0⟩] } }) ∧
      (s.energy.chains.any (fun c => c.handle == h && c.subject == sub) = true → exec (.shareOpen (s.req i).home h sub) s = .next s)) ∧
    (∀ (m : ShareMsg) i, reqIdx s m.handle = some i → ∃ t, exec (.shareSigned m) s = .next t ∧
      t = { s with energy := t.energy, srv := t.srv, fab := t.fab, out := t.out } ∧
      (∃ c ∈ t.energy.chains, c.handle = m.handle ∧ c.subject = m.subject ∧ c.lastHash = m.hash ∧ (m.final = true → m.late = false → c.final = true)) ∧
      (m.late = false → (t.req i).ePrefill = (s.req i).ePrefill + m.ePrefill ∧ (t.req i).eDecode = (s.req i).eDecode + m.eDecode ∧
        (t.req i).eSpec = (s.req i).eSpec + m.eSpec ∧ (t.req i).eResid = (s.req i).eResid + m.eResid) ∧
      (m.late = true → t.req i = s.req i) ∧ (∀ j, j ≠ i → t.req j = s.req j) ∧
      (mirrors s = true → ∀ n, s.twinNode = some n → Tells t (.node n) (.shareCopy m))) ∧
    (∀ c, (∀ r l, (s.chain c).openR = r :: l → 256 ≤ (r :: l).length ∨ r.closedAt + msAon (s.cfg 0x0A06) ≤ s.aon → ∃ t, exec (.blockClose c) s = .next t ∧
        (t.chain c).openR = [] ∧ (t.chain c).closedB = (s.chain c).closedB ++ [(r :: l, s.aon)] ∧ (t.chain c).bseq = (s.chain c).bseq ∧
        (t.chain c).prev = (s.chain c).prev ∧ (∀ j, j ≠ c → t.chain j = s.chain j) ∧ t = { s with energy := t.energy }) ∧
      ((s.chain c).openR = [] → exec (.blockClose c) s = .next s)) ∧
    (Settled s → ∀ c l u rest w, (s.chain c).closedB = (l, u) :: rest → oldestOf (s.chain c) = some w →
      ((∀ e ∈ s.energy.blocks, ∀ x, oldestOf e.2 = some x → w ≤ x) → ∃ t, exec (.blockSigned c) s = .next t ∧ (t.chain c).closedB = rest ∧
        (t.chain c).bseq = (s.chain c).bseq + 1 ∧ t.energy.blocksSigned = s.energy.blocksSigned + 1 ∧
        (t.chain c).prev = sha256 (blockBytes s c l u ++ bsub (Config.signature s.drawn (blockBytes s c l u)) 0 384) ∧
        (∀ j, j ≠ c → t.chain j = s.chain j) ∧ KeepsMemory s t) ∧
      ((∃ e ∈ s.energy.blocks, ∃ x, oldestOf e.2 = some x ∧ x < w) → exec (.blockSigned c) s = .next s))

/-- In RUN a tick lowers the cap limit by 25 MHz above CAP_W and the thermal limit at TJ_THROTTLE, offers the lowest limit, sends a changed offer to every member, and runs at the lowest offer. A member's newer offer is held, an older one not. Droop cycles are counted. An idle package alone in its domain takes the deepest state that pays: DORMANT after a flush, REST with its cores cleared, NAP with the Field dies off, or HOLD; in a domain it tells the coordinator it is ready. The coordinator sends REST_GO once all are, and forgets a member that cancels. REST_GO is obeyed with the wake timer armed. Each wake event leads back to RUN with the gated dies on, the timer disarmed and RESTING over, and after REST the links train again; an expired timer does the same, and wakes DORMANT with CAUSE 6. Near memory is kept. -/
def Obligations.GovernorAndPowerStatesFollowTheirRules : Prop :=
  ∀ s : State, s.entry.oscDead = false →
    (∀ r, (s.power.state ≠ .run → exec (.governorTick r) s = .next s) ∧
      (s.power.state = .run → ∃ t, exec (.governorTick r) s = .next t ∧ t = { s with power := t.power, fab := t.fab, out := t.out } ∧
        (s.cfg 0x0A01 * 1000 < r.meanMw → t.power.capLimit = min (ceiling s) (max 1000 (s.power.capLimit - 25))) ∧
        (((s.cfg 0x0A05 : Nat) : Int) ≤ r.hottest → t.power.thermLimit = min (ceiling s) (max 1000 (s.power.thermLimit - 25))) ∧
        t.power.capLimit ≤ min (ceiling s) (max 1000 (s.power.capLimit + 25)) ∧ t.power.thermLimit ≤ min (ceiling s) (max 1000 (s.power.thermLimit + 25)) ∧
        (ceiling s ≤ 2250 → t.power.offer = min (min (ceiling s) t.power.capLimit) (min t.power.thermLimit t.power.fastLimit)) ∧
        t.power.freq = ((memberOffers t).map (·.2.1)).foldl min t.power.offer ∧
        ((s.power.offers.find? fun e => e.1 == s.fab.node && e.2.1 == t.power.offer) = none → t.power.offerSeq = s.power.offerSeq + 1 ∧
          ∀ m ∈ memberOffers s, Tells t (.node m.1) (.freqOffer (s.cfg 0x0A04) t.power.offer (s.power.offerSeq + 1))))) ∧
    (∀ src o q, s.cfg 0x0A04 ≠ 0 → src ≠ s.fab.node → takesFrom s src = true → s.inDb src = true →
      ((∀ e, s.power.offers.find? (fun e => e.1 == src) = some e → e.2.2 < q) → ∃ t, exec (.freqOffer src (s.cfg 0x0A04) o q) s = .next t ∧
        t = { s with power := t.power } ∧ t.power.offers = tput s.power.offers src (o, q) ∧ t.power.offer = s.power.offer ∧
        t.power.freq = ((memberOffers t).map (·.2.1)).foldl min s.power.offer) ∧
      (∀ e, s.power.offers.find? (fun e => e.1 == src) = some e → q ≤ e.2.2 → exec (.freqOffer src (s.cfg 0x0A04) o q) s = .next s)) ∧
    (∀ d n, s.power.state = .run → (s.power.fieldOn = true → d < 4 →
        exec (.droopStretch true d n) s = .next { s with power := { s.power with stretch := s.power.stretch + n } }) ∧
      (s.power.besideOn = true → d < 12 → exec (.droopStretch false d n) s = .next { s with power := { s.power with stretch := s.power.stretch + n } })) ∧
    (∀ duty ev, s.power.state = .run → s.power.resting = false → noCommand s = true → s.entry.flushed = false → s.boot.stage = 3 → ev = nextEvent s duty →
      (s.cfg 0x0A04 = 0 → restReady s .dormant = true → pays s ev .dormant = true → ∃ t, exec (.powerStateChoose duty) s = .next t ∧
        t.power.resting = true ∧ t.energy.openMark = false ∧ (∀ c, c < 17 → (t.chain c).openR = [] ∧ (t.chain c).closedB = []) ∧
        t.power.wakeAt = ev.map (fun n => s.aon + usAon (n - 450000)) ∧ KeepsMemory s t) ∧
      (s.cfg 0x0A04 = 0 → (restReady s .dormant && pays s ev .dormant) = false → restReady s .rest = true → pays s ev .rest = true →
        ∃ t, exec (.powerStateChoose duty) s = .next t ∧ t.power.state = .rest ∧ t.power.resting = true ∧ t.power.fieldOn = false ∧
          t.power.junctionOn = false ∧ t.power.wakeAt = ev.map (fun n => s.aon + usAon (n - 3000)) ∧ (∀ c a, spadByte t c a = 0) ∧ (∀ c i, accWord t c i = 0) ∧
          ∀ d a, nearByte t d a = nearByte s d a) ∧
      ((∀ x, x = .rest ∨ x = .dormant → (restReady s x && pays s ev x) = false) →
        (pays s ev .nap = true → ∃ t, exec (.powerStateChoose duty) s = .next t ∧ t.power.state = .nap ∧ t.power.fieldOn = false ∧
          t.power.wakeAt = ev.map (fun n => s.aon + usAon (n - 40)) ∧ t.power.readySent = none ∧ KeepsMemory s t) ∧
        (pays s ev .nap = false → pays s ev .hold = true → ∃ t, exec (.powerStateChoose duty) s = .next t ∧ t.power.state = .hold ∧
          t.power.fieldOn = s.power.fieldOn ∧ t.power.wakeAt = ev.map (fun n => s.aon + usAon (n - 2)) ∧ t.power.readySent = none ∧ KeepsMemory s t) ∧
        (pays s ev .nap = false → pays s ev .hold = false → s.power.readySent = none → exec (.powerStateChoose duty) s = .next s)) ∧
      (s.cfg 0x0A04 ≠ 0 → (restReady s .dormant && pays s ev .dormant) = false → restReady s .rest = true → pays s ev .rest = true →
        s.power.readySent ≠ some 3 → ∃ t, exec (.powerStateChoose duty) s = .next t ∧ t.power.readySent = some 3 ∧ t.power.state ≠ .rest ∧
          Tells t (.node ((members s).foldl min s.fab.node)) (.restReady 3 (ev.getD (2 ^ 32 - 1))) ∧ KeepsMemory s t)) ∧
    (∀ n x d ready, n ∈ members s → (x = 3 ∨ x = 4) → (members s).foldl min s.fab.node = s.fab.node → takesFrom s n = true →
      ready = (s.power.ready.filter fun r => r.1 != n) ++ [(n, x, d)] →
      ((∃ m ∈ members s, ∀ r ∈ ready, r.1 ≠ m) → exec (.restReady n x d) s = .next { s with power := { s.power with ready := ready } }) ∧
      ((∀ m ∈ members s, ∃ r ∈ ready, r.1 = m) → ∃ t, exec (.restReady n x d) s = .next t ∧ t.power = { s.power with ready := [] } ∧
        t = { s with power := t.power, fab := t.fab, out := t.out } ∧
        ∀ m ∈ members s, Tells t (.node m) (.restGo ((ready.map (·.2.1)).foldl min 4) ((ready.map (·.2.2)).foldl min d - 1000)))) ∧
    (∀ n, exec (.restCancel n) s = .next { s with power := { s.power with ready := s.power.ready.filter fun r => r.1 != n } }) ∧
    (∀ d, s.power.resting = false → s.power.state ≠ .rest → s.power.state ≠ .dormant →
      (∃ t, exec (.restGo 3 d) s = .next t ∧ t.power.state = .rest ∧ t.power.resting = true ∧ t.power.fieldOn = false ∧ t.power.junctionOn = false ∧
        t.power.wakeAt = some (s.aon + usAon d) ∧ (∀ c a, spadByte t c a = 0) ∧ (∀ c i, accWord t c i = 0) ∧ ∀ e a, nearByte t e a = nearByte s e a) ∧
      (s.hasNand = true → ∃ t, exec (.restGo 4 d) s = .next t ∧ t.power.resting = true ∧ t.energy.openMark = false ∧
        (∀ c, c < 17 → (t.chain c).openR = [] ∧ (t.chain c).closedB = []) ∧ t.power.wakeAt = some (s.aon + usAon d) ∧ KeepsMemory s t)) ∧
    (∀ k : WakeKind, ((s.power.state = .hold ∨ s.power.state = .nap) ∧ (∀ f, k = .mailboxCtrl f → (s.fn f).enabled = true) ∨
        s.power.state = .rest ∧ (k = .sideband ∨ ∃ f, k = .mailboxCtrl f ∧ (s.fn f).enabled = true)) →
      ∃ t, exec (.wakeEvent k) s = .next t ∧ t.power = { s.power with
          state := .run, fieldOn := !s.entry.flushed, junctionOn := true, wakeAt := none, resting := false, readySent := none } ∧
        t.twin.hbSeenAt = s.aon ∧ KeepsMemory s t ∧
        (s.power.state = .rest → ∀ l, l < 36 → planUse (s.plan l) ≠ 0 → (s.link l).state = .down →
          t.link l = { s.link l with since := s.aon, retryAt := max 1 s.aon })) ∧
    (s.power.state = .rest → exec (.wakeEvent .ctlPacket) s = .next s) ∧
    (∀ u, s.power.wakeAt = some u → s.entry.inputOn = true →
      (s.aon < u → exec .wakeTimer s = .next s) ∧
      (u ≤ s.aon → (s.power.state = .hold ∨ s.power.state = .nap ∨ s.power.state = .rest) → ∃ t, exec .wakeTimer s = .next t ∧
        t.power = { s.power with state := .run, fieldOn := !s.entry.flushed, junctionOn := true, wakeAt := none, resting := false } ∧ KeepsMemory s t) ∧
      (u ≤ s.aon → s.power.state = .run → exec .wakeTimer s = .next { s with power := { s.power with wakeAt := none } }) ∧
      (u ≤ s.aon → s.power.state = .dormant → ∃ t, exec .wakeTimer s = .next t ∧ t.power.state = .run ∧ t.power.stewardOn = true ∧
        t.power.dormantImage = s.power.dormantImage ∧ t.boot.cause = 6 ∧ t.boot.stage = 0 ∧ t.entry.pwrgd = true ∧ KeepsMemory s t))

/-- Power-on clears everything but the NOR and the far objects that last, the AON counter too; a package reset keeps the AON domain; a warm reset keeps near memory, contexts and tenants, and frees the ledger, its reuse numbers going on. PERST# of 10 µs is a package reset, once a settings commit has ended. A missed watchdog orders a warm reset. The boot ROM and boot firmware take the image they accept or stop; captain firmware sets READY, and the fused minima rise; two seconds without READY count a failure of the slot. DORMANT keeps its image, which the wake restores. A warning gates the Field dies and flushes; the input's return resumes, or resets a paired package. Undervoltage and a thermal trip turn every stage off, and the input turned on boots. A failed oscillator stops the block for good. -/
def Obligations.ResetsBootAndPowerEntryFollowTheirRules : Prop :=
  ∀ s : State,
    (∀ aux straps, ∃ t, exec (.powerOn aux straps) s = .next t ∧ t.aon = 0 ∧ t.boot.cause = 1 ∧ t.boot.stage = 0 ∧ t.boot.nor = s.boot.nor ∧ t.pkg = s.pkg ∧
      t.fab.node = straps.toNat ∧ t.entry.nid = straps ∧ t.entry.aux = aux ∧ t.entry.inputOn = true ∧ t.entry.hostHeld = s.entry.perst ∧
      t.entry.uvEvent = false ∧ t.entry.thermTrip = false ∧ t.entry.warns = 0 ∧ t.entry.oscDead = s.entry.oscDead ∧ t.settings = Settings.reset ∧
      t.cores = [] ∧ t.starters = [] ∧ t.beside = [] ∧ t.parts = [] ∧ t.srv = Serving.reset ∧ t.twin = Twin.reset ∧ t.power = Power.reset ∧ t.dport = Debug.reset ∧
      t.energy.inputUj = 0 ∧ (∀ o ∈ t.far.objs, o.2.tier = 2 ∧ o.2.ttl = 0 ∧ o.2.state ≠ .writing) ∧ t.out = s.out) ∧
    exec .oscillatorFailure s = .next { s with entry := { s.entry with oscDead := true } } ∧
    (s.entry.oscDead = false →
      (∀ straps, s.isOff = false → (s.boot.resetWait ≠ some 2 ∨ s.boot.commits = []) → ∃ t, exec (.packageReset straps) s = .next t ∧ t.aon = s.aon ∧
        t.boot.cause = 2 ∧ t.boot.stage = 0 ∧ (s.boot.commits = [] → t.boot.nor = s.boot.nor) ∧ t.pkg = s.pkg ∧ t.settings = Settings.reset ∧ t.cores = [] ∧ t.beside = [] ∧
        t.parts = [] ∧ t.srv = Serving.reset ∧ t.energy.inputUj = s.energy.inputUj ∧ t.energy.coefs = factoryCoefs ∧ t.entry.uvEvent = s.entry.uvEvent ∧
        t.entry.warns = s.entry.warns ∧ t.entry.warnTaken = false ∧ t.dport.level = 0 ∧
        t.fab.node = (if s.entry.perst = true ∧ s.entry.hostHeld = false then s.fab.node else straps.toNat)) ∧
      (∀ us, us < 10 ∨ s.entry.perst = true → exec (.perstAssert us) s = .next s) ∧
      (∀ us, 10 ≤ us → s.entry.perst = false → (s.isOff = true → exec (.perstAssert us) s = .next { s with entry := { s.entry with perst := true } }) ∧
        (s.isOff = false → s.boot.commits ≠ [] →
          exec (.perstAssert us) s = .next { s with entry := { s.entry with perst := true }, boot := { s.boot with resetWait := some 2 } }) ∧
        (s.isOff = false → s.boot.commits = [] → ∃ t, exec (.perstAssert us) s = .next t ∧ t.entry.perst = true ∧ t.boot.cause = 2 ∧ t.boot.stage = 0 ∧
          t.boot.nor = s.boot.nor ∧ t.aon = s.aon ∧ t.cores = [] ∧ t.beside = [] ∧ t.srv = Serving.reset ∧ t.fab.node = s.fab.node)) ∧
      (∀ straps, s.entry.perst = true → ∃ t, exec (.perstRelease straps) s = .next t ∧ t.entry.perst = false ∧ t.entry.hostHeld = false ∧
        t = { s with entry := t.entry, fab := t.fab } ∧
        (s.entry.hostHeld = false → s.isOff = false → s.boot.resetWait ≠ some 2 → t.fab.node = straps.toNat ∧ t.entry.nid = straps) ∧
        (s.entry.hostHeld = true → t.fab = s.fab)) ∧
      (∀ cause, s.boot.resetWait = some cause → 3 ≤ cause → s.boot.commits = [] → s.power.stewardOn = true → ∃ t, exec (.warmReset cause) s = .next t ∧
        t.boot.cause = cause ∧ t.boot.stage = 0 ∧ t.boot.resetWait = none ∧ t.aon = s.aon ∧ t.pkg = s.pkg ∧ t.settings = Settings.reset ∧ t.cores = [] ∧ t.starters = [] ∧
        (∀ d a, nearByte t d a = nearByte s d a) ∧ (s.boot.resetSteps = true → t.energy.coefs = s.energy.coefs)) ∧
      (s.boot.resetWait = some 3 → s.boot.resetSteps = true → s.boot.commits = [] → s.power.stewardOn = true → Keyed s.srv.ledger →
        ∃ t, exec (.warmReset 3) s = .next t ∧ (∀ i, t.req i = { Req.reset with reuse := (s.req i).reuse }) ∧ t.srv.tenants = s.srv.tenants ∧
          t.srv.ctxs = s.srv.ctxs.map (fun e => (e.1, keptCtx e.2)) ∧ t.srv.heats = [] ∧ t.srv.queues = []) ∧
      (∀ c, Settled s → c < 8 → 2 ≤ s.boot.stage → s.boot.stopped = false → s.power.stewardOn = true → s.power.state = .run → s.captHalted c = false →
        s.boot.resetWait = none → ∃ t, exec (.captainWatchdog c) s = .next t ∧ t.boot.resetWait = some 5 ∧ t.boot.resetSteps = true ∧ t.mbx.resetting = true ∧
          (∀ n, s.twinNode = some n → s.twin.state ≠ .unpaired → Tells t (.node n) .twinYield) ∧
          (∀ j, j < 17 → (t.chain j).openR = [] ∧ (t.chain j).closedB = []) ∧ KeepsMemory s t) ∧
      (∀ puf, (romRuns s = false → exec (.bootRom puf) s = .next s) ∧
        (romRuns s = true → ∃ t, exec (.bootRom puf) s = .next t ∧ t = { s with boot := t.boot } ∧ t.boot.identityFail = !(puf.rebuilt && puf.unwrapped) ∧
          (fwChoose s 1 = none → t.boot.stopped = true ∧ t.boot.stage = s.boot.stage) ∧
          (∀ k, fwChoose s 1 = some k → t.boot.stage = 1 ∧ t.boot.bootSlot = (k == 1) ∧ t.boot.fwBoot = fwVersion s 1 k ∧ t.boot.svnBoot = fwSvn s 1 k ∧
            t.boot.l0 = sha256 (digestBytes s.pkg.romDigest) ∧ t.boot.l1 = sha256 (digestBytes t.boot.l0 ++ sha256Bytes (fwImage s 1 k))))) ∧
      (s.boot.stage = 1 → s.boot.stopped = false → s.power.stewardOn = true → s.boot.resetWait = none → ∃ t, exec .bootFirmware s = .next t ∧
        t.power.besideOn = true ∧ (∀ r, ((bootLog s).filter (·.kind == 1)).getLast? = some r → t.boot.bootCount = r.boot + 1) ∧
        (((bootLog s).filter (·.kind == 1)).getLast? = none → t.boot.bootCount = 1) ∧ ((openEntry (bootLog s)).isSome = true → t.boot.ledgerLoss = true) ∧
        (planOk t.fab.node t.planAll = true ∨ t.boot.planErr = true) ∧ t.fab.ownRole = t.cfg 0x0805 ∧
        (t.boot.stage = 1 ∧ t.boot.stopped = true ∨ t.boot.stage = 2 ∧ t.boot.captStarted = some s.aon ∧ s.boot.identityFail = false) ∧ KeepsMemory s t) ∧
      (∀ u, s.boot.captStarted = some u → s.boot.stage = 2 →
        (Settled s → s.power.dormantImage = none → s.aon < u + msAon 2000 → s.power.stewardOn = true → s.boot.resetWait = none → s.captHalted 0 = false →
          Keyed s.boot.captFails → ∃ t, exec .captainFirmware s = .next t ∧ t.boot.stage = 3 ∧ t.boot.captStarted = none ∧ t.mbx.ready = true ∧ t.mbx.resetting = false ∧
            t.pkg.svnMinBoot = max s.pkg.svnMinBoot s.boot.svnBoot ∧ t.pkg.svnMinCapt = max s.pkg.svnMinCapt s.boot.svnCapt ∧
            t.power.fieldOn = !s.entry.flushed ∧ t.power.junctionOn = true ∧ t.power.portOn = true ∧ captFails t (b2n s.boot.captSlot) = 0 ∧ KeepsMemory s t) ∧
        (u + msAon 2000 ≤ s.aon → ∃ t, exec .captFail s = .next t ∧ t = { s with boot := t.boot } ∧ t.boot.captStarted = none ∧ t.boot.stage = 2 ∧
          captFails t (b2n s.boot.captSlot) = captFails s (b2n s.boot.captSlot) + 1) ∧
        (∀ d, s.power.dormantImage = some d → ∃ t, exec .dormantExit s = .next t ∧ t.power = { s.power with dormantImage := none } ∧ t.srv.ctxs = d.ctxs ∧
          t.srv.tenants = d.tenants ∧ t.srv.sessions = d.sessions ∧ t.srv.maps = d.records ∧ t.beside = d.dies ∧ tkeys t.parts = tkeys d.parts ∧
          t = { s with parts := t.parts, beside := t.beside, srv := t.srv, power := t.power })) ∧
      (s.power.resting = true → s.power.state ≠ .rest → s.power.state ≠ .dormant → s.hasNand = true → s.boot.commits = [] → ∃ t, exec .dormantEntry s = .next t ∧
        t.power.state = .dormant ∧ t.power.stewardOn = false ∧ t.power.wakeAt = s.power.wakeAt ∧ t.power.dormantImage.isSome = true ∧ t.entry.pwrgd = false ∧
        t.aon = s.aon ∧ t.boot.nor = s.boot.nor ∧ t.cores = [] ∧ t.beside = [] ∧ t.parts = [] ∧ t.fab.node = s.fab.node) ∧
      (∀ pin, s.entry.flushed = false → s.isOff = false → s.power.stewardOn = true → ∃ t, exec (.pwrWarn pin) s = .next t ∧ t.entry.warnTaken = true ∧
        t.entry.warns = s.entry.warns + 1 ∧ t.entry.flushed = true ∧ t.entry.warnPin = pin ∧ KeepsMemory s t ∧ (s.boot.stage ≠ 3 → t = { s with entry := t.entry }) ∧
        (s.boot.stage = 3 → t.power.fieldOn = false ∧ t.energy.openMark = false ∧ (∀ j, j < 17 → (t.chain j).openR = [] ∧ (t.chain j).closedB = []) ∧
          ∀ n, s.twinNode = some n → s.twin.state ≠ .unpaired → Tells t (.node n) .twinYield)) ∧
      (s.entry.flushed = true → s.isOff = false → ∃ t, exec .inputReturn s = .next t ∧ t.entry.flushed = false ∧ t.entry.warnPin = false ∧ KeepsMemory s t ∧
        ((s.twin.state = .paired ∨ s.twin.state = .rejoining) → t.boot.resetWait = some 4 ∧ t.twin.fenced = true) ∧
        ((s.twin.state = .unpaired ∨ s.twin.state = .single) → s.boot.stage = 3 → s.power.state ≠ .rest → t.power = { s.power with state := .run, fieldOn := true } ∧
          t = { s with entry := t.entry, power := t.power })) ∧
      (s.entry.inputOn = true → ∃ t, exec .undervoltageLockout s = .next t ∧ t.entry.inputOn = false ∧ t.entry.uvEvent = true ∧ t.entry.thermtripN = true ∧
        t.power.stewardOn = false ∧ t.entry.pwrgd = false ∧ t.aon = s.aon ∧ t.cores = [] ∧ t.beside = [] ∧ (s.boot.commits = [] → t.boot.nor = s.boot.nor)) ∧
      (∀ straps, s.entry.inputOn = false → s.entry.aux = true → ∃ t, exec (.inputTurnOn straps) s = .next t ∧ t.entry.inputOn = true ∧ t.boot.cause = 2 ∧
        t.boot.stage = 0 ∧ t.fab.node = straps.toNat ∧ t.entry.hostHeld = s.entry.perst ∧ t.power = Power.reset ∧ t.aon = s.aon ∧ t.boot.nor = s.boot.nor ∧ t.cores = []) ∧
      (s.isOff = false → ∃ t, exec .thermalTrip s = .next t ∧ t.entry.thermTrip = true ∧ t.entry.thermtripN = false ∧ t.power.stewardOn = false ∧
        t.entry.pwrgd = false ∧ t.aon = s.aon ∧ t.cores = [] ∧ t.beside = [] ∧ (s.boot.commits = [] → t.boot.nor = s.boot.nor)))

/-- Each TAP instruction selects itself, and what it shifts out leaves: the captured pins, IDCODE, DBG_STATUS, the bypass bit, a new challenge, the last access's data and status, the next image word. A valid response grants its level, an invalid one counts, three lock the port out; LOCK takes the level away. APACC is refused while locked and starts one access at a time; it ends with its status: a misaligned address fails, and a scratchpad access moves exactly its bytes. At CONTROL a sector that may be erased is, and reads 0xFF; a captain is halted, released and stepped, and a halt of one other than C5 yields to the twin. An SPDM request that reaches the enclave is answered once; its codes are log 48, PRESUMED. Nothing else of the block changes. -/
def Obligations.DebugPortScansUnlocksAndAccesses : Prop :=
  ∀ s : State, s.entry.oscDead = false →
    (∀ l, (∃ t v, exec (.extest l) s = .next t ∧ t.out = s.out ++ [.tdo v] ∧ v < 2 ^ l.length ∧ t.dport.ir = 0 ∧ t.dport.boundary = l ∧ t.dport.extest = true ∧
        t.dport.level = s.dport.level ∧ t = { s with dport := t.dport, out := t.out, drawn := t.drawn }) ∧
      ∃ t v, exec (.samplePreload l) s = .next t ∧ t.out = s.out ++ [.tdo v] ∧ v < 2 ^ l.length ∧ t.dport.ir = 1 ∧ t.dport.boundary = l ∧
        t.dport.extest = s.dport.extest ∧ t.dport.level = s.dport.level ∧ t = { s with dport := t.dport, out := t.out, drawn := t.drawn }) ∧
    (∃ t, exec .idcode s = .next t ∧ t.out = s.out ++ [.tdo (idcodeValue s.pkg)] ∧ t.dport.ir = 2 ∧ t = { s with dport := t.dport, out := t.out } ∧
      t.dport.level = s.dport.level) ∧
    (∃ t, exec .tapStatus s = .next t ∧ t.out = s.out ++ [.tdo (regDbgStatus s).toNat] ∧ t.dport.ir = 0x10 ∧ t = { s with dport := t.dport, out := t.out } ∧
      t.dport.level = s.dport.level) ∧
    (∀ ir tdi, ir < 256 → [0, 1, 2, 0x10, 0x11, 0x12, 0x13, 0x20, 0x21, 0x22].contains ir = false → ∃ t, exec (.bypass ir tdi) s = .next t ∧ t.dport.ir = ir ∧
      t.dport.dr = (if tdi then 1 else 0) ∧ t.out = s.out ++ [.tdo (if s.dport.ir = ir then s.dport.dr % 2 else 0)] ∧
      t = { s with dport := t.dport, out := t.out }) ∧
    (∃ t c, exec .unlockChal s = .next t ∧ t.dport.challenge = some (c, s.aon) ∧ c.length = 64 ∧ ble c 8 8 = s.pkg.serial % 2 ^ 64 ∧ t.dport.ir = 0x11 ∧
      t.out = s.out ++ [.tdo (leNat c)] ∧ t.dport.level = s.dport.level ∧ t = { s with dport := t.dport, out := t.out, drawn := t.drawn }) ∧
    (∀ r, ∃ t, exec (.unlockResp r) s = .next t ∧ t = { s with dport := t.dport } ∧ t.dport.ir = 0x12 ∧
      (s.dport.lockout = true → t.dport.level = s.dport.level ∧ t.dport.fails = s.dport.fails ∧ t.dport.challenge = s.dport.challenge) ∧
      (s.dport.lockout = false → responseOk s r = true → t.dport.level = ble r 0 1 ∧ t.dport.unlocked = true ∧ t.dport.challenge = none ∧
        t.dport.fails = s.dport.fails) ∧
      (s.dport.lockout = false → responseOk s r = false → t.dport.level = s.dport.level ∧ t.dport.fails = s.dport.fails + 1 ∧ t.dport.challenge = none ∧
        (t.dport.lockout = true ↔ 3 ≤ s.dport.fails + 1))) ∧
    (∃ t, exec .lock s = .next t ∧ t.dport.level = 0 ∧ t.dport.ir = 0x13 ∧ t = { s with dport := t.dport }) ∧
    (∀ dr : BitVec 136, ∃ t, exec (.apacc dr) s = .next t ∧ t.dport.ir = 0x20 ∧ t.dport.level = s.dport.level ∧
      t.out = s.out ++ [.tdo (s.dport.apData.toNat + s.dport.apStatus * 2 ^ 132)] ∧ t = { s with dport := t.dport, out := t.out } ∧
      ((s.dport.level = 0 ∨ nbits dr.toNat 128 128 = 1 ∧ s.dport.level < 2) → t.dport.apStatus = 1 ∧ t.dport.apData = 0 ∧ t.dport.access = s.dport.access) ∧
      (s.dport.level ≠ 0 → (nbits dr.toNat 128 128 = 0 ∨ 2 ≤ s.dport.level) →
        (∀ x, s.dport.access = some x → t.dport.apStatus = 6 ∧ t.dport.apData = 0 ∧ t.dport.access = some x) ∧
        (s.dport.access = none → ∃ x, t.dport.access = some x ∧ x.addr.toNat = nbits dr.toNat 127 64 ∧ x.data.toNat = nbits dr.toNat 63 0 ∧
          x.size = nbits dr.toNat 130 129 ∧ x.write = (nbits dr.toNat 128 128 == 1)))) ∧
    (∀ x : Access, s.dport.access = some x →
      (∃ t, exec .apaccAccessDone s = .next t ∧ t.dport.access = none ∧
        (x.addr.toNat % 2 ^ x.size ≠ 0 → t.dport.apStatus = 2 ∧ t.dport.apData = 0 ∧ t = { s with dport := t.dport })) ∧
      (∀ d c off n, c = coreAddr d (nbits x.addr.toNat 55 52) (nbits x.addr.toNat 51 47) → off = nbits x.addr.toNat 21 0 → n = 2 ^ x.size → d < 4 →
        nbits x.addr.toNat 63 56 = 0x10 + d → x.addr.toNat % n = 0 → x.size < 4 → s.coreRegs c = true → coreCol c < 24 → off + n ≤ 3145728 →
        ∃ t, exec .apaccAccessDone s = .next t ∧ t.dport.access = none ∧ t.dport.apStatus = 0 ∧
          (x.write = false → t.dport.apData = BitVec.ofNat 64 (leNat ((List.range n).map fun i => spadByte s c (off + i))) ∧ t = { s with dport := t.dport }) ∧
          (x.write = true → (∀ i, i < n → spadByte t c (off + i) = BitVec.ofNat 8 (x.data.toNat / 2 ^ (8 * i))) ∧ SpadExcept s t c [(off, n)] ∧
            (∀ j i, accWord t j i = accWord s j i) ∧ (∀ e a, nearByte t e a = nearByte s e a) ∧ t = { s with cores := t.cores, dport := t.dport }))) ∧
    (s.dport.access = none → exec .apaccAccessDone s = .next s) ∧
    (∃ t, exec .scanout s = .next t ∧ t.dport.ir = 0x22 ∧ t = { s with dport := t.dport, out := t.out } ∧
      (s.dport.level = 0 → t.out = s.out ++ [.tdo 0]) ∧
      (s.dport.level ≠ 0 → s.dport.ir = 0x22 → t.out = s.out ++ [.tdo (ble (scanImage s) (4 * s.dport.scanPos) 4)] ∧ t.dport.scanPos = s.dport.scanPos + 1) ∧
      (s.dport.level ≠ 0 → s.dport.ir ≠ 0x22 → t.out = s.out ++ [.tdo (ble (scanImage s) 0 4)] ∧ t.dport.scanPos = 1)) ∧
    (∀ k, (s.dport.level ≠ 2 → exec (.flashErase k) s = .next s) ∧
      (s.dport.level = 2 → s.power.stewardOn = true → flashOpen k = true → s.dport.erasing = false →
        exec (.flashErase k) s = .next { s with dport := { s.dport with flash := BitVec.ofNat 64 k, erasing := true } })) ∧
    (s.dport.erasing = true → ∃ t, exec .flashEraseDone s = .next t ∧ t.dport.erasing = false ∧ bits s.dport.flash 9 0 ∈ t.dport.erased ∧
      (∀ a, norByte t a = if bits s.dport.flash 9 0 * 65536 ≤ a ∧ a < bits s.dport.flash 9 0 * 65536 + 65536 then 0xFF else norByte s a) ∧
      t = { s with boot := t.boot, dport := t.dport }) ∧
    (∀ c, c < 8 → s.dport.level = 2 →
      (∀ h, ∃ t, exec (.captHalt c h) s = .next t ∧ t.captHalted c = h ∧ (∀ j, j ≠ c → t.capt j = s.capt j) ∧ t = { s with dport := t.dport, fab := t.fab, out := t.out } ∧
        (∀ n, s.twinNode = some n → h = true → s.captHalted c = false → c ≠ 5 → s.twin.state = .paired → Tells t (.node n) .twinYield) ∧
        (h = false → t.out = s.out)) ∧
      (s.captHalted c = true → ∃ t, exec (.captStep c) s = .next t ∧ (t.capt c).pc = Config.captainNext c (s.capt c).pc ∧ t.captHalted c = true ∧
        (∀ j, j ≠ c → t.capt j = s.capt j) ∧ t = { s with dport := t.dport }) ∧
      (s.captHalted c = false → exec (.captStep c) s = .next s)) ∧
    (∀ doe q, s.power.stewardOn = true → (doe = true → hostReaches s 0 = true) → ∃ t code l, exec (.spdmRequest doe q) s = .next t ∧
      t.out = s.out ++ [.spdm doe code l] ∧ t = { s with out := t.out, drawn := t.drawn } ∧ (q = .getVersion → code = 4 ∧ l = [0x12, 0x13]))

/-- At CONTROL a core is halted and released, and a step sets STEP_DONE at once where nothing is dispatched; without CONTROL neither acts. An enabled captain breakpoint halts a running captain at its instruction. The first whistle halts the package, freezes its image with its reason and source, and a package whistle is noted to every other package; a later one keeps the first image and sets MORE. A release of the package whistle is broadcast, and once no whistle is held the image is let go; under an appliance whistle a register release does nothing. A note marks its sender, a release note unmarks it. An appliance release ends the appliance whistle alone. The image's completion is shown. A tensor watch that fires is spent and its header's VALID is written last. No memory changes. -/
def Obligations.HaltsAndWhistlesHoldThePackage : Prop :=
  ∀ s : State, s.entry.oscDead = false →
    (∀ c h, (s.dport.level ≠ 2 ∨ s.coreRegs c = false → exec (.coreHalt c h) s = .next s) ∧
      (s.dport.level = 2 → s.coreRegs c = true → ∃ t, exec (.coreHalt c h) s = .next t ∧ bit (t.core c).ctrl 0 = h ∧
        (∀ k, t.slot c k = s.slot c k) ∧ (∀ j, j ≠ c → t.core j = s.core j) ∧ t = { s with cores := t.cores } ∧ KeepsMemory s t)) ∧
    (Settled s → ∀ c k, (s.dport.level ≠ 2 → exec (.coreStep c k) s = .next s) ∧
      (s.dport.level = 2 → s.coreRegs c = true → k < 4 → ∃ t, exec (.coreStep c k) s = .next t ∧ KeepsMemory s t ∧
        (s.coreHeld c = false ∨ (s.core c).step.isSome = true → t = { s with cores := t.cores } ∧ (t.core c).step = (s.core c).step ∧
          ∀ j, t.slot c j = s.slot c j) ∧
        (s.coreHeld c = true → (s.core c).step = none → canDispatch (s.core c) k = false ∨ stepAdmits (s.core c) k = false → bit (t.core c).ctrl 4 = true ∧
          (t.core c).step = none ∧ (∀ j, t.slot c j = s.slot c j) ∧ t = { s with cores := t.cores }) ∧
        (s.coreHeld c = true → (s.core c).step = none → (t.core c).step.isSome = true ∨ bit (t.core c).ctrl 4 = true))) ∧
    (∀ c b, c < 8 → b < 4 → s.captHalted c = false →
      (bit (tget 0 (s.capt c).brk b) 0 = false → exec (.captBreakpoint c b) s = .next s) ∧
      (bit (tget 0 (s.capt c).brk b) 0 = true → ∃ t, exec (.captBreakpoint c b) s = .next t ∧ t.captHalted c = true ∧
        (t.capt c).pc = BitVec.ofNat 32 (bits (tget 0 (s.capt c).brk b) 31 2 * 4) ∧ (∀ j, j ≠ c → t.capt j = s.capt j) ∧
        t = { s with dport := t.dport, fab := t.fab, out := t.out })) ∧
    (∀ (i : Instr) scope reason,
      (∃ r, i = .tapWhistle r ∧ scope = 0 ∧ reason = (if r % 65536 = 0 then 0x8001 else r % 65536)) ∨
      (∃ v, i = .whistleRegBlow v ∧ s.dport.level = 2 ∧ bit v 17 = false ∧ scope = bits v 16 16 ∧ reason = bits v 15 0) ∨
      (∃ src q, i = .whistle src q scope reason ∧ takesFrom s src = true ∧ scope < 2) →
      ∃ t, exec i s = .next t ∧ t.whistled = true ∧ KeepsMemory s t ∧ t.cores = s.cores ∧
        (scope = 0 → t.dport.packageWhistle = true ∧ t.dport.applWhistle = s.dport.applWhistle ∧ (s.dport.packageWhistle = false → Tells t .all (.whistleNote false))) ∧
        (scope = 1 → t.dport.applWhistle = true ∧ t.dport.packageWhistle = s.dport.packageWhistle) ∧
        (s.whistled = false → bits t.dport.whistle 15 0 = reason % 65536 ∧ t.dport.imageReady = false ∧
          ∃ x, t.dport.imageW = some x ∧ x.reason = reason ∧ x.scope = scope ∧ x.cause = 1 ∧ x.aon = s.aon ∧ x.cores = s.cores) ∧
        (s.whistled = true → t.dport.imageW = s.dport.imageW ∧ bits t.dport.whistle 15 0 = bits s.dport.whistle 15 0 ∧ bit t.dport.whistle 24 = true)) ∧
    (s.dport.level = 2 → (s.dport.applWhistle = true → exec .whistleRegRelease s = .next s) ∧
      (s.dport.applWhistle = false → s.dport.packageWhistle = true → ∃ t, exec .whistleRegRelease s = .next t ∧ t.whistled = false ∧ t.dport.imageW = none ∧
        Tells t .all (.whistleNote true) ∧ t = { s with dport := t.dport, fab := t.fab, out := t.out })) ∧
    (∀ src q rel, takesFrom s src = true → src ≠ s.fab.node → ∃ t, exec (.whistleNote src q rel) s = .next t ∧
      (src ∈ t.dport.whistled ↔ rel = false) ∧ (∀ j, j ≠ src → (j ∈ t.dport.whistled ↔ j ∈ s.dport.whistled)) ∧ t = { s with dport := t.dport } ∧
      t.whistled = s.whistled) ∧
    (∀ src q, takesFrom s src = true → ∃ t, exec (.whistleRelease src q) s = .next t ∧ t.dport.applWhistle = false ∧ t.whistled = s.dport.packageWhistle ∧
      (s.dport.packageWhistle = false → t.dport.imageW = none) ∧ (s.dport.packageWhistle = true → t.dport.imageW = s.dport.imageW) ∧
      t = { s with dport := t.dport }) ∧
    (s.dport.imageW.isSome = true → exec .scoreboardImageReady s = .next { s with dport := { s.dport with imageReady := true } }) ∧
    (s.dport.imageW = none → exec .scoreboardImageReady s = .next s) ∧
    (∀ c x l id fmt row0 rb rows host w, s.dport.watches.find? (fun w => w.ctx == c && w.tensor == x && w.lap == l) = some w → s.whistled = false →
      (s.heat id).live = true → (s.heat id).desc.ctx = c → (s.heat id).desc.lap = l → 64 ≤ w.length →
      ∃ t head, exec (.tensorWatchFire c x l id fmt row0 rb rows host) s = .next t ∧ t.dport.watches = s.dport.watches.erase w ∧
        t = { s with dport := t.dport, out := t.out } ∧ head.length = 60 ∧
        ∃ body, t.out = s.out ++ body ++ [.dma w.fn w.hostAddr head, .dma w.fn (w.hostAddr + 60) (leBytes 4 0x57544B58)])

/-- Invariant of every step, from every state: the package stays the one its fuses name (variant, serial number, disabled cores, identifiers, vendor key hashes, revocations and ROM digest), and neither version minimum falls. Every step answers a next state, whatever command is in front; it takes that command from the queue and leaves the rest, and a command that is not CAPTAIN_FIRMWARE leaves both minima too; CAPTAIN_FIRMWARE leaves them or raises each to the version number of the accepted image where that is greater. -/
def Obligations.FusesLastAndMinimaOnlyRise : Prop :=
  ∀ (p : Package) (s : State), Anchored p s → ∃ t, step s = .next t ∧ Anchored p t ∧ t.pending = s.pending.tail ∧
    (s.pending.head? ≠ some .captainFirmware → t.pkg = s.pkg) ∧
    (t.pkg = s.pkg ∨ t.pkg.svnMinBoot = max s.pkg.svnMinBoot s.boot.svnBoot ∧ t.pkg.svnMinCapt = max s.pkg.svnMinCapt s.boot.svnCapt)

/-- After power-on the AON counter and the energy counters are 0; every slot of every core is UNBOUND with its configuration, ring indices, fault record and sticky bits 0, and every inbox, channel and hurdle register is 0; every beside ring is IDLE, disabled, with no entry between HEAD and TAIL, and the map, protection and error registers are 0; MBX_STATUS READY is 0, and each function's CMD_LWM is 32 and its other registers 0; every link is DOWN; the package is UNPAIRED and its counters 0; the debug port is locked, without failures or lockout; WARN_TAKEN, UV_EVENT, THERM_TRIP and WARNS are 0; no command waits, every memory is in canonical form, and the package is anchored to its own fuses. Memory contents, the fuses and the power state at reset are the model's choice (log 1 to 4) and are not claimed here. -/
def Obligations.ResetIsThePowerOnState : Prop :=
  State.reset.aon = 0 ∧ State.reset.pending = [] ∧ State.reset.energy.inputUj = 0 ∧ State.reset.energy.stageUj = [] ∧
  (∀ c k, State.reset.slot c k = SlotSt.reset ∧ (State.reset.slot c k).state = .unbound ∧ (State.reset.slot c k).cfg = 0 ∧
    (State.reset.slot c k).head = 0 ∧ (State.reset.slot c k).tail = 0 ∧ (State.reset.slot c k).tstage = 0 ∧ (State.reset.slot c k).fpf = 0 ∧
    (State.reset.slot c k).fault = 0 ∧ (State.reset.slot c k).faddr = 0) ∧
  (∀ c i, tget 0 (State.reset.core c).inbox i = 0 ∧ tget 0 (State.reset.core c).chan i = 0 ∧ tget 0 (State.reset.core c).hurdle i = 0) ∧
  (∀ d p, (State.reset.ring d p).state = .idle ∧ (State.reset.ring d p).en = false ∧ (State.reset.ring d p).head = (State.reset.ring d p).tail ∧
    mapWord State.reset p d = 0) ∧
  (∀ d, (∀ i, tget 0 (State.reset.bdie d).wp i = 0) ∧ (State.reset.bdie d).ceCount = 0 ∧ (State.reset.bdie d).ueCount = 0 ∧ (State.reset.bdie d).ueAddr = 0) ∧
  State.reset.mbx.ready = false ∧ (∀ f, (State.reset.fn f).cmdLwm = 32 ∧ (State.reset.fn f).coalUs = 0 ∧ (State.reset.fn f).loadDrop = 0 ∧
    (State.reset.fn f).cmdHead = 0 ∧ (State.reset.fn f).evtTail = 0 ∧ (State.reset.fn f).backlog = [] ∧ ∀ a, tget 0 (State.reset.fn f).ap a = 0) ∧
  (∀ l, (State.reset.link l).state = .down ∧ (State.reset.link l).replays = 0 ∧ (State.reset.link l).fecUncorr = 0 ∧ (State.reset.link l).downs = 0) ∧
  State.reset.twin.state = .unpaired ∧ State.reset.twin.failovers = 0 ∧ State.reset.twin.lsChecks = 0 ∧ State.reset.twin.lsMismatch = 0 ∧
  State.reset.dport.level = 0 ∧ State.reset.dport.fails = 0 ∧ State.reset.dport.lockout = false ∧ State.reset.dport.unlocked = false ∧
  State.reset.entry.warnTaken = false ∧ State.reset.entry.uvEvent = false ∧ State.reset.entry.thermTrip = false ∧ State.reset.entry.warns = 0 ∧
  Memory.wf State.reset = true ∧ Anchored State.reset.pkg State.reset
end

