-- ==== Sys2Proof/Laws/Table.lean ====
section
/-!
SUPPORT. Laws of tables and byte memories: what is read after a write, and that every memory operation keeps the canonical form.
-/

namespace Sys2Proof.Machine

variable {α : Type}

/-! ### Tables -/

/-- A record read after a record is written: the new one at its own number, the old one elsewhere. -/
theorem tget_tput (d : α) (t : Tab α) (k j : Nat) (v : α) : tget d (tput t k v) j = if j = k then v else tget d t j := by
  induction t with
  | nil => simp [tput, tget, eq_comm]
  | cons e r ih =>
    obtain ⟨i, w⟩ := e
    simp only [tput]
    split
    · subst i; by_cases h : k = j <;> simp [tget, h, eq_comm]
    · split
      · by_cases h : k = j
        · subst h; simp [tget]
        · have : j ≠ k := fun g => h g.symm
          simp [tget, h, this]
      · by_cases h : i = j
        · subst h; simp_all [tget]
        · simp [tget, h, ih]

@[simp] theorem tget_tput_same (d : α) (t : Tab α) (k : Nat) (v : α) : tget d (tput t k v) k = v := by simp [tget_tput]

theorem tget_tput_ne (d : α) (t : Tab α) {k j : Nat} (v : α) (h : j ≠ k) : tget d (tput t k v) j = tget d t j := by simp [tget_tput, h]

@[simp] theorem tget_nil (d : α) (k : Nat) : tget d [] k = d := rfl

/-- What a table keeps of its records reads as before, the rest as the reset record, provided each number is listed once. -/
theorem tget_filter (d : α) (t : Tab α) (p : Nat → Bool) (k : Nat) :
    tget d (t.filter fun e => p e.1) k = if p k then tget d t k else d := by
  induction t with
  | nil => simp
  | cons e r ih =>
    obtain ⟨i, w⟩ := e
    by_cases h : p i
    · by_cases g : i = k
      · subst g; simp [h, tget]
      · simp [h, tget, g, ih]
    · by_cases g : i = k
      · subst g; simp [h, ih]
      · simp [h, tget, g, ih]

/-! ### Memories in canonical form -/

/-- The canonical form as a property: addresses strictly rising, no entry equal to what an unlisted cell reads as. -/
theorem mwf_iff [DecidableEq α] (d : α) (m : Tab α) :
    mwf d m = true ↔ m.Pairwise (fun a b => a.1 < b.1) ∧ ∀ e ∈ m, e.2 ≠ d := by
  induction m with
  | nil => simp [mwf]
  | cons e r ih =>
    obtain ⟨a, v⟩ := e
    cases r with
    | nil => simp [mwf]
    | cons f r =>
      obtain ⟨b, w⟩ := f
      rw [show mwf d ((a, v) :: (b, w) :: r) = ((v != d && decide (a < b)) && mwf d ((b, w) :: r)) from rfl, Bool.and_eq_true, ih]
      simp only [Bool.and_eq_true, bne_iff_ne, ne_eq, decide_eq_true_eq]
      simp only [List.pairwise_cons, List.mem_cons, forall_eq_or_imp]
      constructor
      · rintro ⟨⟨h1, h2⟩, ⟨⟨h3, h4⟩, h5⟩⟩
        exact ⟨⟨⟨h2, fun c hc => lt_trans h2 (h3 c hc)⟩, h3, h4⟩, h1, h5⟩
      · rintro ⟨⟨⟨h2, _⟩, h3, h4⟩, h1, h5⟩
        exact ⟨⟨h1, h2⟩, ⟨h3, h4⟩, h5⟩

/-- A part of a memory kept by a test is in canonical form. -/
theorem mwf_filter [DecidableEq α] (d : α) (m : Tab α) (p : Nat × α → Bool) (h : mwf d m = true) : mwf d (m.filter p) = true := by
  rw [mwf_iff] at *
  exact ⟨h.1.filter p, fun e he => h.2 e (List.mem_of_mem_filter he)⟩

theorem mem_mcells [DecidableEq α] (d : α) (a : Nat) (l : List α) : ∀ e ∈ mcells d a l, e.2 ≠ d ∧ a ≤ e.1 ∧ e.1 < a + l.length := by
  induction l generalizing a with
  | nil => simp [mcells]
  | cons v r ih =>
    intro e he
    simp only [mcells] at he
    split at he
    · have := ih _ e he; simp only [List.length_cons]; exact ⟨this.1, by omega, by omega⟩
    · rcases List.mem_cons.1 he with rfl | h
      · exact ⟨by assumption, by simp, by simp⟩
      · have := ih _ e h; simp only [List.length_cons]; exact ⟨this.1, by omega, by omega⟩

theorem mcells_pairwise [DecidableEq α] (d : α) (a : Nat) (l : List α) : (mcells d a l).Pairwise (fun x y => x.1 < y.1) := by
  induction l generalizing a with
  | nil => simp [mcells]
  | cons v r ih =>
    simp only [mcells]
    split
    · exact ih _
    · exact List.pairwise_cons.2 ⟨fun e he => by have := (mem_mcells d (a + 1) r e he).2.1; simp; omega, ih _⟩

/-- Writing cells keeps the canonical form. -/
theorem mwf_mwrite [DecidableEq α] (d : α) (m : Tab α) (a : Nat) (l : List α) (h : mwf d m = true) : mwf d (mwrite d m a l) = true := by
  rw [mwf_iff] at *
  simp only [mwrite, List.append_assoc, List.pairwise_append, List.mem_append, List.mem_filter, decide_eq_true_eq]
  refine ⟨⟨h.1.filter _, ⟨mcells_pairwise d a l, h.1.filter _, ?_⟩, ?_⟩, ?_⟩
  · intro x hx y hy; have := (mem_mcells d a l x hx).2.2; omega
  · rintro x ⟨_, hx⟩ y (hy | ⟨_, hy⟩)
    · have := (mem_mcells d a l y hy).2.1; omega
    · omega
  · rintro e (⟨he, _⟩ | he | ⟨he, _⟩)
    · exact h.2 e he
    · exact (mem_mcells d a l e he).1
    · exact h.2 e he

/-- Removing a cell keeps the canonical form. -/
theorem mwf_tdel [DecidableEq α] (d : α) (m : Tab α) (k : Nat) (h : mwf d m = true) : mwf d (tdel m k) = true := by
  rw [mwf_iff] at *
  have sub : (tdel m k).Sublist m := by
    clear h
    induction m with
    | nil => exact List.Sublist.refl _
    | cons e r ih =>
      obtain ⟨i, w⟩ := e
      simp only [tdel]; split
      · exact List.sublist_cons_self _ _
      · exact ih.cons_cons _
  exact ⟨h.1.sublist sub, fun e he => h.2 e (sub.subset he)⟩

theorem mem_tput (t : Tab α) (k : Nat) (v : α) (e : Nat × α) (h : e ∈ tput t k v) : e = (k, v) ∨ e ∈ t := by
  induction t with
  | nil => simp [tput] at h; exact .inl h
  | cons x r ih =>
    obtain ⟨i, w⟩ := x
    simp only [tput] at h
    split at h
    · rcases List.mem_cons.1 h with h | h
      · exact .inl h
      · exact .inr (List.mem_cons_of_mem _ h)
    · split at h
      · rcases List.mem_cons.1 h with h | h
        · exact .inl h
        · exact .inr h
      · rcases List.mem_cons.1 h with h | h
        · exact .inr (h ▸ List.mem_cons_self)
        · rcases ih h with h | h
          · exact .inl h
          · exact .inr (List.mem_cons_of_mem _ h)

/-- Writing a record keeps the numbers of a table strictly rising. -/
theorem tput_pairwise (t : Tab α) (k : Nat) (v : α) (h : t.Pairwise (fun a b => a.1 < b.1)) :
    (tput t k v).Pairwise (fun a b => a.1 < b.1) := by
  induction t with
  | nil => simp [tput]
  | cons x r ih =>
    obtain ⟨i, w⟩ := x
    rw [List.pairwise_cons] at h
    simp only [tput]
    split
    · subst i; exact List.pairwise_cons.2 ⟨h.1, h.2⟩
    · split
      · rename_i hlt
        exact List.pairwise_cons.2 ⟨fun e he => by
          rcases List.mem_cons.1 he with rfl | he
          · exact hlt
          · exact lt_trans hlt (h.1 e he), List.pairwise_cons.2 h⟩
      · rename_i hne hlt
        refine List.pairwise_cons.2 ⟨fun e he => ?_, ih h.2⟩
        rcases mem_tput r k v e he with rfl | he
        · simp only; omega
        · exact h.1 e he

/-- Writing a cell keeps the canonical form. -/
theorem mwf_mput [DecidableEq α] (d : α) (m : Tab α) (a : Nat) (v : α) (h : mwf d m = true) : mwf d (mput d m a v) = true := by
  simp only [mput]
  split
  · exact mwf_tdel d m a h
  · rename_i hv
    rw [mwf_iff] at *
    refine ⟨tput_pairwise m a v h.1, fun e he => ?_⟩
    rcases mem_tput m a v e he with rfl | he
    · exact hv
    · exact h.2 e he

/-- Read after write of one cell. -/
theorem mget_mput [DecidableEq α] (d : α) (m : Tab α) (a b : Nat) (v : α) (h : mwf d m = true) :
    mget d (mput d m a v) b = if b = a then v else mget d m b := by
  simp only [mput, mget]
  split
  · subst v
    rw [mwf_iff] at h
    have := h.1; clear h
    induction m with
    | nil => simp [tdel]
    | cons e r ih =>
      obtain ⟨i, w⟩ := e
      rw [List.pairwise_cons] at this
      simp only [tdel]
      split
      · subst i
        by_cases g : b = a
        · subst g
          rw [if_pos rfl]
          have hr := this.1
          clear ih
          have h2 := this.2
          clear this
          have : ∀ e ∈ r, e.1 ≠ b := fun e he => by have := hr e he; simp at this; omega
          clear hr h2
          induction r with
          | nil => rfl
          | cons f r ih2 =>
            obtain ⟨j, u⟩ := f
            have hj := this (j, u) List.mem_cons_self
            simp only [tget]
            rw [if_neg (by simpa using hj)]
            exact ih2 fun e he => this e (List.mem_cons_of_mem _ he)
        · simp only [tget, if_neg g]
          rw [if_neg (fun h => g h.symm)]
      · rename_i hne
        by_cases g : i = b
        · subst g
          simp [tget, hne]
        · simp only [tget, if_neg g]
          exact ih this.2
  · exact tget_tput d m a b v

end Sys2Proof.Machine
end

