-- ==== Sys2Proof/Laws/State.lean ====
section
/-!
SUPPORT. What each named operation on the state leaves and writes: one lemma for each field and each unit, so that no later proof unfolds a record
update.
-/

namespace Sys2Proof.Machine

variable (s : State)


/-! ### setCore -/

@[simp] theorem State.setCore_aon (c : Nat) (x : Core) : (s.setCore c x).aon = s.aon := rfl
@[simp] theorem State.setCore_fieldQ (c : Nat) (x : Core) : (s.setCore c x).fieldQ = s.fieldQ := rfl
@[simp] theorem State.setCore_countQ (c : Nat) (x : Core) : (s.setCore c x).countQ = s.countQ := rfl
@[simp] theorem State.setCore_besideQ (c : Nat) (x : Core) : (s.setCore c x).besideQ = s.besideQ := rfl
@[simp] theorem State.setCore_pkg (c : Nat) (x : Core) : (s.setCore c x).pkg = s.pkg := rfl
@[simp] theorem State.setCore_settings (c : Nat) (x : Core) : (s.setCore c x).settings = s.settings := rfl
@[simp] theorem State.setCore_starters (c : Nat) (x : Core) : (s.setCore c x).starters = s.starters := rfl
@[simp] theorem State.setCore_beside (c : Nat) (x : Core) : (s.setCore c x).beside = s.beside := rfl
@[simp] theorem State.setCore_far (c : Nat) (x : Core) : (s.setCore c x).far = s.far := rfl
@[simp] theorem State.setCore_parts (c : Nat) (x : Core) : (s.setCore c x).parts = s.parts := rfl
@[simp] theorem State.setCore_srv (c : Nat) (x : Core) : (s.setCore c x).srv = s.srv := rfl
@[simp] theorem State.setCore_mbx (c : Nat) (x : Core) : (s.setCore c x).mbx = s.mbx := rfl
@[simp] theorem State.setCore_boot (c : Nat) (x : Core) : (s.setCore c x).boot = s.boot := rfl
@[simp] theorem State.setCore_fab (c : Nat) (x : Core) : (s.setCore c x).fab = s.fab := rfl
@[simp] theorem State.setCore_twin (c : Nat) (x : Core) : (s.setCore c x).twin = s.twin := rfl
@[simp] theorem State.setCore_energy (c : Nat) (x : Core) : (s.setCore c x).energy = s.energy := rfl
@[simp] theorem State.setCore_power (c : Nat) (x : Core) : (s.setCore c x).power = s.power := rfl
@[simp] theorem State.setCore_entry (c : Nat) (x : Core) : (s.setCore c x).entry = s.entry := rfl
@[simp] theorem State.setCore_dport (c : Nat) (x : Core) : (s.setCore c x).dport = s.dport := rfl
@[simp] theorem State.setCore_out (c : Nat) (x : Core) : (s.setCore c x).out = s.out := rfl
@[simp] theorem State.setCore_drawn (c : Nat) (x : Core) : (s.setCore c x).drawn = s.drawn := rfl
@[simp] theorem State.setCore_pending (c : Nat) (x : Core) : (s.setCore c x).pending = s.pending := rfl
theorem State.core_setCore (c : Nat) (x : Core) (j : Nat) : (s.setCore c x).core j = if j = c then x else s.core j := by
  simp [State.core, State.setCore, tget_tput]
@[simp] theorem State.core_setCore_same (c : Nat) (x : Core) : (s.setCore c x).core c = x := by simp [State.core_setCore]
@[simp] theorem State.setCore_starter (c : Nat) (x : Core) (j : Nat) : (s.setCore c x).starter j = s.starter j := rfl
@[simp] theorem State.setCore_bdie (c : Nat) (x : Core) (j : Nat) : (s.setCore c x).bdie j = s.bdie j := rfl
@[simp] theorem State.setCore_part (c : Nat) (x : Core) (j : Nat) : (s.setCore c x).part j = s.part j := rfl
@[simp] theorem State.setCore_fn (c : Nat) (x : Core) (j : Nat) : (s.setCore c x).fn j = s.fn j := rfl
@[simp] theorem State.setCore_ctx (c : Nat) (x : Core) (j : Nat) : (s.setCore c x).ctx j = s.ctx j := rfl
@[simp] theorem State.setCore_req (c : Nat) (x : Core) (j : Nat) : (s.setCore c x).req j = s.req j := rfl
@[simp] theorem State.setCore_sess (c : Nat) (x : Core) (j : Nat) : (s.setCore c x).sess j = s.sess j := rfl
@[simp] theorem State.setCore_heat (c : Nat) (x : Core) (j : Nat) : (s.setCore c x).heat j = s.heat j := rfl
@[simp] theorem State.setCore_map (c : Nat) (x : Core) (j : Nat) : (s.setCore c x).map j = s.map j := rfl
@[simp] theorem State.setCore_tenant (c : Nat) (x : Core) (j : Nat) : (s.setCore c x).tenant j = s.tenant j := rfl
@[simp] theorem State.setCore_link (c : Nat) (x : Core) (j : Nat) : (s.setCore c x).link j = s.link j := rfl
@[simp] theorem State.setCore_obj (c : Nat) (x : Core) (j : Nat) : (s.setCore c x).obj j = s.obj j := rfl

/-! ### setStarter -/

@[simp] theorem State.setStarter_aon (c : Nat) (x : Starter) : (s.setStarter c x).aon = s.aon := rfl
@[simp] theorem State.setStarter_fieldQ (c : Nat) (x : Starter) : (s.setStarter c x).fieldQ = s.fieldQ := rfl
@[simp] theorem State.setStarter_countQ (c : Nat) (x : Starter) : (s.setStarter c x).countQ = s.countQ := rfl
@[simp] theorem State.setStarter_besideQ (c : Nat) (x : Starter) : (s.setStarter c x).besideQ = s.besideQ := rfl
@[simp] theorem State.setStarter_pkg (c : Nat) (x : Starter) : (s.setStarter c x).pkg = s.pkg := rfl
@[simp] theorem State.setStarter_settings (c : Nat) (x : Starter) : (s.setStarter c x).settings = s.settings := rfl
@[simp] theorem State.setStarter_cores (c : Nat) (x : Starter) : (s.setStarter c x).cores = s.cores := rfl
@[simp] theorem State.setStarter_beside (c : Nat) (x : Starter) : (s.setStarter c x).beside = s.beside := rfl
@[simp] theorem State.setStarter_far (c : Nat) (x : Starter) : (s.setStarter c x).far = s.far := rfl
@[simp] theorem State.setStarter_parts (c : Nat) (x : Starter) : (s.setStarter c x).parts = s.parts := rfl
@[simp] theorem State.setStarter_srv (c : Nat) (x : Starter) : (s.setStarter c x).srv = s.srv := rfl
@[simp] theorem State.setStarter_mbx (c : Nat) (x : Starter) : (s.setStarter c x).mbx = s.mbx := rfl
@[simp] theorem State.setStarter_boot (c : Nat) (x : Starter) : (s.setStarter c x).boot = s.boot := rfl
@[simp] theorem State.setStarter_fab (c : Nat) (x : Starter) : (s.setStarter c x).fab = s.fab := rfl
@[simp] theorem State.setStarter_twin (c : Nat) (x : Starter) : (s.setStarter c x).twin = s.twin := rfl
@[simp] theorem State.setStarter_energy (c : Nat) (x : Starter) : (s.setStarter c x).energy = s.energy := rfl
@[simp] theorem State.setStarter_power (c : Nat) (x : Starter) : (s.setStarter c x).power = s.power := rfl
@[simp] theorem State.setStarter_entry (c : Nat) (x : Starter) : (s.setStarter c x).entry = s.entry := rfl
@[simp] theorem State.setStarter_dport (c : Nat) (x : Starter) : (s.setStarter c x).dport = s.dport := rfl
@[simp] theorem State.setStarter_out (c : Nat) (x : Starter) : (s.setStarter c x).out = s.out := rfl
@[simp] theorem State.setStarter_drawn (c : Nat) (x : Starter) : (s.setStarter c x).drawn = s.drawn := rfl
@[simp] theorem State.setStarter_pending (c : Nat) (x : Starter) : (s.setStarter c x).pending = s.pending := rfl
theorem State.starter_setStarter (c : Nat) (x : Starter) (j : Nat) : (s.setStarter c x).starter j = if j = c then x else s.starter j := by
  simp [State.starter, State.setStarter, tget_tput]
@[simp] theorem State.starter_setStarter_same (c : Nat) (x : Starter) : (s.setStarter c x).starter c = x := by simp [State.starter_setStarter]
@[simp] theorem State.setStarter_core (c : Nat) (x : Starter) (j : Nat) : (s.setStarter c x).core j = s.core j := rfl
@[simp] theorem State.setStarter_bdie (c : Nat) (x : Starter) (j : Nat) : (s.setStarter c x).bdie j = s.bdie j := rfl
@[simp] theorem State.setStarter_part (c : Nat) (x : Starter) (j : Nat) : (s.setStarter c x).part j = s.part j := rfl
@[simp] theorem State.setStarter_fn (c : Nat) (x : Starter) (j : Nat) : (s.setStarter c x).fn j = s.fn j := rfl
@[simp] theorem State.setStarter_ctx (c : Nat) (x : Starter) (j : Nat) : (s.setStarter c x).ctx j = s.ctx j := rfl
@[simp] theorem State.setStarter_req (c : Nat) (x : Starter) (j : Nat) : (s.setStarter c x).req j = s.req j := rfl
@[simp] theorem State.setStarter_sess (c : Nat) (x : Starter) (j : Nat) : (s.setStarter c x).sess j = s.sess j := rfl
@[simp] theorem State.setStarter_heat (c : Nat) (x : Starter) (j : Nat) : (s.setStarter c x).heat j = s.heat j := rfl
@[simp] theorem State.setStarter_map (c : Nat) (x : Starter) (j : Nat) : (s.setStarter c x).map j = s.map j := rfl
@[simp] theorem State.setStarter_tenant (c : Nat) (x : Starter) (j : Nat) : (s.setStarter c x).tenant j = s.tenant j := rfl
@[simp] theorem State.setStarter_link (c : Nat) (x : Starter) (j : Nat) : (s.setStarter c x).link j = s.link j := rfl
@[simp] theorem State.setStarter_obj (c : Nat) (x : Starter) (j : Nat) : (s.setStarter c x).obj j = s.obj j := rfl

/-! ### setBdie -/

@[simp] theorem State.setBdie_aon (c : Nat) (x : BesideDie) : (s.setBdie c x).aon = s.aon := rfl
@[simp] theorem State.setBdie_fieldQ (c : Nat) (x : BesideDie) : (s.setBdie c x).fieldQ = s.fieldQ := rfl
@[simp] theorem State.setBdie_countQ (c : Nat) (x : BesideDie) : (s.setBdie c x).countQ = s.countQ := rfl
@[simp] theorem State.setBdie_besideQ (c : Nat) (x : BesideDie) : (s.setBdie c x).besideQ = s.besideQ := rfl
@[simp] theorem State.setBdie_pkg (c : Nat) (x : BesideDie) : (s.setBdie c x).pkg = s.pkg := rfl
@[simp] theorem State.setBdie_settings (c : Nat) (x : BesideDie) : (s.setBdie c x).settings = s.settings := rfl
@[simp] theorem State.setBdie_cores (c : Nat) (x : BesideDie) : (s.setBdie c x).cores = s.cores := rfl
@[simp] theorem State.setBdie_starters (c : Nat) (x : BesideDie) : (s.setBdie c x).starters = s.starters := rfl
@[simp] theorem State.setBdie_far (c : Nat) (x : BesideDie) : (s.setBdie c x).far = s.far := rfl
@[simp] theorem State.setBdie_parts (c : Nat) (x : BesideDie) : (s.setBdie c x).parts = s.parts := rfl
@[simp] theorem State.setBdie_srv (c : Nat) (x : BesideDie) : (s.setBdie c x).srv = s.srv := rfl
@[simp] theorem State.setBdie_mbx (c : Nat) (x : BesideDie) : (s.setBdie c x).mbx = s.mbx := rfl
@[simp] theorem State.setBdie_boot (c : Nat) (x : BesideDie) : (s.setBdie c x).boot = s.boot := rfl
@[simp] theorem State.setBdie_fab (c : Nat) (x : BesideDie) : (s.setBdie c x).fab = s.fab := rfl
@[simp] theorem State.setBdie_twin (c : Nat) (x : BesideDie) : (s.setBdie c x).twin = s.twin := rfl
@[simp] theorem State.setBdie_energy (c : Nat) (x : BesideDie) : (s.setBdie c x).energy = s.energy := rfl
@[simp] theorem State.setBdie_power (c : Nat) (x : BesideDie) : (s.setBdie c x).power = s.power := rfl
@[simp] theorem State.setBdie_entry (c : Nat) (x : BesideDie) : (s.setBdie c x).entry = s.entry := rfl
@[simp] theorem State.setBdie_dport (c : Nat) (x : BesideDie) : (s.setBdie c x).dport = s.dport := rfl
@[simp] theorem State.setBdie_out (c : Nat) (x : BesideDie) : (s.setBdie c x).out = s.out := rfl
@[simp] theorem State.setBdie_drawn (c : Nat) (x : BesideDie) : (s.setBdie c x).drawn = s.drawn := rfl
@[simp] theorem State.setBdie_pending (c : Nat) (x : BesideDie) : (s.setBdie c x).pending = s.pending := rfl
theorem State.bdie_setBdie (c : Nat) (x : BesideDie) (j : Nat) : (s.setBdie c x).bdie j = if j = c then x else s.bdie j := by
  simp [State.bdie, State.setBdie, tget_tput]
@[simp] theorem State.bdie_setBdie_same (c : Nat) (x : BesideDie) : (s.setBdie c x).bdie c = x := by simp [State.bdie_setBdie]
@[simp] theorem State.setBdie_core (c : Nat) (x : BesideDie) (j : Nat) : (s.setBdie c x).core j = s.core j := rfl
@[simp] theorem State.setBdie_starter (c : Nat) (x : BesideDie) (j : Nat) : (s.setBdie c x).starter j = s.starter j := rfl
@[simp] theorem State.setBdie_part (c : Nat) (x : BesideDie) (j : Nat) : (s.setBdie c x).part j = s.part j := rfl
@[simp] theorem State.setBdie_fn (c : Nat) (x : BesideDie) (j : Nat) : (s.setBdie c x).fn j = s.fn j := rfl
@[simp] theorem State.setBdie_ctx (c : Nat) (x : BesideDie) (j : Nat) : (s.setBdie c x).ctx j = s.ctx j := rfl
@[simp] theorem State.setBdie_req (c : Nat) (x : BesideDie) (j : Nat) : (s.setBdie c x).req j = s.req j := rfl
@[simp] theorem State.setBdie_sess (c : Nat) (x : BesideDie) (j : Nat) : (s.setBdie c x).sess j = s.sess j := rfl
@[simp] theorem State.setBdie_heat (c : Nat) (x : BesideDie) (j : Nat) : (s.setBdie c x).heat j = s.heat j := rfl
@[simp] theorem State.setBdie_map (c : Nat) (x : BesideDie) (j : Nat) : (s.setBdie c x).map j = s.map j := rfl
@[simp] theorem State.setBdie_tenant (c : Nat) (x : BesideDie) (j : Nat) : (s.setBdie c x).tenant j = s.tenant j := rfl
@[simp] theorem State.setBdie_link (c : Nat) (x : BesideDie) (j : Nat) : (s.setBdie c x).link j = s.link j := rfl
@[simp] theorem State.setBdie_obj (c : Nat) (x : BesideDie) (j : Nat) : (s.setBdie c x).obj j = s.obj j := rfl

/-! ### setPart -/

@[simp] theorem State.setPart_aon (c : Nat) (x : Part) : (s.setPart c x).aon = s.aon := rfl
@[simp] theorem State.setPart_fieldQ (c : Nat) (x : Part) : (s.setPart c x).fieldQ = s.fieldQ := rfl
@[simp] theorem State.setPart_countQ (c : Nat) (x : Part) : (s.setPart c x).countQ = s.countQ := rfl
@[simp] theorem State.setPart_besideQ (c : Nat) (x : Part) : (s.setPart c x).besideQ = s.besideQ := rfl
@[simp] theorem State.setPart_pkg (c : Nat) (x : Part) : (s.setPart c x).pkg = s.pkg := rfl
@[simp] theorem State.setPart_settings (c : Nat) (x : Part) : (s.setPart c x).settings = s.settings := rfl
@[simp] theorem State.setPart_cores (c : Nat) (x : Part) : (s.setPart c x).cores = s.cores := rfl
@[simp] theorem State.setPart_starters (c : Nat) (x : Part) : (s.setPart c x).starters = s.starters := rfl
@[simp] theorem State.setPart_beside (c : Nat) (x : Part) : (s.setPart c x).beside = s.beside := rfl
@[simp] theorem State.setPart_far (c : Nat) (x : Part) : (s.setPart c x).far = s.far := rfl
@[simp] theorem State.setPart_srv (c : Nat) (x : Part) : (s.setPart c x).srv = s.srv := rfl
@[simp] theorem State.setPart_mbx (c : Nat) (x : Part) : (s.setPart c x).mbx = s.mbx := rfl
@[simp] theorem State.setPart_boot (c : Nat) (x : Part) : (s.setPart c x).boot = s.boot := rfl
@[simp] theorem State.setPart_fab (c : Nat) (x : Part) : (s.setPart c x).fab = s.fab := rfl
@[simp] theorem State.setPart_twin (c : Nat) (x : Part) : (s.setPart c x).twin = s.twin := rfl
@[simp] theorem State.setPart_energy (c : Nat) (x : Part) : (s.setPart c x).energy = s.energy := rfl
@[simp] theorem State.setPart_power (c : Nat) (x : Part) : (s.setPart c x).power = s.power := rfl
@[simp] theorem State.setPart_entry (c : Nat) (x : Part) : (s.setPart c x).entry = s.entry := rfl
@[simp] theorem State.setPart_dport (c : Nat) (x : Part) : (s.setPart c x).dport = s.dport := rfl
@[simp] theorem State.setPart_out (c : Nat) (x : Part) : (s.setPart c x).out = s.out := rfl
@[simp] theorem State.setPart_drawn (c : Nat) (x : Part) : (s.setPart c x).drawn = s.drawn := rfl
@[simp] theorem State.setPart_pending (c : Nat) (x : Part) : (s.setPart c x).pending = s.pending := rfl
theorem State.part_setPart (c : Nat) (x : Part) (j : Nat) : (s.setPart c x).part j = if j = c then x else s.part j := by
  simp [State.part, State.setPart, tget_tput]
@[simp] theorem State.part_setPart_same (c : Nat) (x : Part) : (s.setPart c x).part c = x := by simp [State.part_setPart]
@[simp] theorem State.setPart_core (c : Nat) (x : Part) (j : Nat) : (s.setPart c x).core j = s.core j := rfl
@[simp] theorem State.setPart_starter (c : Nat) (x : Part) (j : Nat) : (s.setPart c x).starter j = s.starter j := rfl
@[simp] theorem State.setPart_bdie (c : Nat) (x : Part) (j : Nat) : (s.setPart c x).bdie j = s.bdie j := rfl
@[simp] theorem State.setPart_fn (c : Nat) (x : Part) (j : Nat) : (s.setPart c x).fn j = s.fn j := rfl
@[simp] theorem State.setPart_ctx (c : Nat) (x : Part) (j : Nat) : (s.setPart c x).ctx j = s.ctx j := rfl
@[simp] theorem State.setPart_req (c : Nat) (x : Part) (j : Nat) : (s.setPart c x).req j = s.req j := rfl
@[simp] theorem State.setPart_sess (c : Nat) (x : Part) (j : Nat) : (s.setPart c x).sess j = s.sess j := rfl
@[simp] theorem State.setPart_heat (c : Nat) (x : Part) (j : Nat) : (s.setPart c x).heat j = s.heat j := rfl
@[simp] theorem State.setPart_map (c : Nat) (x : Part) (j : Nat) : (s.setPart c x).map j = s.map j := rfl
@[simp] theorem State.setPart_tenant (c : Nat) (x : Part) (j : Nat) : (s.setPart c x).tenant j = s.tenant j := rfl
@[simp] theorem State.setPart_link (c : Nat) (x : Part) (j : Nat) : (s.setPart c x).link j = s.link j := rfl
@[simp] theorem State.setPart_obj (c : Nat) (x : Part) (j : Nat) : (s.setPart c x).obj j = s.obj j := rfl

/-! ### setFn -/

@[simp] theorem State.setFn_aon (c : Nat) (x : Fn) : (s.setFn c x).aon = s.aon := rfl
@[simp] theorem State.setFn_fieldQ (c : Nat) (x : Fn) : (s.setFn c x).fieldQ = s.fieldQ := rfl
@[simp] theorem State.setFn_countQ (c : Nat) (x : Fn) : (s.setFn c x).countQ = s.countQ := rfl
@[simp] theorem State.setFn_besideQ (c : Nat) (x : Fn) : (s.setFn c x).besideQ = s.besideQ := rfl
@[simp] theorem State.setFn_pkg (c : Nat) (x : Fn) : (s.setFn c x).pkg = s.pkg := rfl
@[simp] theorem State.setFn_settings (c : Nat) (x : Fn) : (s.setFn c x).settings = s.settings := rfl
@[simp] theorem State.setFn_cores (c : Nat) (x : Fn) : (s.setFn c x).cores = s.cores := rfl
@[simp] theorem State.setFn_starters (c : Nat) (x : Fn) : (s.setFn c x).starters = s.starters := rfl
@[simp] theorem State.setFn_beside (c : Nat) (x : Fn) : (s.setFn c x).beside = s.beside := rfl
@[simp] theorem State.setFn_far (c : Nat) (x : Fn) : (s.setFn c x).far = s.far := rfl
@[simp] theorem State.setFn_parts (c : Nat) (x : Fn) : (s.setFn c x).parts = s.parts := rfl
@[simp] theorem State.setFn_srv (c : Nat) (x : Fn) : (s.setFn c x).srv = s.srv := rfl
@[simp] theorem State.setFn_boot (c : Nat) (x : Fn) : (s.setFn c x).boot = s.boot := rfl
@[simp] theorem State.setFn_fab (c : Nat) (x : Fn) : (s.setFn c x).fab = s.fab := rfl
@[simp] theorem State.setFn_twin (c : Nat) (x : Fn) : (s.setFn c x).twin = s.twin := rfl
@[simp] theorem State.setFn_energy (c : Nat) (x : Fn) : (s.setFn c x).energy = s.energy := rfl
@[simp] theorem State.setFn_power (c : Nat) (x : Fn) : (s.setFn c x).power = s.power := rfl
@[simp] theorem State.setFn_entry (c : Nat) (x : Fn) : (s.setFn c x).entry = s.entry := rfl
@[simp] theorem State.setFn_dport (c : Nat) (x : Fn) : (s.setFn c x).dport = s.dport := rfl
@[simp] theorem State.setFn_out (c : Nat) (x : Fn) : (s.setFn c x).out = s.out := rfl
@[simp] theorem State.setFn_drawn (c : Nat) (x : Fn) : (s.setFn c x).drawn = s.drawn := rfl
@[simp] theorem State.setFn_pending (c : Nat) (x : Fn) : (s.setFn c x).pending = s.pending := rfl
@[simp] theorem State.setFn_mbx_bar2 (c : Nat) (x : Fn) : (s.setFn c x).mbx.bar2 = s.mbx.bar2 := rfl
@[simp] theorem State.setFn_mbx_ready (c : Nat) (x : Fn) : (s.setFn c x).mbx.ready = s.mbx.ready := rfl
@[simp] theorem State.setFn_mbx_degraded (c : Nat) (x : Fn) : (s.setFn c x).mbx.degraded = s.mbx.degraded := rfl
@[simp] theorem State.setFn_mbx_resetting (c : Nat) (x : Fn) : (s.setFn c x).mbx.resetting = s.mbx.resetting := rfl
@[simp] theorem State.setFn_mbx_linkWidth (c : Nat) (x : Fn) : (s.setFn c x).mbx.linkWidth = s.mbx.linkWidth := rfl
@[simp] theorem State.setFn_mbx_linkRate (c : Nat) (x : Fn) : (s.setFn c x).mbx.linkRate = s.mbx.linkRate := rfl
@[simp] theorem State.setFn_mbx_fnRr (c : Nat) (x : Fn) : (s.setFn c x).mbx.fnRr = s.mbx.fnRr := rfl
@[simp] theorem State.setFn_mbx_sideDeferred (c : Nat) (x : Fn) : (s.setFn c x).mbx.sideDeferred = s.mbx.sideDeferred := rfl
theorem State.fn_setFn (c : Nat) (x : Fn) (j : Nat) : (s.setFn c x).fn j = if j = c then x else s.fn j := by
  simp [State.fn, State.setFn, tget_tput]
@[simp] theorem State.fn_setFn_same (c : Nat) (x : Fn) : (s.setFn c x).fn c = x := by simp [State.fn_setFn]
@[simp] theorem State.setFn_core (c : Nat) (x : Fn) (j : Nat) : (s.setFn c x).core j = s.core j := rfl
@[simp] theorem State.setFn_starter (c : Nat) (x : Fn) (j : Nat) : (s.setFn c x).starter j = s.starter j := rfl
@[simp] theorem State.setFn_bdie (c : Nat) (x : Fn) (j : Nat) : (s.setFn c x).bdie j = s.bdie j := rfl
@[simp] theorem State.setFn_part (c : Nat) (x : Fn) (j : Nat) : (s.setFn c x).part j = s.part j := rfl
@[simp] theorem State.setFn_ctx (c : Nat) (x : Fn) (j : Nat) : (s.setFn c x).ctx j = s.ctx j := rfl
@[simp] theorem State.setFn_req (c : Nat) (x : Fn) (j : Nat) : (s.setFn c x).req j = s.req j := rfl
@[simp] theorem State.setFn_sess (c : Nat) (x : Fn) (j : Nat) : (s.setFn c x).sess j = s.sess j := rfl
@[simp] theorem State.setFn_heat (c : Nat) (x : Fn) (j : Nat) : (s.setFn c x).heat j = s.heat j := rfl
@[simp] theorem State.setFn_map (c : Nat) (x : Fn) (j : Nat) : (s.setFn c x).map j = s.map j := rfl
@[simp] theorem State.setFn_tenant (c : Nat) (x : Fn) (j : Nat) : (s.setFn c x).tenant j = s.tenant j := rfl
@[simp] theorem State.setFn_link (c : Nat) (x : Fn) (j : Nat) : (s.setFn c x).link j = s.link j := rfl
@[simp] theorem State.setFn_obj (c : Nat) (x : Fn) (j : Nat) : (s.setFn c x).obj j = s.obj j := rfl

/-! ### setCtx -/

@[simp] theorem State.setCtx_aon (c : Nat) (x : Ctx) : (s.setCtx c x).aon = s.aon := rfl
@[simp] theorem State.setCtx_fieldQ (c : Nat) (x : Ctx) : (s.setCtx c x).fieldQ = s.fieldQ := rfl
@[simp] theorem State.setCtx_countQ (c : Nat) (x : Ctx) : (s.setCtx c x).countQ = s.countQ := rfl
@[simp] theorem State.setCtx_besideQ (c : Nat) (x : Ctx) : (s.setCtx c x).besideQ = s.besideQ := rfl
@[simp] theorem State.setCtx_pkg (c : Nat) (x : Ctx) : (s.setCtx c x).pkg = s.pkg := rfl
@[simp] theorem State.setCtx_settings (c : Nat) (x : Ctx) : (s.setCtx c x).settings = s.settings := rfl
@[simp] theorem State.setCtx_cores (c : Nat) (x : Ctx) : (s.setCtx c x).cores = s.cores := rfl
@[simp] theorem State.setCtx_starters (c : Nat) (x : Ctx) : (s.setCtx c x).starters = s.starters := rfl
@[simp] theorem State.setCtx_beside (c : Nat) (x : Ctx) : (s.setCtx c x).beside = s.beside := rfl
@[simp] theorem State.setCtx_far (c : Nat) (x : Ctx) : (s.setCtx c x).far = s.far := rfl
@[simp] theorem State.setCtx_parts (c : Nat) (x : Ctx) : (s.setCtx c x).parts = s.parts := rfl
@[simp] theorem State.setCtx_mbx (c : Nat) (x : Ctx) : (s.setCtx c x).mbx = s.mbx := rfl
@[simp] theorem State.setCtx_boot (c : Nat) (x : Ctx) : (s.setCtx c x).boot = s.boot := rfl
@[simp] theorem State.setCtx_fab (c : Nat) (x : Ctx) : (s.setCtx c x).fab = s.fab := rfl
@[simp] theorem State.setCtx_twin (c : Nat) (x : Ctx) : (s.setCtx c x).twin = s.twin := rfl
@[simp] theorem State.setCtx_energy (c : Nat) (x : Ctx) : (s.setCtx c x).energy = s.energy := rfl
@[simp] theorem State.setCtx_power (c : Nat) (x : Ctx) : (s.setCtx c x).power = s.power := rfl
@[simp] theorem State.setCtx_entry (c : Nat) (x : Ctx) : (s.setCtx c x).entry = s.entry := rfl
@[simp] theorem State.setCtx_dport (c : Nat) (x : Ctx) : (s.setCtx c x).dport = s.dport := rfl
@[simp] theorem State.setCtx_out (c : Nat) (x : Ctx) : (s.setCtx c x).out = s.out := rfl
@[simp] theorem State.setCtx_drawn (c : Nat) (x : Ctx) : (s.setCtx c x).drawn = s.drawn := rfl
@[simp] theorem State.setCtx_pending (c : Nat) (x : Ctx) : (s.setCtx c x).pending = s.pending := rfl
@[simp] theorem State.setCtx_srv_ledger (c : Nat) (x : Ctx) : (s.setCtx c x).srv.ledger = s.srv.ledger := rfl
@[simp] theorem State.setCtx_srv_sessions (c : Nat) (x : Ctx) : (s.setCtx c x).srv.sessions = s.srv.sessions := rfl
@[simp] theorem State.setCtx_srv_tenants (c : Nat) (x : Ctx) : (s.setCtx c x).srv.tenants = s.srv.tenants := rfl
@[simp] theorem State.setCtx_srv_queues (c : Nat) (x : Ctx) : (s.setCtx c x).srv.queues = s.srv.queues := rfl
@[simp] theorem State.setCtx_srv_heats (c : Nat) (x : Ctx) : (s.setCtx c x).srv.heats = s.srv.heats := rfl
@[simp] theorem State.setCtx_srv_maps (c : Nat) (x : Ctx) : (s.setCtx c x).srv.maps = s.srv.maps := rfl
@[simp] theorem State.setCtx_srv_mirrors (c : Nat) (x : Ctx) : (s.setCtx c x).srv.mirrors = s.srv.mirrors := rfl
@[simp] theorem State.setCtx_srv_heatSerial (c : Nat) (x : Ctx) : (s.setCtx c x).srv.heatSerial = s.srv.heatSerial := rfl
@[simp] theorem State.setCtx_srv_jobLap (c : Nat) (x : Ctx) : (s.setCtx c x).srv.jobLap = s.srv.jobLap := rfl
theorem State.ctx_setCtx (c : Nat) (x : Ctx) (j : Nat) : (s.setCtx c x).ctx j = if j = c then x else s.ctx j := by
  simp [State.ctx, State.setCtx, tget_tput]
@[simp] theorem State.ctx_setCtx_same (c : Nat) (x : Ctx) : (s.setCtx c x).ctx c = x := by simp [State.ctx_setCtx]
@[simp] theorem State.setCtx_core (c : Nat) (x : Ctx) (j : Nat) : (s.setCtx c x).core j = s.core j := rfl
@[simp] theorem State.setCtx_starter (c : Nat) (x : Ctx) (j : Nat) : (s.setCtx c x).starter j = s.starter j := rfl
@[simp] theorem State.setCtx_bdie (c : Nat) (x : Ctx) (j : Nat) : (s.setCtx c x).bdie j = s.bdie j := rfl
@[simp] theorem State.setCtx_part (c : Nat) (x : Ctx) (j : Nat) : (s.setCtx c x).part j = s.part j := rfl
@[simp] theorem State.setCtx_fn (c : Nat) (x : Ctx) (j : Nat) : (s.setCtx c x).fn j = s.fn j := rfl
@[simp] theorem State.setCtx_req (c : Nat) (x : Ctx) (j : Nat) : (s.setCtx c x).req j = s.req j := rfl
@[simp] theorem State.setCtx_sess (c : Nat) (x : Ctx) (j : Nat) : (s.setCtx c x).sess j = s.sess j := rfl
@[simp] theorem State.setCtx_heat (c : Nat) (x : Ctx) (j : Nat) : (s.setCtx c x).heat j = s.heat j := rfl
@[simp] theorem State.setCtx_map (c : Nat) (x : Ctx) (j : Nat) : (s.setCtx c x).map j = s.map j := rfl
@[simp] theorem State.setCtx_tenant (c : Nat) (x : Ctx) (j : Nat) : (s.setCtx c x).tenant j = s.tenant j := rfl
@[simp] theorem State.setCtx_link (c : Nat) (x : Ctx) (j : Nat) : (s.setCtx c x).link j = s.link j := rfl
@[simp] theorem State.setCtx_obj (c : Nat) (x : Ctx) (j : Nat) : (s.setCtx c x).obj j = s.obj j := rfl

/-! ### setReq -/

@[simp] theorem State.setReq_aon (c : Nat) (x : Req) : (s.setReq c x).aon = s.aon := rfl
@[simp] theorem State.setReq_fieldQ (c : Nat) (x : Req) : (s.setReq c x).fieldQ = s.fieldQ := rfl
@[simp] theorem State.setReq_countQ (c : Nat) (x : Req) : (s.setReq c x).countQ = s.countQ := rfl
@[simp] theorem State.setReq_besideQ (c : Nat) (x : Req) : (s.setReq c x).besideQ = s.besideQ := rfl
@[simp] theorem State.setReq_pkg (c : Nat) (x : Req) : (s.setReq c x).pkg = s.pkg := rfl
@[simp] theorem State.setReq_settings (c : Nat) (x : Req) : (s.setReq c x).settings = s.settings := rfl
@[simp] theorem State.setReq_cores (c : Nat) (x : Req) : (s.setReq c x).cores = s.cores := rfl
@[simp] theorem State.setReq_starters (c : Nat) (x : Req) : (s.setReq c x).starters = s.starters := rfl
@[simp] theorem State.setReq_beside (c : Nat) (x : Req) : (s.setReq c x).beside = s.beside := rfl
@[simp] theorem State.setReq_far (c : Nat) (x : Req) : (s.setReq c x).far = s.far := rfl
@[simp] theorem State.setReq_parts (c : Nat) (x : Req) : (s.setReq c x).parts = s.parts := rfl
@[simp] theorem State.setReq_mbx (c : Nat) (x : Req) : (s.setReq c x).mbx = s.mbx := rfl
@[simp] theorem State.setReq_boot (c : Nat) (x : Req) : (s.setReq c x).boot = s.boot := rfl
@[simp] theorem State.setReq_fab (c : Nat) (x : Req) : (s.setReq c x).fab = s.fab := rfl
@[simp] theorem State.setReq_twin (c : Nat) (x : Req) : (s.setReq c x).twin = s.twin := rfl
@[simp] theorem State.setReq_energy (c : Nat) (x : Req) : (s.setReq c x).energy = s.energy := rfl
@[simp] theorem State.setReq_power (c : Nat) (x : Req) : (s.setReq c x).power = s.power := rfl
@[simp] theorem State.setReq_entry (c : Nat) (x : Req) : (s.setReq c x).entry = s.entry := rfl
@[simp] theorem State.setReq_dport (c : Nat) (x : Req) : (s.setReq c x).dport = s.dport := rfl
@[simp] theorem State.setReq_out (c : Nat) (x : Req) : (s.setReq c x).out = s.out := rfl
@[simp] theorem State.setReq_drawn (c : Nat) (x : Req) : (s.setReq c x).drawn = s.drawn := rfl
@[simp] theorem State.setReq_pending (c : Nat) (x : Req) : (s.setReq c x).pending = s.pending := rfl
@[simp] theorem State.setReq_srv_sessions (c : Nat) (x : Req) : (s.setReq c x).srv.sessions = s.srv.sessions := rfl
@[simp] theorem State.setReq_srv_tenants (c : Nat) (x : Req) : (s.setReq c x).srv.tenants = s.srv.tenants := rfl
@[simp] theorem State.setReq_srv_queues (c : Nat) (x : Req) : (s.setReq c x).srv.queues = s.srv.queues := rfl
@[simp] theorem State.setReq_srv_ctxs (c : Nat) (x : Req) : (s.setReq c x).srv.ctxs = s.srv.ctxs := rfl
@[simp] theorem State.setReq_srv_heats (c : Nat) (x : Req) : (s.setReq c x).srv.heats = s.srv.heats := rfl
@[simp] theorem State.setReq_srv_maps (c : Nat) (x : Req) : (s.setReq c x).srv.maps = s.srv.maps := rfl
@[simp] theorem State.setReq_srv_mirrors (c : Nat) (x : Req) : (s.setReq c x).srv.mirrors = s.srv.mirrors := rfl
@[simp] theorem State.setReq_srv_heatSerial (c : Nat) (x : Req) : (s.setReq c x).srv.heatSerial = s.srv.heatSerial := rfl
@[simp] theorem State.setReq_srv_jobLap (c : Nat) (x : Req) : (s.setReq c x).srv.jobLap = s.srv.jobLap := rfl
theorem State.req_setReq (c : Nat) (x : Req) (j : Nat) : (s.setReq c x).req j = if j = c then x else s.req j := by
  simp [State.req, State.setReq, tget_tput]
@[simp] theorem State.req_setReq_same (c : Nat) (x : Req) : (s.setReq c x).req c = x := by simp [State.req_setReq]
@[simp] theorem State.setReq_core (c : Nat) (x : Req) (j : Nat) : (s.setReq c x).core j = s.core j := rfl
@[simp] theorem State.setReq_starter (c : Nat) (x : Req) (j : Nat) : (s.setReq c x).starter j = s.starter j := rfl
@[simp] theorem State.setReq_bdie (c : Nat) (x : Req) (j : Nat) : (s.setReq c x).bdie j = s.bdie j := rfl
@[simp] theorem State.setReq_part (c : Nat) (x : Req) (j : Nat) : (s.setReq c x).part j = s.part j := rfl
@[simp] theorem State.setReq_fn (c : Nat) (x : Req) (j : Nat) : (s.setReq c x).fn j = s.fn j := rfl
@[simp] theorem State.setReq_ctx (c : Nat) (x : Req) (j : Nat) : (s.setReq c x).ctx j = s.ctx j := rfl
@[simp] theorem State.setReq_sess (c : Nat) (x : Req) (j : Nat) : (s.setReq c x).sess j = s.sess j := rfl
@[simp] theorem State.setReq_heat (c : Nat) (x : Req) (j : Nat) : (s.setReq c x).heat j = s.heat j := rfl
@[simp] theorem State.setReq_map (c : Nat) (x : Req) (j : Nat) : (s.setReq c x).map j = s.map j := rfl
@[simp] theorem State.setReq_tenant (c : Nat) (x : Req) (j : Nat) : (s.setReq c x).tenant j = s.tenant j := rfl
@[simp] theorem State.setReq_link (c : Nat) (x : Req) (j : Nat) : (s.setReq c x).link j = s.link j := rfl
@[simp] theorem State.setReq_obj (c : Nat) (x : Req) (j : Nat) : (s.setReq c x).obj j = s.obj j := rfl

/-! ### setSess -/

@[simp] theorem State.setSess_aon (c : Nat) (x : Session) : (s.setSess c x).aon = s.aon := rfl
@[simp] theorem State.setSess_fieldQ (c : Nat) (x : Session) : (s.setSess c x).fieldQ = s.fieldQ := rfl
@[simp] theorem State.setSess_countQ (c : Nat) (x : Session) : (s.setSess c x).countQ = s.countQ := rfl
@[simp] theorem State.setSess_besideQ (c : Nat) (x : Session) : (s.setSess c x).besideQ = s.besideQ := rfl
@[simp] theorem State.setSess_pkg (c : Nat) (x : Session) : (s.setSess c x).pkg = s.pkg := rfl
@[simp] theorem State.setSess_settings (c : Nat) (x : Session) : (s.setSess c x).settings = s.settings := rfl
@[simp] theorem State.setSess_cores (c : Nat) (x : Session) : (s.setSess c x).cores = s.cores := rfl
@[simp] theorem State.setSess_starters (c : Nat) (x : Session) : (s.setSess c x).starters = s.starters := rfl
@[simp] theorem State.setSess_beside (c : Nat) (x : Session) : (s.setSess c x).beside = s.beside := rfl
@[simp] theorem State.setSess_far (c : Nat) (x : Session) : (s.setSess c x).far = s.far := rfl
@[simp] theorem State.setSess_parts (c : Nat) (x : Session) : (s.setSess c x).parts = s.parts := rfl
@[simp] theorem State.setSess_mbx (c : Nat) (x : Session) : (s.setSess c x).mbx = s.mbx := rfl
@[simp] theorem State.setSess_boot (c : Nat) (x : Session) : (s.setSess c x).boot = s.boot := rfl
@[simp] theorem State.setSess_fab (c : Nat) (x : Session) : (s.setSess c x).fab = s.fab := rfl
@[simp] theorem State.setSess_twin (c : Nat) (x : Session) : (s.setSess c x).twin = s.twin := rfl
@[simp] theorem State.setSess_energy (c : Nat) (x : Session) : (s.setSess c x).energy = s.energy := rfl
@[simp] theorem State.setSess_power (c : Nat) (x : Session) : (s.setSess c x).power = s.power := rfl
@[simp] theorem State.setSess_entry (c : Nat) (x : Session) : (s.setSess c x).entry = s.entry := rfl
@[simp] theorem State.setSess_dport (c : Nat) (x : Session) : (s.setSess c x).dport = s.dport := rfl
@[simp] theorem State.setSess_out (c : Nat) (x : Session) : (s.setSess c x).out = s.out := rfl
@[simp] theorem State.setSess_drawn (c : Nat) (x : Session) : (s.setSess c x).drawn = s.drawn := rfl
@[simp] theorem State.setSess_pending (c : Nat) (x : Session) : (s.setSess c x).pending = s.pending := rfl
@[simp] theorem State.setSess_srv_ledger (c : Nat) (x : Session) : (s.setSess c x).srv.ledger = s.srv.ledger := rfl
@[simp] theorem State.setSess_srv_tenants (c : Nat) (x : Session) : (s.setSess c x).srv.tenants = s.srv.tenants := rfl
@[simp] theorem State.setSess_srv_queues (c : Nat) (x : Session) : (s.setSess c x).srv.queues = s.srv.queues := rfl
@[simp] theorem State.setSess_srv_ctxs (c : Nat) (x : Session) : (s.setSess c x).srv.ctxs = s.srv.ctxs := rfl
@[simp] theorem State.setSess_srv_heats (c : Nat) (x : Session) : (s.setSess c x).srv.heats = s.srv.heats := rfl
@[simp] theorem State.setSess_srv_maps (c : Nat) (x : Session) : (s.setSess c x).srv.maps = s.srv.maps := rfl
@[simp] theorem State.setSess_srv_mirrors (c : Nat) (x : Session) : (s.setSess c x).srv.mirrors = s.srv.mirrors := rfl
@[simp] theorem State.setSess_srv_heatSerial (c : Nat) (x : Session) : (s.setSess c x).srv.heatSerial = s.srv.heatSerial := rfl
@[simp] theorem State.setSess_srv_jobLap (c : Nat) (x : Session) : (s.setSess c x).srv.jobLap = s.srv.jobLap := rfl
theorem State.sess_setSess (c : Nat) (x : Session) (j : Nat) : (s.setSess c x).sess j = if j = c then x else s.sess j := by
  simp [State.sess, State.setSess, tget_tput]
@[simp] theorem State.sess_setSess_same (c : Nat) (x : Session) : (s.setSess c x).sess c = x := by simp [State.sess_setSess]
@[simp] theorem State.setSess_core (c : Nat) (x : Session) (j : Nat) : (s.setSess c x).core j = s.core j := rfl
@[simp] theorem State.setSess_starter (c : Nat) (x : Session) (j : Nat) : (s.setSess c x).starter j = s.starter j := rfl
@[simp] theorem State.setSess_bdie (c : Nat) (x : Session) (j : Nat) : (s.setSess c x).bdie j = s.bdie j := rfl
@[simp] theorem State.setSess_part (c : Nat) (x : Session) (j : Nat) : (s.setSess c x).part j = s.part j := rfl
@[simp] theorem State.setSess_fn (c : Nat) (x : Session) (j : Nat) : (s.setSess c x).fn j = s.fn j := rfl
@[simp] theorem State.setSess_ctx (c : Nat) (x : Session) (j : Nat) : (s.setSess c x).ctx j = s.ctx j := rfl
@[simp] theorem State.setSess_req (c : Nat) (x : Session) (j : Nat) : (s.setSess c x).req j = s.req j := rfl
@[simp] theorem State.setSess_heat (c : Nat) (x : Session) (j : Nat) : (s.setSess c x).heat j = s.heat j := rfl
@[simp] theorem State.setSess_map (c : Nat) (x : Session) (j : Nat) : (s.setSess c x).map j = s.map j := rfl
@[simp] theorem State.setSess_tenant (c : Nat) (x : Session) (j : Nat) : (s.setSess c x).tenant j = s.tenant j := rfl
@[simp] theorem State.setSess_link (c : Nat) (x : Session) (j : Nat) : (s.setSess c x).link j = s.link j := rfl
@[simp] theorem State.setSess_obj (c : Nat) (x : Session) (j : Nat) : (s.setSess c x).obj j = s.obj j := rfl

/-! ### setHeat -/

@[simp] theorem State.setHeat_aon (c : Nat) (x : Heat) : (s.setHeat c x).aon = s.aon := rfl
@[simp] theorem State.setHeat_fieldQ (c : Nat) (x : Heat) : (s.setHeat c x).fieldQ = s.fieldQ := rfl
@[simp] theorem State.setHeat_countQ (c : Nat) (x : Heat) : (s.setHeat c x).countQ = s.countQ := rfl
@[simp] theorem State.setHeat_besideQ (c : Nat) (x : Heat) : (s.setHeat c x).besideQ = s.besideQ := rfl
@[simp] theorem State.setHeat_pkg (c : Nat) (x : Heat) : (s.setHeat c x).pkg = s.pkg := rfl
@[simp] theorem State.setHeat_settings (c : Nat) (x : Heat) : (s.setHeat c x).settings = s.settings := rfl
@[simp] theorem State.setHeat_cores (c : Nat) (x : Heat) : (s.setHeat c x).cores = s.cores := rfl
@[simp] theorem State.setHeat_starters (c : Nat) (x : Heat) : (s.setHeat c x).starters = s.starters := rfl
@[simp] theorem State.setHeat_beside (c : Nat) (x : Heat) : (s.setHeat c x).beside = s.beside := rfl
@[simp] theorem State.setHeat_far (c : Nat) (x : Heat) : (s.setHeat c x).far = s.far := rfl
@[simp] theorem State.setHeat_parts (c : Nat) (x : Heat) : (s.setHeat c x).parts = s.parts := rfl
@[simp] theorem State.setHeat_mbx (c : Nat) (x : Heat) : (s.setHeat c x).mbx = s.mbx := rfl
@[simp] theorem State.setHeat_boot (c : Nat) (x : Heat) : (s.setHeat c x).boot = s.boot := rfl
@[simp] theorem State.setHeat_fab (c : Nat) (x : Heat) : (s.setHeat c x).fab = s.fab := rfl
@[simp] theorem State.setHeat_twin (c : Nat) (x : Heat) : (s.setHeat c x).twin = s.twin := rfl
@[simp] theorem State.setHeat_energy (c : Nat) (x : Heat) : (s.setHeat c x).energy = s.energy := rfl
@[simp] theorem State.setHeat_power (c : Nat) (x : Heat) : (s.setHeat c x).power = s.power := rfl
@[simp] theorem State.setHeat_entry (c : Nat) (x : Heat) : (s.setHeat c x).entry = s.entry := rfl
@[simp] theorem State.setHeat_dport (c : Nat) (x : Heat) : (s.setHeat c x).dport = s.dport := rfl
@[simp] theorem State.setHeat_out (c : Nat) (x : Heat) : (s.setHeat c x).out = s.out := rfl
@[simp] theorem State.setHeat_drawn (c : Nat) (x : Heat) : (s.setHeat c x).drawn = s.drawn := rfl
@[simp] theorem State.setHeat_pending (c : Nat) (x : Heat) : (s.setHeat c x).pending = s.pending := rfl
@[simp] theorem State.setHeat_srv_ledger (c : Nat) (x : Heat) : (s.setHeat c x).srv.ledger = s.srv.ledger := rfl
@[simp] theorem State.setHeat_srv_sessions (c : Nat) (x : Heat) : (s.setHeat c x).srv.sessions = s.srv.sessions := rfl
@[simp] theorem State.setHeat_srv_tenants (c : Nat) (x : Heat) : (s.setHeat c x).srv.tenants = s.srv.tenants := rfl
@[simp] theorem State.setHeat_srv_queues (c : Nat) (x : Heat) : (s.setHeat c x).srv.queues = s.srv.queues := rfl
@[simp] theorem State.setHeat_srv_ctxs (c : Nat) (x : Heat) : (s.setHeat c x).srv.ctxs = s.srv.ctxs := rfl
@[simp] theorem State.setHeat_srv_maps (c : Nat) (x : Heat) : (s.setHeat c x).srv.maps = s.srv.maps := rfl
@[simp] theorem State.setHeat_srv_mirrors (c : Nat) (x : Heat) : (s.setHeat c x).srv.mirrors = s.srv.mirrors := rfl
@[simp] theorem State.setHeat_srv_heatSerial (c : Nat) (x : Heat) : (s.setHeat c x).srv.heatSerial = s.srv.heatSerial := rfl
@[simp] theorem State.setHeat_srv_jobLap (c : Nat) (x : Heat) : (s.setHeat c x).srv.jobLap = s.srv.jobLap := rfl
theorem State.heat_setHeat (c : Nat) (x : Heat) (j : Nat) : (s.setHeat c x).heat j = if j = c then x else s.heat j := by
  simp [State.heat, State.setHeat, tget_tput]
@[simp] theorem State.heat_setHeat_same (c : Nat) (x : Heat) : (s.setHeat c x).heat c = x := by simp [State.heat_setHeat]
@[simp] theorem State.setHeat_core (c : Nat) (x : Heat) (j : Nat) : (s.setHeat c x).core j = s.core j := rfl
@[simp] theorem State.setHeat_starter (c : Nat) (x : Heat) (j : Nat) : (s.setHeat c x).starter j = s.starter j := rfl
@[simp] theorem State.setHeat_bdie (c : Nat) (x : Heat) (j : Nat) : (s.setHeat c x).bdie j = s.bdie j := rfl
@[simp] theorem State.setHeat_part (c : Nat) (x : Heat) (j : Nat) : (s.setHeat c x).part j = s.part j := rfl
@[simp] theorem State.setHeat_fn (c : Nat) (x : Heat) (j : Nat) : (s.setHeat c x).fn j = s.fn j := rfl
@[simp] theorem State.setHeat_ctx (c : Nat) (x : Heat) (j : Nat) : (s.setHeat c x).ctx j = s.ctx j := rfl
@[simp] theorem State.setHeat_req (c : Nat) (x : Heat) (j : Nat) : (s.setHeat c x).req j = s.req j := rfl
@[simp] theorem State.setHeat_sess (c : Nat) (x : Heat) (j : Nat) : (s.setHeat c x).sess j = s.sess j := rfl
@[simp] theorem State.setHeat_map (c : Nat) (x : Heat) (j : Nat) : (s.setHeat c x).map j = s.map j := rfl
@[simp] theorem State.setHeat_tenant (c : Nat) (x : Heat) (j : Nat) : (s.setHeat c x).tenant j = s.tenant j := rfl
@[simp] theorem State.setHeat_link (c : Nat) (x : Heat) (j : Nat) : (s.setHeat c x).link j = s.link j := rfl
@[simp] theorem State.setHeat_obj (c : Nat) (x : Heat) (j : Nat) : (s.setHeat c x).obj j = s.obj j := rfl

/-! ### setMap -/

@[simp] theorem State.setMap_aon (c : Nat) (x : KvMap) : (s.setMap c x).aon = s.aon := rfl
@[simp] theorem State.setMap_fieldQ (c : Nat) (x : KvMap) : (s.setMap c x).fieldQ = s.fieldQ := rfl
@[simp] theorem State.setMap_countQ (c : Nat) (x : KvMap) : (s.setMap c x).countQ = s.countQ := rfl
@[simp] theorem State.setMap_besideQ (c : Nat) (x : KvMap) : (s.setMap c x).besideQ = s.besideQ := rfl
@[simp] theorem State.setMap_pkg (c : Nat) (x : KvMap) : (s.setMap c x).pkg = s.pkg := rfl
@[simp] theorem State.setMap_settings (c : Nat) (x : KvMap) : (s.setMap c x).settings = s.settings := rfl
@[simp] theorem State.setMap_cores (c : Nat) (x : KvMap) : (s.setMap c x).cores = s.cores := rfl
@[simp] theorem State.setMap_starters (c : Nat) (x : KvMap) : (s.setMap c x).starters = s.starters := rfl
@[simp] theorem State.setMap_beside (c : Nat) (x : KvMap) : (s.setMap c x).beside = s.beside := rfl
@[simp] theorem State.setMap_far (c : Nat) (x : KvMap) : (s.setMap c x).far = s.far := rfl
@[simp] theorem State.setMap_parts (c : Nat) (x : KvMap) : (s.setMap c x).parts = s.parts := rfl
@[simp] theorem State.setMap_mbx (c : Nat) (x : KvMap) : (s.setMap c x).mbx = s.mbx := rfl
@[simp] theorem State.setMap_boot (c : Nat) (x : KvMap) : (s.setMap c x).boot = s.boot := rfl
@[simp] theorem State.setMap_fab (c : Nat) (x : KvMap) : (s.setMap c x).fab = s.fab := rfl
@[simp] theorem State.setMap_twin (c : Nat) (x : KvMap) : (s.setMap c x).twin = s.twin := rfl
@[simp] theorem State.setMap_energy (c : Nat) (x : KvMap) : (s.setMap c x).energy = s.energy := rfl
@[simp] theorem State.setMap_power (c : Nat) (x : KvMap) : (s.setMap c x).power = s.power := rfl
@[simp] theorem State.setMap_entry (c : Nat) (x : KvMap) : (s.setMap c x).entry = s.entry := rfl
@[simp] theorem State.setMap_dport (c : Nat) (x : KvMap) : (s.setMap c x).dport = s.dport := rfl
@[simp] theorem State.setMap_out (c : Nat) (x : KvMap) : (s.setMap c x).out = s.out := rfl
@[simp] theorem State.setMap_drawn (c : Nat) (x : KvMap) : (s.setMap c x).drawn = s.drawn := rfl
@[simp] theorem State.setMap_pending (c : Nat) (x : KvMap) : (s.setMap c x).pending = s.pending := rfl
@[simp] theorem State.setMap_srv_ledger (c : Nat) (x : KvMap) : (s.setMap c x).srv.ledger = s.srv.ledger := rfl
@[simp] theorem State.setMap_srv_sessions (c : Nat) (x : KvMap) : (s.setMap c x).srv.sessions = s.srv.sessions := rfl
@[simp] theorem State.setMap_srv_tenants (c : Nat) (x : KvMap) : (s.setMap c x).srv.tenants = s.srv.tenants := rfl
@[simp] theorem State.setMap_srv_queues (c : Nat) (x : KvMap) : (s.setMap c x).srv.queues = s.srv.queues := rfl
@[simp] theorem State.setMap_srv_ctxs (c : Nat) (x : KvMap) : (s.setMap c x).srv.ctxs = s.srv.ctxs := rfl
@[simp] theorem State.setMap_srv_heats (c : Nat) (x : KvMap) : (s.setMap c x).srv.heats = s.srv.heats := rfl
@[simp] theorem State.setMap_srv_mirrors (c : Nat) (x : KvMap) : (s.setMap c x).srv.mirrors = s.srv.mirrors := rfl
@[simp] theorem State.setMap_srv_heatSerial (c : Nat) (x : KvMap) : (s.setMap c x).srv.heatSerial = s.srv.heatSerial := rfl
@[simp] theorem State.setMap_srv_jobLap (c : Nat) (x : KvMap) : (s.setMap c x).srv.jobLap = s.srv.jobLap := rfl
theorem State.map_setMap (c : Nat) (x : KvMap) (j : Nat) : (s.setMap c x).map j = if j = c then x else s.map j := by
  simp [State.map, State.setMap, tget_tput]
@[simp] theorem State.map_setMap_same (c : Nat) (x : KvMap) : (s.setMap c x).map c = x := by simp [State.map_setMap]
@[simp] theorem State.setMap_core (c : Nat) (x : KvMap) (j : Nat) : (s.setMap c x).core j = s.core j := rfl
@[simp] theorem State.setMap_starter (c : Nat) (x : KvMap) (j : Nat) : (s.setMap c x).starter j = s.starter j := rfl
@[simp] theorem State.setMap_bdie (c : Nat) (x : KvMap) (j : Nat) : (s.setMap c x).bdie j = s.bdie j := rfl
@[simp] theorem State.setMap_part (c : Nat) (x : KvMap) (j : Nat) : (s.setMap c x).part j = s.part j := rfl
@[simp] theorem State.setMap_fn (c : Nat) (x : KvMap) (j : Nat) : (s.setMap c x).fn j = s.fn j := rfl
@[simp] theorem State.setMap_ctx (c : Nat) (x : KvMap) (j : Nat) : (s.setMap c x).ctx j = s.ctx j := rfl
@[simp] theorem State.setMap_req (c : Nat) (x : KvMap) (j : Nat) : (s.setMap c x).req j = s.req j := rfl
@[simp] theorem State.setMap_sess (c : Nat) (x : KvMap) (j : Nat) : (s.setMap c x).sess j = s.sess j := rfl
@[simp] theorem State.setMap_heat (c : Nat) (x : KvMap) (j : Nat) : (s.setMap c x).heat j = s.heat j := rfl
@[simp] theorem State.setMap_tenant (c : Nat) (x : KvMap) (j : Nat) : (s.setMap c x).tenant j = s.tenant j := rfl
@[simp] theorem State.setMap_link (c : Nat) (x : KvMap) (j : Nat) : (s.setMap c x).link j = s.link j := rfl
@[simp] theorem State.setMap_obj (c : Nat) (x : KvMap) (j : Nat) : (s.setMap c x).obj j = s.obj j := rfl

/-! ### setTenant -/

@[simp] theorem State.setTenant_aon (c : Nat) (x : Tenant) : (s.setTenant c x).aon = s.aon := rfl
@[simp] theorem State.setTenant_fieldQ (c : Nat) (x : Tenant) : (s.setTenant c x).fieldQ = s.fieldQ := rfl
@[simp] theorem State.setTenant_countQ (c : Nat) (x : Tenant) : (s.setTenant c x).countQ = s.countQ := rfl
@[simp] theorem State.setTenant_besideQ (c : Nat) (x : Tenant) : (s.setTenant c x).besideQ = s.besideQ := rfl
@[simp] theorem State.setTenant_pkg (c : Nat) (x : Tenant) : (s.setTenant c x).pkg = s.pkg := rfl
@[simp] theorem State.setTenant_settings (c : Nat) (x : Tenant) : (s.setTenant c x).settings = s.settings := rfl
@[simp] theorem State.setTenant_cores (c : Nat) (x : Tenant) : (s.setTenant c x).cores = s.cores := rfl
@[simp] theorem State.setTenant_starters (c : Nat) (x : Tenant) : (s.setTenant c x).starters = s.starters := rfl
@[simp] theorem State.setTenant_beside (c : Nat) (x : Tenant) : (s.setTenant c x).beside = s.beside := rfl
@[simp] theorem State.setTenant_far (c : Nat) (x : Tenant) : (s.setTenant c x).far = s.far := rfl
@[simp] theorem State.setTenant_parts (c : Nat) (x : Tenant) : (s.setTenant c x).parts = s.parts := rfl
@[simp] theorem State.setTenant_mbx (c : Nat) (x : Tenant) : (s.setTenant c x).mbx = s.mbx := rfl
@[simp] theorem State.setTenant_boot (c : Nat) (x : Tenant) : (s.setTenant c x).boot = s.boot := rfl
@[simp] theorem State.setTenant_fab (c : Nat) (x : Tenant) : (s.setTenant c x).fab = s.fab := rfl
@[simp] theorem State.setTenant_twin (c : Nat) (x : Tenant) : (s.setTenant c x).twin = s.twin := rfl
@[simp] theorem State.setTenant_energy (c : Nat) (x : Tenant) : (s.setTenant c x).energy = s.energy := rfl
@[simp] theorem State.setTenant_power (c : Nat) (x : Tenant) : (s.setTenant c x).power = s.power := rfl
@[simp] theorem State.setTenant_entry (c : Nat) (x : Tenant) : (s.setTenant c x).entry = s.entry := rfl
@[simp] theorem State.setTenant_dport (c : Nat) (x : Tenant) : (s.setTenant c x).dport = s.dport := rfl
@[simp] theorem State.setTenant_out (c : Nat) (x : Tenant) : (s.setTenant c x).out = s.out := rfl
@[simp] theorem State.setTenant_drawn (c : Nat) (x : Tenant) : (s.setTenant c x).drawn = s.drawn := rfl
@[simp] theorem State.setTenant_pending (c : Nat) (x : Tenant) : (s.setTenant c x).pending = s.pending := rfl
@[simp] theorem State.setTenant_srv_ledger (c : Nat) (x : Tenant) : (s.setTenant c x).srv.ledger = s.srv.ledger := rfl
@[simp] theorem State.setTenant_srv_sessions (c : Nat) (x : Tenant) : (s.setTenant c x).srv.sessions = s.srv.sessions := rfl
@[simp] theorem State.setTenant_srv_queues (c : Nat) (x : Tenant) : (s.setTenant c x).srv.queues = s.srv.queues := rfl
@[simp] theorem State.setTenant_srv_ctxs (c : Nat) (x : Tenant) : (s.setTenant c x).srv.ctxs = s.srv.ctxs := rfl
@[simp] theorem State.setTenant_srv_heats (c : Nat) (x : Tenant) : (s.setTenant c x).srv.heats = s.srv.heats := rfl
@[simp] theorem State.setTenant_srv_maps (c : Nat) (x : Tenant) : (s.setTenant c x).srv.maps = s.srv.maps := rfl
@[simp] theorem State.setTenant_srv_mirrors (c : Nat) (x : Tenant) : (s.setTenant c x).srv.mirrors = s.srv.mirrors := rfl
@[simp] theorem State.setTenant_srv_heatSerial (c : Nat) (x : Tenant) : (s.setTenant c x).srv.heatSerial = s.srv.heatSerial := rfl
@[simp] theorem State.setTenant_srv_jobLap (c : Nat) (x : Tenant) : (s.setTenant c x).srv.jobLap = s.srv.jobLap := rfl
theorem State.tenant_setTenant (c : Nat) (x : Tenant) (j : Nat) : (s.setTenant c x).tenant j = if j = c then x else s.tenant j := by
  simp [State.tenant, State.setTenant, tget_tput]
@[simp] theorem State.tenant_setTenant_same (c : Nat) (x : Tenant) : (s.setTenant c x).tenant c = x := by simp [State.tenant_setTenant]
@[simp] theorem State.setTenant_core (c : Nat) (x : Tenant) (j : Nat) : (s.setTenant c x).core j = s.core j := rfl
@[simp] theorem State.setTenant_starter (c : Nat) (x : Tenant) (j : Nat) : (s.setTenant c x).starter j = s.starter j := rfl
@[simp] theorem State.setTenant_bdie (c : Nat) (x : Tenant) (j : Nat) : (s.setTenant c x).bdie j = s.bdie j := rfl
@[simp] theorem State.setTenant_part (c : Nat) (x : Tenant) (j : Nat) : (s.setTenant c x).part j = s.part j := rfl
@[simp] theorem State.setTenant_fn (c : Nat) (x : Tenant) (j : Nat) : (s.setTenant c x).fn j = s.fn j := rfl
@[simp] theorem State.setTenant_ctx (c : Nat) (x : Tenant) (j : Nat) : (s.setTenant c x).ctx j = s.ctx j := rfl
@[simp] theorem State.setTenant_req (c : Nat) (x : Tenant) (j : Nat) : (s.setTenant c x).req j = s.req j := rfl
@[simp] theorem State.setTenant_sess (c : Nat) (x : Tenant) (j : Nat) : (s.setTenant c x).sess j = s.sess j := rfl
@[simp] theorem State.setTenant_heat (c : Nat) (x : Tenant) (j : Nat) : (s.setTenant c x).heat j = s.heat j := rfl
@[simp] theorem State.setTenant_map (c : Nat) (x : Tenant) (j : Nat) : (s.setTenant c x).map j = s.map j := rfl
@[simp] theorem State.setTenant_link (c : Nat) (x : Tenant) (j : Nat) : (s.setTenant c x).link j = s.link j := rfl
@[simp] theorem State.setTenant_obj (c : Nat) (x : Tenant) (j : Nat) : (s.setTenant c x).obj j = s.obj j := rfl

/-! ### setLink -/

@[simp] theorem State.setLink_aon (c : Nat) (x : Link) : (s.setLink c x).aon = s.aon := rfl
@[simp] theorem State.setLink_fieldQ (c : Nat) (x : Link) : (s.setLink c x).fieldQ = s.fieldQ := rfl
@[simp] theorem State.setLink_countQ (c : Nat) (x : Link) : (s.setLink c x).countQ = s.countQ := rfl
@[simp] theorem State.setLink_besideQ (c : Nat) (x : Link) : (s.setLink c x).besideQ = s.besideQ := rfl
@[simp] theorem State.setLink_pkg (c : Nat) (x : Link) : (s.setLink c x).pkg = s.pkg := rfl
@[simp] theorem State.setLink_settings (c : Nat) (x : Link) : (s.setLink c x).settings = s.settings := rfl
@[simp] theorem State.setLink_cores (c : Nat) (x : Link) : (s.setLink c x).cores = s.cores := rfl
@[simp] theorem State.setLink_starters (c : Nat) (x : Link) : (s.setLink c x).starters = s.starters := rfl
@[simp] theorem State.setLink_beside (c : Nat) (x : Link) : (s.setLink c x).beside = s.beside := rfl
@[simp] theorem State.setLink_far (c : Nat) (x : Link) : (s.setLink c x).far = s.far := rfl
@[simp] theorem State.setLink_parts (c : Nat) (x : Link) : (s.setLink c x).parts = s.parts := rfl
@[simp] theorem State.setLink_srv (c : Nat) (x : Link) : (s.setLink c x).srv = s.srv := rfl
@[simp] theorem State.setLink_mbx (c : Nat) (x : Link) : (s.setLink c x).mbx = s.mbx := rfl
@[simp] theorem State.setLink_boot (c : Nat) (x : Link) : (s.setLink c x).boot = s.boot := rfl
@[simp] theorem State.setLink_twin (c : Nat) (x : Link) : (s.setLink c x).twin = s.twin := rfl
@[simp] theorem State.setLink_energy (c : Nat) (x : Link) : (s.setLink c x).energy = s.energy := rfl
@[simp] theorem State.setLink_power (c : Nat) (x : Link) : (s.setLink c x).power = s.power := rfl
@[simp] theorem State.setLink_entry (c : Nat) (x : Link) : (s.setLink c x).entry = s.entry := rfl
@[simp] theorem State.setLink_dport (c : Nat) (x : Link) : (s.setLink c x).dport = s.dport := rfl
@[simp] theorem State.setLink_out (c : Nat) (x : Link) : (s.setLink c x).out = s.out := rfl
@[simp] theorem State.setLink_drawn (c : Nat) (x : Link) : (s.setLink c x).drawn = s.drawn := rfl
@[simp] theorem State.setLink_pending (c : Nat) (x : Link) : (s.setLink c x).pending = s.pending := rfl
@[simp] theorem State.setLink_fab_node (c : Nat) (x : Link) : (s.setLink c x).fab.node = s.fab.node := rfl
@[simp] theorem State.setLink_fab_db (c : Nat) (x : Link) : (s.setLink c x).fab.db = s.fab.db := rfl
@[simp] theorem State.setLink_fab_ownSeq (c : Nat) (x : Link) : (s.setLink c x).fab.ownSeq = s.fab.ownSeq := rfl
@[simp] theorem State.setLink_fab_refloodAt (c : Nat) (x : Link) : (s.setLink c x).fab.refloodAt = s.fab.refloodAt := rfl
@[simp] theorem State.setLink_fab_conflict (c : Nat) (x : Link) : (s.setLink c x).fab.conflict = s.fab.conflict := rfl
@[simp] theorem State.setLink_fab_planWeak (c : Nat) (x : Link) : (s.setLink c x).fab.planWeak = s.fab.planWeak := rfl
@[simp] theorem State.setLink_fab_topoSeq (c : Nat) (x : Link) : (s.setLink c x).fab.topoSeq = s.fab.topoSeq := rfl
@[simp] theorem State.setLink_fab_hopDrop (c : Nat) (x : Link) : (s.setLink c x).fab.hopDrop = s.fab.hopDrop := rfl
@[simp] theorem State.setLink_fab_roleFwd (c : Nat) (x : Link) : (s.setLink c x).fab.roleFwd = s.fab.roleFwd := rfl
@[simp] theorem State.setLink_fab_roles (c : Nat) (x : Link) : (s.setLink c x).fab.roles = s.fab.roles := rfl
@[simp] theorem State.setLink_fab_ownRole (c : Nat) (x : Link) : (s.setLink c x).fab.ownRole = s.fab.ownRole := rfl
@[simp] theorem State.setLink_fab_seen (c : Nat) (x : Link) : (s.setLink c x).fab.seen = s.fab.seen := rfl
@[simp] theorem State.setLink_fab_pseq (c : Nat) (x : Link) : (s.setLink c x).fab.pseq = s.fab.pseq := rfl
@[simp] theorem State.setLink_fab_txns (c : Nat) (x : Link) : (s.setLink c x).fab.txns = s.fab.txns := rfl
@[simp] theorem State.setLink_fab_txnNext (c : Nat) (x : Link) : (s.setLink c x).fab.txnNext = s.fab.txnNext := rfl
@[simp] theorem State.setLink_fab_lines (c : Nat) (x : Link) : (s.setLink c x).fab.lines = s.fab.lines := rfl
@[simp] theorem State.setLink_fab_lineOrder (c : Nat) (x : Link) : (s.setLink c x).fab.lineOrder = s.fab.lineOrder := rfl
theorem State.link_setLink (c : Nat) (x : Link) (j : Nat) : (s.setLink c x).link j = if j = c then x else s.link j := by
  simp [State.link, State.setLink, tget_tput]
@[simp] theorem State.link_setLink_same (c : Nat) (x : Link) : (s.setLink c x).link c = x := by simp [State.link_setLink]
@[simp] theorem State.setLink_core (c : Nat) (x : Link) (j : Nat) : (s.setLink c x).core j = s.core j := rfl
@[simp] theorem State.setLink_starter (c : Nat) (x : Link) (j : Nat) : (s.setLink c x).starter j = s.starter j := rfl
@[simp] theorem State.setLink_bdie (c : Nat) (x : Link) (j : Nat) : (s.setLink c x).bdie j = s.bdie j := rfl
@[simp] theorem State.setLink_part (c : Nat) (x : Link) (j : Nat) : (s.setLink c x).part j = s.part j := rfl
@[simp] theorem State.setLink_fn (c : Nat) (x : Link) (j : Nat) : (s.setLink c x).fn j = s.fn j := rfl
@[simp] theorem State.setLink_ctx (c : Nat) (x : Link) (j : Nat) : (s.setLink c x).ctx j = s.ctx j := rfl
@[simp] theorem State.setLink_req (c : Nat) (x : Link) (j : Nat) : (s.setLink c x).req j = s.req j := rfl
@[simp] theorem State.setLink_sess (c : Nat) (x : Link) (j : Nat) : (s.setLink c x).sess j = s.sess j := rfl
@[simp] theorem State.setLink_heat (c : Nat) (x : Link) (j : Nat) : (s.setLink c x).heat j = s.heat j := rfl
@[simp] theorem State.setLink_map (c : Nat) (x : Link) (j : Nat) : (s.setLink c x).map j = s.map j := rfl
@[simp] theorem State.setLink_tenant (c : Nat) (x : Link) (j : Nat) : (s.setLink c x).tenant j = s.tenant j := rfl
@[simp] theorem State.setLink_obj (c : Nat) (x : Link) (j : Nat) : (s.setLink c x).obj j = s.obj j := rfl

/-! ### setObj -/

@[simp] theorem State.setObj_aon (c : Nat) (x : Obj) : (s.setObj c x).aon = s.aon := rfl
@[simp] theorem State.setObj_fieldQ (c : Nat) (x : Obj) : (s.setObj c x).fieldQ = s.fieldQ := rfl
@[simp] theorem State.setObj_countQ (c : Nat) (x : Obj) : (s.setObj c x).countQ = s.countQ := rfl
@[simp] theorem State.setObj_besideQ (c : Nat) (x : Obj) : (s.setObj c x).besideQ = s.besideQ := rfl
@[simp] theorem State.setObj_pkg (c : Nat) (x : Obj) : (s.setObj c x).pkg = s.pkg := rfl
@[simp] theorem State.setObj_settings (c : Nat) (x : Obj) : (s.setObj c x).settings = s.settings := rfl
@[simp] theorem State.setObj_cores (c : Nat) (x : Obj) : (s.setObj c x).cores = s.cores := rfl
@[simp] theorem State.setObj_starters (c : Nat) (x : Obj) : (s.setObj c x).starters = s.starters := rfl
@[simp] theorem State.setObj_beside (c : Nat) (x : Obj) : (s.setObj c x).beside = s.beside := rfl
@[simp] theorem State.setObj_parts (c : Nat) (x : Obj) : (s.setObj c x).parts = s.parts := rfl
@[simp] theorem State.setObj_srv (c : Nat) (x : Obj) : (s.setObj c x).srv = s.srv := rfl
@[simp] theorem State.setObj_mbx (c : Nat) (x : Obj) : (s.setObj c x).mbx = s.mbx := rfl
@[simp] theorem State.setObj_boot (c : Nat) (x : Obj) : (s.setObj c x).boot = s.boot := rfl
@[simp] theorem State.setObj_fab (c : Nat) (x : Obj) : (s.setObj c x).fab = s.fab := rfl
@[simp] theorem State.setObj_twin (c : Nat) (x : Obj) : (s.setObj c x).twin = s.twin := rfl
@[simp] theorem State.setObj_energy (c : Nat) (x : Obj) : (s.setObj c x).energy = s.energy := rfl
@[simp] theorem State.setObj_power (c : Nat) (x : Obj) : (s.setObj c x).power = s.power := rfl
@[simp] theorem State.setObj_entry (c : Nat) (x : Obj) : (s.setObj c x).entry = s.entry := rfl
@[simp] theorem State.setObj_dport (c : Nat) (x : Obj) : (s.setObj c x).dport = s.dport := rfl
@[simp] theorem State.setObj_out (c : Nat) (x : Obj) : (s.setObj c x).out = s.out := rfl
@[simp] theorem State.setObj_drawn (c : Nat) (x : Obj) : (s.setObj c x).drawn = s.drawn := rfl
@[simp] theorem State.setObj_pending (c : Nat) (x : Obj) : (s.setObj c x).pending = s.pending := rfl
@[simp] theorem State.setObj_far_serialCxl (c : Nat) (x : Obj) : (s.setObj c x).far.serialCxl = s.far.serialCxl := rfl
@[simp] theorem State.setObj_far_serialNand (c : Nat) (x : Obj) : (s.setObj c x).far.serialNand = s.far.serialNand := rfl
@[simp] theorem State.setObj_far_devs (c : Nat) (x : Obj) : (s.setObj c x).far.devs = s.far.devs := rfl
@[simp] theorem State.setObj_far_farSeq (c : Nat) (x : Obj) : (s.setObj c x).far.farSeq = s.far.farSeq := rfl
@[simp] theorem State.setObj_far_blocks (c : Nat) (x : Obj) : (s.setObj c x).far.blocks = s.far.blocks := rfl
@[simp] theorem State.setObj_far_readOnly (c : Nat) (x : Obj) : (s.setObj c x).far.readOnly = s.far.readOnly := rfl
@[simp] theorem State.setObj_far_spareBlk (c : Nat) (x : Obj) : (s.setObj c x).far.spareBlk = s.far.spareBlk := rfl
@[simp] theorem State.setObj_far_reloc (c : Nat) (x : Obj) : (s.setObj c x).far.reloc = s.far.reloc := rfl
@[simp] theorem State.setObj_far_moves (c : Nat) (x : Obj) : (s.setObj c x).far.moves = s.far.moves := rfl
theorem State.obj_setObj (c : Nat) (x : Obj) (j : Nat) : (s.setObj c x).obj j = if j = c then x else s.obj j := by
  simp [State.obj, State.setObj, tget_tput]
@[simp] theorem State.obj_setObj_same (c : Nat) (x : Obj) : (s.setObj c x).obj c = x := by simp [State.obj_setObj]
@[simp] theorem State.setObj_core (c : Nat) (x : Obj) (j : Nat) : (s.setObj c x).core j = s.core j := rfl
@[simp] theorem State.setObj_starter (c : Nat) (x : Obj) (j : Nat) : (s.setObj c x).starter j = s.starter j := rfl
@[simp] theorem State.setObj_bdie (c : Nat) (x : Obj) (j : Nat) : (s.setObj c x).bdie j = s.bdie j := rfl
@[simp] theorem State.setObj_part (c : Nat) (x : Obj) (j : Nat) : (s.setObj c x).part j = s.part j := rfl
@[simp] theorem State.setObj_fn (c : Nat) (x : Obj) (j : Nat) : (s.setObj c x).fn j = s.fn j := rfl
@[simp] theorem State.setObj_ctx (c : Nat) (x : Obj) (j : Nat) : (s.setObj c x).ctx j = s.ctx j := rfl
@[simp] theorem State.setObj_req (c : Nat) (x : Obj) (j : Nat) : (s.setObj c x).req j = s.req j := rfl
@[simp] theorem State.setObj_sess (c : Nat) (x : Obj) (j : Nat) : (s.setObj c x).sess j = s.sess j := rfl
@[simp] theorem State.setObj_heat (c : Nat) (x : Obj) (j : Nat) : (s.setObj c x).heat j = s.heat j := rfl
@[simp] theorem State.setObj_map (c : Nat) (x : Obj) (j : Nat) : (s.setObj c x).map j = s.map j := rfl
@[simp] theorem State.setObj_tenant (c : Nat) (x : Obj) (j : Nat) : (s.setObj c x).tenant j = s.tenant j := rfl
@[simp] theorem State.setObj_link (c : Nat) (x : Obj) (j : Nat) : (s.setObj c x).link j = s.link j := rfl

/-! ### slots -/

theorem Core.slot_setSlot (k : Core) (i j : Nat) (x : SlotSt) (hi : i < 4) (hj : j < 4) :
    (k.setSlot i x).slot j = if j = i then x else k.slot j := by
  rcases i with _ | _ | _ | _ | i <;> rcases j with _ | _ | _ | _ | j <;> first | rfl | omega

@[simp] theorem Core.slot_setSlot_same (k : Core) (i : Nat) (x : SlotSt) : (k.setSlot i x).slot i = x := by
  rcases i with _ | _ | _ | i <;> rfl

/-- The fields of a core that a slot written leaves. -/
theorem Core.setSlot_rest (k : Core) (i : Nat) (x : SlotSt) :
    (k.setSlot i x).spad = k.spad ∧ (k.setSlot i x).acc = k.acc ∧ (k.setSlot i x).inbox = k.inbox ∧ (k.setSlot i x).inboxN = k.inboxN ∧
    (k.setSlot i x).chan = k.chan ∧ (k.setSlot i x).hurdle = k.hurdle ∧ (k.setSlot i x).chanSeq = k.chanSeq ∧
    (k.setSlot i x).restart = k.restart ∧ (k.setSlot i x).wdog = k.wdog ∧ (k.setSlot i x).ctrl = k.ctrl ∧ (k.setSlot i x).step = k.step ∧
    (k.setSlot i x).serial = k.serial ∧ (k.setSlot i x).expect = k.expect ∧ (k.setSlot i x).held = k.held ∧
    (k.setSlot i x).counters = k.counters := by
  rcases i with _ | _ | _ | i <;> simp [Core.setSlot]

@[simp] theorem Core.setSlot_spad (k : Core) (i : Nat) (x : SlotSt) : (k.setSlot i x).spad = k.spad := by
  rcases i with _ | _ | _ | i <;> rfl
@[simp] theorem Core.setSlot_acc (k : Core) (i : Nat) (x : SlotSt) : (k.setSlot i x).acc = k.acc := by
  rcases i with _ | _ | _ | i <;> rfl
@[simp] theorem Core.setSlot_inbox (k : Core) (i : Nat) (x : SlotSt) : (k.setSlot i x).inbox = k.inbox := by
  rcases i with _ | _ | _ | i <;> rfl
@[simp] theorem Core.setSlot_inboxN (k : Core) (i : Nat) (x : SlotSt) : (k.setSlot i x).inboxN = k.inboxN := by
  rcases i with _ | _ | _ | i <;> rfl
@[simp] theorem Core.setSlot_chan (k : Core) (i : Nat) (x : SlotSt) : (k.setSlot i x).chan = k.chan := by
  rcases i with _ | _ | _ | i <;> rfl
@[simp] theorem Core.setSlot_hurdle (k : Core) (i : Nat) (x : SlotSt) : (k.setSlot i x).hurdle = k.hurdle := by
  rcases i with _ | _ | _ | i <;> rfl
@[simp] theorem Core.setSlot_chanSeq (k : Core) (i : Nat) (x : SlotSt) : (k.setSlot i x).chanSeq = k.chanSeq := by
  rcases i with _ | _ | _ | i <;> rfl
@[simp] theorem Core.setSlot_restart (k : Core) (i : Nat) (x : SlotSt) : (k.setSlot i x).restart = k.restart := by
  rcases i with _ | _ | _ | i <;> rfl
@[simp] theorem Core.setSlot_wdog (k : Core) (i : Nat) (x : SlotSt) : (k.setSlot i x).wdog = k.wdog := by
  rcases i with _ | _ | _ | i <;> rfl
@[simp] theorem Core.setSlot_ctrl (k : Core) (i : Nat) (x : SlotSt) : (k.setSlot i x).ctrl = k.ctrl := by
  rcases i with _ | _ | _ | i <;> rfl
@[simp] theorem Core.setSlot_step (k : Core) (i : Nat) (x : SlotSt) : (k.setSlot i x).step = k.step := by
  rcases i with _ | _ | _ | i <;> rfl
@[simp] theorem Core.setSlot_brkPass (k : Core) (i : Nat) (x : SlotSt) : (k.setSlot i x).brkPass = k.brkPass := by
  rcases i with _ | _ | _ | i <;> rfl
@[simp] theorem Core.setSlot_rrFe (k : Core) (i : Nat) (x : SlotSt) : (k.setSlot i x).rrFe = k.rrFe := by
  rcases i with _ | _ | _ | i <;> rfl
@[simp] theorem Core.setSlot_rr0 (k : Core) (i : Nat) (x : SlotSt) : (k.setSlot i x).rr0 = k.rr0 := by
  rcases i with _ | _ | _ | i <;> rfl
@[simp] theorem Core.setSlot_rr1 (k : Core) (i : Nat) (x : SlotSt) : (k.setSlot i x).rr1 = k.rr1 := by
  rcases i with _ | _ | _ | i <;> rfl
@[simp] theorem Core.setSlot_rr2 (k : Core) (i : Nat) (x : SlotSt) : (k.setSlot i x).rr2 = k.rr2 := by
  rcases i with _ | _ | _ | i <;> rfl
@[simp] theorem Core.setSlot_rr3 (k : Core) (i : Nat) (x : SlotSt) : (k.setSlot i x).rr3 = k.rr3 := by
  rcases i with _ | _ | _ | i <;> rfl
@[simp] theorem Core.setSlot_serial (k : Core) (i : Nat) (x : SlotSt) : (k.setSlot i x).serial = k.serial := by
  rcases i with _ | _ | _ | i <;> rfl
@[simp] theorem Core.setSlot_creditOut (k : Core) (i : Nat) (x : SlotSt) : (k.setSlot i x).creditOut = k.creditOut := by
  rcases i with _ | _ | _ | i <;> rfl
@[simp] theorem Core.setSlot_expect (k : Core) (i : Nat) (x : SlotSt) : (k.setSlot i x).expect = k.expect := by
  rcases i with _ | _ | _ | i <;> rfl
@[simp] theorem Core.setSlot_held (k : Core) (i : Nat) (x : SlotSt) : (k.setSlot i x).held = k.held := by
  rcases i with _ | _ | _ | i <;> rfl
@[simp] theorem Core.setSlot_counters (k : Core) (i : Nat) (x : SlotSt) : (k.setSlot i x).counters = k.counters := by
  rcases i with _ | _ | _ | i <;> rfl

theorem State.slot_setSlot (c k : Nat) (x : SlotSt) (c' k' : Nat) (hk : k < 4) (hk' : k' < 4) :
    (s.setSlot c k x).slot c' k' = if c' = c ∧ k' = k then x else s.slot c' k' := by
  simp only [State.slot, State.setSlot, State.core_setCore]
  by_cases h : c' = c
  · subst h; simp only [if_true, true_and, Core.slot_setSlot _ _ _ _ hk hk']
  · simp [h]

@[simp] theorem State.slot_setSlot_same (c k : Nat) (x : SlotSt) : (s.setSlot c k x).slot c k = x := by
  simp [State.slot, State.setSlot]

@[simp] theorem State.setSlot_aon (c k : Nat) (x : SlotSt) : (s.setSlot c k x).aon = s.aon := rfl
@[simp] theorem State.setSlot_fieldQ (c k : Nat) (x : SlotSt) : (s.setSlot c k x).fieldQ = s.fieldQ := rfl
@[simp] theorem State.setSlot_countQ (c k : Nat) (x : SlotSt) : (s.setSlot c k x).countQ = s.countQ := rfl
@[simp] theorem State.setSlot_besideQ (c k : Nat) (x : SlotSt) : (s.setSlot c k x).besideQ = s.besideQ := rfl
@[simp] theorem State.setSlot_pkg (c k : Nat) (x : SlotSt) : (s.setSlot c k x).pkg = s.pkg := rfl
@[simp] theorem State.setSlot_settings (c k : Nat) (x : SlotSt) : (s.setSlot c k x).settings = s.settings := rfl
@[simp] theorem State.setSlot_starters (c k : Nat) (x : SlotSt) : (s.setSlot c k x).starters = s.starters := rfl
@[simp] theorem State.setSlot_beside (c k : Nat) (x : SlotSt) : (s.setSlot c k x).beside = s.beside := rfl
@[simp] theorem State.setSlot_far (c k : Nat) (x : SlotSt) : (s.setSlot c k x).far = s.far := rfl
@[simp] theorem State.setSlot_parts (c k : Nat) (x : SlotSt) : (s.setSlot c k x).parts = s.parts := rfl
@[simp] theorem State.setSlot_srv (c k : Nat) (x : SlotSt) : (s.setSlot c k x).srv = s.srv := rfl
@[simp] theorem State.setSlot_mbx (c k : Nat) (x : SlotSt) : (s.setSlot c k x).mbx = s.mbx := rfl
@[simp] theorem State.setSlot_boot (c k : Nat) (x : SlotSt) : (s.setSlot c k x).boot = s.boot := rfl
@[simp] theorem State.setSlot_fab (c k : Nat) (x : SlotSt) : (s.setSlot c k x).fab = s.fab := rfl
@[simp] theorem State.setSlot_twin (c k : Nat) (x : SlotSt) : (s.setSlot c k x).twin = s.twin := rfl
@[simp] theorem State.setSlot_energy (c k : Nat) (x : SlotSt) : (s.setSlot c k x).energy = s.energy := rfl
@[simp] theorem State.setSlot_power (c k : Nat) (x : SlotSt) : (s.setSlot c k x).power = s.power := rfl
@[simp] theorem State.setSlot_entry (c k : Nat) (x : SlotSt) : (s.setSlot c k x).entry = s.entry := rfl
@[simp] theorem State.setSlot_dport (c k : Nat) (x : SlotSt) : (s.setSlot c k x).dport = s.dport := rfl
@[simp] theorem State.setSlot_out (c k : Nat) (x : SlotSt) : (s.setSlot c k x).out = s.out := rfl
@[simp] theorem State.setSlot_drawn (c k : Nat) (x : SlotSt) : (s.setSlot c k x).drawn = s.drawn := rfl
@[simp] theorem State.setSlot_pending (c k : Nat) (x : SlotSt) : (s.setSlot c k x).pending = s.pending := rfl
@[simp] theorem State.setSlot_core_spad (c k : Nat) (x : SlotSt) (j : Nat) : ((s.setSlot c k x).core j).spad = (s.core j).spad := by
  simp only [State.setSlot, State.core_setCore]; split <;> simp_all
@[simp] theorem State.setSlot_core_acc (c k : Nat) (x : SlotSt) (j : Nat) : ((s.setSlot c k x).core j).acc = (s.core j).acc := by
  simp only [State.setSlot, State.core_setCore]; split <;> simp_all
@[simp] theorem State.setSlot_core_inbox (c k : Nat) (x : SlotSt) (j : Nat) : ((s.setSlot c k x).core j).inbox = (s.core j).inbox := by
  simp only [State.setSlot, State.core_setCore]; split <;> simp_all
@[simp] theorem State.setSlot_core_inboxN (c k : Nat) (x : SlotSt) (j : Nat) : ((s.setSlot c k x).core j).inboxN = (s.core j).inboxN := by
  simp only [State.setSlot, State.core_setCore]; split <;> simp_all
@[simp] theorem State.setSlot_core_chan (c k : Nat) (x : SlotSt) (j : Nat) : ((s.setSlot c k x).core j).chan = (s.core j).chan := by
  simp only [State.setSlot, State.core_setCore]; split <;> simp_all
@[simp] theorem State.setSlot_core_hurdle (c k : Nat) (x : SlotSt) (j : Nat) : ((s.setSlot c k x).core j).hurdle = (s.core j).hurdle := by
  simp only [State.setSlot, State.core_setCore]; split <;> simp_all
@[simp] theorem State.setSlot_core_chanSeq (c k : Nat) (x : SlotSt) (j : Nat) : ((s.setSlot c k x).core j).chanSeq = (s.core j).chanSeq := by
  simp only [State.setSlot, State.core_setCore]; split <;> simp_all
@[simp] theorem State.setSlot_core_restart (c k : Nat) (x : SlotSt) (j : Nat) : ((s.setSlot c k x).core j).restart = (s.core j).restart := by
  simp only [State.setSlot, State.core_setCore]; split <;> simp_all
@[simp] theorem State.setSlot_core_wdog (c k : Nat) (x : SlotSt) (j : Nat) : ((s.setSlot c k x).core j).wdog = (s.core j).wdog := by
  simp only [State.setSlot, State.core_setCore]; split <;> simp_all
@[simp] theorem State.setSlot_core_ctrl (c k : Nat) (x : SlotSt) (j : Nat) : ((s.setSlot c k x).core j).ctrl = (s.core j).ctrl := by
  simp only [State.setSlot, State.core_setCore]; split <;> simp_all
@[simp] theorem State.setSlot_core_step (c k : Nat) (x : SlotSt) (j : Nat) : ((s.setSlot c k x).core j).step = (s.core j).step := by
  simp only [State.setSlot, State.core_setCore]; split <;> simp_all
@[simp] theorem State.setSlot_core_brkPass (c k : Nat) (x : SlotSt) (j : Nat) : ((s.setSlot c k x).core j).brkPass = (s.core j).brkPass := by
  simp only [State.setSlot, State.core_setCore]; split <;> simp_all
@[simp] theorem State.setSlot_core_rrFe (c k : Nat) (x : SlotSt) (j : Nat) : ((s.setSlot c k x).core j).rrFe = (s.core j).rrFe := by
  simp only [State.setSlot, State.core_setCore]; split <;> simp_all
@[simp] theorem State.setSlot_core_rr0 (c k : Nat) (x : SlotSt) (j : Nat) : ((s.setSlot c k x).core j).rr0 = (s.core j).rr0 := by
  simp only [State.setSlot, State.core_setCore]; split <;> simp_all
@[simp] theorem State.setSlot_core_rr1 (c k : Nat) (x : SlotSt) (j : Nat) : ((s.setSlot c k x).core j).rr1 = (s.core j).rr1 := by
  simp only [State.setSlot, State.core_setCore]; split <;> simp_all
@[simp] theorem State.setSlot_core_rr2 (c k : Nat) (x : SlotSt) (j : Nat) : ((s.setSlot c k x).core j).rr2 = (s.core j).rr2 := by
  simp only [State.setSlot, State.core_setCore]; split <;> simp_all
@[simp] theorem State.setSlot_core_rr3 (c k : Nat) (x : SlotSt) (j : Nat) : ((s.setSlot c k x).core j).rr3 = (s.core j).rr3 := by
  simp only [State.setSlot, State.core_setCore]; split <;> simp_all
@[simp] theorem State.setSlot_core_serial (c k : Nat) (x : SlotSt) (j : Nat) : ((s.setSlot c k x).core j).serial = (s.core j).serial := by
  simp only [State.setSlot, State.core_setCore]; split <;> simp_all
@[simp] theorem State.setSlot_core_creditOut (c k : Nat) (x : SlotSt) (j : Nat) : ((s.setSlot c k x).core j).creditOut = (s.core j).creditOut := by
  simp only [State.setSlot, State.core_setCore]; split <;> simp_all
@[simp] theorem State.setSlot_core_expect (c k : Nat) (x : SlotSt) (j : Nat) : ((s.setSlot c k x).core j).expect = (s.core j).expect := by
  simp only [State.setSlot, State.core_setCore]; split <;> simp_all
@[simp] theorem State.setSlot_core_held (c k : Nat) (x : SlotSt) (j : Nat) : ((s.setSlot c k x).core j).held = (s.core j).held := by
  simp only [State.setSlot, State.core_setCore]; split <;> simp_all
@[simp] theorem State.setSlot_core_counters (c k : Nat) (x : SlotSt) (j : Nat) : ((s.setSlot c k x).core j).counters = (s.core j).counters := by
  simp only [State.setSlot, State.core_setCore]; split <;> simp_all

/-! ### what leaves, draws, activity -/

@[simp] theorem State.emit_aon (o : Out) : (s.emit o).aon = s.aon := by unfold State.emit; split <;> rfl
@[simp] theorem State.emit_fieldQ (o : Out) : (s.emit o).fieldQ = s.fieldQ := by unfold State.emit; split <;> rfl
@[simp] theorem State.emit_countQ (o : Out) : (s.emit o).countQ = s.countQ := by unfold State.emit; split <;> rfl
@[simp] theorem State.emit_besideQ (o : Out) : (s.emit o).besideQ = s.besideQ := by unfold State.emit; split <;> rfl
@[simp] theorem State.emit_pkg (o : Out) : (s.emit o).pkg = s.pkg := by unfold State.emit; split <;> rfl
@[simp] theorem State.emit_settings (o : Out) : (s.emit o).settings = s.settings := by unfold State.emit; split <;> rfl
@[simp] theorem State.emit_cores (o : Out) : (s.emit o).cores = s.cores := by unfold State.emit; split <;> rfl
@[simp] theorem State.emit_starters (o : Out) : (s.emit o).starters = s.starters := by unfold State.emit; split <;> rfl
@[simp] theorem State.emit_beside (o : Out) : (s.emit o).beside = s.beside := by unfold State.emit; split <;> rfl
@[simp] theorem State.emit_far (o : Out) : (s.emit o).far = s.far := by unfold State.emit; split <;> rfl
@[simp] theorem State.emit_parts (o : Out) : (s.emit o).parts = s.parts := by unfold State.emit; split <;> rfl
@[simp] theorem State.emit_srv (o : Out) : (s.emit o).srv = s.srv := by unfold State.emit; split <;> rfl
@[simp] theorem State.emit_mbx (o : Out) : (s.emit o).mbx = s.mbx := by unfold State.emit; split <;> rfl
@[simp] theorem State.emit_boot (o : Out) : (s.emit o).boot = s.boot := by unfold State.emit; split <;> rfl
@[simp] theorem State.emit_fab (o : Out) : (s.emit o).fab = s.fab := by unfold State.emit; split <;> rfl
@[simp] theorem State.emit_twin (o : Out) : (s.emit o).twin = s.twin := by unfold State.emit; split <;> rfl
@[simp] theorem State.emit_energy (o : Out) : (s.emit o).energy = s.energy := by unfold State.emit; split <;> rfl
@[simp] theorem State.emit_power (o : Out) : (s.emit o).power = s.power := by unfold State.emit; split <;> rfl
@[simp] theorem State.emit_entry (o : Out) : (s.emit o).entry = s.entry := by unfold State.emit; split <;> rfl
@[simp] theorem State.emit_dport (o : Out) : (s.emit o).dport = s.dport := by unfold State.emit; split <;> rfl
@[simp] theorem State.emit_drawn (o : Out) : (s.emit o).drawn = s.drawn := by unfold State.emit; split <;> rfl
@[simp] theorem State.emit_pending (o : Out) : (s.emit o).pending = s.pending := by unfold State.emit; split <;> rfl
theorem State.emit_out (o : Out) (h : s.entry.oscDead = false) : (s.emit o).out = s.out ++ [o] := by simp [State.emit, h]
@[simp] theorem State.send_aon (d : Dest) (m : FwMsg) : (s.send d m).aon = s.aon := by unfold State.send; split <;> rfl
@[simp] theorem State.send_fieldQ (d : Dest) (m : FwMsg) : (s.send d m).fieldQ = s.fieldQ := by unfold State.send; split <;> rfl
@[simp] theorem State.send_countQ (d : Dest) (m : FwMsg) : (s.send d m).countQ = s.countQ := by unfold State.send; split <;> rfl
@[simp] theorem State.send_besideQ (d : Dest) (m : FwMsg) : (s.send d m).besideQ = s.besideQ := by unfold State.send; split <;> rfl
@[simp] theorem State.send_pkg (d : Dest) (m : FwMsg) : (s.send d m).pkg = s.pkg := by unfold State.send; split <;> rfl
@[simp] theorem State.send_settings (d : Dest) (m : FwMsg) : (s.send d m).settings = s.settings := by unfold State.send; split <;> rfl
@[simp] theorem State.send_cores (d : Dest) (m : FwMsg) : (s.send d m).cores = s.cores := by unfold State.send; split <;> rfl
@[simp] theorem State.send_starters (d : Dest) (m : FwMsg) : (s.send d m).starters = s.starters := by unfold State.send; split <;> rfl
@[simp] theorem State.send_beside (d : Dest) (m : FwMsg) : (s.send d m).beside = s.beside := by unfold State.send; split <;> rfl
@[simp] theorem State.send_far (d : Dest) (m : FwMsg) : (s.send d m).far = s.far := by unfold State.send; split <;> rfl
@[simp] theorem State.send_parts (d : Dest) (m : FwMsg) : (s.send d m).parts = s.parts := by unfold State.send; split <;> rfl
@[simp] theorem State.send_srv (d : Dest) (m : FwMsg) : (s.send d m).srv = s.srv := by unfold State.send; split <;> rfl
@[simp] theorem State.send_mbx (d : Dest) (m : FwMsg) : (s.send d m).mbx = s.mbx := by unfold State.send; split <;> rfl
@[simp] theorem State.send_boot (d : Dest) (m : FwMsg) : (s.send d m).boot = s.boot := by unfold State.send; split <;> rfl
@[simp] theorem State.send_twin (d : Dest) (m : FwMsg) : (s.send d m).twin = s.twin := by unfold State.send; split <;> rfl
@[simp] theorem State.send_energy (d : Dest) (m : FwMsg) : (s.send d m).energy = s.energy := by unfold State.send; split <;> rfl
@[simp] theorem State.send_power (d : Dest) (m : FwMsg) : (s.send d m).power = s.power := by unfold State.send; split <;> rfl
@[simp] theorem State.send_entry (d : Dest) (m : FwMsg) : (s.send d m).entry = s.entry := by unfold State.send; split <;> rfl
@[simp] theorem State.send_dport (d : Dest) (m : FwMsg) : (s.send d m).dport = s.dport := by unfold State.send; split <;> rfl
@[simp] theorem State.send_drawn (d : Dest) (m : FwMsg) : (s.send d m).drawn = s.drawn := by unfold State.send; split <;> rfl
@[simp] theorem State.send_pending (d : Dest) (m : FwMsg) : (s.send d m).pending = s.pending := by unfold State.send; split <;> rfl
@[simp] theorem State.send_fab_links (d : Dest) (m : FwMsg) : (s.send d m).fab.links = s.fab.links := by unfold State.send; split <;> rfl
@[simp] theorem State.send_fab_node (d : Dest) (m : FwMsg) : (s.send d m).fab.node = s.fab.node := by unfold State.send; split <;> rfl
@[simp] theorem State.send_fab_db (d : Dest) (m : FwMsg) : (s.send d m).fab.db = s.fab.db := by unfold State.send; split <;> rfl
@[simp] theorem State.send_fab_ownSeq (d : Dest) (m : FwMsg) : (s.send d m).fab.ownSeq = s.fab.ownSeq := by unfold State.send; split <;> rfl
@[simp] theorem State.send_fab_refloodAt (d : Dest) (m : FwMsg) : (s.send d m).fab.refloodAt = s.fab.refloodAt := by unfold State.send; split <;> rfl
@[simp] theorem State.send_fab_conflict (d : Dest) (m : FwMsg) : (s.send d m).fab.conflict = s.fab.conflict := by unfold State.send; split <;> rfl
@[simp] theorem State.send_fab_planWeak (d : Dest) (m : FwMsg) : (s.send d m).fab.planWeak = s.fab.planWeak := by unfold State.send; split <;> rfl
@[simp] theorem State.send_fab_topoSeq (d : Dest) (m : FwMsg) : (s.send d m).fab.topoSeq = s.fab.topoSeq := by unfold State.send; split <;> rfl
@[simp] theorem State.send_fab_hopDrop (d : Dest) (m : FwMsg) : (s.send d m).fab.hopDrop = s.fab.hopDrop := by unfold State.send; split <;> rfl
@[simp] theorem State.send_fab_roleFwd (d : Dest) (m : FwMsg) : (s.send d m).fab.roleFwd = s.fab.roleFwd := by unfold State.send; split <;> rfl
@[simp] theorem State.send_fab_roles (d : Dest) (m : FwMsg) : (s.send d m).fab.roles = s.fab.roles := by unfold State.send; split <;> rfl
@[simp] theorem State.send_fab_ownRole (d : Dest) (m : FwMsg) : (s.send d m).fab.ownRole = s.fab.ownRole := by unfold State.send; split <;> rfl
@[simp] theorem State.send_fab_seen (d : Dest) (m : FwMsg) : (s.send d m).fab.seen = s.fab.seen := by unfold State.send; split <;> rfl
@[simp] theorem State.send_fab_txns (d : Dest) (m : FwMsg) : (s.send d m).fab.txns = s.fab.txns := by unfold State.send; split <;> rfl
@[simp] theorem State.send_fab_txnNext (d : Dest) (m : FwMsg) : (s.send d m).fab.txnNext = s.fab.txnNext := by unfold State.send; split <;> rfl
@[simp] theorem State.send_fab_lines (d : Dest) (m : FwMsg) : (s.send d m).fab.lines = s.fab.lines := by unfold State.send; split <;> rfl
@[simp] theorem State.send_fab_lineOrder (d : Dest) (m : FwMsg) : (s.send d m).fab.lineOrder = s.fab.lineOrder := by unfold State.send; split <;> rfl
theorem State.send_out (d : Dest) (m : FwMsg) (h : s.entry.oscDead = false) : (s.send d m).out = s.out ++ [.fw s.fab.pseq d m] := by
  simp [State.send, h]
@[simp] theorem State.drew_aon (n : Nat) : (s.drew n).aon = s.aon := rfl
@[simp] theorem State.drew_fieldQ (n : Nat) : (s.drew n).fieldQ = s.fieldQ := rfl
@[simp] theorem State.drew_countQ (n : Nat) : (s.drew n).countQ = s.countQ := rfl
@[simp] theorem State.drew_besideQ (n : Nat) : (s.drew n).besideQ = s.besideQ := rfl
@[simp] theorem State.drew_pkg (n : Nat) : (s.drew n).pkg = s.pkg := rfl
@[simp] theorem State.drew_settings (n : Nat) : (s.drew n).settings = s.settings := rfl
@[simp] theorem State.drew_cores (n : Nat) : (s.drew n).cores = s.cores := rfl
@[simp] theorem State.drew_starters (n : Nat) : (s.drew n).starters = s.starters := rfl
@[simp] theorem State.drew_beside (n : Nat) : (s.drew n).beside = s.beside := rfl
@[simp] theorem State.drew_far (n : Nat) : (s.drew n).far = s.far := rfl
@[simp] theorem State.drew_parts (n : Nat) : (s.drew n).parts = s.parts := rfl
@[simp] theorem State.drew_srv (n : Nat) : (s.drew n).srv = s.srv := rfl
@[simp] theorem State.drew_mbx (n : Nat) : (s.drew n).mbx = s.mbx := rfl
@[simp] theorem State.drew_boot (n : Nat) : (s.drew n).boot = s.boot := rfl
@[simp] theorem State.drew_fab (n : Nat) : (s.drew n).fab = s.fab := rfl
@[simp] theorem State.drew_twin (n : Nat) : (s.drew n).twin = s.twin := rfl
@[simp] theorem State.drew_energy (n : Nat) : (s.drew n).energy = s.energy := rfl
@[simp] theorem State.drew_power (n : Nat) : (s.drew n).power = s.power := rfl
@[simp] theorem State.drew_entry (n : Nat) : (s.drew n).entry = s.entry := rfl
@[simp] theorem State.drew_dport (n : Nat) : (s.drew n).dport = s.dport := rfl
@[simp] theorem State.drew_out (n : Nat) : (s.drew n).out = s.out := rfl
@[simp] theorem State.drew_pending (n : Nat) : (s.drew n).pending = s.pending := rfl
@[simp] theorem State.draw_aon (n : Nat) : (s.draw n).2.aon = s.aon := rfl
@[simp] theorem State.draw_fieldQ (n : Nat) : (s.draw n).2.fieldQ = s.fieldQ := rfl
@[simp] theorem State.draw_countQ (n : Nat) : (s.draw n).2.countQ = s.countQ := rfl
@[simp] theorem State.draw_besideQ (n : Nat) : (s.draw n).2.besideQ = s.besideQ := rfl
@[simp] theorem State.draw_pkg (n : Nat) : (s.draw n).2.pkg = s.pkg := rfl
@[simp] theorem State.draw_settings (n : Nat) : (s.draw n).2.settings = s.settings := rfl
@[simp] theorem State.draw_cores (n : Nat) : (s.draw n).2.cores = s.cores := rfl
@[simp] theorem State.draw_starters (n : Nat) : (s.draw n).2.starters = s.starters := rfl
@[simp] theorem State.draw_beside (n : Nat) : (s.draw n).2.beside = s.beside := rfl
@[simp] theorem State.draw_far (n : Nat) : (s.draw n).2.far = s.far := rfl
@[simp] theorem State.draw_parts (n : Nat) : (s.draw n).2.parts = s.parts := rfl
@[simp] theorem State.draw_srv (n : Nat) : (s.draw n).2.srv = s.srv := rfl
@[simp] theorem State.draw_mbx (n : Nat) : (s.draw n).2.mbx = s.mbx := rfl
@[simp] theorem State.draw_boot (n : Nat) : (s.draw n).2.boot = s.boot := rfl
@[simp] theorem State.draw_fab (n : Nat) : (s.draw n).2.fab = s.fab := rfl
@[simp] theorem State.draw_twin (n : Nat) : (s.draw n).2.twin = s.twin := rfl
@[simp] theorem State.draw_energy (n : Nat) : (s.draw n).2.energy = s.energy := rfl
@[simp] theorem State.draw_power (n : Nat) : (s.draw n).2.power = s.power := rfl
@[simp] theorem State.draw_entry (n : Nat) : (s.draw n).2.entry = s.entry := rfl
@[simp] theorem State.draw_dport (n : Nat) : (s.draw n).2.dport = s.dport := rfl
@[simp] theorem State.draw_out (n : Nat) : (s.draw n).2.out = s.out := rfl
@[simp] theorem State.draw_pending (n : Nat) : (s.draw n).2.pending = s.pending := rfl
@[simp] theorem State.count_aon (a b n : Nat) : (s.count a b n).aon = s.aon := by unfold State.count; split <;> rfl
@[simp] theorem State.count_fieldQ (a b n : Nat) : (s.count a b n).fieldQ = s.fieldQ := by unfold State.count; split <;> rfl
@[simp] theorem State.count_countQ (a b n : Nat) : (s.count a b n).countQ = s.countQ := by unfold State.count; split <;> rfl
@[simp] theorem State.count_besideQ (a b n : Nat) : (s.count a b n).besideQ = s.besideQ := by unfold State.count; split <;> rfl
@[simp] theorem State.count_pkg (a b n : Nat) : (s.count a b n).pkg = s.pkg := by unfold State.count; split <;> rfl
@[simp] theorem State.count_settings (a b n : Nat) : (s.count a b n).settings = s.settings := by unfold State.count; split <;> rfl
@[simp] theorem State.count_cores (a b n : Nat) : (s.count a b n).cores = s.cores := by unfold State.count; split <;> rfl
@[simp] theorem State.count_starters (a b n : Nat) : (s.count a b n).starters = s.starters := by unfold State.count; split <;> rfl
@[simp] theorem State.count_beside (a b n : Nat) : (s.count a b n).beside = s.beside := by unfold State.count; split <;> rfl
@[simp] theorem State.count_far (a b n : Nat) : (s.count a b n).far = s.far := by unfold State.count; split <;> rfl
@[simp] theorem State.count_parts (a b n : Nat) : (s.count a b n).parts = s.parts := by unfold State.count; split <;> rfl
@[simp] theorem State.count_srv (a b n : Nat) : (s.count a b n).srv = s.srv := by unfold State.count; split <;> rfl
@[simp] theorem State.count_mbx (a b n : Nat) : (s.count a b n).mbx = s.mbx := by unfold State.count; split <;> rfl
@[simp] theorem State.count_boot (a b n : Nat) : (s.count a b n).boot = s.boot := by unfold State.count; split <;> rfl
@[simp] theorem State.count_fab (a b n : Nat) : (s.count a b n).fab = s.fab := by unfold State.count; split <;> rfl
@[simp] theorem State.count_twin (a b n : Nat) : (s.count a b n).twin = s.twin := by unfold State.count; split <;> rfl
@[simp] theorem State.count_power (a b n : Nat) : (s.count a b n).power = s.power := by unfold State.count; split <;> rfl
@[simp] theorem State.count_entry (a b n : Nat) : (s.count a b n).entry = s.entry := by unfold State.count; split <;> rfl
@[simp] theorem State.count_dport (a b n : Nat) : (s.count a b n).dport = s.dport := by unfold State.count; split <;> rfl
@[simp] theorem State.count_out (a b n : Nat) : (s.count a b n).out = s.out := by unfold State.count; split <;> rfl
@[simp] theorem State.count_drawn (a b n : Nat) : (s.count a b n).drawn = s.drawn := by unfold State.count; split <;> rfl
@[simp] theorem State.count_pending (a b n : Nat) : (s.count a b n).pending = s.pending := by unfold State.count; split <;> rfl
@[simp] theorem State.emit_core (o : Out) (j : Nat) : (s.emit o).core j = s.core j := by simp [State.core]
@[simp] theorem State.send_core (d : Dest) (m : FwMsg) (j : Nat) : (s.send d m).core j = s.core j := by simp [State.core]
@[simp] theorem State.drew_core (n : Nat) (j : Nat) : (s.drew n).core j = s.core j := by simp [State.core]
@[simp] theorem State.count_core (a b n : Nat) (j : Nat) : (s.count a b n).core j = s.core j := by simp [State.core]
@[simp] theorem State.emit_starter (o : Out) (j : Nat) : (s.emit o).starter j = s.starter j := by simp [State.starter]
@[simp] theorem State.send_starter (d : Dest) (m : FwMsg) (j : Nat) : (s.send d m).starter j = s.starter j := by simp [State.starter]
@[simp] theorem State.drew_starter (n : Nat) (j : Nat) : (s.drew n).starter j = s.starter j := by simp [State.starter]
@[simp] theorem State.count_starter (a b n : Nat) (j : Nat) : (s.count a b n).starter j = s.starter j := by simp [State.starter]
@[simp] theorem State.emit_bdie (o : Out) (j : Nat) : (s.emit o).bdie j = s.bdie j := by simp [State.bdie]
@[simp] theorem State.send_bdie (d : Dest) (m : FwMsg) (j : Nat) : (s.send d m).bdie j = s.bdie j := by simp [State.bdie]
@[simp] theorem State.drew_bdie (n : Nat) (j : Nat) : (s.drew n).bdie j = s.bdie j := by simp [State.bdie]
@[simp] theorem State.count_bdie (a b n : Nat) (j : Nat) : (s.count a b n).bdie j = s.bdie j := by simp [State.bdie]
@[simp] theorem State.emit_part (o : Out) (j : Nat) : (s.emit o).part j = s.part j := by simp [State.part]
@[simp] theorem State.send_part (d : Dest) (m : FwMsg) (j : Nat) : (s.send d m).part j = s.part j := by simp [State.part]
@[simp] theorem State.drew_part (n : Nat) (j : Nat) : (s.drew n).part j = s.part j := by simp [State.part]
@[simp] theorem State.count_part (a b n : Nat) (j : Nat) : (s.count a b n).part j = s.part j := by simp [State.part]
@[simp] theorem State.emit_fn (o : Out) (j : Nat) : (s.emit o).fn j = s.fn j := by simp [State.fn]
@[simp] theorem State.send_fn (d : Dest) (m : FwMsg) (j : Nat) : (s.send d m).fn j = s.fn j := by simp [State.fn]
@[simp] theorem State.drew_fn (n : Nat) (j : Nat) : (s.drew n).fn j = s.fn j := by simp [State.fn]
@[simp] theorem State.count_fn (a b n : Nat) (j : Nat) : (s.count a b n).fn j = s.fn j := by simp [State.fn]
@[simp] theorem State.emit_ctx (o : Out) (j : Nat) : (s.emit o).ctx j = s.ctx j := by simp [State.ctx]
@[simp] theorem State.send_ctx (d : Dest) (m : FwMsg) (j : Nat) : (s.send d m).ctx j = s.ctx j := by simp [State.ctx]
@[simp] theorem State.drew_ctx (n : Nat) (j : Nat) : (s.drew n).ctx j = s.ctx j := by simp [State.ctx]
@[simp] theorem State.count_ctx (a b n : Nat) (j : Nat) : (s.count a b n).ctx j = s.ctx j := by simp [State.ctx]
@[simp] theorem State.emit_req (o : Out) (j : Nat) : (s.emit o).req j = s.req j := by simp [State.req]
@[simp] theorem State.send_req (d : Dest) (m : FwMsg) (j : Nat) : (s.send d m).req j = s.req j := by simp [State.req]
@[simp] theorem State.drew_req (n : Nat) (j : Nat) : (s.drew n).req j = s.req j := by simp [State.req]
@[simp] theorem State.count_req (a b n : Nat) (j : Nat) : (s.count a b n).req j = s.req j := by simp [State.req]
@[simp] theorem State.emit_sess (o : Out) (j : Nat) : (s.emit o).sess j = s.sess j := by simp [State.sess]
@[simp] theorem State.send_sess (d : Dest) (m : FwMsg) (j : Nat) : (s.send d m).sess j = s.sess j := by simp [State.sess]
@[simp] theorem State.drew_sess (n : Nat) (j : Nat) : (s.drew n).sess j = s.sess j := by simp [State.sess]
@[simp] theorem State.count_sess (a b n : Nat) (j : Nat) : (s.count a b n).sess j = s.sess j := by simp [State.sess]
@[simp] theorem State.emit_heat (o : Out) (j : Nat) : (s.emit o).heat j = s.heat j := by simp [State.heat]
@[simp] theorem State.send_heat (d : Dest) (m : FwMsg) (j : Nat) : (s.send d m).heat j = s.heat j := by simp [State.heat]
@[simp] theorem State.drew_heat (n : Nat) (j : Nat) : (s.drew n).heat j = s.heat j := by simp [State.heat]
@[simp] theorem State.count_heat (a b n : Nat) (j : Nat) : (s.count a b n).heat j = s.heat j := by simp [State.heat]
@[simp] theorem State.emit_map (o : Out) (j : Nat) : (s.emit o).map j = s.map j := by simp [State.map]
@[simp] theorem State.send_map (d : Dest) (m : FwMsg) (j : Nat) : (s.send d m).map j = s.map j := by simp [State.map]
@[simp] theorem State.drew_map (n : Nat) (j : Nat) : (s.drew n).map j = s.map j := by simp [State.map]
@[simp] theorem State.count_map (a b n : Nat) (j : Nat) : (s.count a b n).map j = s.map j := by simp [State.map]
@[simp] theorem State.emit_tenant (o : Out) (j : Nat) : (s.emit o).tenant j = s.tenant j := by simp [State.tenant]
@[simp] theorem State.send_tenant (d : Dest) (m : FwMsg) (j : Nat) : (s.send d m).tenant j = s.tenant j := by simp [State.tenant]
@[simp] theorem State.drew_tenant (n : Nat) (j : Nat) : (s.drew n).tenant j = s.tenant j := by simp [State.tenant]
@[simp] theorem State.count_tenant (a b n : Nat) (j : Nat) : (s.count a b n).tenant j = s.tenant j := by simp [State.tenant]
@[simp] theorem State.emit_link (o : Out) (j : Nat) : (s.emit o).link j = s.link j := by simp [State.link]
@[simp] theorem State.send_link (d : Dest) (m : FwMsg) (j : Nat) : (s.send d m).link j = s.link j := by simp [State.link]
@[simp] theorem State.drew_link (n : Nat) (j : Nat) : (s.drew n).link j = s.link j := by simp [State.link]
@[simp] theorem State.count_link (a b n : Nat) (j : Nat) : (s.count a b n).link j = s.link j := by simp [State.link]
@[simp] theorem State.emit_obj (o : Out) (j : Nat) : (s.emit o).obj j = s.obj j := by simp [State.obj]
@[simp] theorem State.send_obj (d : Dest) (m : FwMsg) (j : Nat) : (s.send d m).obj j = s.obj j := by simp [State.obj]
@[simp] theorem State.drew_obj (n : Nat) (j : Nat) : (s.drew n).obj j = s.obj j := by simp [State.obj]
@[simp] theorem State.count_obj (a b n : Nat) (j : Nat) : (s.count a b n).obj j = s.obj j := by simp [State.obj]

end Sys2Proof.Machine
end

