-- ==== Sys2Proof/Laws/Settle.lean ====
section
/-!
SUPPORT. What `settle` does where nothing is due.
-/

namespace Sys2Proof.Machine

/-- A fold whose step leaves a state alone leaves it alone. -/
theorem foldl_idle {α β : Type} (g : β → α → β) (l : List α) (s : β) (h : ∀ x ∈ l, g s x = s) : l.foldl g s = s := by
  induction l with
  | nil => rfl
  | cons x r ih =>
    rw [List.foldl_cons, h x List.mem_cons_self]
    exact ih fun y hy => h y (List.mem_cons_of_mem _ hy)

/-- With no function's backlog overflowed, nothing follows. -/
theorem settle_idle (s : State) (h : ∀ f, f < 16 → (s.fn f).stalled = false) : settle s = s := by
  unfold settle
  exact foldl_idle _ _ _ fun f hf => by simp [h f (List.mem_range.1 hf)]

end Sys2Proof.Machine
end

