-- ==== Sys2Proof/Laws/Slots.lean ====
section
/-!
SUPPORT. What the shared operations of a Field core can do: records, faults, hurdles, the start and the end of a command.
-/

namespace Sys2Proof.Machine

theorem tput_tput {α : Type} (t : Tab α) (k : Nat) (a b : α) : tput (tput t k a) k b = tput t k b := by
  induction t with
  | nil => simp [tput]
  | cons e r ih =>
    obtain ⟨i, w⟩ := e
    simp only [tput]
    split
    · simp [tput]
    · split
      · simp [tput]
      · rename_i h1 h2; simp [tput, h1, h2, ih]

theorem State.setCore_setCore (s : State) (c : Nat) (x y : Core) : (s.setCore c x).setCore c y = s.setCore c y := by
  simp [State.setCore, tput_tput]

theorem Core.setSlot_setSlot (k : Core) (i : Nat) (x y : SlotSt) : (k.setSlot i x).setSlot i y = k.setSlot i y := by
  rcases i with _ | _ | _ | i <;> rfl

theorem State.setSlot_setSlot (s : State) (c k : Nat) (x y : SlotSt) : (s.setSlot c k x).setSlot c k y = s.setSlot c k y := by
  simp [State.setSlot, State.setCore_setCore, Core.setSlot_setSlot]

/-- Slots and memories of a core read through the state. -/
theorem State.slot_eq (s : State) (c k : Nat) : s.slot c k = (s.core c).slot k := rfl

@[simp] theorem Core.setHur_slot (k : Core) (h : Nat) (w : Word64) (j : Nat) : (k.setHur h w).slot j = k.slot j := by
  rcases j with _ | _ | _ | j <;> rfl

theorem Core.hur_setHur (k : Core) (h j : Nat) (w : Word64) : (k.setHur h w).hur j = if j = h then w else k.hur j := tget_tput ..

/-! ### Records -/

/-- A record written changes a starter's queue or the records its core holds, and nothing else. -/
theorem putRecord_cases (s : State) (c : Nat) (r : Record) :
    (putRecord s c r = s.setStarter (starterOf c) { s.starter (starterOf c) with queue := (s.starter (starterOf c)).queue ++ [r] } ∧
      (s.core c).held = [] ∧ (s.starter (starterOf c)).queue.length < 1024 ∧ s.coreRuns c = true) ∨
    putRecord s c r = s.setCore c { s.core c with held := (s.core c).held ++ [r] } := by
  unfold putRecord; dsimp only; split
  · rename_i h; simp only [Bool.and_eq_true, List.isEmpty_iff, decide_eq_true_eq] at h; exact .inl ⟨rfl, h.1.1, h.1.2, h.2⟩
  · exact .inr rfl

/-- With room in the queue, nothing held and the core running, the record is the queue's last. -/
theorem putRecord_queue (s : State) (c : Nat) (r : Record) (h1 : (s.core c).held = []) (h2 : (s.starter (starterOf c)).queue.length < 1024)
    (h3 : s.coreRuns c = true) :
    putRecord s c r = s.setStarter (starterOf c) { s.starter (starterOf c) with queue := (s.starter (starterOf c)).queue ++ [r] } := by
  simp [putRecord, h1, h2, h3]

@[simp] theorem putRecord_slot (s : State) (c : Nat) (r : Record) (j k : Nat) : (putRecord s c r).slot j k = s.slot j k := by
  rcases putRecord_cases s c r with ⟨h, _⟩ | h <;> rw [h]
  · rfl
  · simp only [State.slot, State.core_setCore]; split
    · subst j; rcases k with _ | _ | _ | k <;> rfl
    · rfl

@[simp] theorem putRecord_hurdle (s : State) (c : Nat) (r : Record) (j : Nat) : ((putRecord s c r).core j).hurdle = (s.core j).hurdle := by
  rcases putRecord_cases s c r with ⟨h, _⟩ | h <;> rw [h]
  · rfl
  · simp only [State.core_setCore]; split <;> simp_all

@[simp] theorem putRecord_spad (s : State) (c : Nat) (r : Record) (j : Nat) : ((putRecord s c r).core j).spad = (s.core j).spad := by
  rcases putRecord_cases s c r with ⟨h, _⟩ | h <;> rw [h]
  · rfl
  · simp only [State.core_setCore]; split <;> simp_all

@[simp] theorem putRecord_acc (s : State) (c : Nat) (r : Record) (j : Nat) : ((putRecord s c r).core j).acc = (s.core j).acc := by
  rcases putRecord_cases s c r with ⟨h, _⟩ | h <;> rw [h]
  · rfl
  · simp only [State.core_setCore]; split <;> simp_all

@[simp] theorem putRecord_step (s : State) (c : Nat) (r : Record) (j : Nat) : ((putRecord s c r).core j).step = (s.core j).step := by
  rcases putRecord_cases s c r with ⟨h, _⟩ | h <;> rw [h]
  · rfl
  · simp only [State.core_setCore]; split <;> simp_all

@[simp] theorem putRecord_beside (s : State) (c : Nat) (r : Record) : (putRecord s c r).beside = s.beside := by
  rcases putRecord_cases s c r with ⟨h, _⟩ | h <;> rw [h] <;> rfl

/-- A record touches cores and starters alone. -/
theorem putRecord_rest (s : State) (c : Nat) (r : Record) :
    putRecord s c r = { s with cores := (putRecord s c r).cores, starters := (putRecord s c r).starters } := by
  rcases putRecord_cases s c r with ⟨h, _⟩ | h <;> rw [h] <;> rfl

/-! ### A command's end -/

/-- The step of a core that is not stepping does not end. -/
theorem stepDone_none (s : State) (c slot seq : Nat) (h : (s.core c).step = none) : stepDone s c slot seq = s := by
  simp [stepDone, isStepped, h]

/-- An increment that fits is added, and nothing else changes. -/
theorem hurdleAdd_fits (s : State) (c h inc : Nat) (who : Option Cmd) (g : hCount ((s.core c).hur h) + inc ≤ 65535) :
    hurdleAdd s c h inc who = s.setCore c ((s.core c).setHur h (setBits ((s.core c).hur h) 15 0 (hCount ((s.core c).hur h) + inc))) := by
  simp [hurdleAdd, g]

/-- The end of a command that signals nothing and asks for no record, on a core that is not stepping, changes nothing more. -/
theorem finish_plain (s : State) (c slot : Nat) (cmd : Cmd) (seq : Nat) (h1 : cmd.sigEn = false) (h2 : cmd.mark = false)
    (h3 : (s.core c).step = none) : finish s c slot cmd seq = s := by
  simp [finish, h1, h2, stepDone_none _ _ _ _ h3]

/-! ### Faults -/

/-- A fault leaves every other slot as it was. -/
theorem slotFault_other (s : State) (c k cause : Nat) (who : Option Cmd) (addr : Nat) (d : Bool) (c' k' : Nat) (hk : k < 4) (hk' : k' < 4)
    (h : c' ≠ c ∨ k' ≠ k) : (slotFault s c k cause who addr d).slot c' k' = s.slot c' k' := by
  have e : ¬(c' = c ∧ k' = k) := by rintro ⟨a, b⟩; rcases h with h | h <;> contradiction
  unfold slotFault; dsimp only; split
  · rfl
  · rw [State.slot_setSlot _ _ _ _ _ _ hk hk', if_neg e]
  · split
    · rw [State.slot_setSlot _ _ _ _ _ _ hk hk', if_neg e]
    · rw [putRecord_slot, State.slot_setSlot _ _ _ _ _ _ hk hk', if_neg e]

/-- What a fault keeps of its slot: configuration, HEAD, TAIL, the sub-queues, the deferred table; a blocking front-end command it ends. -/
theorem slotFault_same (s : State) (c k cause : Nat) (who : Option Cmd) (addr : Nat) (d : Bool) :
    ((slotFault s c k cause who addr d).slot c k).head = (s.slot c k).head ∧
    ((slotFault s c k cause who addr d).slot c k).tail = (s.slot c k).tail ∧
    ((slotFault s c k cause who addr d).slot c k).cfg = (s.slot c k).cfg ∧
    ((slotFault s c k cause who addr d).slot c k).tstage = (s.slot c k).tstage ∧
    ((slotFault s c k cause who addr d).slot c k).deferred = (s.slot c k).deferred ∧
    ((s.slot c k).fe = none → ((slotFault s c k cause who addr d).slot c k).fe = none) := by
  unfold slotFault; dsimp only; split
  · simp
  · simp
  · split
    · simp
    · simp only [putRecord_slot, State.slot_setSlot_same]; simp

theorem slotFault_core (s : State) (c k cause : Nat) (who : Option Cmd) (addr : Nat) (d : Bool) (j : Nat) :
    ((slotFault s c k cause who addr d).core j).hurdle = (s.core j).hurdle ∧
    ((slotFault s c k cause who addr d).core j).spad = (s.core j).spad ∧ ((slotFault s c k cause who addr d).core j).acc = (s.core j).acc ∧
    ((slotFault s c k cause who addr d).core j).step = (s.core j).step := by
  unfold slotFault; dsimp only; split
  · simp
  · simp
  · split <;> simp

/-- A fault touches cores and starters alone. -/
theorem slotFault_rest (s : State) (c k cause : Nat) (who : Option Cmd) (addr : Nat) (d : Bool) :
    slotFault s c k cause who addr d =
      { s with cores := (slotFault s c k cause who addr d).cores, starters := (slotFault s c k cause who addr d).starters } := by
  unfold slotFault; dsimp only; split
  · rfl
  · rfl
  · split
    · rfl
    · rw [putRecord_rest]; rfl

/-- A first fault of a slot that is BOUND, RUNNING or PAUSED with VALID clear freezes it and records the cause, the command and the address
(R94, R105). -/
theorem slotFault_first (s : State) (c k cause : Nat) (who : Option Cmd) (addr : Nat) (d : Bool)
    (h1 : (s.slot c k).state ≠ .unbound) (h2 : (s.slot c k).state ≠ .frozen) (h3 : bit (s.slot c k).fault 8 = false) :
    ((slotFault s c k cause who addr d).slot c k).state = .frozen ∧
    ((slotFault s c k cause who addr d).slot c k).fault =
      faultWord cause d ((who.map (·.ring)).getD 0) ((who.map Cmd.opc).getD 0) ((who.map Cmd.tag).getD 0) ∧
    ((slotFault s c k cause who addr d).slot c k).faddr = BitVec.ofNat 64 (addr % 2 ^ 48) := by
  unfold slotFault; dsimp only; split
  · contradiction
  · contradiction
  · simp [h3]

/-! ### Increments, steps and ends, whatever they meet -/

theorem hurdleOwner_lt (c : Core) (h o : Nat) (g : hurdleOwner c h = some o) : o < 4 := by
  have := List.mem_of_find?_eq_some g; simpa using this

theorem hurdleAdd_slot (s : State) (c h inc : Nat) (who : Option Cmd) (c' k' : Nat) (hk : k' < 4) :
    ((hurdleAdd s c h inc who).slot c' k').head = (s.slot c' k').head ∧ ((hurdleAdd s c h inc who).slot c' k').tail = (s.slot c' k').tail ∧
    ((hurdleAdd s c h inc who).slot c' k').cfg = (s.slot c' k').cfg ∧ ((hurdleAdd s c h inc who).slot c' k').tstage = (s.slot c' k').tstage ∧
    ((s.slot c' k').fe = none → ((hurdleAdd s c h inc who).slot c' k').fe = none) := by
  have e : ∀ w, (s.setCore c ((s.core c).setHur h w)).slot c' k' = s.slot c' k' := by
    intro w; simp only [State.slot, State.core_setCore]; split
    · subst c'; simp
    · rfl
  unfold hurdleAdd; dsimp only; split
  · rw [e]; simp
  · split
    · rename_i o ho
      by_cases g : c' = c ∧ k' = o
      · obtain ⟨rfl, rfl⟩ := g
        have := slotFault_same (s.setCore c' ((s.core c').setHur h (setBits ((s.core c').hur h) 15 0 65535))) c' k' fcHURDLE_OVF who 0 false
        rw [e] at this; exact ⟨this.1, this.2.1, this.2.2.1, this.2.2.2.1, this.2.2.2.2.2⟩
      · rw [slotFault_other _ _ _ _ _ _ _ _ _ (hurdleOwner_lt _ _ _ ho) hk (by by_contra h; push Not at h; exact g h), e]; simp
    · rw [e]; simp

theorem hurdleAdd_mem (s : State) (c h inc : Nat) (who : Option Cmd) (j : Nat) :
    ((hurdleAdd s c h inc who).core j).spad = (s.core j).spad ∧ ((hurdleAdd s c h inc who).core j).acc = (s.core j).acc ∧
    ((hurdleAdd s c h inc who).core j).step = (s.core j).step := by
  have e : ∀ w, ((s.setCore c ((s.core c).setHur h w)).core j).spad = (s.core j).spad ∧
      ((s.setCore c ((s.core c).setHur h w)).core j).acc = (s.core j).acc ∧ ((s.setCore c ((s.core c).setHur h w)).core j).step = (s.core j).step := by
    intro w; simp only [State.core_setCore]; split
    · subst j; simp [Core.setHur]
    · simp
  unfold hurdleAdd; dsimp only; split
  · exact e _
  · split
    · rename_i o ho
      have := slotFault_core (s.setCore c ((s.core c).setHur h (setBits ((s.core c).hur h) 15 0 65535))) c o fcHURDLE_OVF who 0 false j
      exact ⟨this.2.1.trans (e _).1, this.2.2.1.trans (e _).2.1, this.2.2.2.trans (e _).2.2⟩
    · exact e _

theorem hurdleAdd_rest (s : State) (c h inc : Nat) (who : Option Cmd) :
    hurdleAdd s c h inc who = { s with cores := (hurdleAdd s c h inc who).cores, starters := (hurdleAdd s c h inc who).starters } := by
  unfold hurdleAdd; dsimp only; split
  · rfl
  · split
    · rw [slotFault_rest]; rfl
    · rfl

theorem stepDone_slot (s : State) (c slot seq c' k' : Nat) : (stepDone s c slot seq).slot c' k' = s.slot c' k' := by
  unfold stepDone; dsimp only; split
  · simp only [State.slot, State.core_setCore]; split
    · subst c'; rcases k' with _ | _ | _ | k' <;> rfl
    · rfl
  · rfl

theorem stepDone_mem (s : State) (c slot seq j : Nat) :
    ((stepDone s c slot seq).core j).spad = (s.core j).spad ∧ ((stepDone s c slot seq).core j).acc = (s.core j).acc ∧
    ((stepDone s c slot seq).core j).hurdle = (s.core j).hurdle := by
  unfold stepDone; dsimp only; split
  · simp only [State.core_setCore]; split <;> simp_all
  · simp

theorem stepDone_rest (s : State) (c slot seq : Nat) : stepDone s c slot seq = { s with cores := (stepDone s c slot seq).cores } := by
  unfold stepDone; dsimp only; split <;> rfl

/-- The end of a command keeps each slot's HEAD, TAIL and configuration, and a slot with no blocking front-end command keeps none. -/
theorem finish_slot (s : State) (c slot : Nat) (cmd : Cmd) (seq c' k' : Nat) (hk : k' < 4) :
    ((finish s c slot cmd seq).slot c' k').head = (s.slot c' k').head ∧ ((finish s c slot cmd seq).slot c' k').tail = (s.slot c' k').tail ∧
    ((finish s c slot cmd seq).slot c' k').cfg = (s.slot c' k').cfg ∧ ((finish s c slot cmd seq).slot c' k').tstage = (s.slot c' k').tstage ∧
    ((s.slot c' k').fe = none → ((finish s c slot cmd seq).slot c' k').fe = none) := by
  unfold finish; dsimp only
  rw [stepDone_slot]
  split <;> (try rw [putRecord_slot]) <;> split <;> first | exact hurdleAdd_slot _ _ _ _ _ _ _ hk | simp

/-- The end of a command writes no scratchpad and no accumulator. -/
theorem finish_mem (s : State) (c slot : Nat) (cmd : Cmd) (seq j : Nat) :
    ((finish s c slot cmd seq).core j).spad = (s.core j).spad ∧ ((finish s c slot cmd seq).core j).acc = (s.core j).acc := by
  unfold finish; dsimp only
  rw [(stepDone_mem _ _ _ _ _).1, (stepDone_mem _ _ _ _ _).2.1]
  split <;> (try rw [putRecord_spad, putRecord_acc]) <;> split <;>
    first | exact ⟨(hurdleAdd_mem _ _ _ _ _ _).1, (hurdleAdd_mem _ _ _ _ _ _).2.1⟩ | simp

/-- The end of a command touches cores and starters alone. -/
theorem finish_rest (s : State) (c slot : Nat) (cmd : Cmd) (seq : Nat) :
    finish s c slot cmd seq =
      { s with cores := (finish s c slot cmd seq).cores, starters := (finish s c slot cmd seq).starters } := by
  unfold finish; dsimp only
  rw [stepDone_rest]
  split <;> (try rw [putRecord_rest]) <;> split <;> (try rw [hurdleAdd_rest]) <;> rfl

end Sys2Proof.Machine
end

