-- ==== Sys2Proof/Laws/Frames.lean ====
section
/-!
SUPPORT. The frames of Safety.lean, one lemma for each way a state is changed; what a hurdle's pass, a taken front-end command and a sub-queue
written keep.
-/

namespace Sys2Proof.Machine

theorem setCore_mem (s : State) (c : Nat) (K : Core) (h1 : K.spad = (s.core c).spad) (h2 : K.acc = (s.core c).acc) (j : Nat) :
    ((s.setCore c K).core j).spad = (s.core j).spad ∧ ((s.setCore c K).core j).acc = (s.core j).acc := by
  simp only [State.core_setCore]; split <;> simp_all

theorem keepsMemory_of (s t : State) (h1 : ∀ c, (t.core c).spad = (s.core c).spad) (h2 : ∀ c, (t.core c).acc = (s.core c).acc)
    (h3 : t.beside = s.beside) : KeepsMemory s t :=
  ⟨fun c a => by simp [spadByte, h1], fun c a => by simp [accWord, h2], fun d a => by simp [nearByte, State.bdie, h3]⟩

theorem keepsMemory_refl (s : State) : KeepsMemory s s := ⟨fun _ _ => rfl, fun _ _ => rfl, fun _ _ => rfl⟩

/-- A state whose cores and stacks are the same keeps every byte. -/
theorem keepsMemory_same (s t : State) (h1 : t.cores = s.cores) (h2 : t.beside = s.beside) : KeepsMemory s t :=
  keepsMemory_of s t (by simp [State.core, h1]) (by simp [State.core, h1]) h2

theorem oneSlot_of (s t : State) (c k : Nat) (K : Core) (ht : t = s.setCore c K)
    (h1 : K.spad = (s.core c).spad) (h2 : K.acc = (s.core c).acc) (h3 : K.inbox = (s.core c).inbox) (h4 : K.chan = (s.core c).chan)
    (h5 : K.ctrl = (s.core c).ctrl) (h6 : K.held = (s.core c).held)
    (hs : ∀ j, j < 4 → j ≠ k → K.slot j = (s.core c).slot j) : OneSlot s t c k := by
  subst ht
  refine ⟨by rfl, ⟨?_, ?_, ?_⟩, ?_, ?_, ?_⟩
  · intro c' a; simp only [spadByte, State.core_setCore]; split <;> simp_all
  · intro c' a; simp only [accWord, State.core_setCore]; split <;> simp_all
  · intro d a; simp [nearByte]
  · intro c' k' hk' h; simp only [State.slot, State.core_setCore]
    by_cases g : c' = c
    · subst g; simp only [if_true]; apply hs _ hk'; simpa using h
    · simp [g]
  · intro c'; simp only [State.core_setCore]; split <;> simp_all
  · intro c' h; simp [State.core_setCore, h]

theorem oneSlot_setSlot (s : State) (c k : Nat) (x : SlotSt) (hk : k < 4) : OneSlot s (s.setSlot c k x) c k := by
  refine oneSlot_of s _ c k _ rfl ?_ ?_ ?_ ?_ ?_ ?_ ?_ <;> try simp
  intro j hj h; rw [Core.slot_setSlot _ _ _ _ hk hj]; simp [h]

/-- Whether a core runs depends on nothing but identity, power, inputs, whistles and its own HALT and step. -/
theorem coreRuns_congr (s t : State) (c : Nat) (h1 : t.pkg = s.pkg) (h2 : t.power = s.power) (h3 : t.entry = s.entry) (h4 : t.dport = s.dport)
    (h5 : (t.core c).ctrl = (s.core c).ctrl) (h6 : (t.core c).step = (s.core c).step) : t.coreRuns c = s.coreRuns c := by
  simp [State.coreRuns, State.coreHeld, State.coreOk, State.whistled, h1, h2, h3, h4, h5, h6]

/-! ### Hurdles -/

theorem passHurdle_slot (k : Core) (x : SlotSt) (h j : Nat) : (passHurdle k x h).slot j = k.slot j := by
  unfold passHurdle; dsimp only; split <;> simp

theorem passHurdle_mem (k : Core) (x : SlotSt) (h : Nat) :
    (passHurdle k x h).spad = k.spad ∧ (passHurdle k x h).acc = k.acc ∧ (passHurdle k x h).held = k.held ∧ (passHurdle k x h).step = k.step ∧
    (passHurdle k x h).ctrl = k.ctrl ∧ (passHurdle k x h).serial = k.serial := by
  unfold passHurdle; dsimp only; split <;> simp [Core.setHur]

theorem setHur_mem (s : State) (c : Nat) (h : Nat) (w : Word64) (j : Nat) :
    ((s.setCore c ((s.core c).setHur h w)).core j).spad = (s.core j).spad ∧ ((s.setCore c ((s.core c).setHur h w)).core j).acc = (s.core j).acc :=
  setCore_mem s c ((s.core c).setHur h w) rfl rfl j

theorem setHur_slot (s : State) (c : Nat) (h : Nat) (w : Word64) (j k : Nat) :
    (s.setCore c ((s.core c).setHur h w)).slot j k = s.slot j k := by
  simp only [State.slot, State.core_setCore]; split
  · subst j; simp
  · rfl

theorem hCount_setBits (w : Word64) (n : Nat) (h : n ≤ 65535) : hCount (setBits w 15 0 n) = n := by
  unfold hCount setBits bits nset nbits
  simp only [BitVec.toNat_ofNat]
  have := w.isLt
  simp only [Nat.pow_zero, Nat.div_one, Nat.mul_one]
  norm_num at this ⊢
  omega

/-! ### The front end -/

/-- What a ready front-end command says of its slot. -/
theorem feReady_facts (s : State) (c k opc : Nat) (q : QEntry) (h : feReady s c k opc = some q) :
    s.coreRuns c = true ∧ k < 4 ∧ (s.slot c k).state = .running ∧ (s.slot c k).fe = some q := by
  unfold feReady at h
  dsimp only at h
  split at h
  · cases h
  · rename_i h1
    split at h
    · rename_i p hp
      split at h
      · cases h; simp at h1; exact ⟨h1.1.1, h1.1.2, h1.2, hp⟩
      · cases h
    · cases h

/-- A front-end command taken: HEAD advances past it and it blocks no longer. -/
theorem feTake_facts (s : State) (c k : Nat) (q : QEntry) :
    (feTake s c k q).slot c k = { s.slot c k with fe := none, head := (s.slot c k).head + 1 } ∧
    (∀ j, ((feTake s c k q).core j).spad = (s.core j).spad ∧ ((feTake s c k q).core j).acc = (s.core j).acc ∧
      ((feTake s c k q).core j).held = (s.core j).held ∧ ((feTake s c k q).core j).step = (s.core j).step) ∧
    feTake s c k q = { s with cores := (feTake s c k q).cores } := by
  unfold feTake; dsimp only
  refine ⟨?_, ?_, ?_⟩
  · simp only [State.slot, State.core_setCore_same, Core.slot_setSlot_same]
    split <;> simp [passHurdle_slot]
  · intro j; simp only [State.core_setCore]; split
    · subst j; split <;> simp [passHurdle_mem]
    · simp
  · rfl

theorem queue_setQueue (x : SlotSt) (e : Nat) (q : List QEntry) : (x.setQueue e q).queue e = q := by
  rcases e with _ | _ | _ | e <;> rfl

theorem setQueue_keep (x : SlotSt) (e : Nat) (q : List QEntry) :
    (x.setQueue e q).state = x.state ∧ (x.setQueue e q).fe = x.fe ∧ (x.setQueue e q).head = x.head ∧ (x.setQueue e q).tail = x.tail ∧
    (x.setQueue e q).cfg = x.cfg ∧ (x.setQueue e q).started = x.started ∧ (x.setQueue e q).deferred = x.deferred ∧
    (x.setQueue e q).tiles = x.tiles := by
  rcases e with _ | _ | _ | e <;> simp [SlotSt.setQueue]

theorem skipStarted_keep (n : Nat) (x : SlotSt) :
    (skipStarted n x).state = x.state ∧ (skipStarted n x).fe = x.fe ∧ (skipStarted n x).fault = x.fault ∧ (skipStarted n x).cfg = x.cfg := by
  induction n generalizing x with
  | zero => simp [skipStarted]
  | succ n ih =>
    unfold skipStarted; split
    · exact ⟨(ih _).1, (ih _).2.1, (ih _).2.2.1, (ih _).2.2.2⟩
    · simp

end Sys2Proof.Machine
end

