-- ==== Sys2Proof/Laws/Engine.lean ====
section
/-!
SUPPORT. What the start of an engine's command keeps and changes; reads of a memory after cells are written.
-/

namespace Sys2Proof.Machine

variable {α : Type}

/-! ### Reads after writes -/

theorem tget_append (d : α) (a b : Tab α) (k : Nat) :
    tget d (a ++ b) k = if k ∈ a.map (·.1) then tget d a k else tget d b k := by
  induction a with
  | nil => simp
  | cons e r ih =>
    obtain ⟨i, v⟩ := e
    by_cases h : i = k
    · subst h; simp [tget]
    · have h' : ¬ k = i := fun g => h g.symm
      simp only [List.cons_append, tget, if_neg h, List.map_cons, List.mem_cons, h', false_or]; exact ih

theorem tget_notin (d : α) (t : Tab α) (k : Nat) (h : k ∉ t.map (·.1)) : tget d t k = d := by
  induction t with
  | nil => rfl
  | cons e r ih =>
    obtain ⟨i, v⟩ := e
    simp only [List.map_cons, List.mem_cons, not_or] at h
    simp only [tget, if_neg (fun g : i = k => h.1 g.symm)]; exact ih h.2

/-- The cells a write makes: the value written where it is not what an unlisted cell reads as. -/
theorem tget_mcells [DecidableEq α] (d : α) (a : Nat) (l : List α) (k : Nat) :
    tget d (mcells d a l) k = if a ≤ k ∧ k < a + l.length then (l[k - a]?).getD d else d := by
  induction l generalizing a with
  | nil => simp [mcells]
  | cons v r ih =>
    simp only [mcells]
    by_cases hk : k = a
    · subst hk
      split
      · rename_i hv; rw [ih]; simp [hv]
      · simp [tget]
    · have e : (if a + 1 ≤ k ∧ k < a + 1 + r.length then (r[k - (a + 1)]?).getD d else d) =
          if a ≤ k ∧ k < a + (v :: r).length then ((v :: r)[k - a]?).getD d else d := by
        by_cases h : a + 1 ≤ k ∧ k < a + 1 + r.length
        · have h2 : a ≤ k ∧ k < a + (v :: r).length := by simp only [List.length_cons]; omega
          rw [if_pos h, if_pos h2]
          obtain ⟨n, rfl⟩ : ∃ n, k = a + 1 + n := ⟨k - (a + 1), by omega⟩
          have : a + 1 + n - a = n + 1 := by omega
          have h3 : a + 1 + n - (a + 1) = n := by omega
          rw [this, h3]; simp
        · have h2 : ¬(a ≤ k ∧ k < a + (v :: r).length) := by simp only [List.length_cons]; omega
          rw [if_neg h, if_neg h2]
      split
      · rw [ih, e]
      · simp only [tget, if_neg (fun g : a = k => hk g.symm)]; rw [ih, e]

/-- A cell read after cells are written from `a` upward: the value written inside the run, the old one outside. -/
theorem mget_mwrite [DecidableEq α] (d : α) (m : Tab α) (a : Nat) (l : List α) (k : Nat) :
    mget d (mwrite d m a l) k = if a ≤ k ∧ k < a + l.length then (l[k - a]?).getD d else mget d m k := by
  unfold mget mwrite
  rw [List.append_assoc, tget_append, tget_append]
  have m1 : k ∈ (m.filter fun e => decide (e.1 < a)).map (·.1) → k < a := by
    intro h; obtain ⟨e, he, rfl⟩ := List.mem_map.1 h; simpa using (List.mem_filter.1 he).2
  have m2 : k ∈ (mcells d a l).map (·.1) → a ≤ k ∧ k < a + l.length := by
    intro h; obtain ⟨e, he, rfl⟩ := List.mem_map.1 h; have := mem_mcells d a l e he; exact this.2
  have f1 := tget_filter d m (fun j => decide (j < a)) k
  have f2 := tget_filter d m (fun j => decide (a + l.length ≤ j)) k
  by_cases h1 : k ∈ (m.filter fun e => decide (e.1 < a)).map (·.1)
  · have := m1 h1
    rw [if_pos h1, if_neg (by omega), f1]; simp [this]
  · rw [if_neg h1]
    by_cases h2 : k ∈ (mcells d a l).map (·.1)
    · rw [if_pos h2, if_pos (m2 h2), tget_mcells, if_pos (m2 h2)]
    · rw [if_neg h2, f2]
      by_cases h3 : a ≤ k ∧ k < a + l.length
      · rw [if_pos h3]
        have : tget d (mcells d a l) k = d := tget_notin d _ k h2
        rw [tget_mcells, if_pos h3] at this
        rw [this]; simp only [decide_eq_true_eq]; rw [if_neg (by omega)]
      · rw [if_neg h3]
        by_cases h4 : a + l.length ≤ k
        · simp [h4]
        · have h5 : k < a := by omega
          have : tget d m k = d := by
            rw [show tget d m k = tget d (m.filter fun e => decide (e.1 < a)) k by rw [f1]; simp [h5]]
            exact tget_notin d _ k h1
          simp [h4, this]

theorem mread_length (d : α) (m : Tab α) (a n : Nat) : (mread d m a n).length = n := by simp [mread]

theorem mget_mcut (d : α) (m : Tab α) (a n k : Nat) : mget d (mcut m a n) k = if a ≤ k ∧ k < a + n then mget d m k else d := by
  unfold mget mcut
  have := tget_filter d m (fun j => decide (a ≤ j ∧ j < a + n)) k
  rw [this]; simp

theorem mread_get (d : α) (m : Tab α) (a n i : Nat) (h : i < n) : (mread d m a n)[i]? = some (mget d m (a + i)) := by
  unfold mread; dsimp only
  rw [List.getElem?_map, List.getElem?_range h]
  simp only [Option.map_some]
  rw [mget_mcut, if_pos (by omega)]

theorem leBytes_length (n v : Nat) : (leBytes n v).length = n := by
  induction n generalizing v with
  | zero => rfl
  | succ n ih => simp [leBytes, ih]

/-! ### The head taken -/

theorem setSlot_setQueue_fold (l : List Nat) (k0 : Core) (j : Nat) (hl : ∀ i ∈ l, i < 4 ∧ i ≠ j) (f : Core → Nat → Core)
    (hf : ∀ k i, i < 4 → i ≠ j → (f k i).slot j = k.slot j) : (l.foldl f k0).slot j = k0.slot j := by
  induction l generalizing k0 with
  | nil => rfl
  | cons x r ih =>
    rw [List.foldl_cons, ih _ (fun i hi => hl i (List.mem_cons_of_mem _ hi))]
    have := hl x List.mem_cons_self
    exact hf _ _ this.1 this.2

/-- A property of cores that a step of a fold keeps, the fold keeps. -/
theorem foldl_keeps {β : Type} (p : α → Prop) (f : α → β → α) (l : List β) (a : α) (h : p a) (hf : ∀ a, p a → ∀ b ∈ l, p (f a b)) :
    p (l.foldl f a) := by
  induction l generalizing a with
  | nil => exact h
  | cons x r ih => exact ih _ (hf a h x List.mem_cons_self) fun a ha b hb => hf a ha b (List.mem_cons_of_mem _ hb)

theorem Core.setRr_slot (k : Core) (e v j : Nat) : (k.setRr e v).slot j = k.slot j := by
  rcases e with _ | _ | _ | e <;> rcases j with _ | _ | _ | j <;> rfl

theorem Core.setRr_mem (k : Core) (e v : Nat) :
    (k.setRr e v).spad = k.spad ∧ (k.setRr e v).acc = k.acc ∧ (k.setRr e v).chan = k.chan ∧ (k.setRr e v).inbox = k.inbox ∧
    (k.setRr e v).inboxN = k.inboxN ∧ (k.setRr e v).chanSeq = k.chanSeq ∧ (k.setRr e v).restart = k.restart ∧ (k.setRr e v).step = k.step ∧
    (k.setRr e v).ctrl = k.ctrl ∧ (k.setRr e v).serial = k.serial ∧ (k.setRr e v).expect = k.expect ∧ (k.setRr e v).hurdle = k.hurdle := by
  rcases e with _ | _ | _ | e <;> simp [Core.setRr]

theorem touchCtx_rest (s : State) (x : Nat) : ∃ l, touchCtx s x = { s with srv := { s.srv with ctxs := l } } := by
  unfold touchCtx; dsimp only; split
  · exact ⟨s.srv.ctxs, rfl⟩
  · exact ⟨_, rfl⟩

/-- What a core keeps when an engine takes a head: all but the sub-queues, the hurdle passed and the slot served last. -/
structure HeadKept (a b : Core) : Prop where
  spad : b.spad = a.spad
  acc : b.acc = a.acc
  chan : b.chan = a.chan
  inbox : b.inbox = a.inbox
  inboxN : b.inboxN = a.inboxN
  chanSeq : b.chanSeq = a.chanSeq
  restart : b.restart = a.restart
  step : b.step = a.step
  ctrl : b.ctrl = a.ctrl
  serial : b.serial = a.serial
  expect : b.expect = a.expect

theorem HeadKept.refl (a : Core) : HeadKept a a := ⟨rfl, rfl, rfl, rfl, rfl, rfl, rfl, rfl, rfl, rfl, rfl⟩
theorem HeadKept.trans {a b c : Core} (h : HeadKept a b) (g : HeadKept b c) : HeadKept a c :=
  ⟨g.1.trans h.1, g.2.trans h.2, g.3.trans h.3, g.4.trans h.4, g.5.trans h.5, g.6.trans h.6, g.7.trans h.7, g.8.trans h.8, g.9.trans h.9,
    g.10.trans h.10, g.11.trans h.11⟩
theorem HeadKept.setSlot (a : Core) (k : Nat) (x : SlotSt) : HeadKept a (a.setSlot k x) := ⟨by simp, by simp, by simp, by simp, by simp, by simp,
  by simp, by simp, by simp, by simp, by simp⟩
theorem HeadKept.setRr (a : Core) (e v : Nat) : HeadKept a (a.setRr e v) := by
  have := Core.setRr_mem a e v
  exact ⟨this.1, this.2.1, this.2.2.1, this.2.2.2.1, this.2.2.2.2.1, this.2.2.2.2.2.1, this.2.2.2.2.2.2.1, this.2.2.2.2.2.2.2.1,
    this.2.2.2.2.2.2.2.2.1, this.2.2.2.2.2.2.2.2.2.1, this.2.2.2.2.2.2.2.2.2.2.1⟩
theorem HeadKept.passHurdle (a : Core) (x : SlotSt) (h : Nat) : HeadKept a (passHurdle a x h) := by
  unfold Machine.passHurdle; dsimp only; split
  · exact ⟨rfl, rfl, rfl, rfl, rfl, rfl, rfl, rfl, rfl, rfl, rfl⟩
  · exact HeadKept.refl a

/-- The queue of an engine once its head is taken: the new head waits from now. -/
def afterHead (q : List QEntry) (now : Nat) : List QEntry :=
  match q with
  | _ :: p :: r => { p with since := now } :: r
  | _ => []

/-- The state with the head taken: one core, and the context's last start. -/
theorem takeHead_spec (s : State) (c e k : Nat) (q : QEntry) (hk : k < 4) :
    ∃ K l, takeHead s c e k q = { s.setCore c K with srv := { s.srv with ctxs := l } } ∧ HeadKept (s.core c) K ∧
      K.slot k = (s.slot c k).setQueue e (afterHead ((s.slot c k).queue e) s.aon) ∧
      (q.cmd.waitEn = false → K.hurdle = (s.core c).hurdle) ∧ (∀ j, j < 4 → j ≠ k → (K.slot j).started = (s.slot c j).started ∧
        (K.slot j).state = (s.slot c j).state ∧ (K.slot j).cfg = (s.slot c j).cfg) := by
  unfold takeHead; dsimp only
  set x := (s.core c).slot k with hx
  set ready := (List.range 4).filter fun i => i != k && headReady (s.core c) i e with hr
  set k1 := if x.waits q then passHurdle (s.core c) x q.cmd.waitH else s.core c with hk1
  set k2 := ready.foldl (fun (k : Core) i => match (k.slot i).queue e with
    | p :: r => k.setSlot i ((k.slot i).setQueue e ({ p with passed := p.passed + 1 } :: r))
    | [] => k) k1 with hk2
  have slot1 : ∀ j, k1.slot j = (s.core c).slot j := by
    intro j; rw [hk1]; split
    · exact passHurdle_slot _ _ _ _
    · rfl
  have kept1 : HeadKept (s.core c) k1 := by
    rw [hk1]; split
    · exact HeadKept.passHurdle _ _ _
    · exact HeadKept.refl _
  have hmem : ∀ i ∈ ready, i < 4 ∧ i ≠ k := by
    intro i hi; rw [hr, List.mem_filter] at hi
    simp only [List.mem_range, Bool.and_eq_true, bne_iff_ne] at hi; exact ⟨hi.1, hi.2.1⟩
  have slot2 : k2.slot k = x := by
    rw [hk2, setSlot_setQueue_fold ready k1 k hmem]
    · rw [slot1]
    · intro a i hi hne; split
      · rw [Core.slot_setSlot _ _ _ _ hi hk, if_neg (fun g => hne g.symm)]
      · rfl
  have kept2 : HeadKept (s.core c) k2 := by
    rw [hk2]
    refine foldl_keeps (fun a => HeadKept (s.core c) a) _ _ _ kept1 fun a ha b _ => ?_
    split
    · exact ha.trans (HeadKept.setSlot _ _ _)
    · exact ha
  have other2 : ∀ j, j < 4 → (k2.slot j).started = (s.slot c j).started ∧ (k2.slot j).state = (s.slot c j).state ∧ (k2.slot j).cfg = (s.slot c j).cfg := by
    intro j hj; rw [hk2]
    refine foldl_keeps (fun a : Core => (a.slot j).started = (s.slot c j).started ∧ (a.slot j).state = (s.slot c j).state ∧ (a.slot j).cfg = (s.slot c j).cfg)
      _ _ _ (by rw [slot1]; exact ⟨rfl, rfl, rfl⟩) fun a ha b hb => ?_
    split
    · rw [Core.slot_setSlot _ _ _ _ (hmem b hb).1 hj]; split
      · rename_i g; subst g; exact ⟨(setQueue_keep _ _ _).2.2.2.2.2.1.trans ha.1, (setQueue_keep _ _ _).1.trans ha.2.1, (setQueue_keep _ _ _).2.2.2.2.1.trans ha.2.2⟩
      · exact ha
    · exact ha
  have hur2 : q.cmd.waitEn = false → k2.hurdle = (s.core c).hurdle := by
    intro hw; rw [hk2]
    refine foldl_keeps (fun a : Core => a.hurdle = (s.core c).hurdle) _ _ _ ?_ fun a ha b _ => ?_
    · rw [hk1, if_neg]; simp [SlotSt.waits, hw]
    · split
      · rw [Core.setSlot_hurdle]; exact ha
      · exact ha
  set K := (k2.setSlot k ((k2.slot k).setQueue e (match x.queue e with
    | _ :: p :: r => { p with since := s.aon } :: r
    | _ => []))).setRr e k with hK
  obtain ⟨l, hl⟩ := touchCtx_rest (s.setCore c K) x.ctx
  refine ⟨K, l, ?_, ?_, ?_, ?_, ?_⟩
  · exact hl
  · exact (kept2.trans (HeadKept.setSlot _ _ _)).trans (HeadKept.setRr _ _ _)
  · rw [hK, Core.setRr_slot, Core.slot_setSlot_same, slot2]; rfl
  · intro hw; rw [hK, (Core.setRr_mem _ _ _).2.2.2.2.2.2.2.2.2.2.2, Core.setSlot_hurdle]; exact hur2 hw
  · intro j hj hne
    rw [hK, Core.setRr_slot, Core.slot_setSlot _ _ _ _ hk hj, if_neg hne]; exact other2 j hj

/-- The slot an engine picks is one of the four. -/
theorem pickSlot_lt (k : Core) (e j : Nat) (h : pickSlot k e = some j) : j < 4 := by
  unfold pickSlot bestSlot at h
  have := List.mem_of_find?_eq_some h
  simp only [List.mem_map, List.mem_range] at this
  obtain ⟨i, _, rfl⟩ := this; omega

/-- A command that its engine takes runs its own effect on the state with the head taken. -/
theorem engineStart_takes (s : State) (c opc k : Nat) (q : QEntry) (f : State → Nat → QEntry → State) (h : EngineTakes s c opc k q) :
    engineStart s c opc f = f (takeHead s c (engineOf opc) k q) k q := by
  obtain ⟨h1, h2, h3, h4⟩ := h
  unfold engineStart; dsimp only
  rw [if_neg (by simp [h1]), h2]
  dsimp only
  cases hq : ((s.core c).slot k).queue (engineOf opc) with
  | nil => simp [hq] at h3
  | cons a r => simp [hq] at h3; subst h3; simp [h4]

/-- What joins the started commands. -/
theorem pushStarted_slot (s : State) (c k e : Nat) (q : QEntry) (w : Work) (hk : k < 4) :
    ∃ u, (pushStarted s c k e q w).slot c k = { s.slot c k with started := (s.slot c k).started ++ [u] } ∧ u.cmd = q.cmd ∧ u.seq = q.seq ∧
      u.engine = e ∧ u.work = w := by
  refine ⟨⟨(s.core c).serial, e, q.cmd, q.seq, if e = 0 then arraysOf q.cmd else 0,
    (if e = 0 then accRows (s.core c) ((s.core c).slot k) q.cmd else (0, 0)).1,
    (if e = 0 then accRows (s.core c) ((s.core c).slot k) q.cmd else (0, 0)).2, w, s.aon⟩, ?_, rfl, rfl, rfl, rfl⟩
  simp only [pushStarted, State.slot, State.core_setCore_same]
  rcases k with _ | _ | _ | _ | k <;> first | omega | rfl

theorem pushStarted_core (s : State) (c k e : Nat) (q : QEntry) (w : Work) (j : Nat) :
    ((pushStarted s c k e q w).core j).spad = (s.core j).spad ∧ ((pushStarted s c k e q w).core j).acc = (s.core j).acc ∧
    ((pushStarted s c k e q w).core j).hurdle = (s.core j).hurdle ∧ ((pushStarted s c k e q w).core j).chan = (s.core j).chan ∧
    ((pushStarted s c k e q w).core j).inbox = (s.core j).inbox ∧ ((pushStarted s c k e q w).core j).inboxN = (s.core j).inboxN ∧
    ((pushStarted s c k e q w).core j).chanSeq = (s.core j).chanSeq := by
  simp only [pushStarted, State.core_setCore]
  split
  · subst j; simp
  · simp

theorem pushStarted_rest (s : State) (c k e : Nat) (q : QEntry) (w : Work) :
    pushStarted s c k e q w = { s with cores := (pushStarted s c k e q w).cores } := rfl

end Sys2Proof.Machine
end

