-- ==== Sys2Proof/Laws/Fixed.lean ====
section
/-!
SUPPORT. What every named operation keeps: the fuses and the waiting commands (`State.fixed`). One lemma per function that answers a state,
in the model's order: here the memories, the mailboxes and the cores.
-/

set_option maxRecDepth 4000
set_option linter.unusedTactic false
set_option linter.unreachableTactic false
set_option linter.unusedSimpArgs false

namespace Sys2Proof.Machine

/-! ### Folds and choices -/

/-- What no command changes: the fuses and the waiting commands. -/
def State.fixed (s : State) : Package × List Instr := (s.pkg, s.pending)
@[simp ↓] theorem State.fixed_mk (a b c d p) (e f g h i j k l m n o q r t u v w x) :
    (State.mk a b c d p e f g h i j k l m n o q r t u v w x).fixed = (p, x) := Eq.trans rfl rfl
@[simp] theorem State.fixed_fold (s : State) : (s.pkg, s.pending) = s.fixed := Eq.trans rfl rfl
@[simp ↓] theorem State.fixed_ite (c : Prop) [Decidable c] (a b : State) : (if c then a else b).fixed = if c then a.fixed else b.fixed := by split <;> rfl
theorem foldl_fixed {α : Type} (g : State → α → State) (l : List α) (s : State) (h : ∀ s a, (g s a).fixed = s.fixed) : (l.foldl g s).fixed = s.fixed := by
  induction l generalizing s with
  | nil => rfl
  | cons a r ih => rw [List.foldl_cons, ih, h]
theorem foldl_fst_fixed {α β : Type} (g : State × β → α → State × β) (l : List α) (s : State × β) (h : ∀ s a, (g s a).1.fixed = s.1.fixed) :
    (l.foldl g s).1.fixed = s.1.fixed := by
  induction l generalizing s with
  | nil => rfl
  | cons a r ih => rw [List.foldl_cons, ih, h]
theorem ite_fixed {c : Prop} [Decidable c] {a b : State} {x} (h1 : c → a.fixed = x) (h2 : ¬c → b.fixed = x) : (if c then a else b).fixed = x := by
  split
  · exact h1 ‹_›
  · exact h2 ‹_›

/-! ### Ops -/

@[simp ↓] theorem State.draw_fixed : ∀ a0 a1, (State.draw a0 a1).2.fixed = a0.fixed := by
  intro a0 a1
  unfold State.draw
  simp

@[simp ↓] theorem State.drew_fixed : ∀ a0 a1, (State.drew a0 a1).fixed = a0.fixed := by
  intro a0 a1
  unfold State.drew
  simp

@[simp ↓] theorem State.emit_fixed : ∀ a0 a1, (State.emit a0 a1).fixed = a0.fixed := by
  intro a0 a1
  unfold State.emit
  simp

@[simp ↓] theorem State.send_fixed : ∀ a0 a1 a2, (State.send a0 a1 a2).fixed = a0.fixed := by
  intro a0 a1 a2
  unfold State.send
  simp

@[simp ↓] theorem State.setCore_fixed : ∀ a0 a1 a2, (State.setCore a0 a1 a2).fixed = a0.fixed := by
  intro a0 a1 a2
  unfold State.setCore
  simp

@[simp ↓] theorem State.setSlot_fixed : ∀ a0 a1 a2 a3, (State.setSlot a0 a1 a2 a3).fixed = a0.fixed := by
  intro a0 a1 a2 a3
  unfold State.setSlot
  simp

@[simp ↓] theorem State.setStarter_fixed : ∀ a0 a1 a2, (State.setStarter a0 a1 a2).fixed = a0.fixed := by
  intro a0 a1 a2
  unfold State.setStarter
  simp

@[simp ↓] theorem State.setBdie_fixed : ∀ a0 a1 a2, (State.setBdie a0 a1 a2).fixed = a0.fixed := by
  intro a0 a1 a2
  unfold State.setBdie
  simp

@[simp ↓] theorem State.setPart_fixed : ∀ a0 a1 a2, (State.setPart a0 a1 a2).fixed = a0.fixed := by
  intro a0 a1 a2
  unfold State.setPart
  simp

@[simp ↓] theorem State.setFn_fixed : ∀ a0 a1 a2, (State.setFn a0 a1 a2).fixed = a0.fixed := by
  intro a0 a1 a2
  unfold State.setFn
  simp

@[simp ↓] theorem State.setCtx_fixed : ∀ a0 a1 a2, (State.setCtx a0 a1 a2).fixed = a0.fixed := by
  intro a0 a1 a2
  unfold State.setCtx
  simp

@[simp ↓] theorem State.setReq_fixed : ∀ a0 a1 a2, (State.setReq a0 a1 a2).fixed = a0.fixed := by
  intro a0 a1 a2
  unfold State.setReq
  simp

@[simp ↓] theorem State.setSess_fixed : ∀ a0 a1 a2, (State.setSess a0 a1 a2).fixed = a0.fixed := by
  intro a0 a1 a2
  unfold State.setSess
  simp

@[simp ↓] theorem State.setHeat_fixed : ∀ a0 a1 a2, (State.setHeat a0 a1 a2).fixed = a0.fixed := by
  intro a0 a1 a2
  unfold State.setHeat
  simp

@[simp ↓] theorem State.setMap_fixed : ∀ a0 a1 a2, (State.setMap a0 a1 a2).fixed = a0.fixed := by
  intro a0 a1 a2
  unfold State.setMap
  simp

@[simp ↓] theorem State.setTenant_fixed : ∀ a0 a1 a2, (State.setTenant a0 a1 a2).fixed = a0.fixed := by
  intro a0 a1 a2
  unfold State.setTenant
  simp

@[simp ↓] theorem State.setLink_fixed : ∀ a0 a1 a2, (State.setLink a0 a1 a2).fixed = a0.fixed := by
  intro a0 a1 a2
  unfold State.setLink
  simp

@[simp ↓] theorem State.setObj_fixed : ∀ a0 a1 a2, (State.setObj a0 a1 a2).fixed = a0.fixed := by
  intro a0 a1 a2
  unfold State.setObj
  simp

@[simp ↓] theorem State.count_fixed : ∀ a0 a1 a2 a3, (State.count a0 a1 a2 a3).fixed = a0.fixed := by
  intro a0 a1 a2 a3
  unfold State.count
  simp

/-! ### Flags -/

@[simp ↓] theorem State.stick_fixed : ∀ a0 a1 a2 a3, (State.stick a0 a1 a2 a3).fixed = a0.fixed := by
  intro a0 a1 a2 a3
  unfold State.stick
  simp

/-! ### Mail -/

@[simp ↓] theorem fireVector_fixed : ∀ a0 a1 a2, (fireVector a0 a1 a2).fixed = a0.fixed := by
  intro a0 a1 a2
  unfold fireVector
  simp

@[simp ↓] theorem interrupt_fixed : ∀ a0 a1 a2, (interrupt a0 a1 a2).fixed = a0.fixed := by
  intro a0 a1 a2
  unfold interrupt
  simp

@[simp ↓] theorem writeEvent_fixed : ∀ a0 a1 a2 a3, (writeEvent a0 a1 a2 a3).fixed = a0.fixed := by
  intro a0 a1 a2 a3
  unfold writeEvent
  repeat' first | with_reducible rfl | (simp; done) | (rw [foldl_fixed]; try (intro _ _)) | split | dsimp only | simp

@[simp ↓] theorem drainBacklog_fixed : ∀ a0 a1 a2, (drainBacklog a0 a1 a2).fixed = a1.fixed := by
  intro a0 a1 a2
  induction a0 generalizing a1 a2 with
  | zero =>
    unfold drainBacklog
    simp
  | succ n ih =>
    unfold drainBacklog
    repeat' first | with_reducible rfl | (simp [ih]; done) | split | dsimp only | simp [ih]

@[simp ↓] theorem postEvent_fixed : ∀ a0 a1 a2, (postEvent a0 a1 a2).fixed = a0.fixed := by
  intro a0 a1 a2
  unfold postEvent
  repeat' first | with_reducible rfl | (simp; done) | (rw [foldl_fixed]; try (intro _ _)) | split | dsimp only | simp

@[simp ↓] theorem notify_fixed : ∀ a0 a1 a2 a3 a4, (notify a0 a1 a2 a3 a4).fixed = a0.fixed := by
  intro a0 a1 a2 a3 a4
  unfold notify
  simp

@[simp ↓] theorem respond_fixed : ∀ a0 a1 a2 a3 a4 a5, (respond a0 a1 a2 a3 a4 a5).fixed = a0.fixed := by
  intro a0 a1 a2 a3 a4 a5
  unfold respond
  simp

/-! ### FabOps -/

@[simp ↓] theorem setRole_fixed : ∀ a0 a1 a2 a3, (setRole a0 a1 a2 a3).fixed = a0.fixed := by
  intro a0 a1 a2 a3
  unfold setRole
  simp

@[simp ↓] theorem flood_fixed : ∀ a0, (flood a0).fixed = a0.fixed := by
  intro a0
  unfold flood
  simp

@[simp ↓] theorem topoChanged_fixed : ∀ a0, (topoChanged a0).fixed = a0.fixed := by
  intro a0
  unfold topoChanged
  simp

@[simp ↓] theorem sendFlit_fixed : ∀ a0 a1 a2 a3 a4 a5, (sendFlit a0 a1 a2 a3 a4 a5).fixed = a0.fixed := by
  intro a0 a1 a2 a3 a4 a5
  unfold sendFlit
  simp

@[simp ↓] theorem sendFlits_fixed : ∀ a0 a1 a2 a3 a4 a5, (sendFlits a0 a1 a2 a3 a4 a5).fixed = a0.fixed := by
  intro a0 a1 a2 a3 a4 a5
  induction a4 generalizing a0 a1 a2 a3 a5 with
  | nil =>
    unfold sendFlits
    simp
  | cons x l ih =>
    unfold sendFlits
    simp [ih]

@[simp ↓] theorem transmit_fixed : ∀ a0 a1, (transmit a0 a1).fixed = a0.fixed := by
  intro a0 a1
  unfold transmit
  split <;> simp

/-! ### Stats -/

@[simp ↓] theorem State.setCapt_fixed : ∀ a0 a1 a2, (State.setCapt a0 a1 a2).fixed = a0.fixed := by
  intro a0 a1 a2
  unfold State.setCapt
  simp

/-! ### Whistle -/

@[simp ↓] theorem holdWhistle_fixed : ∀ a0 a1 a2 a3 a4, (holdWhistle a0 a1 a2 a3 a4).fixed = a0.fixed := by
  intro a0 a1 a2 a3 a4
  unfold holdWhistle
  simp

@[simp ↓] theorem blowWhistle_fixed : ∀ a0 a1 a2, (blowWhistle a0 a1 a2).fixed = a0.fixed := by
  intro a0 a1 a2
  unfold blowWhistle
  simp

@[simp ↓] theorem afterRelease_fixed : ∀ a0, (afterRelease a0).fixed = a0.fixed := by
  intro a0
  unfold afterRelease
  simp

@[simp ↓] theorem releasePackage_fixed : ∀ a0, (releasePackage a0).fixed = a0.fixed := by
  intro a0
  unfold releasePackage
  simp

@[simp ↓] theorem releaseAppliance_fixed : ∀ a0, (releaseAppliance a0).fixed = a0.fixed := by
  intro a0
  unfold releaseAppliance
  simp

@[simp ↓] theorem dropWhistle_fixed : ∀ a0, (dropWhistle a0).fixed = a0.fixed := by
  intro a0
  unfold dropWhistle
  simp

/-! ### CoreOps -/

@[simp ↓] theorem putRecord_fixed : ∀ a0 a1 a2, (putRecord a0 a1 a2).fixed = a0.fixed := by
  intro a0 a1 a2
  unfold putRecord
  simp

@[simp ↓] theorem slotFault_fixed : ∀ a0 a1 a2 a3 a4 a5 a6, (slotFault a0 a1 a2 a3 a4 a5 a6).fixed = a0.fixed := by
  intro a0 a1 a2 a3 a4 a5 a6
  unfold slotFault
  repeat' first | with_reducible rfl | (simp; done) | split | dsimp only | simp

@[simp ↓] theorem hurdleAdd_fixed : ∀ a0 a1 a2 a3 a4, (hurdleAdd a0 a1 a2 a3 a4).fixed = a0.fixed := by
  intro a0 a1 a2 a3 a4
  unfold hurdleAdd
  repeat' first | with_reducible rfl | (simp; done) | split | dsimp only | simp

@[simp ↓] theorem touchCtx_fixed : ∀ a0 a1, (touchCtx a0 a1).fixed = a0.fixed := by
  intro a0 a1
  unfold touchCtx
  simp

@[simp ↓] theorem takeHead_fixed : ∀ a0 a1 a2 a3 a4, (takeHead a0 a1 a2 a3 a4).fixed = a0.fixed := by
  intro a0 a1 a2 a3 a4
  unfold takeHead
  simp

@[simp ↓] theorem pushStarted_fixed : ∀ a0 a1 a2 a3 a4 a5, (pushStarted a0 a1 a2 a3 a4 a5).fixed = a0.fixed := by
  intro a0 a1 a2 a3 a4 a5
  unfold pushStarted
  simp

theorem engineStart_fixed : ∀ a0 a1 a2 f, (∀ s k q, (f s k q).fixed = s.fixed) → (engineStart a0 a1 a2 f).fixed = a0.fixed := by
  intro a0 a1 a2 f h
  unfold engineStart
  repeat' first | (with_reducible rfl) | (simp [h]; done) | split | (dsimp only)

@[simp ↓] theorem stepDone_fixed : ∀ a0 a1 a2 a3, (stepDone a0 a1 a2 a3).fixed = a0.fixed := by
  intro a0 a1 a2 a3
  unfold stepDone
  simp

@[simp ↓] theorem finish_fixed : ∀ a0 a1 a2 a3 a4, (finish a0 a1 a2 a3 a4).fixed = a0.fixed := by
  intro a0 a1 a2 a3 a4
  unfold finish
  simp

@[simp ↓] theorem cmdFault_fixed : ∀ a0 a1 a2 a3 a4 a5 a6 a7, (cmdFault a0 a1 a2 a3 a4 a5 a6 a7).fixed = a0.fixed := by
  intro a0 a1 a2 a3 a4 a5 a6 a7
  unfold cmdFault
  simp

theorem pickOne_fixed {α : Type} : ∀ (a0 : State) (a1 : List α) r, pickOne a0 a1 = some r → r.2.fixed = a0.fixed := by
  intro a0 a1 r h
  unfold pickOne at h
  split at h
  · cases h
  · cases h; rfl
  · cases h; rfl

theorem pickOne_fixed' {α : Type} {a0 : State} {a1 : List α} {x s1} (h : pickOne a0 a1 = some (x, s1)) : s1.fixed = a0.fixed := pickOne_fixed a0 a1 _ h

/-! ### Near -/

@[simp ↓] theorem checkLine_fixed : ∀ a0 a1 a2 a3, (checkLine a0 a1 a2 a3).fixed = a0.fixed := by
  intro a0 a1 a2 a3
  unfold checkLine
  split <;> simp

@[simp ↓] theorem checkLines_fixed : ∀ a0 a1 a2 a3, (checkLines a0 a1 a2 a3).fixed = a0.fixed := by
  intro a0 a1 a2 a3
  unfold checkLines
  repeat' first | with_reducible rfl | (simp; done) | (rw [foldl_fixed]; try (intro _ _)) | split | dsimp only | simp

@[simp ↓] theorem nearRead_fixed : ∀ a0 a1 a2 a3 a4, (nearRead a0 a1 a2 a3 a4).1.fixed = a0.fixed := by
  intro a0 a1 a2 a3 a4
  unfold nearRead
  simp

@[simp ↓] theorem sendProbe_fixed : ∀ a0 a1 a2, (sendProbe a0 a1 a2).fixed = a0.fixed := by
  intro a0 a1 a2
  unfold sendProbe
  split <;> simp

@[simp ↓] theorem openWait_fixed : ∀ a0 a1 a2 a3, (openWait a0 a1 a2 a3).fixed = a0.fixed := by
  intro a0 a1 a2 a3
  unfold openWait
  split <;> simp

@[simp ↓] theorem recallRange_fixed : ∀ a0 a1 a2 a3, (recallRange a0 a1 a2 a3).fixed = a0.fixed := by
  intro a0 a1 a2 a3
  unfold recallRange
  repeat' first | with_reducible rfl | (simp; done) | (rw [foldl_fixed]; try (intro _ _)) | split | dsimp only | simp

@[simp ↓] theorem applyLine_fixed : ∀ a0 a1 a2 a3 a4 a5 a6, (applyLine a0 a1 a2 a3 a4 a5 a6).fixed = a0.fixed := by
  intro a0 a1 a2 a3 a4 a5 a6
  unfold applyLine
  simp

@[simp ↓] theorem writeLine_fixed : ∀ a0 a1 a2 a3 a4 a5 a6, (writeLine a0 a1 a2 a3 a4 a5 a6).1.fixed = a0.1.fixed := by
  intro a0 a1 a2 a3 a4 a5 a6
  unfold writeLine
  split <;> simp

@[simp ↓] theorem stackWrite_fixed : ∀ a0 a1 a2 a3 a4 a5 a6, (stackWrite a0 a1 a2 a3 a4 a5 a6).1.fixed = a1.1.fixed := by
  intro a0 a1 a2 a3 a4 a5 a6
  induction a0 generalizing a1 a2 a3 a4 a5 a6 with
  | zero =>
    unfold stackWrite
    simp
  | succ n ih =>
    unfold stackWrite
    split <;> simp [ih]

@[simp ↓] theorem nearWrite_fixed : ∀ a0 a1 a2 a3 a4 a5, (nearWrite a0 a1 a2 a3 a4 a5).1.fixed = a0.fixed := by
  intro a0 a1 a2 a3 a4 a5
  unfold nearWrite
  simp

@[simp ↓] theorem countNear_fixed : ∀ a0 a1 a2 a3, (countNear a0 a1 a2 a3).fixed = a0.fixed := by
  intro a0 a1 a2 a3
  unfold countNear
  simp

/-! ### Front -/

@[simp ↓] theorem brkHit_fixed : ∀ a0 a1 a2, (brkHit a0 a1 a2).fixed = a0.fixed := by
  intro a0 a1 a2
  unfold brkHit
  split <;> simp

@[simp ↓] theorem enqueue_fixed : ∀ a0 a1 a2 a3 a4, (enqueue a0 a1 a2 a3 a4).fixed = a0.fixed := by
  intro a0 a1 a2 a3 a4
  unfold enqueue
  simp

@[simp ↓] theorem dispatchSlot_fixed : ∀ a0 a1 a2, (dispatchSlot a0 a1 a2).fixed = a0.fixed := by
  intro a0 a1 a2
  unfold dispatchSlot
  repeat' first | with_reducible rfl | (simp; done) | (rw [foldl_fixed]; try (intro _ _)) | split | dsimp only | simp

theorem execFrontEndDispatch_fixed : ∀ a0 a1, ∃ t, execFrontEndDispatch a0 a1 = .next t ∧ t.fixed = a1.fixed := by
  intro a0 a1
  refine ⟨_, rfl, ?_⟩
  repeat' first | with_reducible rfl | (simp; done) | split | dsimp only | simp

@[simp ↓] theorem feTake_fixed : ∀ a0 a1 a2 a3, (feTake a0 a1 a2 a3).fixed = a0.fixed := by
  intro a0 a1 a2 a3
  unfold feTake
  simp

theorem execNop_fixed : ∀ a0 a1 a2, ∃ t, execNop a0 a1 a2 = .next t ∧ t.fixed = a2.fixed := by
  intro a0 a1 a2
  refine ⟨_, rfl, ?_⟩
  split <;> simp

theorem execHarm_fixed : ∀ a0 a1 a2, ∃ t, execHarm a0 a1 a2 = .next t ∧ t.fixed = a2.fixed := by
  intro a0 a1 a2
  refine ⟨_, rfl, ?_⟩
  split <;> simp

theorem execHsig_fixed : ∀ a0 a1 a2, ∃ t, execHsig a0 a1 a2 = .next t ∧ t.fixed = a2.fixed := by
  intro a0 a1 a2
  refine ⟨_, rfl, ?_⟩
  split <;> simp

theorem execFence_fixed : ∀ a0 a1 a2, ∃ t, execFence a0 a1 a2 = .next t ∧ t.fixed = a2.fixed := by
  intro a0 a1 a2
  refine ⟨_, rfl, ?_⟩
  split <;> simp

theorem execCommandComplete_fixed : ∀ a0 a1 a2 a3, ∃ t, execCommandComplete a0 a1 a2 a3 = .next t ∧ t.fixed = a3.fixed := by
  intro a0 a1 a2 a3
  refine ⟨_, rfl, ?_⟩
  repeat' first | with_reducible rfl | (simp; done) | split

/-! ### Slots -/

@[simp ↓] theorem slotBind_fixed : ∀ a0 a1 a2, (slotBind a0 a1 a2).fixed = a0.fixed := by
  intro a0 a1 a2
  unfold slotBind
  simp

@[simp ↓] theorem slotUnbind_fixed : ∀ a0 a1 a2, (slotUnbind a0 a1 a2).fixed = a0.fixed := by
  intro a0 a1 a2
  unfold slotUnbind
  simp

@[simp ↓] theorem slotPause_fixed : ∀ a0 a1 a2, (slotPause a0 a1 a2).fixed = a0.fixed := by
  intro a0 a1 a2
  unfold slotPause
  simp

@[simp ↓] theorem slotResume_fixed : ∀ a0 a1 a2, (slotResume a0 a1 a2).fixed = a0.fixed := by
  intro a0 a1 a2
  unfold slotResume
  simp

@[simp ↓] theorem slotStop_fixed : ∀ a0 a1 a2, (slotStop a0 a1 a2).fixed = a0.fixed := by
  intro a0 a1 a2
  unfold slotStop
  simp

@[simp ↓] theorem slotClear_fixed : ∀ a0 a1 a2, (slotClear a0 a1 a2).fixed = a0.fixed := by
  intro a0 a1 a2
  unfold slotClear
  simp

@[simp ↓] theorem setTail_fixed : ∀ a0 a1 a2 a3, (setTail a0 a1 a2 a3).fixed = a0.fixed := by
  intro a0 a1 a2 a3
  unfold setTail
  repeat' first | with_reducible rfl | (simp; done) | split | dsimp only | simp

theorem execTailWrite_fixed : ∀ a0 a1 a2 a3, ∃ t, execTailWrite a0 a1 a2 a3 = .next t ∧ t.fixed = a3.fixed := by
  intro a0 a1 a2 a3
  refine ⟨_, rfl, ?_⟩
  simp

theorem execBind_fixed : ∀ a0 a1 a2, ∃ t, execBind a0 a1 a2 = .next t ∧ t.fixed = a2.fixed := by
  intro a0 a1 a2
  refine ⟨_, rfl, ?_⟩
  simp

theorem execUnbind_fixed : ∀ a0 a1 a2, ∃ t, execUnbind a0 a1 a2 = .next t ∧ t.fixed = a2.fixed := by
  intro a0 a1 a2
  refine ⟨_, rfl, ?_⟩
  simp

theorem execPause_fixed : ∀ a0 a1 a2, ∃ t, execPause a0 a1 a2 = .next t ∧ t.fixed = a2.fixed := by
  intro a0 a1 a2
  refine ⟨_, rfl, ?_⟩
  simp

theorem execResume_fixed : ∀ a0 a1 a2, ∃ t, execResume a0 a1 a2 = .next t ∧ t.fixed = a2.fixed := by
  intro a0 a1 a2
  refine ⟨_, rfl, ?_⟩
  simp

theorem execStop_fixed : ∀ a0 a1 a2, ∃ t, execStop a0 a1 a2 = .next t ∧ t.fixed = a2.fixed := by
  intro a0 a1 a2
  refine ⟨_, rfl, ?_⟩
  simp

theorem execClear_fixed : ∀ a0 a1 a2, ∃ t, execClear a0 a1 a2 = .next t ∧ t.fixed = a2.fixed := by
  intro a0 a1 a2
  refine ⟨_, rfl, ?_⟩
  simp

@[simp ↓] theorem slotRestore_fixed : ∀ a0 a1 a2 a3 a4, (slotRestore a0 a1 a2 a3 a4).fixed = a0.fixed := by
  intro a0 a1 a2 a3 a4
  unfold slotRestore
  simp

theorem execRestore_fixed : ∀ a0 a1 a2 a3, ∃ t, execRestore a0 a1 a2 a3 = .next t ∧ t.fixed = a3.fixed := by
  intro a0 a1 a2 a3
  refine ⟨_, rfl, ?_⟩
  simp

theorem execSlotDrained_fixed : ∀ a0 a1 a2, ∃ t, execSlotDrained a0 a1 a2 = .next t ∧ t.fixed = a2.fixed := by
  intro a0 a1 a2
  refine ⟨_, rfl, ?_⟩
  repeat' first | with_reducible rfl | (simp; done) | split | dsimp only | simp

theorem execRowFire_fixed : ∀ a0 a1 a2 a3, ∃ t, execRowFire a0 a1 a2 a3 = .next t ∧ t.fixed = a3.fixed := by
  intro a0 a1 a2 a3
  refine ⟨_, rfl, ?_⟩
  repeat' first | with_reducible rfl | (simp; done) | (rw [foldl_fixed]; try (intro _ _)) | split | dsimp only | simp

theorem execCompletionRecordWrite_fixed : ∀ a0 a1, ∃ t, execCompletionRecordWrite a0 a1 = .next t ∧ t.fixed = a1.fixed := by
  intro a0 a1
  refine ⟨_, rfl, ?_⟩
  repeat' first | with_reducible rfl | (simp; done) | split | dsimp only | simp

theorem execWatchdogExpiry_fixed : ∀ a0 a1 a2 a3, ∃ t, execWatchdogExpiry a0 a1 a2 a3 = .next t ∧ t.fixed = a3.fixed := by
  intro a0 a1 a2 a3
  refine ⟨_, rfl, ?_⟩
  repeat' first | with_reducible rfl | (simp; done) | split | dsimp only | simp

theorem execInboxEnable_fixed : ∀ a0 a1 a2 a3, ∃ t, execInboxEnable a0 a1 a2 a3 = .next t ∧ t.fixed = a3.fixed := by
  intro a0 a1 a2 a3
  refine ⟨_, rfl, ?_⟩
  simp

@[simp ↓] theorem chanWrite_fixed : ∀ a0 a1 a2 a3, (chanWrite a0 a1 a2 a3).fixed = a0.fixed := by
  intro a0 a1 a2 a3
  unfold chanWrite
  simp

theorem execChanEnable_fixed : ∀ a0 a1 a2 a3, ∃ t, execChanEnable a0 a1 a2 a3 = .next t ∧ t.fixed = a3.fixed := by
  intro a0 a1 a2 a3
  refine ⟨_, rfl, ?_⟩
  simp

theorem execFaultValidClear_fixed : ∀ a0 a1 a2, ∃ t, execFaultValidClear a0 a1 a2 = .next t ∧ t.fixed = a2.fixed := by
  intro a0 a1 a2
  refine ⟨_, rfl, ?_⟩
  simp

/-! ### Matrix -/

@[simp ↓] theorem Product.count_fixed : ∀ a0 a1 a2 a3 a4, (Product.count a0 a1 a2 a3 a4).fixed = a0.fixed := by
  intro a0 a1 a2 a3 a4
  unfold Product.count
  repeat' first | with_reducible rfl | (simp; done) | (rw [foldl_fixed]; try (intro _ _)) | split | dsimp only | simp

@[simp ↓] theorem freeRows_fixed : ∀ a0 a1 a2 a3 a4, (freeRows a0 a1 a2 a3 a4).fixed = a0.fixed := by
  intro a0 a1 a2 a3 a4
  unfold freeRows
  simp

@[simp ↓] theorem tileFault_fixed : ∀ a0 a1 a2 a3, (tileFault a0 a1 a2 a3).2.fixed = a0.fixed := by
  intro a0 a1 a2 a3
  unfold tileFault
  split <;> simp

@[simp ↓] theorem mmaStart_fixed : ∀ a0 a1 a2 a3, (mmaStart a0 a1 a2 a3).fixed = a0.fixed := by
  intro a0 a1 a2 a3
  unfold mmaStart
  repeat' first | with_reducible rfl | (simp; done) | (with_reducible refine (pickOne_fixed' (by with_reducible assumption)).trans ?_) | split | dsimp only | simp

theorem execMma_fixed : ∀ a0 a1, ∃ t, execMma a0 a1 = .next t ∧ t.fixed = a1.fixed := by
  intro a0 a1
  refine ⟨_, rfl, ?_⟩
  repeat' first | with_reducible rfl | (simp; done) | (rw [engineStart_fixed]; all_goals try (intros)) | split | dsimp only | simp

@[simp ↓] theorem aclrStart_fixed : ∀ a0 a1 a2 a3, (aclrStart a0 a1 a2 a3).fixed = a0.fixed := by
  intro a0 a1 a2 a3
  unfold aclrStart
  repeat' first | with_reducible rfl | (simp; done) | split | dsimp only | simp

theorem execAclr_fixed : ∀ a0 a1, ∃ t, execAclr a0 a1 = .next t ∧ t.fixed = a1.fixed := by
  intro a0 a1
  refine ⟨_, rfl, ?_⟩
  repeat' first | with_reducible rfl | (simp; done) | (rw [engineStart_fixed]; all_goals try (intros)) | split | dsimp only | simp

@[simp ↓] theorem gmmStart_fixed : ∀ a0 a1 a2 a3, (gmmStart a0 a1 a2 a3).fixed = a0.fixed := by
  intro a0 a1 a2 a3
  unfold gmmStart
  repeat' first | with_reducible rfl | (simp; done) | split | dsimp only | simp

theorem execGmm_fixed : ∀ a0 a1, ∃ t, execGmm a0 a1 = .next t ∧ t.fixed = a1.fixed := by
  intro a0 a1
  refine ⟨_, rfl, ?_⟩
  repeat' first | with_reducible rfl | (simp; done) | (rw [engineStart_fixed]; all_goals try (intros)) | split | dsimp only | simp

@[simp ↓] theorem setGmm_fixed : ∀ a0 a1 a2 a3 a4 a5, (setGmm a0 a1 a2 a3 a4 a5).fixed = a0.fixed := by
  intro a0 a1 a2 a3 a4 a5
  unfold setGmm
  simp

@[simp ↓] theorem entryFault_fixed : ∀ a0 a1 a2 a3 a4 a5 a6, (entryFault a0 a1 a2 a3 a4 a5 a6).fixed = a0.fixed := by
  intro a0 a1 a2 a3 a4 a5 a6
  unfold entryFault
  simp

@[simp ↓] theorem entryBegin_fixed : ∀ a0 a1 a2 a3 a4 a5, (entryBegin a0 a1 a2 a3 a4 a5).fixed = a0.fixed := by
  intro a0 a1 a2 a3 a4 a5
  unfold entryBegin
  repeat' first | with_reducible rfl | (simp; done) | (with_reducible refine (pickOne_fixed' (by with_reducible assumption)).trans ?_) | split | dsimp only | simp

theorem execGmmEntry_fixed : ∀ a0 a1 a2 a3, ∃ t, execGmmEntry a0 a1 a2 a3 = .next t ∧ t.fixed = a3.fixed := by
  intro a0 a1 a2 a3
  refine ⟨_, rfl, ?_⟩
  repeat' first | with_reducible rfl | (simp; done) | (with_reducible refine (pickOne_fixed' (by with_reducible assumption)).trans ?_) | split | dsimp only | simp

@[simp ↓] theorem entryEpilogue_fixed : ∀ a0 a1 a2 a3, (entryEpilogue a0 a1 a2 a3).fixed = a0.fixed := by
  intro a0 a1 a2 a3
  unfold entryEpilogue
  simp

theorem execGmmEpilogue_fixed : ∀ a0 a1 a2 a3, ∃ t, execGmmEpilogue a0 a1 a2 a3 = .next t ∧ t.fixed = a3.fixed := by
  intro a0 a1 a2 a3
  refine ⟨_, rfl, ?_⟩
  repeat' first | with_reducible rfl | (simp; done) | split

/-! ### Vector -/

theorem vectorCheck_fixed : ∀ a0 a1 a2 a3 a4 f, (∀ s, (f s).fixed = s.fixed) → (vectorCheck a0 a1 a2 a3 a4 f).fixed = a0.fixed := by
  intro a0 a1 a2 a3 a4 f h
  unfold vectorCheck
  repeat' first | (with_reducible rfl) | (simp [h]; done) | (with_reducible refine (pickOne_fixed' (by with_reducible assumption)).trans ?_) | split | (dsimp only) | simp

@[simp ↓] theorem vectorDone_fixed : ∀ a0 a1 a2 a3 a4 a5 a6, (vectorDone a0 a1 a2 a3 a4 a5 a6).fixed = a0.fixed := by
  intro a0 a1 a2 a3 a4 a5 a6
  unfold vectorDone
  simp

@[simp ↓] theorem vopStart_fixed : ∀ a0 a1 a2 a3, (vopStart a0 a1 a2 a3).fixed = a0.fixed := by
  intro a0 a1 a2 a3
  unfold vopStart
  repeat' first | with_reducible rfl | (simp; done) | (rw [vectorCheck_fixed]; all_goals try (intros)) | split | dsimp only | simp

theorem execVop_fixed : ∀ a0 a1, ∃ t, execVop a0 a1 = .next t ∧ t.fixed = a1.fixed := by
  intro a0 a1
  refine ⟨_, rfl, ?_⟩
  repeat' first | with_reducible rfl | (simp; done) | (rw [engineStart_fixed]; all_goals try (intros)) | split | dsimp only | simp

@[simp ↓] theorem vredStart_fixed : ∀ a0 a1 a2 a3, (vredStart a0 a1 a2 a3).fixed = a0.fixed := by
  intro a0 a1 a2 a3
  unfold vredStart
  repeat' first | with_reducible rfl | (simp; done) | (rw [vectorCheck_fixed]; all_goals try (intros)) | split | dsimp only | simp

theorem execVred_fixed : ∀ a0 a1, ∃ t, execVred a0 a1 = .next t ∧ t.fixed = a1.fixed := by
  intro a0 a1
  refine ⟨_, rfl, ?_⟩
  repeat' first | with_reducible rfl | (simp; done) | (rw [engineStart_fixed]; all_goals try (intros)) | split | dsimp only | simp

@[simp ↓] theorem epiStart_fixed : ∀ a0 a1 a2 a3, (epiStart a0 a1 a2 a3).fixed = a0.fixed := by
  intro a0 a1 a2 a3
  unfold epiStart
  repeat' first | with_reducible rfl | (simp; done) | (rw [vectorCheck_fixed]; all_goals try (intros)) | split | dsimp only | simp

theorem execEpi_fixed : ∀ a0 a1, ∃ t, execEpi a0 a1 = .next t ∧ t.fixed = a1.fixed := by
  intro a0 a1
  refine ⟨_, rfl, ?_⟩
  repeat' first | with_reducible rfl | (simp; done) | (rw [engineStart_fixed]; all_goals try (intros)) | split | dsimp only | simp

@[simp ↓] theorem vcvtStart_fixed : ∀ a0 a1 a2 a3, (vcvtStart a0 a1 a2 a3).fixed = a0.fixed := by
  intro a0 a1 a2 a3
  unfold vcvtStart
  repeat' first | with_reducible rfl | (simp; done) | (rw [vectorCheck_fixed]; all_goals try (intros)) | split | dsimp only | simp

theorem execVcvt_fixed : ∀ a0 a1, ∃ t, execVcvt a0 a1 = .next t ∧ t.fixed = a1.fixed := by
  intro a0 a1
  refine ⟨_, rfl, ?_⟩
  repeat' first | with_reducible rfl | (simp; done) | (rw [engineStart_fixed]; all_goals try (intros)) | split | dsimp only | simp

@[simp ↓] theorem routeStart_fixed : ∀ a0 a1 a2 a3, (routeStart a0 a1 a2 a3).fixed = a0.fixed := by
  intro a0 a1 a2 a3
  unfold routeStart
  repeat' first | with_reducible rfl | (simp; done) | (rw [vectorCheck_fixed]; all_goals try (intros)) | split | dsimp only | simp

theorem execRoute_fixed : ∀ a0 a1, ∃ t, execRoute a0 a1 = .next t ∧ t.fixed = a1.fixed := by
  intro a0 a1
  refine ⟨_, rfl, ?_⟩
  repeat' first | with_reducible rfl | (simp; done) | (rw [engineStart_fixed]; all_goals try (intros)) | split | dsimp only | simp

@[simp ↓] theorem sampleStart_fixed : ∀ a0 a1 a2 a3, (sampleStart a0 a1 a2 a3).fixed = a0.fixed := by
  intro a0 a1 a2 a3
  unfold sampleStart
  repeat' first | with_reducible rfl | (simp; done) | (rw [vectorCheck_fixed]; all_goals try (intros)) | split | dsimp only | simp

theorem execSample_fixed : ∀ a0 a1, ∃ t, execSample a0 a1 = .next t ∧ t.fixed = a1.fixed := by
  intro a0 a1
  refine ⟨_, rfl, ?_⟩
  repeat' first | with_reducible rfl | (simp; done) | (rw [engineStart_fixed]; all_goals try (intros)) | split | dsimp only | simp

/-! ### AttnOps -/

@[simp ↓] theorem probeLines_fixed : ∀ a0 a1, (probeLines a0 a1).fixed = a0.fixed := by
  intro a0 a1
  unfold probeLines
  repeat' first | with_reducible rfl | (simp; done) | (rw [foldl_fixed]; try (intro _ _)) | split | dsimp only | simp

@[simp ↓] theorem checkRanges_fixed : ∀ a0 a1 a2 a3, (checkRanges a0 a1 a2 a3).1.fixed = a0.fixed := by
  intro a0 a1 a2 a3
  unfold checkRanges
  repeat' first | with_reducible rfl | (simp; done) | (rw [foldl_fixed]; try (intro _ _)) | split | dsimp only | simp

@[simp ↓] theorem writeAppends_fixed : ∀ a0 a1 a2 a3 a4, (writeAppends a0 a1 a2 a3 a4).fixed = a0.fixed := by
  intro a0 a1 a2 a3 a4
  unfold writeAppends
  repeat' first | with_reducible rfl | (simp; done) | (rw [foldl_fixed]; try (intro _ _)) | split | dsimp only | simp

/-! ### KvOps -/

@[simp ↓] theorem State.setMirror_fixed : ∀ a0 a1 a2, (State.setMirror a0 a1 a2).fixed = a0.fixed := by
  intro a0 a1 a2
  unfold State.setMirror
  simp

@[simp ↓] theorem fitRecords_fixed : ∀ a0 a1, (fitRecords a0 a1).fixed = a0.fixed := by
  intro a0 a1
  unfold fitRecords
  repeat' first | with_reducible rfl | (simp; done) | split | dsimp only | simp

@[simp ↓] theorem freePages_fixed : ∀ a0 a1, (freePages a0 a1).fixed = a0.fixed := by
  intro a0 a1
  unfold freePages
  simp

@[simp ↓] theorem freeMirror_fixed : ∀ a0 a1, (freeMirror a0 a1).fixed = a0.fixed := by
  intro a0 a1
  unfold freeMirror
  simp

@[simp ↓] theorem chargeReq_fixed : ∀ a0 a1 a2 a3 a4, (chargeReq a0 a1 a2 a3 a4).fixed = a0.fixed := by
  intro a0 a1 a2 a3 a4
  unfold chargeReq
  repeat' first | with_reducible rfl | (simp; done) | split | dsimp only | simp

@[simp ↓] theorem countKv_fixed : ∀ a0 a1 a2 a3 a4 a5, (countKv a0 a1 a2 a3 a4 a5).fixed = a0.fixed := by
  intro a0 a1 a2 a3 a4 a5
  unfold countKv
  split <;> simp

@[simp ↓] theorem sendMirror_fixed : ∀ a0 a1 a2 a3 a4 a5 a6, (sendMirror a0 a1 a2 a3 a4 a5 a6).fixed = a0.fixed := by
  intro a0 a1 a2 a3 a4 a5 a6
  unfold sendMirror
  repeat' first | with_reducible rfl | (simp; done) | split

@[simp ↓] theorem mirrorAppends_fixed : ∀ a0 a1 a2 a3 a4, (mirrorAppends a0 a1 a2 a3 a4).fixed = a0.fixed := by
  intro a0 a1 a2 a3 a4
  unfold mirrorAppends
  repeat' first | with_reducible rfl | (simp; done) | (rw [foldl_fixed]; try (intro _ _)) | split | dsimp only | simp

/-! ### Attn -/

@[simp ↓] theorem attnRun_fixed : ∀ a0 a1 a2 a3 a4 a5 a6 a7, (attnRun a0 a1 a2 a3 a4 a5 a6 a7).fixed = a0.fixed := by
  intro a0 a1 a2 a3 a4 a5 a6 a7
  unfold attnRun
  simp

@[simp ↓] theorem attnStart_fixed : ∀ a0 a1 a2 a3 a4 a5, (attnStart a0 a1 a2 a3 a4 a5).fixed = a0.fixed := by
  intro a0 a1 a2 a3 a4 a5
  unfold attnStart
  repeat' first | with_reducible rfl | (simp; done) | (with_reducible refine (pickOne_fixed' (by with_reducible assumption)).trans ?_) | split | dsimp only | simp

theorem execAttn_fixed : ∀ a0 a1 a2 a3, ∃ t, execAttn a0 a1 a2 a3 = .next t ∧ t.fixed = a3.fixed := by
  intro a0 a1 a2 a3
  refine ⟨_, rfl, ?_⟩
  repeat' first | with_reducible rfl | (simp; done) | (rw [engineStart_fixed]; all_goals try (intros)) | split | dsimp only | simp

end Sys2Proof.Machine
end

