-- ==== Sys2Proof/Laws/FixedNode.lean ====
section
/-!
SUPPORT. The fuses and the waiting commands are kept: the fabric, the near memories, the requests, the weights, the caches and the seals.
-/

set_option maxRecDepth 4000
set_option linter.unusedTactic false
set_option linter.unreachableTactic false
set_option linter.unusedSimpArgs false

namespace Sys2Proof.Machine

/-! ### FabTxn -/

@[simp ↓] theorem sendPacket_fixed : ∀ a0 a1 a2, (sendPacket a0 a1 a2).fixed = a0.fixed := by
  intro a0 a1 a2
  unfold sendPacket
  simp

@[simp ↓] theorem State.setTxn_fixed : ∀ a0 a1 a2, (State.setTxn a0 a1 a2).fixed = a0.fixed := by
  intro a0 a1 a2
  unfold State.setTxn
  simp

@[simp ↓] theorem finishTxn_fixed : ∀ a0 a1 a2 a3, (finishTxn a0 a1 a2 a3).fixed = a0.fixed := by
  intro a0 a1 a2 a3
  unfold finishTxn
  repeat' first | with_reducible rfl | (simp; done) | split | dsimp only | simp

@[simp ↓] theorem txnPut_fixed : ∀ a0 a1 a2 a3, (txnPut a0 a1 a2 a3).fixed = a0.fixed := by
  intro a0 a1 a2 a3
  unfold txnPut
  simp

@[simp ↓] theorem serveLines_fixed : ∀ a0 a1 a2 a3 a4 a5 a6, (serveLines a0 a1 a2 a3 a4 a5 a6).1.fixed = a1.fixed := by
  intro a0 a1 a2 a3 a4 a5 a6
  induction a0 generalizing a1 a2 a3 a4 a5 a6 with
  | zero =>
    unfold serveLines
    simp
  | succ n ih =>
    unfold serveLines
    repeat' first | with_reducible rfl | (simp [ih]; done) | split | dsimp only | simp [ih]

@[simp ↓] theorem serveLoad_fixed : ∀ a0 a1 a2 a3 a4, (serveLoad a0 a1 a2 a3 a4).1.fixed = a0.fixed := by
  intro a0 a1 a2 a3 a4
  unfold serveLoad
  split <;> simp

@[simp ↓] theorem serveStore_fixed : ∀ a0 a1 a2 a3 a4 a5, (serveStore a0 a1 a2 a3 a4 a5).1.fixed = a0.fixed := by
  intro a0 a1 a2 a3 a4 a5
  unfold serveStore
  split <;> simp

@[simp ↓] theorem serveAtomic_fixed : ∀ a0 a1 a2 a3 a4 a5 a6 a7 a8, (serveAtomic a0 a1 a2 a3 a4 a5 a6 a7 a8).1.fixed = a0.fixed := by
  intro a0 a1 a2 a3 a4 a5 a6 a7 a8
  unfold serveAtomic
  repeat' first | with_reducible rfl | (simp; done) | split | dsimp only | simp

@[simp ↓] theorem State.useLine_fixed : ∀ a0 a1 a2, (State.useLine a0 a1 a2).fixed = a0.fixed := by
  intro a0 a1 a2
  unfold State.useLine
  simp

@[simp ↓] theorem State.dropLine_fixed : ∀ a0 a1, (State.dropLine a0 a1).fixed = a0.fixed := by
  intro a0 a1
  unfold State.dropLine
  simp

@[simp ↓] theorem evictLine_fixed : ∀ a0 a1, (evictLine a0 a1).fixed = a0.fixed := by
  intro a0 a1
  unfold evictLine
  repeat' first | with_reducible rfl | (simp; done) | split | dsimp only | simp

@[simp ↓] theorem makeRoom_fixed : ∀ a0 a1, (makeRoom a0 a1).fixed = a0.fixed := by
  intro a0 a1
  unfold makeRoom
  repeat' first | with_reducible rfl | (simp; done) | split | dsimp only | simp

@[simp ↓] theorem askLine_fixed : ∀ a0 a1 a2, (askLine a0 a1 a2).fixed = a0.fixed := by
  intro a0 a1 a2
  unfold askLine
  simp

@[simp ↓] theorem advance_fixed : ∀ a0 a1 a2, (advance a0 a1 a2).fixed = a1.fixed := by
  intro a0 a1 a2
  induction a0 generalizing a1 a2 with
  | zero =>
    unfold advance
    simp
  | succ n ih =>
    unfold advance
    simp [ih]

@[simp ↓] theorem advanceAll_fixed : ∀ a0, (advanceAll a0).fixed = a0.fixed := by
  intro a0
  unfold advanceAll
  repeat' first | with_reducible rfl | (simp; done) | (rw [foldl_fixed]; try (intro _ _)) | split | dsimp only | simp

@[simp ↓] theorem dropLines_fixed : ∀ a0, (dropLines a0).fixed = a0.fixed := by
  intro a0
  unfold dropLines
  simp

/-! ### Message -/

@[simp ↓] theorem arrival_fixed : ∀ a0 a1 a2 a3 a4, (arrival a0 a1 a2 a3 a4).fixed = a0.fixed := by
  intro a0 a1 a2 a3 a4
  unfold arrival
  simp

@[simp ↓] theorem putAccept_fixed : ∀ a0 a1 a2 a3 a4 a5 a6 a7, (putAccept a0 a1 a2 a3 a4 a5 a6 a7).fixed = a0.fixed := by
  intro a0 a1 a2 a3 a4 a5 a6 a7
  unfold putAccept
  simp

@[simp ↓] theorem sendMsg_fixed : ∀ a0 a1 a2 a3, (sendMsg a0 a1 a2 a3).fixed = a0.fixed := by
  intro a0 a1 a2 a3
  unfold sendMsg
  split <;> simp

@[simp ↓] theorem sendNew_fixed : ∀ a0 a1 a2 a3, (sendNew a0 a1 a2 a3).fixed = a0.fixed := by
  intro a0 a1 a2 a3
  unfold sendNew
  split <;> simp

@[simp ↓] theorem putStart_fixed : ∀ a0 a1 a2 a3, (putStart a0 a1 a2 a3).fixed = a0.fixed := by
  intro a0 a1 a2 a3
  unfold putStart
  repeat' first | with_reducible rfl | (simp; done) | (with_reducible refine (pickOne_fixed' (by with_reducible assumption)).trans ?_) | split | dsimp only | simp

theorem execPut_fixed : ∀ a0 a1, ∃ t, execPut a0 a1 = .next t ∧ t.fixed = a1.fixed := by
  intro a0 a1
  refine ⟨_, rfl, ?_⟩
  repeat' first | with_reducible rfl | (simp; done) | (rw [engineStart_fixed]; all_goals try (intros)) | split | dsimp only | simp

@[simp ↓] theorem rsigStart_fixed : ∀ a0 a1 a2 a3, (rsigStart a0 a1 a2 a3).fixed = a0.fixed := by
  intro a0 a1 a2 a3
  unfold rsigStart
  simp

theorem execRsig_fixed : ∀ a0 a1, ∃ t, execRsig a0 a1 = .next t ∧ t.fixed = a1.fixed := by
  intro a0 a1
  refine ⟨_, rfl, ?_⟩
  repeat' first | with_reducible rfl | (simp; done) | (rw [engineStart_fixed]; all_goals try (intros)) | split | dsimp only | simp

@[simp ↓] theorem workEnds_fixed : ∀ a0 a1 a2 a3, (workEnds a0 a1 a2 a3).fixed = a0.fixed := by
  intro a0 a1 a2 a3
  unfold workEnds
  simp

@[simp ↓] theorem nearArrival_fixed : ∀ a0 a1 a2 a3, (nearArrival a0 a1 a2 a3).fixed = a0.fixed := by
  intro a0 a1 a2 a3
  unfold nearArrival
  repeat' first | with_reducible rfl | (simp; done) | split | dsimp only | simp

@[simp ↓] theorem farArrival_fixed : ∀ a0 a1, (farArrival a0 a1).fixed = a0.fixed := by
  intro a0 a1
  unfold farArrival
  simp

theorem execInboxArrival_fixed : ∀ a0 a1, ∃ t, execInboxArrival a0 a1 = .next t ∧ t.fixed = a1.fixed := by
  intro a0 a1
  refine ⟨_, rfl, ?_⟩
  split <;> simp

theorem execRsigArrival_fixed : ∀ a0 a1, ∃ t, execRsigArrival a0 a1 = .next t ∧ t.fixed = a1.fixed := by
  intro a0 a1
  refine ⟨_, rfl, ?_⟩
  repeat' first | with_reducible rfl | (simp; done) | split

theorem execPutAck_fixed : ∀ a0 a1 a2 a3 a4 a5, ∃ t, execPutAck a0 a1 a2 a3 a4 a5 = .next t ∧ t.fixed = a5.fixed := by
  intro a0 a1 a2 a3 a4 a5
  refine ⟨_, rfl, ?_⟩
  repeat' first | with_reducible rfl | (simp; done) | split | dsimp only | simp

theorem execPutResend_fixed : ∀ a0 a1 a2, ∃ t, execPutResend a0 a1 a2 = .next t ∧ t.fixed = a2.fixed := by
  intro a0 a1 a2
  refine ⟨_, rfl, ?_⟩
  repeat' first | with_reducible rfl | (simp; done) | (rw [foldl_fixed]; try (intro _ _)) | split | dsimp only | simp

@[simp ↓] theorem sendCredits_fixed : ∀ a0 a1 a2 a3, (sendCredits a0 a1 a2 a3).fixed = a0.fixed := by
  intro a0 a1 a2 a3
  unfold sendCredits
  repeat' first | with_reducible rfl | (simp; done) | (rw [foldl_fixed]; try (intro _ _)) | split | dsimp only | simp

@[simp ↓] theorem ipopStart_fixed : ∀ a0 a1 a2 a3, (ipopStart a0 a1 a2 a3).fixed = a0.fixed := by
  intro a0 a1 a2 a3
  unfold ipopStart
  simp

theorem execIpop_fixed : ∀ a0 a1, ∃ t, execIpop a0 a1 = .next t ∧ t.fixed = a1.fixed := by
  intro a0 a1
  refine ⟨_, rfl, ?_⟩
  repeat' first | with_reducible rfl | (simp; done) | (rw [engineStart_fixed]; all_goals try (intros)) | split | dsimp only | simp

@[simp ↓] theorem giveCredits_fixed : ∀ a0 a1 a2 a3, (giveCredits a0 a1 a2 a3).fixed = a0.fixed := by
  intro a0 a1 a2 a3
  unfold giveCredits
  simp

theorem execCreditReturn_fixed : ∀ a0 a1 a2, ∃ t, execCreditReturn a0 a1 a2 = .next t ∧ t.fixed = a2.fixed := by
  intro a0 a1 a2
  refine ⟨_, rfl, ?_⟩
  split <;> simp

theorem execCreditPacket_fixed : ∀ a0 a1 a2 a3, ∃ t, execCreditPacket a0 a1 a2 a3 = .next t ∧ t.fixed = a3.fixed := by
  intro a0 a1 a2 a3
  refine ⟨_, rfl, ?_⟩
  simp

@[simp ↓] theorem atomEnd_fixed : ∀ a0 a1 a2, (atomEnd a0 a1 a2).fixed = a0.fixed := by
  intro a0 a1 a2
  unfold atomEnd
  simp

@[simp ↓] theorem ownTxn_fixed : ∀ a0 a1 a2 a3 a4, (ownTxn a0 a1 a2 a3 a4).fixed = a0.fixed := by
  intro a0 a1 a2 a3 a4
  unfold ownTxn
  simp

@[simp ↓] theorem askTxn_fixed : ∀ a0 a1 a2 a3, (askTxn a0 a1 a2 a3).fixed = a0.fixed := by
  intro a0 a1 a2 a3
  unfold askTxn
  simp

@[simp ↓] theorem fabStart_fixed : ∀ a0 a1 a2 a3 a4, (fabStart a0 a1 a2 a3 a4).fixed = a0.fixed := by
  intro a0 a1 a2 a3 a4
  unfold fabStart
  repeat' first | with_reducible rfl | (simp; done) | split | dsimp only | simp

@[simp ↓] theorem fabExec_fixed : ∀ a0 a1 a2 a3, (fabExec a0 a1 a2 a3).fixed = a0.fixed := by
  intro a0 a1 a2 a3
  unfold fabExec
  repeat' first | with_reducible rfl | (simp; done) | (rw [engineStart_fixed]; all_goals try (intros)) | split | dsimp only | simp

theorem execFload_fixed : ∀ a0 a1 a2, ∃ t, execFload a0 a1 a2 = .next t ∧ t.fixed = a2.fixed := by
  intro a0 a1 a2
  refine ⟨_, rfl, ?_⟩
  simp

theorem execFstore_fixed : ∀ a0 a1 a2, ∃ t, execFstore a0 a1 a2 = .next t ∧ t.fixed = a2.fixed := by
  intro a0 a1 a2
  refine ⟨_, rfl, ?_⟩
  simp

theorem execFatom_fixed : ∀ a0 a1 a2, ∃ t, execFatom a0 a1 a2 = .next t ∧ t.fixed = a2.fixed := by
  intro a0 a1 a2
  refine ⟨_, rfl, ?_⟩
  simp

theorem execLoadPacket_fixed : ∀ a0 a1 a2, ∃ t, execLoadPacket a0 a1 a2 = .next t ∧ t.fixed = a2.fixed := by
  intro a0 a1 a2
  refine ⟨_, rfl, ?_⟩
  simp

theorem execStorePacket_fixed : ∀ a0 a1 a2, ∃ t, execStorePacket a0 a1 a2 = .next t ∧ t.fixed = a2.fixed := by
  intro a0 a1 a2
  refine ⟨_, rfl, ?_⟩
  simp

theorem execAtomicPacket_fixed : ∀ a0 a1 a2, ∃ t, execAtomicPacket a0 a1 a2 = .next t ∧ t.fixed = a2.fixed := by
  intro a0 a1 a2
  refine ⟨_, rfl, ?_⟩
  simp

theorem execLoadData_fixed : ∀ a0 a1 a2 a3 a4, ∃ t, execLoadData a0 a1 a2 a3 a4 = .next t ∧ t.fixed = a4.fixed := by
  intro a0 a1 a2 a3 a4
  refine ⟨_, rfl, ?_⟩
  simp

theorem execDonePacket_fixed : ∀ a0 a1 a2 a3, ∃ t, execDonePacket a0 a1 a2 a3 = .next t ∧ t.fixed = a3.fixed := by
  intro a0 a1 a2 a3
  refine ⟨_, rfl, ?_⟩
  simp

theorem execAtomicData_fixed : ∀ a0 a1 a2 a3, ∃ t, execAtomicData a0 a1 a2 a3 = .next t ∧ t.fixed = a3.fixed := by
  intro a0 a1 a2 a3
  refine ⟨_, rfl, ?_⟩
  simp

theorem execFabricTimeout_fixed : ∀ a0 a1, ∃ t, execFabricTimeout a0 a1 = .next t ∧ t.fixed = a1.fixed := by
  intro a0 a1
  refine ⟨_, rfl, ?_⟩
  simp

@[simp ↓] theorem failSlot_fixed : ∀ a0 a1 a2 a3, (failSlot a0 a1 a2 a3).fixed = a0.fixed := by
  intro a0 a1 a2 a3
  unfold failSlot
  repeat' first | with_reducible rfl | (simp; done) | (rw [foldl_fixed]; try (intro _ _)) | split | dsimp only | simp

@[simp ↓] theorem failNode_fixed : ∀ a0 a1, (failNode a0 a1).fixed = a0.fixed := by
  intro a0 a1
  unfold failNode
  repeat' first | with_reducible rfl | (simp; done) | (rw [foldl_fixed]; try (intro _ _)) | split | dsimp only | simp

/-! ### Coherence -/

@[simp ↓] theorem setDir_fixed : ∀ a0 a1 a2 a3, (setDir a0 a1 a2 a3).fixed = a0.fixed := by
  intro a0 a1 a2 a3
  unfold setDir
  simp

@[simp ↓] theorem grant_fixed : ∀ a0 a1 a2 a3 a4 a5, (grant a0 a1 a2 a3 a4 a5).fixed = a0.fixed := by
  intro a0 a1 a2 a3 a4 a5
  unfold grant
  split <;> simp

@[simp ↓] theorem serveReq_fixed : ∀ a0 a1 a2 a3 a4 a5, (serveReq a0 a1 a2 a3 a4 a5).fixed = a0.fixed := by
  intro a0 a1 a2 a3 a4 a5
  unfold serveReq
  repeat' first | with_reducible rfl | (simp; done) | split | dsimp only | simp

@[simp ↓] theorem lineReq_fixed : ∀ a0 a1 a2 a3 a4, (lineReq a0 a1 a2 a3 a4).fixed = a0.fixed := by
  intro a0 a1 a2 a3 a4
  unfold lineReq
  simp

theorem execRdS_fixed : ∀ a0 a1 a2, ∃ t, execRdS a0 a1 a2 = .next t ∧ t.fixed = a2.fixed := by
  intro a0 a1 a2
  refine ⟨_, rfl, ?_⟩
  simp

theorem execRdM_fixed : ∀ a0 a1 a2 a3, ∃ t, execRdM a0 a1 a2 a3 = .next t ∧ t.fixed = a3.fixed := by
  intro a0 a1 a2 a3
  refine ⟨_, rfl, ?_⟩
  simp

@[simp ↓] theorem releaseLine_fixed : ∀ a0 a1 a2, (releaseLine a0 a1 a2).fixed = a0.fixed := by
  intro a0 a1 a2
  unfold releaseLine
  simp

@[simp ↓] theorem runJobs_fixed : ∀ a0 a1 a2 a3, (runJobs a0 a1 a2 a3).fixed = a0.fixed := by
  intro a0 a1 a2 a3
  induction a3 generalizing a0 a1 a2 with
  | nil =>
    unfold runJobs
    simp
  | cons x l ih =>
    unfold runJobs
    repeat' first | with_reducible rfl | (simp [ih]; done) | (rw [foldl_fixed]; try (intro _ _)) | split | dsimp only | simp [ih]

@[simp ↓] theorem closeWait_fixed : ∀ a0 a1 a2, (closeWait a0 a1 a2).fixed = a0.fixed := by
  intro a0 a1 a2
  unfold closeWait
  repeat' first | with_reducible rfl | (simp; done) | split | dsimp only | simp

@[simp ↓] theorem lineBack_fixed : ∀ a0 a1 a2, (lineBack a0 a1 a2).fixed = a0.fixed := by
  intro a0 a1 a2
  unfold lineBack
  simp

theorem execCohAck_fixed : ∀ a0 a1 a2, ∃ t, execCohAck a0 a1 a2 = .next t ∧ t.fixed = a2.fixed := by
  intro a0 a1 a2
  refine ⟨_, rfl, ?_⟩
  split <;> simp

theorem execWb_fixed : ∀ a0 a1 a2 a3, ∃ t, execWb a0 a1 a2 a3 = .next t ∧ t.fixed = a3.fixed := by
  intro a0 a1 a2 a3
  refine ⟨_, rfl, ?_⟩
  split <;> simp

theorem execEvict_fixed : ∀ a0 a1, ∃ t, execEvict a0 a1 = .next t ∧ t.fixed = a1.fixed := by
  intro a0 a1
  refine ⟨_, rfl, ?_⟩
  split <;> simp

@[simp ↓] theorem clearDirs_fixed : ∀ a0, (clearDirs a0).fixed = a0.fixed := by
  intro a0
  unfold clearDirs
  repeat' first | with_reducible rfl | (simp; done) | (rw [foldl_fixed]; try (intro _ _)) | split | dsimp only | simp

theorem execCohData_fixed : ∀ a0 a1 a2 a3 a4, ∃ t, execCohData a0 a1 a2 a3 a4 = .next t ∧ t.fixed = a4.fixed := by
  intro a0 a1 a2 a3 a4
  refine ⟨_, rfl, ?_⟩
  simp

theorem execInv_fixed : ∀ a0 a1, ∃ t, execInv a0 a1 = .next t ∧ t.fixed = a1.fixed := by
  intro a0 a1
  refine ⟨_, rfl, ?_⟩
  simp

theorem execRecall_fixed : ∀ a0 a1, ∃ t, execRecall a0 a1 = .next t ∧ t.fixed = a1.fixed := by
  intro a0 a1
  refine ⟨_, rfl, ?_⟩
  simp

theorem execWbAck_fixed : ∀ a0 a1, ∃ t, execWbAck a0 a1 = .next t ∧ t.fixed = a1.fixed := by
  intro a0 a1
  refine ⟨_, rfl, ?_⟩
  simp

/-! ### Beside -/

@[simp ↓] theorem State.setRing_fixed : ∀ a0 a1 a2 a3, (State.setRing a0 a1 a2 a3).fixed = a0.fixed := by
  intro a0 a1 a2 a3
  unfold State.setRing
  simp

@[simp ↓] theorem ringPut_fixed : ∀ a0 a1 a2 a3, (ringPut a0 a1 a2 a3).fixed = a0.fixed := by
  intro a0 a1 a2 a3
  unfold ringPut
  simp

@[simp ↓] theorem ringFault_fixed : ∀ a0 a1 a2 a3 a4, (ringFault a0 a1 a2 a3 a4).fixed = a0.fixed := by
  intro a0 a1 a2 a3 a4
  unfold ringFault
  simp

@[simp ↓] theorem ringStart_fixed : ∀ a0 a1 a2 a3 a4 a5, (ringStart a0 a1 a2 a3 a4 a5).fixed = a0.fixed := by
  intro a0 a1 a2 a3 a4 a5
  unfold ringStart
  simp

theorem execBsdRingTailWrite_fixed : ∀ a0 a1 a2 a3 a4, ∃ t, execBsdRingTailWrite a0 a1 a2 a3 a4 = .next t ∧ t.fixed = a4.fixed := by
  intro a0 a1 a2 a3 a4
  refine ⟨_, rfl, ?_⟩
  simp

theorem execBsdRingClear_fixed : ∀ a0 a1 a2 a3, ∃ t, execBsdRingClear a0 a1 a2 a3 = .next t ∧ t.fixed = a3.fixed := by
  intro a0 a1 a2 a3
  refine ⟨_, rfl, ?_⟩
  simp

@[simp ↓] theorem bcSignal_fixed : ∀ a0 a1, (bcSignal a0 a1).fixed = a0.fixed := by
  intro a0 a1
  unfold bcSignal
  simp

theorem execBesideCommandComplete_fixed : ∀ a0 a1 a2 a3, ∃ t, execBesideCommandComplete a0 a1 a2 a3 = .next t ∧ t.fixed = a3.fixed := by
  intro a0 a1 a2 a3
  refine ⟨_, rfl, ?_⟩
  repeat' first | with_reducible rfl | (simp; done) | split | dsimp only | simp

theorem execBnop_fixed : ∀ a0 a1 a2, ∃ t, execBnop a0 a1 a2 = .next t ∧ t.fixed = a2.fixed := by
  intro a0 a1 a2
  refine ⟨_, rfl, ?_⟩
  split <;> simp

@[simp ↓] theorem bmCount_fixed : ∀ a0 a1 a2 a3, (bmCount a0 a1 a2 a3).fixed = a0.fixed := by
  intro a0 a1 a2 a3
  unfold bmCount
  simp

@[simp ↓] theorem bmRun_fixed : ∀ a0 a1 a2 a3 a4, (bmRun a0 a1 a2 a3 a4).fixed = a0.fixed := by
  intro a0 a1 a2 a3 a4
  unfold bmRun
  repeat' first | with_reducible rfl | (simp; done) | (rw [foldl_fixed]; try (intro _ _)) | (rw [foldl_fst_fixed]; try (intro _ _)) | split | dsimp only | simp

theorem execBmv_fixed : ∀ a0 a1 a2 a3, ∃ t, execBmv a0 a1 a2 a3 = .next t ∧ t.fixed = a3.fixed := by
  intro a0 a1 a2 a3
  refine ⟨_, rfl, ?_⟩
  repeat' first | with_reducible rfl | (simp; done) | (with_reducible refine (pickOne_fixed' (by with_reducible assumption)).trans ?_) | split | dsimp only | simp

@[simp ↓] theorem baRun_fixed : ∀ a0 a1 a2 a3 a4 a5, (baRun a0 a1 a2 a3 a4 a5).fixed = a0.fixed := by
  intro a0 a1 a2 a3 a4 a5
  unfold baRun
  repeat' first | with_reducible rfl | (simp; done) | (rw [foldl_fixed]; try (intro _ _)) | (rw [foldl_fst_fixed]; try (intro _ _)) | split | dsimp only | simp

theorem execBattn_fixed : ∀ a0 a1 a2 a3, ∃ t, execBattn a0 a1 a2 a3 = .next t ∧ t.fixed = a3.fixed := by
  intro a0 a1 a2 a3
  refine ⟨_, rfl, ?_⟩
  repeat' first | with_reducible rfl | (simp; done) | (with_reducible refine (pickOne_fixed' (by with_reducible assumption)).trans ?_) | split | dsimp only | simp

theorem execBsdPartMapWrite_fixed : ∀ a0 a1 a2 a3, ∃ t, execBsdPartMapWrite a0 a1 a2 a3 = .next t ∧ t.fixed = a3.fixed := by
  intro a0 a1 a2 a3
  refine ⟨_, rfl, ?_⟩
  simp

theorem execScrub_fixed : ∀ a0 a1 a2, ∃ t, execScrub a0 a1 a2 = .next t ∧ t.fixed = a2.fixed := by
  intro a0 a1 a2
  refine ⟨_, rfl, ?_⟩
  simp

/-! ### Serve -/

@[simp ↓] theorem reply_fixed : ∀ a0 a1 a2 a3 a4, (reply a0 a1 a2 a3 a4).fixed = a0.fixed := by
  intro a0 a1 a2 a3 a4
  unfold reply
  simp

theorem serve_fixed : ∀ a0 a1 a2 f, (∀ s m, (f s m).fixed = s.fixed) → (serve a0 a1 a2 f).fixed = a0.fixed := by
  intro a0 a1 a2 f h
  unfold serve
  repeat' first | (with_reducible rfl) | (simp [h]; done) | split | (dsimp only) | simp

@[simp ↓] theorem setDeferred_fixed : ∀ a0 a1 a2, (setDeferred a0 a1 a2).fixed = a0.fixed := by
  intro a0 a1 a2
  unfold setDeferred
  simp

@[simp ↓] theorem beginDeferred_fixed : ∀ a0 a1 a2 a3, (beginDeferred a0 a1 a2 a3).fixed = a0.fixed := by
  intro a0 a1 a2 a3
  unfold beginDeferred
  simp

theorem serveDeferred_fixed : ∀ a0 a1 a2 f, (∀ s m, (f s m).fixed = s.fixed) → (serveDeferred a0 a1 a2 f).fixed = a0.fixed := by
  intro a0 a1 a2 f h
  unfold serveDeferred
  rw [serve_fixed]
  intro s m
  split
  · simp
  · exact h s m

@[simp ↓] theorem endDeferred_fixed : ∀ a0 a1 a2 a3, (endDeferred a0 a1 a2 a3).fixed = a0.fixed := by
  intro a0 a1 a2 a3
  unfold endDeferred
  simp

@[simp ↓] theorem dmaOut_fixed : ∀ a0 a1 a2 a3 a4, (dmaOut a0 a1 a2 a3 a4).1.fixed = a0.fixed := by
  intro a0 a1 a2 a3 a4
  unfold dmaOut
  repeat' first | with_reducible rfl | (simp; done) | split

@[simp ↓] theorem capsChanged_fixed : ∀ a0, (capsChanged a0).fixed = a0.fixed := by
  intro a0
  unfold capsChanged
  repeat' first | with_reducible rfl | (simp; done) | (rw [foldl_fixed]; try (intro _ _)) | split | dsimp only | simp

/-! ### Tiers -/

@[simp ↓] theorem chargeQuota_fixed : ∀ a0 a1 a2 a3, (chargeQuota a0 a1 a2 a3).fixed = a0.fixed := by
  intro a0 a1 a2 a3
  unfold chargeQuota
  simp

theorem objCreate_fixed : ∀ a0 a1 a2 a3 a4 a5 r, objCreate a0 a1 a2 a3 a4 a5 = some r → r.1.fixed = a0.fixed := by
  intro a0 a1 a2 a3 a4 a5 r h
  unfold objCreate at h
  repeat' first | (cases h; done) | (cases h; rfl) | (cases h; simp; done) | split at h

theorem objCreate_fixed' {a0 a1 a2 a3 a4 a5} {s1 x1} (h : objCreate a0 a1 a2 a3 a4 a5 = some (s1, x1)) : s1.fixed = a0.fixed := objCreate_fixed a0 a1 a2 a3 a4 a5 _ h

@[simp ↓] theorem objFree_fixed : ∀ a0 a1, (objFree a0 a1).fixed = a0.fixed := by
  intro a0 a1
  unfold objFree
  simp

@[simp ↓] theorem objSeal_fixed : ∀ a0 a1, (objSeal a0 a1).fixed = a0.fixed := by
  intro a0 a1
  unfold objSeal
  simp

@[simp ↓] theorem objWrite_fixed : ∀ a0 a1 a2 a3, (objWrite a0 a1 a2 a3).fixed = a0.fixed := by
  intro a0 a1 a2 a3
  unfold objWrite
  simp

@[simp ↓] theorem recordGone_fixed : ∀ a0 a1, (recordGone a0 a1).fixed = a0.fixed := by
  intro a0 a1
  unfold recordGone
  repeat' first | with_reducible rfl | (simp; done) | (rw [foldl_fixed]; try (intro _ _)) | split | dsimp only | simp

@[simp ↓] theorem objDamage_fixed : ∀ a0 a1, (objDamage a0 a1).fixed = a0.fixed := by
  intro a0 a1
  unfold objDamage
  simp

@[simp ↓] theorem State.setBlock_fixed : ∀ a0 a1 a2, (State.setBlock a0 a1 a2).fixed = a0.fixed := by
  intro a0 a1 a2
  unfold State.setBlock
  simp

@[simp ↓] theorem farReads_fixed : ∀ a0 a1 a2 a3 a4, (farReads a0 a1 a2 a3 a4).fixed = a0.fixed := by
  intro a0 a1 a2 a3 a4
  unfold farReads
  repeat' first | with_reducible rfl | (simp; done) | (rw [foldl_fixed]; try (intro _ _)) | split | dsimp only | simp

@[simp ↓] theorem farWrites_fixed : ∀ a0 a1 a2 a3 a4, (farWrites a0 a1 a2 a3 a4).fixed = a0.fixed := by
  intro a0 a1 a2 a3 a4
  unfold farWrites
  repeat' first | with_reducible rfl | (simp; done) | (rw [foldl_fixed]; try (intro _ _)) | split | dsimp only | simp

@[simp ↓] theorem moveBlock_fixed : ∀ a0 a1 a2, (moveBlock a0 a1 a2).fixed = a0.fixed := by
  intro a0 a1 a2
  unfold moveBlock
  simp

theorem execFtlRelocate_fixed : ∀ a0 a1 a2, ∃ t, execFtlRelocate a0 a1 a2 = .next t ∧ t.fixed = a2.fixed := by
  intro a0 a1 a2
  refine ⟨_, rfl, ?_⟩
  simp

theorem execFtlRefresh_fixed : ∀ a0 a1 a2, ∃ t, execFtlRefresh a0 a1 a2 = .next t ∧ t.fixed = a2.fixed := by
  intro a0 a1 a2
  refine ⟨_, rfl, ?_⟩
  simp

@[simp ↓] theorem damageDev_fixed : ∀ a0 a1, (damageDev a0 a1).fixed = a0.fixed := by
  intro a0 a1
  unfold damageDev
  repeat' first | with_reducible rfl | (simp; done) | (rw [foldl_fixed]; try (intro _ _)) | split | dsimp only | simp

theorem execFarPortEnumerate_fixed : ∀ a0 a1, ∃ t, execFarPortEnumerate a0 a1 = .next t ∧ t.fixed = a1.fixed := by
  intro a0 a1
  refine ⟨_, rfl, ?_⟩
  repeat' first | with_reducible rfl | (simp; done) | (rw [foldl_fixed]; try (intro _ _)) | split | dsimp only | simp

theorem execCxlDeviceLoss_fixed : ∀ a0 a1, ∃ t, execCxlDeviceLoss a0 a1 = .next t ∧ t.fixed = a1.fixed := by
  intro a0 a1
  refine ⟨_, rfl, ?_⟩
  split <;> simp

theorem execObjectTtlExpiry_fixed : ∀ a0 a1, ∃ t, execObjectTtlExpiry a0 a1 = .next t ∧ t.fixed = a1.fixed := by
  intro a0 a1
  refine ⟨_, rfl, ?_⟩
  simp

theorem execObjectReadEnd_fixed : ∀ a0 a1, ∃ t, execObjectReadEnd a0 a1 = .next t ∧ t.fixed = a1.fixed := by
  intro a0 a1
  refine ⟨_, rfl, ?_⟩
  simp

@[simp ↓] theorem bodyTirCreate_fixed : ∀ a0 a1, (bodyTirCreate a0 a1).fixed = a0.fixed := by
  intro a0 a1
  unfold bodyTirCreate
  repeat' first | with_reducible rfl | (simp; done) | (with_reducible refine (objCreate_fixed' (by with_reducible assumption)).trans ?_) | split | dsimp only | simp

@[simp ↓] theorem bodyTirWrite_fixed : ∀ a0 a1, (bodyTirWrite a0 a1).fixed = a0.fixed := by
  intro a0 a1
  unfold bodyTirWrite
  split <;> simp

@[simp ↓] theorem doneTirWrite_fixed : ∀ a0 a1 a2, (doneTirWrite a0 a1 a2).fixed = a0.fixed := by
  intro a0 a1 a2
  unfold doneTirWrite
  split <;> simp

@[simp ↓] theorem bodyTirRead_fixed : ∀ a0 a1, (bodyTirRead a0 a1).fixed = a0.fixed := by
  intro a0 a1
  unfold bodyTirRead
  split <;> simp

@[simp ↓] theorem doneTirRead_fixed : ∀ a0 a1 a2 a3, (doneTirRead a0 a1 a2 a3).fixed = a0.fixed := by
  intro a0 a1 a2 a3
  unfold doneTirRead
  simp

@[simp ↓] theorem bodyTirSeal_fixed : ∀ a0 a1, (bodyTirSeal a0 a1).fixed = a0.fixed := by
  intro a0 a1
  unfold bodyTirSeal
  repeat' first | with_reducible rfl | (simp; done) | split | dsimp only | simp

@[simp ↓] theorem bodyTirDelete_fixed : ∀ a0 a1, (bodyTirDelete a0 a1).fixed = a0.fixed := by
  intro a0 a1
  unfold bodyTirDelete
  simp

@[simp ↓] theorem bodyTirStatus_fixed : ∀ a0 a1, (bodyTirStatus a0 a1).fixed = a0.fixed := by
  intro a0 a1
  unfold bodyTirStatus
  simp

@[simp ↓] theorem bodyMemRead_fixed : ∀ a0 a1, (bodyMemRead a0 a1).fixed = a0.fixed := by
  intro a0 a1
  unfold bodyMemRead
  split <;> simp

@[simp ↓] theorem doneMemRead_fixed : ∀ a0 a1 a2 a3, (doneMemRead a0 a1 a2 a3).fixed = a0.fixed := by
  intro a0 a1 a2 a3
  unfold doneMemRead
  split <;> simp

@[simp ↓] theorem bodyMemWrite_fixed : ∀ a0 a1, (bodyMemWrite a0 a1).fixed = a0.fixed := by
  intro a0 a1
  unfold bodyMemWrite
  split <;> simp

@[simp ↓] theorem doneMemWrite_fixed : ∀ a0 a1 a2, (doneMemWrite a0 a1 a2).fixed = a0.fixed := by
  intro a0 a1 a2
  unfold doneMemWrite
  split <;> simp

/-! ### GenOps -/

@[simp ↓] theorem modGen_fixed : ∀ a0 a1 a2 a3, (modGen a0 a1 a2 a3).fixed = a0.fixed := by
  intro a0 a1 a2 a3
  unfold modGen
  simp

@[simp ↓] theorem forceWrite_fixed : ∀ a0 a1 a2 a3, (forceWrite a0 a1 a2 a3).fixed = a0.fixed := by
  intro a0 a1 a2 a3
  unfold forceWrite
  simp

@[simp ↓] theorem genWrite_fixed : ∀ a0 a1 a2 a3 a4 a5, (genWrite a0 a1 a2 a3 a4 a5).fixed = a0.fixed := by
  intro a0 a1 a2 a3 a4 a5
  unfold genWrite
  simp

theorem makeObjects_fixed : ∀ a0 a1 a2 a3 a4 r, makeObjects a0 a1 a2 a3 a4 = some r → r.1.fixed = a0.fixed := by
  intro a0 a1 a2 a3 a4 r h
  induction a3 generalizing a0 a4 with
  | nil => unfold makeObjects at h; cases h; rfl
  | cons x l ih =>
    unfold makeObjects at h
    split at h
    · cases h
    · rename_i y hy
      rw [ih _ _ h, objCreate_fixed _ _ _ _ _ _ _ hy]

theorem makeObjects_fixed' {a0 a1 a2 a3 a4 s1 x} (h : makeObjects a0 a1 a2 a3 a4 = some (s1, x)) : s1.fixed = a0.fixed := makeObjects_fixed _ _ _ _ _ _ h

@[simp ↓] theorem freeObjects_fixed : ∀ a0 a1, (freeObjects a0 a1).fixed = a0.fixed := by
  intro a0 a1
  unfold freeObjects
  repeat' first | with_reducible rfl | (simp; done) | (rw [foldl_fixed]; try (intro _ _)) | split | dsimp only | simp

@[simp ↓] theorem protectUnits_fixed : ∀ a0 a1 a2 a3 a4, (protectUnits a0 a1 a2 a3 a4).fixed = a0.fixed := by
  intro a0 a1 a2 a3 a4
  unfold protectUnits
  repeat' first | with_reducible rfl | (simp; done) | split | dsimp only | simp

@[simp ↓] theorem unprotectUnits_fixed : ∀ a0 a1 a2 a3 a4, (unprotectUnits a0 a1 a2 a3 a4).fixed = a0.fixed := by
  intro a0 a1 a2 a3 a4
  unfold unprotectUnits
  simp

@[simp ↓] theorem protectGen_fixed : ∀ a0 a1 a2, (protectGen a0 a1 a2).fixed = a0.fixed := by
  intro a0 a1 a2
  unfold protectGen
  repeat' first | with_reducible rfl | (simp; done) | (rw [foldl_fixed]; try (intro _ _)) | split | dsimp only | simp

@[simp ↓] theorem unprotectGen_fixed : ∀ a0 a1 a2, (unprotectGen a0 a1 a2).fixed = a0.fixed := by
  intro a0 a1 a2
  unfold unprotectGen
  repeat' first | with_reducible rfl | (simp; done) | (rw [foldl_fixed]; try (intro _ _)) | split | dsimp only | simp

@[simp ↓] theorem freeGen_fixed : ∀ a0 a1 a2, (freeGen a0 a1 a2).fixed = a0.fixed := by
  intro a0 a1 a2
  unfold freeGen
  simp

@[simp ↓] theorem bindGen_fixed : ∀ a0 a1 a2 a3, (bindGen a0 a1 a2 a3).fixed = a0.fixed := by
  intro a0 a1 a2 a3
  unfold bindGen
  simp

@[simp ↓] theorem unbindGen_fixed : ∀ a0 a1 a2 a3, (unbindGen a0 a1 a2 a3).fixed = a0.fixed := by
  intro a0 a1 a2 a3
  unfold unbindGen
  split <;> simp

@[simp ↓] theorem setAslot_fixed : ∀ a0 a1 a2 a3, (setAslot a0 a1 a2 a3).fixed = a0.fixed := by
  intro a0 a1 a2 a3
  unfold setAslot
  simp

@[simp ↓] theorem retireSlot_fixed : ∀ a0 a1 a2, (retireSlot a0 a1 a2).fixed = a0.fixed := by
  intro a0 a1 a2
  unfold retireSlot
  simp

@[simp ↓] theorem bindSlot_fixed : ∀ a0 a1 a2, (bindSlot a0 a1 a2).fixed = a0.fixed := by
  intro a0 a1 a2
  unfold bindSlot
  simp

@[simp ↓] theorem unbindSlot_fixed : ∀ a0 a1 a2, (unbindSlot a0 a1 a2).fixed = a0.fixed := by
  intro a0 a1 a2
  unfold unbindSlot
  simp

/-! ### Reqs -/

@[simp ↓] theorem postTokens_fixed : ∀ a0 a1 a2, (postTokens a0 a1 a2).fixed = a0.fixed := by
  intro a0 a1 a2
  unfold postTokens
  simp

@[simp ↓] theorem copyLedger_fixed : ∀ a0 a1, (copyLedger a0 a1).fixed = a0.fixed := by
  intro a0 a1
  unfold copyLedger
  repeat' first | with_reducible rfl | (simp; done) | split

@[simp ↓] theorem putTenant_fixed : ∀ a0 a1 a2, (putTenant a0 a1 a2).fixed = a0.fixed := by
  intro a0 a1 a2
  unfold putTenant
  split <;> simp

@[simp ↓] theorem putSess_fixed : ∀ a0 a1 a2, (putSess a0 a1 a2).fixed = a0.fixed := by
  intro a0 a1 a2
  unfold putSess
  split <;> simp

@[simp ↓] theorem postDone_fixed : ∀ a0 a1, (postDone a0 a1).fixed = a0.fixed := by
  intro a0 a1
  unfold postDone
  simp

@[simp ↓] theorem postWaiting_fixed : ∀ a0 a1 a2, (postWaiting a0 a1 a2).fixed = a0.fixed := by
  intro a0 a1 a2
  unfold postWaiting
  simp

@[simp ↓] theorem freeRecord_fixed : ∀ a0 a1, (freeRecord a0 a1).fixed = a0.fixed := by
  intro a0 a1
  unfold freeRecord
  repeat' first | with_reducible rfl | (simp; done) | split | dsimp only | simp

@[simp ↓] theorem freeSession_fixed : ∀ a0 a1, (freeSession a0 a1).fixed = a0.fixed := by
  intro a0 a1
  unfold freeSession
  simp

@[simp ↓] theorem closeSession_fixed : ∀ a0 a1, (closeSession a0 a1).fixed = a0.fixed := by
  intro a0 a1
  unfold closeSession
  repeat' first | with_reducible rfl | (simp; done) | (rw [foldl_fixed]; try (intro _ _)) | split | dsimp only | simp

@[simp ↓] theorem markDropped_fixed : ∀ a0 a1, (markDropped a0 a1).fixed = a0.fixed := by
  intro a0 a1
  unfold markDropped
  repeat' first | with_reducible rfl | (simp; done) | (rw [foldl_fixed]; try (intro _ _)) | split | dsimp only | simp

@[simp ↓] theorem dropSession_fixed : ∀ a0 a1, (dropSession a0 a1).fixed = a0.fixed := by
  intro a0 a1
  unfold dropSession
  simp

@[simp ↓] theorem releaseSession_fixed : ∀ a0 a1, (releaseSession a0 a1).fixed = a0.fixed := by
  intro a0 a1
  unfold releaseSession
  simp

@[simp ↓] theorem noteLap_fixed : ∀ a0 a1 a2, (noteLap a0 a1 a2).fixed = a0.fixed := by
  intro a0 a1 a2
  unfold noteLap
  simp

@[simp ↓] theorem noteHeatLap_fixed : ∀ a0 a1 a2, (noteHeatLap a0 a1 a2).fixed = a0.fixed := by
  intro a0 a1 a2
  unfold noteHeatLap
  split <;> simp

@[simp ↓] theorem retireHeat_fixed : ∀ a0 a1, (retireHeat a0 a1).fixed = a0.fixed := by
  intro a0 a1
  unfold retireHeat
  simp

@[simp ↓] theorem modAcct_fixed : ∀ a0 a1 a2 a3, (modAcct a0 a1 a2 a3).fixed = a0.fixed := by
  intro a0 a1 a2 a3
  unfold modAcct
  simp

@[simp ↓] theorem billLap_fixed : ∀ a0 a1 a2 a3 a4 a5, (billLap a0 a1 a2 a3 a4 a5).fixed = a0.fixed := by
  intro a0 a1 a2 a3 a4 a5
  unfold billLap
  simp

@[simp ↓] theorem commitMap_fixed : ∀ a0 a1 a2, (commitMap a0 a1 a2).fixed = a0.fixed := by
  intro a0 a1 a2
  unfold commitMap
  simp

@[simp ↓] theorem takeOutcome_fixed : ∀ a0 a1 a2 a3 a4, (takeOutcome a0 a1 a2 a3 a4).fixed = a0.fixed := by
  intro a0 a1 a2 a3 a4
  unfold takeOutcome
  simp

@[simp ↓] theorem reportLap_fixed : ∀ a0 a1, (reportLap a0 a1).fixed = a0.fixed := by
  intro a0 a1
  unfold reportLap
  extract_lets h homes roles s1 s2 s3 s4
  have h1 : s1.fixed = a0.fixed := by
    refine foldl_fixed _ _ _ fun s b => ?_
    exact foldl_fixed _ _ _ fun s b => State.send_fixed _ _ _
  have h2 : s2.fixed = a0.fixed := by
    simp only [s2]; split <;> simp [h1]
  have h3 : s3.fixed = a0.fixed := by
    simp only [s3]; split
    · rw [foldl_fixed _ _ _ fun s b => State.send_fixed _ _ _, h2]
    · exact h2
  split
  · rfl
  · rw [foldl_fixed]
    · rw [State.setHeat_fixed, h3]
    · intro s r
      split
      · split <;> simp
      · rfl

@[simp ↓] theorem unpinHeat_fixed : ∀ a0 a1, (unpinHeat a0 a1).fixed = a0.fixed := by
  intro a0 a1
  unfold unpinHeat
  simp

@[simp ↓] theorem slotDone_fixed : ∀ a0 a1 a2, (slotDone a0 a1 a2).fixed = a0.fixed := by
  intro a0 a1 a2
  unfold slotDone
  simp

@[simp ↓] theorem unbindReq_fixed : ∀ a0 a1, (unbindReq a0 a1).fixed = a0.fixed := by
  intro a0 a1
  unfold unbindReq
  simp

@[simp ↓] theorem leaveQueue_fixed : ∀ a0 a1 a2, (leaveQueue a0 a1 a2).fixed = a0.fixed := by
  intro a0 a1 a2
  unfold leaveQueue
  simp

@[simp ↓] theorem leaveCohort_fixed : ∀ a0 a1 a2, (leaveCohort a0 a1 a2).fixed = a0.fixed := by
  intro a0 a1 a2
  unfold leaveCohort
  simp

@[simp ↓] theorem endOne_fixed : ∀ a0 a1 a2, (endOne a0 a1 a2).fixed = a0.fixed := by
  intro a0 a1 a2
  unfold endOne
  simp

@[simp ↓] theorem endHeat_fixed : ∀ a0 a1, (endHeat a0 a1).fixed = a0.fixed := by
  intro a0 a1
  unfold endHeat
  repeat' first | with_reducible rfl | (simp; done) | (rw [foldl_fixed]; try (intro _ _)) | split | dsimp only | simp

@[simp ↓] theorem stopHeat_fixed : ∀ a0 a1, (stopHeat a0 a1).fixed = a0.fixed := by
  intro a0 a1
  unfold stopHeat
  repeat' first | with_reducible rfl | (simp; done) | (rw [foldl_fixed]; try (intro _ _)) | split | dsimp only | simp

@[simp ↓] theorem applyCancel_fixed : ∀ a0 a1 a2, (applyCancel a0 a1 a2).fixed = a0.fixed := by
  intro a0 a1 a2
  unfold applyCancel
  simp

@[simp ↓] theorem cancelHeat_fixed : ∀ a0 a1, (cancelHeat a0 a1).fixed = a0.fixed := by
  intro a0 a1
  unfold cancelHeat
  simp

@[simp ↓] theorem heatCheck_fixed : ∀ a0 a1, (heatCheck a0 a1).fixed = a0.fixed := by
  intro a0 a1
  unfold heatCheck
  simp

@[simp ↓] theorem endReq_fixed : ∀ a0 a1 a2, (endReq a0 a1 a2).fixed = a0.fixed := by
  intro a0 a1 a2
  unfold endReq
  simp

@[simp ↓] theorem endAll_fixed : ∀ a0 a1 a2, (endAll a0 a1 a2).fixed = a0.fixed := by
  intro a0 a1 a2
  unfold endAll
  repeat' first | with_reducible rfl | (simp; done) | (rw [foldl_fixed]; try (intro _ _)) | split | dsimp only | simp

@[simp ↓] theorem settle_fixed : ∀ a0, (settle a0).fixed = a0.fixed := by
  intro a0
  unfold settle
  repeat' first | with_reducible rfl | (simp; done) | (rw [foldl_fixed]; try (intro _ _)) | split | dsimp only | simp

/-! ### Weights -/

@[simp ↓] theorem loadBytes_fixed : ∀ a0 a1 a2 a3 a4 a5, (loadBytes a0 a1 a2 a3 a4 a5).fixed = a0.fixed := by
  intro a0 a1 a2 a3 a4 a5
  unfold loadBytes
  simp

@[simp ↓] theorem sendChunk_fixed : ∀ a0 a1 a2 a3 a4 a5, (sendChunk a0 a1 a2 a3 a4 a5).fixed = a0.fixed := by
  intro a0 a1 a2 a3 a4 a5
  unfold sendChunk
  repeat' first | with_reducible rfl | (simp; done) | (rw [foldl_fixed]; try (intro _ _)) | split | dsimp only | simp

@[simp ↓] theorem relayOn_fixed : ∀ a0 a1 a2 a3 a4, (relayOn a0 a1 a2 a3 a4).fixed = a0.fixed := by
  intro a0 a1 a2 a3 a4
  unfold relayOn
  split <;> simp

@[simp ↓] theorem relayRange_fixed : ∀ a0 a1 a2 a3 a4 a5, (relayRange a0 a1 a2 a3 a4 a5).fixed = a0.fixed := by
  intro a0 a1 a2 a3 a4 a5
  unfold relayRange
  repeat' first | with_reducible rfl | (simp; done) | (rw [foldl_fixed]; try (intro _ _)) | split | dsimp only | simp

@[simp ↓] theorem dropBytes_fixed : ∀ a0 a1 a2, (dropBytes a0 a1 a2).fixed = a0.fixed := by
  intro a0 a1 a2
  unfold dropBytes
  simp

theorem execLoadWindowWrite_fixed : ∀ a0 a1 a2 a3 a4, ∃ t, execLoadWindowWrite a0 a1 a2 a3 a4 = .next t ∧ t.fixed = a4.fixed := by
  intro a0 a1 a2 a3 a4
  refine ⟨_, rfl, ?_⟩
  repeat' first | with_reducible rfl | (simp; done) | split | dsimp only | simp

@[simp ↓] theorem adapterDone_fixed : ∀ a0 a1 a2 a3 a4, (adapterDone a0 a1 a2 a3 a4).fixed = a0.fixed := by
  intro a0 a1 a2 a3 a4
  unfold adapterDone
  simp

@[simp ↓] theorem adapterReady_fixed : ∀ a0 a1 a2 a3, (adapterReady a0 a1 a2 a3).fixed = a0.fixed := by
  intro a0 a1 a2 a3
  unfold adapterReady
  split <;> simp

theorem execChunkHashed_fixed : ∀ a0 a1 a2 a3 a4, ∃ t, execChunkHashed a0 a1 a2 a3 a4 = .next t ∧ t.fixed = a4.fixed := by
  intro a0 a1 a2 a3 a4
  refine ⟨_, rfl, ?_⟩
  repeat' first | with_reducible rfl | (simp; done) | split

theorem execRelayChunk_fixed : ∀ a0 a1 a2 a3 a4 a5 a6, ∃ t, execRelayChunk a0 a1 a2 a3 a4 a5 a6 = .next t ∧ t.fixed = a6.fixed := by
  intro a0 a1 a2 a3 a4 a5 a6
  refine ⟨_, rfl, ?_⟩
  split <;> simp

theorem execRelayChunkAck_fixed : ∀ a0 a1 a2 a3 a4 a5, ∃ t, execRelayChunkAck a0 a1 a2 a3 a4 a5 = .next t ∧ t.fixed = a5.fixed := by
  intro a0 a1 a2 a3 a4 a5
  refine ⟨_, rfl, ?_⟩
  repeat' first | with_reducible rfl | (simp; done) | split | dsimp only | simp

@[simp ↓] theorem decide__fixed : ∀ a0 a1 a2 a3, (decide_ a0 a1 a2 a3).fixed = a0.fixed := by
  intro a0 a1 a2 a3
  unfold decide_
  simp

@[simp ↓] theorem sendJob_fixed : ∀ a0 a1 a2, (sendJob a0 a1 a2).fixed = a0.fixed := by
  intro a0 a1 a2
  unfold sendJob
  repeat' first | with_reducible rfl | (simp; done) | (rw [foldl_fixed]; try (intro _ _)) | split | dsimp only | simp

theorem execGenPrepare_fixed : ∀ a0 a1 a2 a3 a4, ∃ t, execGenPrepare a0 a1 a2 a3 a4 = .next t ∧ t.fixed = a4.fixed := by
  intro a0 a1 a2 a3 a4
  refine ⟨_, rfl, ?_⟩
  simp

theorem execGenVote_fixed : ∀ a0 a1 a2 a3 a4 a5, ∃ t, execGenVote a0 a1 a2 a3 a4 a5 = .next t ∧ t.fixed = a5.fixed := by
  intro a0 a1 a2 a3 a4 a5
  refine ⟨_, rfl, ?_⟩
  repeat' first | with_reducible rfl | (simp; done) | split | dsimp only | simp

theorem execActivateVoteTimeout_fixed : ∀ a0 a1 a2, ∃ t, execActivateVoteTimeout a0 a1 a2 = .next t ∧ t.fixed = a2.fixed := by
  intro a0 a1 a2
  refine ⟨_, rfl, ?_⟩
  repeat' first | with_reducible rfl | (simp; done) | split | dsimp only | simp

theorem execGenCommit_fixed : ∀ a0 a1 a2 a3, ∃ t, execGenCommit a0 a1 a2 a3 = .next t ∧ t.fixed = a3.fixed := by
  intro a0 a1 a2 a3
  refine ⟨_, rfl, ?_⟩
  repeat' first | with_reducible rfl | (simp; done) | split | dsimp only | simp

@[simp ↓] theorem cutPrepare_fixed : ∀ a0 a1 a2 a3 a4 a5, (cutPrepare a0 a1 a2 a3 a4 a5).fixed = a5.fixed := by
  intro a0 a1 a2 a3 a4 a5
  unfold cutPrepare
  simp

@[simp ↓] theorem abortCut_fixed : ∀ a0 a1 a2, (abortCut a0 a1 a2).fixed = a0.fixed := by
  intro a0 a1 a2
  unfold abortCut
  simp

@[simp ↓] theorem cutVote_fixed : ∀ a0 a1 a2 a3 a4 a5, (cutVote a0 a1 a2 a3 a4 a5).fixed = a5.fixed := by
  intro a0 a1 a2 a3 a4 a5
  unfold cutVote
  repeat' first | with_reducible rfl | (simp; done) | split | dsimp only | simp

@[simp ↓] theorem cutVoteTimeout_fixed : ∀ a0 a1 a2, (cutVoteTimeout a0 a1 a2).fixed = a2.fixed := by
  intro a0 a1 a2
  unfold cutVoteTimeout
  split <;> simp

@[simp ↓] theorem cutCommit_fixed : ∀ a0 a1 a2 a3, (cutCommit a0 a1 a2 a3).fixed = a3.fixed := by
  intro a0 a1 a2 a3
  unfold cutCommit
  repeat' first | with_reducible rfl | (simp; done) | split | dsimp only | simp

@[simp ↓] theorem cutAbort_fixed : ∀ a0 a1 a2, (cutAbort a0 a1 a2).fixed = a2.fixed := by
  intro a0 a1 a2
  unfold cutAbort
  split <;> simp

@[simp ↓] theorem cutTimeout_fixed : ∀ a0 a1 a2, (cutTimeout a0 a1 a2).fixed = a2.fixed := by
  intro a0 a1 a2
  unfold cutTimeout
  split <;> simp

@[simp ↓] theorem copyImage_fixed : ∀ a0 a1 a2 a3 a4, (copyImage a0 a1 a2 a3 a4).fixed = a0.fixed := by
  intro a0 a1 a2 a3 a4
  unfold copyImage
  simp

theorem execCutoverCopy_fixed : ∀ a0 a1 a2 a3, ∃ t, execCutoverCopy a0 a1 a2 a3 = .next t ∧ t.fixed = a3.fixed := by
  intro a0 a1 a2 a3
  refine ⟨_, rfl, ?_⟩
  repeat' first | with_reducible rfl | (simp; done) | (rw [foldl_fixed]; try (intro _ _)) | split | dsimp only | simp

theorem execCutoverCopyDone_fixed : ∀ a0 a1 a2, ∃ t, execCutoverCopyDone a0 a1 a2 = .next t ∧ t.fixed = a2.fixed := by
  intro a0 a1 a2
  refine ⟨_, rfl, ?_⟩
  repeat' first | with_reducible rfl | (simp; done) | split | dsimp only | simp

theorem execCacheFetchStart_fixed : ∀ a0 a1 a2, ∃ t, execCacheFetchStart a0 a1 a2 = .next t ∧ t.fixed = a2.fixed := by
  intro a0 a1 a2
  refine ⟨_, rfl, ?_⟩
  repeat' first | with_reducible rfl | (simp; done) | split | dsimp only | simp

@[simp ↓] theorem orderEnd_fixed : ∀ a0 a1 a2 a3 a4, (orderEnd a0 a1 a2 a3 a4).fixed = a0.fixed := by
  intro a0 a1 a2 a3 a4
  unfold orderEnd
  split <;> simp

theorem execCacheFetchComplete_fixed : ∀ a0 a1 a2 a3 a4, ∃ t, execCacheFetchComplete a0 a1 a2 a3 a4 = .next t ∧ t.fixed = a4.fixed := by
  intro a0 a1 a2 a3 a4
  refine ⟨_, rfl, ?_⟩
  rw [settle_fixed]
  refine ite_fixed (fun _ => rfl) fun _ => ite_fixed (fun _ => ?_) fun _ => ?_
  · rw [State.setPart_fixed]
    split <;> simp
  · have h2 : ∀ (o : Option (Nat × Nat)) (s1 : State), s1.fixed = a4.fixed →
        (match o with | some o => if (a4.obj o.1).tier = 2 then objDamage s1 o.1 else s1 | none => s1).fixed = a4.fixed := by
      intro o s1 h
      split
      · split <;> simp [h]
      · exact h
    refine ite_fixed (fun _ => h2 _ _ (State.setPart_fixed _ _ _)) fun _ => ?_
    refine (foldl_fixed _ _ _ fun s h => foldl_fixed _ _ _ fun s r => orderEnd_fixed _ _ _ _ _).trans ?_
    exact h2 _ _ (State.setPart_fixed _ _ _)

theorem execRingPageFetch_fixed : ∀ a0 a1, ∃ t, execRingPageFetch a0 a1 = .next t ∧ t.fixed = a1.fixed := by
  intro a0 a1
  refine ⟨_, rfl, ?_⟩
  simp

theorem execRingPageFetchDone_fixed : ∀ a0 a1 a2 a3, ∃ t, execRingPageFetchDone a0 a1 a2 a3 = .next t ∧ t.fixed = a3.fixed := by
  intro a0 a1 a2 a3
  refine ⟨_, rfl, ?_⟩
  repeat' first | with_reducible rfl | (simp; done) | split | dsimp only | simp

theorem execPoisonRewrite_fixed : ∀ a0 a1 a2 a3, ∃ t, execPoisonRewrite a0 a1 a2 a3 = .next t ∧ t.fixed = a3.fixed := by
  intro a0 a1 a2 a3
  refine ⟨_, rfl, ?_⟩
  repeat' first | with_reducible rfl | (simp; done) | split

@[simp ↓] theorem bodyMdlGenCreate_fixed : ∀ a0 a1, (bodyMdlGenCreate a0 a1).fixed = a0.fixed := by
  intro a0 a1
  delta bodyMdlGenCreate
  refine ite_fixed (fun _ => reply_fixed _ _ _ _ _) fun _ => ?_
  refine ite_fixed (fun _ => reply_fixed _ _ _ _ _) fun _ => ?_
  refine ite_fixed (fun _ => reply_fixed _ _ _ _ _) fun _ => ?_
  refine ite_fixed (fun _ => reply_fixed _ _ _ _ _) fun _ => ?_
  split
  · exact reply_fixed _ _ _ _ _
  · dsimp only
    split
    · rename_i hr
      refine (reply_fixed _ _ _ _ _).trans ((State.setPart_fixed _ _ _).trans (makeObjects_fixed _ _ _ _ _ _ hr))
    · refine ite_fixed (fun _ => ?_) fun _ => reply_fixed _ _ _ _ _
      exact (reply_fixed _ _ _ _ _).trans (State.setPart_fixed _ _ _)

theorem execMdlGenCreate_fixed : ∀ a0 a1, ∃ t, execMdlGenCreate a0 a1 = .next t ∧ t.fixed = a1.fixed := by
  intro a0 a1
  refine ⟨_, rfl, ?_⟩
  repeat' first | with_reducible rfl | (simp; done) | (rw [serve_fixed]; all_goals try (intros)) | split | dsimp only | simp

@[simp ↓] theorem bodyMdlGenSeal_fixed : ∀ a0 a1, (bodyMdlGenSeal a0 a1).fixed = a0.fixed := by
  intro a0 a1
  unfold bodyMdlGenSeal
  repeat' first | with_reducible rfl | (simp; done) | split

theorem execMdlGenSeal_fixed : ∀ a0 a1, ∃ t, execMdlGenSeal a0 a1 = .next t ∧ t.fixed = a1.fixed := by
  intro a0 a1
  refine ⟨_, rfl, ?_⟩
  repeat' first | with_reducible rfl | (simp; done) | (rw [serveDeferred_fixed]; all_goals try (intros)) | split | dsimp only | simp

theorem makeCopies_fixed : ∀ a0 a1 a2 r, makeCopies a0 a1 a2 = some r → r.1.fixed = a0.fixed := by
  intro a0 a1 a2 r h
  unfold makeCopies at h
  split at h
  · cases h; rfl
  · extract_lets l at h
    split at h
    · cases h
    · rename_i hr
      cases h
      refine (foldl_fixed _ _ _ fun s e => ?_).trans ?_
      · simp
      · exact makeObjects_fixed _ _ _ _ _ _ hr

theorem makeCopies_fixed' {a0 a1 a2 s1 x} (h : makeCopies a0 a1 a2 = some (s1, x)) : s1.fixed = a0.fixed := makeCopies_fixed _ _ _ _ h

@[simp ↓] theorem doneMdlGenSeal_fixed : ∀ a0 a1, (doneMdlGenSeal a0 a1).fixed = a0.fixed := by
  intro a0 a1
  unfold doneMdlGenSeal
  repeat' first | with_reducible rfl | (simp; done) | (rw [foldl_fixed]; try (intro _ _)) | (rw [foldl_fst_fixed]; try (intro _ _)) | (with_reducible refine (makeCopies_fixed' (by with_reducible assumption)).trans ?_) | split | dsimp only | simp

@[simp ↓] theorem bodyMdlGenStatus_fixed : ∀ a0 a1, (bodyMdlGenStatus a0 a1).fixed = a0.fixed := by
  intro a0 a1
  unfold bodyMdlGenStatus
  split <;> simp

theorem execMdlGenStatus_fixed : ∀ a0 a1, ∃ t, execMdlGenStatus a0 a1 = .next t ∧ t.fixed = a1.fixed := by
  intro a0 a1
  refine ⟨_, rfl, ?_⟩
  repeat' first | with_reducible rfl | (simp; done) | (rw [serve_fixed]; all_goals try (intros)) | split | dsimp only | simp

@[simp ↓] theorem bodyMdlGenActivate_fixed : ∀ a0 a1, (bodyMdlGenActivate a0 a1).fixed = a0.fixed := by
  intro a0 a1
  unfold bodyMdlGenActivate
  repeat' first | with_reducible rfl | (simp; done) | split | dsimp only | simp

theorem execMdlGenActivate_fixed : ∀ a0 a1, ∃ t, execMdlGenActivate a0 a1 = .next t ∧ t.fixed = a1.fixed := by
  intro a0 a1
  refine ⟨_, rfl, ?_⟩
  repeat' first | with_reducible rfl | (simp; done) | (rw [serveDeferred_fixed]; all_goals try (intros)) | split | dsimp only | simp

@[simp ↓] theorem bodyMdlGenCutover_fixed : ∀ a0 a1, (bodyMdlGenCutover a0 a1).fixed = a0.fixed := by
  intro a0 a1
  unfold bodyMdlGenCutover
  repeat' first | with_reducible rfl | (simp; done) | split | dsimp only | simp

theorem execMdlGenCutover_fixed : ∀ a0 a1, ∃ t, execMdlGenCutover a0 a1 = .next t ∧ t.fixed = a1.fixed := by
  intro a0 a1
  refine ⟨_, rfl, ?_⟩
  repeat' first | with_reducible rfl | (simp; done) | (rw [serveDeferred_fixed]; all_goals try (intros)) | split | dsimp only | simp

@[simp ↓] theorem doneDecided_fixed : ∀ a0 a1, (doneDecided a0 a1).fixed = a0.fixed := by
  intro a0 a1
  unfold doneDecided
  simp

@[simp ↓] theorem bodyMdlGenDelete_fixed : ∀ a0 a1, (bodyMdlGenDelete a0 a1).fixed = a0.fixed := by
  intro a0 a1
  unfold bodyMdlGenDelete
  repeat' first | with_reducible rfl | (simp; done) | split | dsimp only | simp

theorem execMdlGenDelete_fixed : ∀ a0 a1, ∃ t, execMdlGenDelete a0 a1 = .next t ∧ t.fixed = a1.fixed := by
  intro a0 a1
  refine ⟨_, rfl, ?_⟩
  repeat' first | with_reducible rfl | (simp; done) | (rw [serve_fixed]; all_goals try (intros)) | split | dsimp only | simp

@[simp ↓] theorem bodyMdlRelay_fixed : ∀ a0 a1, (bodyMdlRelay a0 a1).fixed = a0.fixed := by
  intro a0 a1
  unfold bodyMdlRelay
  repeat' first | with_reducible rfl | (simp; done) | (rw [foldl_fixed]; try (intro _ _)) | split | dsimp only | simp

theorem execMdlRelay_fixed : ∀ a0 a1, ∃ t, execMdlRelay a0 a1 = .next t ∧ t.fixed = a1.fixed := by
  intro a0 a1
  refine ⟨_, rfl, ?_⟩
  repeat' first | with_reducible rfl | (simp; done) | (rw [serveDeferred_fixed]; all_goals try (intros)) | split | dsimp only | simp

@[simp ↓] theorem doneMdlRelay_fixed : ∀ a0 a1, (doneMdlRelay a0 a1).fixed = a0.fixed := by
  intro a0 a1
  unfold doneMdlRelay
  repeat' first | with_reducible rfl | (simp; done) | split | dsimp only | simp

@[simp ↓] theorem adapterBegin_fixed : ∀ a0 a1 a2 a3, (adapterBegin a0 a1 a2 a3).fixed = a0.fixed := by
  intro a0 a1 a2 a3
  unfold adapterBegin
  repeat' first | with_reducible rfl | (simp; done) | split | dsimp only | simp

@[simp ↓] theorem bodyMdlAdapterLoad_fixed : ∀ a0 a1, (bodyMdlAdapterLoad a0 a1).fixed = a0.fixed := by
  intro a0 a1
  unfold bodyMdlAdapterLoad
  simp

theorem execMdlAdapterLoad_fixed : ∀ a0 a1, ∃ t, execMdlAdapterLoad a0 a1 = .next t ∧ t.fixed = a1.fixed := by
  intro a0 a1
  refine ⟨_, rfl, ?_⟩
  repeat' first | with_reducible rfl | (simp; done) | (rw [serve_fixed]; all_goals try (intros)) | split | dsimp only | simp

@[simp ↓] theorem bodyMdlAdapterReplace_fixed : ∀ a0 a1, (bodyMdlAdapterReplace a0 a1).fixed = a0.fixed := by
  intro a0 a1
  unfold bodyMdlAdapterReplace
  simp

theorem execMdlAdapterReplace_fixed : ∀ a0 a1, ∃ t, execMdlAdapterReplace a0 a1 = .next t ∧ t.fixed = a1.fixed := by
  intro a0 a1
  refine ⟨_, rfl, ?_⟩
  repeat' first | with_reducible rfl | (simp; done) | (rw [serve_fixed]; all_goals try (intros)) | split | dsimp only | simp

@[simp ↓] theorem bodyMdlAdapterUnload_fixed : ∀ a0 a1, (bodyMdlAdapterUnload a0 a1).fixed = a0.fixed := by
  intro a0 a1
  unfold bodyMdlAdapterUnload
  repeat' first | with_reducible rfl | (simp; done) | split | dsimp only | simp

theorem execMdlAdapterUnload_fixed : ∀ a0 a1, ∃ t, execMdlAdapterUnload a0 a1 = .next t ∧ t.fixed = a1.fixed := by
  intro a0 a1
  refine ⟨_, rfl, ?_⟩
  repeat' first | with_reducible rfl | (simp; done) | (rw [serve_fixed]; all_goals try (intros)) | split | dsimp only | simp

/-! ### Kv -/

theorem withRoom_fixed : ∀ a0 a1 a2 a3 f, (∀ s r, f s = some r → r.fixed = s.fixed) → (withRoom a0 a1 a2 a3 f).1.fixed = a1.fixed := by
  intro a0 a1 a2 a3 f h
  induction a0 generalizing a1 with
  | zero =>
    unfold withRoom
    repeat' first | (with_reducible rfl) | (exact h _ _ (by with_reducible assumption)) | split
  | succ n ih =>
    unfold withRoom
    split
    · exact h _ _ (by with_reducible assumption)
    · split
      · rename_i h1 h2 h3
        cases h2
        simp [ih]
      · rfl

theorem shareList_fixed : ∀ a0 a1 a2 a3 a4 a5 r, shareList a0 a1 a2 a3 a4 a5 = some r → r.1.fixed = a0.fixed := by
  intro a0 a1 a2 a3 a4 a5 r h
  unfold shareList at h
  repeat' first | (cases h; done) | (cases h; with_reducible rfl) | (cases h; simp; done) | (cases h; (repeat' first | (with_reducible rfl) | (simp; done) | (rw [foldl_fixed]; try (intro _ _)) | (rw [foldl_fst_fixed]; try (intro _ _)) | split); done) | split at h

theorem shareList_fixed' {a0 a1 a2 a3 a4 a5} {s1 x1} (h : shareList a0 a1 a2 a3 a4 a5 = some (s1, x1)) : s1.fixed = a0.fixed := shareList_fixed a0 a1 a2 a3 a4 a5 _ h

theorem shareLists_fixed : ∀ a0 a1 a2 a3 a4 a5 a6 r, shareLists a0 a1 a2 a3 a4 a5 a6 = some r → r.1.fixed = a0.fixed := by
  intro a0 a1 a2 a3 a4 a5 a6 r h
  induction a5 generalizing a0 a6 with
  | nil => unfold shareLists at h; cases h; rfl
  | cons x l ih =>
    unfold shareLists at h
    split at h
    · exact ih _ _ h
    · split at h
      · cases h
      · rename_i hz
        rw [ih _ _ h, shareList_fixed _ _ _ _ _ _ _ hz]

theorem lapMap_fixed : ∀ a0 a1 a2 a3 r, lapMap a0 a1 a2 a3 = some r → r.fixed = a0.fixed := by
  intro a0 a1 a2 a3 r h
  unfold lapMap at h
  extract_lets k m fmt at h
  split at h
  · cases h; simp
  · split at h
    · cases h; simp
    · extract_lets ks at h
      split at h
      · cases h
      · rename_i hz
        cases h
        rw [State.setMap_fixed, State.setMap_fixed, shareLists_fixed _ _ _ _ _ _ _ _ hz]

theorem growRow_fixed : ∀ a0 a1 a2 a3 a4 r, growRow a0 a1 a2 a3 a4 = some r → r.fixed = a0.fixed := by
  intro a0 a1 a2 a3 a4 r h
  unfold growRow at h
  extract_lets k at h
  split at h
  · cases h
  · rename_i h1
    extract_lets m at h
    split at h
    · cases h
    · cases h
      rw [State.setMap_fixed, State.setPart_fixed, lapMap_fixed _ _ _ _ _ h1]

@[simp ↓] theorem lapAcct_fixed : ∀ a0 a1 a2, (lapAcct a0 a1 a2).fixed = a0.fixed := by
  intro a0 a1 a2
  unfold lapAcct
  split <;> simp

@[simp ↓] theorem homeLap_fixed : ∀ a0 a1 a2, (homeLap a0 a1 a2).fixed = a0.fixed := by
  intro a0 a1 a2
  unfold homeLap
  split <;> simp

@[simp ↓] theorem fetchRow_fixed : ∀ a0 a1 a2 a3, (fetchRow a0 a1 a2 a3).fixed = a0.fixed := by
  intro a0 a1 a2 a3
  unfold fetchRow
  repeat' first | with_reducible rfl | (simp; done) | (with_reducible refine (growRow_fixed _ _ _ _ _ _ (by with_reducible assumption)).trans ?_) | (rw [withRoom_fixed]; all_goals try (intros)) | split | dsimp only | simp

@[simp ↓] theorem drawExits_fixed : ∀ a0 a1 a2 a3, (drawExits a0 a1 a2 a3).2.fixed = a0.fixed := by
  intro a0 a1 a2 a3
  induction a1 generalizing a0 a3 with
  | nil => rfl
  | cons r l ih =>
    unfold drawExits
    extract_lets step m t
    have hm : ∀ (l : List Nat) (x : List (Nat × Nat) × Nat × State), (l.foldl step x).2.2.fixed = x.2.2.fixed := by
      intro l
      induction l with
      | nil => intro x; rfl
      | cons a l ih =>
        intro x
        rw [List.foldl_cons, ih]
        simp only [step]
        split <;> simp
    simp only [t]
    rw [ih]
    exact hm _ _

@[simp ↓] theorem dropVerdicts_fixed : ∀ a0 a1, (dropVerdicts a0 a1).fixed = a0.fixed := by
  intro a0 a1
  unfold dropVerdicts
  simp

@[simp ↓] theorem lateFinal_fixed : ∀ a0 a1, (lateFinal a0 a1).fixed = a0.fixed := by
  intro a0 a1
  unfold lateFinal
  repeat' first | with_reducible rfl | (simp; done) | (rw [foldl_fixed]; try (intro _ _)) | split | dsimp only | simp

theorem execSealOutcome_fixed : ∀ a0 a1, ∃ t, execSealOutcome a0 a1 = .next t ∧ t.fixed = a1.fixed := by
  intro a0 a1
  refine ⟨_, rfl, ?_⟩
  split <;> simp

theorem mirrorSlot_fixed : ∀ a0 a1 a2 a3 a4 a5 a6 r, mirrorSlot a0 a1 a2 a3 a4 a5 a6 = some r → r.fixed = a0.fixed := by
  intro a0 a1 a2 a3 a4 a5 a6 r h
  unfold mirrorSlot at h
  extract_lets m p st l t at h
  split at h
  · cases h
  · cases h
    simp

theorem execMirrorAppend_fixed : ∀ a0 a1 a2 a3 a4 a5 a6 a7, ∃ t, execMirrorAppend a0 a1 a2 a3 a4 a5 a6 a7 = .next t ∧ t.fixed = a7.fixed := by
  intro a0 a1 a2 a3 a4 a5 a6 a7
  refine ⟨_, rfl, ?_⟩
  split
  · refine ite_fixed (fun _ => rfl) fun _ => ?_
    dsimp only
    generalize hw : withRoom _ _ _ _ _ = r
    have hr : r.1.fixed = a7.fixed := by
      rw [← hw, withRoom_fixed _ _ _ _ _ fun s x hx => mirrorSlot_fixed _ _ _ _ _ _ _ _ hx]
      split <;> simp
    split
    · rw [State.send_fixed, chargeReq_fixed, foldl_fst_fixed]
      · exact hr
      · intro s x
        simp
    · exact hr
  · rfl

@[simp ↓] theorem resumeDone_fixed : ∀ a0 a1, (resumeDone a0 a1).fixed = a0.fixed := by
  intro a0 a1
  unfold resumeDone
  simp

theorem execMirrorAck_fixed : ∀ a0 a1 a2 a3 a4 a5, ∃ t, execMirrorAck a0 a1 a2 a3 a4 a5 = .next t ∧ t.fixed = a5.fixed := by
  intro a0 a1 a2 a3 a4 a5
  refine ⟨_, rfl, ?_⟩
  repeat' first | with_reducible rfl | (simp; done) | (rw [foldl_fixed]; try (intro _ _)) | split | dsimp only | simp

theorem keepRecord_fixed : ∀ a0 a1 a2 a3 r, keepRecord a0 a1 a2 a3 = some r → r.fixed = a0.fixed := by
  intro a0 a1 a2 a3 r h
  unfold keepRecord at h
  extract_lets m p at h
  split at h
  · split at h
    · cases h
    · cases h
      rw [State.setMap_fixed]
      refine (foldl_fixed _ _ _ fun s i => ?_).trans ?_
      · simp
      · simp
  · split at h
    · cases h
    · rename_i hr
      cases h
      simp [objCreate_fixed _ _ _ _ _ _ _ hr]

theorem drawIf_fixed {c : Prop} [Decidable c] (s : State) (n : Nat) : (if c then s.draw n else (0, s)).2.fixed = s.fixed := by
  split
  · exact State.draw_fixed _ _
  · rfl

theorem execParkOrder_fixed : ∀ a0 a1 a2, ∃ t, execParkOrder a0 a1 a2 = .next t ∧ t.fixed = a2.fixed := by
  intro a0 a1 a2
  refine ⟨_, rfl, ?_⟩
  rw [settle_fixed]
  refine ite_fixed (fun _ => rfl) fun _ => ite_fixed (fun _ => State.send_fixed _ _ _) fun _ => ?_
  refine ite_fixed (fun _ => ?_) fun _ => ?_
  · simp
  dsimp only
  generalize hk : keepRecord _ _ _ _ = k
  cases k with
  | none =>
    dsimp only
    rw [State.send_fixed, drawIf_fixed]
    simp
  | some s1 =>
    have h2 : s1.fixed = a2.fixed := by
      rw [keepRecord_fixed _ _ _ _ _ hk, drawIf_fixed]
      simp
    dsimp only
    rw [State.send_fixed]
    split <;> simp [h2]

@[simp ↓] theorem startPark_fixed : ∀ a0 a1, (startPark a0 a1).fixed = a0.fixed := by
  intro a0 a1
  unfold startPark
  repeat' first | with_reducible rfl | (simp; done) | (rw [foldl_fixed]; try (intro _ _)) | split | dsimp only | simp

theorem execParkIdleExpiry_fixed : ∀ a0 a1, ∃ t, execParkIdleExpiry a0 a1 = .next t ∧ t.fixed = a1.fixed := by
  intro a0 a1
  refine ⟨_, rfl, ?_⟩
  simp

theorem tellJob_fixed : ∀ a0 a1 a2 f, (∀ s, (f s).fixed = s.fixed) → (tellJob a0 a1 a2 f).fixed = a0.fixed := by
  intro a0 a1 a2 f h
  unfold tellJob
  rw [foldl_fixed]
  intro s n
  split
  · exact h s
  · simp

@[simp ↓] theorem parkFree_fixed : ∀ a0 a1, (parkFree a0 a1).fixed = a0.fixed := by
  intro a0 a1
  unfold parkFree
  simp

theorem execParkReport_fixed : ∀ a0 a1 a2 a3, ∃ t, execParkReport a0 a1 a2 a3 = .next t ∧ t.fixed = a3.fixed := by
  intro a0 a1 a2 a3
  refine ⟨_, rfl, ?_⟩
  repeat' first | with_reducible rfl | (simp; done) | (rw [tellJob_fixed]; all_goals try (intros)) | split | dsimp only | simp

theorem resumePages_fixed : ∀ a0 a1 a2 a3 a4 a5 a6 a7 r, resumePages a0 a1 a2 a3 a4 a5 a6 a7 = some r → r.1.fixed = a0.fixed := by
  intro a0 a1 a2 a3 a4 a5 a6 a7 r h
  induction a5 generalizing a0 a7 with
  | zero => unfold resumePages at h; cases h; rfl
  | succ n ih =>
    unfold resumePages at h
    extract_lets x at h
    split at h
    · cases h
    · extract_lets g s1 at h
      rw [ih _ _ h]
      simp [s1]

theorem resumeLists_fixed : ∀ a0 a1 a2 a3 a4 a5 a6 r, resumeLists a0 a1 a2 a3 a4 a5 a6 = some r → r.1.fixed = a0.fixed := by
  intro a0 a1 a2 a3 a4 a5 a6 r h
  induction a5 generalizing a0 a6 with
  | nil => unfold resumeLists at h; cases h; rfl
  | cons x l ih =>
    unfold resumeLists at h
    extract_lets st home at h
    split at h
    · cases h
    · rename_i hx
      rw [ih _ _ h, resumePages_fixed _ _ _ _ _ _ _ _ _ hx]

@[simp ↓] theorem mirrorMap_fixed : ∀ a0 a1, (mirrorMap a0 a1).fixed = a0.fixed := by
  intro a0 a1
  unfold mirrorMap
  repeat' first | with_reducible rfl | (simp; done) | (rw [foldl_fixed]; try (intro _ _)) | split | dsimp only | simp

theorem resumeMap_fixed : ∀ a0 a1 a2 r, resumeMap a0 a1 a2 = some r → r.fixed = a0.fixed := by
  intro a0 a1 a2 r h
  unfold resumeMap at h
  extract_lets m d lists at h
  split at h
  · cases h
  · rename_i hr
    cases h
    simp [resumeLists_fixed _ _ _ _ _ _ _ _ hr]

theorem execResumeOrder_fixed : ∀ a0 a1, ∃ t, execResumeOrder a0 a1 = .next t ∧ t.fixed = a1.fixed := by
  intro a0 a1
  refine ⟨_, rfl, ?_⟩
  repeat' first | with_reducible rfl | (simp; done) | (with_reducible refine (resumeMap_fixed _ _ _ _ (by with_reducible assumption)).trans ?_) | (rw [withRoom_fixed]; all_goals try (intros)) | split | dsimp only | simp

@[simp ↓] theorem startResume_fixed : ∀ a0 a1, (startResume a0 a1).fixed = a0.fixed := by
  intro a0 a1
  unfold startResume
  repeat' first | with_reducible rfl | (simp; done) | (rw [foldl_fixed]; try (intro _ _)) | split | dsimp only | simp

@[simp ↓] theorem dropEverywhere_fixed : ∀ a0 a1, (dropEverywhere a0 a1).fixed = a0.fixed := by
  intro a0 a1
  unfold dropEverywhere
  simp

theorem execResumeReport_fixed : ∀ a0 a1 a2 a3, ∃ t, execResumeReport a0 a1 a2 a3 = .next t ∧ t.fixed = a3.fixed := by
  intro a0 a1 a2 a3
  refine ⟨_, rfl, ?_⟩
  repeat' first | with_reducible rfl | (simp; done) | split | dsimp only | simp

theorem execSessionDropReport_fixed : ∀ a0 a1 a2, ∃ t, execSessionDropReport a0 a1 a2 = .next t ∧ t.fixed = a2.fixed := by
  intro a0 a1 a2
  refine ⟨_, rfl, ?_⟩
  simp

/-! ### Experts -/

@[simp ↓] theorem modSet_fixed : ∀ a0 a1 a2 a3, (modSet a0 a1 a2 a3).fixed = a0.fixed := by
  intro a0 a1 a2 a3
  unfold modSet
  simp

@[simp ↓] theorem modStats_fixed : ∀ a0 a1 a2, (modStats a0 a1 a2).fixed = a0.fixed := by
  intro a0 a1 a2
  unfold modStats
  simp

@[simp ↓] theorem demandUnits_fixed : ∀ a0 a1 a2 a3 a4, (demandUnits a0 a1 a2 a3 a4).fixed = a0.fixed := by
  intro a0 a1 a2 a3 a4
  unfold demandUnits
  simp

@[simp ↓] theorem predictUnits_fixed : ∀ a0 a1 a2 a3 a4, (predictUnits a0 a1 a2 a3 a4).fixed = a0.fixed := by
  intro a0 a1 a2 a3 a4
  unfold predictUnits
  simp

@[simp ↓] theorem decideSet_fixed : ∀ a0 a1 a2, (decideSet a0 a1 a2).fixed = a0.fixed := by
  intro a0 a1 a2
  unfold decideSet
  simp

@[simp ↓] theorem noteDrop_fixed : ∀ a0 a1 a2, (noteDrop a0 a1 a2).fixed = a0.fixed := by
  intro a0 a1 a2
  unfold noteDrop
  repeat' first | with_reducible rfl | (simp; done) | split

@[simp ↓] theorem takeEntry_fixed : ∀ a0 a1 a2 a3, (takeEntry a0 a1 a2 a3).fixed = a0.fixed := by
  intro a0 a1 a2 a3
  unfold takeEntry
  split <;> simp

@[simp ↓] theorem entry_fixed : ∀ a0 a1 a2 a3, (entry a0 a1 a2 a3).fixed = a0.fixed := by
  intro a0 a1 a2 a3
  unfold entry
  simp

@[simp ↓] theorem releaseHeld_fixed : ∀ a0 a1, (releaseHeld a0 a1).fixed = a0.fixed := by
  intro a0 a1
  unfold releaseHeld
  repeat' first | with_reducible rfl | (simp; done) | (rw [foldl_fixed]; try (intro _ _)) | split | dsimp only | simp

theorem execDispatchRow_fixed : ∀ a0 a1, ∃ t, execDispatchRow a0 a1 = .next t ∧ t.fixed = a1.fixed := by
  intro a0 a1
  refine ⟨_, rfl, ?_⟩
  simp

theorem execDispatchEnd_fixed : ∀ a0 a1, ∃ t, execDispatchEnd a0 a1 = .next t ∧ t.fixed = a1.fixed := by
  intro a0 a1
  refine ⟨_, rfl, ?_⟩
  simp

theorem execExpertRet_fixed : ∀ a0 a1, ∃ t, execExpertRet a0 a1 = .next t ∧ t.fixed = a1.fixed := by
  intro a0 a1
  refine ⟨_, rfl, ?_⟩
  simp

theorem execPredEntry_fixed : ∀ a0 a1 a2, ∃ t, execPredEntry a0 a1 a2 = .next t ∧ t.fixed = a2.fixed := by
  intro a0 a1 a2
  refine ⟨_, rfl, ?_⟩
  simp

theorem execHeatCancel_fixed : ∀ a0 a1 a2, ∃ t, execHeatCancel a0 a1 a2 = .next t ∧ t.fixed = a2.fixed := by
  intro a0 a1 a2
  refine ⟨_, rfl, ?_⟩
  simp

/-! ### Seal -/

@[simp ↓] theorem ownTokens_fixed : ∀ a0 a1 a2, (ownTokens a0 a1 a2).2.2.fixed = a0.fixed := by
  intro a0 a1 a2
  unfold ownTokens
  simp

@[simp ↓] theorem requestOutput_fixed : ∀ a0 a1 a2 a3, (requestOutput a0 a1 a2 a3).fixed = a0.fixed := by
  intro a0 a1 a2 a3
  unfold requestOutput
  repeat' first | with_reducible rfl | (simp; done) | split | dsimp only | simp

@[simp ↓] theorem heatOutputs_fixed : ∀ a0 a1, (heatOutputs a0 a1).fixed = a0.fixed := by
  intro a0 a1
  unfold heatOutputs
  repeat' first | with_reducible rfl | (simp; done) | (rw [foldl_fixed]; try (intro _ _)) | split | dsimp only | simp

@[simp ↓] theorem partDone_fixed : ∀ a0 a1 a2, (partDone a0 a1 a2).fixed = a0.fixed := by
  intro a0 a1 a2
  unfold partDone
  simp

theorem execDraftProposals_fixed : ∀ a0 a1 a2 a3 a4 a5 a6, ∃ t, execDraftProposals a0 a1 a2 a3 a4 a5 a6 = .next t ∧ t.fixed = a6.fixed := by
  intro a0 a1 a2 a3 a4 a5 a6
  refine ⟨_, rfl, ?_⟩
  repeat' first | with_reducible rfl | (simp; done) | (rw [foldl_fixed]; try (intro _ _)) | split | dsimp only | simp

theorem exitsIf_fixed {c : Prop} [Decidable c] (s : State) (rows layers n) :
    (if c then drawExits s rows layers n else ([], s)).2.fixed = s.fixed := by
  split
  · exact drawExits_fixed _ _ _ _
  · rfl

theorem execHeatFetch_fixed : ∀ a0 a1, ∃ t, execHeatFetch a0 a1 = .next t ∧ t.fixed = a1.fixed := by
  intro a0 a1
  refine ⟨_, rfl, ?_⟩
  rw [settle_fixed]
  refine ite_fixed (fun _ => rfl) fun _ => ?_
  refine ite_fixed (fun _ => (reportLap_fixed _ _).trans ((heatOutputs_fixed _ _).trans ?_)) fun _ => ?_ <;>
  · refine (State.setPart_fixed _ _ _).trans ((State.setHeat_fixed _ _ _).trans ?_)
    refine (foldl_fixed _ _ _ fun s f => State.setSlot_fixed _ _ _ _).trans ((exitsIf_fixed _ _ _ _).trans ((State.setCtx_fixed _ _ _).trans ?_))
    refine (foldl_fixed _ _ _ fun s r => fetchRow_fixed _ _ _ _).trans ?_
    exact noteLap_fixed _ _ _

theorem execEndCmd_fixed : ∀ a0 a1 a2, ∃ t, execEndCmd a0 a1 a2 = .next t ∧ t.fixed = a2.fixed := by
  intro a0 a1 a2
  refine ⟨_, rfl, ?_⟩
  split <;> simp

@[simp ↓] theorem lsMismatch_fixed : ∀ a0 a1 a2, (lsMismatch a0 a1 a2).fixed = a0.fixed := by
  intro a0 a1 a2
  unfold lsMismatch
  repeat' first | with_reducible rfl | (simp; done) | (rw [foldl_fixed]; try (intro _ _)) | split | dsimp only | simp

@[simp ↓] theorem sealWith_fixed : ∀ a0 a1 a2 a3, (sealWith a0 a1 a2 a3).fixed = a0.fixed := by
  intro a0 a1 a2 a3
  unfold sealWith
  repeat' first | with_reducible rfl | (simp; done) | split | dsimp only | simp

@[simp ↓] theorem sealLap_fixed : ∀ a0 a1 a2, (sealLap a0 a1 a2).fixed = a0.fixed := by
  intro a0 a1 a2
  unfold sealLap
  simp

@[simp ↓] theorem completeSeal_fixed : ∀ a0 a1 a2, (completeSeal a0 a1 a2).fixed = a0.fixed := by
  intro a0 a1 a2
  unfold completeSeal
  split <;> simp

@[simp ↓] theorem trySeal_fixed : ∀ a0 a1, (trySeal a0 a1).fixed = a0.fixed := by
  intro a0 a1
  unfold trySeal
  repeat' first | with_reducible rfl | (simp; done) | split | dsimp only | simp

theorem execVerdict_fixed : ∀ a0 a1 a2, ∃ t, execVerdict a0 a1 a2 = .next t ∧ t.fixed = a2.fixed := by
  intro a0 a1 a2
  refine ⟨_, rfl, ?_⟩
  repeat' first | with_reducible rfl | (simp; done) | split | dsimp only | simp

@[simp ↓] theorem lapDoneReq_fixed : ∀ a0 a1 a2 a3 a4 a5, (lapDoneReq a0 a1 a2 a3 a4 a5).fixed = a0.fixed := by
  intro a0 a1 a2 a3 a4 a5
  unfold lapDoneReq
  split <;> simp

theorem execLapDone_fixed : ∀ a0 a1 a2 a3 a4, ∃ t, execLapDone a0 a1 a2 a3 a4 = .next t ∧ t.fixed = a4.fixed := by
  intro a0 a1 a2 a3 a4
  refine ⟨_, rfl, ?_⟩
  repeat' first | with_reducible rfl | (simp; done) | (rw [foldl_fixed]; try (intro _ _)) | split | dsimp only | simp

theorem execLedgerFree_fixed : ∀ a0 a1, ∃ t, execLedgerFree a0 a1 = .next t ∧ t.fixed = a1.fixed := by
  intro a0 a1
  refine ⟨_, rfl, ?_⟩
  simp

end Sys2Proof.Machine
end

