-- ==== Sys2Proof/Laws/FixedPackage.lean ====
section
/-!
SUPPORT. The fuses and the waiting commands are kept: scheduling, the twin, power, the mailbox messages, boot and the debug port.
-/

set_option maxRecDepth 4000
set_option linter.unusedTactic false
set_option linter.unreachableTactic false
set_option linter.unusedSimpArgs false

namespace Sys2Proof.Machine

/-! ### Admit -/

@[simp ↓] theorem refillAll_fixed : ∀ a0 a1, (refillAll a0 a1).fixed = a0.fixed := by
  intro a0 a1
  unfold refillAll
  repeat' first | with_reducible rfl | (simp; done) | (rw [foldl_fixed]; try (intro _ _)) | split | dsimp only | simp

theorem pickGet_fixed (s : State) (l : List Nat) : ((pickOne s l).getD (0, s)).2.fixed = s.fixed := by
  generalize hk : pickOne s l = k
  cases k with
  | none => rfl
  | some r => exact pickOne_fixed _ _ _ hk

theorem freeIndex_fixed : ∀ a0 a1 a2 r, freeIndex a0 a1 a2 = some r → r.2.fixed = a0.fixed := by
  intro a0 a1 a2 r h
  exact pickOne_fixed _ _ _ h

theorem freeIndex_fixed' {a0 a1 a2 x s1} (h : freeIndex a0 a1 a2 = some (x, s1)) : s1.fixed = a0.fixed := freeIndex_fixed _ _ _ _ h

theorem freeSess_fixed : ∀ a0 r, freeSess a0 = some r → r.2.fixed = a0.fixed := by
  intro a0 r h
  exact freeIndex_fixed _ _ _ _ h

theorem freeSess_fixed' {a0 x s1} (h : freeSess a0 = some (x, s1)) : s1.fixed = a0.fixed := freeSess_fixed _ _ h

@[simp ↓] theorem wakeSession_fixed : ∀ a0 a1, (wakeSession a0 a1).fixed = a0.fixed := by
  intro a0 a1
  unfold wakeSession
  repeat' first | with_reducible rfl | (simp; done) | (rw [tellJob_fixed]; all_goals try (intros)) | split | dsimp only | simp

@[simp ↓] theorem closeCohort_fixed : ∀ a0 a1, (closeCohort a0 a1).fixed = a0.fixed := by
  intro a0 a1
  unfold closeCohort
  simp

@[simp ↓] theorem cohortAdmit_fixed : ∀ a0 a1 a2, (cohortAdmit a0 a1 a2).fixed = a0.fixed := by
  intro a0 a1 a2
  unfold cohortAdmit
  simp

theorem execCohortCloseTimeout_fixed : ∀ a0 a1, ∃ t, execCohortCloseTimeout a0 a1 = .next t ∧ t.fixed = a1.fixed := by
  intro a0 a1
  refine ⟨_, rfl, ?_⟩
  simp

@[simp ↓] theorem admitTo_fixed : ∀ a0 a1 a2 a3 a4, (admitTo a0 a1 a2 a3 a4).fixed = a0.fixed := by
  intro a0 a1 a2 a3 a4
  unfold admitTo
  simp

@[simp ↓] theorem admitRequest_fixed : ∀ a0 a1, (admitRequest a0 a1).fixed = a0.fixed := by
  intro a0 a1
  unfold admitRequest
  repeat' first | with_reducible rfl | (simp; done) | (with_reducible refine (freeSess_fixed' (by with_reducible assumption)).trans ?_) | split | dsimp only | simp

theorem execPacerAdmit_fixed : ∀ a0, ∃ t, execPacerAdmit a0 = .next t ∧ t.fixed = a0.fixed := by
  intro a0
  refine ⟨_, rfl, ?_⟩
  repeat' first | with_reducible rfl | (simp; done) | split | dsimp only | simp

@[simp ↓] theorem formHeat_fixed : ∀ a0 a1 a2 a3, (formHeat a0 a1 a2 a3).fixed = a0.fixed := by
  intro a0 a1 a2 a3
  unfold formHeat
  repeat' first | with_reducible rfl | (simp; done) | (rw [foldl_fixed]; try (intro _ _)) | split | dsimp only | simp

theorem execHeatForm_fixed : ∀ a0 a1 a2, ∃ t, execHeatForm a0 a1 a2 = .next t ∧ t.fixed = a2.fixed := by
  intro a0 a1 a2
  refine ⟨_, rfl, ?_⟩
  repeat' first | with_reducible rfl | (simp; done) | split | dsimp only | simp

@[simp ↓] theorem noteHandOff_fixed : ∀ a0 a1, (noteHandOff a0 a1).fixed = a0.fixed := by
  intro a0 a1
  unfold noteHandOff
  simp

theorem execHeatDescriptor_fixed : ∀ a0 a1, ∃ t, execHeatDescriptor a0 a1 = .next t ∧ t.fixed = a1.fixed := by
  intro a0 a1
  refine ⟨_, rfl, ?_⟩
  simp

/-! ### Sched -/

@[simp ↓] theorem bringSlot_fixed : ∀ a0 a1 a2, (bringSlot a0 a1 a2).fixed = a0.fixed := by
  intro a0 a1 a2
  unfold bringSlot
  simp

@[simp ↓] theorem bringIn_fixed : ∀ a0 a1, (bringIn a0 a1).fixed = a0.fixed := by
  intro a0 a1
  unfold bringIn
  repeat' first | with_reducible rfl | (simp; done) | (rw [foldl_fixed]; try (intro _ _)) | split | dsimp only | simp

theorem execContextBringIn_fixed : ∀ a0 a1, ∃ t, execContextBringIn a0 a1 = .next t ∧ t.fixed = a1.fixed := by
  intro a0 a1
  refine ⟨_, rfl, ?_⟩
  simp

theorem execContextBlocked_fixed : ∀ a0 a1 a2, ∃ t, execContextBlocked a0 a1 a2 = .next t ∧ t.fixed = a2.fixed := by
  intro a0 a1 a2
  refine ⟨_, rfl, ?_⟩
  simp

@[simp ↓] theorem pauseCtx_fixed : ∀ a0 a1, (pauseCtx a0 a1).fixed = a0.fixed := by
  intro a0 a1
  unfold pauseCtx
  repeat' first | with_reducible rfl | (simp; done) | (rw [foldl_fixed]; try (intro _ _)) | split | dsimp only | simp

@[simp ↓] theorem resumeCtx_fixed : ∀ a0 a1, (resumeCtx a0 a1).fixed = a0.fixed := by
  intro a0 a1
  unfold resumeCtx
  repeat' first | with_reducible rfl | (simp; done) | (rw [foldl_fixed]; try (intro _ _)) | split | dsimp only | simp

@[simp ↓] theorem tryEvict_fixed : ∀ a0 a1 a2, (tryEvict a0 a1 a2).fixed = a0.fixed := by
  intro a0 a1 a2
  unfold tryEvict
  split <;> simp

theorem execEviction_fixed : ∀ a0 a1, ∃ t, execEviction a0 a1 = .next t ∧ t.fixed = a1.fixed := by
  intro a0 a1
  refine ⟨_, rfl, ?_⟩
  simp

theorem execEvictTimeout_fixed : ∀ a0 a1, ∃ t, execEvictTimeout a0 a1 = .next t ∧ t.fixed = a1.fixed := by
  intro a0 a1
  refine ⟨_, rfl, ?_⟩
  split <;> simp

theorem execEvictSave_fixed : ∀ a0 a1, ∃ t, execEvictSave a0 a1 = .next t ∧ t.fixed = a1.fixed := by
  intro a0 a1
  refine ⟨_, rfl, ?_⟩
  repeat' first | with_reducible rfl | (simp; done) | (rw [foldl_fixed]; try (intro _ _)) | split | dsimp only | simp

@[simp ↓] theorem undoRow_fixed : ∀ a0 a1, (undoRow a0 a1).fixed = a0.fixed := by
  intro a0 a1
  unfold undoRow
  simp

@[simp ↓] theorem replayLap_fixed : ∀ a0 a1 a2, (replayLap a0 a1 a2).fixed = a0.fixed := by
  intro a0 a1 a2
  unfold replayLap
  repeat' first | with_reducible rfl | (simp; done) | (rw [foldl_fixed]; try (intro _ _)) | split | dsimp only | simp

@[simp ↓] theorem orderReplay_fixed : ∀ a0 a1, (orderReplay a0 a1).fixed = a0.fixed := by
  intro a0 a1
  unfold orderReplay
  simp

@[simp ↓] theorem failCtx_fixed : ∀ a0 a1, (failCtx a0 a1).fixed = a0.fixed := by
  intro a0 a1
  unfold failCtx
  repeat' first | with_reducible rfl | (simp; done) | (rw [foldl_fixed]; try (intro _ _)) | split | dsimp only | simp

@[simp ↓] theorem countFault_fixed : ∀ a0 a1, (countFault a0 a1).fixed = a0.fixed := by
  intro a0 a1
  unfold countFault
  simp

theorem execFaultRecord_fixed : ∀ a0 a1 a2, ∃ t, execFaultRecord a0 a1 a2 = .next t ∧ t.fixed = a2.fixed := by
  intro a0 a1 a2
  refine ⟨_, rfl, ?_⟩
  rw [settle_fixed]
  dsimp only
  generalize hk : List.find? _ _ = k
  cases k with
  | none => rfl
  | some r =>
    dsimp only
    refine ite_fixed (fun _ => ?_) fun _ => ?_
    · refine (foldl_fixed _ _ _ fun s h => orderReplay_fixed _ _).trans ?_
      exact ite_fixed (fun _ => State.setStarter_fixed _ _ _) fun _ => (slotClear_fixed _ _ _).trans (State.setStarter_fixed _ _ _)
    · refine (countFault_fixed _ _).trans ?_
      have h : ∀ s : State, (s.fixed = a2.fixed) → (if r.col = 31 then s else slotClear s (if r.col = 31 then 0 else coreAddr a0 a1 r.col) r.slot).fixed = a2.fixed := by
        intro s hs
        exact ite_fixed (fun _ => hs) fun _ => (slotClear_fixed _ _ _).trans hs
      refine h _ ?_
      refine (foldl_fixed _ _ _ fun s h => foldl_fixed _ _ _ fun s x => orderEnd_fixed _ _ _ _ _).trans ?_
      exact State.setStarter_fixed _ _ _

theorem execStarterFault_fixed : ∀ a0 a1 a2, ∃ t, execStarterFault a0 a1 a2 = .next t ∧ t.fixed = a2.fixed := by
  intro a0 a1 a2
  refine ⟨_, rfl, ?_⟩
  repeat' first | with_reducible rfl | (simp; done) | (rw [foldl_fixed]; try (intro _ _)) | split | dsimp only | simp

@[simp ↓] theorem report_fixed : ∀ a0 a1, (report a0 a1).2.fixed = a0.fixed := by
  intro a0 a1
  unfold report
  repeat' first | with_reducible rfl | (simp; done) | (rw [foldl_fixed]; try (intro _ _)) | split | dsimp only | simp

theorem execSlowdownReport_fixed : ∀ a0 a1, ∃ t, execSlowdownReport a0 a1 = .next t ∧ t.fixed = a1.fixed := by
  intro a0 a1
  refine ⟨_, rfl, ?_⟩
  simp

@[simp ↓] theorem bodyParStats_fixed : ∀ a0 a1, (bodyParStats a0 a1).fixed = a0.fixed := by
  intro a0 a1
  unfold bodyParStats
  simp

theorem execParStats_fixed : ∀ a0 a1, ∃ t, execParStats a0 a1 = .next t ∧ t.fixed = a1.fixed := by
  intro a0 a1
  refine ⟨_, rfl, ?_⟩
  repeat' first | with_reducible rfl | (simp; done) | (rw [serve_fixed]; all_goals try (intros)) | split | dsimp only | simp

/-! ### FabLink -/

@[simp ↓] theorem State.mapTwin_fixed : ∀ a0 a1, (State.mapTwin a0 a1).fixed = a0.fixed := by
  intro a0 a1
  unfold State.mapTwin
  simp

@[simp ↓] theorem sendPair_fixed : ∀ a0, (sendPair a0).fixed = a0.fixed := by
  intro a0
  unfold sendPair
  split <;> simp

@[simp ↓] theorem suspect_fixed : ∀ a0, (suspect a0).fixed = a0.fixed := by
  intro a0
  unfold suspect
  repeat' first | with_reducible rfl | (simp; done) | split | dsimp only | simp

@[simp ↓] theorem fencedSelf_fixed : ∀ a0, (fencedSelf a0).fixed = a0.fixed := by
  intro a0
  unfold fencedSelf
  simp

@[simp ↓] theorem linkEvent_fixed : ∀ a0 a1, (linkEvent a0 a1).fixed = a0.fixed := by
  intro a0 a1
  unfold linkEvent
  simp

@[simp ↓] theorem refresh_fixed : ∀ a0, (refresh a0).fixed = a0.fixed := by
  intro a0
  unfold refresh
  repeat' first | with_reducible rfl | (simp; done) | (rw [foldl_fixed]; try (intro _ _)) | split | dsimp only | simp

@[simp ↓] theorem linkChanged_fixed : ∀ a0, (linkChanged a0).fixed = a0.fixed := by
  intro a0
  unfold linkChanged
  simp

@[simp ↓] theorem linkDown_fixed : ∀ a0 a1, (linkDown a0 a1).fixed = a0.fixed := by
  intro a0 a1
  unfold linkDown
  simp

@[simp ↓] theorem startTraining_fixed : ∀ a0 a1, (startTraining a0 a1).fixed = a0.fixed := by
  intro a0 a1
  unfold startTraining
  simp

theorem execLinkSignalDetect_fixed : ∀ a0 a1, ∃ t, execLinkSignalDetect a0 a1 = .next t ∧ t.fixed = a1.fixed := by
  intro a0 a1
  refine ⟨_, rfl, ?_⟩
  simp

@[simp ↓] theorem startIdentify_fixed : ∀ a0 a1 a2, (startIdentify a0 a1 a2).fixed = a0.fixed := by
  intro a0 a1 a2
  unfold startIdentify
  simp

theorem execLinkLock_fixed : ∀ a0 a1 a2, ∃ t, execLinkLock a0 a1 a2 = .next t ∧ t.fixed = a2.fixed := by
  intro a0 a1 a2
  refine ⟨_, rfl, ?_⟩
  simp

theorem execTrainTimeout_fixed : ∀ a0 a1, ∃ t, execTrainTimeout a0 a1 = .next t ∧ t.fixed = a1.fixed := by
  intro a0 a1
  refine ⟨_, rfl, ?_⟩
  simp

theorem execTrainRetry_fixed : ∀ a0 a1, ∃ t, execTrainRetry a0 a1 = .next t ∧ t.fixed = a1.fixed := by
  intro a0 a1
  refine ⟨_, rfl, ?_⟩
  simp

@[simp ↓] theorem resendFlit_fixed : ∀ a0 a1 a2, (resendFlit a0 a1 a2).fixed = a0.fixed := by
  intro a0 a1 a2
  unfold resendFlit
  simp

@[simp ↓] theorem linkUp_fixed : ∀ a0 a1 a2, (linkUp a0 a1 a2).fixed = a0.fixed := by
  intro a0 a1 a2
  unfold linkUp
  repeat' first | with_reducible rfl | (simp; done) | (rw [foldl_fixed]; try (intro _ _)) | split | dsimp only | simp

theorem execLinkIdentify_fixed : ∀ a0 a1 a2, ∃ t, execLinkIdentify a0 a1 a2 = .next t ∧ t.fixed = a2.fixed := by
  intro a0 a1 a2
  refine ⟨_, rfl, ?_⟩
  simp

theorem execIdentifyRetry_fixed : ∀ a0 a1, ∃ t, execIdentifyRetry a0 a1 = .next t ∧ t.fixed = a1.fixed := by
  intro a0 a1
  refine ⟨_, rfl, ?_⟩
  simp

theorem execLinkFault_fixed : ∀ a0 a1, ∃ t, execLinkFault a0 a1 = .next t ∧ t.fixed = a1.fixed := by
  intro a0 a1
  refine ⟨_, rfl, ?_⟩
  simp

theorem execLaneLoss_fixed : ∀ a0 a1 a2, ∃ t, execLaneLoss a0 a1 a2 = .next t ∧ t.fixed = a2.fixed := by
  intro a0 a1 a2
  refine ⟨_, rfl, ?_⟩
  simp

@[simp ↓] theorem nakFlit_fixed : ∀ a0 a1 a2, (nakFlit a0 a1 a2).fixed = a0.fixed := by
  intro a0 a1 a2
  unfold nakFlit
  repeat' first | with_reducible rfl | (simp; done) | (rw [foldl_fixed]; try (intro _ _)) | split | dsimp only | simp

theorem execFlitReceive_fixed : ∀ a0 a1 a2, ∃ t, execFlitReceive a0 a1 a2 = .next t ∧ t.fixed = a2.fixed := by
  intro a0 a1 a2
  refine ⟨_, rfl, ?_⟩
  simp

theorem execFlitNak_fixed : ∀ a0 a1 a2, ∃ t, execFlitNak a0 a1 a2 = .next t ∧ t.fixed = a2.fixed := by
  intro a0 a1 a2
  refine ⟨_, rfl, ?_⟩
  simp

theorem execLinkResync_fixed : ∀ a0 a1 a2, ∃ t, execLinkResync a0 a1 a2 = .next t ∧ t.fixed = a2.fixed := by
  intro a0 a1 a2
  refine ⟨_, rfl, ?_⟩
  repeat' first | with_reducible rfl | (simp; done) | (rw [foldl_fixed]; try (intro _ _)) | split | dsimp only | simp

@[simp ↓] theorem lostFlit_fixed : ∀ a0 a1, (lostFlit a0 a1).fixed = a0.fixed := by
  intro a0 a1
  unfold lostFlit
  repeat' first | with_reducible rfl | (simp; done) | split | dsimp only | simp

theorem execResyncTimeout_fixed : ∀ a0 a1, ∃ t, execResyncTimeout a0 a1 = .next t ∧ t.fixed = a1.fixed := by
  intro a0 a1
  refine ⟨_, rfl, ?_⟩
  repeat' first | with_reducible rfl | (simp; done) | (rw [foldl_fixed]; try (intro _ _)) | split | dsimp only | simp

theorem execLinkStateRecord_fixed : ∀ a0 a1, ∃ t, execLinkStateRecord a0 a1 = .next t ∧ t.fixed = a1.fixed := by
  intro a0 a1
  refine ⟨_, rfl, ?_⟩
  repeat' first | with_reducible rfl | (simp; done) | (rw [foldl_fixed]; try (intro _ _)) | split | dsimp only | simp

theorem execRecordReflood_fixed : ∀ a0, ∃ t, execRecordReflood a0 = .next t ∧ t.fixed = a0.fixed := by
  intro a0
  refine ⟨_, rfl, ?_⟩
  simp

theorem execRecordAgeOut_fixed : ∀ a0 a1, ∃ t, execRecordAgeOut a0 a1 = .next t ∧ t.fixed = a1.fixed := by
  intro a0 a1
  refine ⟨_, rfl, ?_⟩
  simp

@[simp ↓] theorem dropUnreachable_fixed : ∀ a0 a1, (dropUnreachable a0 a1).fixed = a0.fixed := by
  intro a0 a1
  unfold dropUnreachable
  simp

@[simp ↓] theorem routeOn_fixed : ∀ a0 a1, (routeOn a0 a1).fixed = a0.fixed := by
  intro a0 a1
  unfold routeOn
  simp

theorem execPacketRoute_fixed : ∀ a0 a1, ∃ t, execPacketRoute a0 a1 = .next t ∧ t.fixed = a1.fixed := by
  intro a0 a1
  refine ⟨_, rfl, ?_⟩
  repeat' first | with_reducible rfl | (simp; done) | split

@[simp ↓] theorem ctlBody_fixed : ∀ a0 a1 a2 a3, (ctlBody a0 a1 a2 a3).fixed = a0.fixed := by
  intro a0 a1 a2 a3
  unfold ctlBody
  repeat' first | with_reducible rfl | (simp; done) | (rw [foldl_fixed]; try (intro _ _)) | split | dsimp only | simp

@[simp ↓] theorem takeLedger_fixed : ∀ a0 a1, (takeLedger a0 a1).fixed = a0.fixed := by
  intro a0 a1
  unfold takeLedger
  simp

@[simp ↓] theorem takeTenant_fixed : ∀ a0 a1 a2, (takeTenant a0 a1 a2).fixed = a0.fixed := by
  intro a0 a1 a2
  unfold takeTenant
  simp

@[simp ↓] theorem takeSession_fixed : ∀ a0 a1 a2, (takeSession a0 a1 a2).fixed = a0.fixed := by
  intro a0 a1 a2
  unfold takeSession
  simp

@[simp ↓] theorem takeEnergy_fixed : ∀ a0 a1, (takeEnergy a0 a1).fixed = a0.fixed := by
  intro a0 a1
  unfold takeEnergy
  simp

@[simp ↓] theorem noteShare_fixed : ∀ a0 a1, (noteShare a0 a1).fixed = a0.fixed := by
  intro a0 a1
  unfold noteShare
  simp

@[simp ↓] theorem fwBody_fixed : ∀ a0 a1, (fwBody a0 a1).fixed = a0.fixed := by
  intro a0 a1
  unfold fwBody
  split <;> simp

theorem execFwPacket_fixed : ∀ a0 a1, ∃ t, execFwPacket a0 a1 = .next t ∧ t.fixed = a1.fixed := by
  intro a0 a1
  refine ⟨_, rfl, ?_⟩
  simp

/-! ### Twin -/

@[simp ↓] theorem pairTo_fixed : ∀ a0 a1, (pairTo a0 a1).fixed = a0.fixed := by
  intro a0 a1
  unfold pairTo
  simp

@[simp ↓] theorem unfence_fixed : ∀ a0 a1, (unfence a0 a1).fixed = a0.fixed := by
  intro a0 a1
  unfold unfence
  simp

theorem execPair_fixed : ∀ a0 a1, ∃ t, execPair a0 a1 = .next t ∧ t.fixed = a1.fixed := by
  intro a0 a1
  refine ⟨_, rfl, ?_⟩
  repeat' first | with_reducible rfl | (simp; done) | split

theorem execPairRetry_fixed : ∀ a0, ∃ t, execPairRetry a0 = .next t ∧ t.fixed = a0.fixed := by
  intro a0
  refine ⟨_, rfl, ?_⟩
  simp

theorem execHeartbeatSend_fixed : ∀ a0, ∃ t, execHeartbeatSend a0 = .next t ∧ t.fixed = a0.fixed := by
  intro a0
  refine ⟨_, rfl, ?_⟩
  repeat' first | with_reducible rfl | (simp; done) | (rw [foldl_fixed]; try (intro _ _)) | split | dsimp only | simp

@[simp ↓] theorem resumePosting_fixed : ∀ a0, (resumePosting a0).fixed = a0.fixed := by
  intro a0
  unfold resumePosting
  repeat' first | with_reducible rfl | (simp; done) | (rw [foldl_fixed]; try (intro _ _)) | split | dsimp only | simp

theorem execHeartbeat_fixed : ∀ a0 a1, ∃ t, execHeartbeat a0 a1 = .next t ∧ t.fixed = a1.fixed := by
  intro a0 a1
  refine ⟨_, rfl, ?_⟩
  simp

theorem execHbMissExpiry_fixed : ∀ a0, ∃ t, execHbMissExpiry a0 = .next t ∧ t.fixed = a0.fixed := by
  intro a0
  refine ⟨_, rfl, ?_⟩
  simp

theorem execProbe_fixed : ∀ a0 a1 a2, ∃ t, execProbe a0 a1 a2 = .next t ∧ t.fixed = a2.fixed := by
  intro a0 a1 a2
  refine ⟨_, rfl, ?_⟩
  simp

theorem execProbeReplyTimeout_fixed : ∀ a0, ∃ t, execProbeReplyTimeout a0 = .next t ∧ t.fixed = a0.fixed := by
  intro a0
  refine ⟨_, rfl, ?_⟩
  repeat' first | with_reducible rfl | (simp; done) | (rw [foldl_fixed]; try (intro _ _)) | split | dsimp only | simp

theorem execProbeNoAnswer_fixed : ∀ a0, ∃ t, execProbeNoAnswer a0 = .next t ∧ t.fixed = a0.fixed := by
  intro a0
  refine ⟨_, rfl, ?_⟩
  split <;> simp

@[simp ↓] theorem failoverEvent_fixed : ∀ a0 a1 a2 a3, (failoverEvent a0 a1 a2 a3).fixed = a0.fixed := by
  intro a0 a1 a2 a3
  unfold failoverEvent
  simp

@[simp ↓] theorem moveChannels_fixed : ∀ a0 a1 a2, (moveChannels a0 a1 a2).fixed = a0.fixed := by
  intro a0 a1 a2
  unfold moveChannels
  simp

@[simp ↓] theorem fenceNode_fixed : ∀ a0 a1, (fenceNode a0 a1).fixed = a0.fixed := by
  intro a0 a1
  unfold fenceNode
  simp

@[simp ↓] theorem resendVerdicts_fixed : ∀ a0 a1, (resendVerdicts a0 a1).fixed = a0.fixed := by
  intro a0 a1
  unfold resendVerdicts
  repeat' first | with_reducible rfl | (simp; done) | (rw [foldl_fixed]; try (intro _ _)) | split | dsimp only | simp

@[simp ↓] theorem roleMoved_fixed : ∀ a0 a1 a2 a3 a4, (roleMoved a0 a1 a2 a3 a4).fixed = a0.fixed := by
  intro a0 a1 a2 a3 a4
  unfold roleMoved
  simp

theorem execRoleMove_fixed : ∀ a0 a1 a2 a3 a4, ∃ t, execRoleMove a0 a1 a2 a3 a4 = .next t ∧ t.fixed = a4.fixed := by
  intro a0 a1 a2 a3 a4
  refine ⟨_, rfl, ?_⟩
  simp

@[simp ↓] theorem adoptMap_fixed : ∀ a0 a1, (adoptMap a0 a1).fixed = a0.fixed := by
  intro a0 a1
  unfold adoptMap
  simp

@[simp ↓] theorem adoptReq_fixed : ∀ a0 a1, (adoptReq a0 a1).fixed = a0.fixed := by
  intro a0 a1
  unfold adoptReq
  repeat' first | with_reducible rfl | (simp; done) | (rw [foldl_fixed]; try (intro _ _)) | split | dsimp only | simp

@[simp ↓] theorem repostTokens_fixed : ∀ a0 a1, (repostTokens a0 a1).fixed = a0.fixed := by
  intro a0 a1
  unfold repostTokens
  simp

@[simp ↓] theorem takeHeats_fixed : ∀ a0 a1, (takeHeats a0 a1).fixed = a0.fixed := by
  intro a0 a1
  unfold takeHeats
  repeat' first | with_reducible rfl | (simp; done) | (rw [foldl_fixed]; try (intro _ _)) | split | dsimp only | simp

@[simp ↓] theorem resumeLaps_fixed : ∀ a0 a1, (resumeLaps a0 a1).fixed = a0.fixed := by
  intro a0 a1
  unfold resumeLaps
  repeat' first | with_reducible rfl | (simp; done) | (rw [foldl_fixed]; try (intro _ _)) | split | dsimp only | simp

@[simp ↓] theorem takeRole_fixed : ∀ a0 a1 a2, (takeRole a0 a1 a2).fixed = a0.fixed := by
  intro a0 a1 a2
  unfold takeRole
  simp

@[simp ↓] theorem declareLost_fixed : ∀ a0, (declareLost a0).fixed = a0.fixed := by
  intro a0
  unfold declareLost
  repeat' first | with_reducible rfl | (simp; done) | (rw [foldl_fixed]; try (intro _ _)) | split | dsimp only | simp

theorem execTwinYield_fixed : ∀ a0 a1, ∃ t, execTwinYield a0 a1 = .next t ∧ t.fixed = a1.fixed := by
  intro a0 a1
  refine ⟨_, rfl, ?_⟩
  simp

theorem execProbeAnswer_fixed : ∀ a0 a1 a2, ∃ t, execProbeAnswer a0 a1 a2 = .next t ∧ t.fixed = a2.fixed := by
  intro a0 a1 a2
  refine ⟨_, rfl, ?_⟩
  simp

theorem execHandoffOk_fixed : ∀ a0 a1 a2, ∃ t, execHandoffOk a0 a1 a2 = .next t ∧ t.fixed = a2.fixed := by
  intro a0 a1 a2
  refine ⟨_, rfl, ?_⟩
  simp

theorem execLapReplay_fixed : ∀ a0 a1 a2 a3, ∃ t, execLapReplay a0 a1 a2 a3 = .next t ∧ t.fixed = a3.fixed := by
  intro a0 a1 a2 a3
  refine ⟨_, rfl, ?_⟩
  simp

theorem execSealMirror_fixed : ∀ a0 a1 a2 a3, ∃ t, execSealMirror a0 a1 a2 a3 = .next t ∧ t.fixed = a3.fixed := by
  intro a0 a1 a2 a3
  refine ⟨_, rfl, ?_⟩
  split <;> simp

theorem execSealMirrorAck_fixed : ∀ a0 a1 a2, ∃ t, execSealMirrorAck a0 a1 a2 = .next t ∧ t.fixed = a2.fixed := by
  intro a0 a1 a2
  refine ⟨_, rfl, ?_⟩
  split <;> simp

theorem execSealQuery_fixed : ∀ a0 a1 a2, ∃ t, execSealQuery a0 a1 a2 = .next t ∧ t.fixed = a2.fixed := by
  intro a0 a1 a2
  refine ⟨_, rfl, ?_⟩
  repeat' first | with_reducible rfl | (simp; done) | split

theorem execSealQueryReply_fixed : ∀ a0 a1 a2 a3 a4, ∃ t, execSealQueryReply a0 a1 a2 a3 a4 = .next t ∧ t.fixed = a4.fixed := by
  intro a0 a1 a2 a3 a4
  refine ⟨_, rfl, ?_⟩
  repeat' first | with_reducible rfl | (simp; done) | split | dsimp only | simp

@[simp ↓] theorem startCopy_fixed : ∀ a0 a1, (startCopy a0 a1).fixed = a0.fixed := by
  intro a0 a1
  unfold startCopy
  repeat' first | with_reducible rfl | (simp; done) | (rw [foldl_fixed]; try (intro _ _)) | split | dsimp only | simp

@[simp ↓] theorem testJoin_fixed : ∀ a0 a1, (testJoin a0 a1).fixed = a0.fixed := by
  intro a0 a1
  unfold testJoin
  simp

theorem execJoin_fixed : ∀ a0 a1, ∃ t, execJoin a0 a1 = .next t ∧ t.fixed = a1.fixed := by
  intro a0 a1
  refine ⟨_, rfl, ?_⟩
  simp

theorem execJoinRetest_fixed : ∀ a0, ∃ t, execJoinRetest a0 = .next t ∧ t.fixed = a0.fixed := by
  intro a0
  refine ⟨_, rfl, ?_⟩
  split <;> simp

@[simp ↓] theorem commitReturn_fixed : ∀ a0 a1, (commitReturn a0 a1).fixed = a0.fixed := by
  intro a0 a1
  unfold commitReturn
  simp

@[simp ↓] theorem startReturn_fixed : ∀ a0, (startReturn a0).fixed = a0.fixed := by
  intro a0
  unfold startReturn
  split <;> simp

@[simp ↓] theorem abortReturn_fixed : ∀ a0 a1, (abortReturn a0 a1).fixed = a0.fixed := by
  intro a0 a1
  unfold abortReturn
  simp

theorem execRejoinCopyDone_fixed : ∀ a0, ∃ t, execRejoinCopyDone a0 = .next t ∧ t.fixed = a0.fixed := by
  intro a0
  refine ⟨_, rfl, ?_⟩
  simp

theorem execRoleReturnRetry_fixed : ∀ a0, ∃ t, execRoleReturnRetry a0 = .next t ∧ t.fixed = a0.fixed := by
  intro a0
  refine ⟨_, rfl, ?_⟩
  split <;> simp

@[simp ↓] theorem returnMap_fixed : ∀ a0 a1, (returnMap a0 a1).fixed = a0.fixed := by
  intro a0 a1
  unfold returnMap
  simp

@[simp ↓] theorem applyReturn_fixed : ∀ a0 a1, (applyReturn a0 a1).fixed = a0.fixed := by
  intro a0 a1
  unfold applyReturn
  repeat' first | with_reducible rfl | (simp; done) | (rw [foldl_fixed]; try (intro _ _)) | split | dsimp only | simp

@[simp ↓] theorem returnDue_fixed : ∀ a0, (returnDue a0).fixed = a0.fixed := by
  intro a0
  unfold returnDue
  repeat' first | with_reducible rfl | (simp; done) | split

@[simp ↓] theorem rolePrepare_fixed : ∀ a0 a1 a2 a3, (rolePrepare a0 a1 a2 a3).fixed = a0.fixed := by
  intro a0 a1 a2 a3
  unfold rolePrepare
  simp

@[simp ↓] theorem roleVote_fixed : ∀ a0 a1 a2 a3 a4, (roleVote a0 a1 a2 a3 a4).fixed = a0.fixed := by
  intro a0 a1 a2 a3 a4
  unfold roleVote
  split <;> simp

theorem execCutPrepare_fixed : ∀ a0 a1 a2 a3 a4 a5, ∃ t, execCutPrepare a0 a1 a2 a3 a4 a5 = .next t ∧ t.fixed = a5.fixed := by
  intro a0 a1 a2 a3 a4 a5
  refine ⟨_, rfl, ?_⟩
  simp

theorem execCutVote_fixed : ∀ a0 a1 a2 a3 a4 a5, ∃ t, execCutVote a0 a1 a2 a3 a4 a5 = .next t ∧ t.fixed = a5.fixed := by
  intro a0 a1 a2 a3 a4 a5
  refine ⟨_, rfl, ?_⟩
  simp

theorem execCutVoteTimeout_fixed : ∀ a0 a1 a2, ∃ t, execCutVoteTimeout a0 a1 a2 = .next t ∧ t.fixed = a2.fixed := by
  intro a0 a1 a2
  refine ⟨_, rfl, ?_⟩
  repeat' first | with_reducible rfl | (simp; done) | split

theorem execCutCommit_fixed : ∀ a0 a1 a2 a3, ∃ t, execCutCommit a0 a1 a2 a3 = .next t ∧ t.fixed = a3.fixed := by
  intro a0 a1 a2 a3
  refine ⟨_, rfl, ?_⟩
  repeat' first | with_reducible rfl | (simp; done) | split

theorem execCutAbort_fixed : ∀ a0 a1 a2, ∃ t, execCutAbort a0 a1 a2 = .next t ∧ t.fixed = a2.fixed := by
  intro a0 a1 a2
  refine ⟨_, rfl, ?_⟩
  repeat' first | with_reducible rfl | (simp; done) | split

theorem execCutTimeout_fixed : ∀ a0 a1 a2, ∃ t, execCutTimeout a0 a1 a2 = .next t ∧ t.fixed = a2.fixed := by
  intro a0 a1 a2
  refine ⟨_, rfl, ?_⟩
  repeat' first | with_reducible rfl | (simp; done) | split

theorem execCtlMsg_fixed : ∀ a0 a1 a2 a3 a4 a5, ∃ t, execCtlMsg a0 a1 a2 a3 a4 a5 = .next t ∧ t.fixed = a5.fixed := by
  intro a0 a1 a2 a3 a4 a5
  refine ⟨_, rfl, ?_⟩
  repeat' first | with_reducible rfl | (simp; done) | (rw [foldl_fixed]; try (intro _ _)) | split | dsimp only | simp

theorem execCheckpoint_fixed : ∀ a0 a1 a2 a3 a4 a5 a6, ∃ t, execCheckpoint a0 a1 a2 a3 a4 a5 a6 = .next t ∧ t.fixed = a6.fixed := by
  intro a0 a1 a2 a3 a4 a5 a6
  refine ⟨_, rfl, ?_⟩
  repeat' first | with_reducible rfl | (simp; done) | split | dsimp only | simp

theorem execLsWaitExpiry_fixed : ∀ a0 a1 a2 a3 a4, ∃ t, execLsWaitExpiry a0 a1 a2 a3 a4 = .next t ∧ t.fixed = a4.fixed := by
  intro a0 a1 a2 a3 a4
  refine ⟨_, rfl, ?_⟩
  repeat' first | with_reducible rfl | (simp; done) | split | dsimp only | simp

/-! ### Energy -/

@[simp ↓] theorem norWrite_fixed : ∀ a0 a1 a2, (norWrite a0 a1 a2).fixed = a0.fixed := by
  intro a0 a1 a2
  unfold norWrite
  simp

@[simp ↓] theorem norErase_fixed : ∀ a0 a1, (norErase a0 a1).fixed = a0.fixed := by
  intro a0 a1
  unfold norErase
  simp

@[simp ↓] theorem bootRecord_fixed : ∀ a0 a1, (bootRecord a0 a1).fixed = a0.fixed := by
  intro a0 a1
  unfold bootRecord
  simp

@[simp ↓] theorem bootMark_fixed : ∀ a0 a1, (bootMark a0 a1).fixed = a0.fixed := by
  intro a0 a1
  unfold bootMark
  simp

@[simp ↓] theorem openMark_fixed : ∀ a0, (openMark a0).fixed = a0.fixed := by
  intro a0
  unfold openMark
  simp

theorem execMeterSample_fixed : ∀ a0 a1 a2 a3 a4, ∃ t, execMeterSample a0 a1 a2 a3 a4 = .next t ∧ t.fixed = a4.fixed := by
  intro a0 a1 a2 a3 a4
  refine ⟨_, rfl, ?_⟩
  simp

theorem execCoefRefit_fixed : ∀ a0 a1, ∃ t, execCoefRefit a0 a1 = .next t ∧ t.fixed = a1.fixed := by
  intro a0 a1
  refine ⟨_, rfl, ?_⟩
  simp

@[simp ↓] theorem State.setChain_fixed : ∀ a0 a1 a2, (State.setChain a0 a1 a2).fixed = a0.fixed := by
  intro a0 a1 a2
  unfold State.setChain
  simp

@[simp ↓] theorem closeBlock_fixed : ∀ a0 a1, (closeBlock a0 a1).fixed = a0.fixed := by
  intro a0 a1
  unfold closeBlock
  simp

@[simp ↓] theorem addReceipt_fixed : ∀ a0 a1 a2, (addReceipt a0 a1 a2).fixed = a0.fixed := by
  intro a0 a1 a2
  unfold addReceipt
  simp

@[simp ↓] theorem closeShare_fixed : ∀ a0 a1 a2 a3, (closeShare a0 a1 a2 a3).1.fixed = a0.fixed := by
  intro a0 a1 a2 a3
  unfold closeShare
  simp

@[simp ↓] theorem closeShares_fixed : ∀ a0 a1 a2, (closeShares a0 a1 a2).fixed = a0.fixed := by
  intro a0 a1 a2
  unfold closeShares
  repeat' first | with_reducible rfl | (simp; done) | (rw [foldl_fixed]; try (intro _ _)) | (rw [foldl_fst_fixed]; try (intro _ _)) | split | dsimp only | simp

@[simp ↓] theorem closeOverhead_fixed : ∀ a0 a1, (closeOverhead a0 a1).fixed = a0.fixed := by
  intro a0 a1
  unfold closeOverhead
  simp

@[simp ↓] theorem trySummary_fixed : ∀ a0 a1, (trySummary a0 a1).fixed = a0.fixed := by
  intro a0 a1
  unfold trySummary
  simp

@[simp ↓] theorem trySummaries_fixed : ∀ a0, (trySummaries a0).fixed = a0.fixed := by
  intro a0
  unfold trySummaries
  repeat' first | with_reducible rfl | (simp; done) | (rw [foldl_fixed]; try (intro _ _)) | split | dsimp only | simp

theorem execShareOpen_fixed : ∀ a0 a1 a2 a3, ∃ t, execShareOpen a0 a1 a2 a3 = .next t ∧ t.fixed = a3.fixed := by
  intro a0 a1 a2 a3
  refine ⟨_, rfl, ?_⟩
  split <;> simp

theorem execShareSigned_fixed : ∀ a0 a1, ∃ t, execShareSigned a0 a1 = .next t ∧ t.fixed = a1.fixed := by
  intro a0 a1
  refine ⟨_, rfl, ?_⟩
  repeat' first | with_reducible rfl | (simp; done) | split | dsimp only | simp

@[simp ↓] theorem receiptSigned_fixed : ∀ a0 a1, (receiptSigned a0 a1).fixed = a0.fixed := by
  intro a0 a1
  unfold receiptSigned
  repeat' first | with_reducible rfl | (simp; done) | split | dsimp only | simp

@[simp ↓] theorem signBlock_fixed : ∀ a0 a1, (signBlock a0 a1).fixed = a0.fixed := by
  intro a0 a1
  unfold signBlock
  repeat' first | with_reducible rfl | (simp; done) | (rw [foldl_fixed]; try (intro _ _)) | split | dsimp only | simp

theorem execBlockClose_fixed : ∀ a0 a1, ∃ t, execBlockClose a0 a1 = .next t ∧ t.fixed = a1.fixed := by
  intro a0 a1
  refine ⟨_, rfl, ?_⟩
  repeat' first | with_reducible rfl | (simp; done) | split | dsimp only | simp

theorem execBlockSigned_fixed : ∀ a0 a1, ∃ t, execBlockSigned a0 a1 = .next t ∧ t.fixed = a1.fixed := by
  intro a0 a1
  refine ⟨_, rfl, ?_⟩
  split <;> simp

@[simp ↓] theorem reconcile_fixed : ∀ a0 a1, (reconcile a0 a1).fixed = a0.fixed := by
  intro a0 a1
  unfold reconcile
  simp

@[simp ↓] theorem proxyShares_fixed : ∀ a0, (proxyShares a0).fixed = a0.fixed := by
  intro a0
  unfold proxyShares
  repeat' first | with_reducible rfl | (simp; done) | (rw [foldl_fixed]; try (intro _ _)) | split | dsimp only | simp

theorem execReconcile_fixed : ∀ a0, ∃ t, execReconcile a0 = .next t ∧ t.fixed = a0.fixed := by
  intro a0
  refine ⟨_, rfl, ?_⟩
  simp

@[simp ↓] theorem signAll_fixed : ∀ a0 a1 a2, (signAll a0 a1 a2).fixed = a1.fixed := by
  intro a0 a1 a2
  induction a0 generalizing a1 a2 with
  | zero =>
    unfold signAll
    simp
  | succ n ih =>
    unfold signAll
    simp [ih]

@[simp ↓] theorem flush_fixed : ∀ a0, (flush a0).fixed = a0.fixed := by
  intro a0
  unfold flush
  repeat' first | with_reducible rfl | (simp; done) | (rw [foldl_fixed]; try (intro _ _)) | split | dsimp only | simp

/-! ### Power -/

@[simp ↓] theorem setFreq_fixed : ∀ a0, (setFreq a0).fixed = a0.fixed := by
  intro a0
  unfold setFreq
  simp

@[simp ↓] theorem sendOffer_fixed : ∀ a0, (sendOffer a0).fixed = a0.fixed := by
  intro a0
  unfold sendOffer
  repeat' first | with_reducible rfl | (simp; done) | (rw [foldl_fixed]; try (intro _ _)) | split | dsimp only | simp

theorem execGovernorTick_fixed : ∀ a0 a1, ∃ t, execGovernorTick a0 a1 = .next t ∧ t.fixed = a1.fixed := by
  intro a0 a1
  refine ⟨_, rfl, ?_⟩
  simp

theorem execFreqOffer_fixed : ∀ a0 a1 a2 a3 a4, ∃ t, execFreqOffer a0 a1 a2 a3 a4 = .next t ∧ t.fixed = a4.fixed := by
  intro a0 a1 a2 a3 a4
  refine ⟨_, rfl, ?_⟩
  simp

theorem execDroopStretch_fixed : ∀ a0 a1 a2 a3, ∃ t, execDroopStretch a0 a1 a2 a3 = .next t ∧ t.fixed = a3.fixed := by
  intro a0 a1 a2 a3
  refine ⟨_, rfl, ?_⟩
  simp

@[simp ↓] theorem powerEvent_fixed : ∀ a0 a1 a2, (powerEvent a0 a1 a2).fixed = a0.fixed := by
  intro a0 a1 a2
  unfold powerEvent
  simp

@[simp ↓] theorem arm_fixed : ∀ a0 a1 a2, (arm a0 a1 a2).fixed = a0.fixed := by
  intro a0 a1 a2
  unfold arm
  simp

@[simp ↓] theorem enterRest_fixed : ∀ a0, (enterRest a0).fixed = a0.fixed := by
  intro a0
  unfold enterRest
  simp

@[simp ↓] theorem goDormant_fixed : ∀ a0, (goDormant a0).fixed = a0.fixed := by
  intro a0
  unfold goDormant
  simp

@[simp ↓] theorem enterLight_fixed : ∀ a0 a1, (enterLight a0 a1).fixed = a0.fixed := by
  intro a0 a1
  unfold enterLight
  simp

@[simp ↓] theorem tellReady_fixed : ∀ a0 a1 a2, (tellReady a0 a1 a2).fixed = a0.fixed := by
  intro a0 a1 a2
  unfold tellReady
  simp

@[simp ↓] theorem lapseReady_fixed : ∀ a0, (lapseReady a0).fixed = a0.fixed := by
  intro a0
  unfold lapseReady
  split <;> simp

theorem execPowerStateChoose_fixed : ∀ a0 a1, ∃ t, execPowerStateChoose a0 a1 = .next t ∧ t.fixed = a1.fixed := by
  intro a0 a1
  refine ⟨_, rfl, ?_⟩
  repeat' first | with_reducible rfl | (simp; done) | split | dsimp only | simp

theorem execRestReady_fixed : ∀ a0 a1 a2 a3, ∃ t, execRestReady a0 a1 a2 a3 = .next t ∧ t.fixed = a3.fixed := by
  intro a0 a1 a2 a3
  refine ⟨_, rfl, ?_⟩
  repeat' first | with_reducible rfl | (simp; done) | (rw [foldl_fixed]; try (intro _ _)) | split | dsimp only | simp

theorem execRestCancel_fixed : ∀ a0 a1, ∃ t, execRestCancel a0 a1 = .next t ∧ t.fixed = a1.fixed := by
  intro a0 a1
  refine ⟨_, rfl, ?_⟩
  simp

theorem execRestGo_fixed : ∀ a0 a1 a2, ∃ t, execRestGo a0 a1 a2 = .next t ∧ t.fixed = a2.fixed := by
  intro a0 a1 a2
  refine ⟨_, rfl, ?_⟩
  simp

@[simp ↓] theorem startLinks_fixed : ∀ a0, (startLinks a0).fixed = a0.fixed := by
  intro a0
  unfold startLinks
  repeat' first | with_reducible rfl | (simp; done) | (rw [foldl_fixed]; try (intro _ _)) | split | dsimp only | simp

@[simp ↓] theorem wakeRun_fixed : ∀ a0, (wakeRun a0).fixed = a0.fixed := by
  intro a0
  unfold wakeRun
  simp

theorem execWakeEvent_fixed : ∀ a0 a1, ∃ t, execWakeEvent a0 a1 = .next t ∧ t.fixed = a1.fixed := by
  intro a0 a1
  refine ⟨_, rfl, ?_⟩
  simp

/-! ### Loader -/

@[simp ↓] theorem bodyMdlBundleLoad_fixed : ∀ a0 a1, (bodyMdlBundleLoad a0 a1).fixed = a0.fixed := by
  intro a0 a1
  unfold bodyMdlBundleLoad
  simp

theorem execMdlBundleLoad_fixed : ∀ a0 a1, ∃ t, execMdlBundleLoad a0 a1 = .next t ∧ t.fixed = a1.fixed := by
  intro a0 a1
  refine ⟨_, rfl, ?_⟩
  repeat' first | with_reducible rfl | (simp; done) | (rw [serveDeferred_fixed]; all_goals try (intros)) | split | dsimp only | simp

@[simp ↓] theorem doneMdlBundleLoad_fixed : ∀ a0 a1 a2, (doneMdlBundleLoad a0 a1 a2).fixed = a0.fixed := by
  intro a0 a1 a2
  unfold doneMdlBundleLoad
  repeat' first | with_reducible rfl | (simp; done) | split | dsimp only | simp

@[simp ↓] theorem bodyMdlBundleUnload_fixed : ∀ a0 a1, (bodyMdlBundleUnload a0 a1).fixed = a0.fixed := by
  intro a0 a1
  unfold bodyMdlBundleUnload
  repeat' first | with_reducible rfl | (simp; done) | split | dsimp only | simp

theorem execMdlBundleUnload_fixed : ∀ a0 a1, ∃ t, execMdlBundleUnload a0 a1 = .next t ∧ t.fixed = a1.fixed := by
  intro a0 a1
  refine ⟨_, rfl, ?_⟩
  repeat' first | with_reducible rfl | (simp; done) | (rw [serve_fixed]; all_goals try (intros)) | split | dsimp only | simp

/-! ### SysMsg -/

@[simp ↓] theorem setCfg_fixed : ∀ a0 a1 a2, (setCfg a0 a1 a2).fixed = a0.fixed := by
  intro a0 a1 a2
  unfold setCfg
  simp

@[simp ↓] theorem applyPlan_fixed : ∀ a0 a1, (applyPlan a0 a1).fixed = a0.fixed := by
  intro a0 a1
  unfold applyPlan
  repeat' first | with_reducible rfl | (simp; done) | (rw [foldl_fixed]; try (intro _ _)) | split | dsimp only | simp

@[simp ↓] theorem applyEntries_fixed : ∀ a0 a1, (applyEntries a0 a1).fixed = a0.fixed := by
  intro a0 a1
  unfold applyEntries
  repeat' first | with_reducible rfl | (simp; done) | (rw [foldl_fixed]; try (intro _ _)) | split | dsimp only | simp

@[simp ↓] theorem bodySysSettingsSet_fixed : ∀ a0 a1, (bodySysSettingsSet a0 a1).fixed = a0.fixed := by
  intro a0 a1
  unfold bodySysSettingsSet
  repeat' first | with_reducible rfl | (simp; done) | split | dsimp only | simp

theorem execSysSettingsSet_fixed : ∀ a0 a1, ∃ t, execSysSettingsSet a0 a1 = .next t ∧ t.fixed = a1.fixed := by
  intro a0 a1
  refine ⟨_, rfl, ?_⟩
  repeat' first | with_reducible rfl | (simp; done) | (rw [serve_fixed]; all_goals try (intros)) | split | dsimp only | simp

@[simp ↓] theorem bodySysSettingsGet_fixed : ∀ a0 a1, (bodySysSettingsGet a0 a1).fixed = a0.fixed := by
  intro a0 a1
  unfold bodySysSettingsGet
  repeat' first | with_reducible rfl | (simp; done) | split | dsimp only | simp

theorem execSysSettingsGet_fixed : ∀ a0 a1, ∃ t, execSysSettingsGet a0 a1 = .next t ∧ t.fixed = a1.fixed := by
  intro a0 a1
  refine ⟨_, rfl, ?_⟩
  repeat' first | with_reducible rfl | (simp; done) | (rw [serve_fixed]; all_goals try (intros)) | split | dsimp only | simp

@[simp ↓] theorem bodySysSettingsCommit_fixed : ∀ a0 a1, (bodySysSettingsCommit a0 a1).fixed = a0.fixed := by
  intro a0 a1
  unfold bodySysSettingsCommit
  simp

theorem execSysSettingsCommit_fixed : ∀ a0 a1, ∃ t, execSysSettingsCommit a0 a1 = .next t ∧ t.fixed = a1.fixed := by
  intro a0 a1
  refine ⟨_, rfl, ?_⟩
  repeat' first | with_reducible rfl | (simp; done) | (rw [serveDeferred_fixed]; all_goals try (intros)) | split | dsimp only | simp

@[simp ↓] theorem doneSysSettingsCommit_fixed : ∀ a0 a1 a2, (doneSysSettingsCommit a0 a1 a2).fixed = a0.fixed := by
  intro a0 a1 a2
  unfold doneSysSettingsCommit
  split <;> simp

@[simp ↓] theorem bodySysCaps_fixed : ∀ a0 a1, (bodySysCaps a0 a1).fixed = a0.fixed := by
  intro a0 a1
  unfold bodySysCaps
  simp

theorem execSysCaps_fixed : ∀ a0 a1, ∃ t, execSysCaps a0 a1 = .next t ∧ t.fixed = a1.fixed := by
  intro a0 a1
  refine ⟨_, rfl, ?_⟩
  repeat' first | with_reducible rfl | (simp; done) | (rw [serve_fixed]; all_goals try (intros)) | split | dsimp only | simp

@[simp ↓] theorem bodySysTenantSet_fixed : ∀ a0 a1, (bodySysTenantSet a0 a1).fixed = a0.fixed := by
  intro a0 a1
  unfold bodySysTenantSet
  simp

theorem execSysTenantSet_fixed : ∀ a0 a1, ∃ t, execSysTenantSet a0 a1 = .next t ∧ t.fixed = a1.fixed := by
  intro a0 a1
  refine ⟨_, rfl, ?_⟩
  repeat' first | with_reducible rfl | (simp; done) | (rw [serve_fixed]; all_goals try (intros)) | split | dsimp only | simp

@[simp ↓] theorem bodySysTenantGet_fixed : ∀ a0 a1, (bodySysTenantGet a0 a1).fixed = a0.fixed := by
  intro a0 a1
  unfold bodySysTenantGet
  simp

theorem execSysTenantGet_fixed : ∀ a0 a1, ∃ t, execSysTenantGet a0 a1 = .next t ∧ t.fixed = a1.fixed := by
  intro a0 a1
  refine ⟨_, rfl, ?_⟩
  repeat' first | with_reducible rfl | (simp; done) | (rw [serve_fixed]; all_goals try (intros)) | split | dsimp only | simp

@[simp ↓] theorem yield__fixed : ∀ a0, (yield_ a0).fixed = a0.fixed := by
  intro a0
  unfold yield_
  split <;> simp

@[simp ↓] theorem postEnds_fixed : ∀ a0, (postEnds a0).fixed = a0.fixed := by
  intro a0
  unfold postEnds
  repeat' first | with_reducible rfl | (simp; done) | (rw [foldl_fixed]; try (intro _ _)) | split | dsimp only | simp

@[simp ↓] theorem warmFirst_fixed : ∀ a0, (warmFirst a0).fixed = a0.fixed := by
  intro a0
  unfold warmFirst
  simp

@[simp ↓] theorem orderReset_fixed : ∀ a0 a1, (orderReset a0 a1).fixed = a0.fixed := by
  intro a0 a1
  unfold orderReset
  simp

@[simp ↓] theorem bodySysReset_fixed : ∀ a0 a1, (bodySysReset a0 a1).fixed = a0.fixed := by
  intro a0 a1
  unfold bodySysReset
  simp

theorem execSysReset_fixed : ∀ a0 a1, ∃ t, execSysReset a0 a1 = .next t ∧ t.fixed = a1.fixed := by
  intro a0 a1
  refine ⟨_, rfl, ?_⟩
  repeat' first | with_reducible rfl | (simp; done) | (rw [serve_fixed]; all_goals try (intros)) | split | dsimp only | simp

@[simp ↓] theorem bodyEngCapSet_fixed : ∀ a0 a1, (bodyEngCapSet a0 a1).fixed = a0.fixed := by
  intro a0 a1
  unfold bodyEngCapSet
  simp

theorem execEngCapSet_fixed : ∀ a0 a1, ∃ t, execEngCapSet a0 a1 = .next t ∧ t.fixed = a1.fixed := by
  intro a0 a1
  refine ⟨_, rfl, ?_⟩
  repeat' first | with_reducible rfl | (simp; done) | (rw [serve_fixed]; all_goals try (intros)) | split | dsimp only | simp

@[simp ↓] theorem bodyEngPaceSet_fixed : ∀ a0 a1, (bodyEngPaceSet a0 a1).fixed = a0.fixed := by
  intro a0 a1
  unfold bodyEngPaceSet
  simp

theorem execEngPaceSet_fixed : ∀ a0 a1, ∃ t, execEngPaceSet a0 a1 = .next t ∧ t.fixed = a1.fixed := by
  intro a0 a1
  refine ⟨_, rfl, ?_⟩
  repeat' first | with_reducible rfl | (simp; done) | (rw [serve_fixed]; all_goals try (intros)) | split | dsimp only | simp

@[simp ↓] theorem bodyEngStatus_fixed : ∀ a0 a1, (bodyEngStatus a0 a1).fixed = a0.fixed := by
  intro a0 a1
  unfold bodyEngStatus
  simp

theorem execEngStatus_fixed : ∀ a0 a1, ∃ t, execEngStatus a0 a1 = .next t ∧ t.fixed = a1.fixed := by
  intro a0 a1
  refine ⟨_, rfl, ?_⟩
  repeat' first | with_reducible rfl | (simp; done) | (rw [serve_fixed]; all_goals try (intros)) | split | dsimp only | simp

@[simp ↓] theorem bodyEngAnnounce_fixed : ∀ a0 a1, (bodyEngAnnounce a0 a1).fixed = a0.fixed := by
  intro a0 a1
  unfold bodyEngAnnounce
  simp

theorem execEngAnnounce_fixed : ∀ a0 a1, ∃ t, execEngAnnounce a0 a1 = .next t ∧ t.fixed = a1.fixed := by
  intro a0 a1
  refine ⟨_, rfl, ?_⟩
  repeat' first | with_reducible rfl | (simp; done) | (rw [serve_fixed]; all_goals try (intros)) | split | dsimp only | simp

@[simp ↓] theorem bodyFabLinkPlan_fixed : ∀ a0 a1, (bodyFabLinkPlan a0 a1).fixed = a0.fixed := by
  intro a0 a1
  unfold bodyFabLinkPlan
  simp

theorem execFabLinkPlan_fixed : ∀ a0 a1, ∃ t, execFabLinkPlan a0 a1 = .next t ∧ t.fixed = a1.fixed := by
  intro a0 a1
  refine ⟨_, rfl, ?_⟩
  repeat' first | with_reducible rfl | (simp; done) | (rw [serveDeferred_fixed]; all_goals try (intros)) | split | dsimp only | simp

@[simp ↓] theorem doneFabLinkPlan_fixed : ∀ a0 a1, (doneFabLinkPlan a0 a1).fixed = a0.fixed := by
  intro a0 a1
  unfold doneFabLinkPlan
  simp

@[simp ↓] theorem bodyFabStatus_fixed : ∀ a0 a1, (bodyFabStatus a0 a1).fixed = a0.fixed := by
  intro a0 a1
  unfold bodyFabStatus
  simp

theorem execFabStatus_fixed : ∀ a0 a1, ∃ t, execFabStatus a0 a1 = .next t ∧ t.fixed = a1.fixed := by
  intro a0 a1
  refine ⟨_, rfl, ?_⟩
  repeat' first | with_reducible rfl | (simp; done) | (rw [serve_fixed]; all_goals try (intros)) | split | dsimp only | simp

@[simp ↓] theorem bodyFabTwinStatus_fixed : ∀ a0 a1, (bodyFabTwinStatus a0 a1).fixed = a0.fixed := by
  intro a0 a1
  unfold bodyFabTwinStatus
  simp

theorem execFabTwinStatus_fixed : ∀ a0 a1, ∃ t, execFabTwinStatus a0 a1 = .next t ∧ t.fixed = a1.fixed := by
  intro a0 a1
  refine ⟨_, rfl, ?_⟩
  repeat' first | with_reducible rfl | (simp; done) | (rw [serve_fixed]; all_goals try (intros)) | split | dsimp only | simp

@[simp ↓] theorem bodyFabLockstepSet_fixed : ∀ a0 a1, (bodyFabLockstepSet a0 a1).fixed = a0.fixed := by
  intro a0 a1
  unfold bodyFabLockstepSet
  simp

theorem execFabLockstepSet_fixed : ∀ a0 a1, ∃ t, execFabLockstepSet a0 a1 = .next t ∧ t.fixed = a1.fixed := by
  intro a0 a1
  refine ⟨_, rfl, ?_⟩
  repeat' first | with_reducible rfl | (simp; done) | (rw [serve_fixed]; all_goals try (intros)) | split | dsimp only | simp

/-! ### ParMsg -/

theorem pickBases_fixed : ∀ a0 a1 a2 a3 r, pickBases a0 a1 a2 a3 = some r → r.2.fixed = a1.fixed := by
  intro a0 a1 a2 a3 r h
  induction a0 generalizing a1 a3 with
  | zero => unfold pickBases at h; cases h; rfl
  | succ n ih =>
    unfold pickBases at h
    dsimp only at h
    split at h
    · exact ih _ _ h
    · split at h
      · rename_i hr
        exact (ih _ _ h).trans (pickOne_fixed _ _ _ hr)
      · cases h

theorem pickBases_fixed' {a0 a1 a2 a3 x s1} (h : pickBases a0 a1 a2 a3 = some (x, s1)) : s1.fixed = a1.fixed := pickBases_fixed _ _ _ _ _ h

@[simp ↓] theorem openDie_fixed : ∀ a0 a1 a2 a3 a4 a5, (openDie a0 a1 a2 a3 a4 a5).fixed = a0.fixed := by
  intro a0 a1 a2 a3 a4 a5
  unfold openDie
  refine ite_fixed (fun _ => rfl) fun _ => ?_
  exact (State.setBdie_fixed _ _ _).trans (pickGet_fixed _ _)

@[simp ↓] theorem bodyParCreate_fixed : ∀ a0 a1, (bodyParCreate a0 a1).fixed = a0.fixed := by
  intro a0 a1
  unfold bodyParCreate
  repeat' first | with_reducible rfl | (simp; done) | (rw [foldl_fixed]; try (intro _ _)) | (rw [foldl_fst_fixed]; try (intro _ _)) | (with_reducible refine (pickBases_fixed' (by with_reducible assumption)).trans ?_) | split | dsimp only | simp

theorem execParCreate_fixed : ∀ a0 a1, ∃ t, execParCreate a0 a1 = .next t ∧ t.fixed = a1.fixed := by
  intro a0 a1
  refine ⟨_, rfl, ?_⟩
  repeat' first | with_reducible rfl | (simp; done) | (rw [serveDeferred_fixed]; all_goals try (intros)) | split | dsimp only | simp

@[simp ↓] theorem doneParCreate_fixed : ∀ a0 a1, (doneParCreate a0 a1).fixed = a0.fixed := by
  intro a0 a1
  unfold doneParCreate
  simp

@[simp ↓] theorem destroyCtxs_fixed : ∀ a0 a1, (destroyCtxs a0 a1).fixed = a0.fixed := by
  intro a0 a1
  unfold destroyCtxs
  simp

@[simp ↓] theorem closeSessions_fixed : ∀ a0 a1, (closeSessions a0 a1).fixed = a0.fixed := by
  intro a0 a1
  unfold closeSessions
  repeat' first | with_reducible rfl | (simp; done) | (rw [foldl_fixed]; try (intro _ _)) | split | dsimp only | simp

@[simp ↓] theorem haltPart_fixed : ∀ a0 a1 a2, (haltPart a0 a1 a2).fixed = a0.fixed := by
  intro a0 a1 a2
  unfold haltPart
  repeat' first | with_reducible rfl | (simp; done) | (rw [foldl_fixed]; try (intro _ _)) | split | dsimp only | simp

@[simp ↓] theorem clearRows_fixed : ∀ a0 a1, (clearRows a0 a1).fixed = a0.fixed := by
  intro a0 a1
  unfold clearRows
  simp

@[simp ↓] theorem clearRings_fixed : ∀ a0 a1, (clearRings a0 a1).fixed = a0.fixed := by
  intro a0 a1
  unfold clearRings
  simp

@[simp ↓] theorem bodyParStop_fixed : ∀ a0 a1, (bodyParStop a0 a1).fixed = a0.fixed := by
  intro a0 a1
  unfold bodyParStop
  simp

theorem execParStop_fixed : ∀ a0 a1, ∃ t, execParStop a0 a1 = .next t ∧ t.fixed = a1.fixed := by
  intro a0 a1
  refine ⟨_, rfl, ?_⟩
  repeat' first | with_reducible rfl | (simp; done) | (rw [serveDeferred_fixed]; all_goals try (intros)) | split | dsimp only | simp

@[simp ↓] theorem bodyParStart_fixed : ∀ a0 a1, (bodyParStart a0 a1).fixed = a0.fixed := by
  intro a0 a1
  unfold bodyParStart
  simp

theorem execParStart_fixed : ∀ a0 a1, ∃ t, execParStart a0 a1 = .next t ∧ t.fixed = a1.fixed := by
  intro a0 a1
  refine ⟨_, rfl, ?_⟩
  repeat' first | with_reducible rfl | (simp; done) | (rw [serveDeferred_fixed]; all_goals try (intros)) | split | dsimp only | simp

@[simp ↓] theorem bodyParReset_fixed : ∀ a0 a1, (bodyParReset a0 a1).fixed = a0.fixed := by
  intro a0 a1
  unfold bodyParReset
  simp

theorem execParReset_fixed : ∀ a0 a1, ∃ t, execParReset a0 a1 = .next t ∧ t.fixed = a1.fixed := by
  intro a0 a1
  refine ⟨_, rfl, ?_⟩
  repeat' first | with_reducible rfl | (simp; done) | (rw [serveDeferred_fixed]; all_goals try (intros)) | split | dsimp only | simp

@[simp ↓] theorem donePar_fixed : ∀ a0 a1, (donePar a0 a1).fixed = a0.fixed := by
  intro a0 a1
  unfold donePar
  simp

@[simp ↓] theorem bodyParDestroy_fixed : ∀ a0 a1, (bodyParDestroy a0 a1).fixed = a0.fixed := by
  intro a0 a1
  unfold bodyParDestroy
  simp

theorem execParDestroy_fixed : ∀ a0 a1, ∃ t, execParDestroy a0 a1 = .next t ∧ t.fixed = a1.fixed := by
  intro a0 a1
  refine ⟨_, rfl, ?_⟩
  repeat' first | with_reducible rfl | (simp; done) | (rw [serve_fixed]; all_goals try (intros)) | split | dsimp only | simp

@[simp ↓] theorem bodyParCtxCreate_fixed : ∀ a0 a1, (bodyParCtxCreate a0 a1).fixed = a0.fixed := by
  intro a0 a1
  unfold bodyParCtxCreate
  repeat' first | with_reducible rfl | (simp; done) | (with_reducible refine (pickOne_fixed' (by with_reducible assumption)).trans ?_) | split | dsimp only | simp

theorem execParCtxCreate_fixed : ∀ a0 a1, ∃ t, execParCtxCreate a0 a1 = .next t ∧ t.fixed = a1.fixed := by
  intro a0 a1
  refine ⟨_, rfl, ?_⟩
  repeat' first | with_reducible rfl | (simp; done) | (rw [serve_fixed]; all_goals try (intros)) | split | dsimp only | simp

@[simp ↓] theorem bodyParCtxDestroy_fixed : ∀ a0 a1, (bodyParCtxDestroy a0 a1).fixed = a0.fixed := by
  intro a0 a1
  unfold bodyParCtxDestroy
  repeat' first | with_reducible rfl | (simp; done) | (rw [foldl_fixed]; try (intro _ _)) | split | dsimp only | simp

theorem execParCtxDestroy_fixed : ∀ a0 a1, ∃ t, execParCtxDestroy a0 a1 = .next t ∧ t.fixed = a1.fixed := by
  intro a0 a1
  refine ⟨_, rfl, ?_⟩
  repeat' first | with_reducible rfl | (simp; done) | (rw [serve_fixed]; all_goals try (intros)) | split | dsimp only | simp

@[simp ↓] theorem bodyParKvFmtSet_fixed : ∀ a0 a1, (bodyParKvFmtSet a0 a1).fixed = a0.fixed := by
  intro a0 a1
  unfold bodyParKvFmtSet
  simp

theorem execParKvFmtSet_fixed : ∀ a0 a1, ∃ t, execParKvFmtSet a0 a1 = .next t ∧ t.fixed = a1.fixed := by
  intro a0 a1
  refine ⟨_, rfl, ?_⟩
  repeat' first | with_reducible rfl | (simp; done) | (rw [serve_fixed]; all_goals try (intros)) | split | dsimp only | simp

theorem freeAny_fixed (s : State) (n : Nat) (free : Nat → Bool) (r : Nat × Bool × State)
    (h : (freeIndex s n free).map (fun r => (r.1, false, r.2)) = some r) : r.2.2.fixed = s.fixed := by
  generalize hk : freeIndex s n free = k at h
  cases k with
  | none => cases h
  | some x => cases h; exact freeIndex_fixed _ _ _ _ hk

theorem takeIndex_fixed : ∀ a0 a1 a2 r, takeIndex a0 a1 a2 = some r → r.2.2.fixed = a0.fixed := by
  intro a0 a1 a2 r h
  unfold takeIndex at h
  dsimp only at h
  split at h
  · exact freeAny_fixed _ _ _ _ h
  · split at h
    · split at h
      · split at h
        · cases h; exact State.setCtx_fixed _ _ _
        · exact freeAny_fixed _ _ _ _ h
      · exact freeAny_fixed _ _ _ _ h
    · split at h
      · cases h; exact State.setCtx_fixed _ _ _
      · cases h

theorem takeIndex_fixed' {a0 a1 a2 x y s1} (h : takeIndex a0 a1 a2 = some (x, y, s1)) : s1.fixed = a0.fixed := takeIndex_fixed _ _ _ _ h

@[simp ↓] theorem bodyReqSubmit_fixed : ∀ a0 a1, (bodyReqSubmit a0 a1).fixed = a0.fixed := by
  intro a0 a1
  unfold bodyReqSubmit
  repeat' first | with_reducible rfl | (simp; done) | (with_reducible refine (takeIndex_fixed' (by with_reducible assumption)).trans ?_) | split | dsimp only | simp

theorem execReqSubmit_fixed : ∀ a0 a1, ∃ t, execReqSubmit a0 a1 = .next t ∧ t.fixed = a1.fixed := by
  intro a0 a1
  refine ⟨_, rfl, ?_⟩
  repeat' first | with_reducible rfl | (simp; done) | (rw [serve_fixed]; all_goals try (intros)) | split | dsimp only | simp

@[simp ↓] theorem bodyReqCancel_fixed : ∀ a0 a1, (bodyReqCancel a0 a1).fixed = a0.fixed := by
  intro a0 a1
  unfold bodyReqCancel
  split <;> simp

theorem execReqCancel_fixed : ∀ a0 a1, ∃ t, execReqCancel a0 a1 = .next t ∧ t.fixed = a1.fixed := by
  intro a0 a1
  refine ⟨_, rfl, ?_⟩
  repeat' first | with_reducible rfl | (simp; done) | (rw [serve_fixed]; all_goals try (intros)) | split | dsimp only | simp

@[simp ↓] theorem bodyReqStatus_fixed : ∀ a0 a1, (bodyReqStatus a0 a1).fixed = a0.fixed := by
  intro a0 a1
  unfold bodyReqStatus
  split <;> simp

theorem execReqStatus_fixed : ∀ a0 a1, ∃ t, execReqStatus a0 a1 = .next t ∧ t.fixed = a1.fixed := by
  intro a0 a1
  refine ⟨_, rfl, ?_⟩
  repeat' first | with_reducible rfl | (simp; done) | (rw [serve_fixed]; all_goals try (intros)) | split | dsimp only | simp

@[simp ↓] theorem bodyReqSessionOpen_fixed : ∀ a0 a1, (bodyReqSessionOpen a0 a1).fixed = a0.fixed := by
  intro a0 a1
  unfold bodyReqSessionOpen
  repeat' first | with_reducible rfl | (simp; done) | (with_reducible refine (freeSess_fixed' (by with_reducible assumption)).trans ?_) | split | dsimp only | simp

theorem execReqSessionOpen_fixed : ∀ a0 a1, ∃ t, execReqSessionOpen a0 a1 = .next t ∧ t.fixed = a1.fixed := by
  intro a0 a1
  refine ⟨_, rfl, ?_⟩
  repeat' first | with_reducible rfl | (simp; done) | (rw [serve_fixed]; all_goals try (intros)) | split | dsimp only | simp

@[simp ↓] theorem bodyReqSessionClose_fixed : ∀ a0 a1, (bodyReqSessionClose a0 a1).fixed = a0.fixed := by
  intro a0 a1
  unfold bodyReqSessionClose
  split <;> simp

theorem execReqSessionClose_fixed : ∀ a0 a1, ∃ t, execReqSessionClose a0 a1 = .next t ∧ t.fixed = a1.fixed := by
  intro a0 a1
  refine ⟨_, rfl, ?_⟩
  repeat' first | with_reducible rfl | (simp; done) | (rw [serve_fixed]; all_goals try (intros)) | split | dsimp only | simp

@[simp ↓] theorem bodyReqPark_fixed : ∀ a0 a1, (bodyReqPark a0 a1).fixed = a0.fixed := by
  intro a0 a1
  unfold bodyReqPark
  split <;> simp

theorem execReqPark_fixed : ∀ a0 a1, ∃ t, execReqPark a0 a1 = .next t ∧ t.fixed = a1.fixed := by
  intro a0 a1
  refine ⟨_, rfl, ?_⟩
  repeat' first | with_reducible rfl | (simp; done) | (rw [serve_fixed]; all_goals try (intros)) | split | dsimp only | simp

/-! ### Boot -/

@[simp ↓] theorem clearDies_fixed : ∀ a0 a1 a2, (clearDies a0 a1 a2).fixed = a0.fixed := by
  intro a0 a1 a2
  unfold clearDies
  simp

@[simp ↓] theorem sampleStraps_fixed : ∀ a0 a1, (sampleStraps a0 a1).fixed = a0.fixed := by
  intro a0 a1
  unfold sampleStraps
  simp

@[simp ↓] theorem packageReset_fixed : ∀ a0, (packageReset a0).fixed = a0.fixed := by
  intro a0
  unfold packageReset
  simp

@[simp ↓] theorem stagesOff_fixed : ∀ a0, (stagesOff a0).fixed = a0.fixed := by
  intro a0
  unfold stagesOff
  simp

@[simp ↓] theorem powerOnReset_fixed : ∀ a0, (powerOnReset a0).fixed = a0.fixed := by
  intro a0
  unfold powerOnReset
  simp

@[simp ↓] theorem warmGens_fixed : ∀ a0 a1, (warmGens a0 a1).fixed = a0.fixed := by
  intro a0 a1
  unfold warmGens
  repeat' first | with_reducible rfl | (simp; done) | (rw [foldl_fixed]; try (intro _ _)) | split | dsimp only | simp

@[simp ↓] theorem warmMap_fixed : ∀ a0 a1, (warmMap a0 a1).fixed = a0.fixed := by
  intro a0 a1
  unfold warmMap
  simp

@[simp ↓] theorem warmTables_fixed : ∀ a0, (warmTables a0).fixed = a0.fixed := by
  intro a0
  unfold warmTables
  repeat' first | with_reducible rfl | (simp; done) | (rw [foldl_fixed]; try (intro _ _)) | split | dsimp only | simp

@[simp ↓] theorem warmReset_fixed : ∀ a0 a1, (warmReset a0 a1).fixed = a0.fixed := by
  intro a0 a1
  unfold warmReset
  simp

theorem execWarmReset_fixed : ∀ a0 a1, ∃ t, execWarmReset a0 a1 = .next t ∧ t.fixed = a1.fixed := by
  intro a0 a1
  refine ⟨_, rfl, ?_⟩
  simp

theorem execCaptainWatchdog_fixed : ∀ a0 a1, ∃ t, execCaptainWatchdog a0 a1 = .next t ∧ t.fixed = a1.fixed := by
  intro a0 a1
  refine ⟨_, rfl, ?_⟩
  simp

theorem execPowerOn_fixed : ∀ a0 a1 a2, ∃ t, execPowerOn a0 a1 a2 = .next t ∧ t.fixed = a2.fixed := by
  intro a0 a1 a2
  refine ⟨_, rfl, ?_⟩
  simp

@[simp ↓] theorem lostCommit_fixed : ∀ a0, (lostCommit a0).fixed = a0.fixed := by
  intro a0
  unfold lostCommit
  simp

theorem execPackageReset_fixed : ∀ a0 a1, ∃ t, execPackageReset a0 a1 = .next t ∧ t.fixed = a1.fixed := by
  intro a0 a1
  refine ⟨_, rfl, ?_⟩
  simp

theorem execPerstAssert_fixed : ∀ a0 a1, ∃ t, execPerstAssert a0 a1 = .next t ∧ t.fixed = a1.fixed := by
  intro a0 a1
  refine ⟨_, rfl, ?_⟩
  simp

theorem execPerstRelease_fixed : ∀ a0 a1, ∃ t, execPerstRelease a0 a1 = .next t ∧ t.fixed = a1.fixed := by
  intro a0 a1
  refine ⟨_, rfl, ?_⟩
  simp

theorem execBootRom_fixed : ∀ a0 a1, ∃ t, execBootRom a0 a1 = .next t ∧ t.fixed = a1.fixed := by
  intro a0 a1
  refine ⟨_, rfl, ?_⟩
  repeat' first | with_reducible rfl | (simp; done) | split

@[simp ↓] theorem checkPlan_fixed : ∀ a0, (checkPlan a0).fixed = a0.fixed := by
  intro a0
  unfold checkPlan
  simp

@[simp ↓] theorem bootEntries_fixed : ∀ a0, (bootEntries a0).fixed = a0.fixed := by
  intro a0
  unfold bootEntries
  repeat' first | with_reducible rfl | (simp; done) | split | dsimp only | simp

@[simp ↓] theorem bootRole_fixed : ∀ a0, (bootRole a0).fixed = a0.fixed := by
  intro a0
  unfold bootRole
  simp

theorem execBootFirmware_fixed : ∀ a0, ∃ t, execBootFirmware a0 = .next t ∧ t.fixed = a0.fixed := by
  intro a0
  refine ⟨_, rfl, ?_⟩
  repeat' first | with_reducible rfl | (simp; done) | split | dsimp only | simp

@[simp ↓] theorem reopenRings_fixed : ∀ a0, (reopenRings a0).fixed = a0.fixed := by
  intro a0
  unfold reopenRings
  refine foldl_fixed _ _ _ fun s p => foldl_fixed _ _ _ fun s d => ?_
  dsimp only
  split
  · refine ite_fixed (fun _ => rfl) fun _ => ?_
    exact (State.setBdie_fixed _ _ _).trans (pickGet_fixed _ _)
  · rfl

theorem execCaptainFirmware_fixed : ∀ a0, ∃ t, execCaptainFirmware a0 = .next t ∧ (t.fixed = a0.fixed ∨ t.fixed = (raiseMinima a0).fixed) := by
  intro a0
  refine ⟨_, rfl, ?_⟩
  rw [settle_fixed]
  split
  · exact .inl rfl
  · split
    · exact .inl rfl
    · refine .inr ?_
      dsimp only
      refine Eq.trans (b := (raiseMinima { a0 with
          power := { a0.power with fieldOn := !a0.entry.flushed, junctionOn := true, portOn := true, resting := false }
          mbx := { a0.mbx with ready := true, resetting := false }
          boot := { a0.boot with stage := 3, captStarted := none, captFails := tdel a0.boot.captFails (b2n a0.boot.captSlot) }
          twin := { a0.twin with hbSeenAt := a0.aon } }).fixed) ?_ rfl
      refine ite_fixed (fun _ => (powerEvent_fixed _ _ _).trans ?_) fun _ => ?_ <;>
      · refine ite_fixed (fun _ => ?_) fun _ => (flood_fixed _).trans ?_ <;>
        · refine (foldl_fixed _ _ _ fun s f => notify_fixed _ _ _ _ _).trans ?_
          exact (startLinks_fixed _).trans (reopenRings_fixed _)

theorem execCaptFail_fixed : ∀ a0, ∃ t, execCaptFail a0 = .next t ∧ t.fixed = a0.fixed := by
  intro a0
  refine ⟨_, rfl, ?_⟩
  split <;> simp

theorem execDormantEntry_fixed : ∀ a0, ∃ t, execDormantEntry a0 = .next t ∧ t.fixed = a0.fixed := by
  intro a0
  refine ⟨_, rfl, ?_⟩
  simp

@[simp ↓] theorem wakeDormant_fixed : ∀ a0, (wakeDormant a0).fixed = a0.fixed := by
  intro a0
  unfold wakeDormant
  simp

theorem execDormantExit_fixed : ∀ a0, ∃ t, execDormantExit a0 = .next t ∧ t.fixed = a0.fixed := by
  intro a0
  refine ⟨_, rfl, ?_⟩
  split <;> simp

@[simp ↓] theorem reloadImage_fixed : ∀ a0 a1 a2 a3, (reloadImage a0 a1 a2 a3).fixed = a0.fixed := by
  intro a0 a1 a2 a3
  unfold reloadImage
  split <;> simp

theorem execGenReloadDone_fixed : ∀ a0 a1 a2 a3, ∃ t, execGenReloadDone a0 a1 a2 a3 = .next t ∧ t.fixed = a3.fixed := by
  intro a0 a1 a2 a3
  refine ⟨_, rfl, ?_⟩
  repeat' first | with_reducible rfl | (simp; done) | (rw [foldl_fixed]; try (intro _ _)) | split | dsimp only | simp

theorem execWakeTimer_fixed : ∀ a0, ∃ t, execWakeTimer a0 = .next t ∧ t.fixed = a0.fixed := by
  intro a0
  refine ⟨_, rfl, ?_⟩
  split <;> simp

@[simp ↓] theorem bodySysWake_fixed : ∀ a0 a1, (bodySysWake a0 a1).fixed = a0.fixed := by
  intro a0 a1
  unfold bodySysWake
  simp

theorem execSysWake_fixed : ∀ a0 a1, ∃ t, execSysWake a0 a1 = .next t ∧ t.fixed = a1.fixed := by
  intro a0 a1
  refine ⟨_, rfl, ?_⟩
  repeat' first | with_reducible rfl | (simp; done) | (rw [serve_fixed]; all_goals try (intros)) | split | dsimp only | simp

/-! ### PowerEntry -/

@[simp ↓] theorem abandonLaps_fixed : ∀ a0, (abandonLaps a0).fixed = a0.fixed := by
  intro a0
  unfold abandonLaps
  repeat' first | with_reducible rfl | (simp; done) | (rw [foldl_fixed]; try (intro _ _)) | split | dsimp only | simp

@[simp ↓] theorem warnAct_fixed : ∀ a0, (warnAct a0).fixed = a0.fixed := by
  intro a0
  unfold warnAct
  simp

theorem execPwrWarn_fixed : ∀ a0 a1, ∃ t, execPwrWarn a0 a1 = .next t ∧ t.fixed = a1.fixed := by
  intro a0 a1
  refine ⟨_, rfl, ?_⟩
  simp

theorem execInputReturn_fixed : ∀ a0, ∃ t, execInputReturn a0 = .next t ∧ t.fixed = a0.fixed := by
  intro a0
  refine ⟨_, rfl, ?_⟩
  simp

theorem execUndervoltageLockout_fixed : ∀ a0, ∃ t, execUndervoltageLockout a0 = .next t ∧ t.fixed = a0.fixed := by
  intro a0
  refine ⟨_, rfl, ?_⟩
  simp

theorem execInputTurnOn_fixed : ∀ a0 a1, ∃ t, execInputTurnOn a0 a1 = .next t ∧ t.fixed = a1.fixed := by
  intro a0 a1
  refine ⟨_, rfl, ?_⟩
  simp

theorem execThermalTrip_fixed : ∀ a0, ∃ t, execThermalTrip a0 = .next t ∧ t.fixed = a0.fixed := by
  intro a0
  refine ⟨_, rfl, ?_⟩
  simp

theorem execOscillatorFailure_fixed : ∀ a0, ∃ t, execOscillatorFailure a0 = .next t ∧ t.fixed = a0.fixed := by
  intro a0
  refine ⟨_, rfl, ?_⟩
  simp

/-! ### Registers -/

@[simp ↓] theorem coreHalt_fixed : ∀ a0 a1 a2, (coreHalt a0 a1 a2).fixed = a0.fixed := by
  intro a0 a1 a2
  unfold coreHalt
  simp

@[simp ↓] theorem stepEnds_fixed : ∀ a0 a1, (stepEnds a0 a1).fixed = a0.fixed := by
  intro a0 a1
  unfold stepEnds
  simp

@[simp ↓] theorem coreStep_fixed : ∀ a0 a1 a2, (coreStep a0 a1 a2).fixed = a0.fixed := by
  intro a0 a1 a2
  unfold coreStep
  simp

@[simp ↓] theorem captHalt_fixed : ∀ a0 a1 a2, (captHalt a0 a1 a2).fixed = a0.fixed := by
  intro a0 a1 a2
  unfold captHalt
  simp

@[simp ↓] theorem captStep_fixed : ∀ a0 a1, (captStep a0 a1).fixed = a0.fixed := by
  intro a0 a1
  unfold captStep
  simp

@[simp ↓] theorem flashErase_fixed : ∀ a0 a1, (flashErase a0 a1).fixed = a0.fixed := by
  intro a0 a1
  unfold flashErase
  simp

@[simp ↓] theorem dbgWhistle_fixed : ∀ a0 a1, (dbgWhistle a0 a1).fixed = a0.fixed := by
  intro a0 a1
  unfold dbgWhistle
  simp

@[simp ↓] theorem dbgWrite_fixed : ∀ a0 a1 a2, (dbgWrite a0 a1 a2).fixed = a0.fixed := by
  intro a0 a1 a2
  unfold dbgWrite
  simp

@[simp ↓] theorem slotCtrl_fixed : ∀ a0 a1 a2 a3, (slotCtrl a0 a1 a2 a3).fixed = a0.fixed := by
  intro a0 a1 a2 a3
  unfold slotCtrl
  split <;> simp

@[simp ↓] theorem coreCtrl_fixed : ∀ a0 a1 a2, (coreCtrl a0 a1 a2).fixed = a0.fixed := by
  intro a0 a1 a2
  unfold coreCtrl
  simp

@[simp ↓] theorem coreWrite_fixed : ∀ a0 a1 a2 a3, (coreWrite a0 a1 a2 a3).fixed = a0.fixed := by
  intro a0 a1 a2 a3
  unfold coreWrite
  simp

@[simp ↓] theorem firePending_fixed : ∀ a0 a1 a2, (firePending a0 a1 a2).fixed = a0.fixed := by
  intro a0 a1 a2
  unfold firePending
  simp

@[simp ↓] theorem evtReturn_fixed : ∀ a0 a1 a2, (evtReturn a0 a1 a2).fixed = a0.fixed := by
  intro a0 a1 a2
  unfold evtReturn
  simp

@[simp ↓] theorem mbxWrite_fixed : ∀ a0 a1 a2 a3, (mbxWrite a0 a1 a2 a3).fixed = a0.fixed := by
  intro a0 a1 a2 a3
  unfold mbxWrite
  simp

@[simp ↓] theorem bar0Write_fixed : ∀ a0 a1 a2 a3 a4, (bar0Write a0 a1 a2 a3 a4).fixed = a0.fixed := by
  intro a0 a1 a2 a3 a4
  unfold bar0Write
  repeat' first | with_reducible rfl | (simp; done) | (rw [foldl_fixed]; try (intro _ _)) | split | dsimp only | simp

@[simp ↓] theorem clearStats_fixed : ∀ a0 a1 a2, (clearStats a0 a1 a2).fixed = a0.fixed := by
  intro a0 a1 a2
  unfold clearStats
  simp

@[simp ↓] theorem clearRc_fixed : ∀ a0 a1, (clearRc a0 a1).fixed = a0.fixed := by
  intro a0 a1
  unfold clearRc
  split <;> simp

@[simp ↓] theorem cfgWrite_fixed : ∀ a0 a1 a2, (cfgWrite a0 a1 a2).fixed = a0.fixed := by
  intro a0 a1 a2
  unfold cfgWrite
  repeat' first | with_reducible rfl | (simp; done) | (rw [foldl_fixed]; try (intro _ _)) | split | dsimp only | simp

@[simp ↓] theorem regWrite_fixed : ∀ a0 a1 a2 a3, (regWrite a0 a1 a2 a3).fixed = a0.fixed := by
  intro a0 a1 a2 a3
  unfold regWrite
  split <;> simp

theorem execRegisterWrite_fixed : ∀ a0 a1 a2 a3, ∃ t, execRegisterWrite a0 a1 a2 a3 = .next t ∧ t.fixed = a3.fixed := by
  intro a0 a1 a2 a3
  refine ⟨_, rfl, ?_⟩
  simp

theorem execRcRegisterRead_fixed : ∀ a0 a1 a2, ∃ t, execRcRegisterRead a0 a1 a2 = .next t ∧ t.fixed = a2.fixed := by
  intro a0 a1 a2
  refine ⟨_, rfl, ?_⟩
  repeat' first | with_reducible rfl | (simp; done) | split

/-! ### Debug -/

@[simp ↓] theorem tapIr_fixed : ∀ a0 a1, (tapIr a0 a1).fixed = a0.fixed := by
  intro a0 a1
  unfold tapIr
  simp

@[simp ↓] theorem tdo_fixed : ∀ a0 a1, (tdo a0 a1).fixed = a0.fixed := by
  intro a0 a1
  unfold tdo
  simp

@[simp ↓] theorem sampled_fixed : ∀ a0 a1, (sampled a0 a1).fixed = a0.fixed := by
  intro a0 a1
  unfold sampled
  simp

theorem execExtest_fixed : ∀ a0 a1, ∃ t, execExtest a0 a1 = .next t ∧ t.fixed = a1.fixed := by
  intro a0 a1
  refine ⟨_, rfl, ?_⟩
  simp

theorem execSamplePreload_fixed : ∀ a0 a1, ∃ t, execSamplePreload a0 a1 = .next t ∧ t.fixed = a1.fixed := by
  intro a0 a1
  refine ⟨_, rfl, ?_⟩
  simp

theorem execIdcode_fixed : ∀ a0, ∃ t, execIdcode a0 = .next t ∧ t.fixed = a0.fixed := by
  intro a0
  refine ⟨_, rfl, ?_⟩
  simp

theorem execTapStatus_fixed : ∀ a0, ∃ t, execTapStatus a0 = .next t ∧ t.fixed = a0.fixed := by
  intro a0
  refine ⟨_, rfl, ?_⟩
  simp

theorem execBypass_fixed : ∀ a0 a1 a2, ∃ t, execBypass a0 a1 a2 = .next t ∧ t.fixed = a2.fixed := by
  intro a0 a1 a2
  refine ⟨_, rfl, ?_⟩
  simp

theorem execUnlockChal_fixed : ∀ a0, ∃ t, execUnlockChal a0 = .next t ∧ t.fixed = a0.fixed := by
  intro a0
  refine ⟨_, rfl, ?_⟩
  simp

theorem execUnlockResp_fixed : ∀ a0 a1, ∃ t, execUnlockResp a0 a1 = .next t ∧ t.fixed = a1.fixed := by
  intro a0 a1
  refine ⟨_, rfl, ?_⟩
  simp

theorem execLock_fixed : ∀ a0, ∃ t, execLock a0 = .next t ∧ t.fixed = a0.fixed := by
  intro a0
  refine ⟨_, rfl, ?_⟩
  simp

theorem execApacc_fixed : ∀ a0 a1, ∃ t, execApacc a0 a1 = .next t ∧ t.fixed = a1.fixed := by
  intro a0 a1
  refine ⟨_, rfl, ?_⟩
  simp

theorem ite_fst_fixed {β : Type} {c : Prop} [Decidable c] {a b : State × β} {x} (h1 : c → a.1.fixed = x) (h2 : ¬c → b.1.fixed = x) :
    (if c then a else b).1.fixed = x := by
  split
  · exact h1 ‹_›
  · exact h2 ‹_›

theorem coreWrite_settle_fixed (s : State) (c off n v : Nat) (r : Word64) : (settle (coreWrite s c (off / 8 * 8) (mergeWord r (keepBits off) off n v))).fixed = s.fixed :=
  (settle_fixed _).trans (coreWrite_fixed _ _ _ _)
theorem apCore_fixed (s : State) (kind c off n : Nat) (w : Bool) (v : Nat) : (apCore s kind c off n w v).1.fixed = s.fixed := by
  delta apCore
  dsimp only
  generalize hS : settle (coreWrite s c (off / 8 * 8) (mergeWord (coreReg s c off) (keepBits off) off n v)) = S
  have h : S.fixed = s.fixed := by rw [← hS]; exact coreWrite_settle_fixed _ _ _ _ _ _
  clear hS
  refine ite_fst_fixed (fun _ => Eq.trans rfl rfl) fun _ => ite_fst_fixed (fun _ => Eq.trans rfl rfl) fun _ => ?_
  rcases kind with _ | _ | kind <;> cases w
  · exact Eq.trans rfl rfl
  · exact State.setCore_fixed _ _ _
  · exact Eq.trans rfl rfl
  · exact h
  · exact Eq.trans rfl rfl
  · exact State.setCore_fixed _ _ _

theorem apNear_fixed (s : State) (a n : Nat) (w : Bool) (v : Nat) : (apNear s a n w v).1.fixed = s.fixed := by
  unfold apNear
  dsimp only
  refine ite_fst_fixed (fun _ => rfl) fun _ => ite_fst_fixed (fun _ => rfl) fun _ => ite_fst_fixed (fun _ => ?_) fun _ => rfl
  exact ite_fst_fixed (fun _ => rfl) fun _ => (stackWrite_fixed _ _ _ _ _ _ _)

theorem apNor_fixed (s : State) (a n : Nat) (w : Bool) (v : Nat) : (apNor s a n w v).1.fixed = s.fixed := by
  unfold apNor
  dsimp only
  refine ite_fst_fixed (fun _ => rfl) fun _ => ite_fst_fixed (fun _ => ?_) fun _ => ite_fst_fixed (fun _ => rfl) fun _ => rfl
  refine ite_fst_fixed (fun _ => rfl) fun _ => ?_
  dsimp only
  split
  · exact Eq.trans (b := (norWrite s a (leBytes 8 v)).fixed) rfl (norWrite_fixed _ _ _)
  · exact norWrite_fixed _ _ _

theorem apCaptain_fixed (s : State) (c a n : Nat) (w : Bool) (v : Nat) : (apCaptain s c a n w v).1.fixed = s.fixed := by
  unfold apCaptain
  dsimp only
  refine ite_fst_fixed (fun _ => rfl) fun _ => ite_fst_fixed (fun _ => State.setCapt_fixed _ _ _) fun _ => rfl

theorem apAccess_fixed (s : State) (x : Access) : (apAccess s x).1.fixed = s.fixed := by
  unfold apAccess
  dsimp only
  refine ite_fst_fixed (fun _ => rfl) fun _ => ite_fst_fixed (fun _ => apCore_fixed _ _ _ _ _ _ _) fun _ => ?_
  refine ite_fst_fixed (fun _ => apCore_fixed _ _ _ _ _ _ _) fun _ => ite_fst_fixed (fun _ => apCore_fixed _ _ _ _ _ _ _) fun _ => ?_
  refine ite_fst_fixed (fun _ => ?_) fun _ => ?_
  · exact ite_fst_fixed (fun _ => rfl) fun _ => ite_fst_fixed (fun _ => State.setStarter_fixed _ _ _) fun _ => rfl
  refine ite_fst_fixed (fun _ => apNear_fixed _ _ _ _ _) fun _ => ite_fst_fixed (fun _ => ?_) fun _ => ?_
  · exact ite_fst_fixed (fun _ => rfl) fun _ => ite_fst_fixed (fun _ => rfl) fun _ => rfl
  refine ite_fst_fixed (fun _ => apCaptain_fixed _ _ _ _ _ _) fun _ => ite_fst_fixed (fun _ => ?_) fun _ => ?_
  · exact ite_fst_fixed (fun _ => rfl) fun _ => ite_fst_fixed (fun _ => rfl) fun _ => rfl
  refine ite_fst_fixed (fun _ => apNor_fixed _ _ _ _ _) fun _ => ite_fst_fixed (fun _ => ?_) fun _ => rfl
  refine ite_fst_fixed (fun _ => ?_) fun _ => clearRc_fixed _ _
  exact ite_fst_fixed (fun _ => rfl) fun _ => dbgWrite_fixed _ _ _

theorem execApaccAccessDone_fixed : ∀ a0, ∃ t, execApaccAccessDone a0 = .next t ∧ t.fixed = a0.fixed := by
  intro a0
  refine ⟨_, rfl, ?_⟩
  split
  · rfl
  · exact Eq.trans rfl (apAccess_fixed _ _)

theorem execCoreHalt_fixed : ∀ a0 a1 a2, ∃ t, execCoreHalt a0 a1 a2 = .next t ∧ t.fixed = a2.fixed := by
  intro a0 a1 a2
  refine ⟨_, rfl, ?_⟩
  simp

theorem execCoreStep_fixed : ∀ a0 a1 a2, ∃ t, execCoreStep a0 a1 a2 = .next t ∧ t.fixed = a2.fixed := by
  intro a0 a1 a2
  refine ⟨_, rfl, ?_⟩
  simp

theorem execCaptHalt_fixed : ∀ a0 a1 a2, ∃ t, execCaptHalt a0 a1 a2 = .next t ∧ t.fixed = a2.fixed := by
  intro a0 a1 a2
  refine ⟨_, rfl, ?_⟩
  simp

theorem execCaptStep_fixed : ∀ a0 a1, ∃ t, execCaptStep a0 a1 = .next t ∧ t.fixed = a1.fixed := by
  intro a0 a1
  refine ⟨_, rfl, ?_⟩
  simp

theorem execCaptBreakpoint_fixed : ∀ a0 a1 a2, ∃ t, execCaptBreakpoint a0 a1 a2 = .next t ∧ t.fixed = a2.fixed := by
  intro a0 a1 a2
  refine ⟨_, rfl, ?_⟩
  simp

theorem execFlashErase_fixed : ∀ a0 a1, ∃ t, execFlashErase a0 a1 = .next t ∧ t.fixed = a1.fixed := by
  intro a0 a1
  refine ⟨_, rfl, ?_⟩
  simp

theorem execFlashEraseDone_fixed : ∀ a0, ∃ t, execFlashEraseDone a0 = .next t ∧ t.fixed = a0.fixed := by
  intro a0
  refine ⟨_, rfl, ?_⟩
  simp

theorem execTapWhistle_fixed : ∀ a0 a1, ∃ t, execTapWhistle a0 a1 = .next t ∧ t.fixed = a1.fixed := by
  intro a0 a1
  refine ⟨_, rfl, ?_⟩
  simp

theorem execWhistleRegBlow_fixed : ∀ a0 a1, ∃ t, execWhistleRegBlow a0 a1 = .next t ∧ t.fixed = a1.fixed := by
  intro a0 a1
  refine ⟨_, rfl, ?_⟩
  simp

theorem execWhistleRegRelease_fixed : ∀ a0, ∃ t, execWhistleRegRelease a0 = .next t ∧ t.fixed = a0.fixed := by
  intro a0
  refine ⟨_, rfl, ?_⟩
  simp

theorem execWhistle_fixed : ∀ a0 a1 a2 a3 a4, ∃ t, execWhistle a0 a1 a2 a3 a4 = .next t ∧ t.fixed = a4.fixed := by
  intro a0 a1 a2 a3 a4
  refine ⟨_, rfl, ?_⟩
  simp

theorem execWhistleNote_fixed : ∀ a0 a1 a2 a3, ∃ t, execWhistleNote a0 a1 a2 a3 = .next t ∧ t.fixed = a3.fixed := by
  intro a0 a1 a2 a3
  refine ⟨_, rfl, ?_⟩
  simp

theorem execWhistleRelease_fixed : ∀ a0 a1 a2, ∃ t, execWhistleRelease a0 a1 a2 = .next t ∧ t.fixed = a2.fixed := by
  intro a0 a1 a2
  refine ⟨_, rfl, ?_⟩
  simp

@[simp ↓] theorem bodyDbgWhistle_fixed : ∀ a0 a1, (bodyDbgWhistle a0 a1).fixed = a0.fixed := by
  intro a0 a1
  unfold bodyDbgWhistle
  simp

theorem execDbgWhistle_fixed : ∀ a0 a1, ∃ t, execDbgWhistle a0 a1 = .next t ∧ t.fixed = a1.fixed := by
  intro a0 a1
  refine ⟨_, rfl, ?_⟩
  repeat' first | with_reducible rfl | (simp; done) | (rw [serve_fixed]; all_goals try (intros)) | split | dsimp only | simp

theorem execScoreboardImageReady_fixed : ∀ a0, ∃ t, execScoreboardImageReady a0 = .next t ∧ t.fixed = a0.fixed := by
  intro a0
  refine ⟨_, rfl, ?_⟩
  simp

@[simp ↓] theorem bodyDbgScoreboard_fixed : ∀ a0 a1, (bodyDbgScoreboard a0 a1).fixed = a0.fixed := by
  intro a0 a1
  unfold bodyDbgScoreboard
  split <;> simp

theorem execDbgScoreboard_fixed : ∀ a0 a1, ∃ t, execDbgScoreboard a0 a1 = .next t ∧ t.fixed = a1.fixed := by
  intro a0 a1
  refine ⟨_, rfl, ?_⟩
  repeat' first | with_reducible rfl | (simp; done) | (rw [serve_fixed]; all_goals try (intros)) | split | dsimp only | simp

theorem execScanout_fixed : ∀ a0, ∃ t, execScanout a0 = .next t ∧ t.fixed = a0.fixed := by
  intro a0
  refine ⟨_, rfl, ?_⟩
  simp

@[simp ↓] theorem bodyDbgTensorWatch_fixed : ∀ a0 a1, (bodyDbgTensorWatch a0 a1).fixed = a0.fixed := by
  intro a0 a1
  unfold bodyDbgTensorWatch
  simp

theorem execDbgTensorWatch_fixed : ∀ a0 a1, ∃ t, execDbgTensorWatch a0 a1 = .next t ∧ t.fixed = a1.fixed := by
  intro a0 a1
  refine ⟨_, rfl, ?_⟩
  repeat' first | with_reducible rfl | (simp; done) | (rw [serve_fixed]; all_goals try (intros)) | split | dsimp only | simp

theorem execTensorWatchFire_fixed : ∀ a0 a1 a2 a3 a4 a5 a6 a7 a8 a9, ∃ t, execTensorWatchFire a0 a1 a2 a3 a4 a5 a6 a7 a8 a9 = .next t ∧ t.fixed = a9.fixed := by
  intro a0 a1 a2 a3 a4 a5 a6 a7 a8 a9
  refine ⟨_, rfl, ?_⟩
  split <;> simp

end Sys2Proof.Machine
end

