-- ==== Sys2Proof/Laws/FixedStep.lean ====
section
/-!
SUPPORT. The fuses and the waiting commands are kept: the remaining rows, every command (`exec_keeps`) and the idle step. Only the captain
firmware's start raises the two version minima (`raiseMinima`).
-/

set_option maxRecDepth 4000
set_option linter.unusedTactic false
set_option linter.unreachableTactic false
set_option linter.unusedSimpArgs false

namespace Sys2Proof.Machine

/-! ### Mailbox -/

@[simp ↓] theorem sysBody_fixed : ∀ a0 a1 a2, (sysBody a0 a1 a2).fixed = a1.fixed := by
  intro a0 a1 a2
  unfold sysBody
  split <;> simp

@[simp ↓] theorem mdlBody_fixed : ∀ a0 a1 a2, (mdlBody a0 a1 a2).fixed = a1.fixed := by
  intro a0 a1 a2
  unfold mdlBody
  split <;> simp

@[simp ↓] theorem reqBody_fixed : ∀ a0 a1 a2, (reqBody a0 a1 a2).fixed = a1.fixed := by
  intro a0 a1 a2
  unfold reqBody
  split <;> simp

@[simp ↓] theorem bodyOf_fixed : ∀ a0 a1 a2, (bodyOf a0 a1 a2).fixed = a1.fixed := by
  intro a0 a1 a2
  unfold bodyOf
  repeat' first | with_reducible rfl | (simp; done) | split

@[simp ↓] theorem command_fixed : ∀ a0 a1 a2, (command a0 a1 a2).fixed = a0.fixed := by
  intro a0 a1 a2
  unfold command
  repeat' first | with_reducible rfl | (simp; done) | (rw [serve_fixed]; all_goals try (intros)) | (rw [serveDeferred_fixed]; all_goals try (intros)) | split | dsimp only | simp

theorem execTirCreate_fixed : ∀ a0 a1, ∃ t, execTirCreate a0 a1 = .next t ∧ t.fixed = a1.fixed := by
  intro a0 a1
  refine ⟨_, rfl, ?_⟩
  repeat' first | with_reducible rfl | (simp; done) | (rw [serve_fixed]; all_goals try (intros)) | split | dsimp only | simp

theorem execTirWrite_fixed : ∀ a0 a1, ∃ t, execTirWrite a0 a1 = .next t ∧ t.fixed = a1.fixed := by
  intro a0 a1
  refine ⟨_, rfl, ?_⟩
  repeat' first | with_reducible rfl | (simp; done) | (rw [serveDeferred_fixed]; all_goals try (intros)) | split | dsimp only | simp

theorem execTirRead_fixed : ∀ a0 a1, ∃ t, execTirRead a0 a1 = .next t ∧ t.fixed = a1.fixed := by
  intro a0 a1
  refine ⟨_, rfl, ?_⟩
  repeat' first | with_reducible rfl | (simp; done) | (rw [serveDeferred_fixed]; all_goals try (intros)) | split | dsimp only | simp

theorem execTirSeal_fixed : ∀ a0 a1, ∃ t, execTirSeal a0 a1 = .next t ∧ t.fixed = a1.fixed := by
  intro a0 a1
  refine ⟨_, rfl, ?_⟩
  repeat' first | with_reducible rfl | (simp; done) | (rw [serve_fixed]; all_goals try (intros)) | split | dsimp only | simp

theorem execTirDelete_fixed : ∀ a0 a1, ∃ t, execTirDelete a0 a1 = .next t ∧ t.fixed = a1.fixed := by
  intro a0 a1
  refine ⟨_, rfl, ?_⟩
  repeat' first | with_reducible rfl | (simp; done) | (rw [serve_fixed]; all_goals try (intros)) | split | dsimp only | simp

theorem execTirStatus_fixed : ∀ a0 a1, ∃ t, execTirStatus a0 a1 = .next t ∧ t.fixed = a1.fixed := by
  intro a0 a1
  refine ⟨_, rfl, ?_⟩
  repeat' first | with_reducible rfl | (simp; done) | (rw [serve_fixed]; all_goals try (intros)) | split | dsimp only | simp

theorem execMemRead_fixed : ∀ a0 a1, ∃ t, execMemRead a0 a1 = .next t ∧ t.fixed = a1.fixed := by
  intro a0 a1
  refine ⟨_, rfl, ?_⟩
  repeat' first | with_reducible rfl | (simp; done) | (rw [serveDeferred_fixed]; all_goals try (intros)) | split | dsimp only | simp

theorem execMemWrite_fixed : ∀ a0 a1, ∃ t, execMemWrite a0 a1 = .next t ∧ t.fixed = a1.fixed := by
  intro a0 a1
  refine ⟨_, rfl, ?_⟩
  repeat' first | with_reducible rfl | (simp; done) | (rw [serveDeferred_fixed]; all_goals try (intros)) | split | dsimp only | simp

@[simp ↓] theorem takeSlotAt_fixed : ∀ a0 a1, (takeSlotAt a0 a1).fixed = a0.fixed := by
  intro a0 a1
  unfold takeSlotAt
  simp

theorem execCmdSlotTake_fixed : ∀ a0 a1 a2, ∃ t, execCmdSlotTake a0 a1 a2 = .next t ∧ t.fixed = a2.fixed := by
  intro a0 a1 a2
  refine ⟨_, rfl, ?_⟩
  simp

theorem execEvtSlotReturn_fixed : ∀ a0 a1 a2, ∃ t, execEvtSlotReturn a0 a1 a2 = .next t ∧ t.fixed = a2.fixed := by
  intro a0 a1 a2
  refine ⟨_, rfl, ?_⟩
  simp

theorem execCoalInterval_fixed : ∀ a0 a1 a2, ∃ t, execCoalInterval a0 a1 a2 = .next t ∧ t.fixed = a2.fixed := by
  intro a0 a1 a2
  refine ⟨_, rfl, ?_⟩
  repeat' first | with_reducible rfl | (simp; done) | split | dsimp only | simp

@[simp ↓] theorem looseWindows_fixed : ∀ a0 a1 a2, (looseWindows a0 a1 a2).fixed = a0.fixed := by
  intro a0 a1 a2
  unfold looseWindows
  simp

@[simp ↓] theorem resetSlot_fixed : ∀ a0 a1 a2, (resetSlot a0 a1 a2).fixed = a0.fixed := by
  intro a0 a1 a2
  unfold resetSlot
  simp

@[simp ↓] theorem resetPart_fixed : ∀ a0 a1, (resetPart a0 a1).fixed = a0.fixed := by
  intro a0 a1
  unfold resetPart
  repeat' first | with_reducible rfl | (simp; done) | (rw [foldl_fixed]; try (intro _ _)) | split | dsimp only | simp

@[simp ↓] theorem fnReset_fixed : ∀ a0 a1 a2, (fnReset a0 a1 a2).fixed = a0.fixed := by
  intro a0 a1 a2
  unfold fnReset
  repeat' first | with_reducible rfl | (simp; done) | (rw [foldl_fixed]; try (intro _ _)) | split | dsimp only | simp

theorem execFlr_fixed : ∀ a0 a1, ∃ t, execFlr a0 a1 = .next t ∧ t.fixed = a1.fixed := by
  intro a0 a1
  refine ⟨_, rfl, ?_⟩
  simp

theorem execHotReset_fixed : ∀ a0, ∃ t, execHotReset a0 = .next t ∧ t.fixed = a0.fixed := by
  intro a0
  refine ⟨_, rfl, ?_⟩
  repeat' first | with_reducible rfl | (simp; done) | (rw [foldl_fixed]; try (intro _ _)) | split | dsimp only | simp

theorem execVfDisable_fixed : ∀ a0 a1, ∃ t, execVfDisable a0 a1 = .next t ∧ t.fixed = a1.fixed := by
  intro a0 a1
  refine ⟨_, rfl, ?_⟩
  repeat' first | with_reducible rfl | (simp; done) | (rw [foldl_fixed]; try (intro _ _)) | split | dsimp only | simp

theorem execVfEnable_fixed : ∀ a0 a1, ∃ t, execVfEnable a0 a1 = .next t ∧ t.fixed = a1.fixed := by
  intro a0 a1
  refine ⟨_, rfl, ?_⟩
  repeat' first | with_reducible rfl | (simp; done) | (rw [foldl_fixed]; try (intro _ _)) | split | dsimp only | simp

theorem execHostLinkTrained_fixed : ∀ a0 a1 a2, ∃ t, execHostLinkTrained a0 a1 a2 = .next t ∧ t.fixed = a2.fixed := by
  intro a0 a1 a2
  refine ⟨_, rfl, ?_⟩
  simp

theorem execSidebandMessage_fixed : ∀ a0 a1 a2, ∃ t, execSidebandMessage a0 a1 a2 = .next t ∧ t.fixed = a2.fixed := by
  intro a0 a1 a2
  refine ⟨_, rfl, ?_⟩
  simp

@[simp ↓] theorem spdmSay_fixed : ∀ a0 a1 a2 a3, (spdmSay a0 a1 a2 a3).fixed = a0.fixed := by
  intro a0 a1 a2 a3
  unfold spdmSay
  simp

@[simp ↓] theorem spdmSigned_fixed : ∀ a0 a1 a2 a3 a4, (spdmSigned a0 a1 a2 a3 a4).fixed = a0.fixed := by
  intro a0 a1 a2 a3 a4
  unfold spdmSigned
  simp

@[simp ↓] theorem spdmAnswer_fixed : ∀ a0 a1 a2, (spdmAnswer a0 a1 a2).fixed = a0.fixed := by
  intro a0 a1 a2
  unfold spdmAnswer
  repeat' first | with_reducible rfl | (simp; done) | split

theorem execSpdmRequest_fixed : ∀ a0 a1 a2, ∃ t, execSpdmRequest a0 a1 a2 = .next t ∧ t.fixed = a2.fixed := by
  intro a0 a1 a2
  refine ⟨_, rfl, ?_⟩
  simp

@[simp ↓] theorem deferredDone_fixed : ∀ a0 a1 a2 a3 a4, (deferredDone a0 a1 a2 a3 a4).fixed = a0.fixed := by
  intro a0 a1 a2 a3 a4
  unfold deferredDone
  split <;> simp

theorem execDeferredCommandDone_fixed : ∀ a0 a1 a2 a3 a4 a5, ∃ t, execDeferredCommandDone a0 a1 a2 a3 a4 a5 = .next t ∧ t.fixed = a5.fixed := by
  intro a0 a1 a2 a3 a4 a5
  refine ⟨_, rfl, ?_⟩
  split <;> simp

/-! ### Mover -/

@[simp ↓] theorem landRow_fixed : ∀ a0 a1 a2 a3 a4 a5 a6, (landRow a0 a1 a2 a3 a4 a5 a6).1.fixed = a0.fixed := by
  intro a0 a1 a2 a3 a4 a5 a6
  unfold landRow
  repeat' first | with_reducible rfl | (simp; done) | (rw [foldl_fixed]; try (intro _ _)) | split | dsimp only | simp

@[simp ↓] theorem readRow_fixed : ∀ a0 a1 a2 a3 a4, (readRow a0 a1 a2 a3 a4).fixed = a0.fixed := by
  intro a0 a1 a2 a3 a4
  unfold readRow
  repeat' first | with_reducible rfl | (simp; done) | (rw [foldl_fixed]; try (intro _ _)) | split | dsimp only | simp

@[simp ↓] theorem countMove_fixed : ∀ a0 a1 a2 a3 a4, (countMove a0 a1 a2 a3 a4).fixed = a0.fixed := by
  intro a0 a1 a2 a3 a4
  unfold countMove
  simp

@[simp ↓] theorem loadRows_fixed : ∀ a0 a1 a2 a3 a4 a5 a6, (loadRows a0 a1 a2 a3 a4 a5 a6).fixed = a1.fixed := by
  intro a0 a1 a2 a3 a4 a5 a6
  induction a0 generalizing a1 a2 a3 a4 a5 a6 with
  | zero =>
    unfold loadRows
    simp
  | succ n ih =>
    unfold loadRows
    repeat' first | with_reducible rfl | (simp [ih]; done) | (rw [foldl_fixed]; try (intro _ _)) | (rw [foldl_fst_fixed]; try (intro _ _)) | (with_reducible refine (pickOne_fixed' (by with_reducible assumption)).trans ?_) | split | dsimp only | simp [ih]

theorem execLoad_fixed : ∀ a0 a1 a2, ∃ t, execLoad a0 a1 a2 = .next t ∧ t.fixed = a2.fixed := by
  intro a0 a1 a2
  refine ⟨_, rfl, ?_⟩
  repeat' first | with_reducible rfl | (simp; done) | (rw [engineStart_fixed]; all_goals try (intros)) | split | dsimp only | simp

@[simp ↓] theorem storeMixed_fixed : ∀ a0 a1 a2 a3 a4 a5 a6, (storeMixed a0 a1 a2 a3 a4 a5 a6).fixed = a0.fixed := by
  intro a0 a1 a2 a3 a4 a5 a6
  unfold storeMixed
  repeat' first | with_reducible rfl | (simp; done) | (rw [foldl_fixed]; try (intro _ _)) | split | dsimp only | simp

@[simp ↓] theorem storeRows_fixed : ∀ a0 a1 a2 a3 a4 a5 a6 a7, (storeRows a0 a1 a2 a3 a4 a5 a6 a7).fixed = a1.fixed := by
  intro a0 a1 a2 a3 a4 a5 a6 a7
  induction a0 generalizing a1 a2 a3 a4 a5 a6 a7 with
  | zero =>
    unfold storeRows
    simp
  | succ n ih =>
    unfold storeRows
    repeat' first | with_reducible rfl | (simp [ih]; done) | (with_reducible refine (pickOne_fixed' (by with_reducible assumption)).trans ?_) | split | dsimp only | simp [ih]

theorem execStore_fixed : ∀ a0 a1 a2, ∃ t, execStore a0 a1 a2 = .next t ∧ t.fixed = a2.fixed := by
  intro a0 a1 a2
  refine ⟨_, rfl, ?_⟩
  repeat' first | with_reducible rfl | (simp; done) | (rw [engineStart_fixed]; all_goals try (intros)) | split | dsimp only | simp

@[simp ↓] theorem streamStart_fixed : ∀ a0 a1 a2 a3, (streamStart a0 a1 a2 a3).fixed = a0.fixed := by
  intro a0 a1 a2 a3
  unfold streamStart
  simp

theorem execStream_fixed : ∀ a0 a1, ∃ t, execStream a0 a1 = .next t ∧ t.fixed = a1.fixed := by
  intro a0 a1
  refine ⟨_, rfl, ?_⟩
  repeat' first | with_reducible rfl | (simp; done) | (rw [engineStart_fixed]; all_goals try (intros)) | split | dsimp only | simp

theorem execStreamTileFetch_fixed : ∀ a0 a1 a2 a3, ∃ t, execStreamTileFetch a0 a1 a2 a3 = .next t ∧ t.fixed = a3.fixed := by
  intro a0 a1 a2 a3
  refine ⟨_, rfl, ?_⟩
  repeat' first | with_reducible rfl | (simp; done) | split | dsimp only | simp

@[simp ↓] theorem landTile_fixed : ∀ a0 a1 a2 a3 a4 a5, (landTile a0 a1 a2 a3 a4 a5).1.fixed = a0.fixed := by
  intro a0 a1 a2 a3 a4 a5
  unfold landTile
  repeat' first | with_reducible rfl | (simp; done) | (rw [foldl_fixed]; try (intro _ _)) | (rw [foldl_fst_fixed]; try (intro _ _)) | (with_reducible refine (pickOne_fixed' (by with_reducible assumption)).trans ?_) | split | dsimp only | simp

@[simp ↓] theorem tileLanded_fixed : ∀ a0 a1 a2 a3 a4 a5 a6, (tileLanded a0 a1 a2 a3 a4 a5 a6).fixed = a0.fixed := by
  intro a0 a1 a2 a3 a4 a5 a6
  unfold tileLanded
  simp

theorem execStreamTileLanded_fixed : ∀ a0 a1 a2 a3 a4 a5, ∃ t, execStreamTileLanded a0 a1 a2 a3 a4 a5 = .next t ∧ t.fixed = a5.fixed := by
  intro a0 a1 a2 a3 a4 a5
  refine ⟨_, rfl, ?_⟩
  repeat' first | with_reducible rfl | (simp; done) | split | dsimp only | simp

@[simp ↓] theorem sstopStart_fixed : ∀ a0 a1 a2 a3, (sstopStart a0 a1 a2 a3).fixed = a0.fixed := by
  intro a0 a1 a2 a3
  unfold sstopStart
  simp

theorem execSstop_fixed : ∀ a0 a1, ∃ t, execSstop a0 a1 = .next t ∧ t.fixed = a1.fixed := by
  intro a0 a1
  refine ⟨_, rfl, ?_⟩
  repeat' first | with_reducible rfl | (simp; done) | (rw [engineStart_fixed]; all_goals try (intros)) | split | dsimp only | simp

@[simp ↓] theorem gaWindowRow_fixed : ∀ a0 a1 a2 a3 a4 a5, (gaWindowRow a0 a1 a2 a3 a4 a5).1.fixed = a0.fixed := by
  intro a0 a1 a2 a3 a4 a5
  unfold gaWindowRow
  repeat' first | with_reducible rfl | (simp; done) | split | dsimp only | simp

@[simp ↓] theorem gatherRows_fixed : ∀ a0 a1 a2 a3 a4 a5 a6, (gatherRows a0 a1 a2 a3 a4 a5 a6).fixed = a1.fixed := by
  intro a0 a1 a2 a3 a4 a5 a6
  induction a0 generalizing a1 a2 a3 a4 a5 a6 with
  | zero =>
    unfold gatherRows
    simp
  | succ n ih =>
    unfold gatherRows
    repeat' first | with_reducible rfl | (simp [ih]; done) | (with_reducible refine (pickOne_fixed' (by with_reducible assumption)).trans ?_) | split | dsimp only | simp [ih]

theorem execGather_fixed : ∀ a0 a1 a2, ∃ t, execGather a0 a1 a2 = .next t ∧ t.fixed = a2.fixed := by
  intro a0 a1 a2
  refine ⟨_, rfl, ?_⟩
  repeat' first | with_reducible rfl | (simp; done) | (rw [engineStart_fixed]; all_goals try (intros)) | split | dsimp only | simp

@[simp ↓] theorem spcopyStart_fixed : ∀ a0 a1 a2 a3, (spcopyStart a0 a1 a2 a3).fixed = a0.fixed := by
  intro a0 a1 a2 a3
  unfold spcopyStart
  repeat' first | with_reducible rfl | (simp; done) | (with_reducible refine (pickOne_fixed' (by with_reducible assumption)).trans ?_) | split | dsimp only | simp

theorem execSpcopy_fixed : ∀ a0 a1, ∃ t, execSpcopy a0 a1 = .next t ∧ t.fixed = a1.fixed := by
  intro a0 a1
  refine ⟨_, rfl, ?_⟩
  repeat' first | with_reducible rfl | (simp; done) | (rw [engineStart_fixed]; all_goals try (intros)) | split | dsimp only | simp

@[simp ↓] theorem raconfStart_fixed : ∀ a0 a1 a2 a3, (raconfStart a0 a1 a2 a3).fixed = a0.fixed := by
  intro a0 a1 a2 a3
  unfold raconfStart
  repeat' first | with_reducible rfl | (simp; done) | split | dsimp only | simp

theorem execRaconf_fixed : ∀ a0 a1, ∃ t, execRaconf a0 a1 = .next t ∧ t.fixed = a1.fixed := by
  intro a0 a1
  refine ⟨_, rfl, ?_⟩
  repeat' first | with_reducible rfl | (simp; done) | (rw [engineStart_fixed]; all_goals try (intros)) | split | dsimp only | simp

@[simp ↓] theorem radropStart_fixed : ∀ a0 a1 a2 a3, (radropStart a0 a1 a2 a3).fixed = a0.fixed := by
  intro a0 a1 a2 a3
  unfold radropStart
  simp

theorem execRadrop_fixed : ∀ a0 a1, ∃ t, execRadrop a0 a1 = .next t ∧ t.fixed = a1.fixed := by
  intro a0 a1
  refine ⟨_, rfl, ?_⟩
  repeat' first | with_reducible rfl | (simp; done) | (rw [engineStart_fixed]; all_goals try (intros)) | split | dsimp only | simp

/-! ### Dispatch -/

theorem orKeep {o : Host.Outcome State Fault Refusal} {p : Package × List Instr} {q : State → Prop} (h : ∃ t, o = .next t ∧ t.fixed = p) :
    ∃ t, o = .next t ∧ (t.fixed = p ∨ q t) := by
  obtain ⟨t, h1, h2⟩ := h
  exact ⟨t, h1, .inl h2⟩

theorem exec_keeps : ∀ a0 a1, ∃ t, exec a0 a1 = .next t ∧ (t.fixed = a1.fixed ∨ a0 = .captainFirmware ∧ t.fixed = (raiseMinima a1).fixed) := by
  intro a0 a1
  exact match a0 with
  | .frontEndDispatch x0 => orKeep (execFrontEndDispatch_fixed x0 a1)
  | .nop x0 x1 => orKeep (execNop_fixed x0 x1 a1)
  | .harm x0 x1 => orKeep (execHarm_fixed x0 x1 a1)
  | .hsig x0 x1 => orKeep (execHsig_fixed x0 x1 a1)
  | .fence x0 x1 => orKeep (execFence_fixed x0 x1 a1)
  | .endCmd x0 x1 => orKeep (execEndCmd_fixed x0 x1 a1)
  | .mma x0 => orKeep (execMma_fixed x0 a1)
  | .aclr x0 => orKeep (execAclr_fixed x0 a1)
  | .gmm x0 => orKeep (execGmm_fixed x0 a1)
  | .gmmEntry x0 x1 x2 => orKeep (execGmmEntry_fixed x0 x1 x2 a1)
  | .gmmEpilogue x0 x1 x2 => orKeep (execGmmEpilogue_fixed x0 x1 x2 a1)
  | .attn x0 x1 x2 => orKeep (execAttn_fixed x0 x1 x2 a1)
  | .vop x0 => orKeep (execVop_fixed x0 a1)
  | .vred x0 => orKeep (execVred_fixed x0 a1)
  | .epi x0 => orKeep (execEpi_fixed x0 a1)
  | .vcvt x0 => orKeep (execVcvt_fixed x0 a1)
  | .route x0 => orKeep (execRoute_fixed x0 a1)
  | .sample x0 => orKeep (execSample_fixed x0 a1)
  | .load x0 x1 => orKeep (execLoad_fixed x0 x1 a1)
  | .store x0 x1 => orKeep (execStore_fixed x0 x1 a1)
  | .stream x0 => orKeep (execStream_fixed x0 a1)
  | .streamTileFetch x0 x1 x2 => orKeep (execStreamTileFetch_fixed x0 x1 x2 a1)
  | .streamTileLanded x0 x1 x2 x3 x4 => orKeep (execStreamTileLanded_fixed x0 x1 x2 x3 x4 a1)
  | .sstop x0 => orKeep (execSstop_fixed x0 a1)
  | .gather x0 x1 => orKeep (execGather_fixed x0 x1 a1)
  | .spcopy x0 => orKeep (execSpcopy_fixed x0 a1)
  | .raconf x0 => orKeep (execRaconf_fixed x0 a1)
  | .radrop x0 => orKeep (execRadrop_fixed x0 a1)
  | .put x0 => orKeep (execPut_fixed x0 a1)
  | .rsig x0 => orKeep (execRsig_fixed x0 a1)
  | .fload x0 x1 => orKeep (execFload_fixed x0 x1 a1)
  | .fstore x0 x1 => orKeep (execFstore_fixed x0 x1 a1)
  | .fatom x0 x1 => orKeep (execFatom_fixed x0 x1 a1)
  | .ipop x0 => orKeep (execIpop_fixed x0 a1)
  | .commandComplete x0 x1 x2 => orKeep (execCommandComplete_fixed x0 x1 x2 a1)
  | .tailWrite x0 x1 x2 => orKeep (execTailWrite_fixed x0 x1 x2 a1)
  | .bind x0 x1 => orKeep (execBind_fixed x0 x1 a1)
  | .unbind x0 x1 => orKeep (execUnbind_fixed x0 x1 a1)
  | .pause x0 x1 => orKeep (execPause_fixed x0 x1 a1)
  | .resume x0 x1 => orKeep (execResume_fixed x0 x1 a1)
  | .stop x0 x1 => orKeep (execStop_fixed x0 x1 a1)
  | .clear x0 x1 => orKeep (execClear_fixed x0 x1 a1)
  | .restore x0 x1 x2 => orKeep (execRestore_fixed x0 x1 x2 a1)
  | .slotDrained x0 x1 => orKeep (execSlotDrained_fixed x0 x1 a1)
  | .rowFire x0 x1 x2 => orKeep (execRowFire_fixed x0 x1 x2 a1)
  | .inboxArrival x0 => orKeep (execInboxArrival_fixed x0 a1)
  | .rsigArrival x0 => orKeep (execRsigArrival_fixed x0 a1)
  | .creditReturn x0 x1 => orKeep (execCreditReturn_fixed x0 x1 a1)
  | .watchdogExpiry x0 x1 x2 => orKeep (execWatchdogExpiry_fixed x0 x1 x2 a1)
  | .completionRecordWrite x0 => orKeep (execCompletionRecordWrite_fixed x0 a1)
  | .starterFault x0 x1 => orKeep (execStarterFault_fixed x0 x1 a1)
  | .inboxEnable x0 x1 x2 => orKeep (execInboxEnable_fixed x0 x1 x2 a1)
  | .chanEnable x0 x1 x2 => orKeep (execChanEnable_fixed x0 x1 x2 a1)
  | .faultValidClear x0 x1 => orKeep (execFaultValidClear_fixed x0 x1 a1)
  | .registerWrite x0 x1 x2 => orKeep (execRegisterWrite_fixed x0 x1 x2 a1)
  | .rcRegisterRead x0 x1 => orKeep (execRcRegisterRead_fixed x0 x1 a1)
  | .bmv x0 x1 x2 => orKeep (execBmv_fixed x0 x1 x2 a1)
  | .battn x0 x1 x2 => orKeep (execBattn_fixed x0 x1 x2 a1)
  | .bnop x0 x1 => orKeep (execBnop_fixed x0 x1 a1)
  | .besideCommandComplete x0 x1 x2 => orKeep (execBesideCommandComplete_fixed x0 x1 x2 a1)
  | .bsdRingTailWrite x0 x1 x2 x3 => orKeep (execBsdRingTailWrite_fixed x0 x1 x2 x3 a1)
  | .bsdRingClear x0 x1 x2 => orKeep (execBsdRingClear_fixed x0 x1 x2 a1)
  | .bsdPartMapWrite x0 x1 x2 => orKeep (execBsdPartMapWrite_fixed x0 x1 x2 a1)
  | .scrub x0 x1 => orKeep (execScrub_fixed x0 x1 a1)
  | .poisonRewrite x0 x1 x2 => orKeep (execPoisonRewrite_fixed x0 x1 x2 a1)
  | .farPortEnumerate x0 => orKeep (execFarPortEnumerate_fixed x0 a1)
  | .cxlDeviceLoss x0 => orKeep (execCxlDeviceLoss_fixed x0 a1)
  | .ftlRelocate x0 x1 => orKeep (execFtlRelocate_fixed x0 x1 a1)
  | .ftlRefresh x0 x1 => orKeep (execFtlRefresh_fixed x0 x1 a1)
  | .objectTtlExpiry x0 => orKeep (execObjectTtlExpiry_fixed x0 a1)
  | .objectReadEnd x0 => orKeep (execObjectReadEnd_fixed x0 a1)
  | .loadWindowWrite x0 x1 x2 x3 => orKeep (execLoadWindowWrite_fixed x0 x1 x2 x3 a1)
  | .chunkHashed x0 x1 x2 x3 => orKeep (execChunkHashed_fixed x0 x1 x2 x3 a1)
  | .relayChunk x0 x1 x2 x3 x4 x5 => orKeep (execRelayChunk_fixed x0 x1 x2 x3 x4 x5 a1)
  | .relayChunkAck x0 x1 x2 x3 x4 => orKeep (execRelayChunkAck_fixed x0 x1 x2 x3 x4 a1)
  | .genPrepare x0 x1 x2 x3 => orKeep (execGenPrepare_fixed x0 x1 x2 x3 a1)
  | .genVote x0 x1 x2 x3 x4 => orKeep (execGenVote_fixed x0 x1 x2 x3 x4 a1)
  | .genCommit x0 x1 x2 => orKeep (execGenCommit_fixed x0 x1 x2 a1)
  | .cutPrepare x0 x1 x2 x3 x4 => orKeep (execCutPrepare_fixed x0 x1 x2 x3 x4 a1)
  | .cutVote x0 x1 x2 x3 x4 => orKeep (execCutVote_fixed x0 x1 x2 x3 x4 a1)
  | .cutVoteTimeout x0 x1 => orKeep (execCutVoteTimeout_fixed x0 x1 a1)
  | .cutCommit x0 x1 x2 => orKeep (execCutCommit_fixed x0 x1 x2 a1)
  | .cutAbort x0 x1 => orKeep (execCutAbort_fixed x0 x1 a1)
  | .cutTimeout x0 x1 => orKeep (execCutTimeout_fixed x0 x1 a1)
  | .cutoverCopy x0 x1 x2 => orKeep (execCutoverCopy_fixed x0 x1 x2 a1)
  | .cutoverCopyDone x0 x1 => orKeep (execCutoverCopyDone_fixed x0 x1 a1)
  | .cacheFetchStart x0 x1 => orKeep (execCacheFetchStart_fixed x0 x1 a1)
  | .cacheFetchComplete x0 x1 x2 x3 => orKeep (execCacheFetchComplete_fixed x0 x1 x2 x3 a1)
  | .ringPageFetch x0 => orKeep (execRingPageFetch_fixed x0 a1)
  | .ringPageFetchDone x0 x1 x2 => orKeep (execRingPageFetchDone_fixed x0 x1 x2 a1)
  | .sealOutcome x0 => orKeep (execSealOutcome_fixed x0 a1)
  | .mirrorAppend x0 x1 x2 x3 x4 x5 x6 => orKeep (execMirrorAppend_fixed x0 x1 x2 x3 x4 x5 x6 a1)
  | .mirrorAck x0 x1 x2 x3 x4 => orKeep (execMirrorAck_fixed x0 x1 x2 x3 x4 a1)
  | .heatFetch x0 => orKeep (execHeatFetch_fixed x0 a1)
  | .parkIdleExpiry x0 => orKeep (execParkIdleExpiry_fixed x0 a1)
  | .parkOrder x0 x1 => orKeep (execParkOrder_fixed x0 x1 a1)
  | .parkReport x0 x1 x2 => orKeep (execParkReport_fixed x0 x1 x2 a1)
  | .resumeOrder x0 => orKeep (execResumeOrder_fixed x0 a1)
  | .resumeReport x0 x1 x2 => orKeep (execResumeReport_fixed x0 x1 x2 a1)
  | .sessionDropReport x0 x1 => orKeep (execSessionDropReport_fixed x0 x1 a1)
  | .dispatchRow x0 => orKeep (execDispatchRow_fixed x0 a1)
  | .dispatchEnd x0 => orKeep (execDispatchEnd_fixed x0 a1)
  | .expertRet x0 => orKeep (execExpertRet_fixed x0 a1)
  | .predEntry x0 x1 => orKeep (execPredEntry_fixed x0 x1 a1)
  | .heatCancel x0 x1 => orKeep (execHeatCancel_fixed x0 x1 a1)
  | .draftProposals x0 x1 x2 x3 x4 x5 => orKeep (execDraftProposals_fixed x0 x1 x2 x3 x4 x5 a1)
  | .verdict x0 x1 => orKeep (execVerdict_fixed x0 x1 a1)
  | .lapDone x0 x1 x2 x3 => orKeep (execLapDone_fixed x0 x1 x2 x3 a1)
  | .pacerAdmit => orKeep (execPacerAdmit_fixed  a1)
  | .heatForm x0 x1 => orKeep (execHeatForm_fixed x0 x1 a1)
  | .heatDescriptor x0 => orKeep (execHeatDescriptor_fixed x0 a1)
  | .contextBlocked x0 x1 => orKeep (execContextBlocked_fixed x0 x1 a1)
  | .contextBringIn x0 => orKeep (execContextBringIn_fixed x0 a1)
  | .eviction x0 => orKeep (execEviction_fixed x0 a1)
  | .evictTimeout x0 => orKeep (execEvictTimeout_fixed x0 a1)
  | .evictSave x0 => orKeep (execEvictSave_fixed x0 a1)
  | .faultRecord x0 x1 => orKeep (execFaultRecord_fixed x0 x1 a1)
  | .slowdownReport x0 => orKeep (execSlowdownReport_fixed x0 a1)
  | .ledgerFree x0 => orKeep (execLedgerFree_fixed x0 a1)
  | .cmdSlotTake x0 x1 => orKeep (execCmdSlotTake_fixed x0 x1 a1)
  | .evtSlotReturn x0 x1 => orKeep (execEvtSlotReturn_fixed x0 x1 a1)
  | .coalInterval x0 x1 => orKeep (execCoalInterval_fixed x0 x1 a1)
  | .flr x0 => orKeep (execFlr_fixed x0 a1)
  | .hotReset => orKeep (execHotReset_fixed  a1)
  | .vfDisable x0 => orKeep (execVfDisable_fixed x0 a1)
  | .hostLinkTrained x0 x1 => orKeep (execHostLinkTrained_fixed x0 x1 a1)
  | .sidebandMessage x0 x1 => orKeep (execSidebandMessage_fixed x0 x1 a1)
  | .spdmRequest x0 x1 => orKeep (execSpdmRequest_fixed x0 x1 a1)
  | .sysCaps x0 => orKeep (execSysCaps_fixed x0 a1)
  | .sysSettingsGet x0 => orKeep (execSysSettingsGet_fixed x0 a1)
  | .sysSettingsSet x0 => orKeep (execSysSettingsSet_fixed x0 a1)
  | .sysSettingsCommit x0 => orKeep (execSysSettingsCommit_fixed x0 a1)
  | .sysTenantSet x0 => orKeep (execSysTenantSet_fixed x0 a1)
  | .sysTenantGet x0 => orKeep (execSysTenantGet_fixed x0 a1)
  | .sysReset x0 => orKeep (execSysReset_fixed x0 a1)
  | .sysWake x0 => orKeep (execSysWake_fixed x0 a1)
  | .parCreate x0 => orKeep (execParCreate_fixed x0 a1)
  | .parDestroy x0 => orKeep (execParDestroy_fixed x0 a1)
  | .parStop x0 => orKeep (execParStop_fixed x0 a1)
  | .parStart x0 => orKeep (execParStart_fixed x0 a1)
  | .parReset x0 => orKeep (execParReset_fixed x0 a1)
  | .parCtxCreate x0 => orKeep (execParCtxCreate_fixed x0 a1)
  | .parCtxDestroy x0 => orKeep (execParCtxDestroy_fixed x0 a1)
  | .parStats x0 => orKeep (execParStats_fixed x0 a1)
  | .parKvFmtSet x0 => orKeep (execParKvFmtSet_fixed x0 a1)
  | .mdlBundleLoad x0 => orKeep (execMdlBundleLoad_fixed x0 a1)
  | .mdlBundleUnload x0 => orKeep (execMdlBundleUnload_fixed x0 a1)
  | .mdlGenCreate x0 => orKeep (execMdlGenCreate_fixed x0 a1)
  | .mdlGenSeal x0 => orKeep (execMdlGenSeal_fixed x0 a1)
  | .mdlGenStatus x0 => orKeep (execMdlGenStatus_fixed x0 a1)
  | .mdlGenActivate x0 => orKeep (execMdlGenActivate_fixed x0 a1)
  | .mdlGenCutover x0 => orKeep (execMdlGenCutover_fixed x0 a1)
  | .mdlGenDelete x0 => orKeep (execMdlGenDelete_fixed x0 a1)
  | .mdlRelay x0 => orKeep (execMdlRelay_fixed x0 a1)
  | .mdlAdapterLoad x0 => orKeep (execMdlAdapterLoad_fixed x0 a1)
  | .mdlAdapterReplace x0 => orKeep (execMdlAdapterReplace_fixed x0 a1)
  | .mdlAdapterUnload x0 => orKeep (execMdlAdapterUnload_fixed x0 a1)
  | .tirCreate x0 => orKeep (execTirCreate_fixed x0 a1)
  | .tirWrite x0 => orKeep (execTirWrite_fixed x0 a1)
  | .tirRead x0 => orKeep (execTirRead_fixed x0 a1)
  | .tirSeal x0 => orKeep (execTirSeal_fixed x0 a1)
  | .tirDelete x0 => orKeep (execTirDelete_fixed x0 a1)
  | .tirStatus x0 => orKeep (execTirStatus_fixed x0 a1)
  | .memRead x0 => orKeep (execMemRead_fixed x0 a1)
  | .memWrite x0 => orKeep (execMemWrite_fixed x0 a1)
  | .reqSubmit x0 => orKeep (execReqSubmit_fixed x0 a1)
  | .reqCancel x0 => orKeep (execReqCancel_fixed x0 a1)
  | .reqStatus x0 => orKeep (execReqStatus_fixed x0 a1)
  | .reqSessionOpen x0 => orKeep (execReqSessionOpen_fixed x0 a1)
  | .reqSessionClose x0 => orKeep (execReqSessionClose_fixed x0 a1)
  | .reqPark x0 => orKeep (execReqPark_fixed x0 a1)
  | .engCapSet x0 => orKeep (execEngCapSet_fixed x0 a1)
  | .engPaceSet x0 => orKeep (execEngPaceSet_fixed x0 a1)
  | .engStatus x0 => orKeep (execEngStatus_fixed x0 a1)
  | .engAnnounce x0 => orKeep (execEngAnnounce_fixed x0 a1)
  | .fabLinkPlan x0 => orKeep (execFabLinkPlan_fixed x0 a1)
  | .fabStatus x0 => orKeep (execFabStatus_fixed x0 a1)
  | .fabTwinStatus x0 => orKeep (execFabTwinStatus_fixed x0 a1)
  | .fabLockstepSet x0 => orKeep (execFabLockstepSet_fixed x0 a1)
  | .dbgWhistle x0 => orKeep (execDbgWhistle_fixed x0 a1)
  | .dbgScoreboard x0 => orKeep (execDbgScoreboard_fixed x0 a1)
  | .dbgTensorWatch x0 => orKeep (execDbgTensorWatch_fixed x0 a1)
  | .deferredCommandDone x0 x1 x2 x3 x4 => orKeep (execDeferredCommandDone_fixed x0 x1 x2 x3 x4 a1)
  | .linkSignalDetect x0 => orKeep (execLinkSignalDetect_fixed x0 a1)
  | .linkLock x0 x1 => orKeep (execLinkLock_fixed x0 x1 a1)
  | .trainTimeout x0 => orKeep (execTrainTimeout_fixed x0 a1)
  | .trainRetry x0 => orKeep (execTrainRetry_fixed x0 a1)
  | .linkIdentify x0 x1 => orKeep (execLinkIdentify_fixed x0 x1 a1)
  | .identifyRetry x0 => orKeep (execIdentifyRetry_fixed x0 a1)
  | .linkFault x0 => orKeep (execLinkFault_fixed x0 a1)
  | .laneLoss x0 x1 => orKeep (execLaneLoss_fixed x0 x1 a1)
  | .flitReceive x0 x1 => orKeep (execFlitReceive_fixed x0 x1 a1)
  | .flitNak x0 x1 => orKeep (execFlitNak_fixed x0 x1 a1)
  | .linkStateRecord x0 => orKeep (execLinkStateRecord_fixed x0 a1)
  | .recordReflood => orKeep (execRecordReflood_fixed  a1)
  | .recordAgeOut x0 => orKeep (execRecordAgeOut_fixed x0 a1)
  | .linkResync x0 x1 => orKeep (execLinkResync_fixed x0 x1 a1)
  | .resyncTimeout x0 => orKeep (execResyncTimeout_fixed x0 a1)
  | .packetRoute x0 => orKeep (execPacketRoute_fixed x0 a1)
  | .ctlMsg x0 x1 x2 x3 x4 => orKeep (execCtlMsg_fixed x0 x1 x2 x3 x4 a1)
  | .fwPacket x0 => orKeep (execFwPacket_fixed x0 a1)
  | .loadPacket x0 x1 => orKeep (execLoadPacket_fixed x0 x1 a1)
  | .storePacket x0 x1 => orKeep (execStorePacket_fixed x0 x1 a1)
  | .atomicPacket x0 x1 => orKeep (execAtomicPacket_fixed x0 x1 a1)
  | .putAck x0 x1 x2 x3 x4 => orKeep (execPutAck_fixed x0 x1 x2 x3 x4 a1)
  | .putResend x0 x1 => orKeep (execPutResend_fixed x0 x1 a1)
  | .creditPacket x0 x1 x2 => orKeep (execCreditPacket_fixed x0 x1 x2 a1)
  | .loadData x0 x1 x2 x3 => orKeep (execLoadData_fixed x0 x1 x2 x3 a1)
  | .donePacket x0 x1 x2 => orKeep (execDonePacket_fixed x0 x1 x2 a1)
  | .atomicData x0 x1 x2 => orKeep (execAtomicData_fixed x0 x1 x2 a1)
  | .fabricTimeout x0 => orKeep (execFabricTimeout_fixed x0 a1)
  | .rdS x0 x1 => orKeep (execRdS_fixed x0 x1 a1)
  | .rdM x0 x1 x2 => orKeep (execRdM_fixed x0 x1 x2 a1)
  | .cohData x0 x1 x2 x3 => orKeep (execCohData_fixed x0 x1 x2 x3 a1)
  | .inv x0 => orKeep (execInv_fixed x0 a1)
  | .recall x0 => orKeep (execRecall_fixed x0 a1)
  | .cohAck x0 x1 => orKeep (execCohAck_fixed x0 x1 a1)
  | .wb x0 x1 x2 => orKeep (execWb_fixed x0 x1 x2 a1)
  | .evict x0 => orKeep (execEvict_fixed x0 a1)
  | .wbAck x0 => orKeep (execWbAck_fixed x0 a1)
  | .pair x0 => orKeep (execPair_fixed x0 a1)
  | .pairRetry => orKeep (execPairRetry_fixed  a1)
  | .heartbeatSend => orKeep (execHeartbeatSend_fixed  a1)
  | .heartbeat x0 => orKeep (execHeartbeat_fixed x0 a1)
  | .hbMissExpiry => orKeep (execHbMissExpiry_fixed  a1)
  | .twinYield x0 => orKeep (execTwinYield_fixed x0 a1)
  | .probe x0 x1 => orKeep (execProbe_fixed x0 x1 a1)
  | .probeReplyTimeout => orKeep (execProbeReplyTimeout_fixed  a1)
  | .probeAnswer x0 x1 => orKeep (execProbeAnswer_fixed x0 x1 a1)
  | .probeNoAnswer => orKeep (execProbeNoAnswer_fixed  a1)
  | .roleMove x0 x1 x2 x3 => orKeep (execRoleMove_fixed x0 x1 x2 x3 a1)
  | .handoffOk x0 x1 => orKeep (execHandoffOk_fixed x0 x1 a1)
  | .lapReplay x0 x1 x2 => orKeep (execLapReplay_fixed x0 x1 x2 a1)
  | .sealMirror x0 x1 x2 => orKeep (execSealMirror_fixed x0 x1 x2 a1)
  | .sealMirrorAck x0 x1 => orKeep (execSealMirrorAck_fixed x0 x1 a1)
  | .sealQuery x0 x1 => orKeep (execSealQuery_fixed x0 x1 a1)
  | .sealQueryReply x0 x1 x2 x3 => orKeep (execSealQueryReply_fixed x0 x1 x2 x3 a1)
  | .join x0 => orKeep (execJoin_fixed x0 a1)
  | .joinRetest => orKeep (execJoinRetest_fixed  a1)
  | .rejoinCopyDone => orKeep (execRejoinCopyDone_fixed  a1)
  | .checkpoint x0 x1 x2 x3 x4 x5 => orKeep (execCheckpoint_fixed x0 x1 x2 x3 x4 x5 a1)
  | .lsWaitExpiry x0 x1 x2 x3 => orKeep (execLsWaitExpiry_fixed x0 x1 x2 x3 a1)
  | .meterSample x0 x1 x2 x3 => orKeep (execMeterSample_fixed x0 x1 x2 x3 a1)
  | .coefRefit x0 => orKeep (execCoefRefit_fixed x0 a1)
  | .reconcile => orKeep (execReconcile_fixed  a1)
  | .shareOpen x0 x1 x2 => orKeep (execShareOpen_fixed x0 x1 x2 a1)
  | .shareSigned x0 => orKeep (execShareSigned_fixed x0 a1)
  | .blockClose x0 => orKeep (execBlockClose_fixed x0 a1)
  | .blockSigned x0 => orKeep (execBlockSigned_fixed x0 a1)
  | .governorTick x0 => orKeep (execGovernorTick_fixed x0 a1)
  | .freqOffer x0 x1 x2 x3 => orKeep (execFreqOffer_fixed x0 x1 x2 x3 a1)
  | .droopStretch x0 x1 x2 => orKeep (execDroopStretch_fixed x0 x1 x2 a1)
  | .powerStateChoose x0 => orKeep (execPowerStateChoose_fixed x0 a1)
  | .wakeEvent x0 => orKeep (execWakeEvent_fixed x0 a1)
  | .wakeTimer => orKeep (execWakeTimer_fixed  a1)
  | .restReady x0 x1 x2 => orKeep (execRestReady_fixed x0 x1 x2 a1)
  | .restGo x0 x1 => orKeep (execRestGo_fixed x0 x1 a1)
  | .restCancel x0 => orKeep (execRestCancel_fixed x0 a1)
  | .powerOn x0 x1 => orKeep (execPowerOn_fixed x0 x1 a1)
  | .packageReset x0 => orKeep (execPackageReset_fixed x0 a1)
  | .perstAssert x0 => orKeep (execPerstAssert_fixed x0 a1)
  | .perstRelease x0 => orKeep (execPerstRelease_fixed x0 a1)
  | .warmReset x0 => orKeep (execWarmReset_fixed x0 a1)
  | .captainWatchdog x0 => orKeep (execCaptainWatchdog_fixed x0 a1)
  | .bootRom x0 => orKeep (execBootRom_fixed x0 a1)
  | .bootFirmware => orKeep (execBootFirmware_fixed  a1)
  | .captainFirmware => match execCaptainFirmware_fixed a1 with
    | ⟨t, h, .inl g⟩ => ⟨t, h, .inl g⟩
    | ⟨t, h, .inr g⟩ => ⟨t, h, .inr ⟨rfl, g⟩⟩
  | .captFail => orKeep (execCaptFail_fixed  a1)
  | .dormantEntry => orKeep (execDormantEntry_fixed  a1)
  | .dormantExit => orKeep (execDormantExit_fixed  a1)
  | .genReloadDone x0 x1 x2 => orKeep (execGenReloadDone_fixed x0 x1 x2 a1)
  | .extest x0 => orKeep (execExtest_fixed x0 a1)
  | .samplePreload x0 => orKeep (execSamplePreload_fixed x0 a1)
  | .idcode => orKeep (execIdcode_fixed  a1)
  | .tapStatus => orKeep (execTapStatus_fixed  a1)
  | .unlockChal => orKeep (execUnlockChal_fixed  a1)
  | .unlockResp x0 => orKeep (execUnlockResp_fixed x0 a1)
  | .lock => orKeep (execLock_fixed  a1)
  | .apacc x0 => orKeep (execApacc_fixed x0 a1)
  | .apaccAccessDone => orKeep (execApaccAccessDone_fixed  a1)
  | .tapWhistle x0 => orKeep (execTapWhistle_fixed x0 a1)
  | .scanout => orKeep (execScanout_fixed  a1)
  | .bypass x0 x1 => orKeep (execBypass_fixed x0 x1 a1)
  | .coreHalt x0 x1 => orKeep (execCoreHalt_fixed x0 x1 a1)
  | .coreStep x0 x1 => orKeep (execCoreStep_fixed x0 x1 a1)
  | .captHalt x0 x1 => orKeep (execCaptHalt_fixed x0 x1 a1)
  | .captStep x0 => orKeep (execCaptStep_fixed x0 a1)
  | .captBreakpoint x0 x1 => orKeep (execCaptBreakpoint_fixed x0 x1 a1)
  | .flashErase x0 => orKeep (execFlashErase_fixed x0 a1)
  | .flashEraseDone => orKeep (execFlashEraseDone_fixed  a1)
  | .whistleRegBlow x0 => orKeep (execWhistleRegBlow_fixed x0 a1)
  | .whistleRegRelease => orKeep (execWhistleRegRelease_fixed  a1)
  | .whistle x0 x1 x2 x3 => orKeep (execWhistle_fixed x0 x1 x2 x3 a1)
  | .whistleNote x0 x1 x2 => orKeep (execWhistleNote_fixed x0 x1 x2 a1)
  | .whistleRelease x0 x1 => orKeep (execWhistleRelease_fixed x0 x1 a1)
  | .scoreboardImageReady => orKeep (execScoreboardImageReady_fixed  a1)
  | .tensorWatchFire x0 x1 x2 x3 x4 x5 x6 x7 x8 => orKeep (execTensorWatchFire_fixed x0 x1 x2 x3 x4 x5 x6 x7 x8 a1)
  | .pwrWarn x0 => orKeep (execPwrWarn_fixed x0 a1)
  | .undervoltageLockout => orKeep (execUndervoltageLockout_fixed  a1)
  | .inputReturn => orKeep (execInputReturn_fixed  a1)
  | .thermalTrip => orKeep (execThermalTrip_fixed  a1)
  | .cohortCloseTimeout x0 => orKeep (execCohortCloseTimeout_fixed x0 a1)
  | .activateVoteTimeout x0 x1 => orKeep (execActivateVoteTimeout_fixed x0 x1 a1)
  | .roleReturnRetry => orKeep (execRoleReturnRetry_fixed  a1)
  | .inputTurnOn x0 => orKeep (execInputTurnOn_fixed x0 a1)
  | .vfEnable x0 => orKeep (execVfEnable_fixed x0 a1)
  | .oscillatorFailure => orKeep (execOscillatorFailure_fixed  a1)

/-! ### Tick -/

@[simp ↓] theorem chargeSlot_fixed : ∀ a0 a1 a2 a3 a4 a5, (chargeSlot a0 a1 a2 a3 a4 a5).fixed = a0.fixed := by
  intro a0 a1 a2 a3 a4 a5
  unfold chargeSlot
  simp

@[simp ↓] theorem chargeUnit_fixed : ∀ a0 a1 a2 a3 a4, (chargeUnit a0 a1 a2 a3 a4).fixed = a0.fixed := by
  intro a0 a1 a2 a3 a4
  unfold chargeUnit
  repeat' first | with_reducible rfl | (simp; done) | (rw [foldl_fixed]; try (intro _ _)) | split | dsimp only | simp

@[simp ↓] theorem chargeCore_fixed : ∀ a0 a1 a2 a3, (chargeCore a0 a1 a2 a3).fixed = a0.fixed := by
  intro a0 a1 a2 a3
  unfold chargeCore
  repeat' first | with_reducible rfl | (simp; done) | (rw [foldl_fixed]; try (intro _ _)) | split | dsimp only | simp

@[simp ↓] theorem chargeCtx_fixed : ∀ a0 a1, (chargeCtx a0 a1).fixed = a0.fixed := by
  intro a0 a1
  unfold chargeCtx
  simp

@[simp ↓] theorem countCycle_fixed : ∀ a0, (countCycle a0).fixed = a0.fixed := by
  intro a0
  unfold countCycle
  repeat' first | with_reducible rfl | (simp; done) | (rw [foldl_fixed]; try (intro _ _)) | split | dsimp only | simp

@[simp ↓] theorem tick_fixed : ∀ a0, (tick a0).fixed = a0.fixed := by
  intro a0
  unfold tick
  simp

end Sys2Proof.Machine
end

