-- ==== Sys2Proof/Laws/Memory.lean ====
section
/-!
SUPPORT. The canonical form of every memory (`Memory.wf`): it holds at reset, and each operation that replaces a part of the state keeps it where the part's
memories are in that form. The memory operations themselves keep the form by `mwf_mwrite`, `mwf_mput`, `mwf_tdel` and `mwf_filter`.
-/

namespace Sys2Proof.Machine

/-- A table whose records all have a property keeps it when one record that has it replaces another. -/
theorem all_tput {α : Type} (t : Tab α) (k : Nat) (v : α) (p : Nat × α → Bool) (h : t.all p = true) (hv : p (k, v) = true) : (tput t k v).all p = true := by
  rw [List.all_eq_true] at *
  intro e he
  rcases mem_tput t k v e he with rfl | hm
  · exact hv
  · exact h e hm

/-- A table's record has the property every listed record and the default have. -/
theorem all_tget {α : Type} (d : α) (t : Tab α) (k : Nat) (p : α → Bool) (hd : p d = true) (h : (t.all fun e => p e.2) = true) : p (tget d t k) = true := by
  induction t with
  | nil => exact hd
  | cons e r ih =>
    rw [List.all_cons, Bool.and_eq_true] at h
    unfold tget
    split
    · exact h.1
    · exact ih h.2

/-- The memories at reset are in canonical form. -/
theorem reset_memory_wf : Memory.wf State.reset = true := by decide

theorem setCore_memory_wf (s : State) (c : Nat) (k : Core) (h : Memory.wf s = true) (h1 : mwf 0 k.spad = true) (h2 : mwf 0 k.acc = true) :
    Memory.wf (s.setCore c k) = true := by
  simp only [Memory.wf, Bool.and_eq_true] at *
  obtain ⟨⟨⟨⟨⟨a, b⟩, c⟩, d⟩, e⟩, f⟩ := h
  exact ⟨⟨⟨⟨⟨all_tput _ _ _ _ a (by simp only [h1, h2, Bool.and_self]), b⟩, c⟩, d⟩, e⟩, f⟩

theorem setStarter_memory_wf (s : State) (c : Nat) (k : Starter) (h : Memory.wf s = true) (h1 : mwf 0 k.mem = true) : Memory.wf (s.setStarter c k) = true := by
  simp only [Memory.wf, Bool.and_eq_true] at *
  obtain ⟨⟨⟨⟨⟨a, b⟩, c⟩, d⟩, e⟩, f⟩ := h
  exact ⟨⟨⟨⟨⟨a, all_tput _ _ _ _ b h1⟩, c⟩, d⟩, e⟩, f⟩

theorem setBdie_memory_wf (s : State) (c : Nat) (k : BesideDie) (h : Memory.wf s = true) (h1 : mwf 0 k.mem = true)
    (h2 : (k.rings.all fun r => mwf 0 r.2.sram) = true) : Memory.wf (s.setBdie c k) = true := by
  simp only [Memory.wf, Bool.and_eq_true] at *
  obtain ⟨⟨⟨⟨⟨a, b⟩, c⟩, d⟩, e⟩, f⟩ := h
  exact ⟨⟨⟨⟨⟨a, b⟩, all_tput _ _ _ _ c (by simp only [h1, h2, Bool.and_self])⟩, d⟩, e⟩, f⟩

theorem setObj_memory_wf (s : State) (c : Nat) (k : Obj) (h : Memory.wf s = true) (h1 : mwf 0 k.data = true) : Memory.wf (s.setObj c k) = true := by
  simp only [Memory.wf, Bool.and_eq_true] at *
  obtain ⟨⟨⟨⟨⟨a, b⟩, c⟩, d⟩, e⟩, f⟩ := h
  exact ⟨⟨⟨⟨⟨a, b⟩, c⟩, all_tput _ _ _ _ d h1⟩, e⟩, f⟩

theorem setFn_memory_wf (s : State) (c : Nat) (k : Fn) (h : Memory.wf s = true) (h1 : mwf 0 k.sram = true) : Memory.wf (s.setFn c k) = true := by
  simp only [Memory.wf, Bool.and_eq_true] at *
  obtain ⟨⟨⟨⟨⟨a, b⟩, c⟩, d⟩, e⟩, f⟩ := h
  exact ⟨⟨⟨⟨⟨a, b⟩, c⟩, d⟩, all_tput _ _ _ _ e h1⟩, f⟩

theorem norWrite_memory_wf (s : State) (a : Nat) (l : List Byte) (h : Memory.wf s = true) : Memory.wf (norWrite s a l) = true := by
  simp only [Memory.wf, Bool.and_eq_true] at *
  exact ⟨h.1, mwf_mwrite _ _ _ _ h.2⟩

theorem norErase_memory_wf (s : State) (a : Nat) (h : Memory.wf s = true) : Memory.wf (norErase s a) = true := by
  simp only [Memory.wf, Bool.and_eq_true] at *
  exact ⟨h.1, mwf_filter _ _ _ h.2⟩

theorem core_memory_wf (s : State) (c : Nat) (h : Memory.wf s = true) : mwf 0 (s.core c).spad = true ∧ mwf 0 (s.core c).acc = true := by
  simp only [Memory.wf, Bool.and_eq_true] at h
  have := all_tget Core.reset s.cores c (fun k => mwf 0 k.spad && mwf 0 k.acc) (by decide) h.1.1.1.1.1
  rwa [Bool.and_eq_true] at this

theorem bdie_memory_wf (s : State) (c : Nat) (h : Memory.wf s = true) : mwf 0 (s.bdie c).mem = true := by
  simp only [Memory.wf, Bool.and_eq_true] at h
  have := all_tget BesideDie.reset s.beside c (fun k => mwf 0 k.mem && k.rings.all fun r => mwf 0 r.2.sram) (by decide) h.1.1.1.2
  exact (Bool.and_eq_true _ _ ▸ this).1

/-- Bytes written to a core's scratchpad, to a stack, to an object. -/
theorem spad_write_memory_wf (s : State) (c a : Nat) (l : List Byte) (h : Memory.wf s = true) :
    Memory.wf (s.setCore c { s.core c with spad := mwrite 0 (s.core c).spad a l }) = true :=
  setCore_memory_wf _ _ _ h (mwf_mwrite _ _ _ _ (core_memory_wf s c h).1) (core_memory_wf s c h).2

theorem objWrite_memory_wf (s : State) (id a : Nat) (l : List Byte) (h : Memory.wf s = true) (ho : mwf 0 (s.obj id).data = true) :
    Memory.wf (objWrite s id a l) = true :=
  setObj_memory_wf _ _ _ h (mwf_mwrite _ _ _ _ ho)

end Sys2Proof.Machine
end

