-- ==== Sys2Proof/Tests/Slice0.lean ====
section
/-!
SUPPORT. Tests: the WellFormed smoke, small checks against the manual's worked figures, and the witnesses of the statements' hypotheses.
-/

namespace Sys2Proof.Tests

open Sys2Proof.Machine





















end Sys2Proof.Tests
end

section
/-!
PROOFS of the scope chapter: the invariant of every step (the fuses, the minima, the queue).
-/

namespace Sys2Proof.Machine

/-! ### The fuses, the minima and the queue -/

/-- What a step can do to the fuses and the queue: it takes the front command, keeps the package, and raises the minima only for CAPTAIN_FIRMWARE. -/
theorem step_pkg_cases (s : State) : ∃ t, step s = .next t ∧ t.pending = s.pending.tail ∧
    (t.pkg = s.pkg ∨ s.pending.head? = some .captainFirmware ∧ t.pkg = (raiseMinima s).pkg) := by
  cases h : s.pending with
  | nil =>
    have hfix : (tick s).pkg = s.pkg ∧ (tick s).pending = s.pending := Prod.ext_iff.1 (tick_fixed s)
    exact ⟨tick s, by rw [step, h], hfix.2.trans h, .inl hfix.1⟩
  | cons i rest =>
    obtain ⟨t, ht, hfix⟩ := exec_keeps i { s with pending := rest }
    refine ⟨t, by rw [step, h]; exact ht, ?_⟩
    obtain hfix | ⟨rfl, hfix⟩ := hfix
    · obtain ⟨hpkg, hpending⟩ := Prod.ext_iff.1 hfix
      exact ⟨hpending, .inl hpkg⟩
    · obtain ⟨hpkg, hpending⟩ := Prod.ext_iff.1 hfix
      exact ⟨hpending, .inr ⟨rfl, hpkg⟩⟩

theorem anchored_of_pkg_eq {p : Package} {s t : State} (h : Anchored p s) (e : t.pkg = s.pkg) : Anchored p t := by
  unfold Anchored at *
  rwa [e]

/-- Raising the minima keeps the anchor: every other field is the fused one, and `max` is no less than what it raises. -/
theorem anchored_raiseMinima {p : Package} {s : State} (h : Anchored p s) : Anchored p (raiseMinima s) := by
  obtain ⟨hpkg, hboot, hcapt⟩ := h
  refine ⟨?_, hboot.trans (le_max_left _ _), hcapt.trans (le_max_left _ _)⟩
  simp only [raiseMinima]
  rw [hpkg]

/-- Settles O59: a step that keeps the package keeps its anchor, and so does CAPTAIN_FIRMWARE's raise of the minima. -/
theorem fusesLastAndMinimaOnlyRise : Obligations.FusesLastAndMinimaOnlyRise := by
  unfold Obligations.FusesLastAndMinimaOnlyRise
  intro p s ha
  obtain ⟨t, hstep, hpending, hsame | ⟨hhead, hraised⟩⟩ := step_pkg_cases s
  · exact ⟨t, hstep, anchored_of_pkg_eq ha hsame, hpending, fun _ => hsame, .inl hsame⟩
  · refine ⟨t, hstep, anchored_of_pkg_eq (anchored_raiseMinima ha) hraised, hpending, fun hne => absurd hhead hne, .inr ?_⟩
    rw [hraised]
    exact ⟨rfl, rfl⟩

end Sys2Proof.Machine
end

section
/-!
PROOFS of the scope chapter: bits and bytes of a written word, tables read after a register write, and what REGISTER_WRITE does by register.
-/

namespace Sys2Proof.Machine

/-! ### Bits and bytes of a word -/

theorem bit_eq_getLsbD (w : Word64) (k : Nat) : bit w k = w.getLsbD k := by
  simp [bit, nbits, BitVec.getLsbD, Nat.testBit_eq_decide_div_mod_eq]

/-- The low bits of a word are its truncation. -/
theorem bits_zero_eq_setWidth (w : Word64) (hi : Nat) : bits w hi 0 = (w.setWidth (hi + 1)).toNat := by
  simp [bits, nbits]

theorem leBytes_getElem? (n v i : Nat) (h : i < n) : (leBytes n v)[i]? = some (BitVec.ofNat 8 (v / 2 ^ (8 * i))) := by
  induction n generalizing v i with
  | zero => omega
  | succ n ih =>
    cases i with
    | zero => simp [leBytes]
    | succ i =>
      rw [leBytes, List.getElem?_cons_succ, ih _ _ (by omega), Nat.div_div_eq_div_mul, show 256 = 2 ^ 8 from rfl, ← pow_add]
      congr 4
      omega

/-- A byte of a word is one of its 8-bit fields. -/
theorem ofNat_bits_byte (v : Word64) (i : Nat) : BitVec.ofNat 8 (bits v (8 * i + 7) (8 * i)) = BitVec.ofNat 8 (v.toNat / 2 ^ (8 * i)) := by
  apply BitVec.eq_of_toNat_eq
  simp only [bits, nbits, BitVec.toNat_ofNat, show 8 * i + 7 + 1 - 8 * i = 8 by omega, Nat.mod_mod]

/-- A write to a register with one W1C bit: that bit is lost where 1 is written, every other is left. -/
theorem w1c_getLsbD (old v : Word64) (b k : Nat) :
    (w1c old v (BitVec.ofNat 64 (2 ^ b))).getLsbD k = (old.getLsbD k && !(v.getLsbD k && decide (b = k))) := by
  by_cases hk : k < 64
  · rw [w1c, BitVec.getLsbD_and, BitVec.getLsbD_not, BitVec.getLsbD_and, BitVec.getLsbD_ofNat, Nat.testBit_two_pow]
    simp [hk]
  · simp [BitVec.getLsbD_of_ge _ _ (not_lt.1 hk)]

/-- A W1C bit written with 1 reads 0. -/
theorem bit_w1c_of_bit (old v : Word64) (b : Nat) (hv : bit v b = true) : bit (w1c old v (BitVec.ofNat 64 (2 ^ b))) b = false := by
  rw [bit_eq_getLsbD] at *
  rw [w1c_getLsbD]
  simp [hv]

/-- A W1C bit written with 0 leaves the whole word. -/
theorem w1c_of_bit_false (old v : Word64) (b : Nat) (hv : bit v b = false) : w1c old v (BitVec.ofNat 64 (2 ^ b)) = old := by
  rw [bit_eq_getLsbD] at hv
  apply BitVec.eq_of_getLsbD_eq
  intro k _
  rw [w1c_getLsbD]
  by_cases hk : b = k
  · rw [← hk, hv]; simp
  · simp [hk]

/-- The bits below a W1C bit are left. -/
theorem bits_w1c_below (old v : Word64) (b hi : Nat) (hlt : hi < b) : bits (w1c old v (BitVec.ofNat 64 (2 ^ b))) hi 0 = bits old hi 0 := by
  rw [bits_zero_eq_setWidth, bits_zero_eq_setWidth]
  congr 1
  apply BitVec.eq_of_getLsbD_eq
  intro k hk
  rw [BitVec.getLsbD_setWidth, BitVec.getLsbD_setWidth, w1c_getLsbD]
  simp [show b ≠ k by omega]

/-! ### FLD_NUM_CFG -/

/-- A table searched by number is read by number. -/
theorem tget_eq_find? {α : Type} (d : α) (t : Tab α) (k : Nat) : tget d t k = ((t.find? (·.1 == k)).map (·.2)).getD d := by
  induction t with
  | nil => rfl
  | cons e r ih =>
    obtain ⟨i, v⟩ := e
    by_cases h : i = k <;> simp [tget, h, ih]

/-- FLD_NUM_CFG is the entry written for the die, and the settings fields where none is. -/
theorem State.numCfg_eq_tget (s : State) (d : Nat) : s.numCfg d = tget (cfgWord s.settings (regFields (.numCfg d))) s.settings.numCfg d := by
  rw [tget_eq_find?, State.numCfg]
  cases s.settings.numCfg.find? (·.1 == d) <;> rfl

theorem State.numCfg_tput (s : State) (d e : Nat) (v : Word64) :
    ({ s with settings := { s.settings with numCfg := tput s.settings.numCfg d v } } : State).numCfg e = if e = d then v else s.numCfg e := by
  rw [State.numCfg_eq_tget, State.numCfg_eq_tget, tget_tput]
  rfl

/-! ### Memories and stacks after one write -/

theorem spadExcept_setCore_mwrite (s : State) (c a n : Nat) (l : List Byte) (hl : l.length = n) :
    SpadExcept s (s.setCore c { s.core c with spad := mwrite 0 (s.core c).spad a l }) c [(a, n)] := by
  intro c' i hi
  rw [spadByte, State.core_setCore]
  split
  · next hc =>
    have hout := hi hc (a, n) List.mem_cons_self
    simp only at hout
    rw [mget_mwrite, if_neg (by omega), hc, spadByte]
  · rfl

theorem accExcept_setCore_mwrite (s : State) (c a n : Nat) (l : List Word32) (hl : l.length = n) :
    AccExcept s (s.setCore c { s.core c with acc := mwrite 0 (s.core c).acc a l }) c [(a, n)] := by
  intro c' i hi
  rw [accWord, State.core_setCore]
  split
  · next hc =>
    have hout := hi hc (a, n) List.mem_cons_self
    simp only at hout
    rw [mget_mwrite, if_neg (by omega), hc, accWord]
  · rfl

/-- A core replaced by one with the same slots leaves every slot. -/
theorem State.slot_setCore_of_slots (s : State) (c : Nat) (x : Core) (h : ∀ k, x.slot k = (s.core c).slot k) (k : Nat) :
    (s.setCore c x).slot c k = s.slot c k := by
  rw [State.slot_eq, State.core_setCore_same, h]
  rfl

/-- A Beside die's registers written keep every byte of memory. -/
theorem keepsMemory_setBdie (s : State) (d : Nat) (x : BesideDie) (h : x.mem = (s.bdie d).mem) : KeepsMemory s (s.setBdie d x) := by
  refine ⟨fun _ _ => rfl, fun _ _ => rfl, fun e a => ?_⟩
  rw [nearByte, nearByte, State.bdie_setBdie]
  split
  · next he => rw [h, he]
  · rfl

theorem State.bdie_setBdie_ne (s : State) {d e : Nat} (x : BesideDie) (h : e ≠ d) : (s.setBdie d x).bdie e = s.bdie e := by
  rw [State.bdie_setBdie, if_neg h]

/-- A ring written in its die's table is read back, and the die's other rings read as before. -/
theorem State.ring_setBdie_tput (s : State) (d p q : Nat) (r : Ring) :
    (s.setBdie d { s.bdie d with rings := tput (s.bdie d).rings p r }).ring d q = if q = p then r else s.ring d q := by
  rw [State.ring, State.bdie_setBdie_same, tget_tput]
  rfl

/-- A ring written in its die's table: that ring alone changes, and no memory. -/
theorem ring_tput_frame (s : State) (d p : Nat) (r : Ring) {t : State}
    (ht : t = s.setBdie d { s.bdie d with rings := tput (s.bdie d).rings p r }) :
    t.ring d p = r ∧ (∀ q, q ≠ p → t.ring d q = s.ring d q) ∧ (∀ e, e ≠ d → t.bdie e = s.bdie e) ∧ KeepsMemory s t := by
  subst ht
  exact ⟨by rw [State.ring_setBdie_tput, if_pos rfl], fun q hq => by rw [State.ring_setBdie_tput, if_neg hq],
    fun e he => State.bdie_setBdie_ne s _ he, keepsMemory_setBdie s d _ rfl⟩

/-! ### REGISTER_WRITE -/

/-- A write that leaves the functions leaves nothing due. -/
theorem settle_of_settled {s t : State} (hs : Settled s) (h : t.mbx = s.mbx) : settle t = t := by
  refine settle_idle t fun f hf => ?_
  rw [State.fn, h]
  exact hs f hf

/-- A master that reaches the register writes it; the debug port only at CONTROL (R596). -/
theorem registerWrite_of_reaches {s : State} {w : Writer} {r : RegAddr} {v : Word64} (hs : Settled s) (hr : reaches s w r = true)
    (hw : w = .debugPort → s.dport.level = 2) (hm : (regWrite s w r v).mbx = s.mbx) :
    exec (.registerWrite w r v) s = .next (regWrite s w r v) := by
  have hdebug : (w != .debugPort || s.dport.level == 2) = true := by
    by_cases h : w = .debugPort <;> simp [h, hw]
  change Host.Outcome.next (if reaches s w r && (w != .debugPort || s.dport.level == 2) then settle (regWrite s w r v) else s) = _
  rw [hr, hdebug]
  exact congrArg _ (settle_of_settled hs hm)

theorem registerWrite_of_not_reaches {s : State} {w : Writer} {r : RegAddr} {v : Word64} (hr : reaches s w r = false) :
    exec (.registerWrite w r v) s = .next s := by
  change Host.Outcome.next (if reaches s w r && (w != .debugPort || s.dport.level == 2) then settle (regWrite s w r v) else s) = _
  rw [hr]
  rfl

/-- FLD_SLOT_CFG at a slot's own offset is written only while the slot is UNBOUND (R103). -/
theorem regWrite_slotCfg (s : State) (w : Writer) (c off : Nat) (v : Word64) (hc : s.coreRegs c = true) (ho : off < 0x20) :
    regWrite s w (.core c off) v =
      if (s.slot c (off / 8)).state = .unbound then s.setSlot c (off / 8) { s.slot c (off / 8) with cfg := v } else s := by
  have haligned : off / 8 * 8 % 0x20 / 8 = off / 8 := by omega
  simp only [regWrite, hc, if_true, coreWrite, haligned, show off / 8 * 8 < 0x20 by omega]
  rfl

theorem regWrite_spad (s : State) (w : Writer) (c off : Nat) (v : Word64) (hc : s.coreRegs c = true) (ho : off < 768 * 4096) :
    regWrite s w (.spad c off) v = s.setCore c { s.core c with spad := mwrite 0 (s.core c).spad (off / 8 * 8) (leBytes 8 v.toNat) } :=
  if_pos ⟨hc, ho⟩

theorem regWrite_acc (s : State) (w : Writer) (c off : Nat) (v : Word64) (hc : s.coreRegs c = true) (ho : off < 0x40000) :
    regWrite s w (.acc c off) v = s.setCore c { s.core c with
      acc := mwrite 0 (s.core c).acc (off / 8 * 2) [BitVec.ofNat 32 (bits v 31 0), BitVec.ofNat 32 (bits v 63 32)] } :=
  if_pos ⟨hc, ho⟩

theorem regWrite_ringEntry (s : State) (w : Writer) (d p off : Nat) (v : Word64) (hp : p < 16) (ho : off < 0x4000) :
    regWrite s w (.ringEntry d p off) v = s.setBdie d { s.bdie d with
      rings := tput (s.bdie d).rings p { s.ring d p with sram := mwrite 0 (s.ring d p).sram (off / 8 * 8) (leBytes 8 v.toNat) } } :=
  if_pos ⟨hp, ho⟩

theorem regWrite_wp (s : State) (d p i : Nat) (v : Word64) (hp : p < 16) (hi : i < 8) :
    regWrite s .captain (.wp d p i) v = s.setBdie d { s.bdie d with
      wp := tput (s.bdie d).wp (p * 8 + i) (mkWord [(0, bits v 0 0), (16, bits v 30 16), (32, bits v 46 32)]) } :=
  if_pos ⟨rfl, hp, hi⟩

theorem regWrite_ring (s : State) (d p : Nat) (v : Word64) (hp : p < 16) :
    regWrite s .captain (.ring d p) v = s.setBdie d { s.bdie d with
      rings := tput (s.bdie d).rings p { s.ring d p with owner := BitVec.ofNat 6 (bits v 24 19), en := bit v 25 } } :=
  if_pos ⟨rfl, hp⟩

theorem regWrite_numCfg (s : State) (w : Writer) (d : Nat) (v : Word64) (hd : d < 4) :
    regWrite s w (.numCfg d) v = { s with settings := { s.settings with numCfg := tput s.settings.numCfg d (setBits v 63 12 0) } } :=
  if_pos hd

/-- Only a starter or a captain reaches a scratchpad, and only an enabled, powered core's (R40, R102). -/
theorem coreRegs_of_reaches_spad {s : State} {w : Writer} {c off : Nat} (h : reaches s w (.spad c off) = true) :
    s.coreRegs c = true ∧ w ≠ .debugPort := by
  cases w <;> simp_all [reaches]

theorem coreRegs_of_reaches_acc {s : State} {w : Writer} {c off : Nat} (h : reaches s w (.acc c off) = true) :
    s.coreRegs c = true ∧ w ≠ .debugPort := by
  cases w <;> simp_all [reaches]

/-! ### The registers of the statement -/

section

variable {s : State}

theorem slotCfg_write (hs : Settled s) (w : Writer) (c off : Nat) (v : Word64) (hr : reaches s w (.core c off) = true) (hc : s.coreRegs c = true)
    (hw : w = .debugPort → s.dport.level = 2) (ho : off < 0x20) :
    ((s.slot c (off / 8)).state = .unbound → ∃ t, exec (.registerWrite w (.core c off) v) s = .next t ∧
      t.slot c (off / 8) = { s.slot c (off / 8) with cfg := v } ∧ OneSlot s t c (off / 8)) ∧
    ((s.slot c (off / 8)).state ≠ .unbound → exec (.registerWrite w (.core c off) v) s = .next s) := by
  have hwrite := regWrite_slotCfg s w c off v hc ho
  constructor <;> intro hstate
  · rw [if_pos hstate] at hwrite
    refine ⟨_, registerWrite_of_reaches hs hr hw (by rw [hwrite, State.setSlot_mbx]), ?_⟩
    rw [hwrite]
    exact ⟨State.slot_setSlot_same .., oneSlot_setSlot s c _ _ (by omega)⟩
  · rw [if_neg hstate] at hwrite
    rw [registerWrite_of_reaches hs hr hw (by rw [hwrite]), hwrite]

theorem spad_write (hs : Settled s) (w : Writer) (c off : Nat) (v : Word64) (hr : reaches s w (.spad c off) = true) (ho : off < 768 * 4096) :
    ∃ t, exec (.registerWrite w (.spad c off) v) s = .next t ∧ SpadExcept s t c [(off / 8 * 8, 8)] ∧
      (∀ i, i < 8 → spadByte t c (off / 8 * 8 + i) = BitVec.ofNat 8 (bits v (8 * i + 7) (8 * i))) ∧ (∀ k, t.slot c k = s.slot c k) ∧
      (∀ e, e ≠ c → t.core e = s.core e) ∧ t = { s with cores := t.cores } := by
  obtain ⟨hc, hw⟩ := coreRegs_of_reaches_spad hr
  have hwrite := regWrite_spad s w c off v hc ho
  refine ⟨_, registerWrite_of_reaches hs hr (absurd · hw) (by rw [hwrite, State.setCore_mbx]), ?_⟩
  rw [hwrite]
  refine ⟨spadExcept_setCore_mwrite s c _ 8 _ (leBytes_length ..), fun i hi => ?_,
    State.slot_setCore_of_slots s c _ fun k => ?_, fun e he => by rw [State.core_setCore, if_neg he], rfl⟩
  · rw [spadByte, State.core_setCore_same, mget_mwrite, if_pos (by rw [leBytes_length]; omega), Nat.add_sub_cancel_left,
      leBytes_getElem? _ _ _ hi, Option.getD_some, ofNat_bits_byte]
  · rcases k with _ | _ | _ | k <;> rfl

theorem acc_write (hs : Settled s) (w : Writer) (c off : Nat) (v : Word64) (hr : reaches s w (.acc c off) = true) (ho : off < 0x40000) :
    ∃ t, exec (.registerWrite w (.acc c off) v) s = .next t ∧ AccExcept s t c [(off / 8 * 2, 2)] ∧
      accWord t c (off / 8 * 2) = BitVec.ofNat 32 (bits v 31 0) ∧ accWord t c (off / 8 * 2 + 1) = BitVec.ofNat 32 (bits v 63 32) ∧
      (∀ k, t.slot c k = s.slot c k) ∧ (∀ e, e ≠ c → t.core e = s.core e) ∧ t = { s with cores := t.cores } := by
  obtain ⟨hc, hw⟩ := coreRegs_of_reaches_acc hr
  have hwrite := regWrite_acc s w c off v hc ho
  refine ⟨_, registerWrite_of_reaches hs hr (absurd · hw) (by rw [hwrite, State.setCore_mbx]), ?_⟩
  rw [hwrite]
  refine ⟨accExcept_setCore_mwrite s c _ 2 _ rfl, ?_, ?_, State.slot_setCore_of_slots s c _ fun k => ?_,
    fun e he => by rw [State.core_setCore, if_neg he], rfl⟩
  · simp [accWord, mget_mwrite]
  · simp [accWord, mget_mwrite]
  · rcases k with _ | _ | _ | k <;> rfl

theorem ringEntry_write (hs : Settled s) (f row d p off : Nat) (v : Word64) (hd : d < 12) (hp : p < 16) (ho : off < 0x4000)
    (hon : s.power.besideOn = true) (hown : (s.ring d p).owner.toNat = 16 * f + row) :
    ∃ t, exec (.registerWrite (.starter f row) (.ringEntry d p off) v) s = .next t ∧
      t.ring d p = { s.ring d p with sram := mwrite 0 (s.ring d p).sram (off / 8 * 8) (leBytes 8 v.toNat) } ∧
      (∀ q, q ≠ p → t.ring d q = s.ring d q) ∧ (∀ e, e ≠ d → t.bdie e = s.bdie e) ∧ KeepsMemory s t := by
  have hr : reaches s (.starter f row) (.ringEntry d p off) = true := by
    rw [State.ring] at hown
    simp [reaches, hd, hon, hown]
  have hwrite := regWrite_ringEntry s (.starter f row) d p off v hp ho
  exact ⟨_, registerWrite_of_reaches hs hr nofun (by rw [hwrite, State.setBdie_mbx]), ring_tput_frame s d p _ hwrite⟩

theorem captain_ring_write (hs : Settled s) (d p : Nat) (v : Word64) (hd : d < 12) (hp : p < 16) (hon : s.power.besideOn = true) :
    ∃ t, exec (.registerWrite .captain (.ring d p) v) s = .next t ∧
      t.ring d p = { s.ring d p with owner := BitVec.ofNat 6 (bits v 24 19), en := bit v 25 } ∧
      (∀ q, q ≠ p → t.ring d q = s.ring d q) ∧ (∀ e, e ≠ d → t.bdie e = s.bdie e) ∧ KeepsMemory s t := by
  have hr : reaches s .captain (.ring d p) = true := by simp [reaches, hd, hon]
  have hwrite := regWrite_ring s d p v hp
  exact ⟨_, registerWrite_of_reaches hs hr nofun (by rw [hwrite, State.setBdie_mbx]), ring_tput_frame s d p _ hwrite⟩

theorem captain_wp_write (hs : Settled s) (d p i : Nat) (v : Word64) (hd : d < 12) (hp : p < 16) (hi : i < 8) (hon : s.power.besideOn = true) :
    ∃ t, exec (.registerWrite .captain (.wp d p i) v) s = .next t ∧
      tget 0 (t.bdie d).wp (p * 8 + i) = mkWord [(0, bits v 0 0), (16, bits v 30 16), (32, bits v 46 32)] ∧
      (∀ j, j ≠ p * 8 + i → tget 0 (t.bdie d).wp j = tget 0 (s.bdie d).wp j) ∧ (∀ e, e ≠ d → t.bdie e = s.bdie e) ∧ KeepsMemory s t := by
  have hr : reaches s .captain (.wp d p i) = true := by simp [reaches, hd, hon]
  have hwrite := regWrite_wp s d p i v hp hi
  refine ⟨_, registerWrite_of_reaches hs hr nofun (by rw [hwrite, State.setBdie_mbx]), ?_⟩
  rw [hwrite]
  exact ⟨by rw [State.bdie_setBdie_same, tget_tput_same], fun j hj => by rw [State.bdie_setBdie_same, tget_tput_ne _ _ _ hj],
    fun e he => State.bdie_setBdie_ne s _ he, keepsMemory_setBdie s d _ rfl⟩

theorem captain_ueAddr_write (hs : Settled s) (d : Nat) (v : Word64) (hd : d < 12) (hon : s.power.besideOn = true) :
    ∃ t, exec (.registerWrite .captain (.ueAddr d) v) s = .next t ∧
      (bit v 36 = true → bit (t.bdie d).ueAddr 36 = false) ∧ (bit v 36 = false → (t.bdie d).ueAddr = (s.bdie d).ueAddr) ∧
      bits (t.bdie d).ueAddr 35 0 = bits (s.bdie d).ueAddr 35 0 ∧ KeepsMemory s t := by
  have hr : reaches s .captain (.ueAddr d) = true := by simp [reaches, hd, hon]
  refine ⟨_, registerWrite_of_reaches hs hr nofun rfl, ?_⟩
  rw [regWrite, State.bdie_setBdie_same]
  exact ⟨bit_w1c_of_bit _ _ 36, w1c_of_bit_false _ _ 36, bits_w1c_below _ _ 36 35 (by omega),
    keepsMemory_setBdie s d _ rfl⟩

theorem captain_numCfg_write (hs : Settled s) (d : Nat) (v : Word64) (hd : d < 4) (hon : s.power.stewardOn = true) :
    ∃ t, exec (.registerWrite .captain (.numCfg d) v) s = .next t ∧
      t.numCfg d = setBits v 63 12 0 ∧ (∀ e, e ≠ d → t.numCfg e = s.numCfg e) ∧ KeepsMemory s t := by
  have hwrite := regWrite_numCfg s .captain d v hd
  refine ⟨_, registerWrite_of_reaches hs hon nofun (by rw [hwrite]), ?_⟩
  rw [hwrite]
  exact ⟨by rw [State.numCfg_tput, if_pos rfl], fun e he => by rw [State.numCfg_tput, if_neg he], keepsMemory_same _ _ rfl rfl⟩

/-- A register whose write means nothing takes none, whether the captain reaches it or not. -/
theorem captain_write_ignored (hs : Settled s) (r : RegAddr) (v : Word64) (h : regWrite s .captain r v = s) :
    exec (.registerWrite .captain r v) s = .next s := by
  cases hr : reaches s .captain r
  · exact registerWrite_of_not_reaches hr
  · rw [registerWrite_of_reaches hs hr nofun (by rw [h]), h]

end

/-- Settles O22, register by register. -/
theorem registerWritesReachTheirRegister : Obligations.RegisterWritesReachTheirRegister := by
  unfold Obligations.RegisterWritesReachTheirRegister
  intro s hs
  refine ⟨slotCfg_write hs, captain_wp_write hs, captain_ring_write hs, captain_ueAddr_write hs, captain_numCfg_write hs, fun r v hr => ?readOnly,
    fun w c off v hr ho _ => spad_write hs w c off v hr ho, fun w c off v hr ho _ => acc_write hs w c off v hr ho,
    fun f row d p off v hd hp ho hon hown => ringEntry_write hs f row d p off v hd hp ho hon hown, fun w r v hr => registerWrite_of_not_reaches hr⟩
  case readOnly =>
    refine captain_write_ignored hs r v ?_
    rcases hr with rfl | rfl | rfl | rfl | rfl | rfl | rfl | ⟨_, rfl⟩ | ⟨_, rfl | rfl | rfl | rfl | rfl | rfl⟩ <;> rfl

end Sys2Proof.Machine
end

section
/-!
PROOFS of the package in motion: one cycle of the AON clock. `tick` raises the AON counter itself; the counting of the cores and contexts, the return of a role
and the ends of stalled requests leave it, one lemma for each function they call.
-/

namespace Sys2Proof.Machine

/-! ### Folds and choices -/

theorem foldl_aon {α : Type} (g : State → α → State) (l : List α) (s : State) (h : ∀ s a, (g s a).aon = s.aon) :
    (l.foldl g s).aon = s.aon :=
  List.foldlRecOn (motive := fun t => t.aon = s.aon) l g rfl fun t ht a _ => (h t a).trans ht

@[simp] theorem State.aon_ite {c : Prop} [Decidable c] (a b : State) : (if c then a else b).aon = if c then a.aon else b.aon :=
  apply_ite State.aon c a b

section

variable (s : State)

/-! ### Counting -/

@[simp] theorem chargeSlot_aon (c i u d q : Nat) : (chargeSlot s c i u d q).aon = s.aon := by
  simp [chargeSlot]

@[simp] theorem chargeUnit_aon (c u q n : Nat) : (chargeUnit s c u q n).aon = s.aon := by
  unfold chargeUnit
  extract_lets k st s1 busy s2 s3
  have h1 : s1.aon = s.aon := by simp [s1]
  clear_value busy
  have h2 : s2.aon = s.aon := by
    simp only [s2]
    split <;> simp [h1]
  have h3 : s3.aon = s.aon := (foldl_aon _ _ _ fun _ _ => chargeSlot_aon _ _ _ _ _ _).trans h2
  split
  · exact h1
  · split <;> simp [h3]

@[simp] theorem chargeCore_aon (q n c : Nat) : (chargeCore s q n c).aon = s.aon := by
  simp [chargeCore, foldl_aon]

@[simp] theorem chargeCtx_aon (c : Nat) : (chargeCtx s c).aon = s.aon := by
  simp [chargeCtx]

@[simp] theorem countCycle_aon : (countCycle s).aon = s.aon := by
  simp [countCycle, foldl_aon]

/-! ### Events and messages -/

@[simp] theorem fireVector_aon (fn v : Nat) : (fireVector s fn v).aon = s.aon := by
  simp [fireVector]

@[simp] theorem interrupt_aon (fn v : Nat) : (interrupt s fn v).aon = s.aon := by
  simp [interrupt]

@[simp] theorem writeEvent_aon (fn : Nat) (e : Event) (more : Bool) : (writeEvent s fn e more).aon = s.aon := by
  simp [writeEvent, foldl_aon]

@[simp] theorem drainBacklog_aon (n fn : Nat) : (drainBacklog n s fn).aon = s.aon := by
  induction n generalizing s with
  | zero => rfl
  | succ n ih =>
    unfold drainBacklog
    dsimp only
    split
    · rfl
    · simp [ih]

@[simp] theorem postEvent_aon (fn : Nat) (e : Event) : (postEvent s fn e).aon = s.aon := by
  simp [postEvent, foldl_aon]

@[simp] theorem notify_aon (fn type status : Nat) (payload : List Byte) : (notify s fn type status payload).aon = s.aon := by
  simp [notify]

@[simp] theorem copyLedger_aon (i : Nat) : (copyLedger s i).aon = s.aon := by
  unfold copyLedger
  split
  · split <;> simp
  · rfl

@[simp] theorem postDone_aon (i : Nat) : (postDone s i).aon = s.aon := by
  simp [postDone]

@[simp] theorem putSess_aon (i : Nat) (x : Session) : (putSess s i x).aon = s.aon := by
  unfold putSess
  dsimp only
  split <;> simp

/-! ### Objects, generations, adapter slots -/

@[simp] theorem unbindSlot_aon (p i : Nat) : (unbindSlot s p i).aon = s.aon := by
  simp [unbindSlot, setAslot]

/-- Lifting a generation's write protection changes the stacks alone. Said of the whole state: `foldl_aon` here would have the kernel evaluate the branch's
condition, a count of 2 MiB units. -/
theorem unprotectGen_beside_only (p : Nat) (g : Gen) : ∃ b, unprotectGen s p g = { s with beside := b } := by
  refine List.foldlRecOn (motive := fun t : State => ∃ b, t = { s with beside := b }) _ _ ⟨s.beside, rfl⟩ fun t ht st _ => ?_
  split
  · exact ht
  · obtain ⟨b, rfl⟩ := ht
    exact ⟨_, rfl⟩

@[simp] theorem unprotectGen_aon (p : Nat) (g : Gen) : (unprotectGen s p g).aon = s.aon := by
  obtain ⟨b, h⟩ := unprotectGen_beside_only s p g
  rw [h]

@[simp] theorem objFree_aon (id : Nat) : (objFree s id).aon = s.aon := by
  simp [objFree, chargeQuota]

@[simp] theorem freeGen_aon (p : Nat) (g : Gen) : (freeGen s p g).aon = s.aon := by
  simp [freeGen, freeObjects, foldl_aon]

@[simp] theorem unbindGen_aon (p model num : Nat) : (unbindGen s p model num).aon = s.aon := by
  unfold unbindGen
  split
  · rfl
  · simp

@[simp] theorem unbindReq_aon (r : Req) : (unbindReq s r).aon = s.aon := by
  simp [unbindReq]

/-! ### Key-value maps and sessions -/

@[simp] theorem State.setMirror_aon (k : Nat) (x : KvMap) : (s.setMirror k x).aon = s.aon := rfl

@[simp] theorem fitRecords_aon (k : Nat) : (fitRecords s k).aon = s.aon := by
  unfold fitRecords
  extract_lets m p fb need
  split
  · simp
  · split <;> simp

@[simp] theorem freeRecord_aon (k : Nat) : (freeRecord s k).aon = s.aon := by
  unfold freeRecord
  dsimp only
  split <;> simp

@[simp] theorem freePages_aon (k : Nat) : (freePages s k).aon = s.aon := by
  simp [freePages]

@[simp] theorem freeMirror_aon (k : Nat) : (freeMirror s k).aon = s.aon := rfl

@[simp] theorem freeSession_aon (k : Nat) : (freeSession s k).aon = s.aon := by
  simp [freeSession]

@[simp] theorem closeSession_aon (i : Nat) : (closeSession s i).aon = s.aon := by
  simp [closeSession, foldl_aon]

@[simp] theorem releaseSession_aon (r : Req) : (releaseSession s r).aon = s.aon := by
  simp [releaseSession]

@[simp] theorem commitMap_aon (k : Nat) (o : OutcomeMsg) : (commitMap s k o).aon = s.aon := by
  simp [commitMap]

/-! ### Heats and requests -/

@[simp] theorem unpinHeat_aon (id : Nat) : (unpinHeat s id).aon = s.aon := rfl

@[simp] theorem stopHeat_aon (id : Nat) : (stopHeat s id).aon = s.aon := by
  simp [stopHeat, slotStop, foldl_aon]

@[simp] theorem retireHeat_aon (id : Nat) : (retireHeat s id).aon = s.aon := by
  simp [retireHeat]

@[simp] theorem billLap_aon (home handle a : Nat) (accept final : Bool) : (billLap s home handle a accept final).aon = s.aon := rfl

@[simp] theorem takeOutcome_aon (id : Nat) (h : Heat) (r : HeatRow) (o : OutcomeMsg) : (takeOutcome s id h r o).aon = s.aon := by
  simp [takeOutcome]

@[simp] theorem reportLap_aon (id : Nat) : (reportLap s id).aon = s.aon := by
  unfold reportLap
  extract_lets h homes roles s1 s2 s3 s4
  have h1 : s1.aon = s.aon := foldl_aon _ _ _ fun _ _ => foldl_aon _ _ _ fun _ _ => State.send_aon _ _ _
  have h2 : s2.aon = s.aon := by
    simp only [s2]
    split <;> simp [h1]
  have h3 : s3.aon = s.aon := by
    simp only [s3]
    split
    · exact (foldl_aon _ _ _ fun _ _ => State.send_aon _ _ _).trans h2
    · exact h2
  split
  · rfl
  · refine (foldl_aon _ _ _ fun t r => ?_).trans h3
    split
    · simp
    · rfl

@[simp] theorem leaveCohort_aon (c i : Nat) : (leaveCohort s c i).aon = s.aon := by
  simp [leaveCohort]

@[simp] theorem leaveQueue_aon (tenant i : Nat) : (leaveQueue s tenant i).aon = s.aon := rfl

@[simp] theorem endOne_aon (i status : Nat) : (endOne s i status).aon = s.aon := by
  simp [endOne]

@[simp] theorem endHeat_aon (id : Nat) : (endHeat s id).aon = s.aon := by
  refine foldl_aon _ _ _ fun t r => ?_
  split
  · simp
  · rfl

@[simp] theorem applyCancel_aon (id epoch : Nat) : (applyCancel s id epoch).aon = s.aon := by
  simp [applyCancel]

@[simp] theorem heatCheck_aon (id : Nat) : (heatCheck s id).aon = s.aon := by
  simp [heatCheck, cancelHeat]

@[simp] theorem endAll_aon (status : Nat) (f : Req → Bool) : (endAll s status f).aon = s.aon := by
  simp [endAll, endReq, foldl_aon]

@[simp] theorem settle_aon : (settle s).aon = s.aon := by
  simp [settle, foldl_aon]

/-! ### The return of a role -/

@[simp] theorem State.mapTwin_aon (f : Twin → Twin) : (s.mapTwin f).aon = s.aon := rfl

@[simp] theorem setRole_aon (r node epoch : Nat) : (setRole s r node epoch).aon = s.aon := by
  simp [setRole]

@[simp] theorem moveChannels_aon (old new : Nat) : (moveChannels s old new).aon = s.aon := rfl

@[simp] theorem adoptMap_aon (k : Nat) : (adoptMap s k).aon = s.aon := by
  simp [adoptMap]

@[simp] theorem returnMap_aon (k : Nat) : (returnMap s k).aon = s.aon := by
  simp [returnMap]

@[simp] theorem flood_aon : (flood s).aon = s.aon := by
  simp [flood]

@[simp] theorem pairTo_aon (st : PairState) : (pairTo s st).aon = s.aon := rfl

@[simp] theorem applyReturn_aon (r : RoleReturn) : (applyReturn s r).aon = s.aon := by
  simp [applyReturn, failoverEvent, unfence, foldl_aon]

@[simp] theorem returnDue_aon : (returnDue s).aon = s.aon := by
  unfold returnDue
  split
  · split
    · simp
    · rfl
  · rfl

end

/-! ### The cycle -/

/-- While the oscillator runs and the AON domain has a supply, a cycle raises the AON counter by one, whatever falls due with it. -/
theorem tick_aon (s : State) (hosc : s.entry.oscDead = false) (hpow : aonPowered s = true) : (tick s).aon = s.aon + 1 := by
  simp [tick, hosc, hpow]

/-- Settles O2: the step of an empty queue is `tick`, which raises the counter and takes nothing into the queue. -/
theorem idleStepIsOneAonCycle : Obligations.IdleStepIsOneAonCycle := by
  unfold Obligations.IdleStepIsOneAonCycle
  intro s hempty hosc hsupply
  have hpow : aonPowered s = true := by simpa [aonPowered] using hsupply
  have hpending : (tick s).pending = s.pending := congrArg Prod.snd (tick_fixed s)
  exact ⟨tick s, by rw [step, hempty], tick_aon s hosc hpow, hpending.trans hempty⟩

/-- The hypotheses hold at reset: its first idle step counts one cycle. -/
theorem idleStep_reset : ∃ t, step State.reset = .next t ∧ t.aon = 1 ∧ t.pending = [] :=
  idleStepIsOneAonCycle State.reset rfl rfl (.inl rfl)

end Sys2Proof.Machine
end

section
/-!
PROOFS of the package in motion: the state after power-on. No unit's table lists a record at reset, so every unit reads as its own reset record; function 0,
which is enabled, is the one entry written out.
-/

namespace Sys2Proof.Machine

/-! ### Each unit at reset -/

@[simp] theorem State.core_reset (c : Nat) : State.reset.core c = Core.reset := rfl

@[simp] theorem State.slot_reset (c k : Nat) : State.reset.slot c k = SlotSt.reset := by
  rw [State.slot, State.core_reset]
  rcases k with _ | _ | _ | k <;> rfl

@[simp] theorem State.bdie_reset (d : Nat) : State.reset.bdie d = BesideDie.reset := rfl

@[simp] theorem State.ring_reset (d p : Nat) : State.reset.ring d p = Ring.reset := rfl

@[simp] theorem State.link_reset (l : Nat) : State.reset.link l = Link.reset := rfl

/-- Function 0 is enabled at reset and no other is; in all else every function is its reset record. -/
theorem State.fn_reset (f : Nat) : State.reset.fn f = { Fn.reset with enabled := decide (f = 0) } := by
  cases f <;> rfl

/-! ### The clauses about them -/

theorem reset_slot_registers (c k : Nat) :
    State.reset.slot c k = SlotSt.reset ∧ (State.reset.slot c k).state = .unbound ∧ (State.reset.slot c k).cfg = 0 ∧
    (State.reset.slot c k).head = 0 ∧ (State.reset.slot c k).tail = 0 ∧ (State.reset.slot c k).tstage = 0 ∧ (State.reset.slot c k).fpf = 0 ∧
    (State.reset.slot c k).fault = 0 ∧ (State.reset.slot c k).faddr = 0 := by
  rw [State.slot_reset]
  exact ⟨rfl, rfl, rfl, rfl, rfl, rfl, rfl, rfl, rfl⟩

theorem reset_fn_registers (f : Nat) :
    (State.reset.fn f).cmdLwm = 32 ∧ (State.reset.fn f).coalUs = 0 ∧ (State.reset.fn f).loadDrop = 0 ∧ (State.reset.fn f).cmdHead = 0 ∧
    (State.reset.fn f).evtTail = 0 ∧ (State.reset.fn f).backlog = [] ∧ ∀ a, tget 0 (State.reset.fn f).ap a = 0 := by
  rw [State.fn_reset]
  exact ⟨rfl, rfl, rfl, rfl, rfl, rfl, fun _ => rfl⟩

/-- A package is anchored to its own fuses. -/
theorem anchored_self (s : State) : Anchored s.pkg s := ⟨rfl, le_rfl, le_rfl⟩

/-- Settles O60: each unit reads as its reset record, and the record's fields are the values the manual gives. -/
theorem resetIsThePowerOnState : Obligations.ResetIsThePowerOnState := by
  unfold Obligations.ResetIsThePowerOnState
  refine ⟨rfl, rfl, rfl, rfl, reset_slot_registers, ?core, ?ring, ?beside, rfl, reset_fn_registers, ?link,
    rfl, rfl, rfl, rfl, rfl, rfl, rfl, rfl, rfl, rfl, rfl, rfl, reset_memory_wf, anchored_self _⟩
  case core =>
    intro c i
    rw [State.core_reset]
    exact ⟨rfl, rfl, rfl⟩
  case ring =>
    intro d p
    rw [State.ring_reset, mapWord, State.bdie_reset]
    exact ⟨rfl, rfl, rfl, rfl⟩
  case beside =>
    intro d
    rw [State.bdie_reset]
    exact ⟨fun _ => rfl, rfl, rfl, rfl⟩
  case link =>
    intro l
    rw [State.link_reset]
    exact ⟨rfl, rfl, rfl, rfl⟩

end Sys2Proof.Machine
end

section
/-!
PROOFS of the core grid: the registers of a slot and of a core, and row fire.
-/

namespace Sys2Proof.Machine

/-! ### One slot and one core written -/

section

variable (s : State)

@[simp] theorem State.setSlot_starter (c k : Nat) (x : SlotSt) (j : Nat) : (s.setSlot c k x).starter j = s.starter j := rfl

theorem State.core_setCore_ne {c j : Nat} (x : Core) (h : j ≠ c) : (s.setCore c x).core j = s.core j := by
  rw [State.core_setCore, if_neg h]

theorem State.setSlot_core_ne (c k : Nat) (x : SlotSt) {j : Nat} (h : j ≠ c) : (s.setSlot c k x).core j = s.core j :=
  State.core_setCore_ne s _ h

/-- A slot written leaves the slot of the same number on every other core. -/
theorem State.slot_setSlot_core_ne (c k : Nat) (x : SlotSt) {j : Nat} (i : Nat) (h : j ≠ c) : (s.setSlot c k x).slot j i = s.slot j i := by
  rw [State.slot_eq, State.setSlot_core_ne s _ _ _ h, State.slot_eq]

theorem keepsMemory_setSlot (c k : Nat) (x : SlotSt) : KeepsMemory s (s.setSlot c k x) := keepsMemory_of _ _ (by simp) (by simp) rfl

/-- A core replaced by one of the same memories keeps every byte. -/
theorem keepsMemory_setCore (c : Nat) (x : Core) (h1 : x.spad = (s.core c).spad) (h2 : x.acc = (s.core c).acc) : KeepsMemory s (s.setCore c x) :=
  keepsMemory_of _ _ (fun j => (setCore_mem s c x h1 h2 j).1) (fun j => (setCore_mem s c x h1 h2 j).2) rfl

end

theorem KeepsMemory.trans {s t u : State} (h : KeepsMemory s t) (g : KeepsMemory t u) : KeepsMemory s u := by
  obtain ⟨h1, h2, h3⟩ := h
  obtain ⟨g1, g2, g3⟩ := g
  exact ⟨fun c a => (g1 c a).trans (h1 c a), fun c i => (g2 c i).trans (h2 c i), fun d a => (g3 d a).trans (h3 d a)⟩

/-- Nothing but cores changes in two steps where nothing but cores changes in either. -/
theorem coresOnly_trans {s t u : State} (h : t = { s with cores := t.cores }) (g : u = { t with cores := u.cores }) :
    u = { s with cores := u.cores } := by
  rw [State.mk.injEq] at *
  simp_all

/-! ### TAIL written (R50, R101, R645) -/

section

variable {s : State} {c k : Nat}

theorem setTail_unbound (v : BitVec 8) (hu : (s.slot c k).state = .unbound) : setTail s c k v = s := by
  simp [setTail, hu]

theorem setTail_bound (v : BitVec 8) (hb : (s.slot c k).state = .bound) (hr : (s.starter (starterOf c)).unavailable = false) :
    setTail s c k v = s.setSlot c k { s.slot c k with tail := v, state := if v = (s.slot c k).head then .bound else .running } := by
  simp [setTail, hb, hr]

theorem setTail_bound_unavailable (v : BitVec 8) (hb : (s.slot c k).state = .bound) (hr : (s.starter (starterOf c)).unavailable = true) :
    setTail s c k v = s := by
  simp [setTail, hb, hr]

theorem setTail_active (v : BitVec 8) (hu : (s.slot c k).state ≠ .unbound) (hb : (s.slot c k).state ≠ .bound) :
    setTail s c k v = s.setSlot c k { s.slot c k with tail := v } := by
  unfold setTail
  dsimp only
  split <;> first | contradiction | rfl

/-- TAIL written changes nothing, or one slot that stays bound and keeps TSTAGE; in an available row it takes the value written. -/
theorem setTail_cases (s : State) (c k : Nat) (v : BitVec 8) :
    (setTail s c k v = s ∧ ((s.slot c k).state = .unbound ∨ (s.starter (starterOf c)).unavailable = true)) ∨
    ∃ x, setTail s c k v = s.setSlot c k x ∧ x.tail = v ∧ x.tstage = (s.slot c k).tstage ∧ x.state ≠ .unbound := by
  by_cases hu : (s.slot c k).state = .unbound
  · exact .inl ⟨setTail_unbound v hu, .inl hu⟩
  · by_cases hb : (s.slot c k).state = .bound
    · cases hr : (s.starter (starterOf c)).unavailable with
      | true => exact .inl ⟨setTail_bound_unavailable v hb hr, .inr rfl⟩
      | false => exact .inr ⟨_, setTail_bound v hb hr, rfl, rfl, by dsimp only; split <;> simp⟩
    · exact .inr ⟨_, setTail_active v hu hb, rfl, rfl, hu⟩

/-- FLD_SLOT_CTRL with OP = 0 stages TAIL, then writes it. -/
theorem exec_tailWrite {v : Word64} (h : Reaches s c k) (hv : bits v 18 16 = 0) (hu : (s.slot c k).state ≠ .unbound) :
    exec (.tailWrite c k v) s =
      .next (setTail (s.setSlot c k { s.slot c k with tstage := BitVec.ofNat 8 (bits v 15 8) }) c k (BitVec.ofNat 8 (bits v 7 0))) := by
  change execTailWrite c k v s = _
  simp [execTailWrite, h.1, h.2, hv, hu]

end

/-- Settles O4: TSTAGE is written first, then TAIL as the slot's state allows. -/
theorem tailWriteFiresABoundSlot : Obligations.TailWriteFiresABoundSlot := by
  unfold Obligations.TailWriteFiresABoundSlot
  intro s c k v h hv
  have hone := fun x => oneSlot_setSlot s c k x h.2
  refine ⟨fun hu => ?unbound, fun hb hr => ?bound, fun hb hr => ?unavailable, fun ha => ?active⟩
  case unbound =>
    change execTailWrite c k v s = _
    simp [execTailWrite, hu]
  case bound =>
    refine ⟨_, exec_tailWrite h hv (by simp [hb]), ?_⟩
    rw [setTail_bound _ (by simp [hb]) (by rw [State.setSlot_starter, hr]), State.setSlot_setSlot]
    exact ⟨by simp, hone _⟩
  case unavailable =>
    refine ⟨_, exec_tailWrite h hv (by simp [hb]), ?_⟩
    rw [setTail_bound_unavailable _ (by simp [hb]) (by rw [State.setSlot_starter, hr])]
    exact ⟨by simp, hone _⟩
  case active =>
    have hu : (s.slot c k).state ≠ .unbound := by rcases ha with h | h | h <;> simp [h]
    have hb : (s.slot c k).state ≠ .bound := by rcases ha with h | h | h <;> simp [h]
    refine ⟨_, exec_tailWrite h hv hu, ?_⟩
    rw [setTail_active _ (by simpa using hu) (by simpa using hb), State.setSlot_setSlot]
    exact ⟨by simp, hone _⟩

/-! ### Row fire (R98, R107) -/

theorem bits_lt (w : Word64) (hi lo : Nat) : bits w hi lo < 2 ^ (hi + 1 - lo) := Nat.mod_lt _ (Nat.two_pow_pos _)

theorem coreCol_coreAddr {die row col : Nat} (h : col < 24) : coreCol (coreAddr die row col) = col := by
  unfold coreCol coreAddr
  omega

theorem starterOf_coreAddr {die row col : Nat} (h : col < 24) : starterOf (coreAddr die row col) = die * 16 + row := by
  unfold starterOf coreAddr
  omega

/-- TSTAGE fired into TAIL of slot `k` on each core of a list, in order. -/
def fireTails (k : Nat) (l : List Nat) (s : State) : State := l.foldl (fun s c => setTail s c k (s.slot c k).tstage) s

/-- What firing keeps of every state it passes through: everything but slots, each fired slot's TSTAGE, and every core not on the list. -/
structure FireKept (k : Nat) (l : List Nat) (s t : State) : Prop where
  cores_only : t = { s with cores := t.cores }
  memory : KeepsMemory s t
  off_list : ∀ c, c ∉ l → t.core c = s.core c
  tstage : ∀ c, (t.slot c k).tstage = (s.slot c k).tstage
  bound : ∀ c, (s.slot c k).state ≠ .unbound → (t.slot c k).state ≠ .unbound

theorem FireKept.refl (k : Nat) (l : List Nat) (s : State) : FireKept k l s s :=
  ⟨rfl, keepsMemory_refl s, fun _ _ => rfl, fun _ => rfl, fun _ h => h⟩

theorem FireKept.fire {k : Nat} {l : List Nat} {s t : State} (h : FireKept k l s t) {c : Nat} (hc : c ∈ l) (v : BitVec 8) :
    FireKept k l s (setTail t c k v) := by
  rcases setTail_cases t c k v with ⟨he, _⟩ | ⟨x, he, _, hstage, hstate⟩
  · rwa [he]
  · rw [he]
    refine ⟨?_, h.memory.trans (keepsMemory_setSlot _ _ _ _), fun j hj => ?_, fun j => ?_, fun j hj => ?_⟩
    · exact coresOnly_trans h.cores_only rfl
    · rw [State.setSlot_core_ne _ _ _ _ (fun e : j = c => hj (e ▸ hc)), h.off_list j hj]
    · by_cases e : j = c
      · rw [e, State.slot_setSlot_same, hstage, h.tstage]
      · rw [State.slot_setSlot_core_ne _ _ _ _ _ e, h.tstage]
    · by_cases e : j = c
      · rwa [e, State.slot_setSlot_same]
      · rw [State.slot_setSlot_core_ne _ _ _ _ _ e]
        exact h.bound j hj

theorem fireTails_kept (k : Nat) (l : List Nat) (s : State) : FireKept k l s (fireTails k l s) :=
  List.foldlRecOn (motive := FireKept k l s) l _ (FireKept.refl k l s) fun _ ht _ hc => ht.fire hc _

/-- A bound slot fired in an available row has its TSTAGE in TAIL, whatever is fired after it. -/
theorem fireTails_tail (k : Nat) (l : List Nat) (s : State) {c : Nat} (hc : c ∈ l) (hu : (s.slot c k).state ≠ .unbound)
    (hr : (s.starter (starterOf c)).unavailable = false) : ((fireTails k l s).slot c k).tail = (s.slot c k).tstage := by
  have hstep : ∀ t, FireKept k l s t → ((setTail t c k (t.slot c k).tstage).slot c k).tail = (s.slot c k).tstage := by
    intro t ht
    rcases setTail_cases t c k (t.slot c k).tstage with ⟨_, hno | hno⟩ | ⟨x, he, htail, _⟩
    · exact absurd hno (ht.bound c hu)
    · rw [State.starter, show t.starters = s.starters by rw [ht.cores_only], ← State.starter, hr] at hno
      cases hno
    · rw [he, State.slot_setSlot_same, htail, ht.tstage]
  have hlater : ∀ t, FireKept k l s t → (t.slot c k).tail = (s.slot c k).tstage →
      ∀ j, ((setTail t j k (t.slot j k).tstage).slot c k).tail = (s.slot c k).tstage := by
    intro t ht htail j
    by_cases e : j = c
    · rw [e]
      exact hstep t ht
    · rcases setTail_cases t j k (t.slot j k).tstage with ⟨he, _⟩ | ⟨x, he, _⟩
      · rw [he, htail]
      · rw [he, State.slot_setSlot_core_ne _ _ _ _ _ (Ne.symm e), htail]
  obtain ⟨a, b, rfl⟩ := List.append_of_mem hc
  rw [fireTails, List.foldl_append, List.foldl_cons]
  have ha : FireKept k (a ++ c :: b) s (a.foldl (fun s c => setTail s c k (s.slot c k).tstage) s) :=
    List.foldlRecOn (motive := FireKept k (a ++ c :: b) s) a _ (FireKept.refl ..) fun _ ht _ hj => ht.fire (List.mem_append_left _ hj) _
  refine (List.foldlRecOn (motive := fun t => FireKept k (a ++ c :: b) s t ∧ (t.slot c k).tail = (s.slot c k).tstage) b _
    ⟨ha.fire hc _, hstep _ ha⟩ fun t ht j hj => ?_).2
  exact ⟨ht.1.fire (by simp [hj]) _, hlater t ht.1 ht.2 j⟩

/-- The cores a row fire reaches: those of MASK in the row that are enabled and powered. -/
def firedCores (s : State) (die row : Nat) (v : Word64) : List Nat :=
  (rowCores die row).filter fun c => bit v (coreCol c) && s.coreRegs c

theorem mem_firedCores (s : State) (die row : Nat) (v : Word64) (c : Nat) :
    c ∈ firedCores s die row v ↔ ∃ col, col < 24 ∧ bit v col = true ∧ s.coreRegs c = true ∧ c = coreAddr die row col := by
  simp only [firedCores, rowCores, List.mem_filter, List.mem_map, List.mem_range, Bool.and_eq_true]
  constructor
  · rintro ⟨⟨col, hcol, rfl⟩, hbit, hreg⟩
    rw [coreCol_coreAddr hcol] at hbit
    exact ⟨col, hcol, hbit, hreg, rfl⟩
  · rintro ⟨col, hcol, hbit, hreg, rfl⟩
    exact ⟨⟨col, hcol, rfl⟩, by rwa [coreCol_coreAddr hcol], hreg⟩

theorem exec_rowFire {s : State} {die row : Nat} (v : Word64) (hd : die < 4) (hw : row < 16) (hr : (s.starter (die * 16 + row)).unavailable = false) :
    exec (.rowFire die row v) s = .next (fireTails (bits v 25 24) (firedCores s die row v) s) := by
  change execRowFire die row v s = _
  rw [execRowFire, if_neg (by simp [hr]; omega)]
  rfl

/-- Settles O5: the cores fired are those of MASK that are enabled and powered, one after the other. -/
theorem rowFireCopiesTstageToTail : Obligations.RowFireCopiesTstageToTail := by
  unfold Obligations.RowFireCopiesTstageToTail
  intro s die row v hd hw hr
  have hkept := fireTails_kept (bits v 25 24) (firedCores s die row v) s
  refine ⟨_, exec_rowFire v hd hw hr, fun col hcol hbit hreg hu => ?tail, fun c hc => ?masked, fun c hc => ?disabled, hkept.memory, hkept.cores_only⟩
  case tail =>
    exact fireTails_tail _ _ s ((mem_firedCores ..).2 ⟨col, hcol, hbit, hreg, rfl⟩) hu (by rwa [starterOf_coreAddr hcol])
  case masked =>
    refine hkept.off_list c fun hmem => ?_
    obtain ⟨col, hcol, hbit, hreg, he⟩ := (mem_firedCores ..).1 hmem
    exact hc col hcol hbit hreg he
  case disabled =>
    refine hkept.off_list c fun hmem => ?_
    obtain ⟨_, _, _, hreg, _⟩ := (mem_firedCores ..).1 hmem
    simp [State.coreRegs, hc] at hreg

/-! ### Registers of a core (R40, R84, R88, R105, R106) -/

section

variable {s : State} {c : Nat}

theorem exec_inboxEnable (hc : s.coreRegs c = true) {i : Nat} {v : Word64} (hi : i < 32) (hv : bit v 0 = true) :
    exec (.inboxEnable c i v) s = .next (s.setCore c (inboxWrite (s.core c) i v)) := by
  change execInboxEnable c i v s = _
  simp [execInboxEnable, hc, hi, hv]

theorem exec_chanEnable (hc : s.coreRegs c = true) {j : Nat} {v : Word64} (hj : j < 128) (hv : bit v 0 = true) :
    exec (.chanEnable c j v) s = .next (chanWrite s c j v) := by
  change execChanEnable c j v s = _
  simp [execChanEnable, hc, hj, hv]

theorem exec_faultValidClear (hc : s.coreRegs c = true) {k : Nat} (hk : k < 4) :
    exec (.faultValidClear c k) s = .next (s.setSlot c k { s.slot c k with fault := setBits (s.slot c k).fault 9 8 0 }) := by
  change execFaultValidClear c k s = _
  simp [execFaultValidClear, hc, hk]

end

/-- A channel written changes its register, and where it is newly enabled its SEQ and RESTART: no slot and no memory. -/
theorem chanWrite_spec (s : State) (c j : Nat) (v : Word64) :
    ∃ seqs restart, chanWrite s c j v = s.setCore c { s.core c with
        chan := tput (s.core c).chan j (setBits (setBits v 63 42 0) 0 0 (b2n (bit v 0 && !chanRefused s v))), chanSeq := seqs, restart := restart } ∧
      (bit v 0 = true → chanRefused s v = false → chEn (tget 0 (s.core c).chan j) = false → tget 0 seqs j = 0) := by
  unfold chanWrite
  dsimp only
  split
  · exact ⟨_, _, rfl, fun _ _ _ => tget_tput_same ..⟩
  · next h =>
    refine ⟨(s.core c).chanSeq, (s.core c).restart, rfl, fun hv hr he => ?_⟩
    rw [hv, hr, he] at h
    exact absurd rfl h

/-- Settles O9: each register holds what its write leaves, and every slot is read back from an unchanged field. -/
theorem coreRegistersTakeTheirWrites : Obligations.CoreRegistersTakeTheirWrites := by
  unfold Obligations.CoreRegistersTakeTheirWrites
  intro s c hc
  refine ⟨fun i v hi hv => ?inbox, fun j v hj hv => ?chan, fun k hk => ?fault⟩
  case inbox =>
    refine ⟨_, exec_inboxEnable hc hi hv, by simp [inboxWrite, hv], State.slot_setCore_of_slots s c _ fun k => ?_,
      keepsMemory_setCore s c _ rfl rfl, rfl⟩
    rcases k with _ | _ | _ | k <;> rfl
  case chan =>
    obtain ⟨seqs, restart, hwrite, hseq⟩ := chanWrite_spec s c j v
    refine ⟨_, (exec_chanEnable hc hj hv).trans (congrArg _ hwrite), by simp [hv], fun hr he => ?_,
      State.slot_setCore_of_slots s c _ fun k => ?_, keepsMemory_setCore s c _ rfl rfl, rfl⟩
    · rw [State.core_setCore_same]
      exact hseq hv hr he
    · rcases k with _ | _ | _ | k <;> rfl
  case fault =>
    exact ⟨_, exec_faultValidClear hc hk, State.slot_setSlot_same .., oneSlot_setSlot s c k _ hk⟩

end Sys2Proof.Machine
end

section
/-!
PROOFS of the core grid: dispatch, the front end's own commands, completion, records and the watchdog.
-/

namespace Sys2Proof.Machine

/-! ### Memory under the shared operations -/

section

variable (s : State) (c k : Nat)

theorem keepsMemory_putRecord (r : Record) : KeepsMemory s (putRecord s c r) := keepsMemory_of _ _ (by simp) (by simp) (by simp)

theorem keepsMemory_slotFault (cause : Nat) (who : Option Cmd) (addr : Nat) (d : Bool) : KeepsMemory s (slotFault s c k cause who addr d) :=
  keepsMemory_of _ _ (fun j => (slotFault_core s c k cause who addr d j).2.1) (fun j => (slotFault_core s c k cause who addr d j).2.2.1)
    (by rw [slotFault_rest])

theorem keepsMemory_hurdleAdd (h inc : Nat) (who : Option Cmd) : KeepsMemory s (hurdleAdd s c h inc who) :=
  keepsMemory_of _ _ (fun j => (hurdleAdd_mem s c h inc who j).1) (fun j => (hurdleAdd_mem s c h inc who j).2.1) (by rw [hurdleAdd_rest])

theorem keepsMemory_stepDone (seq : Nat) : KeepsMemory s (stepDone s c k seq) :=
  keepsMemory_of _ _ (fun j => (stepDone_mem s c k seq j).1) (fun j => (stepDone_mem s c k seq j).2.1) (by rw [stepDone_rest])

theorem keepsMemory_finish (cmd : Cmd) (seq : Nat) : KeepsMemory s (finish s c k cmd seq) :=
  keepsMemory_of _ _ (fun j => (finish_mem s c k cmd seq j).1) (fun j => (finish_mem s c k cmd seq j).2) (by rw [finish_rest])

theorem keepsMemory_setHur (h : Nat) (w : Word64) : KeepsMemory s (s.setCore c ((s.core c).setHur h w)) := keepsMemory_setCore s c _ rfl rfl

theorem keepsMemory_feTake (q : QEntry) : KeepsMemory s (feTake s c k q) := by
  obtain ⟨_, hcore, hrest⟩ := feTake_facts s c k q
  exact keepsMemory_of _ _ (fun j => (hcore j).1) (fun j => (hcore j).2.1) (by rw [hrest])

end

/-! ### The end of a command, by what it asks for -/

section

variable {s : State} {c k : Nat}

/-- A command that signals nothing leaves every hurdle. -/
theorem finish_hurdle_of_no_signal (cmd : Cmd) (seq j : Nat) (h : cmd.sigEn = false) :
    ((finish s c k cmd seq).core j).hurdle = (s.core j).hurdle := by
  unfold finish
  dsimp only
  rw [(stepDone_mem _ _ _ _ _).2.2, h]
  split
  · rw [putRecord_hurdle]
    rfl
  · rfl

/-- The state in which a command's signal, where it gives one, has been counted. -/
def signalled (s : State) (c k : Nat) (cmd : Cmd) : State :=
  if cmd.sigEn then
    s.setCore c ((s.core c).setHur ((s.slot c k).hbase + cmd.sigH)
      (setBits ((s.core c).hur ((s.slot c k).hbase + cmd.sigH)) 15 0 (hCount ((s.core c).hur ((s.slot c k).hbase + cmd.sigH)) + 1)))
  else s

/-- The end of a command whose signal fits, on a core that is not stepping: the signal is counted, then the MARK written where one is asked for. -/
theorem finish_of_signalFits (cmd : Cmd) (seq : Nat) (hf : SignalFits s c k cmd) (hs : (s.core c).step = none) :
    finish s c k cmd seq = if cmd.mark then putRecord (signalled s c k cmd) c (slotRecord (signalled s c k cmd) c k kMARK cmd.ring cmd.tag 0)
      else signalled s c k cmd := by
  have hsig : (if cmd.sigEn then hurdleAdd s c ((s.slot c k).hbase + cmd.sigH) 1 (some cmd) else s) = signalled s c k cmd := by
    unfold signalled
    split
    · next h => exact hurdleAdd_fits _ _ _ _ _ (hf h)
    · rfl
  have hover : (cmd.sigEn && hurdleOver s c ((s.slot c k).hbase + cmd.sigH) 1) = false := by
    cases h : cmd.sigEn
    · rfl
    · simpa [hurdleOver] using hf h
  have hstep : ((signalled s c k cmd).core c).step = none := by
    unfold signalled
    split <;> simp [Core.setHur, hs]
  unfold finish
  dsimp only
  rw [hsig, hover]
  simp only [Bool.not_false, Bool.and_true]
  split
  · rw [stepDone_none _ _ _ _ (by rw [putRecord_step, hstep])]
  · rw [stepDone_none _ _ _ _ hstep]

theorem signalled_slot (cmd : Cmd) (j i : Nat) : (signalled s c k cmd).slot j i = s.slot j i := by
  unfold signalled
  split
  · exact setHur_slot ..
  · rfl

theorem signalled_hur (cmd : Cmd) (hf : SignalFits s c k cmd) (h : cmd.sigEn = true) :
    hCount (((signalled s c k cmd).core c).hur ((s.slot c k).hbase + cmd.sigH)) = hCount ((s.core c).hur ((s.slot c k).hbase + cmd.sigH)) + 1 := by
  rw [signalled, if_pos h, State.core_setCore_same, Core.hur_setHur, if_pos rfl]
  exact hCount_setBits _ _ (hf h)

/-- A state that differs from another in one core's slots and hurdles alone gives a record the same way. -/
theorem recordRoom_congr {t : State} (h : RecordRoom s c) (hp : t.pkg = s.pkg) (hw : t.power = s.power) (he : t.entry = s.entry)
    (hd : t.dport = s.dport) (hst : t.starters = s.starters) (hheld : (t.core c).held = (s.core c).held) (hctrl : (t.core c).ctrl = (s.core c).ctrl)
    (hstep : (t.core c).step = (s.core c).step) : RecordRoom t c := by
  obtain ⟨h1, h2, h3⟩ := h
  exact ⟨hheld.trans h1, by rwa [State.starter, hst], (coreRuns_congr s t c hp hw he hd hctrl hstep).trans h3⟩

theorem recordRoom_setSlot (x : SlotSt) (h : RecordRoom s c) : RecordRoom (s.setSlot c k x) c :=
  recordRoom_congr h rfl rfl rfl rfl rfl (by simp) (by simp) (by simp)

theorem recordRoom_signalled (cmd : Cmd) (h : RecordRoom s c) : RecordRoom (signalled s c k cmd) c := by
  unfold signalled
  split
  · exact recordRoom_congr h rfl rfl rfl rfl rfl (by simp [Core.setHur]) (by simp [Core.setHur]) (by simp [Core.setHur])
  · exact h

/-- With room, a record is its starter's last. -/
theorem putRecord_of_room (r : Record) (h : RecordRoom s c) :
    ((putRecord s c r).starter (starterOf c)).queue = (s.starter (starterOf c)).queue ++ [r] := by
  obtain ⟨h1, h2, h3⟩ := h
  rw [putRecord_queue s c r h1 h2 h3, State.starter_setStarter_same]

theorem slotRecord_eq (kind ring tag cause : Nat) : slotRecord s c k kind ring tag cause =
    ⟨kind, coreCol c, k, (s.slot c k).ctx, ring, tag, cause, s.fieldCycle⟩ :=
  rfl

end

/-! ### Dispatch (R47, R54, R62) -/

/-- The core once its front end serves slot `k`: past the commands already started, the slot served last. -/
def servedCore (s : State) (c k : Nat) : Core := { ({ s.core c with rrFe := k } : Core).setSlot k (headSlot s c k) with brkPass := none }

theorem Core.slot_rrFe (K : Core) (v k : Nat) : ({ K with rrFe := v } : Core).slot k = K.slot k := by
  rcases k with _ | _ | _ | k <;> rfl

theorem Core.slot_brkPass (K : Core) (v : Option (Nat × Nat)) (k : Nat) : ({ K with brkPass := v } : Core).slot k = K.slot k := by
  rcases k with _ | _ | _ | k <;> rfl

theorem Core.slot_serial (K : Core) (n k : Nat) : ({ K with serial := n } : Core).slot k = K.slot k := by
  rcases k with _ | _ | _ | k <;> rfl

section

variable {s : State} {c k : Nat}

theorem servedCore_slot (s : State) (c k : Nat) : (servedCore s c k).slot k = headSlot s c k := by
  rw [servedCore, Core.slot_brkPass, Core.slot_setSlot_same]

theorem servedCore_slot_ne (hk : k < 4) {j : Nat} (hj : j < 4) (h : j ≠ k) : (servedCore s c k).slot j = (s.core c).slot j := by
  rw [servedCore, Core.slot_brkPass, Core.slot_setSlot _ _ _ _ hk hj, if_neg h, Core.slot_rrFe]

/-- FRONT_END_DISPATCH of a command no breakpoint matches: queued where no cause is found, a fault for one of the causes otherwise. -/
theorem exec_frontEndDispatch (h : Dispatches s c k) (hb : brkMatches s c k (headCmd s c k) = []) :
    exec (.frontEndDispatch c) s = .next (match (headCmd s c k).causes (headSlot s c k) with
      | [] => enqueue (s.setCore c (servedCore s c k)) c k (headSlot s c k) (headCmd s c k)
      | [f] => slotFault (s.setCore c (servedCore s c k)) c k f (some (headCmd s c k)) 0 false
      | f :: r => slotFault ((s.setCore c (servedCore s c k)).draw (r.length + 1)).2 c k
          (nth f (f :: r) ((s.setCore c (servedCore s c k)).draw (r.length + 1)).1) (some (headCmd s c k)) 0 false) := by
  obtain ⟨hruns, hheld, hfind⟩ := h
  have hslot : skipStarted 256 ((({ s.core c with rrFe := k } : Core)).slot k) = headSlot s c k := by rw [Core.slot_rrFe]; rfl
  have hcmd : ringCmd { s.core c with rrFe := k } k (headSlot s c k) = headCmd s c k := rfl
  have hmatch : brkMatches (s.setCore c { s.core c with rrFe := k }) c k (headCmd s c k) = [] := hb
  change execFrontEndDispatch c s = _
  simp only [execFrontEndDispatch, hruns, hheld, hfind, Bool.not_true, Bool.or_self, Bool.false_eq_true, if_false]
  unfold dispatchSlot
  simp only [State.core_setCore_same, hslot, hcmd, hmatch, ite_self, List.foldl_nil, List.any_nil, Bool.false_eq_true, if_false,
    State.setCore_setCore]
  rfl

theorem nth_eq_or_mem {α : Type} (d : α) (l : List α) (i : Nat) : nth d l i = d ∨ nth d l i ∈ l := by
  induction l generalizing i with
  | nil => exact .inl rfl
  | cons x r ih =>
    cases i with
    | zero => exact .inr List.mem_cons_self
    | succ i => exact (ih i).imp id (List.mem_cons_of_mem _)

theorem nth_mem {α : Type} (d : α) (l : List α) (i : Nat) (h : d ∈ l) : nth d l i ∈ l := by
  rcases nth_eq_or_mem d l i with he | hm
  · rwa [he]
  · exact hm

/-- A command with some cause faults its slot with one of them, in a state that differs from the served one in draws alone. -/
theorem exec_frontEndDispatch_fault (h : Dispatches s c k) (hb : brkMatches s c k (headCmd s c k) = [])
    (hf : (headCmd s c k).causes (headSlot s c k) ≠ []) :
    ∃ u f, exec (.frontEndDispatch c) s = .next (slotFault u c k f (some (headCmd s c k)) 0 false) ∧
      f ∈ (headCmd s c k).causes (headSlot s c k) ∧ u.cores = (s.setCore c (servedCore s c k)).cores ∧ u.beside = s.beside := by
  rw [exec_frontEndDispatch h hb]
  rcases hc : (headCmd s c k).causes (headSlot s c k) with _ | ⟨f, _ | ⟨g, r⟩⟩
  · contradiction
  · exact ⟨_, f, rfl, List.mem_cons_self, rfl, rfl⟩
  · exact ⟨_, _, rfl, nth_mem _ _ _ List.mem_cons_self, rfl, rfl⟩

end

theorem servedCore_mem (s : State) (c k : Nat) :
    (servedCore s c k).spad = (s.core c).spad ∧ (servedCore s c k).acc = (s.core c).acc ∧ (servedCore s c k).inbox = (s.core c).inbox ∧
    (servedCore s c k).chan = (s.core c).chan ∧ (servedCore s c k).ctrl = (s.core c).ctrl ∧ (servedCore s c k).held = (s.core c).held ∧
    (servedCore s c k).serial = (s.core c).serial ∧ (servedCore s c k).rrFe = k := by
  simp [servedCore]

/-- The slot a command joins when it is dispatched (R47, R62, R63). -/
def queuedSlot (x : SlotSt) (cmd : Cmd) (q : QEntry) : SlotSt :=
  if engineOf cmd.opc = 4 then { x with fe := some q }
  else { x.setQueue (engineOf cmd.opc) (x.queue (engineOf cmd.opc) ++ [q]) with head := x.head + 1 }

theorem enqueue_eq (s : State) (c k : Nat) (x : SlotSt) (cmd : Cmd) :
    enqueue s c k x cmd = s.setCore c { ((s.core c).setSlot k (queuedSlot x cmd ⟨cmd, (s.core c).serial, 0, s.aon⟩)) with
      serial := (s.core c).serial + 1 } := rfl

theorem queuedSlot_engine (x : SlotSt) (cmd : Cmd) (q : QEntry) (h : engineOf cmd.opc ≠ 4) :
    (queuedSlot x cmd q).queue (engineOf cmd.opc) = x.queue (engineOf cmd.opc) ++ [q] ∧ (queuedSlot x cmd q).head = x.head + 1 ∧
    (queuedSlot x cmd q).fe = x.fe := by
  rw [queuedSlot, if_neg h]
  refine ⟨?_, rfl, (setQueue_keep x _ _).2.1⟩
  conv_rhs => rw [← queue_setQueue x (engineOf cmd.opc) (x.queue (engineOf cmd.opc) ++ [q])]
  generalize engineOf cmd.opc = e
  rcases e with _ | _ | _ | e <;> rfl

theorem queuedSlot_front (x : SlotSt) (cmd : Cmd) (q : QEntry) (h : engineOf cmd.opc = 4) :
    (queuedSlot x cmd q).fe = some q ∧ (queuedSlot x cmd q).head = x.head := by
  rw [queuedSlot, if_pos h]
  exact ⟨rfl, rfl⟩

theorem queuedSlot_state (x : SlotSt) (cmd : Cmd) (q : QEntry) : (queuedSlot x cmd q).state = x.state := by
  unfold queuedSlot
  split
  · rfl
  · exact (setQueue_keep x _ _).1

/-- Settles O6: the slot served is taken to its next command; no cause queues it, and a cause faults the slot with HEAD still on it. -/
theorem frontEndDispatchQueuesOrFaults : Obligations.FrontEndDispatchQueuesOrFaults := by
  unfold Obligations.FrontEndDispatchQueuesOrFaults
  intro s c k hk h hb
  obtain ⟨hspad, hacc, hinbox, hchan, hctrl, hheld, hserial, hrr⟩ := servedCore_mem s c k
  refine ⟨fun hnone => ?queued, fun hsome hvalid hrun => ?faulted⟩
  case queued =>
    have hexec := exec_frontEndDispatch h hb
    rw [hnone] at hexec
    simp only [enqueue_eq, State.setCore_setCore, State.core_setCore_same, hserial, State.setCore_aon] at hexec
    refine ⟨_, hexec, ?_⟩
    rw [State.slot_eq, State.core_setCore_same, Core.slot_serial, Core.slot_setSlot_same]
    refine ⟨fun he => queuedSlot_engine _ _ _ he, fun he => queuedSlot_front _ _ _ he, by simp [hrr], queuedSlot_state .., ?_⟩
    refine oneSlot_of s _ c k _ rfl ?_ ?_ ?_ ?_ ?_ ?_ fun j hj hne => ?_ <;> try simpa
    rw [Core.slot_serial, Core.slot_setSlot _ _ _ _ hk hj, if_neg hne, servedCore_slot_ne hk hj hne]
  case faulted =>
    obtain ⟨u, f, hexec, hmem, hcores, hbeside⟩ := exec_frontEndDispatch_fault h hb hsome
    have hcore : ∀ j, u.core j = (s.setCore c (servedCore s c k)).core j := fun j => by rw [State.core, hcores, ← State.core]
    have hslot : u.slot c k = headSlot s c k := by rw [State.slot_eq, hcore, State.core_setCore_same, servedCore_slot]
    have hother : ∀ j, j < 4 → j ≠ k → u.slot c j = s.slot c j := fun j hj hne => by
      rw [State.slot_eq, hcore, State.core_setCore_same, servedCore_slot_ne hk hj hne, State.slot_eq]
    have hkeep : KeepsMemory s u := keepsMemory_of s u (fun j => by rw [hcore]; exact (setCore_mem s c _ hspad hacc j).1)
      (fun j => by rw [hcore]; exact (setCore_mem s c _ hspad hacc j).2) hbeside
    obtain ⟨hstate, hfault, _⟩ := slotFault_first u c k f (some (headCmd s c k)) 0 false (by simp [hslot, hrun]) (by simp [hslot, hrun])
      (by rw [hslot, hvalid])
    refine ⟨_, f, hexec, hmem, hstate, hfault, ?_, fun j hj hne => ?_, hkeep.trans (keepsMemory_slotFault ..)⟩
    · rw [(slotFault_same u c k f (some (headCmd s c k)) 0 false).1, hslot]
    · rw [slotFault_other _ _ _ _ _ _ _ _ _ hk hj (.inr hne), hother j hj hne]

/-! ### The front end's own commands (R50, R55, R63, R80) -/

section

variable {s : State} {c k : Nat} {q : QEntry}

theorem feTake_core_ctrl (s : State) (c k : Nat) (q : QEntry) (j : Nat) : ((feTake s c k q).core j).ctrl = (s.core j).ctrl := by
  unfold feTake
  dsimp only
  rw [State.core_setCore]
  split
  · subst j
    split <;> simp [passHurdle_mem]
  · rfl

theorem feTake_hurdle (h : q.cmd.waitEn = false) : ((feTake s c k q).core c).hurdle = (s.core c).hurdle := by
  simp [feTake, h]

/-- What a front-end command that has been taken leaves once it ends, whatever it did to the hurdles between: it blocks no longer, and HEAD is past it. -/
theorem finish_of_feTake (hk : k < 4) (u : State) (hslot : u.slot c k = (feTake s c k q).slot c k) (hmem : KeepsMemory (feTake s c k q) u) (cmd : Cmd)
    (seq : Nat) : ((finish u c k cmd seq).slot c k).fe = none ∧ ((finish u c k cmd seq).slot c k).head = (s.slot c k).head + 1 ∧
      KeepsMemory s (finish u c k cmd seq) := by
  obtain ⟨htake, _, _⟩ := feTake_facts s c k q
  obtain ⟨hhead, _, _, _, hfe⟩ := finish_slot u c k cmd seq c k hk
  exact ⟨hfe (by rw [hslot, htake]), by rw [hhead, hslot, htake], ((keepsMemory_feTake s c k q).trans hmem).trans (keepsMemory_finish ..)⟩

theorem exec_nop (h : feReady s c k oNOP = some q) : exec (.nop c k) s = .next (finish (feTake s c k q) c k q.cmd q.seq) := by
  change execNop c k s = _
  simp only [execNop, h]

theorem exec_fence (h : feReady s c k oFENCE = some q)
    (hq : ((List.range 4).all fun e => !bit q.cmd.w1 e || engineClear (s.slot c k) e) = true) :
    exec (.fence c k) s = .next (finish (feTake s c k q) c k q.cmd q.seq) := by
  change execFence c k s = _
  simp only [execFence, h, hq, if_true]

theorem exec_harm (h : feReady s c k oHARM = some q) (hw : earlierWaiter (s.core c) (s.slot c k) (bits q.cmd.w1 5 0) q.seq = false) :
    exec (.harm c k) s = .next (finish ((feTake s c k q).setCore c (((feTake s c k q).core c).setHur ((s.slot c k).hbase + bits q.cmd.w1 5 0)
      (mkWord [(0, bits q.cmd.w1 47 32), (16, bits q.cmd.w1 31 16), (32, bits q.cmd.w1 6 6)]))) c k q.cmd q.seq) := by
  rw [State.slot_eq] at hw
  change execHarm c k s = _
  simp only [execHarm, h, hw, Bool.false_eq_true, if_false]
  rfl

theorem exec_hsig (h : feReady s c k oHSIG = some q) : exec (.hsig c k) s = .next (
      if hurdleOver (feTake s c k q) c ((s.slot c k).hbase + bits q.cmd.w1 5 0) (bits q.cmd.w1 31 16) then
        stepDone (hurdleAdd (feTake s c k q) c ((s.slot c k).hbase + bits q.cmd.w1 5 0) (bits q.cmd.w1 31 16) (some q.cmd)) c k q.seq
      else
        finish (hurdleAdd (feTake s c k q) c ((s.slot c k).hbase + bits q.cmd.w1 5 0) (bits q.cmd.w1 31 16) (some q.cmd)) c k q.cmd q.seq) := by
  change execHsig c k s = _
  simp only [execHsig, h]

/-- END of a slot that serves no heat, every earlier command complete: BOUND, and the END record written. -/
theorem exec_endCmd (h : feReady s c k oEND = some q) (hclear : ((List.range 4).all fun e => engineClear (s.slot c k) e) = true) (hs : Settled s)
    (hheat : (s.slot c k).heat = 0) (hsig : q.cmd.sigEn = false) (hmark : q.cmd.mark = false) (hstep : (s.core c).step = none) :
    ∃ u, u = (feTake s c k q).setSlot c k { s.slot c k with fe := none, head := (s.slot c k).head + 1, state := .bound, tiles := [] } ∧
      exec (.endCmd c k) s = .next (putRecord u c (slotRecord u c k kEND q.cmd.ring q.cmd.tag 0)) := by
  obtain ⟨hslot, hcore, hrest⟩ := feTake_facts s c k q
  obtain ⟨_, _, hrun, _⟩ := feReady_facts s c k oEND q h
  have hfin : finish (feTake s c k q) c k q.cmd q.seq = feTake s c k q := finish_plain _ _ _ _ _ hsig hmark ((hcore c).2.2.2.trans hstep)
  refine ⟨_, rfl, ?_⟩
  set u := (feTake s c k q).setSlot c k { s.slot c k with fe := none, head := (s.slot c k).head + 1, state := .bound, tiles := [] } with hu
  have hdone : partDone (putRecord u c (slotRecord u c k kEND q.cmd.ring q.cmd.tag 0)) c k =
      putRecord u c (slotRecord u c k kEND q.cmd.ring q.cmd.tag 0) := by
    simp [partDone, slotDone, hu, hheat]
  have hmbx : (putRecord u c (slotRecord u c k kEND q.cmd.ring q.cmd.tag 0)).mbx = s.mbx := by
    rw [putRecord_rest, hu, State.setSlot_mbx, hrest]
  change execEndCmd c k s = _
  simp only [execEndCmd, h, hclear, if_true, hfin, hslot, hrun]
  rw [← hu, hdone, settle_of_settled hs hmbx]

end

/-- Settles O7: a command whose wait is passed leaves the front end, has its own effect, and then ends as every command does. -/
theorem frontEndCommandsTakeEffect : Obligations.FrontEndCommandsTakeEffect := by
  unfold Obligations.FrontEndCommandsTakeEffect
  intro s c k q
  refine ⟨fun h => ?nop, fun h hq => ?fence, fun h hw => ?harm, fun h => ?hsig, fun h hclear hs hheat hsig hmark hstep hroom => ?endCmd⟩ <;>
    have hk := (feReady_facts s c k _ q h).2.1
  case nop => exact ⟨_, exec_nop h, finish_of_feTake hk _ rfl (keepsMemory_refl _) ..⟩
  case fence => exact ⟨_, exec_fence h hq, finish_of_feTake hk _ rfl (keepsMemory_refl _) ..⟩
  case harm =>
    obtain ⟨hfe, hhead, hmem⟩ := finish_of_feTake hk _ (setHur_slot ..) (keepsMemory_setHur (feTake s c k q) c
      ((s.slot c k).hbase + bits q.cmd.w1 5 0) (mkWord [(0, bits q.cmd.w1 47 32), (16, bits q.cmd.w1 31 16), (32, bits q.cmd.w1 6 6)])) q.cmd q.seq
    refine ⟨_, exec_harm h hw, hfe, hhead, hmem, fun hsig => ?_⟩
    rw [Core.hur, finish_hurdle_of_no_signal _ _ _ hsig, ← Core.hur, State.core_setCore_same, Core.hur_setHur, if_pos rfl]
  case hsig =>
    have hkeep := fun h inc who => keepsMemory_hurdleAdd (feTake s c k q) c h inc who
    obtain ⟨htake, _, _⟩ := feTake_facts s c k q
    obtain ⟨hhead, _, _, _, hfe⟩ :=
      hurdleAdd_slot (feTake s c k q) c ((s.slot c k).hbase + bits q.cmd.w1 5 0) (bits q.cmd.w1 31 16) (some q.cmd) c k hk
    have hsame : q.cmd.waitEn = false → ((feTake s c k q).core c).hur ((s.slot c k).hbase + bits q.cmd.w1 5 0) =
        (s.core c).hur ((s.slot c k).hbase + bits q.cmd.w1 5 0) := fun hwait => by rw [Core.hur, feTake_hurdle hwait, Core.hur]
    refine ⟨_, exec_hsig h, ?_⟩
    split
    · next hover =>
      rw [stepDone_slot]
      refine ⟨hfe (by rw [htake]), by rw [hhead, htake], ((keepsMemory_feTake s c k q).trans (hkeep ..)).trans (keepsMemory_stepDone ..), ?_⟩
      intro hwait _ hfits
      rw [hurdleOver, hsame hwait, decide_eq_true_eq] at hover
      omega
    · obtain ⟨gh, _, _, _, gf⟩ := finish_slot (hurdleAdd (feTake s c k q) c ((s.slot c k).hbase + bits q.cmd.w1 5 0) (bits q.cmd.w1 31 16) (some q.cmd))
        c k q.cmd q.seq c k hk
      refine ⟨gf (hfe (by rw [htake])), by rw [gh, hhead, htake], ((keepsMemory_feTake s c k q).trans (hkeep ..)).trans (keepsMemory_finish ..), ?_⟩
      intro hwait hsig hfits
      rw [Core.hur, finish_hurdle_of_no_signal _ _ _ hsig, ← Core.hur, hurdleAdd_fits _ _ _ _ _ (by rw [hsame hwait]; exact hfits), State.core_setCore_same,
        Core.hur_setHur, if_pos rfl, hsame hwait, hCount_setBits _ _ hfits]
  case endCmd =>
    obtain ⟨_, hcore, hrest⟩ := feTake_facts s c k q
    obtain ⟨u, hu, hexec⟩ := exec_endCmd h hclear hs hheat hsig hmark hstep
    have hslot : u.slot c k = { s.slot c k with fe := none, head := (s.slot c k).head + 1, state := .bound, tiles := [] } := by
      rw [hu, State.slot_setSlot_same]
    have hroomU : RecordRoom u c := by
      rw [hu]
      exact recordRoom_setSlot _ (recordRoom_congr hroom (by rw [hrest]) (by rw [hrest]) (by rw [hrest]) (by rw [hrest]) (by rw [hrest])
        (hcore c).2.2.1 (feTake_core_ctrl ..) (hcore c).2.2.2)
    refine ⟨_, hexec, by rw [putRecord_slot, hslot], by rw [putRecord_slot, hslot], by rw [putRecord_slot, hslot], ?_, ?_⟩
    · rw [hu]
      exact ((keepsMemory_feTake s c k q).trans (keepsMemory_setSlot ..)).trans (keepsMemory_putRecord ..)
    · have hstart : u.starters = s.starters := by rw [hu, State.setSlot_starters, hrest]
      have hcycle : u.fieldCycle = s.fieldCycle := by rw [State.fieldCycle, hu, State.setSlot_fieldQ, hrest, State.fieldCycle]
      rw [putRecord_of_room _ hroomU, slotRecord_eq, hslot, hcycle, State.starter, hstart, ← State.starter]
      rfl

/-! ### Completion, draining, held records, the watchdog (R50, R80, R96, R99, R100) -/

section

variable {s : State} {c k : Nat}

theorem exec_commandComplete (hruns : s.coreRuns c = true) (hk : k < 4) {n : Nat} {u : Started} (hf : (s.slot c k).find n = some u)
    (hw : workDone u.work = true) :
    exec (.commandComplete c k n) s = .next (finish (s.setSlot c k ((s.slot c k).drop n)) c k u.cmd u.seq) := by
  change execCommandComplete c k n s = _
  simp [execCommandComplete, hruns, hk, hf, hw]

theorem exec_slotDrained_pausing (hruns : s.coreRuns c = true) (hk : k < 4) (hd : (s.slot c k).drain = some .pausing)
    (hp : (s.slot c k).started.all parked = true) : exec (.slotDrained c k) s =
      .next (putRecord (s.setSlot c k { s.slot c k with drain := none }) c (slotRecord s c k kPAUSED (s.slot c k).head.toNat 0 0)) := by
  change execSlotDrained c k s = _
  simp [execSlotDrained, hruns, hk, hd, hp]

theorem exec_slotDrained_stopping (hruns : s.coreRuns c = true) (hk : k < 4) (hd : (s.slot c k).drain = some .stopping)
    (hp : (s.slot c k).started = []) : exec (.slotDrained c k) s =
      .next (putRecord (s.setSlot c k { s.slot c k with drain := none }) c (slotRecord s c k kSTOPPED (s.slot c k).head.toNat 0 0)) := by
  change execSlotDrained c k s = _
  simp [execSlotDrained, hruns, hk, hd, hp]

theorem exec_completionRecordWrite (hruns : s.coreRuns c = true) {r : Record} {rest : List Record} (hh : (s.core c).held = r :: rest)
    (hq : (s.starter (starterOf c)).queue.length < 1024) : exec (.completionRecordWrite c) s =
      .next ((s.setCore c { s.core c with held := rest }).setStarter (starterOf c)
        { s.starter (starterOf c) with queue := (s.starter (starterOf c)).queue ++ [r] }) := by
  change execCompletionRecordWrite c s = _
  simp [execCompletionRecordWrite, hruns, hh, hq]

theorem exec_watchdogExpiry (hruns : s.coreRuns c = true) (hk : k < 4) {e : Nat} {cmd : Cmd} {since : Nat} (hrun : (s.slot c k).state = .running)
    (hus : wdogUs s c ≠ 0) (hst : stalled (s.core c) k e = some (cmd, since, none)) (hlate : since + usAon (wdogUs s c) < s.aon) :
    exec (.watchdogExpiry c k e) s = .next (slotFault s c k fcWATCHDOG (some cmd) 0 false) := by
  rw [State.slot_eq] at hrun
  change execWatchdogExpiry c k e s = _
  simp [execWatchdogExpiry, hruns, hk, hrun, hus, hst, hlate]

/-- A drained slot's record written: the slot drains no more, the record is its starter's last. -/
theorem drained_record (hroom : RecordRoom s c) (r : Record) :
    ((putRecord (s.setSlot c k { s.slot c k with drain := none }) c r).slot c k).drain = none ∧
    ((putRecord (s.setSlot c k { s.slot c k with drain := none }) c r).slot c k).state = (s.slot c k).state ∧
    ((putRecord (s.setSlot c k { s.slot c k with drain := none }) c r).starter (starterOf c)).queue = (s.starter (starterOf c)).queue ++ [r] ∧
    KeepsMemory s (putRecord (s.setSlot c k { s.slot c k with drain := none }) c r) :=
  ⟨by simp, by simp, by rw [putRecord_of_room r (recordRoom_setSlot _ hroom), State.setSlot_starter],
    (keepsMemory_setSlot ..).trans (keepsMemory_putRecord ..)⟩

end

/-- The completion of a command whose work is done, on a core that is not stepping. -/
theorem commandComplete_effect (s : State) (c k n : Nat) (u : Started) (hfit : SignalFits s c k u.cmd) (hstep : (s.core c).step = none) :
    ∃ t, finish (s.setSlot c k ((s.slot c k).drop n)) c k u.cmd u.seq = t ∧
      (t.slot c k).started = (s.slot c k).started.filter (·.serial != n) ∧
      (u.cmd.sigEn = true → hCount ((t.core c).hur ((s.slot c k).hbase + u.cmd.sigH)) =
        hCount ((s.core c).hur ((s.slot c k).hbase + u.cmd.sigH)) + 1) ∧
      (u.cmd.mark = true → RecordRoom s c → (t.starter (starterOf c)).queue = (s.starter (starterOf c)).queue ++
        [⟨kMARK, coreCol c, k, (s.slot c k).ctx, u.cmd.ring, u.cmd.tag, 0, s.fieldCycle⟩]) ∧ KeepsMemory s t := by
  set v := s.setSlot c k ((s.slot c k).drop n) with hv
  have hslot : v.slot c k = (s.slot c k).drop n := State.slot_setSlot_same ..
  have hbase : (v.slot c k).hbase = (s.slot c k).hbase := by rw [hslot]; rfl
  have hhur : ∀ h, (v.core c).hur h = (s.core c).hur h := fun h => by rw [Core.hur, hv, State.setSlot_core_hurdle, Core.hur]
  have hfitV : SignalFits v c k u.cmd := fun h => by rw [hhur, hbase]; exact hfit h
  have hstepV : (v.core c).step = none := by rw [hv, State.setSlot_core_step, hstep]
  have hsigHur := fun h => signalled_hur (s := v) u.cmd hfitV h
  simp only [hbase, hhur] at hsigHur
  have hstarters : (signalled v c k u.cmd).starters = s.starters := by unfold signalled; split <;> rfl
  have hfieldQ : (signalled v c k u.cmd).fieldQ = s.fieldQ := by unfold signalled; split <;> rfl
  refine ⟨_, rfl, ?_, fun hsig => ?_, fun hmark hroom => ?_, (keepsMemory_setSlot ..).trans (keepsMemory_finish ..)⟩ <;>
    rw [finish_of_signalFits _ _ hfitV hstepV]
  · split
    · rw [putRecord_slot, signalled_slot, hslot]; rfl
    · rw [signalled_slot, hslot]; rfl
  · split
    · rw [Core.hur, putRecord_hurdle, ← Core.hur, hsigHur hsig]
    · exact hsigHur hsig
  · rw [if_pos hmark, putRecord_of_room _ (recordRoom_signalled _ (recordRoom_setSlot _ hroom)), slotRecord_eq, signalled_slot, hslot, State.starter,
      hstarters, ← State.starter, State.fieldCycle, hfieldQ, ← State.fieldCycle]
    rfl

/-- Settles O8: the end of a command signals first and writes its record last; drains, held records and the watchdog write what they name. -/
theorem completionSignalsAndRecords : Obligations.CompletionSignalsAndRecords := by
  unfold Obligations.CompletionSignalsAndRecords
  intro s c k hruns hk
  refine ⟨fun n u hf hw hfit hstep => ?complete, fun hd hp hroom => ?pausing, fun hd hp hroom => ?stopping, fun r rest hh hq => ?held,
    fun e cmd since hrun hus hst hlate hvalid => ?watchdog⟩
  case complete =>
    obtain ⟨t, ht, heffect⟩ := commandComplete_effect s c k n u hfit hstep
    exact ⟨t, ht ▸ exec_commandComplete hruns hk hf hw, heffect⟩
  case pausing => exact ⟨_, exec_slotDrained_pausing hruns hk hd hp, drained_record hroom _⟩
  case stopping => exact ⟨_, exec_slotDrained_stopping hruns hk hd hp, drained_record hroom _⟩
  case held =>
    refine ⟨_, exec_completionRecordWrite hruns hh hq, by simp, by simp, ?_⟩
    exact (keepsMemory_setCore s c { s.core c with held := rest } rfl rfl).trans (keepsMemory_same _ _ rfl rfl)
  case watchdog =>
    obtain ⟨hstate, hfault, _⟩ := slotFault_first s c k fcWATCHDOG (some cmd) 0 false (by simp [hrun]) (by simp [hrun]) hvalid
    exact ⟨_, exec_watchdogExpiry hruns hk hrun hus hst hlate, hstate, hfault, keepsMemory_slotFault ..⟩

end Sys2Proof.Machine
end

section
/-!
PROOFS of the core grid: what an engine's start of a command keeps. The state with the head taken, the frame of what runs on it, and the started command.
-/

namespace Sys2Proof.Machine

/-! ### Frames -/

/-- What a change of core `c` made for slot `k` keeps of that core: every scratchpad byte and accumulator element outside some ranges, its inbox and channel
registers, and the state, configuration and started commands of its other slots. -/
structure CoreFrame (a b : Core) (k : Nat) (sp ac : List (Nat × Nat)) : Prop where
  spad : ∀ i, (∀ r ∈ sp, i < r.1 ∨ r.1 + r.2 ≤ i) → mget 0 b.spad i = mget 0 a.spad i
  acc : ∀ i, (∀ r ∈ ac, i < r.1 ∨ r.1 + r.2 ≤ i) → mget 0 b.acc i = mget 0 a.acc i
  inbox : b.inbox = a.inbox
  chan : b.chan = a.chan
  others : ∀ j, j < 4 → j ≠ k → (b.slot j).started = (a.slot j).started ∧ (b.slot j).state = (a.slot j).state ∧ (b.slot j).cfg = (a.slot j).cfg

theorem CoreFrame.refl (a : Core) (k : Nat) (sp ac : List (Nat × Nat)) : CoreFrame a a k sp ac :=
  ⟨fun _ _ => rfl, fun _ _ => rfl, rfl, rfl, fun _ _ _ => ⟨rfl, rfl, rfl⟩⟩

theorem CoreFrame.trans {a b d : Core} {k : Nat} {sp ac : List (Nat × Nat)} (h : CoreFrame a b k sp ac) (g : CoreFrame b d k sp ac) :
    CoreFrame a d k sp ac := by
  refine ⟨fun i hi => (g.spad i hi).trans (h.spad i hi), fun i hi => (g.acc i hi).trans (h.acc i hi), g.inbox.trans h.inbox, g.chan.trans h.chan,
    fun j hj hne => ?_⟩
  obtain ⟨h1, h2, h3⟩ := h.others j hj hne
  obtain ⟨g1, g2, g3⟩ := g.others j hj hne
  exact ⟨g1.trans h1, g2.trans h2, g3.trans h3⟩

theorem CoreFrame.mono {a b : Core} {k : Nat} {sp sp' ac : List (Nat × Nat)} (h : CoreFrame a b k sp ac) (hs : ∀ r ∈ sp, r ∈ sp') :
    CoreFrame a b k sp' ac :=
  ⟨fun i hi => h.spad i fun r hr => hi r (hs r hr), h.acc, h.inbox, h.chan, h.others⟩

/-- Cores that agree in memories, inboxes, channels and all slots but one. -/
theorem coreFrame_of_eq {a b : Core} {k : Nat} (sp ac : List (Nat × Nat)) (h1 : b.spad = a.spad) (h2 : b.acc = a.acc) (h3 : b.inbox = a.inbox)
    (h4 : b.chan = a.chan) (h5 : ∀ j, j < 4 → j ≠ k → b.slot j = a.slot j) : CoreFrame a b k sp ac :=
  ⟨fun _ _ => by rw [h1], fun _ _ => by rw [h2], h3, h4, fun j hj hne => by rw [h5 j hj hne]; exact ⟨rfl, rfl, rfl⟩⟩

theorem coreFrame_setSlot (a : Core) {k : Nat} (hk : k < 4) (x : SlotSt) (sp ac : List (Nat × Nat)) : CoreFrame a (a.setSlot k x) k sp ac :=
  coreFrame_of_eq sp ac (by simp) (by simp) (by simp) (by simp) fun j hj hne => by rw [Core.slot_setSlot _ _ _ _ hk hj, if_neg hne]

theorem winWrite_slot (a : Core) (x : SlotSt) (off : Nat) (l : List Byte) (j : Nat) : (winWrite a x off l).slot j = a.slot j := by
  rcases j with _ | _ | _ | j <;> rfl

/-- A write into a window reaches the bytes written and no other. -/
theorem coreFrame_winWrite (a : Core) (k : Nat) (x : SlotSt) (off : Nat) (l : List Byte) {sp : List (Nat × Nat)} (ac : List (Nat × Nat)) {r : Nat × Nat}
    (hr : r ∈ sp) (hlo : r.1 ≤ x.spb * 4096 + off) (hhi : x.spb * 4096 + off + l.length ≤ r.1 + r.2) : CoreFrame a (winWrite a x off l) k sp ac := by
  refine ⟨fun i hi => ?_, fun _ _ => rfl, rfl, rfl, fun j _ _ => by rw [winWrite_slot]; exact ⟨rfl, rfl, rfl⟩⟩
  have hout := hi r hr
  rw [winWrite, mget_mwrite, if_neg (by omega)]

theorem EngineFrame.refl (s : State) (c k : Nat) (sp ac : List (Nat × Nat)) : EngineFrame s s c k sp ac :=
  ⟨fun _ _ _ => rfl, fun _ _ _ => rfl, fun _ _ => rfl, fun _ _ => rfl, rfl, rfl, fun _ _ _ => ⟨rfl, rfl, rfl⟩⟩

theorem EngineFrame.trans {s t u : State} {c k : Nat} {sp ac : List (Nat × Nat)} (h : EngineFrame s t c k sp ac) (g : EngineFrame t u c k sp ac) :
    EngineFrame s u c k sp ac := by
  obtain ⟨h1, h2, h3, h4, h5, h6, h7⟩ := h
  obtain ⟨g1, g2, g3, g4, g5, g6, g7⟩ := g
  refine ⟨fun j a ha => (g1 j a ha).trans (h1 j a ha), fun j a ha => (g2 j a ha).trans (h2 j a ha), fun d a => (g3 d a).trans (h3 d a),
    fun j hj => (g4 j hj).trans (h4 j hj), g5.trans h5, g6.trans h6, fun j hj hne => ?_⟩
  obtain ⟨a1, a2, a3⟩ := h7 j hj hne
  obtain ⟨b1, b2, b3⟩ := g7 j hj hne
  exact ⟨b1.trans a1, b2.trans a2, b3.trans a3⟩

theorem EngineFrame.mono {s t : State} {c k : Nat} {sp sp' ac ac' : List (Nat × Nat)} (h : EngineFrame s t c k sp ac) (hs : ∀ r ∈ sp, r ∈ sp')
    (ha : ∀ r ∈ ac, r ∈ ac') : EngineFrame s t c k sp' ac' := by
  obtain ⟨h1, h2, h3⟩ := h
  exact ⟨fun j a g => h1 j a fun e r hr => g e r (hs r hr), fun j a g => h2 j a fun e r hr => g e r (ha r hr), h3⟩

/-- With no range written, a frame keeps every byte. -/
theorem EngineFrame.keepsMemory {s t : State} {c k : Nat} (h : EngineFrame s t c k [] []) : KeepsMemory s t := by
  obtain ⟨h1, h2, h3, _⟩ := h
  exact ⟨fun j a => h1 j a (by simp), fun j a => h2 j a (by simp), h3⟩

/-- What holds of core `c` holds of the state, where the other cores and every stack read as before. -/
theorem engineFrame_of_core {s t : State} {c k : Nat} {sp ac : List (Nat × Nat)} (h : CoreFrame (s.core c) (t.core c) k sp ac)
    (hcores : ∀ j, j ≠ c → t.core j = s.core j) (hnear : ∀ d, (t.bdie d).mem = (s.bdie d).mem) : EngineFrame s t c k sp ac := by
  refine ⟨fun j a ha => ?_, fun j a ha => ?_, fun d a => by rw [nearByte, hnear, nearByte], hcores, h.inbox, h.chan, h.others⟩
  · by_cases e : j = c
    · subst e; exact h.spad a (ha rfl)
    · rw [spadByte, hcores j e, spadByte]
  · by_cases e : j = c
    · subst e; exact h.acc a (ha rfl)
    · rw [accWord, hcores j e, accWord]

theorem engineFrame_setCore {s : State} {c k : Nat} {K : Core} {sp ac : List (Nat × Nat)} (h : CoreFrame (s.core c) K k sp ac) :
    EngineFrame s (s.setCore c K) c k sp ac :=
  engineFrame_of_core (by rwa [State.core_setCore_same]) (fun _ hj => State.core_setCore_ne s K hj) fun _ => rfl

theorem engineFrame_setSlot (s : State) (c : Nat) {k : Nat} (hk : k < 4) (x : SlotSt) (sp ac : List (Nat × Nat)) :
    EngineFrame s (s.setSlot c k x) c k sp ac := engineFrame_setCore (coreFrame_setSlot _ hk x sp ac)

/-- A change outside the cores that leaves every stack's bytes. -/
theorem engineFrame_of_cores {s t : State} (c k : Nat) (sp ac : List (Nat × Nat)) (hcores : t.cores = s.cores)
    (hnear : ∀ d, (t.bdie d).mem = (s.bdie d).mem) : EngineFrame s t c k sp ac := by
  have hcore : ∀ j, t.core j = s.core j := fun j => by rw [State.core, hcores, ← State.core]
  exact engineFrame_of_core (by rw [hcore]; exact CoreFrame.refl ..) (fun j _ => hcore j) hnear

theorem engineFrame_pushStarted (s : State) (c : Nat) {k : Nat} (hk : k < 4) (e : Nat) (q : QEntry) (w : Work) (sp ac : List (Nat × Nat)) :
    EngineFrame s (pushStarted s c k e q w) c k sp ac := by
  refine engineFrame_setCore (coreFrame_of_eq sp ac (by simp) (by simp) (by simp) (by simp) fun j hj hne => ?_)
  rw [Core.slot_serial, Core.slot_setSlot _ _ _ _ hk hj, if_neg hne]

/-! ### Reads of a window -/

theorem inWin_congr {x y : SlotSt} (h : y.cfg = x.cfg) : y.inWin = x.inWin := by
  unfold SlotSt.inWin SlotSt.sps
  rw [h]

theorem winRead_congr {a b : Core} {x y : SlotSt} (hs : b.spad = a.spad) (h : y.cfg = x.cfg) : winRead b y = winRead a x := by
  unfold winRead SlotSt.spb
  rw [hs, h]

theorem winNat_congr {a b : Core} {x y : SlotSt} (hs : b.spad = a.spad) (h : y.cfg = x.cfg) : winNat b y = winNat a x := by
  unfold winNat
  rw [winRead_congr hs h]

theorem winRead_length (a : Core) (x : SlotSt) (off n : Nat) : (winRead a x off n).length = n := mread_length ..

/-- A byte read of a window is the scratchpad's. -/
theorem winRead_getElem? (s : State) (c k off n i : Nat) (h : i < n) :
    (winRead (s.core c) (s.slot c k) off n)[i]? = some (spadByte s c (winAddr s c k off + i)) := mread_get _ _ _ _ _ h

/-! ### The head taken -/

section

variable {s : State} {c e k : Nat} {q : QEntry}

/-- A sub-queue written leaves every field that is no sub-queue. -/
theorem setQueue_rest (x : SlotSt) (e : Nat) (l : List QEntry) : ∃ q0 q1 q2 q3, x.setQueue e l = { x with q0 := q0, q1 := q1, q2 := q2, q3 := q3 } := by
  rcases e with _ | _ | _ | e
  · exact ⟨l, x.q1, x.q2, x.q3, rfl⟩
  · exact ⟨x.q0, l, x.q2, x.q3, rfl⟩
  · exact ⟨x.q0, x.q1, l, x.q3, rfl⟩
  · exact ⟨x.q0, x.q1, x.q2, l, rfl⟩

/-- Taking a head changes one core, and the context's last start. -/
theorem takeHead_rest (hk : k < 4) : ∃ l m, takeHead s c e k q = { s with cores := l, srv := { s.srv with ctxs := m } } := by
  obtain ⟨K, l, h, _⟩ := takeHead_spec s c e k q hk
  exact ⟨_, l, h⟩

theorem takeHead_kept (hk : k < 4) : HeadKept (s.core c) ((takeHead s c e k q).core c) := by
  obtain ⟨K, l, h, hkept, _⟩ := takeHead_spec s c e k q hk
  have : (takeHead s c e k q).core c = K := by rw [h]; exact State.core_setCore_same s c K
  rwa [this]

theorem takeHead_slot (hk : k < 4) : (takeHead s c e k q).slot c k = (s.slot c k).setQueue e (afterHead ((s.slot c k).queue e) s.aon) := by
  obtain ⟨K, l, h, _, hslot, _⟩ := takeHead_spec s c e k q hk
  have : (takeHead s c e k q).core c = K := by rw [h]; exact State.core_setCore_same s c K
  rw [State.slot_eq, this, hslot]

/-- The slot whose head is taken keeps every field that is no sub-queue. -/
theorem takeHead_slot_rest (hk : k < 4) :
    ∃ q0 q1 q2 q3, (takeHead s c e k q).slot c k = { s.slot c k with q0 := q0, q1 := q1, q2 := q2, q3 := q3 } := by
  rw [takeHead_slot hk]
  exact setQueue_rest ..

theorem takeHead_cfg (hk : k < 4) : ((takeHead s c e k q).slot c k).cfg = (s.slot c k).cfg := by
  obtain ⟨_, _, _, _, h⟩ := takeHead_slot_rest (s := s) (c := c) (e := e) (q := q) hk
  rw [h]

theorem takeHead_inWin (hk : k < 4) : ((takeHead s c e k q).slot c k).inWin = (s.slot c k).inWin := inWin_congr (takeHead_cfg hk)

theorem takeHead_winRead (hk : k < 4) :
    winRead ((takeHead s c e k q).core c) ((takeHead s c e k q).slot c k) = winRead (s.core c) (s.slot c k) :=
  winRead_congr (takeHead_kept hk).spad (takeHead_cfg hk)

theorem takeHead_winNat (hk : k < 4) :
    winNat ((takeHead s c e k q).core c) ((takeHead s c e k q).slot c k) = winNat (s.core c) (s.slot c k) :=
  winNat_congr (takeHead_kept hk).spad (takeHead_cfg hk)

theorem takeHead_winAddr (hk : k < 4) (off : Nat) : winAddr (takeHead s c e k q) c k off = winAddr s c k off := by
  unfold winAddr SlotSt.spb
  rw [takeHead_cfg hk]

theorem takeHead_frame (hk : k < 4) (sp ac : List (Nat × Nat)) : EngineFrame s (takeHead s c e k q) c k sp ac := by
  obtain ⟨K, l, h, hkept, _, _, hother⟩ := takeHead_spec s c e k q hk
  rw [h]
  exact engineFrame_of_core (t := { s.setCore c K with srv := { s.srv with ctxs := l } })
    (by rw [show ({ s.setCore c K with srv := { s.srv with ctxs := l } } : State).core c = K from State.core_setCore_same s c K]
        exact ⟨fun _ _ => by rw [hkept.spad], fun _ _ => by rw [hkept.acc], hkept.inbox, hkept.chan, hother⟩)
    (fun j hj => State.core_setCore_ne s K hj) fun _ => rfl

theorem afterHead_length (l : List QEntry) (now : Nat) (h : l ≠ []) : (afterHead l now).length + 1 = l.length := by
  rcases l with _ | ⟨a, _ | ⟨b, r⟩⟩ <;> simp_all [afterHead]

end

/-! ### The command started -/

/-- What a command's own effect keeps of its slot: what is queued and started, the state, the configuration, HEAD, TAIL and the fault record. -/
structure SlotKept (x y : SlotSt) : Prop where
  queue : ∀ e, y.queue e = x.queue e
  started : y.started = x.started
  state : y.state = x.state
  cfg : y.cfg = x.cfg
  head : y.head = x.head
  tail : y.tail = x.tail
  fault : y.fault = x.fault

theorem SlotKept.refl (x : SlotSt) : SlotKept x x := ⟨fun _ => rfl, rfl, rfl, rfl, rfl, rfl, rfl⟩

theorem SlotKept.of_eq {x y : SlotSt} (h : y = x) : SlotKept x y := h ▸ SlotKept.refl x

theorem SlotKept.trans {x y z : SlotSt} (h : SlotKept x y) (g : SlotKept y z) : SlotKept x z :=
  ⟨fun e => (g.queue e).trans (h.queue e), g.started.trans h.started, g.state.trans h.state, g.cfg.trans h.cfg, g.head.trans h.head,
    g.tail.trans h.tail, g.fault.trans h.fault⟩

section

variable {s u : State} {c opc k : Nat} {q : QEntry}

theorem engineTakes_lt (h : EngineTakes s c opc k q) : k < 4 := pickSlot_lt _ _ _ h.2.1

/-- A command pushed once its head is taken and its effect has kept the slot is started. -/
theorem starts_pushStarted (h : EngineTakes s c opc k q) (hkept : SlotKept ((takeHead s c (engineOf opc) k q).slot c k) (u.slot c k)) (w : Work) :
    Starts s (pushStarted u c k (engineOf opc) q w) c k (engineOf opc) q w := by
  have hk := engineTakes_lt h
  obtain ⟨_, _, hhead, _⟩ := h
  have hne : (s.slot c k).queue (engineOf opc) ≠ [] := by
    intro he
    rw [State.slot_eq] at he
    simp [he] at hhead
  obtain ⟨v, hslot, hcmd, hseq, hengine, hwork⟩ := pushStarted_slot u c k (engineOf opc) q w hk
  obtain ⟨_, _, _, _, htake⟩ := takeHead_slot_rest (s := s) (c := c) (e := engineOf opc) (q := q) hk
  have hqueue : ((pushStarted u c k (engineOf opc) q w).slot c k).queue (engineOf opc) = afterHead ((s.slot c k).queue (engineOf opc)) s.aon := by
    rw [hslot, show ({ u.slot c k with started := (u.slot c k).started ++ [v] } : SlotSt).queue (engineOf opc) = (u.slot c k).queue (engineOf opc) by
      generalize engineOf opc = e
      rcases e with _ | _ | _ | e <;> rfl, hkept.queue, takeHead_slot hk, queue_setQueue]
  refine ⟨⟨v, ?_, hcmd, hseq, hengine, hwork⟩, ?_, ?_, ?_, ?_, ?_, ?_⟩
  · rw [hslot, hkept.started, htake]
  · rw [hqueue, afterHead_length _ _ hne]
  · rw [hslot, hkept.state, htake]
  · rw [hslot, hkept.cfg, htake]
  · rw [hslot, hkept.head, htake]
  · rw [hslot, hkept.tail, htake]
  · rw [hslot, hkept.fault, htake]

/-- The frame of a start: of the head taken, the command's effect, the command pushed. -/
theorem engineFrame_start (h : EngineTakes s c opc k q) {sp ac : List (Nat × Nat)} (hframe : EngineFrame (takeHead s c (engineOf opc) k q) u c k sp ac)
    (w : Work) : EngineFrame s (pushStarted u c k (engineOf opc) q w) c k sp ac :=
  ((takeHead_frame (engineTakes_lt h) sp ac).trans hframe).trans (engineFrame_pushStarted u c (engineTakes_lt h) _ q w sp ac)

end

end Sys2Proof.Machine
end

section
/-!
PROOFS of the core grid: the vector engine's commands.
-/

namespace Sys2Proof.Machine

/-! ### A vector command that meets no range fault -/

section

variable {s : State} {c opc k : Nat} {q : QEntry}

theorem vectorCheck_ok (ranges : List (Nat × Nat)) (run : State → State) (h : ∀ r ∈ ranges, (s.slot c k).inWin r.1 r.2 = true) :
    vectorCheck s c k q ranges run = run s := by
  have hnone : (ranges.filter fun r => !(s.slot c k).inWin r.1 r.2) = [] := by
    rw [List.filter_eq_nil_iff]
    intro r hr
    simp [h r hr]
  simp [vectorCheck, hnone, pickOne]

/-- The sticky bits are added to, never cleared. -/
theorem stick_fpf_and (a f : Flags) : (a ||| f) &&& a = a := by
  apply BitVec.eq_of_getLsbD_eq
  intro i _
  rw [BitVec.getLsbD_and, BitVec.getLsbD_or]
  cases a.getLsbD i <;> simp

/-- A vector command's result, on a core that its effect has changed in some ranges only. -/
theorem vectorDone_ran (h : EngineTakes s c opc k q) (he : engineOf opc = 1) (K : Core) (f : Flags) (cyc : Nat) {sp : List (Nat × Nat)}
    (hframe : CoreFrame ((takeHead s c 1 k q).core c) K k sp []) (hslot : SlotKept ((takeHead s c 1 k q).slot c k) (K.slot k))
    (hfpf : (K.slot k).fpf = ((takeHead s c 1 k q).slot c k).fpf) : VectorRan s (vectorDone (takeHead s c 1 k q) c k q K f cyc) c k q sp := by
  have hk := engineTakes_lt h
  set v := takeHead s c 1 k q with hv
  set u := ((v.setCore c K).stick c k f).count (v.slot c k).ctx 3 cyc with hu
  have hslotU : u.slot c k = (K.slot k).stick f := by
    rw [hu, State.slot_eq, State.count_core, State.stick, ← State.slot_eq, State.slot_setSlot_same, State.slot_eq, State.core_setCore_same]
  have hstick : SlotKept (K.slot k) ((K.slot k).stick f) := ⟨fun e => by rcases e with _ | _ | _ | e <;> rfl, rfl, rfl, rfl, rfl, rfl, rfl⟩
  have hframeS : EngineFrame (v.setCore c K) ((v.setCore c K).stick c k f) c k sp [] := engineFrame_setSlot _ c hk _ sp []
  have hframeC : EngineFrame ((v.setCore c K).stick c k f) u c k sp [] :=
    engineFrame_of_cores c k sp [] (by rw [hu, State.count_cores]) fun d => by rw [hu, State.count_bdie]
  have hframeU : EngineFrame v u c k sp [] := ((engineFrame_setCore hframe).trans hframeS).trans hframeC
  rw [← he] at hv
  have hstart := starts_pushStarted h (u := u) (hv ▸ (hslotU ▸ hslot.trans hstick)) .done
  have hall := engineFrame_start h (u := u) (hv ▸ hframeU) .done
  rw [he] at hstart hall
  refine ⟨hstart, hall, ?_⟩
  obtain ⟨_, hpush, _⟩ := pushStarted_slot u c k 1 q .done hk
  obtain ⟨_, _, _, _, htake⟩ := takeHead_slot_rest (s := s) (c := c) (e := engineOf opc) (q := q) hk
  rw [vectorDone, ← hu, hpush, hslotU]
  have hsame : (K.slot k).fpf = (s.slot c k).fpf := by rw [hfpf, hv, htake]
  simp only [SlotSt.stick, hsame]
  exact stick_fpf_and _ _

/-- A vector command that writes one run of bytes into its window. -/
theorem vectorDone_winWrite_ran (h : EngineTakes s c opc k q) (he : engineOf opc = 1) (off n : Nat) (l : List Byte) (hl : l.length ≤ n) (f : Flags)
    (cyc : Nat) : VectorRan s (vectorDone (takeHead s c 1 k q) c k q
      (winWrite ((takeHead s c 1 k q).core c) ((takeHead s c 1 k q).slot c k) off l) f cyc) c k q [(winAddr s c k off, n)] := by
  have hk := engineTakes_lt h
  have haddr := takeHead_winAddr (s := s) (c := c) (e := 1) (q := q) hk off
  rw [winAddr] at haddr
  refine vectorDone_ran h he _ f cyc (coreFrame_winWrite _ k _ off l [] List.mem_cons_self ?_ ?_) ?_ ?_
  · rw [haddr]
  · rw [haddr]; simpa using hl
  · exact .of_eq (winWrite_slot ..)
  · rw [winWrite_slot]; rfl

/-- A vector command with no rows. -/
theorem vectorDone_idle_ran (h : EngineTakes s c opc k q) (he : engineOf opc = 1) (f : Flags) (cyc : Nat) (sp : List (Nat × Nat)) :
    VectorRan s (vectorDone (takeHead s c 1 k q) c k q ((takeHead s c 1 k q).core c) f cyc) c k q sp :=
  vectorDone_ran h he _ f cyc (CoreFrame.refl ..) (SlotKept.refl _) rfl

/-- The scratchpad a vector command leaves is the one its effect made. -/
theorem spadByte_vectorDone (K : Core) (f : Flags) (cyc a : Nat) : spadByte (vectorDone s c k q K f cyc) c a = mget 0 K.spad a := by
  obtain ⟨hspad, _⟩ := pushStarted_core (((s.setCore c K).stick c k f).count (s.slot c k).ctx 3 cyc) c k 1 q .done c
  rw [spadByte, vectorDone, hspad, State.count_core, State.stick, State.setSlot_core_spad, State.core_setCore_same]

end

/-! ### Lengths of what the commands write -/

theorem flatMap_length_le {α : Type} (l : List α) (f : α → List Byte) (n : Nat) (h : ∀ x ∈ l, (f x).length ≤ n) :
    (l.flatMap f).length ≤ l.length * n := by
  induction l with
  | nil => simp
  | cons x r ih =>
    have hx := h x List.mem_cons_self
    have hr := ih fun y hy => h y (List.mem_cons_of_mem _ hy)
    rw [List.flatMap_cons, List.length_append, List.length_cons, Nat.succ_mul]
    omega

/-- `n` results of at most `b` bytes each. -/
theorem rows_length_le {β : Type} (n b : Nat) (f : Nat → List Byte × β) (h : ∀ i, (f i).1.length ≤ b) :
    (((List.range n).map f).flatMap (·.1)).length ≤ n * b := by
  refine (flatMap_length_le _ _ b fun x hx => ?_).trans (by simp)
  obtain ⟨i, _, rfl⟩ := List.mem_map.1 hx
  exact h i

theorem eight_length (l : List Nat) (n : Nat) : (eight l n).length = 8 * n := by
  simp [eight, List.length_flatMap, leBytes_length]
  omega

theorem choiceRecord_length (row ksel : Nat) (nan : Bool) (xs gs ss : List Nat) : (choiceRecord row ksel nan xs gs ss).length = 128 := by
  simp [choiceRecord, leBytes_length, eight_length, zeros]

theorem tallyRecord_length (req fin steps : Nat) (ef nan : Bool) (r l : List (Nat × List Nat × Bool × Bool × Nat)) :
    (tallyRecord req fin steps ef nan r l).length = 64 := by
  simp [tallyRecord, leBytes_length, zeros]

theorem epiRow_length_le (K : Core) (x : SlotSt) (row f fmt : Nat) (bias seed : Option Nat) (j : Nat) :
    (epiRow K x row f fmt bias seed j).1.length ≤ 64 * outBytes fmt := by
  unfold epiRow
  dsimp only
  refine rows_length_le 64 (outBytes fmt) _ fun i => ?_
  dsimp only
  rw [leBytes_length]

theorem padRow_length_le (fmt v : Nat) : (padRow fmt v).1.length ≤ 64 * outBytes fmt :=
  (flatMap_length_le (List.range 64) _ _ fun _ _ => (leBytes_length ..).le).trans (by rw [List.length_range])

/-! ### Several runs written into a window -/

/-- A byte of a run written into a window. -/
theorem mget_winWrite (a : Core) (x : SlotSt) (off i : Nat) (l : List Byte) (h : i < l.length) :
    mget 0 (winWrite a x off l).spad (x.spb * 4096 + off + i) = (l[i]?).getD 0 := by
  rw [winWrite, mget_mwrite, if_pos (by omega), Nat.add_sub_cancel_left]

/-- Runs written one after the other reach the ranges named and no slot. -/
theorem coreFrame_foldl_winWrite (x : SlotSt) (k : Nat) (l : List (Nat × List Byte × Flags)) (a : Core) (sp : List (Nat × Nat))
    (h : ∀ r ∈ l, ∃ n, (x.spb * 4096 + r.1, n) ∈ sp ∧ r.2.1.length ≤ n) :
    CoreFrame a (l.foldl (fun k r => winWrite k x r.1 r.2.1) a) k sp [] ∧ ∀ j, (l.foldl (fun k r => winWrite k x r.1 r.2.1) a).slot j = a.slot j := by
  refine List.foldlRecOn (motive := fun b => CoreFrame a b k sp [] ∧ ∀ j, b.slot j = a.slot j) l _ ⟨CoreFrame.refl .., fun _ => rfl⟩ ?_
  intro b hb r hr
  obtain ⟨n, hmem, hlen⟩ := h r hr
  exact ⟨hb.1.trans (coreFrame_winWrite b k x r.1 r.2.1 [] hmem le_rfl (by dsimp only; omega)), fun j => by rw [winWrite_slot, hb.2]⟩

/-- A vector command that writes several runs of bytes into its window. -/
theorem vectorDone_foldl_winWrite_ran {s : State} {c opc k : Nat} {q : QEntry} (h : EngineTakes s c opc k q) (he : engineOf opc = 1)
    (l : List (Nat × List Byte × Flags)) (f : Flags) (cyc : Nat) (sp : List (Nat × Nat))
    (hl : ∀ r ∈ l, ∃ n, (winAddr s c k r.1, n) ∈ sp ∧ r.2.1.length ≤ n) :
    VectorRan s (vectorDone (takeHead s c 1 k q) c k q
      (l.foldl (fun K r => winWrite K ((takeHead s c 1 k q).slot c k) r.1 r.2.1) ((takeHead s c 1 k q).core c)) f cyc) c k q sp := by
  obtain ⟨hframe, hslot⟩ := coreFrame_foldl_winWrite ((takeHead s c 1 k q).slot c k) k l ((takeHead s c 1 k q).core c) sp fun r hr => by
    obtain ⟨n, hmem, hlen⟩ := hl r hr
    refine ⟨n, ?_, hlen⟩
    rwa [← takeHead_winAddr (e := 1) (q := q) (engineTakes_lt h), winAddr] at hmem
  exact vectorDone_ran h he _ f cyc hframe (.of_eq (hslot k)) (by rw [hslot]; rfl)

/-! ### VOP, VRED, ROUTE, SAMPLE -/

section

variable {s : State} {c k : Nat} {q : QEntry}

theorem exec_vop (h : EngineTakes s c oVOP k q) : exec (.vop c) s = .next (vopStart (takeHead s c 1 k q) c k q) :=
  congrArg _ (engineStart_takes s c oVOP k q _ h)

theorem exec_vred (h : EngineTakes s c oVRED k q) : exec (.vred c) s = .next (vredStart (takeHead s c 1 k q) c k q) :=
  congrArg _ (engineStart_takes s c oVRED k q _ h)

theorem exec_epi (h : EngineTakes s c oEPI k q) : exec (.epi c) s = .next (epiStart (takeHead s c 1 k q) c k q) :=
  congrArg _ (engineStart_takes s c oEPI k q _ h)

theorem exec_vcvt (h : EngineTakes s c oVCVT k q) : exec (.vcvt c) s = .next (vcvtStart (takeHead s c 1 k q) c k q) :=
  congrArg _ (engineStart_takes s c oVCVT k q _ h)

theorem exec_route (h : EngineTakes s c oROUTE k q) : exec (.route c) s = .next (routeStart (takeHead s c 1 k q) c k q) :=
  congrArg _ (engineStart_takes s c oROUTE k q _ h)

theorem exec_sample (h : EngineTakes s c oSAMPLE k q) : exec (.sample c) s = .next (sampleStart (takeHead s c 1 k q) c k q) :=
  congrArg _ (engineStart_takes s c oSAMPLE k q _ h)

theorem vop_runs (h : EngineTakes s c oVOP k q) (op b n : Nat) (hop : op = nbits q.cmd.flags 5 0) (hb : b = outBytes (nbits q.cmd.flags 7 6))
    (hn : n = bits q.cmd.w2 41 22) (hA : (s.slot c k).inWin (bits q.cmd.w1 21 0) (n * b) = true)
    (hB : 1 ≤ op → op ≤ 6 → (s.slot c k).inWin (bits q.cmd.w1 43 22) (n * b) = true) (hD : (s.slot c k).inWin (bits q.cmd.w2 21 0) (n * b) = true) :
    ∃ t, exec (.vop c) s = .next t ∧ VectorRan s t c k q [(winAddr s c k (bits q.cmd.w2 21 0), n * b)] ∧
      (op = 0 → ∀ i, i < n * b →
        spadByte t c (winAddr s c k (bits q.cmd.w2 21 0) + i) = spadByte s c (winAddr s c k (bits q.cmd.w1 21 0) + i)) := by
  subst hop hb hn
  have hk := engineTakes_lt h
  refine ⟨_, exec_vop h, ?_⟩
  unfold vopStart
  dsimp only
  rw [vectorCheck_ok _ _ fun r hr => ?inside]
  case inside =>
    rw [takeHead_inWin hk]
    simp only [List.mem_append, List.mem_singleton] at hr
    rcases hr with (rfl | hr) | rfl
    · exact hA
    · split at hr
      · next htwo =>
        rw [decide_eq_true_eq] at htwo
        rw [List.mem_singleton.1 hr]
        exact hB htwo.1 htwo.2
      · simp at hr
    · exact hD
  split
  · next hcopy =>
    refine ⟨vectorDone_winWrite_ran h rfl _ _ _ (winRead_length ..).le _ _, fun _ i hi => ?_⟩
    simp only [← State.slot_eq]
    rw [spadByte_vectorDone, ← takeHead_winAddr hk, winAddr, mget_winWrite _ _ _ _ _ (by rwa [winRead_length]), takeHead_winRead hk,
      winRead_getElem? s c k _ _ _ hi, Option.getD_some]
  · next hcopy =>
    exact ⟨vectorDone_winWrite_ran h rfl _ _ _ (rows_length_le _ _ _ fun i => (leBytes_length ..).le) _ _, fun h0 => absurd h0 hcopy⟩

theorem vred_runs (h : EngineTakes s c oVRED k q) (b n rows : Nat) (hb : b = outBytes (nbits q.cmd.flags 7 6)) (hn : n = bits q.cmd.w2 41 22)
    (hrows : rows = bits q.cmd.w3 15 0)
    (hS : (s.slot c k).inWin (bits q.cmd.w1 21 0) (if rows = 0 then 0 else (rows - 1) * roundUp (n * b) 64 + n * b) = true)
    (hD : (s.slot c k).inWin (bits q.cmd.w2 21 0) (rows * b) = true) :
    ∃ t, exec (.vred c) s = .next t ∧ VectorRan s t c k q [(winAddr s c k (bits q.cmd.w2 21 0), rows * b)] := by
  subst hb hn hrows
  have hk := engineTakes_lt h
  refine ⟨_, exec_vred h, ?_⟩
  unfold vredStart
  dsimp only
  rw [vectorCheck_ok _ _ fun r hr => ?inside]
  case inside =>
    rw [takeHead_inWin hk]
    simp only [List.mem_cons, List.not_mem_nil, or_false] at hr
    rcases hr with rfl | rfl
    · exact hS
    · exact hD
  exact vectorDone_winWrite_ran h rfl _ _ _ (rows_length_le _ _ _ fun i => (leBytes_length ..).le) _ _

theorem route_runs (h : EngineTakes s c oROUTE k q) (e rows src out : Nat) (he : e = bits q.cmd.w3 10 0) (hrows : rows = bits q.cmd.w2 37 22)
    (hsrc : src = bits q.cmd.w1 21 0) (hout : out = bits q.cmd.w2 21 0)
    (hin : rows ≠ 0 → (s.slot c k).inWin src ((rows - 1) * roundUp (4 * e) 64 + 4 * e) = true ∧
      (s.slot c k).inWin (bits q.cmd.w1 43 22) (4 * e) = true ∧ (s.slot c k).inWin out (128 * rows) = true) :
    ∃ t, exec (.route c) s = .next t ∧ VectorRan s t c k q [(winAddr s c k out, 128 * rows)] := by
  subst he hrows hsrc hout
  have hk := engineTakes_lt h
  refine ⟨_, exec_route h, ?_⟩
  unfold routeStart
  dsimp only
  split
  · exact vectorDone_idle_ran h rfl _ _ _
  · next hne =>
    obtain ⟨hS, hB, hO⟩ := hin hne
    rw [vectorCheck_ok _ _ fun r hr => ?inside]
    case inside =>
      rw [takeHead_inWin hk]
      simp only [List.mem_cons, List.not_mem_nil, or_false] at hr
      rcases hr with rfl | rfl | rfl
      · exact hS
      · exact hB
      · exact hO
    refine vectorDone_winWrite_ran h rfl _ _ _ ((rows_length_le _ 128 _ fun i => (choiceRecord_length ..).le).trans ?_) _ _
    rw [Nat.mul_comm]

theorem leNat_of_zero (l : List Byte) (h : ∀ b ∈ l, b = 0) : leNat l = 0 := by
  induction l with
  | nil => rfl
  | cons b r ih =>
    rw [leNat, h b List.mem_cons_self, ih fun x hx => h x (List.mem_cons_of_mem _ hx)]
    rfl

/-- Four zero bytes of a window read as zero. -/
theorem winNat_of_zero (s : State) (c k off n : Nat) (h : ∀ i, i < n → spadByte s c (winAddr s c k (off + i)) = 0) :
    winNat (s.core c) (s.slot c k) off n = 0 := by
  refine leNat_of_zero _ fun b hb => ?_
  obtain ⟨i, hi⟩ := List.mem_iff_getElem?.1 hb
  have hlt : i < n := by
    have := (List.getElem?_eq_some_iff.1 hi).1
    rwa [winRead_length] at this
  rw [winRead_getElem? s c k off n i hlt] at hi
  rw [← Option.some.inj hi, ← h i hlt, winAddr, winAddr, Nat.add_assoc]

theorem sample_runs (h : EngineTakes s c oSAMPLE k q) (v rows src out par : Nat) (hv : v = bits q.cmd.w3 51 32) (hrows : rows = bits q.cmd.w2 34 22)
    (hsrc : src = bits q.cmd.w1 21 0) (hout : out = bits q.cmd.w1 43 22) (hpar : par = bits q.cmd.w2 21 0)
    (hin : rows ≠ 0 → (s.slot c k).inWin src ((rows - 1) * roundUp (4 * v) 64 + 4 * v) = true ∧
      (s.slot c k).inWin out (16 * rows) = true ∧ (s.slot c k).inWin par (16 * rows) = true)
    (hzero : ∀ r i, r < rows → i < 4 → spadByte s c (winAddr s c k (par + 16 * r + 12 + i)) = 0) :
    ∃ t, exec (.sample c) s = .next t ∧ VectorRan s t c k q [(winAddr s c k out, 16 * rows)] := by
  subst hv hrows hsrc hout hpar
  have hk := engineTakes_lt h
  refine ⟨_, exec_sample h, ?_⟩
  unfold sampleStart
  dsimp only
  split
  · exact vectorDone_idle_ran h rfl _ _ _
  · next hne =>
    obtain ⟨hS, hO, hP⟩ := hin hne
    rw [vectorCheck_ok _ _ fun r hr => ?inside]
    case inside =>
      rw [takeHead_inWin hk]
      simp only [List.mem_cons, List.not_mem_nil, or_false] at hr
      rcases hr with rfl | rfl | rfl
      · exact hS
      · exact hO
      · exact hP
    rw [if_neg]
    · refine vectorDone_winWrite_ran h rfl _ _ _ ((rows_length_le _ 16 _ fun i => ?_).trans (by rw [Nat.mul_comm])) _ _
      simp [leBytes_length, zeros]
    · simp only [List.any_eq_true, List.mem_range, bne_iff_ne, ne_eq, not_exists, not_and, not_not, ← State.slot_eq]
      intro r hr
      rw [takeHead_winNat hk]
      exact winNat_of_zero s c k _ 4 fun i hi => hzero r i hr hi

/-! ### EPI -/

theorem epi_runs (h : EngineTakes s c oEPI k q) (rows dst stride b : Nat) (hrows : rows = bits q.cmd.w1 20 10) (hdst : dst = bits q.cmd.w2 21 0)
    (hstride : stride = bits q.cmd.w2 51 30) (hb : b = 64 * outBytes (bits q.cmd.w2 25 22))
    (hin : rows ≠ 0 → bits q.cmd.w1 9 0 + rows ≤ (s.slot c k).acs ∧ (s.slot c k).inWin dst ((rows - 1) * stride + b) = true ∧
      (nbits q.cmd.flags 0 0 = 1 → (s.slot c k).inWin (bits q.cmd.w1 42 21) 256 = true)) :
    ∃ t, exec (.epi c) s = .next t ∧ VectorRan s t c k q ((List.range rows).map fun r => (winAddr s c k (dst + r * stride), b)) := by
  subst hrows hdst hstride hb
  have hk := engineTakes_lt h
  have hacs : ((takeHead s c 1 k q).slot c k).acs = (s.slot c k).acs := by rw [SlotSt.acs, takeHead_cfg hk, ← SlotSt.acs]
  refine ⟨_, exec_epi h, ?_⟩
  unfold epiStart
  dsimp only
  split
  · exact vectorDone_idle_ran h rfl _ _ _
  · next hne =>
    obtain ⟨hA, hD, hB⟩ := hin hne
    rw [if_neg (by rw [hacs]; omega), vectorCheck_ok _ _ fun r hr => ?inside]
    case inside =>
      rw [takeHead_inWin hk]
      simp only [List.mem_append, List.mem_singleton] at hr
      rcases hr with rfl | hr
      · exact hD
      · split at hr
        · next hbias =>
          rw [List.mem_singleton.1 hr]
          exact hB hbias
        · simp at hr
    refine vectorDone_foldl_winWrite_ran h rfl _ _ _ _ fun r hr => ?_
    obtain ⟨i, hi, rfl⟩ := List.mem_map.1 hr
    refine ⟨_, List.mem_map.2 ⟨i, hi, rfl⟩, ?_⟩
    dsimp only
    split
    · exact padRow_length_le ..
    · exact epiRow_length_le ..

/-! ### VCVT -/

theorem widerFmt_bounds (f : Nat) : 3 ≤ widerFmt f ∧ widerFmt f ≤ 8 := by
  unfold widerFmt
  split <;> omega

theorem fmtBits_le_of_block (f : Nat) (h : 2 ≤ f) : fmtBits f ≤ 8 := by
  unfold fmtBits
  split <;> omega

theorem cvtBlocks_length (w : Nat) (u : Nat → Option Nat) (src : List Nat) : (cvtBlocks w u src).length = src.length / 32 := by
  simp [cvtBlocks]

/-- Escalation keeps the number of blocks, and reaches a block format of at most 8 bits. -/
theorem escalate_spec (n t : Nat) (u : Nat → Option Nat) (src : List Nat) (fmt steps : Nat) (l : List (Nat × List Nat × Bool × Bool × Nat))
    (hf : 2 ≤ fmt) (hl : l.length = src.length / 32) :
    2 ≤ (escalate n t u src fmt steps l).1 ∧ (escalate n t u src fmt steps l).2.2.length = src.length / 32 := by
  induction n generalizing fmt steps l with
  | zero => exact ⟨hf, hl⟩
  | succ n ih =>
    unfold escalate
    split
    · exact ⟨hf, hl⟩
    · exact ih _ _ _ (by have := (widerFmt_bounds fmt).1; omega) (cvtBlocks_length ..)

/-- Escalation taken or not, the result is of a block format and of one block for each 32 values. -/
theorem escalated_spec (b : Bool) (t fmt : Nat) (u : Nat → Option Nat) (src : List Nat) (hf : 2 ≤ fmt) :
    2 ≤ (if b then escalate 4 t u src fmt 0 (cvtBlocks (fmtBits fmt) u src) else (fmt, 0, cvtBlocks (fmtBits fmt) u src)).1 ∧
    (if b then escalate 4 t u src fmt 0 (cvtBlocks (fmtBits fmt) u src) else (fmt, 0, cvtBlocks (fmtBits fmt) u src)).2.2.length = src.length / 32 := by
  split
  · exact escalate_spec _ _ _ _ _ _ _ hf (cvtBlocks_length ..)
  · exact ⟨hf, cvtBlocks_length ..⟩

theorem packCodes_length_le (f : Nat) (l : List Nat) (h : 2 ≤ f) : (packCodes (fmtBits f) l).length ≤ 32 := by
  have := fmtBits_le_of_block f h
  rw [packCodes, leBytes_length]
  omega

/-- The area of `n` elements of a block format holds the record, the scales and the codes (R134). -/
theorem areaBytes_block {o : Nat} (n : Nat) (h : fmtBlock o = true) : areaBytes o n = 64 + 64 * ceilDiv n 2048 + n := if_pos h

theorem areaBytes_plain {o : Nat} (n : Nat) (h : fmtBlock o = false) (ho : o ≤ 8) : n * outBytes o ≤ areaBytes o n := by
  have : o = 0 ∨ o = 1 ∨ o = 2 := by
    simp only [fmtBlock, decide_eq_false_iff_not] at h
    omega
  rw [areaBytes, if_neg (by simp [h])]
  rcases this with rfl | rfl | rfl <;> simp [outBytes, fmtBits] <;> omega

/-- The three writes of a block-scaled result stay inside its area. -/
theorem coreFrame_blockResult (a : Core) (k : Nat) (x : SlotSt) (dst n : Nat) (codes scales record : List Byte) (hcodes : codes.length ≤ n)
    (hscales : scales.length ≤ 64 * ceilDiv n 2048) (hrecord : record.length ≤ 64) :
    CoreFrame a (winWrite (winWrite (winWrite a x (areaElems dst n) codes) x (dst + 0x40) scales) x dst record) k
      [(x.spb * 4096 + dst, 64 + 64 * ceilDiv n 2048 + n)] [] := by
  refine ((coreFrame_winWrite a k x _ codes [] List.mem_cons_self ?_ ?_).trans (coreFrame_winWrite _ k x _ scales [] List.mem_cons_self ?_ ?_)).trans
    (coreFrame_winWrite _ k x _ record [] List.mem_cons_self ?_ ?_) <;> simp only [areaElems] <;> omega

/-- The tally record of the input is the one VCVT asks for (R646). -/
def TallyFits (s : State) (c k src i : Nat) : Prop :=
  fmtBlock i = true → (spadByte s c (winAddr s c k (src + 1))).toNat = i ∧ 3 ≤ (spadByte s c (winAddr s c k (src + 2))).toNat ∧
    (spadByte s c (winAddr s c k (src + 2))).toNat ≤ 8

theorem spByte_takeHead (hk : k < 4) (e a : Nat) :
    spByte ((takeHead s c e k q).core c) ((takeHead s c e k q).slot c k) a = (spadByte s c (winAddr s c k a)).toNat := by
  rw [spByte, (takeHead_kept hk).spad, SlotSt.spb, takeHead_cfg hk]
  rfl

/-- The three runs of a block-scaled result, with the escalation counter of the slot. -/
theorem vectorDone_block_ran (h : EngineTakes s c oVCVT k q) (dst n e : Nat) (codes scales record : List Byte) (hcodes : codes.length ≤ n)
    (hscales : scales.length ≤ 64 * ceilDiv n 2048) (hrecord : record.length ≤ 64) (f : Flags) (cyc : Nat) (K : Core)
    (hK : K = winWrite (winWrite (winWrite ((takeHead s c 1 k q).core c) ((takeHead s c 1 k q).slot c k) (areaElems dst n) codes)
      ((takeHead s c 1 k q).slot c k) (dst + 0x40) scales) ((takeHead s c 1 k q).slot c k) dst record) :
    VectorRan s (vectorDone (takeHead s c 1 k q) c k q (K.setSlot k { K.slot k with esc := e }) f cyc) c k q
      [(winAddr s c k dst, 64 + 64 * ceilDiv n 2048 + n)] := by
  have hk := engineTakes_lt h
  have hslot : K.slot k = (takeHead s c 1 k q).slot c k := by rw [hK]; simp only [winWrite_slot, State.slot_eq]
  refine vectorDone_ran h rfl _ f cyc ?_ ?_ ?_
  · refine .trans ?_ (coreFrame_setSlot K hk _ _ _)
    rw [hK, ← takeHead_winAddr (e := 1) (q := q) hk]
    exact coreFrame_blockResult _ k _ dst n codes scales record hcodes hscales hrecord
  · rw [Core.slot_setSlot_same, hslot]
    exact ⟨fun e => by rcases e with _ | _ | _ | e <;> rfl, rfl, rfl, rfl, rfl, rfl, rfl⟩
  · rw [Core.slot_setSlot_same, hslot]

theorem vcvt_runs (h : EngineTakes s c oVCVT k q) (i o src dst n : Nat) (hi : i = nbits q.cmd.flags 3 0) (ho : o = nbits q.cmd.flags 7 4)
    (hsrc : src = bits q.cmd.w1 21 0) (hdst : dst = bits q.cmd.w2 21 0) (hn : n = bits q.cmd.w2 41 22) (ho8 : o ≤ 8)
    (hblock : fmtBlock o = true → n % 32 = 0)
    (hin : n ≠ 0 → (s.slot c k).inWin src (areaBytes i n) = true ∧ (s.slot c k).inWin dst (areaBytes o n) = true ∧ TallyFits s c k src i) :
    ∃ t, exec (.vcvt c) s = .next t ∧ VectorRan s t c k q [(winAddr s c k dst, if n = 0 then 0 else areaBytes o n)] := by
  subst hi ho hsrc hdst hn
  have hk := engineTakes_lt h
  refine ⟨_, exec_vcvt h, ?_⟩
  unfold vcvtStart
  dsimp only
  split
  · exact vectorDone_idle_ran h rfl _ _ _
  · next hne =>
    obtain ⟨hS, hD, hT⟩ := hin hne
    rw [vectorCheck_ok _ _ fun r hr => ?inside]
    case inside =>
      rw [takeHead_inWin hk]
      simp only [List.mem_cons, List.not_mem_nil, or_false] at hr
      rcases hr with rfl | rfl
      · exact hS
      · exact hD
    rw [if_neg ?fits]
    case fits =>
      rw [← State.slot_eq, spByte_takeHead hk, spByte_takeHead hk]
      rintro ⟨hb, hbad⟩
      obtain ⟨h1, h2, h3⟩ := hT hb
      omega
    split
    · next hb =>
      rw [areaBytes_block _ hb]
      have h32 := hblock hb
      have hfmt : 2 ≤ nbits q.cmd.flags 7 4 := by
        simp only [fmtBlock, decide_eq_true_eq] at hb
        omega
      have hesc := fun die u (vals : Nat → Nat × Flags) => escalated_spec ((takeHead s c 1 k q).escEn die) ((takeHead s c 1 k q).escT die)
        (nbits q.cmd.flags 7 4) u (((List.range (bits q.cmd.w2 41 22)).map vals).map (·.1)) hfmt
      simp only [List.length_map, List.length_range] at hesc
      refine vectorDone_block_ran h _ _ _ _ _ _ ?_ ?_ ?_ _ _ _ rfl
      · refine (flatMap_length_le _ _ 32 fun b _ => packCodes_length_le _ _ (hesc ..).1).trans ?_
        rw [(hesc ..).2]
        omega
      · rw [List.length_map, (hesc ..).2]
        unfold ceilDiv
        omega
      · exact (tallyRecord_length ..).le
    · next hb =>
      refine vectorDone_winWrite_ran h rfl _ _ _ ((rows_length_le _ (outBytes (nbits q.cmd.flags 7 4)) _ fun i => (leBytes_length ..).le).trans ?_) _ _
      exact areaBytes_plain _ (by simpa using hb) ho8

end

/-- Settles O10: a command whose ranges lie in its window writes the bytes of its result there, each result no longer than its destination, and its flags
are added to FPF. -/
theorem vectorCommandsRun : Obligations.VectorCommandsRun := by
  unfold Obligations.VectorCommandsRun
  intro s c k q
  exact ⟨vop_runs, vred_runs, epi_runs, vcvt_runs, route_runs, sample_runs⟩

end Sys2Proof.Machine
end

section
/-!
PROOFS of the core grid: near memory as the data mover reads and writes it. What keeps a partition's map, protection and directory, reads through the
check code, and writes no line of which waits for the twin.
-/

namespace Sys2Proof.Machine

/-! ### What an access to near memory looks up -/

/-- Partitions, maps, protection, directories and waiting lines are the same: what decides where an access goes and whether it waits. -/
structure MapKept (s u : State) : Prop where
  part : ∀ p, u.part p = s.part p
  map : ∀ d, (u.bdie d).map = (s.bdie d).map
  wp : ∀ d, (u.bdie d).wp = (s.bdie d).wp
  dir : ∀ d, (u.bdie d).dir = (s.bdie d).dir
  waits : ∀ d, (u.bdie d).waits = (s.bdie d).waits

theorem MapKept.refl (s : State) : MapKept s s := ⟨fun _ => rfl, fun _ => rfl, fun _ => rfl, fun _ => rfl, fun _ => rfl⟩

theorem MapKept.trans {s t u : State} (h : MapKept s t) (g : MapKept t u) : MapKept s u :=
  ⟨fun p => (g.part p).trans (h.part p), fun d => (g.map d).trans (h.map d), fun d => (g.wp d).trans (h.wp d), fun d => (g.dir d).trans (h.dir d),
    fun d => (g.waits d).trans (h.waits d)⟩

/-- The bytes and the poisoned lines are the same too. -/
structure NearKept (s u : State) : Prop extends MapKept s u where
  mem : ∀ d, (u.bdie d).mem = (s.bdie d).mem
  poison : ∀ d, (u.bdie d).poison = (s.bdie d).poison

theorem NearKept.refl (s : State) : NearKept s s := ⟨.refl s, fun _ => rfl, fun _ => rfl⟩

theorem NearKept.trans {s t u : State} (h : NearKept s t) (g : NearKept t u) : NearKept s u :=
  ⟨h.toMapKept.trans g.toMapKept, fun d => (g.mem d).trans (h.mem d), fun d => (g.poison d).trans (h.poison d)⟩

/-- A change that leaves partitions and Beside dies. -/
theorem nearKept_of_eq {s u : State} (hp : u.parts = s.parts) (hb : u.beside = s.beside) : NearKept s u := by
  have hd : ∀ d, u.bdie d = s.bdie d := fun d => by rw [State.bdie, hb, ← State.bdie]
  exact ⟨⟨fun p => by rw [State.part, hp, ← State.part], fun d => by rw [hd], fun d => by rw [hd], fun d => by rw [hd], fun d => by rw [hd]⟩,
    fun d => by rw [hd], fun d => by rw [hd]⟩

theorem nearKept_setCore (s : State) (c : Nat) (K : Core) : NearKept s (s.setCore c K) := nearKept_of_eq rfl rfl

theorem nearKept_count (s : State) (a b n : Nat) : NearKept s (s.count a b n) := nearKept_of_eq (by simp) (by simp)

theorem nearKept_takeHead (s : State) (c e : Nat) {k : Nat} (q : QEntry) (hk : k < 4) : NearKept s (takeHead s c e k q) := by
  obtain ⟨l, m, h⟩ := takeHead_rest (s := s) (c := c) (e := e) (q := q) hk
  exact nearKept_of_eq (by rw [h]) (by rw [h])

section

variable {s u : State}

theorem mapWord_congr (h : MapKept s u) (p st : Nat) : mapWord u p st = mapWord s p st := by rw [mapWord, h.map, mapWord]

theorem physOff_congr (h : MapKept s u) (p na : Nat) : physOff u p na = physOff s p na := by rw [physOff, mapWord_congr h, physOff]

theorem nearOk_congr (h : MapKept s u) (p na n : Nat) : nearOk u p na n = nearOk s p na n := by simp only [nearOk, mapWord_congr h]

theorem wpHit_congr (h : MapKept s u) (p na n : Nat) : wpHit u p na n = wpHit s p na n := by simp only [wpHit, h.wp]

theorem dirOf_congr (h : MapKept s u) (st l : Nat) : dirOf u st l = dirOf s st l := by rw [dirOf, h.dir, dirOf]

theorem lineWaits_congr (h : MapKept s u) (st l : Nat) : lineWaits u st l = lineWaits s st l := by rw [lineWaits, h.waits, lineWaits]

theorem lineHeld_congr (h : MapKept s u) (st l : Nat) : lineHeld u st l = lineHeld s st l := by
  rw [lineHeld, dirOf_congr h, lineWaits_congr h, lineHeld]

theorem corePart_congr (h : MapKept s u) (c : Nat) : corePart u c = corePart s c := by simp only [corePart, h.part]

theorem heldLines_congr (h : MapKept s u) (p : Nat) (rs : List (Nat × Nat)) (b : Bool) : heldLines u p rs b = heldLines s p rs b := by
  simp only [heldLines, physOff_congr h, dirOf_congr h, lineWaits_congr h]

theorem readsClean_congr (h : NearKept s u) {p na n : Nat} (g : ReadsClean s p na n) : ReadsClean u p na n := by
  obtain ⟨hok, hpoison, hheld⟩ := g
  refine ⟨by rwa [nearOk_congr h.toMapKept], fun l hl => ?_, by rwa [heldLines_congr h.toMapKept]⟩
  rw [physOff_congr h.toMapKept] at hl
  rw [h.poison]
  exact hpoison l hl

theorem writesFree_congr (h : MapKept s u) {p na n : Nat} (g : WritesFree s p na n) : WritesFree u p na n := by
  obtain ⟨hok, hwp, hheld⟩ := g
  refine ⟨by rwa [nearOk_congr h], by rwa [wpHit_congr h], fun l hl => ?_⟩
  rw [physOff_congr h] at hl
  rw [lineHeld_congr h]
  exact hheld l hl

/-- No line of ranges each of which is clean is held by the twin. -/
theorem heldLines_eq_nil {p : Nat} {rs : List (Nat × Nat)} (h : ∀ r ∈ rs, ReadsClean s p r.1 r.2) : heldLines s p rs false = [] := by
  refine List.flatMap_eq_nil_iff.2 fun r hr => ?_
  obtain ⟨_, _, hheld⟩ := h r hr
  exact List.flatMap_eq_nil_iff.1 hheld r List.mem_cons_self

end

/-! ### A part of a run -/

/-- Part of a run that a partition reaches: on the same stack, at the same distance, reachable (R178, R179). -/
theorem near_part {s : State} {p na n i m : Nat} (h : nearOk s p na n = true) (hm : 0 < m) (hi : i + m ≤ n) :
    naStack (na + i) = naStack na ∧ naOff (na + i) = naOff na + i ∧ nearOk s p (na + i) m = true := by
  simp only [nearOk, Bool.or_eq_true, beq_iff_eq, Bool.and_eq_true, decide_eq_true_eq] at h
  obtain ⟨⟨⟨hna, hst⟩, hen⟩, hsize⟩ := h.resolve_left (by omega)
  have hmap : mapSize (mapWord s p (naStack na)) ≤ 2 ^ 15 - 1 := Nat.le_sub_one_of_lt (bits_lt _ 46 32)
  have hoff : naOff na + n < 2 ^ 36 := by
    have := Nat.mul_le_mul_right unit2M hmap
    simp only [unit2M] at this hsize
    omega
  have h1 : naStack (na + i) = naStack na := by
    simp only [naStack, naOff, nbits] at hoff ⊢
    omega
  have h2 : naOff (na + i) = naOff na + i := by
    simp only [naOff, nbits] at hoff ⊢
    omega
  refine ⟨h1, h2, ?_⟩
  simp only [nearOk, h1, h2, Bool.or_eq_true, Bool.and_eq_true, decide_eq_true_eq]
  refine .inr ⟨⟨⟨?_, hst⟩, hen⟩, by omega⟩
  simp only [naOff, nbits] at hoff
  omega

theorem mem_linesOf {off n l : Nat} : l ∈ linesOf off n ↔ 0 < n ∧ off / 64 ≤ l ∧ l ≤ (off + n - 1) / 64 := by
  unfold linesOf
  split
  · next h => simp [h]
  · next h =>
    simp only [List.mem_map, List.mem_range]
    constructor
    · rintro ⟨i, hi, rfl⟩
      omega
    · rintro ⟨_, h1, h2⟩
      exact ⟨l - off / 64, by omega, by omega⟩

/-- The lines of part of a run are lines of the run. -/
theorem linesOf_part {off n i m l : Nat} (hi : i + m ≤ n) (hl : l ∈ linesOf (off + i) m) : l ∈ linesOf off n := by
  rw [mem_linesOf] at hl ⊢
  obtain ⟨hm, h1, h2⟩ := hl
  refine ⟨by omega, (Nat.div_le_div_right (by omega)).trans h1, h2.trans (Nat.div_le_div_right (by omega))⟩

theorem mem_pieces {n : Nat} {r : Nat × Nat} (h : r ∈ pieces n) : 0 < r.2 ∧ r.1 + r.2 ≤ n := by
  obtain ⟨i, hi, rfl⟩ := List.mem_map.1 h
  rw [List.mem_range, ceilDiv] at hi
  dsimp only
  omega

theorem inWin_part {x : SlotSt} {off n i m : Nat} (h : x.inWin off n = true) (hi : i + m ≤ n) : x.inWin (off + i) m = true := by
  simp only [SlotSt.inWin, decide_eq_true_eq] at h ⊢
  omega

theorem physOff_part {s : State} {p na n i m : Nat} (h : nearOk s p na n = true) (hm : 0 < m) (hi : i + m ≤ n) :
    physOff s p (na + i) = physOff s p na + i := by
  obtain ⟨h1, h2, _⟩ := near_part h hm hi
  rw [physOff, h1, h2, physOff, Nat.add_assoc]

/-- Part of a clean run is clean and reached. -/
theorem loadCauses_part {s : State} {c : Nat} {x : SlotSt} {na sp n : Nat} (h : ReadsClean s (corePart s c) na n) (hw : x.inWin sp n = true)
    {r : Nat × Nat} (hr : r ∈ pieces n) : loadCauses s c x (na + r.1) (sp + r.1) r.2 = [] := by
  obtain ⟨hm, hi⟩ := mem_pieces hr
  obtain ⟨hok, hpoison, _⟩ := h
  obtain ⟨hst, _, hok'⟩ := near_part hok hm hi
  have hclean : ((linesOf (physOff s (corePart s c) na + r.1) r.2).any fun l => tget false (s.bdie (naStack na)).poison l) = false := by
    rw [List.any_eq_false]
    intro l hl
    simp [hpoison l (linesOf_part hi hl)]
  simp [loadCauses, hok', inWin_part hw hi, hst, physOff_part hok hm hi, hclean]

/-! ### Reads through the check code -/

/-- A read of a line that meets no uncorrectable error leaves maps, bytes and poison, and changes Beside dies only. -/
theorem checkLine_kept (s : State) (st line : Nat) (errs : List EccErr) (h : Correctable errs) :
    NearKept s (checkLine s st line errs) ∧ (checkLine s st line errs).cores = s.cores := by
  unfold checkLine
  dsimp only
  split
  · exact ⟨.refl s, rfl⟩
  split
  · exact ⟨.refl s, rfl⟩
  · next e he =>
    rw [if_pos (h e (List.mem_of_find?_eq_some he))]
    refine ⟨⟨⟨fun _ => rfl, fun d => ?_, fun d => ?_, fun d => ?_, fun d => ?_⟩, fun d => ?_, fun d => ?_⟩, rfl⟩ <;>
    · rw [State.bdie_setBdie]
      split <;> simp [countRow, *]

theorem foldl_nearKept {α : Type} (f : State → α → State) (l : List α) (s : State)
    (h : ∀ s a, a ∈ l → NearKept s (f s a) ∧ (f s a).cores = s.cores) : NearKept s (l.foldl f s) ∧ (l.foldl f s).cores = s.cores := by
  refine List.foldlRecOn (motive := fun u => NearKept s u ∧ u.cores = s.cores) l f ⟨.refl s, rfl⟩ fun u hu a ha => ?_
  obtain ⟨h1, h2⟩ := h u a ha
  exact ⟨hu.1.trans h1, h2.trans hu.2⟩

theorem readRow_kept (s : State) (c na n : Nat) (errs : List EccErr) (h : Correctable errs) :
    NearKept s (readRow s c na n errs) ∧ (readRow s c na n errs).cores = s.cores := by
  refine foldl_nearKept _ _ _ fun s i _ => ?_
  split
  · exact foldl_nearKept _ _ _ fun s l _ => checkLine_kept s _ l errs h
  · exact ⟨.refl s, rfl⟩

theorem countMove_kept (s : State) (c k na n : Nat) : NearKept s (countMove s c k na n) ∧ (countMove s c k na n).cores = s.cores := by
  unfold countMove countNear
  refine ⟨.trans (.trans ?_ (nearKept_count _ _ _ _)) (nearKept_count _ _ _ _), by simp⟩
  refine ⟨⟨fun _ => rfl, fun d => ?_, fun d => ?_, fun d => ?_, fun d => ?_⟩, fun d => ?_, fun d => ?_⟩ <;>
  · rw [State.bdie_setBdie]
    split <;> simp [*]

theorem core_of_cores {s u : State} (h : u.cores = s.cores) (j : Nat) : u.core j = s.core j := by rw [State.core, h, ← State.core]

theorem slot_of_cores {s u : State} (h : u.cores = s.cores) (c k : Nat) : u.slot c k = s.slot c k := by
  rw [State.slot_eq, core_of_cores h, State.slot_eq]

/-! ### A row moved into the window -/

/-- A clean row that lands is written whole. -/
theorem landRow_clean {s : State} {c k na sp n : Nat} (ra : Bool) (h : ReadsClean s (corePart s c) na n) (hw : (s.slot c k).inWin sp n = true) :
    landRow s c k na sp n ra =
      (s.setCore c (winWrite (s.core c) (s.slot c k) sp (stackRead s (naStack na) (physOff s (corePart s c) na) n)), []) := by
  unfold landRow
  dsimp only
  rw [if_pos, nearBytes, if_pos h.1]
  rw [List.isEmpty_iff, List.flatMap_eq_nil_iff]
  intro r hr
  rw [loadCauses_part h hw hr, List.map_nil]

/-- What the move of a clean row into the window leaves: maps and near memory, the slot, the hurdles, and every byte of the scratchpad outside the row's destination,
which holds the bytes near memory holds. -/
structure RowMoved (s u : State) (c k na sp n : Nat) : Prop where
  near : NearKept s u
  slot : u.slot c k = s.slot c k
  hurdle : (u.core c).hurdle = (s.core c).hurdle
  frame : EngineFrame s u c k [(winAddr s c k sp, n)] []
  data : ∀ i, i < n → spadByte u c (winAddr s c k sp + i) = nearByte s (naStack na) (physOff s (corePart s c) na + i)

theorem stackRead_length (s : State) (st off n : Nat) : (stackRead s st off n).length = n := mread_length ..

theorem stackRead_getElem? (s : State) (st off n i : Nat) (h : i < n) : (stackRead s st off n)[i]? = some (nearByte s st (off + i)) :=
  mread_get _ _ _ _ _ h

theorem rowMoved_land (s : State) (c k na sp n : Nat) (errs : List EccErr) (ra : Bool) (he : Correctable errs)
    (h : ReadsClean s (corePart s c) na n) (hw : (s.slot c k).inWin sp n = true) :
    (landRow (readRow s c na n errs) c k na sp n ra).2 = [] ∧
    RowMoved s (countMove (landRow (readRow s c na n errs) c k na sp n ra).1 c k na n) c k na sp n := by
  obtain ⟨hread, hcores⟩ := readRow_kept s c na n errs he
  set v := readRow s c na n errs
  have hslot := slot_of_cores hcores c k
  have hpart := corePart_congr hread.toMapKept c
  rw [landRow_clean ra (hpart ▸ readsClean_congr hread h) (hslot ▸ hw)]
  refine ⟨rfl, ?_⟩
  set w := v.setCore c (winWrite (v.core c) (v.slot c k) sp (stackRead v (naStack na) (physOff v (corePart v c) na) n))
  have hw : w.core c = winWrite (v.core c) (v.slot c k) sp (stackRead v (naStack na) (physOff v (corePart v c) na) n) := State.core_setCore_same ..
  obtain ⟨hcount, hcountCores⟩ := countMove_kept w c k na n
  have haddr : winAddr s c k sp = (v.slot c k).spb * 4096 + sp := by rw [hslot, winAddr]
  refine ⟨(hread.trans (nearKept_setCore ..)).trans hcount, ?_, ?_, ?_, fun i hi => ?_⟩
  · rw [slot_of_cores hcountCores, State.slot_eq, hw, winWrite_slot, ← State.slot_eq, hslot]
  · rw [core_of_cores hcountCores, hw, winWrite, core_of_cores hcores]
  · refine ((engineFrame_of_cores c k _ [] hcores hread.mem).trans (engineFrame_setCore ?_)).trans
      (engineFrame_of_cores c k _ [] hcountCores hcount.mem)
    exact coreFrame_winWrite _ k _ sp _ [] List.mem_cons_self haddr.le (by rw [stackRead_length, haddr])
  · rw [spadByte, core_of_cores hcountCores, hw, haddr, mget_winWrite _ _ _ _ _ (by rwa [stackRead_length]), stackRead_getElem? _ _ _ _ _ hi,
      Option.getD_some, nearByte, hread.mem, physOff_congr hread.toMapKept, hpart, nearByte]

end Sys2Proof.Machine
end

section
/-!
PROOFS of the core grid: LOAD and STORE.
-/

namespace Sys2Proof.Machine

/-! ### LOAD -/

/-- The rows of a transfer: none of length 0. -/
def moveRows (q : QEntry) : Nat := if mvLen q.cmd = 0 then 0 else mvRows q.cmd

/-- Row `r` of a LOAD can be read cleanly into the window. -/
def LoadRowClean (s : State) (c k : Nat) (q : QEntry) (r : Nat) : Prop :=
  ReadsClean s (corePart s c) (mvNear q.cmd + r * mvNs q.cmd) (mvLen q.cmd) ∧
  (s.slot c k).inWin (mvSpad q.cmd + r * mvSs q.cmd) (mvLen q.cmd) = true

/-- The state after row `r` of a LOAD. -/
def loadRow (s : State) (c k : Nat) (q : QEntry) (errs : List EccErr) (r : Nat) : State :=
  let na := mvNear q.cmd + r * mvNs q.cmd
  countMove (landRow (readRow s c na (mvLen q.cmd) errs) c k na (mvSpad q.cmd + r * mvSs q.cmd) (mvLen q.cmd) (nbits q.cmd.flags 0 0 = 1)).1
    c k na (mvLen q.cmd)

section

variable {s : State} {c k r : Nat} {q : QEntry} {errs : List EccErr}

theorem loadRow_moved (he : Correctable errs) (h : LoadRowClean s c k q r) :
    RowMoved s (loadRow s c k q errs r) c k (mvNear q.cmd + r * mvNs q.cmd) (mvSpad q.cmd + r * mvSs q.cmd) (mvLen q.cmd) :=
  (rowMoved_land s c k _ _ _ errs _ he h.1 h.2).2

theorem loadRows_succ (he : Correctable errs) (h : LoadRowClean s c k q r) (n : Nat) :
    loadRows (n + 1) s c k q errs r = loadRows n (loadRow s c k q errs r) c k q errs (r + 1) := by
  have hnone := (rowMoved_land s c k _ _ _ errs (nbits q.cmd.flags 0 0 = 1) he h.1 h.2).1
  rw [loadRows]
  dsimp only
  rw [hnone]
  split <;> rfl

theorem loadRowClean_congr {u : State} (h : NearKept s u) (hs : u.slot c k = s.slot c k) (g : LoadRowClean s c k q r) : LoadRowClean u c k q r := by
  obtain ⟨hread, hwin⟩ := g
  exact ⟨corePart_congr h.toMapKept c ▸ readsClean_congr h hread, hs ▸ hwin⟩

/-- Clean rows are moved one after the other; then the command is pushed. -/
theorem loadRows_spec (he : Correctable errs) (n : Nat) (s : State) (r : Nat) (sp : List (Nat × Nat))
    (hclean : ∀ i, r ≤ i → i < r + n → LoadRowClean s c k q i)
    (hsp : ∀ i, r ≤ i → i < r + n → (winAddr s c k (mvSpad q.cmd + i * mvSs q.cmd), mvLen q.cmd) ∈ sp) :
    ∃ u, loadRows n s c k q errs r = pushStarted u c k 2 q .done ∧ u.slot c k = s.slot c k ∧ EngineFrame s u c k sp [] := by
  induction n generalizing s r with
  | zero => exact ⟨s, rfl, rfl, EngineFrame.refl ..⟩
  | succ n ih =>
    have hrow := hclean r le_rfl (by omega)
    have hmoved := loadRow_moved he hrow
    obtain ⟨u, heq, hslot, hframe⟩ := ih (loadRow s c k q errs r) (r + 1)
      (fun i h1 h2 => loadRowClean_congr hmoved.near hmoved.slot (hclean i (by omega) (by omega)))
      (fun i h1 h2 => by rw [winAddr, hmoved.slot]; exact hsp i (by omega) (by omega))
    refine ⟨u, (loadRows_succ he hrow n).trans heq, hslot.trans hmoved.slot, .trans (hmoved.frame.mono ?_ (by simp)) hframe⟩
    rintro x hx
    rw [List.mem_singleton.1 hx]
    exact hsp r le_rfl (by omega)

theorem headOf_takes {opc : Nat} (h : EngineTakes s c opc k q) : headOf s c opc = some (k, q) := by
  obtain ⟨hruns, hpick, hhead, hopc⟩ := h
  obtain ⟨rest, hqueue⟩ := List.head?_eq_some_iff.1 hhead
  simp [headOf, hruns, hpick, hqueue, hopc]

theorem moveRange_of_mem (h : ∀ r, r < moveRows q → LoadRowClean s c k q r) {x : Nat × Nat} (hx : x ∈ moveRanges s c q.cmd) :
    ReadsClean s (corePart s c) x.1 x.2 := by
  unfold moveRanges at hx
  unfold moveRows at h
  split at hx
  · simp at hx
  · next hlen =>
    rw [if_neg hlen] at h
    obtain ⟨r, hr, rfl⟩ := List.mem_map.1 (List.mem_filter.1 hx).1
    exact (h r (List.mem_range.1 hr)).1

theorem exec_load (h : EngineTakes s c oLOAD k q) (hclean : ∀ r, r < moveRows q → LoadRowClean s c k q r) :
    exec (.load c errs) s = .next (loadRows (moveRows q) (takeHead s c 2 k q) c k q errs 0) := by
  change execLoad c errs s = _
  unfold execLoad
  rw [headOf_takes h]
  dsimp only
  rw [heldLines_eq_nil fun _ => moveRange_of_mem hclean, if_pos List.isEmpty_nil, engineStart_takes s c oLOAD k q _ h]
  rfl

theorem load_moves (he : Correctable errs) (h : EngineTakes s c oLOAD k q) (p na sp len rows : Nat) (hp : p = corePart s c) (hna : na = mvNear q.cmd)
    (hsp : sp = mvSpad q.cmd) (hlen : len = mvLen q.cmd) (hrows : rows = (if len = 0 then 0 else mvRows q.cmd))
    (hclean : ∀ r, r < rows → ReadsClean s p (na + r * mvNs q.cmd) len ∧ (s.slot c k).inWin (sp + r * mvSs q.cmd) len = true) :
    ∃ t, exec (.load c errs) s = .next t ∧ Starts s t c k 2 q .done ∧
      EngineFrame s t c k ((List.range rows).map fun r => (winAddr s c k (sp + r * mvSs q.cmd), len)) [] ∧
      (rows = 1 → ∀ i, i < len → spadByte t c (winAddr s c k sp + i) = nearByte s (naStack na) (physOff s p na + i)) := by
  subst hp hna hsp hlen
  have hk := engineTakes_lt h
  change rows = moveRows q at hrows
  subst hrows
  refine ⟨_, exec_load h hclean, ?_⟩
  have hnear := nearKept_takeHead s c 2 q hk
  have hwin := takeHead_inWin (s := s) (c := c) (e := 2) (q := q) hk
  have hcleanT : ∀ i, 0 ≤ i → i < 0 + moveRows q → LoadRowClean (takeHead s c 2 k q) c k q i := fun i _ hi => by
    obtain ⟨h1, h2⟩ := hclean i (by omega)
    exact ⟨corePart_congr hnear.toMapKept c ▸ readsClean_congr hnear h1, (congrFun (congrFun hwin _) _).trans h2⟩
  obtain ⟨u, heq, hslot, hframe⟩ := loadRows_spec he (moveRows q) (takeHead s c 2 k q) 0
    ((List.range (moveRows q)).map fun r => (winAddr s c k (mvSpad q.cmd + r * mvSs q.cmd), mvLen q.cmd)) hcleanT
    fun i _ hi => List.mem_map.2 ⟨i, List.mem_range.2 (by omega), by rw [takeHead_winAddr hk]⟩
  refine ⟨heq ▸ starts_pushStarted h (.of_eq hslot) .done, heq ▸ engineFrame_start h hframe .done, fun hone i hi => ?_⟩
  have hrow := hcleanT 0 le_rfl (by omega)
  have hdata := (loadRow_moved he hrow).data i hi
  simp only [Nat.zero_mul, Nat.add_zero, takeHead_winAddr hk, physOff_congr hnear.toMapKept, corePart_congr hnear.toMapKept, nearByte, hnear.mem] at hdata
  rw [hone, loadRows_succ he hrow, loadRows, spadByte, (pushStarted_core _ c k 2 q .done c).1]
  exact hdata

end

/-! ### STORE -/

/-- Bytes written at an offset of one stack, with nothing else of near memory changed but poison and counters. -/
structure BytesWritten (s u : State) (st off : Nat) (data : List Byte) : Prop where
  map : MapKept s u
  cores : u.cores = s.cores
  mem : ∀ d a, nearByte u d a = if d = st ∧ off ≤ a ∧ a < off + data.length then (data[a - off]?).getD 0 else nearByte s d a

theorem applyLine_written (s : State) (st line off : Nat) (data : List Byte) (poison : Bool) (errs : List EccErr) (he : Correctable errs) :
    BytesWritten s (applyLine s st line off data poison errs) st (line * 64 + off) data := by
  obtain ⟨u, hu, hkept, hcores⟩ : ∃ u, u = (if data.length = 64 then s else checkLine s st line errs) ∧ NearKept s u ∧ u.cores = s.cores := by
    refine ⟨_, rfl, ?_⟩
    split
    · exact ⟨.refl s, rfl⟩
    · exact checkLine_kept s st line errs he
  unfold applyLine
  rw [← hu]
  dsimp only
  refine ⟨hkept.toMapKept.trans ⟨fun _ => rfl, fun d => ?_, fun d => ?_, fun d => ?_, fun d => ?_⟩, hcores, fun d a => ?_⟩
  any_goals
    rw [State.bdie_setBdie]
    split <;> simp [*]
  rw [nearByte, State.bdie_setBdie]
  split
  · next hd =>
    rw [mget_mwrite, hkept.mem, hd]
    simp [nearByte]
  · next hd => rw [if_neg (by tauto), hkept.mem, nearByte]

/-- Bytes no line of which waits are written at once. -/
theorem stackWrite_written (n : Nat) (s : State) (w : List (Nat × Nat)) (st off : Nat) (data : List Byte) (errs : List EccErr) (he : Correctable errs)
    (hn : off % 64 + data.length ≤ 64 * n) (hheld : ∀ l ∈ linesOf off data.length, lineHeld s st l = false) :
    (stackWrite n (s, w) st off data false errs).2 = w ∧ BytesWritten s (stackWrite n (s, w) st off data false errs).1 st off data := by
  induction n generalizing s off data with
  | zero =>
    obtain rfl : data = [] := List.eq_nil_of_length_eq_zero (by omega)
    exact ⟨rfl, .refl s, rfl, fun d a => by rw [if_neg (by simp)]; rfl⟩
  | succ n ih =>
    unfold stackWrite
    split
    · next hempty =>
      obtain rfl := List.isEmpty_iff.1 hempty
      exact ⟨rfl, .refl s, rfl, fun d a => by rw [if_neg (by simp)]⟩
    · next hne =>
      have hpos : 0 < data.length := List.length_pos_iff.2 fun h => hne (by simp [h])
      dsimp only
      rw [writeLine, if_neg (by rw [hheld _ (mem_linesOf.2 ⟨hpos, le_rfl, Nat.div_le_div_right (by omega)⟩)]; simp)]
      have hline := applyLine_written s st (off / 64) (off % 64) (data.take (64 - off % 64)) false errs he
      rw [show off / 64 * 64 + off % 64 = off by omega] at hline
      set v := applyLine s st (off / 64) (off % 64) (data.take (64 - off % 64)) false errs
      obtain ⟨hwait, hrest⟩ := ih v (off + (64 - off % 64)) (data.drop (64 - off % 64)) (by rw [List.length_drop]; omega) fun l hl => by
        rw [lineHeld_congr hline.map]
        rw [List.length_drop] at hl
        refine hheld l (linesOf_part (i := 64 - off % 64) ?_ hl)
        have := (mem_linesOf.1 hl).1
        omega
      refine ⟨hwait, hline.map.trans hrest.map, hrest.cores.trans hline.cores, fun d a => ?_⟩
      rw [hrest.mem, hline.mem, List.length_drop, List.length_take]
      by_cases hd : d = st
      · subst hd
        by_cases h1 : off ≤ a ∧ a < off + data.length
        · rw [if_pos (show d = d ∧ off ≤ a ∧ a < off + data.length from ⟨rfl, h1⟩)]
          by_cases h2 : a < off + (64 - off % 64)
          · rw [if_neg (by omega), if_pos (by omega), List.getElem?_take, if_pos (by omega)]
          · rw [if_pos (by omega), List.getElem?_drop]
            congr 2
            omega
        · rw [if_neg (by omega), if_neg (by omega), if_neg (by omega)]
      · simp [hd]

theorem nearWrite_written {s : State} {p na : Nat} (data : List Byte) (errs : List EccErr) (he : Correctable errs)
    (h : WritesFree s p na data.length) : (nearWrite s p na data false errs).2 = [] ∧
      BytesWritten s (nearWrite s p na data false errs).1 (naStack na) (physOff s p na) data :=
  stackWrite_written _ s [] _ _ data errs he (by omega) h.2.2

theorem overlap_part {a i m n b k : Nat} (h : overlap a n b k = false) (hm : 0 < m) (hi : i + m ≤ n) : overlap (a + i) m b k = false := by
  simp only [overlap, decide_eq_false_iff_not] at h ⊢
  omega

theorem wpHit_part {s : State} {p na n i m : Nat} (hok : nearOk s p na n = true) (h : wpHit s p na n = false) (hm : 0 < m) (hi : i + m ≤ n) :
    wpHit s p (na + i) m = false := by
  obtain ⟨hst, hoff, _⟩ := near_part hok hm hi
  simp only [wpHit, List.any_eq_false, List.mem_range, Bool.and_eq_true, not_and, Bool.not_eq_true, hst, hoff] at h ⊢
  exact fun j hj hen => overlap_part (h j hj hen) hm hi

theorem storeCauses_part {s : State} {c : Nat} {x : SlotSt} {na sp n : Nat} (h : WritesFree s (corePart s c) na n) (hw : x.inWin sp n = true)
    {r : Nat × Nat} (hr : r ∈ pieces n) : storeCauses s c x (na + r.1) (sp + r.1) r.2 = [] := by
  obtain ⟨hm, hi⟩ := mem_pieces hr
  obtain ⟨hok, hwp, _⟩ := h
  simp [storeCauses, (near_part hok hm hi).2.2, wpHit_part hok hwp hm hi, inWin_part hw hi]

/-- Row `r` of a STORE lies in the window and may be written at once. -/
def StoreRowFree (s : State) (c k : Nat) (q : QEntry) (r : Nat) : Prop :=
  WritesFree s (corePart s c) (mvNear q.cmd + r * mvNs q.cmd) (mvLen q.cmd) ∧ (s.slot c k).inWin (mvSpad q.cmd + r * mvSs q.cmd) (mvLen q.cmd) = true

/-- The bytes of row `r` of a STORE. -/
def storeData (s : State) (c k : Nat) (q : QEntry) (r : Nat) : List Byte :=
  winRead (s.core c) (s.slot c k) (mvSpad q.cmd + r * mvSs q.cmd) (mvLen q.cmd)

/-- The state after row `r` of a STORE. -/
def storeRow (s : State) (c k : Nat) (q : QEntry) (errs : List EccErr) (r : Nat) : State :=
  let na := mvNear q.cmd + r * mvNs q.cmd
  countMove (nearWrite s (corePart s c) na (storeData s c k q r) false errs).1 c k na (mvLen q.cmd)

section

variable {s : State} {c k r : Nat} {q : QEntry} {errs : List EccErr}

theorem storeData_length (s : State) (c k : Nat) (q : QEntry) (r : Nat) : (storeData s c k q r).length = mvLen q.cmd := winRead_length ..

theorem storeRow_written (he : Correctable errs) (h : StoreRowFree s c k q r) :
    (nearWrite s (corePart s c) (mvNear q.cmd + r * mvNs q.cmd) (storeData s c k q r) false errs).2 = [] ∧
    BytesWritten s (storeRow s c k q errs r) (naStack (mvNear q.cmd + r * mvNs q.cmd)) (physOff s (corePart s c) (mvNear q.cmd + r * mvNs q.cmd))
      (storeData s c k q r) := by
  obtain ⟨hwait, hmap, hcores, hmem⟩ := nearWrite_written (storeData s c k q r) errs he ((storeData_length s c k q r).symm ▸ h.1)
  obtain ⟨hcount, hcountCores⟩ := countMove_kept (nearWrite s (corePart s c) (mvNear q.cmd + r * mvNs q.cmd) (storeData s c k q r) false errs).1 c k
    (mvNear q.cmd + r * mvNs q.cmd) (mvLen q.cmd)
  exact ⟨hwait, hmap.trans hcount.toMapKept, hcountCores.trans hcores, fun d a => by rw [nearByte, storeRow, hcount.mem]; exact hmem d a⟩

theorem storeRows_succ (he : Correctable errs) (h : StoreRowFree s c k q r) (n : Nat) (w : List (Nat × Nat)) :
    storeRows (n + 1) s c k q errs r w = storeRows n (storeRow s c k q errs r) c k q errs (r + 1) w := by
  rw [storeRows]
  dsimp only
  rw [List.flatMap_eq_nil_iff.2 fun x hx => by rw [storeCauses_part h.1 h.2 hx, List.map_nil]]
  have hwait := (storeRow_written he h).1
  rw [storeData] at hwait
  simp only [pickOne, hwait, List.append_nil]
  rfl

theorem storeRowFree_congr {u : State} (h : MapKept s u) (hs : u.slot c k = s.slot c k) (g : StoreRowFree s c k q r) : StoreRowFree u c k q r := by
  obtain ⟨hfree, hwin⟩ := g
  exact ⟨corePart_congr h c ▸ writesFree_congr h hfree, hs ▸ hwin⟩

/-- Address `a` of stack `d` lies outside row `r` of a STORE. -/
def OffStoreRow (s : State) (c : Nat) (q : QEntry) (d a r : Nat) : Prop :=
  d ≠ naStack (mvNear q.cmd + r * mvNs q.cmd) ∨ a < physOff s (corePart s c) (mvNear q.cmd + r * mvNs q.cmd) ∨
    physOff s (corePart s c) (mvNear q.cmd + r * mvNs q.cmd) + mvLen q.cmd ≤ a

theorem offStoreRow_congr {u : State} (h : MapKept s u) {d a : Nat} (g : OffStoreRow s c q d a r) : OffStoreRow u c q d a r := by
  rwa [OffStoreRow, corePart_congr h, physOff_congr h]

/-- Free rows are written one after the other; then the command is pushed with no line to wait for. -/
theorem storeRows_spec (he : Correctable errs) (n : Nat) (s : State) (r : Nat) (hfree : ∀ i, r ≤ i → i < r + n → StoreRowFree s c k q i) :
    ∃ u, storeRows n s c k q errs r [] = pushStarted u c k 2 q .done ∧ u.cores = s.cores ∧
      ∀ d a, (∀ i, r ≤ i → i < r + n → OffStoreRow s c q d a i) → nearByte u d a = nearByte s d a := by
  induction n generalizing s r with
  | zero => exact ⟨s, rfl, rfl, fun _ _ _ => rfl⟩
  | succ n ih =>
    have hrow := hfree r le_rfl (by omega)
    have hwritten := (storeRow_written he hrow).2
    obtain ⟨u, heq, hcores, hmem⟩ := ih (storeRow s c k q errs r) (r + 1)
      fun i h1 h2 => storeRowFree_congr hwritten.map (slot_of_cores hwritten.cores c k) (hfree i (by omega) (by omega))
    refine ⟨u, (storeRows_succ he hrow n []).trans heq, hcores.trans hwritten.cores, fun d a hoff => ?_⟩
    rw [hmem d a fun i h1 h2 => offStoreRow_congr hwritten.map (hoff i (by omega) (by omega)), hwritten.mem, if_neg]
    rw [storeData_length]
    have := hoff r le_rfl (by omega)
    unfold OffStoreRow at this
    omega

theorem exec_store (h : EngineTakes s c oSTORE k q) :
    exec (.store c errs) s = .next (storeRows (moveRows q) (takeHead s c 2 k q) c k q errs 0 []) :=
  congrArg _ (engineStart_takes s c oSTORE k q _ h)

theorem nearByte_pushStarted (u : State) (e : Nat) (w : Work) (d a : Nat) : nearByte (pushStarted u c k e q w) d a = nearByte u d a := rfl

theorem store_moves (he : Correctable errs) (h : EngineTakes s c oSTORE k q) (p na sp len rows : Nat) (hp : p = corePart s c) (hna : na = mvNear q.cmd)
    (hsp : sp = mvSpad q.cmd) (hlen : len = mvLen q.cmd) (hrows : rows = (if len = 0 then 0 else mvRows q.cmd))
    (hfree : ∀ r, r < rows → WritesFree s p (na + r * mvNs q.cmd) len ∧ (s.slot c k).inWin (sp + r * mvSs q.cmd) len = true) :
    ∃ t, exec (.store c errs) s = .next t ∧ Starts s t c k 2 q .done ∧ SpadExcept s t c [] ∧ AccExcept s t c [] ∧
      (∀ d a, (∀ r, r < rows → d ≠ naStack (na + r * mvNs q.cmd) ∨ a < physOff s p (na + r * mvNs q.cmd) ∨
        physOff s p (na + r * mvNs q.cmd) + len ≤ a) → nearByte t d a = nearByte s d a) ∧
      (rows = 1 → ∀ i, i < len → nearByte t (naStack na) (physOff s p na + i) = spadByte s c (winAddr s c k sp + i)) := by
  subst hp hna hsp hlen
  have hk := engineTakes_lt h
  change rows = moveRows q at hrows
  subst hrows
  refine ⟨_, exec_store h, ?_⟩
  have hnear := nearKept_takeHead s c 2 q hk
  have hwin := takeHead_inWin (s := s) (c := c) (e := 2) (q := q) hk
  have hfreeT : ∀ i, 0 ≤ i → i < 0 + moveRows q → StoreRowFree (takeHead s c 2 k q) c k q i := fun i _ hi => by
    obtain ⟨h1, h2⟩ := hfree i (by omega)
    exact ⟨corePart_congr hnear.toMapKept c ▸ writesFree_congr hnear.toMapKept h1, (congrFun (congrFun hwin _) _).trans h2⟩
  obtain ⟨u, heq, hcores, hmem⟩ := storeRows_spec he (moveRows q) (takeHead s c 2 k q) 0 hfreeT
  obtain ⟨hspadT, haccT, hnearT, -⟩ := takeHead_frame (s := s) (c := c) (e := 2) (q := q) hk [] []
  obtain ⟨hspadP, haccP, -⟩ := engineFrame_pushStarted u c hk 2 q .done [] []
  rw [heq]
  refine ⟨starts_pushStarted h (.of_eq (slot_of_cores hcores c k)) .done, fun j a ha => ?_, fun j a ha => ?_, fun d a hoff => ?_, fun hone i hi => ?_⟩
  · rw [hspadP j a ha, spadByte, core_of_cores hcores]
    exact hspadT j a ha
  · rw [haccP j a ha, accWord, core_of_cores hcores]
    exact haccT j a ha
  · rw [nearByte_pushStarted, hmem d a fun r _ hr => offStoreRow_congr hnear.toMapKept (hoff r (by omega)), hnearT]
  · have hrow := hfreeT 0 le_rfl (by omega)
    have hdata := (storeRow_written he hrow).2.mem (naStack (mvNear q.cmd)) (physOff s (corePart s c) (mvNear q.cmd) + i)
    simp only [Nat.zero_mul, Nat.add_zero, physOff_congr hnear.toMapKept, corePart_congr hnear.toMapKept, storeData_length] at hdata
    rw [if_pos ⟨trivial, by omega, by omega⟩, Nat.add_sub_cancel_left, storeData, takeHead_winRead hk, Nat.zero_mul, Nat.add_zero,
      winRead_getElem? s c k _ _ _ hi, Option.getD_some] at hdata
    rw [← heq, hone, storeRows_succ he hrow, storeRows, nearByte_pushStarted]
    exact hdata

end

/-- Settles O13: the rows of a transfer, none of which meets a fault, are moved one after the other, each into its own destination. -/
theorem loadAndStoreMoveRows : Obligations.LoadAndStoreMoveRows := by
  unfold Obligations.LoadAndStoreMoveRows
  intro s c k q errs he
  exact ⟨load_moves he, store_moves he⟩

end Sys2Proof.Machine
end

section
/-!
PROOFS of the core grid: STREAM, the fetch and the landing of its tiles, and SSTOP.
-/

namespace Sys2Proof.Machine

/-! ### Semaphores under a wait passed -/

/-- A count written leaves the kind and the TARGET of a hurdle. -/
theorem unitSem_setBits (w : Word64) (v : Nat) : unitSem (setBits w 15 0 v) = unitSem w := by
  have hw := w.isLt
  have h32 : nset w.toNat 15 0 v < 2 ^ 64 := by
    simp only [nset, nbits]
    omega
  have hsem : bit (setBits w 15 0 v) 32 = bit w 32 := by
    simp only [bit, setBits, BitVec.toNat_ofNat, Nat.mod_eq_of_lt h32]
    simp only [nset, nbits]
    congr 2
    omega
  have htarget : bits (setBits w 15 0 v) 31 16 = bits w 31 16 := by
    simp only [bits, setBits, BitVec.toNat_ofNat, Nat.mod_eq_of_lt h32]
    simp only [nset, nbits]
    omega
  rw [unitSem, hSem, hTarget, hsem, htarget, unitSem, hSem, hTarget]

theorem unitSem_passHurdle (K : Core) (x : SlotSt) (h j : Nat) : unitSem ((passHurdle K x h).hur j) = unitSem (K.hur j) := by
  unfold passHurdle
  dsimp only
  split
  · rw [Core.hur_setHur]
    split
    · next hj => rw [unitSem_setBits, hj]
    · rfl
  · rfl

section

variable {s : State} {c k n : Nat} {q : QEntry} {u : Started} {st : StreamSt}

theorem touchCtx_cores (s : State) (x : Nat) : (touchCtx s x).cores = s.cores := by
  obtain ⟨_, h⟩ := touchCtx_rest s x
  rw [h]

theorem keepsMemory_touchCtx (s : State) (x : Nat) : KeepsMemory s (touchCtx s x) := by
  obtain ⟨_, h⟩ := touchCtx_rest s x
  exact keepsMemory_same _ _ (touchCtx_cores s x) (by rw [h])

theorem setRr_hurdle (K : Core) (e v : Nat) : (K.setRr e v).hurdle = K.hurdle := by
  rcases e with _ | _ | _ | e <;> rfl

/-- A head taken changes the hurdle of its wait only. -/
theorem takeHead_hurdle (s : State) (c e k : Nat) (q : QEntry) : ((takeHead s c e k q).core c).hurdle =
    (if ((s.core c).slot k).waits q then passHurdle (s.core c) ((s.core c).slot k) q.cmd.waitH else s.core c).hurdle := by
  unfold takeHead
  dsimp only
  rw [core_of_cores (touchCtx_cores ..), State.core_setCore_same, setRr_hurdle, Core.setSlot_hurdle]
  refine foldl_keeps (fun a : Core => a.hurdle = _) _ _ _ rfl fun a ha b _ => ?_
  split
  · rw [Core.setSlot_hurdle, ha]
  · exact ha

theorem takeHead_unitSem (e : Nat) (j : Nat) : unitSem (((takeHead s c e k q).core c).hur j) = unitSem ((s.core c).hur j) := by
  rw [Core.hur, takeHead_hurdle, ← Core.hur]
  split
  · exact unitSem_passHurdle ..
  · rfl

/-! ### STREAM -/

theorem exec_stream (h : EngineTakes s c oSTREAM k q) : exec (.stream c) s = .next (streamStart (takeHead s c 2 k q) c k q) :=
  congrArg _ (engineStart_takes s c oSTREAM k q _ h)

theorem stream_idle (h : EngineTakes s c oSTREAM k q) (h0 : strTiles q.cmd = 0) :
    ∃ t, exec (.stream c) s = .next t ∧ Starts s t c k 2 q .done ∧ EngineFrame s t c k [] [] := by
  refine ⟨_, exec_stream h, ?_⟩
  unfold streamStart
  dsimp only
  rw [if_pos h0]
  exact ⟨starts_pushStarted h (.refl _) _, engineFrame_start h (.refl ..) _⟩

theorem stream_starts (h : EngineTakes s c oSTREAM k q) (hne : strTiles q.cmd ≠ 0)
    (hfull : unitSem ((s.core c).hur ((s.slot c k).hbase + strFull q.cmd)) = true)
    (hempty : unitSem ((s.core c).hur ((s.slot c k).hbase + strEmpty q.cmd)) = true) :
    ∃ t, exec (.stream c) s = .next t ∧ Starts s t c k 2 q (.stream ⟨0, [], 0, false⟩) ∧ EngineFrame s t c k [] [] := by
  refine ⟨_, exec_stream h, ?_⟩
  have hbase : ((takeHead s c 2 k q).slot c k).hbase = (s.slot c k).hbase := by
    rw [SlotSt.hbase, takeHead_cfg (engineTakes_lt h), SlotSt.hbase]
  unfold streamStart
  dsimp only
  rw [if_neg hne, ← State.slot_eq, takeHead_unitSem, takeHead_unitSem, hbase, hfull, hempty, Bool.and_self, if_pos rfl]
  exact ⟨starts_pushStarted h (.refl _) _, engineFrame_start h (.refl ..) _⟩

/-! ### SSTOP -/

/-- A stream halted is stopped. -/
theorem stopped_of_haltWork {w : Work} {z : StreamSt} (h : haltWork w = .stream z) : z.stopped = true := by
  unfold haltWork at h
  split at h
  · split at h
    · cases h
    · cases h
      rfl
  · split at h <;> cases h
  · next hnot _ => exact absurd h (hnot z)

/-- A stream among started commands some of which are halted is stopped, or was none of those. -/
theorem stopped_or_not_hit {hit : Started → Bool} {l : List Started} {u : Started} {z : StreamSt}
    (h : u ∈ l.map fun t => if hit t then { t with work := haltWork t.work } else t) (hz : u.work = .stream z) : z.stopped = true ∨ hit u = false := by
  obtain ⟨a, _, rfl⟩ := List.mem_map.1 h
  by_cases ha : hit a = true
  · rw [if_pos ha] at hz
    exact .inl (stopped_of_haltWork hz)
  · rw [if_neg ha]
    exact .inr (by simpa using ha)

theorem exec_sstop (h : EngineTakes s c oSSTOP k q) : exec (.sstop c) s = .next (sstopStart (takeHead s c 2 k q) c k q) :=
  congrArg _ (engineStart_takes s c oSSTOP k q _ h)

theorem sstop_stops (h : EngineTakes s c oSSTOP k q) :
    ∃ t, exec (.sstop c) s = .next t ∧ EngineFrame s t c k [] [] ∧ (∃ u ∈ (t.slot c k).started, u.cmd = q.cmd ∧ u.work = .done) ∧
      (∀ u ∈ (t.slot c k).started, ∀ st, u.work = .stream st → u.cmd.tag = bits q.cmd.w1 15 0 → st.stopped = true) ∧
      (∀ u ∈ (s.slot c k).started, ∀ st, u.work = .stream st → u.cmd.tag = bits q.cmd.w1 15 0 →
        ∀ x ∈ (t.slot c k).tiles, x.serial ≠ u.serial) := by
  have hk := engineTakes_lt h
  refine ⟨_, exec_sstop h, ?_⟩
  obtain ⟨_, _, _, _, htake⟩ := takeHead_slot_rest (s := s) (c := c) (e := 2) (q := q) hk
  have hstarted : ((takeHead s c 2 k q).slot c k).started = (s.slot c k).started := by rw [htake]
  unfold sstopStart
  dsimp only
  set y : SlotSt := { (takeHead s c 2 k q).slot c k with
    started := ((takeHead s c 2 k q).slot c k).started.map _, tiles := _ } with hy
  obtain ⟨v, hslot, hcmd, _, _, hwork⟩ := pushStarted_slot ((takeHead s c 2 k q).setSlot c k y) c k 2 q .done hk
  rw [State.slot_setSlot_same] at hslot
  rw [hslot]
  refine ⟨engineFrame_start h (engineFrame_setSlot _ c hk y [] []) .done, ⟨v, by simp, hcmd, hwork⟩, ?_, ?_⟩
  · intro u hu z hz htag
    rcases List.mem_append.1 hu with hu | hu
    · rcases stopped_or_not_hit hu hz with hstop | hnot
      · exact hstop
      · simp [hz, htag] at hnot
    · rw [List.mem_singleton.1 hu, hwork] at hz
      cases hz
  · intro u hu z hz htag x hx heq
    simp only [hy, List.mem_filter, Bool.not_eq_true', List.contains_eq_mem, decide_eq_false_iff_not, List.mem_map, not_exists, not_and, hstarted] at hx
    exact hx.2 u ⟨hu, by simp [hz, htag]⟩ heq.symm

/-! ### The fetch of a tile -/

theorem stream_fetches (hruns : s.coreRuns c = true) (hk : k < 4) (hrun : (s.slot c k).state = .running) (hfind : (s.slot c k).find n = some u)
    (hwork : u.work = .stream st) (hstop : st.stopped = false) (hnext : st.next < strTiles u.cmd)
    (hadmits : strDepth u.cmd ≤ st.next → admits (s.core c) (s.slot c k) (strEmpty u.cmd) u.seq = true) :
    ∃ t, exec (.streamTileFetch c k n) s = .next t ∧ KeepsMemory s t ∧
      (t.slot c k).started = (s.slot c k).started.map fun v => if v.serial = n then
        { v with work := .stream { st with next := st.next + 1, inflight := st.inflight ++ [st.next] } } else v := by
  rw [State.slot_eq] at hrun hfind hadmits
  obtain ⟨K, hK, hspad, hacc, hslot⟩ : ∃ K, K =
      (if strDepth u.cmd ≤ st.next then passHurdle (s.core c) ((s.core c).slot k) (strEmpty u.cmd) else s.core c) ∧ K.spad = (s.core c).spad ∧ K.acc = (s.core c).acc ∧ K.slot k = (s.core c).slot k := by
    refine ⟨_, rfl, ?_⟩
    split
    · obtain ⟨h1, h2, _⟩ := passHurdle_mem (s.core c) ((s.core c).slot k) (strEmpty u.cmd)
      exact ⟨h1, h2, passHurdle_slot ..⟩
    · exact ⟨rfl, rfl, rfl⟩
  refine ⟨_, rfl, ?_⟩
  dsimp only
  rw [if_neg (by simp [hruns, hrun, hk]), hfind]
  dsimp only
  rw [hwork]
  dsimp only
  rw [if_neg (by simp [hstop, hnext]), if_neg (by simpa using hadmits), ← hK]
  refine ⟨.trans ?_ (keepsMemory_touchCtx ..), ?_⟩
  · exact keepsMemory_setCore s c _ (by simp [hspad]) (by simp [hacc])
  · rw [slot_of_cores (touchCtx_cores ..), State.slot_eq, State.core_setCore_same, Core.slot_setSlot_same, hslot, SlotSt.modify, State.slot_eq]

end

/-! ### The landing of a tile -/

/-- One piece of a clean tile written; what is read is near memory as it stood before the tile. -/
def tilePiece (s u : State) (c k na sp : Nat) (r : Nat × Nat) : State :=
  u.setCore c (winWrite (u.core c) (s.slot c k) (sp + r.1) (nearBytes s (corePart s c) (na + r.1) r.2))

/-- What the pieces below `m` of a row have moved. -/
structure PiecesMoved (s u : State) (c k na sp n m : Nat) : Prop where
  near : NearKept s u
  slot : u.slot c k = s.slot c k
  hurdle : (u.core c).hurdle = (s.core c).hurdle
  frame : EngineFrame s u c k [(winAddr s c k sp, n)] []
  data : ∀ i, i < n → i < m → spadByte u c (winAddr s c k sp + i) = nearByte s (naStack na) (physOff s (corePart s c) na + i)

section

variable {s : State} {c k na sp n : Nat}

/-- A fold that finds nothing to report is the fold of its states. -/
theorem foldl_pair {α β : Type} {f : State × List β → α → State × List β} {g : State → α → State} (l : List α)
    (h : ∀ u, ∀ r ∈ l, f (u, []) r = (g u r, [])) (u : State) : l.foldl f (u, []) = (l.foldl g u, []) := by
  induction l generalizing u with
  | nil => rfl
  | cons r l ih =>
    rw [List.foldl_cons, List.foldl_cons, h u r List.mem_cons_self]
    exact ih (fun u x hx => h u x (List.mem_cons_of_mem _ hx)) _

theorem landTile_eq (h : ReadsClean s (corePart s c) na n) (hw : (s.slot c k).inWin sp n = true) :
    landTile s c k na sp n = ((pieces n).foldl (fun u r => tilePiece s u c k na sp r) s, none) := by
  unfold landTile
  dsimp only
  rw [foldl_pair (g := fun u r => tilePiece s u c k na sp r) _ fun u r hr => by rw [loadCauses_part h hw hr]; rfl]
  rfl

theorem tilePiece_moved {u : State} {m : Nat} (h : ReadsClean s (corePart s c) na n) (hm : m < ceilDiv n 64)
    (g : PiecesMoved s u c k na sp n (64 * m)) :
    PiecesMoved s (tilePiece s u c k na sp (64 * m, min 64 (n - 64 * m))) c k na sp n (64 * (m + 1)) := by
  obtain ⟨hnear, hslot, hhurdle, hframe, hdata⟩ := g
  unfold tilePiece
  have hmem : (64 * m, min 64 (n - 64 * m)) ∈ pieces n := List.mem_map.2 ⟨m, List.mem_range.2 hm, rfl⟩
  obtain ⟨hpos, hle⟩ := mem_pieces hmem
  dsimp only at hpos hle ⊢
  obtain ⟨hst, _, hok⟩ := near_part h.1 hpos hle
  rw [nearBytes, if_pos hok, hst, physOff_part h.1 hpos hle]
  set l := stackRead s (naStack na) (physOff s (corePart s c) na + 64 * m) (min 64 (n - 64 * m)) with hl
  have hlen : l.length = min 64 (n - 64 * m) := stackRead_length ..
  set K := winWrite (u.core c) (s.slot c k) (sp + 64 * m) l with hK
  have haddr : winAddr s c k sp = (s.slot c k).spb * 4096 + sp := rfl
  refine ⟨hnear.trans (nearKept_setCore ..), ?_, ?_, hframe.trans (engineFrame_setCore ?_), fun i hi hm' => ?_⟩
  · rw [State.slot_eq, State.core_setCore_same, hK, winWrite_slot, ← State.slot_eq, hslot]
  · rw [State.core_setCore_same, hK, ← hhurdle, winWrite]
  · exact coreFrame_winWrite _ k _ _ l [] List.mem_cons_self (by dsimp only; omega) (by dsimp only; omega)
  · rw [spadByte, State.core_setCore_same, hK]
    by_cases hlow : i < 64 * m
    · rw [← hdata i hi hlow, winWrite, mget_mwrite, if_neg (by omega), spadByte]
    · obtain ⟨j, rfl⟩ : ∃ j, i = 64 * m + j := ⟨i - 64 * m, by omega⟩
      rw [haddr, show (s.slot c k).spb * 4096 + sp + (64 * m + j) = (s.slot c k).spb * 4096 + (sp + 64 * m) + j by omega,
        mget_winWrite _ _ _ _ _ (by omega), hl, stackRead_getElem? _ _ _ _ _ (by omega), Option.getD_some, Nat.add_assoc]

theorem tilePieces_moved (h : ReadsClean s (corePart s c) na n) (m : Nat) (hm : m ≤ ceilDiv n 64) :
    PiecesMoved s (((List.range m).map fun i => (64 * i, min 64 (n - 64 * i))).foldl (fun u r => tilePiece s u c k na sp r) s) c k na sp n (64 * m) := by
  induction m with
  | zero => exact ⟨.refl s, rfl, rfl, .refl .., fun i _ hi => absurd hi (by omega)⟩
  | succ m ih =>
    rw [List.range_succ, List.map_append, List.foldl_append]
    exact tilePiece_moved h (by omega) (ih (by omega))

/-- A clean tile lands whole, with no cause held. -/
theorem landTile_clean (h : ReadsClean s (corePart s c) na n) (hw : (s.slot c k).inWin sp n = true) :
    (landTile s c k na sp n).2 = none ∧ RowMoved s (landTile s c k na sp n).1 c k na sp n := by
  rw [landTile_eq h hw]
  obtain ⟨hnear, hslot, hhurdle, hframe, hdata⟩ := tilePieces_moved (k := k) (sp := sp) h (ceilDiv n 64) le_rfl
  exact ⟨rfl, hnear, hslot, hhurdle, hframe, fun i hi => hdata i hi (by unfold ceilDiv; omega)⟩

end

/-- Steps that leave cores and near memory keep what a row has moved. -/
theorem RowMoved.after {s u v : State} {c k na sp n : Nat} (h : RowMoved s u c k na sp n) (hnear : NearKept u v) (hcores : v.cores = u.cores) :
    RowMoved s v c k na sp n :=
  ⟨h.near.trans hnear, (slot_of_cores hcores c k).trans h.slot, (congrArg Core.hurdle (core_of_cores hcores c)).trans h.hurdle,
    h.frame.trans (engineFrame_of_cores c k _ [] hcores hnear.mem), fun i hi => by rw [spadByte, core_of_cores hcores]; exact h.data i hi⟩

theorem RowMoved.before {s u v : State} {c k na sp n : Nat} (hnear : NearKept s u) (hcores : u.cores = s.cores) (h : RowMoved u v c k na sp n) :
    RowMoved s v c k na sp n := by
  have hslot := slot_of_cores hcores c k
  have haddr : winAddr u c k sp = winAddr s c k sp := by rw [winAddr, hslot, winAddr]
  refine ⟨hnear.trans h.near, h.slot.trans hslot, h.hurdle.trans (congrArg Core.hurdle (core_of_cores hcores c)),
    (engineFrame_of_cores c k _ [] hcores hnear.mem).trans (haddr ▸ h.frame), fun i hi => ?_⟩
  rw [← haddr, h.data i hi, physOff_congr hnear.toMapKept, corePart_congr hnear.toMapKept, nearByte, hnear.mem, nearByte]

section

variable {s : State} {c k n tile : Nat} {u : Started} {st : StreamSt} {errs : List EccErr}

/-- The tile counted: FULL_H rises, and the stream has it in flight no more. -/
theorem tileLanded_facts (s : State) (c k : Nat) (u : Started) (st : StreamSt) (tile : Nat) (cause : Option Nat)
    (hcount : hCount ((s.core c).hur ((s.slot c k).hbase + strFull u.cmd)) + 1 ≤ 65535) :
    (∀ j, ((tileLanded s c k u st tile cause).core j).spad = (s.core j).spad) ∧
    hCount (((tileLanded s c k u st tile cause).core c).hur ((s.slot c k).hbase + strFull u.cmd)) =
      hCount ((s.core c).hur ((s.slot c k).hbase + strFull u.cmd)) + 1 ∧
    ∀ v ∈ ((tileLanded s c k u st tile cause).slot c k).started, v.serial = u.serial → ∀ z, v.work = .stream z → tile ∉ z.inflight := by
  unfold tileLanded
  dsimp only
  set st2 : StreamSt := { st with inflight := st.inflight.filter (· != tile), landed := st.landed + 1 } with hst2
  set w : Work := if (st2.inflight.isEmpty && (st2.stopped || decide (strTiles u.cmd ≤ st2.landed))) = true then .done else .stream st2 with hw
  set y := (s.slot c k).modify u.serial fun t => { t with work := w } with hy
  set z : SlotSt := if st.stopped then y else { y with tiles := y.tiles ++ [⟨strFull u.cmd, u.serial, tile, cause⟩] } with hz
  have hstarted : z.started = y.started := by
    rw [hz]
    split <;> rfl
  have hhur : ((s.setSlot c k z).core c).hur ((s.slot c k).hbase + strFull u.cmd) = (s.core c).hur ((s.slot c k).hbase + strFull u.cmd) := by
    rw [Core.hur, State.setSlot_core_hurdle, Core.hur]
  rw [hurdleAdd_fits _ _ _ _ _ (by rwa [hhur]), hhur]
  refine ⟨fun j => ?_, ?_, ?_⟩
  · rw [(setHur_mem ..).1, State.setSlot_core_spad]
  · rw [State.core_setCore_same, Core.hur_setHur, if_pos rfl, hCount_setBits _ _ hcount]
  · intro v hv hserial b hb
    rw [setHur_slot, State.slot_setSlot_same, hstarted, hy, SlotSt.modify] at hv
    obtain ⟨a, _, rfl⟩ := List.mem_map.1 hv
    split at hb
    · dsimp only at hb
      rw [hw] at hb
      split at hb
      · cases hb
      · cases hb
        simp [hst2]
    · next hne =>
      rw [if_neg hne] at hserial
      exact absurd hserial hne

theorem stream_lands (hregs : s.coreRegs c = true) (hk : k < 4) (hfind : (s.slot c k).find n = some u) (hwork : u.work = .stream st)
    (hflight : st.inflight.contains tile = true) (he : Correctable errs) (na m sp : Nat) (hm : m = strBytes u.cmd) (hna : na = strNear u.cmd + tile * m)
    (hsp : sp = strBuf u.cmd + tile % max 1 (strDepth u.cmd) * m) (hclean : ReadsClean s (corePart s c) na m) (hwin : (s.slot c k).inWin sp m = true)
    (hcount : hCount ((s.core c).hur ((s.slot c k).hbase + strFull u.cmd)) + 1 ≤ 65535) :
    ∃ t, exec (.streamTileLanded c k n tile errs) s = .next t ∧ SpadExcept s t c [(winAddr s c k sp, m)] ∧
      (∀ i, i < m → spadByte t c (winAddr s c k sp + i) = nearByte s (naStack na) (physOff s (corePart s c) na + i)) ∧
      hCount ((t.core c).hur ((s.slot c k).hbase + strFull u.cmd)) = hCount ((s.core c).hur ((s.slot c k).hbase + strFull u.cmd)) + 1 ∧
      (∀ v ∈ (t.slot c k).started, v.serial = n → ∀ z, v.work = .stream z → tile ∉ z.inflight) := by
  subst hm hna hsp
  refine ⟨_, rfl, ?_⟩
  dsimp only
  rw [if_neg (by simp [hregs, hk]), hfind]
  dsimp only
  rw [hwork]
  dsimp only
  rw [if_neg (by simp only [hflight]; simp), if_pos hclean.1, hclean.2.2, if_neg (by simp)]
  set na := strNear u.cmd + tile * strBytes u.cmd
  set sp := strBuf u.cmd + tile % max 1 (strDepth u.cmd) * strBytes u.cmd
  obtain ⟨hread, hcores⟩ := readRow_kept s c na (strBytes u.cmd) errs he
  set v := readRow s c na (strBytes u.cmd) errs
  have hslot := slot_of_cores hcores c k
  obtain ⟨hnone, hmoved⟩ := landTile_clean (s := v) (c := c) (k := k) (sp := sp)
    (corePart_congr hread.toMapKept c ▸ readsClean_congr hread hclean) (hslot ▸ hwin)
  obtain ⟨hnearC, hcoresC⟩ := countMove_kept (landTile v c k na sp (strBytes u.cmd)).1 c k na (strBytes u.cmd)
  have hall := (hmoved.after hnearC hcoresC).before hread hcores
  set x := countMove (landTile v c k na sp (strBytes u.cmd)).1 c k na (strBytes u.cmd)
  have hhur : ∀ j, (x.core c).hur j = (s.core c).hur j := fun j => by rw [Core.hur, hall.hurdle, ← Core.hur]
  obtain ⟨hspad, hrise, hgone⟩ := tileLanded_facts x c k u st tile (landTile v c k na sp (strBytes u.cmd)).2 (by
    rw [hall.slot, hhur]; exact hcount)
  have hserial : u.serial = n := by simpa using List.find?_some hfind
  refine ⟨fun j a ha => ?_, fun i hi => ?_, ?_, ?_⟩
  · rw [spadByte, hspad, ← spadByte]
    exact hall.frame.1 j a ha
  · rw [spadByte, hspad, ← spadByte]
    exact hall.data i hi
  · rw [hall.slot, hhur] at hrise
    exact hrise
  · rw [← hserial]
    exact hgone

end

/-- Settles O14: tiles are fetched in order, land whole piece by piece, and an SSTOP halts every stream of its tag. -/
theorem streamsFetchAndLandTiles : Obligations.StreamsFetchAndLandTiles := by
  unfold Obligations.StreamsFetchAndLandTiles
  intro s c k q
  refine ⟨stream_idle, stream_starts, sstop_stops, fun n u st => stream_fetches, fun n u st tile errs h1 h2 h3 h4 h5 h6 h7 h8 h9 => ?_⟩
  exact stream_lands h1 h2 h3 h4 h5 h6 _ _ _ rfl rfl rfl h7 h8 h9

end Sys2Proof.Machine
end

section
/-!
PROOFS of the core grid: SPCOPY, GATHER, RACONF and RADROP.
-/

namespace Sys2Proof.Machine

section

variable {s : State} {c k : Nat} {q : QEntry}

/-! ### SPCOPY -/

theorem exec_spcopy (h : EngineTakes s c oSPCOPY k q) : exec (.spcopy c) s = .next (spcopyStart (takeHead s c 2 k q) c k q) :=
  congrArg _ (engineStart_takes s c oSPCOPY k q _ h)

theorem spcopy_copies (h : EngineTakes s c oSPCOPY k q) (src dst n : Nat) (hsrc : src = bits q.cmd.w1 21 0) (hdst : dst = bits q.cmd.w2 21 0)
    (hn : n = bits q.cmd.w2 45 22) (hS : (s.slot c k).inWin src n = true) (hD : (s.slot c k).inWin dst n = true) :
    ∃ t, exec (.spcopy c) s = .next t ∧ Starts s t c k 2 q .done ∧ EngineFrame s t c k [(winAddr s c k dst, n)] [] ∧
      ∀ i, i < n → spadByte t c (winAddr s c k dst + i) = spadByte s c (winAddr s c k src + i) := by
  subst hsrc hdst hn
  have hk := engineTakes_lt h
  refine ⟨_, exec_spcopy h, ?_⟩
  unfold spcopyStart
  dsimp only
  rw [← State.slot_eq, takeHead_inWin hk, hS, hD, if_pos rfl, if_pos rfl]
  simp only [List.append_nil, pickOne]
  set l := winRead ((takeHead s c 2 k q).core c) ((takeHead s c 2 k q).slot c k) (bits q.cmd.w1 21 0) (bits q.cmd.w2 45 22) with hl
  set K := winWrite ((takeHead s c 2 k q).core c) ((takeHead s c 2 k q).slot c k) (bits q.cmd.w2 21 0) l with hK
  set u := ((takeHead s c 2 k q).setCore c K).count ((takeHead s c 2 k q).slot c k).ctx 4 (bits q.cmd.w2 45 22) with hu
  have hcore : u.core c = K := by rw [hu, State.count_core, State.core_setCore_same]
  have hlen : l.length = bits q.cmd.w2 45 22 := winRead_length ..
  have haddr := takeHead_winAddr (s := s) (e := 2) (q := q) hk (bits q.cmd.w2 21 0) (c := c)
  refine ⟨starts_pushStarted h (.of_eq ?_) .done, engineFrame_start h ?_ .done, fun i hi => ?_⟩
  · rw [State.slot_eq, hcore, hK, winWrite_slot]
    rfl
  · have hset : EngineFrame (takeHead s c 2 k q) ((takeHead s c 2 k q).setCore c K) c k [(winAddr s c k (bits q.cmd.w2 21 0), bits q.cmd.w2 45 22)] [] :=
      engineFrame_setCore (coreFrame_winWrite _ k _ _ l [] List.mem_cons_self haddr.ge (by rw [hlen]; exact (congrArg (· + _) haddr).le))
    exact hset.trans (engineFrame_of_cores c k _ [] (by rw [hu, State.count_cores]) fun d => by rw [hu, State.count_bdie])
  · rw [spadByte, (pushStarted_core ..).1, hcore, hK, ← haddr, winAddr, mget_winWrite _ _ _ _ _ (by rwa [hlen]), hl, takeHead_winRead hk,
      winRead_getElem? s c k _ _ _ hi, Option.getD_some]

/-! ### GATHER -/

/-- The pointer of row `r`. -/
def gaPtr (s : State) (c k : Nat) (q : QEntry) (r : Nat) : Nat := winNat (s.core c) (s.slot c k) (bits q.cmd.w1 21 0 + 8 * r) 8

/-- Where row `r` goes. -/
def gaDst (q : QEntry) (r : Nat) : Nat := bits q.cmd.w1 43 22 + r * bits q.cmd.w2 58 37

/-- A pointer valid in form, whose source can be read cleanly, and a destination inside the window. -/
def GatherRowClean (s : State) (c k : Nat) (q : QEntry) (r w : Nat) : Prop :=
  ptrBad w = false ∧ (ptrValid w = true → ptrSpad w = true → (s.slot c k).inWin (ptrAddr w) (gaLen q.cmd) = true) ∧
  (ptrValid w = true → ptrSpad w = false → ReadsClean s (corePart s c) (ptrAddr w) (gaLen q.cmd)) ∧
  (s.slot c k).inWin (gaDst q r) (gaLen q.cmd) = true

/-- What a row of a GATHER leaves: near memory and its maps, the slot, and all of the core's memory but the row's destination. -/
structure RowWritten (s u : State) (c k dst n : Nat) : Prop where
  near : NearKept s u
  slot : u.slot c k = s.slot c k
  frame : EngineFrame s u c k [(winAddr s c k dst, n)] []

theorem rowWritten_winWrite (s : State) (c k dst n : Nat) (l : List Byte) (hl : l.length ≤ n) :
    RowWritten s (s.setCore c (winWrite (s.core c) (s.slot c k) dst l)) c k dst n := by
  refine ⟨nearKept_setCore .., ?_, engineFrame_setCore ?_⟩
  · rw [State.slot_eq, State.core_setCore_same, winWrite_slot, ← State.slot_eq]
  · exact coreFrame_winWrite _ k _ _ l [] List.mem_cons_self le_rfl (by dsimp only [winAddr]; omega)

/-- A padding row fills its destination (R167). -/
theorem gaPad_length (cmd : Cmd) (h : gaLen cmd % outBytes (bits cmd.w3 35 32) = 0) : (gaPad cmd).length = gaLen cmd := by
  unfold gaPad
  dsimp only
  rw [List.length_flatMap]
  simp only [leBytes_length, List.map_const', List.sum_replicate, List.length_range, smul_eq_mul]
  exact Nat.div_mul_cancel (Nat.dvd_of_mod_eq_zero h)

/-- The effect of one row: padding, a copy inside the window, or a read of near memory. -/
def gatherRow (s : State) (c k : Nat) (q : QEntry) (errs : List EccErr) (r : Nat) : State :=
  if !ptrValid (gaPtr s c k q r) then s.setCore c (winWrite (s.core c) (s.slot c k) (gaDst q r) (gaPad q.cmd))
  else if ptrSpad (gaPtr s c k q r) then
    s.setCore c (winWrite (s.core c) (s.slot c k) (gaDst q r) (winRead (s.core c) (s.slot c k) (ptrAddr (gaPtr s c k q r)) (gaLen q.cmd)))
  else
    countMove (landRow (readRow s c (ptrAddr (gaPtr s c k q r)) (gaLen q.cmd) errs) c k (ptrAddr (gaPtr s c k q r)) (gaDst q r) (gaLen q.cmd) false).1
      c k (ptrAddr (gaPtr s c k q r)) (gaLen q.cmd)

theorem gatherRow_written {r : Nat} {errs : List EccErr} (he : Correctable errs) (hpad : gaLen q.cmd % outBytes (bits q.cmd.w3 35 32) = 0)
    (h : GatherRowClean s c k q r (gaPtr s c k q r)) : RowWritten s (gatherRow s c k q errs r) c k (gaDst q r) (gaLen q.cmd) := by
  obtain ⟨_, _, hread, hdst⟩ := h
  unfold gatherRow
  split
  · exact rowWritten_winWrite s c k _ _ _ (gaPad_length _ hpad).le
  · next hvalid =>
    split
    · exact rowWritten_winWrite s c k _ _ _ (winRead_length ..).le
    · next hspad =>
      obtain ⟨hnear, hslot, _, hframe, _⟩ := (rowMoved_land s c k _ _ _ errs false he (hread (by simpa using hvalid) (by simpa using hspad)) hdst).2
      exact ⟨hnear, hslot, hframe⟩

theorem gatherRows_succ {r : Nat} {errs : List EccErr} (he : Correctable errs) (h : GatherRowClean s c k q r (gaPtr s c k q r)) (n : Nat) :
    gatherRows (n + 1) s c k q errs r = gatherRows n (gatherRow s c k q errs r) c k q errs (r + 1) := by
  obtain ⟨hform, hwin, hread, hdst⟩ := h
  rw [gatherRows]
  dsimp only
  rw [← gaPtr, ← gaDst, hform, if_neg Bool.false_ne_true, gatherRow]
  cases hvalid : ptrValid (gaPtr s c k q r) with
  | false => rfl
  | true =>
    cases hspad : ptrSpad (gaPtr s c k q r) with
    | true =>
      rw [gaWindowRow, if_pos (hwin hvalid hspad)]
      rfl
    | false =>
      simp only [(rowMoved_land s c k _ _ _ errs false he (hread hvalid hspad) hdst).1]
      rfl

/-- A number of a window reads as before where its bytes do. -/
theorem winNat_of_bytes {u : State} (hs : u.slot c k = s.slot c k) (off n : Nat)
    (h : ∀ i, i < n → spadByte u c (winAddr s c k off + i) = spadByte s c (winAddr s c k off + i)) :
    winNat (u.core c) (u.slot c k) off n = winNat (s.core c) (s.slot c k) off n := by
  have haddr : winAddr u c k off = winAddr s c k off := by rw [winAddr, hs, winAddr]
  refine congrArg leNat (List.ext_getElem? fun i => ?_)
  by_cases hi : i < n
  · rw [winRead_getElem? u c k _ _ _ hi, winRead_getElem? s c k _ _ _ hi, haddr, h i hi]
  · rw [List.getElem?_eq_none (by rw [winRead_length]; omega), List.getElem?_eq_none (by rw [winRead_length]; omega)]

theorem gatherRowClean_congr {u : State} {r w : Nat} (h : NearKept s u) (hs : u.slot c k = s.slot c k) (g : GatherRowClean s c k q r w) :
    GatherRowClean u c k q r w := by
  obtain ⟨hform, hwin, hread, hdst⟩ := g
  refine ⟨hform, hs ▸ hwin, fun h1 h2 => corePart_congr h.toMapKept c ▸ readsClean_congr h (hread h1 h2), hs ▸ hdst⟩

/-- The pointer of a row below `rows` is not among the bytes a row below `rows` writes. -/
def PointersApart (q : QEntry) (rows : Nat) : Prop :=
  ∀ i j, i < rows → j < rows → bits q.cmd.w1 21 0 + 8 * i + 8 ≤ gaDst q j ∨ gaDst q j + gaLen q.cmd ≤ bits q.cmd.w1 21 0 + 8 * i

theorem gaPtr_of_written {u : State} {i j rows : Nat} (hapart : PointersApart q rows) (hi : i < rows) (hj : j < rows)
    (h : RowWritten s u c k (gaDst q j) (gaLen q.cmd)) : gaPtr u c k q i = gaPtr s c k q i := by
  refine winNat_of_bytes h.slot _ _ fun b hb => h.frame.1 c _ fun _ r hr => ?_
  rw [List.mem_singleton.1 hr]
  have := hapart i j hi hj
  simp only [winAddr]
  omega

/-- Clean rows are gathered one after the other; then the command is pushed. -/
theorem gatherRows_spec {errs : List EccErr} {rows : Nat} (he : Correctable errs) (hpad : gaLen q.cmd % outBytes (bits q.cmd.w3 35 32) = 0)
    (hapart : PointersApart q rows) (sp : List (Nat × Nat)) (n : Nat) (s : State) (r : Nat) (hr : r + n = rows)
    (hclean : ∀ i, i < rows → GatherRowClean s c k q i (gaPtr s c k q i)) (hsp : ∀ i, i < rows → (winAddr s c k (gaDst q i), gaLen q.cmd) ∈ sp) :
    ∃ u, gatherRows n s c k q errs r = pushStarted u c k 2 q .done ∧ u.slot c k = s.slot c k ∧ EngineFrame s u c k sp [] := by
  induction n generalizing s r with
  | zero => exact ⟨s, rfl, rfl, .refl ..⟩
  | succ n ih =>
    have hrow := hclean r (by omega)
    have hwritten := gatherRow_written he hpad hrow
    obtain ⟨u, heq, hslot, hframe⟩ := ih (gatherRow s c k q errs r) (r + 1) (by omega)
      (fun i hi => by
        rw [gaPtr_of_written hapart hi (show r < rows by omega) hwritten]
        exact gatherRowClean_congr hwritten.near hwritten.slot (hclean i hi))
      (fun i hi => by rw [winAddr, hwritten.slot]; exact hsp i hi)
    refine ⟨u, (gatherRows_succ he hrow n).trans heq, hslot.trans hwritten.slot, .trans (hwritten.frame.mono ?_ (by simp)) hframe⟩
    rintro x hx
    rw [List.mem_singleton.1 hx]
    exact hsp r (by omega)

/-- The rows of a GATHER: none of length 0. -/
def gaRows (q : QEntry) : Nat := if gaLen q.cmd = 0 then 0 else gaCount q.cmd

theorem pointersApart_of_overlap (h : overlap (bits q.cmd.w1 21 0) (gaCount q.cmd * 8) (bits q.cmd.w1 43 22)
    (if gaRows q = 0 then 0 else (gaRows q - 1) * bits q.cmd.w2 58 37 + gaLen q.cmd) = false) : PointersApart q (gaRows q) := by
  intro i j hi hj
  have hne : gaLen q.cmd ≠ 0 := fun h0 => by simp [gaRows, h0] at hi
  have hrows : gaRows q = gaCount q.cmd := if_neg hne
  rw [if_neg (by omega)] at h
  have hj' : j * bits q.cmd.w2 58 37 ≤ (gaRows q - 1) * bits q.cmd.w2 58 37 := Nat.mul_le_mul_right _ (by omega)
  rw [hrows] at h hi hj hj'
  simp only [overlap, decide_eq_false_iff_not, gaDst] at h ⊢
  omega

theorem exec_gather {errs : List EccErr} (h : EngineTakes s c oGATHER k q)
    (hclean : ∀ r, r < gaRows q → GatherRowClean s c k q r (gaPtr s c k q r)) :
    exec (.gather c errs) s = .next (gatherRows (gaRows q) (takeHead s c 2 k q) c k q errs 0) := by
  change execGather c errs s = _
  unfold execGather
  rw [headOf_takes h]
  dsimp only
  rw [if_pos, engineStart_takes s c oGATHER k q _ h]
  · rfl
  · rw [List.isEmpty_iff]
    split
    · rfl
    · next hne =>
      have hrows : gaRows q = gaCount q.cmd := if_neg hne
      refine heldLines_eq_nil fun x hx => ?_
      obtain ⟨w, hw, rfl⟩ := List.mem_map.1 hx
      obtain ⟨hlist, hkind⟩ := List.mem_filter.1 hw
      obtain ⟨r, hr, rfl⟩ := List.mem_map.1 hlist
      simp only [Bool.and_eq_true, Bool.not_eq_true'] at hkind
      obtain ⟨⟨hvalid, hspad⟩, _⟩ := hkind
      obtain ⟨_, _, hread, _⟩ := hclean r (hrows ▸ List.mem_range.1 hr)
      exact hread hvalid hspad

theorem gather_gathers (h : EngineTakes s c oGATHER k q) (errs : List EccErr) (p n rows dst stride : Nat) (he : Correctable errs) (hp : p = corePart s c)
    (hn : n = gaLen q.cmd) (hrows : rows = (if n = 0 then 0 else gaCount q.cmd)) (hdst : dst = bits q.cmd.w1 43 22)
    (hstride : stride = bits q.cmd.w2 58 37)
    (hlist : overlap (bits q.cmd.w1 21 0) (gaCount q.cmd * 8) dst (if rows = 0 then 0 else (rows - 1) * stride + n) = false)
    (hpad : n % outBytes (bits q.cmd.w3 35 32) = 0)
    (hclean : ∀ r, r < rows → ∀ w, w = winNat (s.core c) (s.slot c k) (bits q.cmd.w1 21 0 + 8 * r) 8 → ptrBad w = false ∧
      (ptrValid w = true → ptrSpad w = true → (s.slot c k).inWin (ptrAddr w) n = true) ∧
      (ptrValid w = true → ptrSpad w = false → ReadsClean s p (ptrAddr w) n) ∧ (s.slot c k).inWin (dst + r * stride) n = true) :
    ∃ t, exec (.gather c errs) s = .next t ∧ Starts s t c k 2 q .done ∧
      EngineFrame s t c k ((List.range rows).map fun r => (winAddr s c k (dst + r * stride), n)) [] := by
  subst hp hn hdst hstride
  change rows = gaRows q at hrows
  subst hrows
  have hk := engineTakes_lt h
  have hrow : ∀ r, r < gaRows q → GatherRowClean s c k q r (gaPtr s c k q r) := fun r hr => hclean r hr _ rfl
  refine ⟨_, exec_gather h hrow, ?_⟩
  have hnear := nearKept_takeHead s c 2 q hk
  have hptr : ∀ r, gaPtr (takeHead s c 2 k q) c k q r = gaPtr s c k q r := fun r => by rw [gaPtr, takeHead_winNat hk, gaPtr]
  obtain ⟨u, heq, hslot, hframe⟩ := gatherRows_spec (c := c) (k := k) (errs := errs) he hpad (pointersApart_of_overlap hlist)
    ((List.range (gaRows q)).map fun r => (winAddr s c k (bits q.cmd.w1 43 22 + r * bits q.cmd.w2 58 37), gaLen q.cmd))
    (gaRows q) (takeHead s c 2 k q) 0 (by omega)
    (fun i hi => by
      obtain ⟨hform, hwin, hread, hdst⟩ := hrow i hi
      rw [hptr, GatherRowClean, takeHead_inWin hk, corePart_congr hnear.toMapKept]
      exact ⟨hform, hwin, fun h1 h2 => readsClean_congr hnear (hread h1 h2), hdst⟩)
    (fun i hi => List.mem_map.2 ⟨i, List.mem_range.2 hi, by rw [takeHead_winAddr hk]; rfl⟩)
  exact heq ▸ ⟨starts_pushStarted h (.of_eq hslot) .done, engineFrame_start h hframe .done⟩

/-! ### RACONF and RADROP -/

theorem exec_raconf (h : EngineTakes s c oRACONF k q) : exec (.raconf c) s = .next (raconfStart (takeHead s c 2 k q) c k q) :=
  congrArg _ (engineStart_takes s c oRACONF k q _ h)

theorem exec_radrop (h : EngineTakes s c oRADROP k q) : exec (.radrop c) s = .next (radropStart (takeHead s c 2 k q) c k q) :=
  congrArg _ (engineStart_takes s c oRADROP k q _ h)

theorem raconf_clean (h : EngineTakes s c oRACONF k q) (hnone : ((s.slot c k).deferred.find? (·.1 == bits q.cmd.w1 15 0)) = none)
    (hovf : (s.slot c k).defOvf = false) : ∃ t, exec (.raconf c) s = .next t ∧ Starts s t c k 2 q .done ∧ EngineFrame s t c k [] [] := by
  refine ⟨_, exec_raconf h, ?_⟩
  obtain ⟨_, _, _, _, htake⟩ := takeHead_slot_rest (s := s) (c := c) (e := 2) (q := q) (engineTakes_lt h)
  have hnone' : (((takeHead s c 2 k q).slot c k).deferred.find? (·.1 == bits q.cmd.w1 15 0)) = none := by rw [htake]; exact hnone
  have hovf' : ((takeHead s c 2 k q).slot c k).defOvf = false := by rw [htake]; exact hovf
  unfold raconfStart
  dsimp only
  rw [hnone', hovf']
  exact ⟨starts_pushStarted h (.refl _) .done, engineFrame_start h (.refl ..) .done⟩

theorem raconf_faults (h : EngineTakes s c oRACONF k q) (e : Nat × Nat)
    (hsome : ((s.slot c k).deferred.find? (·.1 == bits q.cmd.w1 15 0)) = some e) (hrun : (s.slot c k).state = .running)
    (hvalid : bit (s.slot c k).fault 8 = false) :
    ∃ t, exec (.raconf c) s = .next t ∧ (t.slot c k).state = .frozen ∧
      (t.slot c k).fault = faultWord e.2 true q.cmd.ring q.cmd.opc q.cmd.tag ∧ KeepsMemory s t := by
  refine ⟨_, exec_raconf h, ?_⟩
  obtain ⟨_, _, _, _, htake⟩ := takeHead_slot_rest (s := s) (c := c) (e := 2) (q := q) (engineTakes_lt h)
  have hsome' : (((takeHead s c 2 k q).slot c k).deferred.find? (·.1 == bits q.cmd.w1 15 0)) = some e := by rw [htake]; exact hsome
  have hrun' : ((takeHead s c 2 k q).slot c k).state = .running := by rw [htake]; exact hrun
  have hvalid' : bit ((takeHead s c 2 k q).slot c k).fault 8 = false := by rw [htake]; exact hvalid
  unfold raconfStart
  dsimp only
  rw [hsome']
  obtain ⟨hfrozen, hfault, _⟩ := slotFault_first (takeHead s c 2 k q) c k e.2 (some q.cmd) 0 true (by simp [hrun']) (by simp [hrun']) hvalid'
  dsimp only [cmdFault]
  rw [stepDone_slot]
  exact ⟨hfrozen, hfault, ((takeHead_frame (engineTakes_lt h) [] []).keepsMemory.trans (keepsMemory_slotFault ..)).trans (keepsMemory_stepDone ..)⟩

theorem radrop_drops (h : EngineTakes s c oRADROP k q) :
    ∃ t, exec (.radrop c) s = .next t ∧ Starts s t c k 2 q .done ∧ EngineFrame s t c k [] [] ∧
      (t.slot c k).deferred = (s.slot c k).deferred.filter (·.1 != bits q.cmd.w1 15 0) := by
  have hk := engineTakes_lt h
  refine ⟨_, exec_radrop h, ?_⟩
  obtain ⟨_, _, _, _, htake⟩ := takeHead_slot_rest (s := s) (c := c) (e := 2) (q := q) hk
  unfold radropStart
  dsimp only
  set y : SlotSt := { (takeHead s c 2 k q).slot c k with deferred := _ } with hy
  have hkept : SlotKept ((takeHead s c 2 k q).slot c k) (((takeHead s c 2 k q).setSlot c k y).slot c k) := by
    rw [State.slot_setSlot_same]
    exact ⟨fun e => by rcases e with _ | _ | _ | e <;> rfl, rfl, rfl, rfl, rfl, rfl, rfl⟩
  refine ⟨starts_pushStarted h hkept .done, engineFrame_start h (engineFrame_setSlot _ c hk y [] []) .done, ?_⟩
  obtain ⟨_, hslot, _⟩ := pushStarted_slot ((takeHead s c 2 k q).setSlot c k y) c k 2 q .done hk
  rw [hslot, State.slot_setSlot_same, hy, htake]

end

/-- Settles O15: the rows of a GATHER are written one after the other while its pointer list stays as it was; a RACONF looks its tag up among the deferred
faults. -/
theorem gatherCopyAndRunAheadCommandsRun : Obligations.GatherCopyAndRunAheadCommandsRun := by
  unfold Obligations.GatherCopyAndRunAheadCommandsRun
  intro s c k q
  refine ⟨spcopy_copies, fun h errs p n rows dst stride he hp hn hrows hdst hstride hlist hpad _ hclean => ?_, raconf_clean, raconf_faults, radrop_drops⟩
  exact gather_gathers h errs p n rows dst stride he hp hn hrows hdst hstride hlist hpad hclean

end Sys2Proof.Machine
end

section
/-!
PROOFS of the core grid: the message engine's PUT, RSIG and IPOP. A packet that leaves changes neither core nor stack.
-/

namespace Sys2Proof.Machine

/-! ### Packets that leave -/

theorem emit_cores_beside (s : State) (o : Out) : (s.emit o).cores = s.cores ∧ (s.emit o).beside = s.beside := by
  unfold State.emit
  split <;> exact ⟨rfl, rfl⟩

theorem sendFlit_cores_beside (s : State) (l vc hop first : Nat) (payload : List Byte) :
    (sendFlit s l vc hop first payload).cores = s.cores ∧ (sendFlit s l vc hop first payload).beside = s.beside := by
  unfold sendFlit
  dsimp only
  rw [(emit_cores_beside _ _).1, (emit_cores_beside _ _).2]
  exact ⟨rfl, rfl⟩

theorem sendFlits_cores_beside (l vc hop : Nat) (parts : List (List Byte)) (s : State) (first : Nat) :
    (sendFlits s l vc hop parts first).cores = s.cores ∧ (sendFlits s l vc hop parts first).beside = s.beside := by
  induction parts generalizing s first with
  | nil => exact ⟨rfl, rfl⟩
  | cons p r ih =>
    rw [sendFlits]
    obtain ⟨h1, h2⟩ := ih (sendFlit s l vc hop first p) 0xFF
    obtain ⟨g1, g2⟩ := sendFlit_cores_beside s l vc hop first p
    exact ⟨h1.trans g1, h2.trans g2⟩

theorem transmit_cores_beside (s : State) (p : Packet) : (transmit s p).cores = s.cores ∧ (transmit s p).beside = s.beside := by
  unfold transmit
  split
  · exact ⟨rfl, rfl⟩
  · dsimp only
    obtain ⟨h1, h2⟩ := emit_cores_beside (sendFlits s _ _ _ _ 0) (.packet _)
    obtain ⟨g1, g2⟩ := sendFlits_cores_beside _ _ _ _ s 0
    exact ⟨h1.trans g1, h2.trans g2⟩

/-- A packet sent leaves cores and stacks. -/
theorem sendPacket_cores_beside (s : State) (ctx : Nat) (p : Packet) :
    (sendPacket s ctx p).cores = s.cores ∧ (sendPacket s ctx p).beside = s.beside := by
  obtain ⟨h1, h2⟩ := transmit_cores_beside (s.count ctx 7 p.data.length) p
  exact ⟨h1.trans (by simp), h2.trans (by simp)⟩

theorem sendMsg_cores_beside (s : State) (c k : Nat) (t : Started) : (sendMsg s c k t).cores = s.cores ∧ (sendMsg s c k t).beside = s.beside := by
  unfold sendMsg
  dsimp only
  split
  · exact sendPacket_cores_beside ..
  · exact sendPacket_cores_beside ..
  · exact ⟨rfl, rfl⟩

theorem sendNew_cores_beside (s : State) (c k n : Nat) : (sendNew s c k n).cores = s.cores ∧ (sendNew s c k n).beside = s.beside := by
  unfold sendNew
  split
  · split
    · exact sendMsg_cores_beside ..
    · exact ⟨rfl, rfl⟩
  · exact ⟨rfl, rfl⟩

theorem foldl_cores_beside {α : Type} (f : State → α → State) (h : ∀ s a, (f s a).cores = s.cores ∧ (f s a).beside = s.beside) (l : List α) (s : State) :
    (l.foldl f s).cores = s.cores ∧ (l.foldl f s).beside = s.beside :=
  foldl_keeps (fun u : State => u.cores = s.cores ∧ u.beside = s.beside) f l s ⟨rfl, rfl⟩ fun u hu a _ =>
    ⟨(h u a).1.trans hu.1, (h u a).2.trans hu.2⟩

theorem sendCredits_cores_beside (s : State) (ctx part : Nat) (l : List (Nat × Nat × Nat)) :
    (sendCredits s ctx part l).cores = s.cores ∧ (sendCredits s ctx part l).beside = s.beside :=
  foldl_cores_beside _ (fun s n => foldl_cores_beside _ (fun _ _ => sendPacket_cores_beside ..) (creditsFor l n) s) _ s

/-! ### The start of a message -/

theorem Starts.of_cores {s t u : State} {c k e : Nat} {q : QEntry} {w : Work} (h : Starts s t c k e q w) (hc : u.cores = t.cores) :
    Starts s u c k e q w := by
  unfold Starts
  rw [slot_of_cores hc]
  exact h

section

variable {s : State} {c k : Nat} {q : QEntry}

theorem keepsMemory_takeHead (hk : k < 4) (e : Nat) : KeepsMemory s (takeHead s c e k q) := (takeHead_frame hk [] []).keepsMemory

theorem keepsMemory_pushStarted (hk : k < 4) (e : Nat) (w : Work) : KeepsMemory s (pushStarted s c k e q w) :=
  (engineFrame_pushStarted s c hk e q w [] []).keepsMemory

/-- Every inbox of the package reads the same with a head taken. -/
theorem inboxReg_takeHead (hk : k < 4) (e core inbox : Nat) : inboxReg (takeHead s c e k q) core inbox = inboxReg s core inbox := by
  unfold inboxReg
  by_cases hc : core = c
  · rw [hc, (takeHead_kept hk).inbox]
  · obtain ⟨_, _, _, hcores, _⟩ := takeHead_frame (s := s) (c := c) (e := e) (q := q) hk [] []
    rw [hcores core hc]

/-- What keeps a PUT from starting is found the same with its head taken. -/
theorem putCauses_takeHead (hk : k < 4) (e : Nat) (w : Word64) (cmd : Cmd) :
    putCauses (takeHead s c e k q) ((takeHead s c e k q).slot c k) w cmd = putCauses s (s.slot c k) w cmd := by
  have hfar : chFar (takeHead s c e k q) w = chFar s w := by
    obtain ⟨_, _, h⟩ := takeHead_rest (s := s) (c := c) (e := e) (q := q) hk
    rw [h]
    rfl
  have hlost : chLost (takeHead s c e k q) w = chLost s w := by
    obtain ⟨_, _, h⟩ := takeHead_rest (s := s) (c := c) (e := e) (q := q) hk
    rw [h]
    rfl
  unfold putCauses
  rw [hfar, hlost, inboxReg_takeHead hk, takeHead_inWin hk]

theorem exec_put (h : EngineTakes s c oPUT k q) : exec (.put c) s = .next (putStart (takeHead s c 3 k q) c k q) :=
  congrArg _ (engineStart_takes s c oPUT k q _ h)

theorem exec_rsig (h : EngineTakes s c oRSIG k q) : exec (.rsig c) s = .next (rsigStart (takeHead s c 3 k q) c k q) :=
  congrArg _ (engineStart_takes s c oRSIG k q _ h)

theorem exec_ipop (h : EngineTakes s c oIPOP k q) : exec (.ipop c) s = .next (ipopStart (takeHead s c 3 k q) c k q) :=
  congrArg _ (engineStart_takes s c oIPOP k q _ h)

/-- A core whose slots are those of the state with the head taken, its command pushed. -/
theorem starts_setCore {opc : Nat} (h : EngineTakes s c opc k q) (K : Core) (hK : K.slot k = (takeHead s c (engineOf opc) k q).slot c k) (w : Work) :
    Starts s (pushStarted ((takeHead s c (engineOf opc) k q).setCore c K) c k (engineOf opc) q w) c k (engineOf opc) q w :=
  starts_pushStarted h (.of_eq (by rw [State.slot_eq, State.core_setCore_same, hK])) w

theorem put_starts (h : EngineTakes s c oPUT k q) (ch : Nat) (w : Word64) (hch : ch = chanOf k q.cmd) (hw : w = tget 0 (s.core c).chan ch)
    (hnone : putCauses s (s.slot c k) w q.cmd = []) :
    ∃ t, exec (.put c) s = .next t ∧ Starts s t c k 3 q (.put (tget 0 (s.core c).chanSeq ch) ((s.core c).restart.contains ch) 1 none) ∧
      (t.core c).chan = tput (s.core c).chan ch (setBits w 41 26 (chCredits w - 1)) ∧
      (t.core c).chanSeq = tput (s.core c).chanSeq ch ((tget 0 (s.core c).chanSeq ch + 1) % 2 ^ 32) ∧
      (t.core c).restart = (s.core c).restart.filter (· != ch) ∧ KeepsMemory s t := by
  subst hch hw
  have hk := engineTakes_lt h
  refine ⟨_, exec_put h, ?_⟩
  obtain ⟨_, _, hchan, _, _, hseq, hrestart, _⟩ := takeHead_kept (s := s) (c := c) (e := 3) (q := q) hk
  unfold putStart
  dsimp only
  rw [← State.slot_eq, putCauses_takeHead hk, hchan, hnone]
  simp only [pickOne, hseq, hrestart]
  set K : Core := { (takeHead s c 3 k q).core c with
    chan := tput (s.core c).chan (chanOf k q.cmd)
      (setBits (tget 0 (s.core c).chan (chanOf k q.cmd)) 41 26 (chCredits (tget 0 (s.core c).chan (chanOf k q.cmd)) - 1))
    chanSeq := tput (s.core c).chanSeq (chanOf k q.cmd) ((tget 0 (s.core c).chanSeq (chanOf k q.cmd) + 1) % 2 ^ 32)
    restart := (s.core c).restart.filter (· != chanOf k q.cmd) } with hK
  set u := pushStarted ((takeHead s c 3 k q).setCore c K) c k 3 q
    (.put (tget 0 (s.core c).chanSeq (chanOf k q.cmd)) ((s.core c).restart.contains (chanOf k q.cmd)) 1 none) with hu
  obtain ⟨hcores, hbeside⟩ := sendNew_cores_beside u c k ((takeHead s c 3 k q).core c).serial
  obtain ⟨_, _, _, hpchan, _, _, hpseq⟩ := pushStarted_core ((takeHead s c 3 k q).setCore c K) c k 3 q
    (.put (tget 0 (s.core c).chanSeq (chanOf k q.cmd)) ((s.core c).restart.contains (chanOf k q.cmd)) 1 none) c
  rw [core_of_cores hcores]
  refine ⟨(starts_setCore h K (by rcases k with _ | _ | _ | k <;> rfl) _).of_cores hcores, ?_, ?_, ?_, ?_⟩
  · rw [hpchan, State.core_setCore_same]
  · rw [hpseq, State.core_setCore_same]
  · rw [hu, pushStarted, State.core_setCore_same, State.core_setCore_same]
    simp [hK]
  · exact (((keepsMemory_takeHead hk 3).trans (keepsMemory_setCore _ c K rfl rfl)).trans (keepsMemory_pushStarted hk 3 _)).trans
      (keepsMemory_same _ _ hcores hbeside)

theorem rsig_starts (h : EngineTakes s c oRSIG k q) (w : Word64) (hw : w = tget 0 (s.core c).chan (chanOf k q.cmd)) (hen : chEn w = true)
    (hlost : chLost s w = false) :
    ∃ t, exec (.rsig c) s = .next t ∧ Starts s t c k 3 q (.rsig 1 none) ∧ (t.core c).chan = (s.core c).chan ∧ KeepsMemory s t := by
  subst hw
  have hk := engineTakes_lt h
  refine ⟨_, exec_rsig h, ?_⟩
  have hchan := (takeHead_kept (s := s) (c := c) (e := 3) (q := q) hk).chan
  have hlost' : chLost (takeHead s c 3 k q) (tget 0 (s.core c).chan (chanOf k q.cmd)) = false := by
    obtain ⟨_, _, h⟩ := takeHead_rest (s := s) (c := c) (e := 3) (q := q) hk
    rw [h]
    exact hlost
  unfold rsigStart
  dsimp only
  rw [hchan, hen, hlost', if_neg (by decide), if_neg (by decide)]
  obtain ⟨hcores, hbeside⟩ := sendNew_cores_beside (pushStarted (takeHead s c 3 k q) c k 3 q (.rsig 1 none)) c k ((takeHead s c 3 k q).core c).serial
  refine ⟨(starts_pushStarted h (.refl _) _).of_cores hcores, ?_, ?_⟩
  · rw [core_of_cores hcores, (pushStarted_core ..).2.2.2.1, hchan]
  · exact ((keepsMemory_takeHead hk 3).trans (keepsMemory_pushStarted hk 3 _)).trans (keepsMemory_same _ _ hcores hbeside)

theorem ipop_starts (h : EngineTakes s c oIPOP k q) (i n : Nat) (w : Word64) (hi : i = 8 * k + bits q.cmd.w1 2 0) (hn : n = bits q.cmd.w1 15 3)
    (hw : w = tget 0 (s.core c).inbox i) (hle : n ≤ tget 0 (s.core c).inboxN i) :
    ∃ t, exec (.ipop c) s = .next t ∧ Starts s t c k 3 q .done ∧
      (t.core c).inbox = tput (s.core c).inbox i (setBits w 45 34 ((ibHead w + n) % inboxSize w)) ∧
      (t.core c).inboxN = tput (s.core c).inboxN i (tget 0 (s.core c).inboxN i - n) ∧ KeepsMemory s t := by
  subst hi hn hw
  have hk := engineTakes_lt h
  refine ⟨_, exec_ipop h, ?_⟩
  obtain ⟨_, _, _, hinbox, hinboxN, _⟩ := takeHead_kept (s := s) (c := c) (e := 3) (q := q) hk
  unfold ipopStart
  dsimp only
  rw [hinboxN, if_neg (by omega), hinbox]
  set K : Core := { (takeHead s c 3 k q).core c with inbox := _, inboxN := _, creditOut := _ } with hK
  set u := sendCredits ((takeHead s c 3 k q).setCore c K) _ _ _ with hu
  obtain ⟨hcores, hbeside⟩ : u.cores = ((takeHead s c 3 k q).setCore c K).cores ∧ u.beside = ((takeHead s c 3 k q).setCore c K).beside :=
    sendCredits_cores_beside ..
  have hcore : u.core c = K := by rw [core_of_cores hcores, State.core_setCore_same]
  obtain ⟨_, _, _, _, hpinbox, hpinboxN, _⟩ := pushStarted_core u c k 3 q .done c
  refine ⟨starts_pushStarted h (.of_eq ?_) _, ?_, ?_, ?_⟩
  · rw [State.slot_eq, hcore]
    rcases k with _ | _ | _ | k <;> rfl
  · rw [hpinbox, hcore]
  · rw [hpinboxN, hcore]
  · exact (((keepsMemory_takeHead hk 3).trans (keepsMemory_setCore _ c K rfl rfl)).trans (keepsMemory_same _ _ hcores hbeside)).trans
      (keepsMemory_pushStarted hk 3 _)

end

/-- Settles O16: a message that starts takes what its channel or inbox gives it, and the packets it sends leave cores and stacks. -/
theorem messageCommandsStart : Obligations.MessageCommandsStart := by
  unfold Obligations.MessageCommandsStart
  intro s c k q
  exact ⟨put_starts, rsig_starts, ipop_starts⟩

end Sys2Proof.Machine
end

section
/-!
PROOFS of the core grid: what reaches an inbox or a hurdle.
-/

namespace Sys2Proof.Machine

/-! ### What a signalled arrival keeps -/

/-- Scratchpads and inboxes are the same, and a started command whose work was done has it done. -/
structure ArrivalKept (s u : State) : Prop where
  spad : ∀ j, (u.core j).spad = (s.core j).spad
  inbox : ∀ j, (u.core j).inbox = (s.core j).inbox
  inboxN : ∀ j, (u.core j).inboxN = (s.core j).inboxN
  done : ∀ c k, k < 4 → ∀ v ∈ (u.slot c k).started, ∃ y ∈ (s.slot c k).started, v.serial = y.serial ∧ (y.work = .done → v.work = .done)

theorem ArrivalKept.trans {s t u : State} (h : ArrivalKept s t) (g : ArrivalKept t u) : ArrivalKept s u := by
  refine ⟨fun j => (g.spad j).trans (h.spad j), fun j => (g.inbox j).trans (h.inbox j), fun j => (g.inboxN j).trans (h.inboxN j), fun c k hk v hv => ?_⟩
  obtain ⟨y, hy, hserial, hdone⟩ := g.done c k hk v hv
  obtain ⟨z, hz, hserial', hdone'⟩ := h.done c k hk y hy
  exact ⟨z, hz, hserial.trans hserial', fun hw => hdone (hdone' hw)⟩

/-- Cores whose slots have the same started commands. -/
theorem arrivalKept_of_started {s u : State} (h1 : ∀ j, (u.core j).spad = (s.core j).spad) (h2 : ∀ j, (u.core j).inbox = (s.core j).inbox)
    (h3 : ∀ j, (u.core j).inboxN = (s.core j).inboxN) (h4 : ∀ c k, k < 4 → (u.slot c k).started = (s.slot c k).started) : ArrivalKept s u :=
  ⟨h1, h2, h3, fun c k hk v hv => ⟨v, h4 c k hk ▸ hv, rfl, id⟩⟩

theorem ArrivalKept.refl (s : State) : ArrivalKept s s := arrivalKept_of_started (fun _ => rfl) (fun _ => rfl) (fun _ => rfl) fun _ _ _ => rfl

theorem haltWork_done {w : Work} (h : w = .done) : haltWork w = .done := by
  rw [h]
  rfl

/-- A slot replaced by one whose started commands are the same or halted. -/
theorem arrivalKept_setSlot (s : State) (c : Nat) {k : Nat} (hk : k < 4) (x : SlotSt)
    (h : ∀ v ∈ x.started, ∃ y ∈ (s.slot c k).started, v.serial = y.serial ∧ (y.work = .done → v.work = .done)) : ArrivalKept s (s.setSlot c k x) := by
  refine ⟨by simp, by simp, by simp, fun c' k' hk' v hv => ?_⟩
  rw [State.slot_setSlot _ _ _ _ _ _ hk hk'] at hv
  split at hv
  · next heq =>
    rw [heq.1, heq.2]
    exact h v hv
  · exact ⟨v, hv, rfl, id⟩

theorem putRecord_inbox (s : State) (c : Nat) (r : Record) (j : Nat) :
    ((putRecord s c r).core j).inbox = (s.core j).inbox ∧ ((putRecord s c r).core j).inboxN = (s.core j).inboxN := by
  rcases putRecord_cases s c r with ⟨h, _⟩ | h <;> rw [h]
  · exact ⟨rfl, rfl⟩
  · rw [State.core_setCore]
    split
    · next hj => rw [hj]; exact ⟨rfl, rfl⟩
    · exact ⟨rfl, rfl⟩

theorem arrivalKept_putRecord (s : State) (c : Nat) (r : Record) : ArrivalKept s (putRecord s c r) :=
  arrivalKept_of_started (by simp) (fun j => (putRecord_inbox s c r j).1) (fun j => (putRecord_inbox s c r j).2) (by simp)

/-- A fault halts what its slot has started. -/
theorem arrivalKept_slotFault (s : State) (c : Nat) {k : Nat} (hk : k < 4) (cause : Nat) (who : Option Cmd) (addr : Nat) (d : Bool) :
    ArrivalKept s (slotFault s c k cause who addr d) := by
  unfold slotFault
  dsimp only
  split
  · exact .refl s
  · exact arrivalKept_setSlot s c hk _ fun v hv => ⟨v, hv, rfl, id⟩
  · have hset : ∀ y : SlotSt, y.started = (s.slot c k).started.map (fun t => { t with work := haltWork t.work }) → ArrivalKept s (s.setSlot c k y) := by
      intro y hy
      refine arrivalKept_setSlot s c hk y fun v hv => ?_
      rw [hy] at hv
      obtain ⟨a, ha, rfl⟩ := List.mem_map.1 hv
      exact ⟨a, ha, rfl, haltWork_done⟩
    split
    · exact hset _ rfl
    · exact (hset _ rfl).trans (arrivalKept_putRecord ..)

theorem arrivalKept_setHur (s : State) (c h : Nat) (w : Word64) : ArrivalKept s (s.setCore c ((s.core c).setHur h w)) := by
  have hfield : ∀ {β : Type} (f : Core → β), f ((s.core c).setHur h w) = f (s.core c) → ∀ j,
      f ((s.setCore c ((s.core c).setHur h w)).core j) = f (s.core j) := by
    intro β f hf j
    rw [State.core_setCore]
    split
    · next hj => rw [hj, hf]
    · rfl
  exact arrivalKept_of_started (hfield Core.spad rfl) (hfield Core.inbox rfl) (hfield Core.inboxN rfl) fun c' k' _ => by rw [setHur_slot]

theorem arrivalKept_hurdleAdd (s : State) (c h inc : Nat) (who : Option Cmd) : ArrivalKept s (hurdleAdd s c h inc who) := by
  unfold hurdleAdd
  dsimp only
  split
  · exact arrivalKept_setHur ..
  · split
    · next o ho => exact (arrivalKept_setHur ..).trans (arrivalKept_slotFault _ c (hurdleOwner_lt _ _ _ ho) ..)
    · exact arrivalKept_setHur ..

theorem arrivalKept_arrival (s : State) (core inbox h inc : Nat) (hin : inbox < 32) : ArrivalKept s (arrival s core inbox h inc) := by
  unfold arrival
  dsimp only
  split
  · exact arrivalKept_slotFault s core (by omega) ..
  · exact arrivalKept_hurdleAdd ..

/-! ### The entry written -/

/-- Where the next entry of an inbox goes. -/
def entryOff (w : Word64) : Nat := ibBase w * 64 + ibTail w * 2 ^ ibEsz w

/-- An inbox that takes an entry: one entry more, TAIL one further, the entry at the old TAIL, and no other byte changed. -/
structure EntryTaken (s t : State) (core inbox : Nat) (entry : List Byte) : Prop where
  count : tget 0 (t.core core).inboxN inbox = tget 0 (s.core core).inboxN inbox + 1
  reg : tget 0 (t.core core).inbox inbox =
    setBits (inboxReg s core inbox) 57 46 ((ibTail (inboxReg s core inbox) + 1) % inboxSize (inboxReg s core inbox))
  spad : SpadExcept s t core [(winAddr s core (inbox / 8) (entryOff (inboxReg s core inbox)), entry.length)]
  data : ∀ i, i < entry.length → spadByte t core (winAddr s core (inbox / 8) (entryOff (inboxReg s core inbox)) + i) = (entry[i]?).getD 0
  done : ∀ c k, k < 4 → ∀ v ∈ (t.slot c k).started, ∃ y ∈ (s.slot c k).started, v.serial = y.serial ∧ (y.work = .done → v.work = .done)

theorem EntryTaken.after {s t u : State} {core inbox : Nat} {entry : List Byte} (h : EntryTaken s t core inbox entry) (g : ArrivalKept t u) :
    EntryTaken s u core inbox entry := by
  obtain ⟨hcount, hreg, hspad, hdata, hdone⟩ := h
  refine ⟨by rw [g.inboxN, hcount], by rw [g.inbox, hreg], fun j a ha => ?_, fun i hi => ?_, fun c k hk v hv => ?_⟩
  · rw [spadByte, g.spad, ← spadByte, hspad j a ha]
  · rw [spadByte, g.spad, ← spadByte, hdata i hi]
  · obtain ⟨y, hy, hserial, hwork⟩ := g.done c k hk v hv
    obtain ⟨z, hz, hserial', hwork'⟩ := hdone c k hk y hy
    exact ⟨z, hz, hserial.trans hserial', fun hw => hwork (hwork' hw)⟩

theorem putAccept_taken (s : State) (node sc chan core inbox seq : Nat) (entry : List Byte) (hin : inbox < 32) :
    EntryTaken s (putAccept s node sc chan core inbox seq entry) core inbox entry := by
  unfold putAccept
  dsimp only
  set K : Core := { winWrite (s.core core) ((s.core core).slot (inbox / 8)) _ entry with inbox := _, inboxN := _, expect := _ } with hK
  have hspad : K.spad = (winWrite (s.core core) (s.slot core (inbox / 8)) (entryOff (inboxReg s core inbox)) entry).spad := rfl
  have hslot : ∀ j, K.slot j = (s.core core).slot j := fun j => by rcases j with _ | _ | _ | j <;> rfl
  have htaken : EntryTaken s (s.setCore core K) core inbox entry := by
    refine ⟨?_, ?_, fun j a ha => ?_, fun i hi => ?_, fun c k _ v hv => ⟨v, ?_, rfl, id⟩⟩
    · rw [State.core_setCore_same, hK, tget_tput, if_pos rfl]
      rfl
    · rw [State.core_setCore_same, hK, tget_tput, if_pos rfl]
    · rw [spadByte, State.core_setCore]
      split
      · next hj =>
        have hout := ha hj _ List.mem_cons_self
        dsimp only [winAddr] at hout
        rw [hspad, winWrite, mget_mwrite, if_neg (by omega), hj, spadByte]
      · rfl
    · rw [spadByte, State.core_setCore_same, hspad, winAddr, mget_winWrite _ _ _ _ _ hi]
    · rw [State.slot_eq, State.core_setCore] at hv
      split at hv
      · next hc => rw [hc, State.slot_eq, ← hslot]; exact hv
      · exact hv
  split
  · exact htaken.after (arrivalKept_arrival _ _ _ _ _ hin)
  · exact htaken

/-! ### Messages inside the package -/

section

variable {s : State} {c k n : Nat} {u : Started} {w : Word64}

theorem nearMsg_facts (h : nearMsg s c k n = some (u, w)) : k < 4 ∧ (s.slot c k).find n = some u := by
  unfold nearMsg at h
  split at h
  · cases h
  · next hk =>
    split at h
    · next hfind =>
      dsimp only at h
      split at h
      · cases h
      · cases h
        exact ⟨by simp at hk; omega, hfind⟩
    · cases h

theorem putReject_none {node sc ch core inbox seq len : Nat} {r : Bool} (h : putReject s node sc ch core inbox seq len r = none) :
    inbox < 32 ∧ ¬ 2 ^ ibEsz (inboxReg s core inbox) < len + 16 := by
  unfold putReject at h
  dsimp only at h
  split at h
  · cases h
  · next hopen =>
    split at h
    · cases h
    · next hroom =>
      simp only [inboxIsOpen, Bool.not_eq_true', Bool.not_eq_false, Bool.and_eq_true, decide_eq_true_eq] at hopen
      simp only [Bool.or_eq_true, decide_eq_true_eq, not_or] at hroom
      exact ⟨hopen.1.1.2, hroom.2⟩

theorem putEntry_length (s : State) (c k : Nat) (cmd : Cmd) (seq : Nat) : (putEntry s c k cmd seq).length = putLen cmd + 16 := by
  simp [putEntry, leBytes_length, winRead_length]
  omega

/-- The command of a serial whose work ends is done. -/
theorem workEnds_done : ∀ v ∈ ((workEnds s c k n).slot c k).started, v.serial = n → v.work = .done := by
  intro v hv hserial
  rw [workEnds, State.slot_setSlot_same, SlotSt.modify] at hv
  obtain ⟨a, _, rfl⟩ := List.mem_map.1 hv
  split
  · rfl
  · next hne =>
    rw [if_neg hne] at hserial
    exact absurd hserial hne

theorem workEnds_cfg (hk : k < 4) (j m : Nat) (hm : m < 4) : ((workEnds s c k n).slot j m).cfg = (s.slot j m).cfg := by
  rw [workEnds, State.slot_setSlot _ _ _ _ _ _ hk hm]
  split
  · next h => rw [h.1, h.2]; rfl
  · rfl

theorem inboxReg_workEnds (core inbox : Nat) : inboxReg (workEnds s c k n) core inbox = inboxReg s core inbox := by
  rw [inboxReg, workEnds, State.setSlot_core_inbox, inboxReg]

theorem keepsMemory_workEnds : KeepsMemory s (workEnds s c k n) := keepsMemory_setSlot ..

theorem exec_inboxArrival_near {seq b : Nat} {r : Bool} {wt : Option Nat} (hmsg : nearMsg s c k n = some (u, w)) (hwork : u.work = .put seq r b wt)
    (hrej : putReject s s.fab.node c (chanOf k u.cmd) (chCore w) (chInbox w) seq (putLen u.cmd) r = none) :
    exec (.inboxArrival (.near c k n)) s =
      .next (putAccept (workEnds s c k n) s.fab.node c (chanOf k u.cmd) (chCore w) (chInbox w) seq (putEntry s c k u.cmd seq)) := by
  change Host.Outcome.next (nearArrival s c k n) = _
  unfold nearArrival
  rw [hmsg]
  dsimp only
  rw [hwork]
  dsimp only
  rw [if_neg (by simp only [Bool.and_eq_true, decide_eq_true_eq, not_and]; exact fun _ => (putReject_none hrej).2), hrej]

theorem near_put_arrives (seq : Nat) (r : Bool) (b : Nat) (wt : Option Nat) (hmsg : nearMsg s c k n = some (u, w)) (hwork : u.work = .put seq r b wt)
    (hrej : putReject s s.fab.node c (chanOf k u.cmd) (chCore w) (chInbox w) seq (putLen u.cmd) r = none) :
    ∃ t, exec (.inboxArrival (.near c k n)) s = .next t ∧ (∀ v ∈ (t.slot c k).started, v.serial = n → v.work = .done) ∧
      tget 0 (t.core (chCore w)).inboxN (chInbox w) = tget 0 (s.core (chCore w)).inboxN (chInbox w) + 1 ∧
      tget 0 (t.core (chCore w)).inbox (chInbox w) = setBits (inboxReg s (chCore w) (chInbox w)) 57 46
        ((ibTail (inboxReg s (chCore w) (chInbox w)) + 1) % inboxSize (inboxReg s (chCore w) (chInbox w))) ∧
      SpadExcept s t (chCore w) [(winAddr s (chCore w) (chInbox w / 8) (entryOff (inboxReg s (chCore w) (chInbox w))), putLen u.cmd + 16)] ∧
      ∀ i, i < putLen u.cmd + 16 → spadByte t (chCore w)
        (winAddr s (chCore w) (chInbox w / 8) (entryOff (inboxReg s (chCore w) (chInbox w))) + i) = ((putEntry s c k u.cmd seq)[i]?).getD 0 := by
  obtain ⟨hk, _⟩ := nearMsg_facts hmsg
  have hin := (putReject_none hrej).1
  refine ⟨_, exec_inboxArrival_near hmsg hwork hrej, ?_⟩
  obtain ⟨hcount, hreg, hspad, hdata, hdone⟩ := putAccept_taken (workEnds s c k n) s.fab.node c (chanOf k u.cmd) (chCore w) (chInbox w) seq
    (putEntry s c k u.cmd seq) hin
  have haddr : ∀ off, winAddr (workEnds s c k n) (chCore w) (chInbox w / 8) off = winAddr s (chCore w) (chInbox w / 8) off := fun off => by
    rw [winAddr, SlotSt.spb, workEnds_cfg hk _ _ (by omega), winAddr, SlotSt.spb]
  simp only [inboxReg_workEnds, haddr, putEntry_length] at hreg hspad hdata
  refine ⟨fun v hv hserial => ?_, ?_, hreg, fun j a ha => ?_, hdata⟩
  · obtain ⟨y, hy, hys, hyw⟩ := hdone c k hk v hv
    exact hyw (workEnds_done y hy (hys ▸ hserial))
  · rw [hcount, workEnds, State.setSlot_core_inboxN]
  · rw [hspad j a ha, spadByte, workEnds, State.setSlot_core_spad, spadByte]

/-- The arrival signalled in a hurdle of the slot's range where it fits. -/
theorem arrival_fits {core inbox h inc : Nat} (hlt : h < (s.slot core (inbox / 8)).hcount)
    (hfit : hCount ((s.core core).hur ((s.slot core (inbox / 8)).hbase + h)) + inc ≤ 65535) :
    hCount (((arrival s core inbox h inc).core core).hur ((s.slot core (inbox / 8)).hbase + h)) =
      hCount ((s.core core).hur ((s.slot core (inbox / 8)).hbase + h)) + inc := by
  unfold arrival
  dsimp only
  rw [if_neg (by omega), hurdleAdd_fits _ _ _ _ _ hfit, State.core_setCore_same, Core.hur_setHur, if_pos rfl, hCount_setBits _ _ hfit]

theorem keepsMemory_arrival (core inbox h inc : Nat) : KeepsMemory s (arrival s core inbox h inc) := by
  unfold arrival
  dsimp only
  split
  · exact keepsMemory_slotFault ..
  · exact keepsMemory_hurdleAdd ..

theorem rsigReject_none {core inbox : Nat} (h : rsigReject s core inbox = none) : inbox < 32 := by
  unfold rsigReject at h
  split at h
  · cases h
  · next hopen =>
    simp only [inboxIsOpen, Bool.not_eq_true', Bool.not_eq_false, Bool.and_eq_true, decide_eq_true_eq] at hopen
    exact hopen.1.1.2

theorem near_rsig_arrives (b : Nat) (wt : Option Nat) (h : Nat) (hmsg : nearMsg s c k n = some (u, w)) (hwork : u.work = .rsig b wt)
    (hrej : rsigReject s (chCore w) (chInbox w) = none) (hh : h = (s.slot (chCore w) (chInbox w / 8)).hbase + rsigHur w)
    (hlt : rsigHur w < (s.slot (chCore w) (chInbox w / 8)).hcount) (hfit : hCount ((s.core (chCore w)).hur h) + rsigInc u.cmd ≤ 65535) :
    ∃ t, exec (.rsigArrival (.near c k n)) s = .next t ∧ (∀ v ∈ (t.slot c k).started, v.serial = n → v.work = .done) ∧
      hCount ((t.core (chCore w)).hur h) = hCount ((s.core (chCore w)).hur h) + rsigInc u.cmd ∧ KeepsMemory s t := by
  subst hh
  obtain ⟨hk, _⟩ := nearMsg_facts hmsg
  have hin := rsigReject_none hrej
  refine ⟨_, rfl, ?_⟩
  dsimp only
  rw [hmsg]
  dsimp only
  rw [hwork]
  dsimp only
  rw [hrej, if_neg (by simp)]
  have hcfg := workEnds_cfg (s := s) (c := c) (n := n) hk (chCore w) (chInbox w / 8) (by omega)
  have hhur : ∀ j, ((workEnds s c k n).core (chCore w)).hur j = (s.core (chCore w)).hur j := fun j => by
    rw [Core.hur, workEnds, State.setSlot_core_hurdle, Core.hur]
  have hbase : ((workEnds s c k n).slot (chCore w) (chInbox w / 8)).hbase = (s.slot (chCore w) (chInbox w / 8)).hbase := by
    rw [SlotSt.hbase, hcfg, SlotSt.hbase]
  have hcnt : ((workEnds s c k n).slot (chCore w) (chInbox w / 8)).hcount = (s.slot (chCore w) (chInbox w / 8)).hcount := by
    rw [SlotSt.hcount, hcfg, SlotSt.hcount]
  have hsignal := arrival_fits (s := workEnds s c k n) (hcnt ▸ hlt) (by rw [hbase, hhur]; exact hfit)
  rw [hbase, hhur] at hsignal
  refine ⟨fun v hv hserial => ?_, hsignal, keepsMemory_workEnds.trans (keepsMemory_arrival ..)⟩
  obtain ⟨y, hy, hys, hyw⟩ := (arrivalKept_arrival (workEnds s c k n) (chCore w) (chInbox w) (rsigHur w) (rsigInc u.cmd) hin).done c k hk v hv
  exact hyw (workEnds_done y hy (hys ▸ hserial))

end

/-! ### Messages of other packages -/

theorem far_put_arrives {s : State} (p : Packet) (core inbox : Nat) (w : Word64) (htype : p.type = pkPUT) (hdst : p.dst = s.fab.node)
    (hsrc : takesFrom s p.src = true) (hcore : core = ble p.args 0 2) (hinbox : inbox = ble p.args 2 1) (hw : w = inboxReg s core inbox)
    (hrej : putReject s p.src (ble p.args 8 2) (ble p.args 10 1) core inbox p.pseq (p.data.length - 16) (nbits (ble p.args 3 1) 0 0 = 1) = none) :
    ∃ t, exec (.inboxArrival (.far p)) s = .next t ∧ tget 0 (t.core core).inboxN inbox = tget 0 (s.core core).inboxN inbox + 1 ∧
      tget 0 (t.core core).inbox inbox = setBits w 57 46 ((ibTail w + 1) % inboxSize w) ∧
      SpadExcept s t core [(winAddr s core (inbox / 8) (entryOff w), p.data.length)] ∧
      ∀ i, i < p.data.length → spadByte t core (winAddr s core (inbox / 8) (entryOff w) + i) = (p.data[i]?).getD 0 := by
  subst hcore hinbox hw
  obtain ⟨hcount, hreg, hspad, hdata, _⟩ := putAccept_taken s p.src (ble p.args 8 2) (ble p.args 10 1) (ble p.args 0 2) (ble p.args 2 1) p.pseq p.data
    (putReject_none hrej).1
  refine ⟨_, rfl, ?_⟩
  dsimp only
  unfold farArrival
  rw [if_neg (by simp [htype, hdst, hsrc])]
  dsimp only
  rw [hrej, if_pos (by rfl)]
  set v := putAccept s p.src (ble p.args 8 2) (ble p.args 10 1) (ble p.args 0 2) (ble p.args 2 1) p.pseq p.data
  have hcores : ∀ j, (sendPacket v ovCtx (putAckPacket v p none)).core j = v.core j := core_of_cores (sendPacket_cores_beside ..).1
  refine ⟨by rw [hcores, hcount], by rw [hcores, hreg], fun j a ha => ?_, fun i hi => ?_⟩
  · rw [spadByte, hcores]
    exact hspad j a ha
  · rw [spadByte, hcores]
    exact hdata i hi

theorem far_rsig_arrives {s : State} (p : Packet) (core inbox h : Nat) (htype : p.type = pkRSIG) (hdst : p.dst = s.fab.node)
    (hsrc : takesFrom s p.src = true) (hcore : core = ble p.args 0 2) (hinbox : inbox = ble p.args 2 1) (hrej : rsigReject s core inbox = none)
    (hh : h = (s.slot core (inbox / 8)).hbase + ble p.args 4 2 % 64) (hlt : ble p.args 4 2 % 64 < (s.slot core (inbox / 8)).hcount)
    (hfit : hCount ((s.core core).hur h) + ble p.args 6 2 ≤ 65535) :
    ∃ t, exec (.rsigArrival (.far p)) s = .next t ∧ hCount ((t.core core).hur h) = hCount ((s.core core).hur h) + ble p.args 6 2 ∧ KeepsMemory s t := by
  subst hcore hinbox hh
  refine ⟨_, rfl, ?_⟩
  dsimp only
  rw [if_neg (by simp [htype, hdst, hsrc]), hrej, if_pos (by rfl)]
  set v := arrival s (ble p.args 0 2) (ble p.args 2 1) (ble p.args 4 2 % 64) (ble p.args 6 2)
  obtain ⟨hcores, hbeside⟩ := sendPacket_cores_beside v ovCtx (putAckPacket v p none)
  exact ⟨by rw [core_of_cores hcores]; exact arrival_fits hlt hfit, (keepsMemory_arrival ..).trans (keepsMemory_same _ _ hcores hbeside)⟩

/-- Settles O17: an accepted entry is written whole before its arrival is signalled, and a signal changes no inbox, no scratchpad and no command done. -/
theorem messagesArriveAtOpenInboxes : Obligations.MessagesArriveAtOpenInboxes := by
  unfold Obligations.MessagesArriveAtOpenInboxes
  intro s
  refine ⟨fun c k n u w seq r b wt => near_put_arrives seq r b wt, fun p core inbox w h1 h2 h3 h4 h5 h6 _ h8 => ?_,
    fun c k n u w b wt h => near_rsig_arrives b wt h, fun p core inbox h => far_rsig_arrives p core inbox h⟩
  exact far_put_arrives p core inbox w h1 h2 h3 h4 h5 h6 h8

end Sys2Proof.Machine
end

section
/-!
PROOFS of the core grid: credits, and the answers to messages.
-/

namespace Sys2Proof.Machine

/-! ### Credits -/

/-- A channel's register with `n` credits more. -/
def credited (w : Word64) (n : Nat) : Word64 := setBits w 41 26 (min 65535 (chCredits w + n))

theorem giveCredits_chan (s : State) (core chan n j : Nat) : tget 0 ((giveCredits s core chan n).core core).chan j =
    if j = chan then credited (tget 0 (s.core core).chan chan) n else tget 0 (s.core core).chan j := by
  rw [giveCredits, State.core_setCore_same, tget_tput, credited]

theorem giveCredits_creditOut (s : State) (core chan n j : Nat) : ((giveCredits s core chan n).core j).creditOut = (s.core j).creditOut := by
  rw [giveCredits, State.core_setCore]
  split
  · next hj => rw [hj]
  · rfl

theorem keepsMemory_giveCredits (s : State) (core chan n : Nat) : KeepsMemory s (giveCredits s core chan n) := keepsMemory_setCore s core _ rfl rfl

theorem creditReturn_gives {s : State} (core chan c0 : Nat) (K : Core) (n : Nat)
    (hfind : s.cores.find? (fun e => e.2.creditOut.any fun o => o.1 == core && o.2.1 == chan) = some (c0, K)) (hK : s.core c0 = K)
    (hn : n = (K.creditOut.filter fun o => o.1 == core && o.2.1 == chan).foldl (fun a o => a + o.2.2) 0) :
    ∃ t, exec (.creditReturn core chan) s = .next t ∧ tget 0 (t.core core).chan chan = credited (tget 0 (s.core core).chan chan) n ∧
      ((t.core c0).creditOut.any fun o => o.1 == core && o.2.1 == chan) = false ∧ KeepsMemory s t := by
  subst hn
  refine ⟨_, rfl, ?_⟩
  dsimp only
  rw [hfind]
  dsimp only
  set v := s.setCore c0 { K with creditOut := K.creditOut.filter fun o => !(o.1 == core && o.2.1 == chan) } with hv
  have hchan : (v.core core).chan = (s.core core).chan := by
    rw [hv, State.core_setCore]
    split
    · next hc => rw [hc, hK]
    · rfl
  refine ⟨by rw [giveCredits_chan, if_pos rfl, hchan], ?_, (keepsMemory_setCore s c0 _ (by rw [hK]) (by rw [hK])).trans (keepsMemory_giveCredits ..)⟩
  rw [giveCredits_creditOut, hv, State.core_setCore_same, List.any_eq_false]
  intro o ho
  simpa [imp_iff_not_or] using (List.mem_filter.1 ho).2

theorem creditPacket_gives {s : State} (core chan n : Nat) (hchan : chan < 128) (hok : s.coreOk core = true) :
    ∃ t, exec (.creditPacket core chan n) s = .next t ∧ tget 0 (t.core core).chan chan = credited (tget 0 (s.core core).chan chan) n ∧
      (∀ j, j ≠ chan → tget 0 (t.core core).chan j = tget 0 (s.core core).chan j) ∧ KeepsMemory s t ∧ t = { s with cores := t.cores } := by
  refine ⟨_, rfl, ?_⟩
  rw [if_neg (by simp [hchan, hok])]
  refine ⟨?_, fun j hj => ?_, keepsMemory_giveCredits .., rfl⟩
  · rw [giveCredits_chan, if_pos rfl]
  · rw [giveCredits_chan, if_neg hj]

/-! ### Answers -/

/-- A message that is not yet accepted waits once it is told to. -/
theorem waitOf_msgWait (a : Started) (aon : Nat) (seq : Nat) (h : msgSeq { a with work := msgWait aon a.work } = some seq) :
    (waitOf { a with work := msgWait aon a.work }).isSome = true := by
  cases hw : a.work with
  | put q r b wt => cases wt <;> simp [msgWait, waitOf]
  | rsig b wt => cases wt <;> simp [msgWait, waitOf]
  | _ => simp [hw, msgWait, msgSeq] at h

section

variable {s : State} {core chan seq reason : Nat} {u : Started}

theorem putAck_accepts (hchan : chan < 128) (hreason : reason ≤ 3) (hfar : chFar s (tget 0 (s.core core).chan chan) = true)
    (hfind : ((s.slot core (chan / 32)).started.find? fun v => ofChan (chan / 32) chan v && msgSeq v == some seq) = some u) :
    ∃ t, exec (.putAck core chan seq true reason) s = .next t ∧
      (∀ v ∈ (t.slot core (chan / 32)).started, v.serial = u.serial → v.work = .done) ∧ OneSlot s t core (chan / 32) := by
  refine ⟨_, rfl, ?_⟩
  dsimp only
  rw [if_neg (by simp only [hfar]; simp; omega), hfind]
  exact ⟨workEnds_done, oneSlot_setSlot s core _ _ (by omega)⟩

theorem putAck_rejects (hchan : chan < 128) (hreason : reason ≤ 3) (hfar : chFar s (tget 0 (s.core core).chan chan) = true)
    (hfind : ((s.slot core (chan / 32)).started.find? fun v => ofChan (chan / 32) chan v && msgSeq v == some seq) = some u) :
    ∃ t, exec (.putAck core chan seq false reason) s = .next t ∧
      (∀ v ∈ (t.slot core (chan / 32)).started, v.serial = u.serial → msgSeq v = some seq → (waitOf v).isSome = true) ∧
      OneSlot s t core (chan / 32) := by
  refine ⟨_, rfl, ?_⟩
  dsimp only
  rw [if_neg (by simp only [hfar]; simp; omega), hfind]
  dsimp only
  rw [if_neg Bool.false_ne_true]
  refine ⟨fun v hv hserial hseq => ?_, oneSlot_setSlot s core _ _ (by omega)⟩
  rw [State.slot_setSlot_same] at hv
  obtain ⟨a, _, rfl⟩ := List.mem_map.1 hv
  have ha : a.serial = u.serial := by
    split at hserial <;> exact hserial
  rw [if_pos (by simp [ha])] at hseq ⊢
  exact waitOf_msgWait a s.aon seq hseq

end

/-! ### Resends -/

/-- A message sent again waits no more. -/
theorem waitOf_msgAgain (a : Started) : waitOf { a with work := msgAgain a.work } = none := by
  cases hw : a.work with
  | put q r b wt => cases wt <;> rfl
  | rsig b wt => cases wt <;> rfl
  | _ => rfl

/-- One message of a channel sent again. -/
def resend (core k : Nat) (s : State) (t : Started) : State :=
  sendMsg (s.setSlot core k ((s.slot core k).modify t.serial fun u => { u with work := msgAgain u.work })) core k t

theorem resend_slot (s : State) (core k : Nat) (t : Started) :
    (resend core k s t).slot core k = (s.slot core k).modify t.serial fun u => { u with work := msgAgain u.work } := by
  rw [resend, slot_of_cores (sendMsg_cores_beside ..).1, State.slot_setSlot_same]

theorem keepsMemory_resend (s : State) (core k : Nat) (t : Started) : KeepsMemory s (resend core k s t) :=
  (keepsMemory_setSlot ..).trans (keepsMemory_same _ _ (sendMsg_cores_beside ..).1 (sendMsg_cores_beside ..).2)

/-- A command after some resends: the same command, waiting no more if it did not wait or was sent again. -/
structure Resent (l : List Started) (a u : Started) : Prop where
  serial : u.serial = a.serial
  cmd : u.cmd = a.cmd
  engine : u.engine = a.engine
  kept : waitOf a = none → waitOf u = none
  sent : (∃ m ∈ l, m.serial = a.serial) → waitOf u = none

theorem resent_modify {core k : Nat} {s : State} {m u : Started} (h : u ∈ ((resend core k s m).slot core k).started) :
    ∃ a ∈ (s.slot core k).started, Resent [m] a u := by
  rw [resend_slot, SlotSt.modify] at h
  obtain ⟨a, ha, rfl⟩ := List.mem_map.1 h
  refine ⟨a, ha, ?_⟩
  split
  · exact ⟨rfl, rfl, rfl, fun _ => waitOf_msgAgain a, fun _ => waitOf_msgAgain a⟩
  · next hne =>
    refine ⟨rfl, rfl, rfl, id, fun ⟨x, hx, hs⟩ => ?_⟩
    rw [List.mem_singleton.1 hx] at hs
    exact absurd hs.symm hne

theorem resent_foldl (core k : Nat) (l : List Started) (s : State) : KeepsMemory s (l.foldl (resend core k) s) ∧
    ∀ u ∈ ((l.foldl (resend core k) s).slot core k).started, ∃ a ∈ (s.slot core k).started, Resent l a u := by
  induction l generalizing s with
  | nil => exact ⟨keepsMemory_refl s, fun u hu => ⟨u, hu, rfl, rfl, rfl, id, fun ⟨_, h, _⟩ => by cases h⟩⟩
  | cons m l ih =>
    obtain ⟨hmem, hall⟩ := ih (resend core k s m)
    refine ⟨(keepsMemory_resend ..).trans hmem, fun u hu => ?_⟩
    obtain ⟨b, hb, hub⟩ := hall u hu
    obtain ⟨a, ha, hba⟩ := resent_modify hb
    refine ⟨a, ha, hub.serial.trans hba.serial, hub.cmd.trans hba.cmd, hub.engine.trans hba.engine, fun h => hub.kept (hba.kept h), ?_⟩
    rintro ⟨x, hx, hs⟩
    rcases List.mem_cons.1 hx with rfl | hx
    · exact hub.kept (hba.sent ⟨x, List.mem_singleton_self x, hs⟩)
    · exact hub.sent ⟨x, hx, hs.trans hba.serial.symm⟩

theorem putResend_resends {s : State} (core chan : Nat) (v : Started) (l : List Started) (w b : Nat) (hchan : chan < 128)
    (hruns : s.coreRuns core = true)
    (hl : ((s.slot core (chan / 32)).started.filter fun t => ofChan (chan / 32) chan t && (waitOf t).isSome) = v :: l) (hv : waitOf v = some (w, b))
    (hdue : w + usAon b ≤ s.aon) :
    ∃ t, exec (.putResend core chan) s = .next t ∧
      (∀ u ∈ (t.slot core (chan / 32)).started, ofChan (chan / 32) chan u = true → waitOf u = none) ∧ KeepsMemory s t := by
  refine ⟨_, rfl, ?_⟩
  dsimp only
  rw [if_neg (by simp [hchan, hruns]), hl, List.head?_cons, Option.bind_some, hv]
  dsimp only
  rw [if_neg (by omega)]
  obtain ⟨hmem, hall⟩ := resent_foldl core (chan / 32) (v :: l) s
  refine ⟨fun u hu hof => ?_, hmem⟩
  obtain ⟨a, ha, hua⟩ := hall u hu
  by_cases hwait : waitOf a = none
  · exact hua.kept hwait
  · have hofa : ofChan (chan / 32) chan a = true := by rw [ofChan, ← hua.cmd, ← hua.engine]; exact hof
    refine hua.sent ⟨a, ?_, rfl⟩
    rw [← hl, List.mem_filter, hofa, Option.isSome_iff_ne_none.2 hwait]
    exact ⟨ha, rfl⟩

/-- Settles O18: a channel's register is written by what it is given, an answer finds its message by SEQ, and each waiting message of a channel is sent
again. -/
theorem creditsAndAnswersReachTheirChannel : Obligations.CreditsAndAnswersReachTheirChannel := by
  unfold Obligations.CreditsAndAnswersReachTheirChannel
  intro s
  refine ⟨creditReturn_gives, creditPacket_gives, fun core chan seq reason u h1 h2 h3 h4 => ⟨putAck_accepts h1 h2 h3 h4, putAck_rejects h1 h2 h3 h4⟩, ?_⟩
  exact fun core chan v l w b h1 h2 h3 h4 h5 => putResend_resends core chan v l w b h1 h2 h3 h4 h5

end Sys2Proof.Machine
end

section
/-!
PROOFS of the core grid: contexts brought in, blocked, paused, let go and saved. The slots of a context change cores and nothing else.
-/

namespace Sys2Proof.Machine

/-! ### Changes of cores only -/

/-- Nothing but cores changes. -/
def CoresOnly (s t : State) : Prop := t = { s with cores := t.cores }

theorem CoresOnly.refl (s : State) : CoresOnly s s := rfl

theorem CoresOnly.trans {s t u : State} (h : CoresOnly s t) (g : CoresOnly t u) : CoresOnly s u := coresOnly_trans h g

section

variable {s t : State}

theorem CoresOnly.ctx (h : CoresOnly s t) (c : Nat) : t.ctx c = s.ctx c := by
  rw [show t = { s with cores := t.cores } from h]
  rfl

theorem CoresOnly.part (h : CoresOnly s t) (p : Nat) : t.part p = s.part p := by
  rw [show t = { s with cores := t.cores } from h]
  rfl

theorem CoresOnly.srv (h : CoresOnly s t) : t.srv = s.srv := by
  rw [show t = { s with cores := t.cores } from h]

theorem CoresOnly.beside (h : CoresOnly s t) : t.beside = s.beside := by
  rw [show t = { s with cores := t.cores } from h]

theorem CoresOnly.starters (h : CoresOnly s t) : t.starters = s.starters := by
  rw [show t = { s with cores := t.cores } from h]

theorem CoresOnly.parts (h : CoresOnly s t) : t.parts = s.parts := by
  rw [show t = { s with cores := t.cores } from h]

end

theorem coresOnly_foldl {α : Type} (f : State → α → State) (h : ∀ s a, CoresOnly s (f s a)) (l : List α) (s : State) : CoresOnly s (l.foldl f s) :=
  foldl_keeps (fun u => CoresOnly s u) f l s (.refl s) fun u hu a _ => hu.trans (h u a)

section

variable (s : State) (c k : Nat)

theorem coresOnly_setCore (K : Core) : CoresOnly s (s.setCore c K) := rfl

theorem coresOnly_setSlot (x : SlotSt) : CoresOnly s (s.setSlot c k x) := rfl

theorem coresOnly_slotBind : CoresOnly s (slotBind s c k) := by
  unfold slotBind
  dsimp only
  split
  · rfl
  · split <;> rfl

theorem coresOnly_slotRestore (h t : Nat) : CoresOnly s (slotRestore s c k h t) := by
  unfold slotRestore
  dsimp only
  split <;> rfl

theorem coresOnly_slotResume : CoresOnly s (slotResume s c k) := by
  unfold slotResume
  dsimp only
  split <;> rfl

theorem coresOnly_slotPause : CoresOnly s (slotPause s c k) := by
  unfold slotPause
  dsimp only
  split <;> rfl

theorem coresOnly_slotUnbind : CoresOnly s (slotUnbind s c k) := by
  unfold slotUnbind
  dsimp only
  split <;> rfl

theorem coresOnly_slotStop : CoresOnly s (slotStop s c k) := by
  unfold slotStop
  dsimp only
  split <;> rfl

theorem coresOnly_slotClear : CoresOnly s (slotClear s c k) := by
  unfold slotClear
  dsimp only
  split <;> rfl

theorem coresOnly_bringSlot (f : Nat × Word64) : CoresOnly s (bringSlot s c f) := by
  unfold bringSlot
  dsimp only
  have hbind : ∀ x, CoresOnly s (slotBind (s.setSlot f.1 (s.ctx c).slot x) f.1 (s.ctx c).slot) := fun x =>
    (coresOnly_setSlot s f.1 (s.ctx c).slot x).trans (coresOnly_slotBind ..)
  split
  · split
    · exact (((hbind _).trans (coresOnly_setCore ..)).trans (coresOnly_slotRestore ..)).trans (coresOnly_slotResume ..)
    · exact (hbind _).trans (coresOnly_setCore ..)
  · exact hbind _

end

/-! ### A context brought in -/

/-- A context's record once it is RESIDENT. -/
def broughtIn (x : Ctx) (now : Nat) : Ctx :=
  { x with state := .resident, saved := false, image := [], blocked := none, lastStart := now, swaps := x.swaps + 1 }

/-- What bringing a context in does outside the cores. -/
structure BroughtIn (s t : State) (c : Nat) : Prop where
  ctx : ∀ d, t.ctx d = if d = c then broughtIn (s.ctx c) s.aon else s.ctx d
  part : ∀ p, t.part p = if p = (s.ctx c).part then
    { s.part p with stats := { (s.part p).stats with swaps := (s.part p).stats.swaps + 1 } } else s.part p
  beside : t.beside = s.beside
  ledger : t.srv.ledger = s.srv.ledger

theorem bringIn_facts (s : State) (c : Nat) : BroughtIn s (bringIn s c) c := by
  unfold bringIn modStats
  dsimp only
  have hslots : CoresOnly s ((footprint s c).foldl (fun s f => bringSlot s c f) s) := coresOnly_foldl _ (fun s f => coresOnly_bringSlot s c f) _ s
  set u := (footprint s c).foldl (fun s f => bringSlot s c f) s
  refine ⟨fun d => ?_, fun p => ?_, hslots.beside, ?_⟩
  · rw [State.setPart_ctx, State.ctx_setCtx, hslots.ctx, hslots.ctx]
    rfl
  · rw [State.part_setPart, State.setCtx_part, State.setCtx_part, hslots.ctx, hslots.part, hslots.part]
    split
    · next hp => rw [hp]
    · rfl
  · change u.srv.ledger = s.srv.ledger
    rw [hslots.srv]

theorem context_bringIn {s : State} {c : Nat} (h : canBring s c = true) :
    ∃ t, exec (.contextBringIn c) s = .next t ∧ (t.ctx c).state = .resident ∧ (t.ctx c).saved = false ∧ (t.ctx c).blocked = none ∧
      (t.ctx c).swaps = (s.ctx c).swaps + 1 ∧ (∀ d, d ≠ c → t.ctx d = s.ctx d) ∧
      (t.part (s.ctx c).part).stats.swaps = (s.part (s.ctx c).part).stats.swaps + 1 ∧ t.beside = s.beside ∧ t.srv.ledger = s.srv.ledger := by
  refine ⟨_, rfl, ?_⟩
  rw [if_pos h]
  obtain ⟨hctx, hpart, hbeside, hledger⟩ := bringIn_facts s c
  have hc : (bringIn s c).ctx c = broughtIn (s.ctx c) s.aon := (hctx c).trans (if_pos rfl)
  refine ⟨?_, ?_, ?_, ?_, fun d hd => (hctx d).trans (if_neg hd), ?_, hbeside, hledger⟩
  · rw [hc, broughtIn]
  · rw [hc, broughtIn]
  · rw [hc, broughtIn]
  · rw [hc, broughtIn]
  · rw [hpart, if_pos rfl]

/-! ### A context blocked -/

theorem context_blocked {s : State} {c : Nat} {l : List BlockCause} (hres : (s.ctx c).state = .resident) (hfree : (s.ctx c).blocked = none)
    (hdue : (s.ctx c).lastStart + usAon (s.cfg 0x0706) ≤ s.aon) (hcause : l.filter (causeHolds s c) ≠ []) :
    ∃ t, exec (.contextBlocked c l) s = .next t ∧ (t.ctx c).blocked = some (l.filter (causeHolds s c)) ∧ (∀ d, d ≠ c → t.ctx d = s.ctx d) ∧
      t = { s with srv := t.srv } ∧ t.srv.ledger = s.srv.ledger := by
  refine ⟨_, rfl, ?_⟩
  dsimp only
  rw [if_pos (by simp only [hres, hfree, hdue]; simpa using hcause)]
  exact ⟨by rw [State.ctx_setCtx_same], fun d hd => by rw [State.ctx_setCtx, if_neg hd], rfl, rfl⟩

/-! ### Slots paused and resumed -/

/-- A slot paused or not is paused where it was. -/
theorem slotPause_state (s : State) (c k j : Nat) :
    ((s.slot j k).state = .paused → ((slotPause s c k).slot j k).state = .paused) ∧
    ((s.slot j k).state = .running → ((slotPause s c k).slot j k).state = if j = c then .paused else .running) := by
  unfold slotPause
  dsimp only
  split
  · next hnot =>
    refine ⟨id, fun h => ?_⟩
    split
    · next hj =>
      rw [hj] at h
      simp [h] at hnot
    · exact h
  · by_cases hj : j = c
    · rw [hj, State.slot_setSlot_same, if_pos rfl]
      exact ⟨fun _ => rfl, fun _ => rfl⟩
    · rw [State.slot_setSlot_core_ne _ _ _ _ _ hj, if_neg hj]
      exact ⟨id, id⟩

theorem slotPause_foldl (k : Nat) (l : List (Nat × Word64)) (s : State) (j : Nat) :
    ((s.slot j k).state = .paused → ((l.foldl (fun s f => slotPause s f.1 k) s).slot j k).state = .paused) ∧
    ((s.slot j k).state = .running → (∃ f ∈ l, f.1 = j) → ((l.foldl (fun s f => slotPause s f.1 k) s).slot j k).state = .paused) := by
  induction l generalizing s with
  | nil => exact ⟨id, fun _ ⟨_, h, _⟩ => by cases h⟩
  | cons f l ih =>
    obtain ⟨hpaused, hrunning⟩ := slotPause_state s f.1 k j
    obtain ⟨ihpaused, ihrunning⟩ := ih (slotPause s f.1 k)
    refine ⟨fun h => ihpaused (hpaused h), fun h ⟨g, hg, hj⟩ => ?_⟩
    by_cases hf : j = f.1
    · exact ihpaused ((hrunning h).trans (if_pos hf))
    · refine ihrunning ((hrunning h).trans (if_neg hf)) ⟨g, ?_, hj⟩
      rcases List.mem_cons.1 hg with rfl | hg
      · exact absurd hj.symm hf
      · exact hg

theorem keepsMemory_foldl {α : Type} (f : State → α → State) (h : ∀ s a, KeepsMemory s (f s a)) (l : List α) (s : State) :
    KeepsMemory s (l.foldl f s) :=
  foldl_keeps (fun u => KeepsMemory s u) f l s (keepsMemory_refl s) fun u hu a _ => hu.trans (h u a)

theorem keepsMemory_slotPause (s : State) (c k : Nat) : KeepsMemory s (slotPause s c k) := by
  unfold slotPause
  dsimp only
  split
  · exact keepsMemory_refl s
  · exact keepsMemory_setSlot ..

theorem keepsMemory_slotResume (s : State) (c k : Nat) : KeepsMemory s (slotResume s c k) := by
  unfold slotResume
  dsimp only
  split
  · exact keepsMemory_setSlot ..
  · exact keepsMemory_refl s

/-- Pausing a context pauses one slot of each of its cores. -/
theorem pauseCtx_eq (s : State) (c : Nat) : pauseCtx s c = (footprint s c).foldl (fun u f => slotPause u f.1 (s.ctx c).slot) s := by
  have hfold : ∀ (l : List (Nat × Word64)) (u : State), CoresOnly s u →
      l.foldl (fun u f => slotPause u f.1 (u.ctx c).slot) u = l.foldl (fun u f => slotPause u f.1 (s.ctx c).slot) u := by
    intro l
    induction l with
    | nil => exact fun _ _ => rfl
    | cons f l ih =>
      intro u hu
      rw [List.foldl_cons, List.foldl_cons, hu.ctx]
      exact ih _ (hu.trans (coresOnly_slotPause ..))
  exact hfold _ s (.refl s)

theorem coresOnly_pauseCtx (s : State) (c : Nat) : CoresOnly s (pauseCtx s c) := by
  unfold pauseCtx
  exact coresOnly_foldl _ (fun _ _ => coresOnly_slotPause ..) _ s

theorem coresOnly_resumeCtx (s : State) (c : Nat) : CoresOnly s (resumeCtx s c) := by
  unfold resumeCtx
  exact coresOnly_foldl _ (fun _ _ => coresOnly_slotResume ..) _ s

theorem keepsMemory_pauseCtx (s : State) (c : Nat) : KeepsMemory s (pauseCtx s c) := by
  unfold pauseCtx
  exact keepsMemory_foldl _ (fun _ _ => keepsMemory_slotPause ..) _ s

theorem keepsMemory_resumeCtx (s : State) (c : Nat) : KeepsMemory s (resumeCtx s c) := by
  unfold resumeCtx
  exact keepsMemory_foldl _ (fun _ _ => keepsMemory_slotResume ..) _ s

/-! ### What a footprint depends on -/

/-- A context's bundle is looked up by its partition and model. -/
theorem footprint_congr {s t : State} {c : Nat} (hpart : (t.ctx c).part = (s.ctx c).part) (hmodel : (t.ctx c).model = (s.ctx c).model)
    (hbundles : ∀ p, (t.part p).bundles = (s.part p).bundles) : footprint t c = footprint s c := by
  unfold footprint ctxMan ctxBundle
  rw [hpart, hmodel, hbundles]

theorem footprint_setPart (s : State) (p c : Nat) (x : Part) (h : x.bundles = (s.part p).bundles) : footprint (s.setPart p x) c = footprint s c := by
  refine footprint_congr rfl rfl fun q => ?_
  rw [State.part_setPart]
  split
  · next hq => rw [hq, h]
  · rfl

/-! ### Candidates taken and let go -/

section

variable {s : State} {p : Nat}

/-- The first candidate taken, or none. -/
theorem tryEvict_facts (s : State) (p : Nat) (l : List (Nat × Nat)) : (tryEvict s p l).srv = s.srv ∧ KeepsMemory s (tryEvict s p l) ∧
    (l = [] → (tryEvict s p l).cores = s.cores) ∧
    (tryEvict s p l).part p = { s.part p with evict := match l with | [] => none | (v, b) :: r => some ⟨v, b, r, s.aon⟩ } := by
  rcases l with _ | ⟨⟨v, b⟩, r⟩
  · exact ⟨rfl, keepsMemory_same _ _ rfl rfl, fun _ => rfl, State.part_setPart_same ..⟩
  · rw [tryEvict]
    set u := s.setPart p { s.part p with evict := some ⟨v, b, r, s.aon⟩ } with hu
    have hpause := coresOnly_pauseCtx u v
    have hset : KeepsMemory s u := keepsMemory_same _ _ rfl rfl
    refine ⟨hpause.srv, hset.trans (keepsMemory_pauseCtx u v), fun h => absurd h (List.cons_ne_nil _ _), ?_⟩
    rw [hpause.part, hu, State.part_setPart_same]

/-- Every running slot of the candidate's footprint is paused. -/
theorem tryEvict_pauses (s : State) (p v b : Nat) (r : List (Nat × Nat)) (f : Nat × Word64) (hf : f ∈ footprint s v)
    (hrun : (s.slot f.1 (s.ctx v).slot).state = .running) : ((tryEvict s p ((v, b) :: r)).slot f.1 (s.ctx v).slot).state = .paused := by
  have hfoot := footprint_setPart s p v { s.part p with evict := some ⟨v, b, r, s.aon⟩ } rfl
  rw [tryEvict, pauseCtx_eq, hfoot]
  exact (slotPause_foldl (s.ctx v).slot (footprint s v) (s.setPart p _) f.1).2 hrun ⟨f, hf, rfl⟩

theorem exec_eviction (hact : (s.part p).state = .active) (hnone : (s.part p).evict = none) (hwait : waiting s p ≠ [])
    (hblocked : ((residents s p).all fun r => (s.ctx r).blocked.isSome) = true) :
    exec (.eviction p) s = .next (tryEvict s p (candidates s p)) := by
  change execEviction p s = _
  unfold execEviction
  dsimp only
  rw [if_pos]
  rw [hact, hnone, hblocked]
  simpa using hwait

theorem eviction_without_candidate (hact : (s.part p).state = .active) (hnone : (s.part p).evict = none) (hwait : waiting s p ≠ [])
    (hblocked : ((residents s p).all fun r => (s.ctx r).blocked.isSome) = true) (hl : candidates s p = []) :
    ∃ t, exec (.eviction p) s = .next t ∧ t.cores = s.cores ∧ t.part p = s.part p := by
  refine ⟨_, exec_eviction hact hnone hwait hblocked, ?_⟩
  obtain ⟨_, _, hcores, hpart⟩ := tryEvict_facts s p (candidates s p)
  refine ⟨hcores hl, hpart.trans ?_⟩
  rw [hl]
  dsimp only
  rw [← hnone]

theorem eviction_takes_first (hact : (s.part p).state = .active) (hnone : (s.part p).evict = none) (hwait : waiting s p ≠ [])
    (hblocked : ((residents s p).all fun r => (s.ctx r).blocked.isSome) = true) (v b : Nat) (r : List (Nat × Nat))
    (hl : candidates s p = (v, b) :: r) :
    ∃ t, exec (.eviction p) s = .next t ∧ (t.part p).evict = some ⟨v, b, r, s.aon⟩ ∧
      (∀ f ∈ footprint s v, (s.slot f.1 (s.ctx v).slot).state = .running → (t.slot f.1 (s.ctx v).slot).state = .paused) ∧
      t.srv.ctxs = s.srv.ctxs ∧ KeepsMemory s t := by
  refine ⟨_, exec_eviction hact hnone hwait hblocked, ?_⟩
  rw [hl]
  obtain ⟨hsrv, hmem, _, hpart⟩ := tryEvict_facts s p ((v, b) :: r)
  exact ⟨by rw [hpart], fun f hf => tryEvict_pauses s p v b r f hf, by rw [hsrv], hmem⟩

theorem evictTimeout_lets_go (e : Evict) (he : (s.part p).evict = some e) (hdue : e.since + usAon 50 ≤ s.aon) (hnot : allPaused s e.victim = false) :
    ∃ t, exec (.evictTimeout p) s = .next t ∧ (t.part p).stats.evictAbort = (s.part p).stats.evictAbort + 1 ∧
      (∀ v b r, e.rest = (v, b) :: r → (t.part p).evict = some ⟨v, b, r, s.aon⟩) ∧ (e.rest = [] → (t.part p).evict = none) ∧
      t.srv.ctxs = s.srv.ctxs ∧ KeepsMemory s t := by
  refine ⟨_, rfl, ?_⟩
  rw [he]
  dsimp only
  rw [if_pos (by simp [hdue, hnot])]
  have hresume := coresOnly_resumeCtx s e.victim
  set u := modStats (resumeCtx s e.victim) p fun t => { t with evictAbort := t.evictAbort + 1 } with hu
  have haon : u.aon = s.aon := by
    rw [hu, show resumeCtx s e.victim = { s with cores := (resumeCtx s e.victim).cores } from hresume]
    rfl
  have hstats : (u.part p).stats.evictAbort = (s.part p).stats.evictAbort + 1 := by
    rw [hu, modStats, State.part_setPart_same, hresume.part]
  have hsrv : u.srv = s.srv := hresume.srv
  have hmem : KeepsMemory s u := (keepsMemory_resumeCtx s e.victim).trans (keepsMemory_same _ _ rfl rfl)
  obtain ⟨hsrv', hmem', _, hpart⟩ := tryEvict_facts u p e.rest
  refine ⟨by rw [hpart, hstats], fun v b r hr => ?_, fun hr => ?_, by rw [hsrv', hsrv], hmem.trans hmem'⟩
  · rw [hpart, hr, haon]
  · rw [hpart, hr]

/-- The state once a candidate's slots are saved and its eviction is over. -/
def evictSaved (s : State) (p : Nat) (e : Evict) : State :=
  let s2 := ((footprint s e.victim).foldl (fun u f => slotUnbind u f.1 (s.ctx e.victim).slot) s).setCtx e.victim
    { s.ctx e.victim with state := .benched, saved := true, image := saveImage s e.victim, blocked := none }
  s2.setPart p { s2.part p with
    evict := none, swapTimes := ((s2.part p).swapTimes ++ [sincePaused s e.victim]).drop ((s2.part p).swapTimes.length + 1 - 8) }

theorem evictSaved_facts (s : State) (p : Nat) (e : Evict) : ((evictSaved s p e).part p).evict = none ∧ (evictSaved s p e).beside = s.beside ∧
    ∀ c, (evictSaved s p e).ctx c = if c = e.victim then
      { s.ctx e.victim with state := .benched, saved := true, image := saveImage s e.victim, blocked := none } else s.ctx c := by
  have hslots : CoresOnly s ((footprint s e.victim).foldl (fun u f => slotUnbind u f.1 (s.ctx e.victim).slot) s) :=
    coresOnly_foldl _ (fun _ _ => coresOnly_slotUnbind ..) _ s
  refine ⟨?_, hslots.beside, fun c => ?_⟩
  · rw [evictSaved, State.part_setPart_same]
  · rw [evictSaved, State.setPart_ctx, State.ctx_setCtx, hslots.ctx]

theorem evictSave_benches (e : Evict) (he : (s.part p).evict = some e) (hall : allPaused s e.victim = true) (hne : e.victim ≠ e.beneficiary) :
    ∃ t, exec (.evictSave p) s = .next t ∧ (t.ctx e.victim).state = .benched ∧ (t.ctx e.victim).saved = true ∧
      (t.ctx e.victim).image = saveImage s e.victim ∧ (t.ctx e.victim).blocked = none ∧ (t.part p).evict = none ∧
      ((t.ctx e.beneficiary).state = .resident ∨ t.ctx e.beneficiary = s.ctx e.beneficiary) ∧
      (∀ c, c ≠ e.victim → c ≠ e.beneficiary → t.ctx c = s.ctx c) ∧ t.beside = s.beside := by
  refine ⟨if canBring (evictSaved s p e) e.beneficiary then bringIn (evictSaved s p e) e.beneficiary else evictSaved s p e, ?_, ?_⟩
  · change execEvictSave p s = _
    unfold execEvictSave
    rw [he]
    dsimp only
    rw [if_neg (by simp [hall])]
    rfl
  obtain ⟨hevict, hbeside, hctx⟩ := evictSaved_facts s p e
  have hvictim := (hctx e.victim).trans (if_pos rfl)
  split
  · obtain ⟨hctx', hpart', hbeside', _⟩ := bringIn_facts (evictSaved s p e) e.beneficiary
    have hvictim' := ((hctx' e.victim).trans (if_neg hne)).trans hvictim
    rw [hvictim']
    refine ⟨rfl, rfl, rfl, rfl, ?_, .inl ?_, fun c h1 h2 => ?_, hbeside'.trans hbeside⟩
    · rw [hpart']
      split <;> exact hevict
    · rw [hctx', if_pos rfl, broughtIn]
    · rw [hctx', if_neg h2, hctx, if_neg h1]
  · rw [hvictim]
    refine ⟨rfl, rfl, rfl, rfl, hevict, .inr ?_, fun c h1 _ => ?_, hbeside⟩
    · rw [hctx, if_neg hne.symm]
    · rw [hctx, if_neg h1]

end

end Sys2Proof.Machine
end

section
/-!
PROOFS of the core grid: what the end of requests and the events of a function leave of the scheduler's own state, one lemma for each function they call:
the starters, the contexts but for their cohorts, and each partition's bundles and report interval.
-/

namespace Sys2Proof.Machine

/-! ### The view -/

/-- A context's record but for the cohorts of its requests. -/
def unqueued (x : Ctx) : Ctx := { x with cohort := Ctx.reset.cohort, closed := [] }

/-- A partition's bundles and report interval. -/
def reports (p : Part) : List Bundle × Nat := (p.bundles, p.reportAt)

/-- The scheduler's own state. -/
def schedView (s : State) : Tab Starter × (Nat → Ctx) × (Nat → List Bundle × Nat) :=
  (s.starters, fun c => unqueued (s.ctx c), fun p => reports (s.part p))

theorem schedView_of_eq {s t : State} (h1 : t.starters = s.starters) (h2 : t.srv.ctxs = s.srv.ctxs) (h3 : t.parts = s.parts) : schedView t = schedView s := by
  simp only [schedView, State.ctx, State.part, h1, h2, h3]

theorem schedView_setPart (s : State) (p : Nat) (x : Part) (h : reports x = reports (s.part p)) : schedView (s.setPart p x) = schedView s := by
  refine Prod.ext rfl (Prod.ext rfl (funext fun q => ?_))
  change reports ((s.setPart p x).part q) = _
  rw [State.part_setPart]
  split
  · next hq => rw [h, hq]; rfl
  · rfl

theorem schedView_setCtx (s : State) (c : Nat) (x : Ctx) (h : unqueued x = unqueued (s.ctx c)) : schedView (s.setCtx c x) = schedView s := by
  refine Prod.ext rfl (Prod.ext (funext fun d => ?_) rfl)
  change unqueued ((s.setCtx c x).ctx d) = _
  rw [State.ctx_setCtx]
  split
  · next hd => rw [h, hd]; rfl
  · rfl

theorem schedView_foldl {α : Type} (g : State → α → State) (l : List α) (s : State) (h : ∀ s a, schedView (g s a) = schedView s) :
    schedView (l.foldl g s) = schedView s :=
  foldl_keeps (fun t => schedView t = schedView s) g l s rfl fun t ht a _ => (h t a).trans ht

@[simp] theorem schedView_ite {c : Prop} [Decidable c] (a b : State) : schedView (if c then a else b) = if c then schedView a else schedView b :=
  apply_ite schedView c a b

theorem schedView_coresOnly {s t : State} (h : CoresOnly s t) : schedView t = schedView s := schedView_of_eq h.starters (by rw [h.srv]) h.parts

section

variable (s : State)

@[simp] theorem schedView_setReq (i : Nat) (x : Req) : schedView (s.setReq i x) = schedView s := rfl
@[simp] theorem schedView_setHeat (i : Nat) (x : Heat) : schedView (s.setHeat i x) = schedView s := rfl
@[simp] theorem schedView_setSess (i : Nat) (x : Session) : schedView (s.setSess i x) = schedView s := rfl
@[simp] theorem schedView_setMap (i : Nat) (x : KvMap) : schedView (s.setMap i x) = schedView s := rfl
@[simp] theorem schedView_setMirror (i : Nat) (x : KvMap) : schedView (s.setMirror i x) = schedView s := rfl
@[simp] theorem schedView_setFn (i : Nat) (x : Fn) : schedView (s.setFn i x) = schedView s := rfl
@[simp] theorem schedView_setSlot (c k : Nat) (x : SlotSt) : schedView (s.setSlot c k x) = schedView s := rfl

@[simp] theorem schedView_emit (o : Out) : schedView (s.emit o) = schedView s := by
  unfold State.emit
  split <;> rfl

@[simp] theorem schedView_send (d : Dest) (m : FwMsg) : schedView (s.send d m) = schedView s := by
  unfold State.send
  split <;> rfl

/-! ### Events and messages -/

@[simp] theorem schedView_fireVector (fn v : Nat) : schedView (fireVector s fn v) = schedView s := by
  simp [fireVector]

@[simp] theorem schedView_interrupt (fn v : Nat) : schedView (interrupt s fn v) = schedView s := by
  simp [interrupt]

@[simp] theorem schedView_writeEvent (fn : Nat) (e : Event) (more : Bool) : schedView (writeEvent s fn e more) = schedView s := by
  simp [writeEvent, schedView_foldl]

@[simp] theorem schedView_drainBacklog (n fn : Nat) : schedView (drainBacklog n s fn) = schedView s := by
  induction n generalizing s with
  | zero => rfl
  | succ n ih =>
    unfold drainBacklog
    dsimp only
    split
    · rfl
    · simp [ih]

@[simp] theorem schedView_postEvent (fn : Nat) (e : Event) : schedView (postEvent s fn e) = schedView s := by
  simp [postEvent, schedView_foldl]

@[simp] theorem schedView_notify (fn type status : Nat) (payload : List Byte) : schedView (notify s fn type status payload) = schedView s := by
  simp [notify]

@[simp] theorem schedView_copyLedger (i : Nat) : schedView (copyLedger s i) = schedView s := by
  unfold copyLedger
  split
  · split <;> simp
  · rfl

@[simp] theorem schedView_postDone (i : Nat) : schedView (postDone s i) = schedView s := by
  simp [postDone]

@[simp] theorem schedView_putSess (i : Nat) (x : Session) : schedView (putSess s i x) = schedView s := by
  unfold putSess
  dsimp only
  split <;> simp

/-! ### Frames of a partition -/

theorem reports_dropFrames (l : List Nat) (p : Part) : reports (dropFrames p l) = reports p :=
  foldl_keeps (fun y => reports y = reports p) dropFrame l p rfl fun _ hy _ _ => hy

theorem reports_takeFrame {p : Part} {home : Nat} {r : Part × Nat} (h : takeFrame p home = some r) : reports r.1 = reports p := by
  unfold takeFrame at h
  split at h
  · cases h
  · split at h
    · cases h
    · cases h
      rfl

theorem reports_takeFrames {n : Nat} {p : Part} {acc : List Nat} {r : Part × List Nat} (h : takeFrames n p acc = some r) : reports r.1 = reports p := by
  induction n generalizing p acc with
  | zero =>
    cases h
    rfl
  | succ n ih =>
    unfold takeFrames at h
    dsimp only at h
    split at h
    · cases h
    · next hone => exact (ih h).trans (reports_takeFrame hone)

theorem reports_trimLists (p : Part) (l : List KvList) (c : Nat) : reports (trimLists p l c).1 = reports p :=
  foldl_keeps (fun a : Part × List KvList => reports a.1 = reports p) _ l (p, []) rfl fun _ ha _ _ => (reports_dropFrames ..).trans ha

/-! ### Objects, generations, adapter slots -/

@[simp] theorem schedView_setAslot (p i : Nat) (x : ASlot) : schedView (setAslot s p i x) = schedView s := schedView_setPart _ _ _ rfl

@[simp] theorem schedView_unbindSlot (p i : Nat) : schedView (unbindSlot s p i) = schedView s := by
  simp [unbindSlot]

@[simp] theorem schedView_unprotectGen (p : Nat) (g : Gen) : schedView (unprotectGen s p g) = schedView s := by
  obtain ⟨b, h⟩ := unprotectGen_beside_only s p g
  rw [h]
  rfl

@[simp] theorem schedView_chargeQuota (p tier : Nat) (f : Nat → Nat) : schedView (chargeQuota s p tier f) = schedView s := by
  refine schedView_setPart _ _ _ ?_
  split <;> rfl

@[simp] theorem schedView_objFree (id : Nat) : schedView (objFree s id) = schedView s := by
  unfold objFree
  dsimp only
  split
  · rw [schedView_chargeQuota]
    rfl
  · rfl

@[simp] theorem schedView_freeGen (p : Nat) (g : Gen) : schedView (freeGen s p g) = schedView s := by
  unfold freeGen freeObjects
  dsimp only
  refine (schedView_setPart _ _ _ ?_).trans ((schedView_foldl _ _ _ schedView_objFree).trans ?_)
  · rfl
  · simp

@[simp] theorem schedView_unbindGen (p model num : Nat) : schedView (unbindGen s p model num) = schedView s := by
  unfold unbindGen
  split
  · rfl
  · split
    · simp
    · exact schedView_setPart _ _ _ rfl

@[simp] theorem schedView_unbindReq (r : Req) : schedView (unbindReq s r) = schedView s := by
  simp [unbindReq]

/-! ### Key-value maps and sessions -/

@[simp] theorem schedView_fitRecords (k : Nat) : schedView (fitRecords s k) = schedView s := by
  unfold fitRecords
  extract_lets m p fb need
  split
  · rw [schedView_setMap, schedView_setPart _ _ _ (reports_dropFrames ..)]
  · split
    · next h => rw [schedView_setMap, schedView_setPart _ _ _ (reports_takeFrames h)]
    · rfl

@[simp] theorem schedView_freeRecord (k : Nat) : schedView (freeRecord s k) = schedView s := by
  unfold freeRecord
  dsimp only
  rw [schedView_setMap, schedView_setPart _ _ _ (reports_dropFrames ..)]
  split
  · exact schedView_objFree ..
  · rfl

@[simp] theorem schedView_freePages (k : Nat) : schedView (freePages s k) = schedView s := by
  unfold freePages
  dsimp only
  rw [schedView_fitRecords, schedView_setMap, schedView_setPart _ _ _ (reports_dropFrames ..)]

@[simp] theorem schedView_freeMirror (k : Nat) : schedView (freeMirror s k) = schedView s :=
  (schedView_of_eq rfl rfl rfl).trans (schedView_setPart s (s.mirror k).part _ (reports_dropFrames ..))

@[simp] theorem schedView_freeSession (k : Nat) : schedView (freeSession s k) = schedView s := by
  unfold freeSession
  dsimp only
  set u := freeRecord (freeMirror (freePages s k) k) k with hu
  have hview : schedView u = schedView s := by simp [hu]
  refine (schedView_of_eq ?_ ?_ ?_).trans ((schedView_setPart u (u.map k).part (dropFrames (u.part (u.map k).part) (u.map k).recFrames)
    (reports_dropFrames ..)).trans hview) <;> rfl

@[simp] theorem schedView_closeSession (i : Nat) : schedView (closeSession s i) = schedView s := by
  simp [closeSession, schedView_foldl]

@[simp] theorem schedView_releaseSession (r : Req) : schedView (releaseSession s r) = schedView s := by
  simp [releaseSession]

@[simp] theorem schedView_commitMap (k : Nat) (o : OutcomeMsg) : schedView (commitMap s k o) = schedView s := by
  unfold commitMap
  extract_lets m c t s1 v c' t'
  have h1 : schedView s1 = schedView s := by
    simp only [s1]
    split
    · rw [schedView_fitRecords, schedView_setMap, schedView_setPart _ _ _ (reports_trimLists ..)]
    · exact schedView_setMap ..
  split
  · rw [schedView_setMirror, schedView_setPart _ _ _ (reports_trimLists ..), h1]
  · exact h1

/-! ### Heats and requests -/

@[simp] theorem schedView_unpinHeat (id : Nat) : schedView (unpinHeat s id) = schedView s := by
  unfold unpinHeat
  refine (schedView_setHeat ..).trans (schedView_setPart _ _ _ ?_)
  rfl

@[simp] theorem schedView_stopHeat (id : Nat) : schedView (stopHeat s id) = schedView s :=
  schedView_foldl _ _ _ fun s c => (schedView_setSlot ..).trans (schedView_coresOnly (coresOnly_slotStop s c.1 c.2))

@[simp] theorem schedView_retireHeat (id : Nat) : schedView (retireHeat s id) = schedView s := by
  unfold retireHeat
  dsimp only
  split
  · refine (schedView_setHeat ..).trans (schedView_setPart _ _ _ ?_)
    rfl
  · rfl

@[simp] theorem schedView_billLap (home handle a : Nat) (accept final : Bool) : schedView (billLap s home handle a accept final) = schedView s := rfl

@[simp] theorem schedView_takeOutcome (id : Nat) (h : Heat) (r : HeatRow) (o : OutcomeMsg) : schedView (takeOutcome s id h r o) = schedView s := by
  simp [takeOutcome]

@[simp] theorem schedView_reportLap (id : Nat) : schedView (reportLap s id) = schedView s := by
  unfold reportLap
  extract_lets h homes roles s1 s2 s3 s4
  have h1 : schedView s1 = schedView s := schedView_foldl _ _ _ fun _ _ => schedView_foldl _ _ _ fun _ _ => schedView_send _ _ _
  have h2 : schedView s2 = schedView s := by
    simp only [s2]
    split <;> simp [h1]
  have h3 : schedView s3 = schedView s := by
    simp only [s3]
    split
    · exact (schedView_foldl _ _ _ fun _ _ => schedView_send _ _ _).trans h2
    · exact h2
  split
  · rfl
  · refine (schedView_foldl _ _ _ fun t r => ?_).trans h3
    split
    · simp
    · rfl

@[simp] theorem schedView_leaveCohort (c i : Nat) : schedView (leaveCohort s c i) = schedView s := by
  unfold leaveCohort
  dsimp only
  split
  · exact schedView_setCtx _ _ _ rfl
  · rfl

@[simp] theorem schedView_leaveQueue (tenant i : Nat) : schedView (leaveQueue s tenant i) = schedView s := rfl

@[simp] theorem schedView_endOne (i status : Nat) : schedView (endOne s i status) = schedView s := by
  unfold endOne
  extract_lets r e s1 x k p stats s2 s3 s4 s5
  have h3 : schedView s3 = schedView s := (schedView_setReq ..).trans (schedView_setPart _ _ _ rfl)
  split
  · rfl
  split
  · simp [s1]
  · simp [s4, s5, h3]

@[simp] theorem schedView_endHeat (id : Nat) : schedView (endHeat s id) = schedView s := by
  refine schedView_foldl _ _ _ fun t r => ?_
  split
  · simp
  · rfl

@[simp] theorem schedView_applyCancel (id epoch : Nat) : schedView (applyCancel s id epoch) = schedView s := by
  simp [applyCancel]

@[simp] theorem schedView_heatCheck (id : Nat) : schedView (heatCheck s id) = schedView s := by
  simp [heatCheck, cancelHeat]

@[simp] theorem schedView_endAll (status : Nat) (f : Req → Bool) : schedView (endAll s status f) = schedView s := by
  simp [endAll, endReq, schedView_foldl]

@[simp] theorem schedView_settle : schedView (settle s) = schedView s := by
  simp [settle, schedView_foldl]

end

end Sys2Proof.Machine
end

section
/-!
PROOFS of the core grid: contexts failed by a starter's fault, and slowdown reports.
-/

namespace Sys2Proof.Machine

section

variable {s t : State}

theorem unqueued_of_schedView (h : schedView t = schedView s) (c : Nat) : unqueued (t.ctx c) = unqueued (s.ctx c) := congrFun (congrArg (·.2.1) h) c

theorem reports_of_schedView (h : schedView t = schedView s) (p : Nat) : reports (t.part p) = reports (s.part p) := congrFun (congrArg (·.2.2) h) p

theorem starters_of_schedView (h : schedView t = schedView s) : t.starters = s.starters := congrArg (·.1) h

/-- A field of a context that is no cohort. -/
theorem ctxField_of_schedView {β : Type} (f : Ctx → β) (hf : ∀ x, f (unqueued x) = f x) (h : schedView t = schedView s) (c : Nat) :
    f (t.ctx c) = f (s.ctx c) := by
  rw [← hf, unqueued_of_schedView h, hf]

theorem state_of_schedView (h : schedView t = schedView s) (c : Nat) : (t.ctx c).state = (s.ctx c).state :=
  ctxField_of_schedView Ctx.state (fun _ => rfl) h c

theorem bundles_of_schedView (h : schedView t = schedView s) (p : Nat) : (t.part p).bundles = (s.part p).bundles :=
  congrArg Prod.fst (reports_of_schedView h p)

theorem reportAt_of_schedView (h : schedView t = schedView s) (p : Nat) : (t.part p).reportAt = (s.part p).reportAt :=
  congrArg Prod.snd (reports_of_schedView h p)

end

/-! ### A context failed -/

/-- What decides a context's footprint, and the starters, are the same. -/
structure FootprintsKept (s t : State) : Prop where
  starters : t.starters = s.starters
  bundles : ∀ p, (t.part p).bundles = (s.part p).bundles
  part : ∀ c, (t.ctx c).part = (s.ctx c).part
  model : ∀ c, (t.ctx c).model = (s.ctx c).model

theorem FootprintsKept.refl (s : State) : FootprintsKept s s := ⟨rfl, fun _ => rfl, fun _ => rfl, fun _ => rfl⟩

theorem FootprintsKept.trans {s t u : State} (h : FootprintsKept s t) (g : FootprintsKept t u) : FootprintsKept s u :=
  ⟨g.starters.trans h.starters, fun p => (g.bundles p).trans (h.bundles p), fun c => (g.part c).trans (h.part c),
    fun c => (g.model c).trans (h.model c)⟩

theorem FootprintsKept.footprint {s t : State} (h : FootprintsKept s t) (c : Nat) : footprint t c = footprint s c :=
  footprint_congr (h.part c) (h.model c) h.bundles

theorem footprintsKept_of_schedView {s t : State} (h : schedView t = schedView s) : FootprintsKept s t :=
  ⟨starters_of_schedView h, bundles_of_schedView h, ctxField_of_schedView Ctx.part (fun _ => rfl) h, ctxField_of_schedView Ctx.model (fun _ => rfl) h⟩

/-- A context's record once it is FAILED. -/
def failedCtx (x : Ctx) : Ctx := { x with state := .failed, blocked := none }

theorem schedView_failCtx (s : State) (c : Nat) : schedView (failCtx s c) =
    if (s.ctx c).state = .none ∨ (s.ctx c).state = .failed then schedView s else schedView (s.setCtx c (failedCtx (s.ctx c))) := by
  unfold failCtx
  extract_lets x s1
  by_cases h : (s.ctx c).state = .none ∨ (s.ctx c).state = .failed
  · rw [if_pos h, if_pos (by simpa [x] using h)]
  · rw [if_neg h, if_neg (by simpa [x] using h), schedView_endAll]
    have hslots : CoresOnly s s1 := by
      simp only [s1]
      split
      · exact coresOnly_foldl _ (fun s f => ((coresOnly_slotClear ..).trans (coresOnly_slotStop ..)).trans (coresOnly_slotUnbind ..)) _ s
      · exact .refl s
    refine schedView_of_eq hslots.starters ?_ hslots.parts
    change tput s1.srv.ctxs c _ = tput s.srv.ctxs c _
    rw [hslots.srv]
    rfl

theorem failCtx_facts (s : State) (c : Nat) : FootprintsKept s (failCtx s c) ∧
    ∀ d, ((failCtx s c).ctx d).state = if d = c ∧ (s.ctx c).state ≠ .none then .failed else (s.ctx d).state := by
  have hview := schedView_failCtx s c
  split at hview
  · next h =>
    refine ⟨footprintsKept_of_schedView hview, fun d => (state_of_schedView hview d).trans ?_⟩
    split
    · next hd =>
      rw [hd.1]
      exact h.resolve_left hd.2
    · rfl
  · next h =>
    rw [not_or] at h
    have hset : FootprintsKept s (s.setCtx c (failedCtx (s.ctx c))) := by
      refine ⟨rfl, fun _ => rfl, fun d => ?_, fun d => ?_⟩ <;>
      · rw [State.ctx_setCtx]
        split
        · next hd => rw [hd]; rfl
        · rfl
    refine ⟨hset.trans (footprintsKept_of_schedView hview), fun d => (state_of_schedView hview d).trans ?_⟩
    rw [State.ctx_setCtx]
    by_cases hd : d = c
    · rw [if_pos hd, if_pos ⟨hd, h.1⟩, failedCtx]
    · rw [if_neg hd, if_neg (by tauto)]

/-! ### A starter's fault -/

/-- A context has a core in the row of a starter. -/
def hasCoreIn (s : State) (k c : Nat) : Bool := (footprint s c).any fun f => starterOf f.1 == k

/-- A context failed where it has a core in the row. -/
def failIn (k : Nat) (s : State) (c : Nat) : State := if hasCoreIn s k c then failCtx s c else s

theorem failIn_facts (k : Nat) (s : State) (c : Nat) : FootprintsKept s (failIn k s c) ∧ ∀ d, ((failIn k s c).ctx d).state =
    if d = c ∧ hasCoreIn s k c = true ∧ (s.ctx c).state ≠ .none then .failed else (s.ctx d).state := by
  unfold failIn
  split
  · next h => simpa [h] using failCtx_facts s c
  · next h => exact ⟨.refl s, fun d => by rw [if_neg (by tauto)]⟩

theorem failIn_foldl (k : Nat) (l : List Nat) (s : State) : FootprintsKept s (l.foldl (failIn k) s) ∧ ∀ d, ((l.foldl (failIn k) s).ctx d).state =
    if d ∈ l ∧ hasCoreIn s k d = true ∧ (s.ctx d).state ≠ .none then .failed else (s.ctx d).state := by
  induction l generalizing s with
  | nil => exact ⟨.refl s, fun d => by simp⟩
  | cons c l ih =>
    obtain ⟨hkept, hstate⟩ := failIn_facts k s c
    obtain ⟨ihkept, ihstate⟩ := ih (failIn k s c)
    refine ⟨hkept.trans ihkept, fun d => (ihstate d).trans ?_⟩
    have hcore : hasCoreIn (failIn k s c) k d = hasCoreIn s k d := by rw [hasCoreIn, hkept.footprint, hasCoreIn]
    rw [hcore, hstate]
    by_cases hd : d = c
    · subst hd
      by_cases hhit : hasCoreIn s k d = true ∧ (s.ctx d).state ≠ .none
      · simp [hhit]
      · have hstay : (if d = d ∧ hasCoreIn s k d = true ∧ (s.ctx d).state ≠ .none then CtxState.failed else (s.ctx d).state) = (s.ctx d).state :=
          if_neg fun h => hhit h.2
        rw [hstay, if_neg fun h => hhit h.2, if_neg fun h => hhit h.2]
    · simp [hd]

/-- A context that no table lists is in state none. -/
theorem ctx_state_of_not_mem {s : State} {c : Nat} (h : c ∉ tkeys s.srv.ctxs) : (s.ctx c).state = .none := by
  rw [State.ctx, tget_notin _ _ _ h]
  rfl

theorem starterFault_fails {s : State} {d w : Nat} (hd : d < 4) (hw : w < 16) (hon : s.power.fieldOn = true) :
    ∃ t, exec (.starterFault d w) s = .next t ∧ (t.starter (d * 16 + w)).unavailable = true ∧
      ∀ c, (((footprint s c).any fun f => starterOf f.1 == d * 16 + w) = true → (s.ctx c).state ≠ .none → (t.ctx c).state = .failed) ∧
        (((footprint s c).any fun f => starterOf f.1 == d * 16 + w) = false → (t.ctx c).state = (s.ctx c).state) := by
  refine ⟨_, rfl, ?_⟩
  rw [if_neg (by simp [hon]; omega)]
  set k := d * 16 + w
  set s1 := s.setStarter k { s.starter k with unavailable := true } with hs1
  change ((settle ((tkeys s.srv.ctxs).foldl (failIn k) s1)).starter k).unavailable = true ∧
    ∀ c, (hasCoreIn s k c = true → (s.ctx c).state ≠ .none → ((settle ((tkeys s.srv.ctxs).foldl (failIn k) s1)).ctx c).state = .failed) ∧
      (hasCoreIn s k c = false → ((settle ((tkeys s.srv.ctxs).foldl (failIn k) s1)).ctx c).state = (s.ctx c).state)
  obtain ⟨hkept, hstate⟩ := failIn_foldl k (tkeys s.srv.ctxs) s1
  have hsettle := schedView_settle ((tkeys s.srv.ctxs).foldl (failIn k) s1)
  have hcore : ∀ c, hasCoreIn s1 k c = hasCoreIn s k c := fun _ => rfl
  have hctx : ∀ c, s1.ctx c = s.ctx c := fun _ => rfl
  refine ⟨?_, fun c => ⟨fun hhit hne => ?_, fun hhit => ?_⟩⟩
  · rw [State.starter, starters_of_schedView hsettle, hkept.starters, ← State.starter, hs1, State.starter_setStarter_same]
  · have hmem : c ∈ tkeys s.srv.ctxs := by
      by_contra h
      exact hne (ctx_state_of_not_mem h)
    rw [state_of_schedView hsettle, hstate, if_pos ⟨hmem, hhit, hne⟩]
  · rw [state_of_schedView hsettle, hstate, if_neg (by simp [hcore, hhit]), hctx]

/-! ### Slowdown reports -/

/-- A context's record with the counts of its report interval at zero. -/
def recounted (x : Ctx) : Ctx := { x with stallAon := 0, runAon := 0, swaps := 0, faults := 0, laps := 0, util := [] }

/-- The counts a report gives, all zero. -/
def CountsZero (x : Ctx) : Prop := x.runAon = 0 ∧ x.stallAon = 0 ∧ x.laps = 0 ∧ x.faults = 0 ∧ x.swaps = 0

theorem countsZero_unqueued (x : Ctx) : CountsZero (unqueued x) ↔ CountsZero x := Iff.rfl

theorem recounted_foldl (l : List Nat) (s : State) : (l.foldl (fun s c => s.setCtx c (recounted (s.ctx c))) s).parts = s.parts ∧
    ∀ c, (CountsZero (s.ctx c) ∨ c ∈ l) → CountsZero ((l.foldl (fun s c => s.setCtx c (recounted (s.ctx c))) s).ctx c) := by
  induction l generalizing s with
  | nil => exact ⟨rfl, fun c h => h.resolve_right (by simp)⟩
  | cons d l ih =>
    obtain ⟨ihparts, ihzero⟩ := ih (s.setCtx d (recounted (s.ctx d)))
    refine ⟨ihparts, fun c h => ihzero c ?_⟩
    rw [State.ctx_setCtx]
    by_cases hc : c = d
    · rw [if_pos hc]
      exact .inl ⟨rfl, rfl, rfl, rfl, rfl⟩
    · rw [if_neg hc]
      exact h.imp_right fun hm => (List.mem_cons.1 hm).resolve_left hc

theorem report_facts (s : State) (p : Nat) : (((report s p).2).part p).reportAt = s.aon ∧ ∀ c ∈ partCtxs s p, CountsZero ((report s p).2.ctx c) := by
  obtain ⟨hparts, hzero⟩ := recounted_foldl (partCtxs s p) (s.setPart p { s.part p with reportAt := s.aon })
  refine ⟨?_, fun c hc => hzero c (.inr hc)⟩
  have hpart : (report s p).2.part p = (s.setPart p { s.part p with reportAt := s.aon }).part p := congrArg (tget Part.reset · p) hparts
  rw [hpart, State.part_setPart_same]

theorem slowdownReport_reports {s : State} {p : Nat} (hused : (s.part p).state ≠ .free) (hms : s.cfg 0x0704 ≠ 0)
    (hdue : (s.part p).reportAt + msAon (s.cfg 0x0704) ≤ s.aon) :
    ∃ t, exec (.slowdownReport p) s = .next t ∧
      t = settle (notify (report s p).2 (s.part p).fn mPAR_REPORT 0 ((partCtxs s p).flatMap (reportEntry s))) ∧ (t.part p).reportAt = s.aon ∧
      ∀ c ∈ partCtxs s p, (t.ctx c).runAon = 0 ∧ (t.ctx c).stallAon = 0 ∧ (t.ctx c).laps = 0 ∧ (t.ctx c).faults = 0 ∧ (t.ctx c).swaps = 0 := by
  refine ⟨settle (notify (report s p).2 (s.part p).fn mPAR_REPORT 0 ((partCtxs s p).flatMap (reportEntry s))), ?_, rfl, ?_, fun c hc => ?_⟩
  · change execSlowdownReport p s = _
    unfold execSlowdownReport
    dsimp only
    rw [if_neg (by simp [hused, hms, hdue])]
    rfl
  all_goals
    have hview : schedView (settle (notify (report s p).2 (s.part p).fn mPAR_REPORT 0 ((partCtxs s p).flatMap (reportEntry s)))) =
      schedView (report s p).2 := by rw [schedView_settle, schedView_notify]
    obtain ⟨hat, hzero⟩ := report_facts s p
  · rw [reportAt_of_schedView hview, hat]
  · change CountsZero _
    rw [← countsZero_unqueued, unqueued_of_schedView hview, countsZero_unqueued]
    exact hzero c hc

/-- Settles O38: slots of contexts change cores alone, and the ends of requests that follow a failure or a report leave what the scheduler keeps. -/
theorem contextsComeAndGo : Obligations.ContextsComeAndGo := by
  unfold Obligations.ContextsComeAndGo
  refine ⟨fun s c => context_bringIn, fun s c l => context_blocked, fun s p h1 h2 h3 h4 => ?evict, fun s p e he => ?letGo,
    fun s d w => starterFault_fails, fun s p => slowdownReport_reports⟩
  case evict => exact ⟨eviction_without_candidate h1 h2 h3 h4, eviction_takes_first h1 h2 h3 h4⟩
  case letGo => exact ⟨evictTimeout_lets_go e he, evictSave_benches e he⟩

end Sys2Proof.Machine
end

section
/-!
PROOFS of the beside memory: rings and the partition map.
-/

namespace Sys2Proof.Machine

/-! ### Rings (R196) -/

section

variable {s : State} {d p : Nat}

theorem exec_bsdRingTailWrite (hd : d < 12) (hp : p < 16) (hon : s.power.besideOn = true) (st tail : Nat) (hen : (s.ring d p).en = true)
    (hown : (s.ring d p).owner.toNat = st) :
    exec (.bsdRingTailWrite d p st tail) s = .next (s.setRing d p { s.ring d p with
      tail := BitVec.ofNat 8 tail
      state := if (s.ring d p).state = .idle ∧ BitVec.ofNat 8 tail ≠ (s.ring d p).head then .running else (s.ring d p).state }) :=
  congrArg Host.Outcome.next (if_neg (by simp [hd, hp, hon, hen, hown]))

theorem exec_bsdRingTailWrite_ignored {st : Nat} (tail : Nat) (h : (s.ring d p).en = false ∨ (s.ring d p).owner.toNat ≠ st) :
    exec (.bsdRingTailWrite d p st tail) s = .next s :=
  congrArg Host.Outcome.next (if_pos (by rcases h with h | h <;> simp [h]))

theorem exec_bsdRingClear (hd : d < 12) (hp : p < 16) (hon : s.power.besideOn = true) (hstop : (s.ring d p).state = .stopped) :
    exec (.bsdRingClear d p (s.ring d p).owner.toNat) s =
      .next (s.setRing d p { s.ring d p with state := .idle, head := (s.ring d p).tail }) :=
  congrArg Host.Outcome.next (if_neg (by simp [hd, hp, hon, hstop]))

theorem exec_bsdRingClear_ignored (st : Nat) (h : (s.ring d p).state ≠ .stopped) : exec (.bsdRingClear d p st) s = .next s :=
  congrArg Host.Outcome.next (if_pos (by simp [h]))

/-- A command that replaces one ring changes nothing else. -/
theorem ring_replaced {o : Host.Outcome State Fault Refusal} {r : Ring} (h : o = .next (s.setRing d p r)) :
    ∃ t, o = .next t ∧ t.ring d p = r ∧ (∀ q, q ≠ p → t.ring d q = s.ring d q) ∧ (∀ e, e ≠ d → t.bdie e = s.bdie e) ∧ KeepsMemory s t ∧
      t = { s with beside := t.beside } := by
  obtain ⟨hring, hothers, hdies, hmem⟩ := ring_tput_frame s d p r rfl
  exact ⟨_, h, hring, hothers, hdies, hmem, rfl⟩

/-! ### The partition map (R180) -/

theorem exec_bsdPartMapWrite (hd : d < 12) (hp : p < 16) (hon : s.power.besideOn = true) {v : Word64} (hfree : mapWritable s p = true)
    (hok : mapRefused s d p v = false) :
    exec (.bsdPartMapWrite d p v) s = .next (s.setBdie d { s.bdie d with
      map := tput (s.bdie d).map p (mkWord [(0, bits v 1 0), (16, bits v 30 16), (32, bits v 46 32)]) }) :=
  congrArg Host.Outcome.next (if_neg (by simp [hd, hp, hon, hfree, hok]))

theorem exec_bsdPartMapWrite_refused {v : Word64} (h : mapWritable s p = false ∨ mapRefused s d p v = true) :
    exec (.bsdPartMapWrite d p v) s = .next s :=
  congrArg Host.Outcome.next (if_pos (by rcases h with h | h <;> simp [h]))

/-- A map entry written on a die is that entry of that die alone. -/
theorem mapWord_setBdie_tput (w : Word64) (q e : Nat) :
    mapWord (s.setBdie d { s.bdie d with map := tput (s.bdie d).map p w }) q e = if q = p ∧ e = d then w else mapWord s q e := by
  rw [mapWord, State.bdie_setBdie]
  by_cases he : e = d
  · subst he
    rw [if_pos rfl, tget_tput]
    simp [mapWord]
  · rw [if_neg he, if_neg fun h => he h.2, mapWord]

theorem mapWrite_stores (hd : d < 12) (hp : p < 16) (hon : s.power.besideOn = true) {v : Word64} (hfree : mapWritable s p = true)
    (hok : mapRefused s d p v = false) :
    ∃ t, exec (.bsdPartMapWrite d p v) s = .next t ∧ mapWord t p d = mkWord [(0, bits v 1 0), (16, bits v 30 16), (32, bits v 46 32)] ∧
      (∀ q e, q ≠ p ∨ e ≠ d → mapWord t q e = mapWord s q e) ∧ KeepsMemory s t ∧ t = { s with beside := t.beside } := by
  refine ⟨_, exec_bsdPartMapWrite hd hp hon hfree hok, ?_, fun q e h => ?_, keepsMemory_setBdie s d _ rfl, rfl⟩
  · rw [mapWord_setBdie_tput, if_pos ⟨rfl, rfl⟩]
  · rw [mapWord_setBdie_tput, if_neg (by tauto)]

end

/-- Settles O24: each write that is taken replaces one ring or one map entry, and each that is not leaves the state. -/
theorem besideRingsTakeTailAndClear : Obligations.BesideRingsTakeTailAndClear := by
  unfold Obligations.BesideRingsTakeTailAndClear
  intro s d p hd hp hon
  exact ⟨fun st tail hen hown => ring_replaced (exec_bsdRingTailWrite hd hp hon st tail hen hown), fun _ tail h => exec_bsdRingTailWrite_ignored tail h,
    fun hstop => ring_replaced (exec_bsdRingClear hd hp hon hstop), fun h st => exec_bsdRingClear_ignored st h,
    fun _ hfree hok => mapWrite_stores hd hp hon hfree hok, fun _ h => exec_bsdPartMapWrite_refused h⟩

end Sys2Proof.Machine
end

section
/-!
PROOFS of the fabric at its target: clean reads and free writes line by line, and what LOAD, STORE and ATOMIC packets are answered with.
-/

namespace Sys2Proof.Machine

/-! ### Lines with the twin -/

section

variable {s : State} {part na n i m : Nat}

/-- Part of a run that reads cleanly reads cleanly. -/
theorem readsClean_part (h : ReadsClean s part na n) (hm : 0 < m) (hi : i + m ≤ n) : ReadsClean s part (na + i) m := by
  obtain ⟨hok, hpoison, hheld⟩ := h
  obtain ⟨hst, _, hok'⟩ := near_part hok hm hi
  have hphys := physOff_part hok hm hi
  refine ⟨hok', fun l hl => ?_, ?_⟩
  · rw [hst]
    exact hpoison l (linesOf_part hi (hphys ▸ hl))
  · simp only [heldLines, List.flatMap_cons, List.flatMap_nil, List.append_nil, List.map_eq_nil_iff, List.filter_eq_nil_iff] at hheld ⊢
    rw [hst, hphys]
    exact fun l hl => hheld l (linesOf_part hi hl)

/-- Part of a run that may be written may be written. -/
theorem writesFree_part (h : WritesFree s part na n) (hm : 0 < m) (hi : i + m ≤ n) : WritesFree s part (na + i) m := by
  obtain ⟨hok, hwp, hheld⟩ := h
  obtain ⟨hst, _, hok'⟩ := near_part hok hm hi
  refine ⟨hok', wpHit_part hok hwp hm hi, fun l hl => ?_⟩
  rw [hst]
  exact hheld l (linesOf_part hi (physOff_part hok hm hi ▸ hl))

/-- Nothing is with the twin of ranges each of which may be written. -/
theorem heldLines_eq_nil_of_free {rs : List (Nat × Nat)} (h : ∀ r ∈ rs, WritesFree s part r.1 r.2) : heldLines s part rs true = [] := by
  refine List.flatMap_eq_nil_iff.2 fun r hr => ?_
  obtain ⟨_, _, hheld⟩ := h r hr
  rw [List.map_eq_nil_iff, List.filter_eq_nil_iff]
  intro l hl
  simpa [lineHeld] using hheld l hl

/-! ### What can be served (R464) -/

theorem lineSub_read (h : nearOk s part na n = true) : lineSub s part na n false = scOK := by simp [lineSub, h]

theorem lineSub_free (h : WritesFree s part na n) : lineSub s part na n true = scOK := by simp [lineSub, h.1, h.2.1]

/-- Where no line of an access is refused, every line can be served. -/
theorem servable_eq {w : Bool} (h : ∀ i, i < n → lineSub s part (na + 64 * i) 64 w = scOK) : servable s part na w n = n := by
  rw [servable, List.find?_eq_none.2, Option.getD_none]
  intro i hi
  simp [h i (List.mem_range.1 hi)]

/-- A range of an access that can be served is one of its lines. -/
theorem mem_servedRange {w : Bool} (h : ∀ i, i < n / 64 → lineSub s part (na + 64 * i) 64 w = scOK) {r : Nat × Nat}
    (hr : r ∈ servedRange s part na n w) : ∃ i, 64 * i + 64 ≤ n ∧ r = (na + 64 * i, 64) := by
  unfold servedRange at hr
  split at hr
  · simp at hr
  · rw [servable_eq h] at hr
    obtain ⟨i, hi, rfl⟩ := List.mem_map.1 hr
    rw [List.mem_range] at hi
    exact ⟨i, by omega, rfl⟩

theorem heldLines_servedRange_read (h : ReadsClean s part na n) : heldLines s part (servedRange s part na n false) false = [] := by
  refine heldLines_eq_nil fun r hr => ?_
  obtain ⟨i, hi, rfl⟩ := mem_servedRange (fun i hi => lineSub_read (readsClean_part h (by omega) (by omega)).1) hr
  exact readsClean_part h (by omega) hi

theorem heldLines_servedRange_write (h : WritesFree s part na n) : heldLines s part (servedRange s part na n true) true = [] := by
  refine heldLines_eq_nil_of_free fun r hr => ?_
  obtain ⟨i, hi, rfl⟩ := mem_servedRange (fun i hi => lineSub_free (writesFree_part h (by omega) (by omega))) hr
  exact writesFree_part h (by omega) hi

end

/-! ### Clean reads -/

section

variable {s : State} {part na : Nat} {errs : List EccErr}

theorem keepsMemory_of_nearKept {u : State} (h : NearKept s u) (hc : u.cores = s.cores) : KeepsMemory s u :=
  ⟨fun c a => by rw [spadByte, core_of_cores hc, spadByte], fun c i => by rw [accWord, core_of_cores hc, accWord],
    fun d a => by rw [nearByte, h.mem, nearByte]⟩

theorem stackRead_congr {u : State} (h : NearKept s u) (st off n : Nat) : stackRead u st off n = stackRead s st off n := by
  rw [stackRead, h.mem, stackRead]

theorem stackRead_append (s : State) (st off m n : Nat) : stackRead s st off m ++ stackRead s st (off + m) n = stackRead s st off (m + n) := by
  refine List.ext_getElem? fun i => ?_
  by_cases hi : i < m
  · rw [List.getElem?_append_left (by rwa [stackRead_length]), stackRead_getElem? _ _ _ _ _ hi, stackRead_getElem? _ _ _ _ _ (by omega)]
  · rw [List.getElem?_append_right (by rw [stackRead_length]; omega), stackRead_length]
    by_cases hn : i < m + n
    · rw [stackRead_getElem? _ _ _ _ _ hn, stackRead_getElem? _ _ _ _ _ (by omega), show off + m + (i - m) = off + i by omega]
    · rw [List.getElem?_eq_none (by rw [stackRead_length]; omega), List.getElem?_eq_none (by rw [stackRead_length]; omega)]

/-- A clean run is read as it stands, no line of it poisoned. -/
theorem nearRead_clean {n : Nat} (he : Correctable errs) (h : ReadsClean s part na n) :
    ∃ u, nearRead s part na n errs = (u, stackRead s (naStack na) (physOff s part na) n, false) ∧ NearKept s u ∧ u.cores = s.cores := by
  obtain ⟨hkept, hcores⟩ := foldl_nearKept (fun s l => checkLine s (naStack na) l errs) (linesOf (physOff s part na) n) s
    fun s l _ => checkLine_kept s _ l errs he
  refine ⟨_, ?_, hkept, hcores⟩
  obtain ⟨_, hpoison, _⟩ := readsClean_congr hkept h
  rw [physOff_congr hkept.toMapKept] at hpoison
  rw [nearRead]
  refine Prod.ext rfl (Prod.ext (stackRead_congr hkept ..) (List.any_eq_false.2 fun l hl => ?_))
  exact Bool.not_eq_true _ ▸ hpoison l hl

/-- A clean load is served whole, line by line. -/
theorem serveLines_clean (he : Correctable errs) (n : Nat) (s : State) (i : Nat) (acc : List Byte) (h : ReadsClean s part na (64 * (i + n))) :
    ∃ u, serveLines n s part na i errs acc = (u, acc ++ stackRead s (naStack na) (physOff s part na + 64 * i) (64 * n), scOK) ∧
      NearKept s u ∧ u.cores = s.cores := by
  induction n generalizing s i acc with
  | zero => exact ⟨s, by simp [serveLines, stackRead, mread], .refl s, rfl⟩
  | succ n ih =>
    have hfit : 64 * i + 64 ≤ 64 * (i + (n + 1)) := by omega
    have hline := readsClean_part h (by omega) hfit
    obtain ⟨hst, _, hok⟩ := near_part h.1 (by omega) hfit
    obtain ⟨v, hread, hkept, hcores⟩ := nearRead_clean he hline
    rw [hst, physOff_part h.1 (by omega) hfit] at hread
    have hrest : ReadsClean v part na (64 * (i + 1 + n)) := by
      rw [show i + 1 + n = i + (n + 1) by omega]
      exact readsClean_congr hkept h
    obtain ⟨u, hserve, hkept', hcores'⟩ := ih v (i + 1) (acc ++ stackRead s (naStack na) (physOff s part na + 64 * i) 64) hrest
    refine ⟨u, ?_, hkept.trans hkept', hcores'.trans hcores⟩
    rw [serveLines]
    simp only [hok, hread, Bool.not_true, Bool.false_eq_true, if_false]
    rw [hserve, stackRead_congr hkept, physOff_congr hkept.toMapKept, List.append_assoc,
      show physOff s part na + 64 * (i + 1) = physOff s part na + 64 * i + 64 by omega, stackRead_append, show 64 + 64 * n = 64 * (n + 1) by omega]

end

/-! ### Free writes -/

/-- Runs written one behind the other are one run written. -/
theorem BytesWritten.append {s u v : State} {st off off' : Nat} {a b : List Byte} (h : BytesWritten s u st off a) (g : BytesWritten u v st off' b)
    (hoff : b ≠ [] → off' = off + a.length) : BytesWritten s v st off (a ++ b) := by
  refine ⟨h.map.trans g.map, g.cores.trans h.cores, fun d x => ?_⟩
  rw [g.mem, h.mem]
  rcases b.eq_nil_or_concat with rfl | hb
  · simp
  · have hpos : 0 < b.length := by obtain ⟨_, _, rfl⟩ := hb; simp
    obtain rfl := hoff (List.ne_nil_of_length_pos hpos)
    rw [List.length_append]
    by_cases h1 : d = st ∧ off + a.length ≤ x ∧ x < off + a.length + b.length
    · rw [if_pos h1, if_pos (by omega), List.getElem?_append_right (by omega), Nat.sub_sub]
    · rw [if_neg h1]
      by_cases h2 : d = st ∧ off ≤ x ∧ x < off + a.length
      · rw [if_pos h2, if_pos (by omega), List.getElem?_append_left (by omega)]
      · rw [if_neg h2, if_neg (by omega)]

/-- Bytes no line of which waits are written at once, whatever poison comes with them. -/
theorem stackWrite_bytes (n : Nat) (s : State) (w : List (Nat × Nat)) (st off : Nat) (data : List Byte) (poison : Bool) (errs : List EccErr)
    (he : Correctable errs) (hn : off % 64 + data.length ≤ 64 * n) (hheld : ∀ l ∈ linesOf off data.length, lineHeld s st l = false) :
    BytesWritten s (stackWrite n (s, w) st off data poison errs).1 st off data := by
  have hnone (s : State) (off : Nat) : BytesWritten s s st off [] := ⟨.refl s, rfl, fun d a => by simp⟩
  induction n generalizing s off data with
  | zero =>
    obtain rfl : data = [] := List.eq_nil_of_length_eq_zero (by omega)
    exact hnone s off
  | succ n ih =>
    unfold stackWrite
    split
    · next hempty =>
      obtain rfl := List.isEmpty_iff.1 hempty
      exact hnone s off
    · next hne =>
      have hpos : 0 < data.length := List.length_pos_iff.2 fun h => hne (by simp [h])
      have hfirst : lineHeld s st (off / 64) = false := hheld _ (mem_linesOf.2 ⟨hpos, le_rfl, Nat.div_le_div_right (by omega)⟩)
      have hline := applyLine_written s st (off / 64) (off % 64) (data.take (64 - off % 64)) poison errs he
      rw [show off / 64 * 64 + off % 64 = off by omega] at hline
      dsimp only
      rw [writeLine, if_neg (by simp [hfirst])]
      have hrest := ih (applyLine s st (off / 64) (off % 64) (data.take (64 - off % 64)) poison errs) (off + (64 - off % 64))
        (data.drop (64 - off % 64)) (by rw [List.length_drop]; omega) fun l hl => by
          rw [lineHeld_congr hline.map]
          rw [List.length_drop] at hl
          have := (mem_linesOf.1 hl).1
          exact hheld l (linesOf_part (by omega) hl)
      have hall := hline.append hrest fun hdrop => by
        rw [List.length_take, min_eq_left]
        rw [ne_eq, List.drop_eq_nil_iff] at hdrop
        omega
      rwa [List.take_append_drop] at hall

theorem nearWrite_bytes {s : State} {part na : Nat} (data : List Byte) (poison : Bool) (errs : List EccErr) (he : Correctable errs)
    (h : WritesFree s part na data.length) :
    BytesWritten s (nearWrite s part na data poison errs).1 (naStack na) (physOff s part na) data :=
  stackWrite_bytes _ s [] _ _ data poison errs he (by omega) h.2.2

/-- Once a run is written, a state with the same cores and stacks differs from the first in that run alone. -/
theorem BytesWritten.frames {s u v : State} {st off : Nat} {data : List Byte} (h : BytesWritten s u st off data) (hc : v.cores = u.cores)
    (hb : ∀ d, (v.bdie d).mem = (u.bdie d).mem) : NearExcept s v st [(off, data.length)] ∧ SpadExcept s v 0 [] ∧
      ∀ i, i < data.length → nearByte v st (off + i) = (data[i]?).getD 0 := by
  have hmem (d a : Nat) : nearByte v d a = nearByte u d a := by rw [nearByte, hb, nearByte]
  refine ⟨fun d a hout => ?_, fun c a _ => ?_, fun i hi => ?_⟩
  · rw [hmem, h.mem, if_neg]
    rintro ⟨hd, h1, h2⟩
    have := hout hd _ List.mem_cons_self
    dsimp only at this
    omega
  · rw [spadByte, core_of_cores (hc.trans h.cores), spadByte]
  · rw [hmem, h.mem, if_pos ⟨rfl, by omega, by omega⟩, Nat.add_sub_cancel_left]

/-! ### Requests at the target (R200, R446, R463 to R465) -/

section

variable {s : State} {p : Packet} {errs : List EccErr} {na len : Nat}

theorem keepsMemory_sendPacket (s : State) (ctx : Nat) (p : Packet) : KeepsMemory s (sendPacket s ctx p) :=
  keepsMemory_same _ _ (sendPacket_cores_beside ..).1 (sendPacket_cores_beside ..).2

theorem sendPacket_bdie (s : State) (ctx : Nat) (p : Packet) (d : Nat) : (sendPacket s ctx p).bdie d = s.bdie d := by
  rw [State.bdie, (sendPacket_cores_beside ..).2, ← State.bdie]

theorem serveLoad_clean (he : Correctable errs) (hact : (s.part p.part).state = .active) (h64 : len % 64 = 0) (h : ReadsClean s p.part na len) :
    ∃ u, serveLoad s p.part na len errs = (u, stackRead s (naStack na) (physOff s p.part na) len, scOK) ∧ NearKept s u ∧ u.cores = s.cores := by
  obtain ⟨n, rfl⟩ := Nat.dvd_of_mod_eq_zero h64
  obtain ⟨u, hserve, hkept, hcores⟩ := serveLines_clean he n s 0 [] (by rwa [Nat.zero_add])
  refine ⟨u, ?_, hkept, hcores⟩
  rw [serveLoad, if_neg (by simp [hact]), Nat.mul_div_cancel_left _ (by omega), hserve, List.nil_append, Nat.mul_zero, Nat.add_zero]

/-- A packet answered OK carries no poison. -/
theorem mkPacket_ok (s : State) (type dst part pseq : Nat) (args data : List Byte) :
    { mkPacket s type dst part pseq args data with poison := scOK == scPOISON } = mkPacket s type dst part pseq args data := rfl

theorem loadPacket_answered (he : Correctable errs) (hna : na = ble p.args 0 5) (hact : (s.part p.part).state = .active)
    (hfor : forUs s p pkLOAD = true) (hlen : len = ble p.args 5 2) (h64 : len % 64 = 0) (h : ReadsClean s p.part na len) :
    ∃ t s1, exec (.loadPacket p errs) s = .next t ∧ KeepsMemory s s1 ∧ KeepsMemory s t ∧
      t = sendPacket s1 ovCtx (mkPacket s pkLOAD_DATA p.src p.part p.pseq (rspArgs scOK (len / 64))
        (mread 0 (s.bdie (naStack na)).mem (physOff s p.part na) len)) := by
  obtain ⟨u, hserve, hkept, hcores⟩ := serveLoad_clean he hact h64 h
  have hmem : KeepsMemory s (u.count ovCtx 6 len) := (keepsMemory_of_nearKept hkept hcores).trans (keepsMemory_same _ _ (by simp) (by simp))
  refine ⟨_, u.count ovCtx 6 len, ?_, hmem, hmem.trans (keepsMemory_sendPacket ..), rfl⟩
  change execLoadPacket p errs s = _
  rw [execLoadPacket, if_neg (by simp [hfor])]
  dsimp only
  rw [← hna, ← hlen, heldLines_servedRange_read h, if_pos List.isEmpty_nil, hserve, stackRead_length, mkPacket_ok, stackRead]

theorem serveStore_free {data : List Byte} (poison : Bool) (hact : (s.part p.part).state = .active)
    (h64 : data.length % 64 = 0) (h : WritesFree s p.part na data.length) :
    serveStore s p.part na data poison errs = ((nearWrite s p.part na data poison errs).1, data.length, scOK) := by
  have hall : servable s p.part na true (data.length / 64) = data.length / 64 :=
    servable_eq fun i hi => lineSub_free (writesFree_part h (by omega) (by omega))
  have hlen : 64 * (data.length / 64) = data.length := by omega
  rw [serveStore, if_neg (by simp [hact])]
  dsimp only
  rw [hall, if_pos rfl, hlen, List.take_length]

theorem storePacket_answered (he : Correctable errs) (hna : na = ble p.args 0 5) (hact : (s.part p.part).state = .active)
    (hfor : forUs s p pkSTORE = true) (hlen : len = p.data.length) (h64 : len % 64 = 0) (h : WritesFree s p.part na len) :
    ∃ t s1, exec (.storePacket p errs) s = .next t ∧ t = sendPacket s1 ovCtx (mkPacket s pkDONE p.src p.part p.pseq (rspArgs scOK len) []) ∧
      NearExcept s t (naStack na) [(physOff s p.part na, len)] ∧ SpadExcept s t 0 [] ∧
      ∀ i, i < len → nearByte t (naStack na) (physOff s p.part na + i) = (p.data[i]?).getD 0 := by
  subst hlen
  have hwritten := nearWrite_bytes p.data p.poison errs he h
  refine ⟨_, (nearWrite s p.part na p.data p.poison errs).1.count ovCtx 6 p.data.length, ?_, rfl,
    hwritten.frames (((sendPacket_cores_beside ..).1).trans (by simp)) fun d => by rw [sendPacket_bdie, State.count_bdie]⟩
  change execStorePacket p errs s = _
  rw [execStorePacket, if_neg (by simp [hfor])]
  dsimp only
  rw [← hna, heldLines_servedRange_write h, if_pos List.isEmpty_nil, serveStore_free p.poison hact h64 h]

/-- The state an atomic leaves at its target, with its new value. -/
def atomicState (s : State) (part na : Nat) (errs : List EccErr) (data : List Byte) : State :=
  let u := (nearWrite (nearRead s part na data.length errs).1 part na data false []).1
  u.setBdie (naStack na) { u.bdie (naStack na) with atomics := (u.bdie (naStack na)).atomics + 1 }

theorem atomicState_written (he : Correctable errs) {part : Nat} {data : List Byte} (hr : ReadsClean s part na data.length)
    (hw : WritesFree s part na data.length) : ∃ u, BytesWritten s u (naStack na) (physOff s part na) data ∧
      (atomicState s part na errs data).cores = u.cores ∧ ∀ d, ((atomicState s part na errs data).bdie d).mem = (u.bdie d).mem := by
  obtain ⟨v, hread, hkept, hcores⟩ := nearRead_clean he hr
  have hwritten := nearWrite_bytes data false [] (by simp [Correctable]) (writesFree_congr hkept.toMapKept hw)
  rw [physOff_congr hkept.toMapKept] at hwritten
  refine ⟨(nearWrite v part na data false []).1, ⟨hkept.toMapKept.trans hwritten.map, hwritten.cores.trans hcores, fun d a => ?_⟩, ?_, fun d => ?_⟩
  · rw [hwritten.mem, nearByte, nearByte, hkept.mem]
  · rw [atomicState, hread, State.setBdie_cores]
  · rw [atomicState, hread, State.bdie_setBdie]
    split
    · next hd => rw [hd]
    · rfl

theorem serveAtomic_served (he : Correctable errs) {part : Nat} (op : Nat) (size8 sgn : Bool) (opd cmp : Nat)
    (hact : (s.part part).state = .active) (hlen : len = if size8 then 8 else 4) (hr : ReadsClean s part na len) (hw : WritesFree s part na len)
    {old : Nat} (hold : old = leNat (stackRead s (naStack na) (physOff s part na) len)) :
    serveAtomic s part na op size8 sgn opd cmp errs =
      (atomicState s part na errs (leBytes len (atomicNew op len old (opd % 2 ^ (8 * len)) (cmp % 2 ^ (8 * len)) sgn)), old, scOK) := by
  obtain ⟨v, hread, _⟩ := nearRead_clean he hr
  rw [serveAtomic, if_neg (by simp [hact])]
  dsimp only
  rw [← hlen, lineSub_free hw, if_neg (by simp), hread, atomicState, leBytes_length, hread, hold]
  rfl

theorem atomicPacket_answered (he : Correctable errs) (hna : na = ble p.args 0 5) (hact : (s.part p.part).state = .active)
    (hfor : forUs s p pkATOMIC = true) (hlen : len = if nbits (ble p.args 5 1) 3 3 = 1 then 8 else 4) (hr : ReadsClean s p.part na len)
    (hw : WritesFree s p.part na len) {old : Nat} (hold : old = leNat (stackRead s (naStack na) (physOff s p.part na) len)) {data : List Byte}
    (hdata : data = leBytes len (atomicNew (nbits (ble p.args 5 1) 2 0) len old (ble p.data 0 8 % 2 ^ (8 * len)) (ble p.data 8 8 % 2 ^ (8 * len))
      (nbits (ble p.args 5 1) 4 4 = 1))) :
    ∃ t s1, exec (.atomicPacket p errs) s = .next t ∧
      t = sendPacket s1 ovCtx (mkPacket s pkATOMIC_DATA p.src p.part p.pseq (rspArgs scOK 0) (leBytes 8 old)) ∧
      NearExcept s t (naStack na) [(physOff s p.part na, len)] ∧ mread 0 (t.bdie (naStack na)).mem (physOff s p.part na) len = data := by
  have hdlen : data.length = len := by rw [hdata, leBytes_length]
  obtain ⟨u, hwritten, hcores, hmem⟩ := atomicState_written he (hdlen.symm ▸ hr) (hdlen.symm ▸ hw)
  obtain ⟨hnear, _, hbytes⟩ := hwritten.frames (v := sendPacket ((atomicState s p.part na errs data).count ovCtx 6 64) ovCtx
    (mkPacket s pkATOMIC_DATA p.src p.part p.pseq (rspArgs scOK 0) (leBytes 8 old)))
    ((sendPacket_cores_beside ..).1.trans (by simpa using hcores)) fun d => by rw [sendPacket_bdie, State.count_bdie, hmem]
  rw [hdlen] at hnear hbytes
  refine ⟨_, (atomicState s p.part na errs data).count ovCtx 6 64, ?answer, rfl, hnear, List.ext_getElem? fun i => ?_⟩
  case answer =>
    have hheld : (if nearOk s p.part na 1 then heldLines s p.part [(na, 1)] true else []) = [] := by
      have hone : WritesFree s p.part (na + 0) 1 := writesFree_part hw (by omega) (by split at hlen <;> omega)
      split
      · exact heldLines_eq_nil_of_free (by simpa using hone)
      · rfl
    change execAtomicPacket p errs s = _
    rw [execAtomicPacket, if_neg (by simp [hfor])]
    dsimp only
    rw [← hna, hheld, if_pos List.isEmpty_nil, serveAtomic_served he _ _ _ _ _ hact (by simpa using hlen) hr hw hold, hdata]
  by_cases hi : i < len
  · rw [mread_get _ _ _ _ _ hi, ← nearByte, hbytes i hi, List.getElem?_eq_getElem (hdlen ▸ hi), Option.getD_some]
  · rw [List.getElem?_eq_none (by rw [mread_length]; omega), List.getElem?_eq_none (by omega)]

end

/-- Settles O20: every line of a clean or free access is served, so the answer is OK with the bytes read, the bytes applied or the old value. -/
theorem fabricRequestsAreServed : Obligations.FabricRequestsAreServed := by
  unfold Obligations.FabricRequestsAreServed
  intro s p errs na len he hna hact
  exact ⟨loadPacket_answered he hna hact, storePacket_answered he hna hact, 
    fun hfor hlen _ hr hw => atomicPacket_answered he hna hact hfor hlen hr hw rfl rfl⟩

end Sys2Proof.Machine
end

section
/-!
PROOFS of the beside memory and the twin: refutations that turn on the shape of a table. A table that lists a number twice, or whose numbers do not rise
before a record is put, can still hold a record of a number `tdel` has taken away. The last lemma before each refutation's state gives the clause it refutes
for a table without that fault.
-/

namespace Sys2Proof.Machine

/-! ### Records taken away -/

section

variable {α : Type} {t : Tab α} {k : Nat}

/-- In a table that lists each number once, a number taken away reads as the reset record. -/
theorem tget_tdel_of_keyed (d : α) (h : Keyed t) : tget d (tdel t k) k = d := by
  induction t with
  | nil => rfl
  | cons e r ih =>
    obtain ⟨i, w⟩ := e
    obtain ⟨hi, hr⟩ : i ∉ tkeys r ∧ Keyed r := List.nodup_cons.1 h
    unfold tdel
    split
    · next hik => exact tget_notin d r k (hik ▸ hi)
    · next hik => rw [tget, if_neg hik, ih hr]

/-- Numbers that rise are each listed once. -/
theorem keyed_of_rising (h : t.Pairwise fun a b => a.1 < b.1) : Keyed t := by
  rw [Keyed, tkeys, List.Nodup, List.pairwise_map]
  exact h.imp fun hlt => hlt.ne

end

/-! ### A poisoned line rewritten (R207, R208) -/

/-- A whole line written takes the poison that came with its data. -/
theorem applyLine_poison_whole (s : State) (st line off : Nat) {data : List Byte} (poison : Bool) (errs : List EccErr) (h : data.length = 64) :
    ((applyLine s st line off data poison errs).bdie st).poison =
      if poison then tput (s.bdie st).poison line true else tdel (s.bdie st).poison line := by
  simp only [applyLine, if_pos h, State.bdie_setBdie_same]

/-- A poisoned line that no partition maps and the twin does not hold is rewritten from its second copy. -/
theorem exec_poisonRewrite_secondCopy {s : State} {d line : Nat} {l : List Byte} (hd : d < 12) (hpoison : tget false (s.bdie d).poison line = true)
    (hfree : lineHeld s d line = false) (howner : lineOwner s d line = none) :
    exec (.poisonRewrite d line (.secondCopy l)) s = .next (applyLine s d line 0 (bsub l 0 64) false []) := by
  change execPoisonRewrite d line (.secondCopy l) s = _
  rw [execPoisonRewrite, if_neg (by simp [hpoison]; omega)]
  dsimp only
  rw [howner, writeLine, if_neg (by simp [hfree])]

/-- Where the table of poisoned lines lists each line once, a line rewritten whole is no longer poisoned. -/
theorem applyLine_clears_of_keyed {s : State} {st line : Nat} {data : List Byte} (errs : List EccErr) (hkeyed : Keyed (s.bdie st).poison)
    (h : data.length = 64) : tget false ((applyLine s st line 0 data false errs).bdie st).poison line = false := by
  rw [applyLine_poison_whole _ _ _ _ _ _ h]
  exact tget_tdel_of_keyed false hkeyed

/-- A powered Beside die whose table of poisoned lines lists line 0 twice, a line no partition maps. -/
def twicePoisoned : State :=
  { State.reset with
    power := { State.reset.power with besideOn := true }
    beside := [(0, { BesideDie.reset with poison := [(0, true), (0, true)] })] }

/-- Refutes O26: `tdel` takes a line's first record away, so a line that the table of poisoned lines lists twice is still poisoned once it is rewritten.
The statement does not ask for `Keyed` of that table. -/
theorem not_dramLinesAreScrubbedAndRewritten : ¬ Obligations.DramLinesAreScrubbedAndRewritten := by
  unfold Obligations.DramLinesAreScrubbedAndRewritten
  intro h
  have howner : lineOwner twicePoisoned 0 0 = none := by decide
  obtain ⟨t, hrun, hclean, _⟩ := (h twicePoisoned 0 (by decide) rfl).2 0 (zeros 64) (.secondCopy (zeros 64)) rfl rfl rfl (.inl ⟨rfl, howner⟩)
  rw [exec_poisonRewrite_secondCopy (by decide) rfl rfl howner] at hrun
  obtain rfl := Host.Outcome.next.inj hrun
  rw [applyLine_poison_whole _ _ _ _ _ _ rfl] at hclean
  have hstill : tget false (tdel (twicePoisoned.bdie 0).poison 0) 0 = true := rfl
  exact absurd (hstill.symm.trans hclean) (by decide)

/-! ### A line granted and no longer wanted (R471) -/

/-- With no transaction of the line cache open, none goes on. -/
theorem advanceAll_of_uncached {s : State} (h : ∀ e ∈ s.fab.txns, e.2.cached = false) : advanceAll s = s := by
  rw [advanceAll, List.filter_eq_nil_iff.2 fun e he => by simp [h e he]]
  rfl

theorem cline_useLine_same (s : State) (l : Nat) (x : CacheLine) : (s.useLine l x).cline l = { x with order := s.fab.lineOrder } := tget_tput_same ..

/-- A line of the cache as DATA grants it. -/
def grantedLine (k : CacheLine) (modified poison : Bool) (data : Option (List Byte)) : CacheLine :=
  { k with asking := false, state := if modified then .M else .S, data := data.getD k.data, poison := if data.isSome then poison else k.poison }

/-- DATA that was asked for: the line is granted and the transactions go on; one granted modified without its data and no longer wanted is given back. -/
theorem exec_cohData {s v : State} {l : Nat} {modified poison : Bool} {data : Option (List Byte)} (hask : (s.cline l).asking = true)
    (hv : v = advanceAll (s.useLine l (grantedLine (s.cline l) modified poison data))) :
    exec (.cohData l modified poison data) s =
      .next (if data.isNone && (s.cline l).state == .I && (v.cline l).state == .M && (v.cline l).data.isEmpty then
        (v.dropLine l).emit (.coh (.evict l)) else v) := by
  subst hv
  exact congrArg Host.Outcome.next (if_neg (by simp [hask]))

/-- A line asked for, not held and wanted by no transaction, granted modified without its data, is given back at once. -/
theorem exec_cohData_blank {s : State} {l : Nat} (hask : (s.cline l).asking = true) (hI : (s.cline l).state = .I) (hdata : (s.cline l).data = [])
    (htxns : ∀ e ∈ s.fab.txns, e.2.cached = false) (poison : Bool) :
    exec (.cohData l true poison none) s =
      .next (((s.useLine l (grantedLine (s.cline l) true poison none)).dropLine l).emit (.coh (.evict l))) := by
  have hgrant := advanceAll_of_uncached (s := s.useLine l (grantedLine (s.cline l) true poison none)) htxns
  rw [exec_cohData hask hgrant.symm, cline_useLine_same, if_pos (by simp [grantedLine, hI, hdata])]

/-- Where the numbers of the cache's table rise, a line given back at once is in the cache no longer. -/
theorem cline_dropLine_useLine_of_rising {s : State} {l : Nat} (x : CacheLine) (h : s.fab.lines.Pairwise fun a b => a.1 < b.1) :
    ((s.useLine l x).dropLine l).cline l = CacheLine.reset :=
  tget_tdel_of_keyed _ (keyed_of_rising (tput_pairwise _ _ _ h))

/-- A package whose line cache lists line 1 before line 0, which has a request outstanding. -/
def fallingLines : State :=
  { State.reset with fab := { State.reset.fab with lines := [(1, CacheLine.reset), (0, { CacheLine.reset with asking := true })] } }

/-- Refutes O51: `tput` puts the granted line 0 in front of line 1 and so in front of its older record, which `tdel` leaves when the line is given back.
The statement asks for `Keyed` of the cache's table, not for numbers that rise. -/
theorem not_directoryAndLineCacheExchange : ¬ Obligations.DirectoryAndLineCacheExchange := by
  unfold Obligations.DirectoryAndLineCacheExchange
  intro h
  have hkeyed : Keyed fallingLines.fab.lines := by unfold Keyed; decide
  have htxns : ∀ e ∈ fallingLines.fab.txns, e.2.cached = false := fun _ he => absurd he List.not_mem_nil
  obtain ⟨_, _, hcache⟩ := h fallingLines rfl
  obtain ⟨_, _, hblank, _⟩ := hcache hkeyed 0 _ rfl
  obtain ⟨t, hrun, hreset, _⟩ := hblank rfl rfl rfl htxns false
  rw [exec_cohData_blank rfl rfl rfl htxns false] at hrun
  obtain rfl := Host.Outcome.next.inj hrun
  have hstill : ((fallingLines.useLine 0 (grantedLine (fallingLines.cline 0) true false none)).dropLine 0).cline 0 = fallingLines.cline 0 := rfl
  rw [State.cline, State.emit_fab, ← State.cline, hstill] at hreset
  exact absurd (congrArg CacheLine.asking hreset) (by decide)

end Sys2Proof.Machine
end

section
/-!
PROOFS of the tiers and weights: messages that pass their first checks, far-tier objects created, sealed and freed, and the TIR and MEM messages.
-/

namespace Sys2Proof.Machine

/-! ### Messages served (R411, R418) -/

section

variable {s u : State} {m : Msg} {code : Nat} {body : State → Msg → State}

/-- A message that passes the checks every command meets first is served by its type's own body. -/
theorem serve_of_serves (h : Serves s code m) (body : State → Msg → State) : serve s code m body = body s m := by
  obtain ⟨hosc, hfirst⟩ := h
  simp [serve, hosc, hfirst]

theorem serveDeferred_of_begins (h : Begins s code m) (body : State → Msg → State) : serveDeferred s code m body = body s m := by
  obtain ⟨hserves, hroom⟩ := h
  rw [serveDeferred, serve_of_serves hserves, if_neg (by omega)]

theorem answers_of_body {st : Nat} {l : List Byte} (h : Serves s code m) (hbody : body s m = reply u code m st l) :
    Answers (.next (settle (serve s code m body))) u code m st l := by
  rw [Answers, serve_of_serves h, hbody]

theorem answers_of_deferred_body {st : Nat} {l : List Byte} (h : Begins s code m) (hbody : body s m = reply u code m st l) :
    Answers (.next (settle (serveDeferred s code m body))) u code m st l := by
  rw [Answers, serveDeferred_of_begins h, hbody]

theorem inBackground_of_body {n : Nat} (h : Begins s code m) (hbody : body s m = beginDeferred u code m n) :
    InBackground (.next (settle (serveDeferred s code m body))) u code m n := by
  rw [InBackground, serveDeferred_of_begins h, hbody, beginDeferred]

end

/-! ### Objects (R221, R222, R224) -/

section

variable {α : Type}

theorem tget_tdel_ne (d : α) (t : Tab α) {k j : Nat} (h : j ≠ k) : tget d (tdel t k) j = tget d t j := by
  induction t with
  | nil => rfl
  | cons e r ih =>
    obtain ⟨i, w⟩ := e
    unfold tdel
    split
    · next hik => rw [tget, if_neg (by omega)]
    · simp only [tget, ih]

end

section

variable (s : State)

theorem partExtents_chargeQuota (p tier : Nat) (f : Nat → Nat) :
    partExtents ((chargeQuota s p tier f).part p) tier = f (partExtents (s.part p) tier) := by
  unfold chargeQuota partExtents
  dsimp only
  rw [State.part_setPart_same]
  split <;> rfl

@[simp] theorem obj_chargeQuota (p tier : Nat) (f : Nat → Nat) (j : Nat) : (chargeQuota s p tier f).obj j = s.obj j := rfl

variable {s} {id : Nat}

/-- An object that is present leaves the table, and its extents return to its partition. -/
theorem objFree_of_present (h : (s.obj id).present = true) : objFree s id =
    chargeQuota { s with far := { s.far with objs := tdel s.far.objs id } } (s.obj id).part (s.obj id).tier (· - extents (s.obj id).size) :=
  if_pos h

/-- Where the table lists each object once, a freed object is there no longer. -/
theorem obj_objFree_of_keyed (hkeyed : Keyed s.far.objs) (h : (s.obj id).present = true) : (objFree s id).obj id = Obj.reset := by
  rw [objFree_of_present h, obj_chargeQuota]
  exact tget_tdel_of_keyed _ hkeyed

theorem obj_objFree_ne {j : Nat} (h : j ≠ id) : (objFree s id).obj j = s.obj j := by
  unfold objFree
  dsimp only
  split
  · exact tget_tdel_ne _ _ h
  · rfl

theorem partExtents_objFree (h : (s.obj id).present = true) :
    partExtents ((objFree s id).part (s.obj id).part) (s.obj id).tier =
      partExtents (s.part (s.obj id).part) (s.obj id).tier - extents (s.obj id).size := by
  rw [objFree_of_present h]
  exact partExtents_chargeQuota ..

theorem keepsMemory_objFree (s : State) (id : Nat) : KeepsMemory s (objFree s id) := by
  unfold objFree
  dsimp only
  split
  · exact keepsMemory_same _ _ rfl rfl
  · exact keepsMemory_refl s

theorem objCreate_full {p tier size : Nat} (h : canCreate s p tier size = false) (kind ttl : Nat) : objCreate s p tier kind size ttl = none := by
  simp [objCreate, h]

/-- An object that can be created enters the table, and its extents count against its partition's quota. -/
theorem objCreate_eq {p tier size : Nat} (h : canCreate s p tier size = true) (kind ttl : Nat) :
    ∃ o far l, objCreate s p tier kind size ttl = some (chargeQuota { s with far := far } p tier (· + extents size), o) ∧
      far.objs = tput s.far.objs o
        { Obj.reset with present := true, tier := tier, kind := kind, part := p, size := size, ttl := ttl, devices := l } := by
  unfold objCreate
  rw [if_neg (by simp [h])]
  refine ⟨_, _, if tier = 1 then deal 6 (extents size) (devFree s) ((devFree s).map fun _ => 0) else [], rfl, ?_⟩
  exact (apply_ite Far.objs ..).trans (ite_self _)

/-- An object that can be created is, WRITING and empty, and changes no other object. -/
theorem objCreate_new {p tier size : Nat} (h : canCreate s p tier size = true) (kind ttl : Nat) :
    ∃ u o, objCreate s p tier kind size ttl = some (u, o) ∧
      (∃ l, u.obj o = { Obj.reset with present := true, tier := tier, kind := kind, part := p, size := size, ttl := ttl, devices := l }) ∧
      (∀ j, j ≠ o → u.obj j = s.obj j) ∧ KeepsMemory s u := by
  obtain ⟨o, far, l, hcreate, hobjs⟩ := objCreate_eq h kind ttl
  refine ⟨_, o, hcreate, ⟨l, ?_⟩, fun j hj => ?_, keepsMemory_same _ _ rfl rfl⟩
  · rw [obj_chargeQuota, State.obj, hobjs, tget_tput_same]
  · rw [obj_chargeQuota, State.obj, hobjs, tget_tput_ne _ _ _ hj, State.obj]

theorem objOf_iff {p : Nat} : objOf s p id = true ↔ (s.obj id).present = true ∧ (s.obj id).part = p := by
  simp [objOf]

end

/-! ### TIR messages (R421) -/

section

variable {s : State} {m : Msg}

theorem tirCreate_answers (h : Serves s 0x0401 m) (htier : ble m.payload 0 1 = 1 ∨ ble m.payload 0 1 = 2)
    (hkind : ble m.payload 1 1 = okWEIGHT ∨ ble m.payload 1 1 = okHOST) (hpos : ble m.payload 8 8 ≠ 0) (hmax : ble m.payload 8 8 ≤ 2 ^ 40) :
    (tierPresent s (ble m.payload 0 1) = false → Answers (exec (.tirCreate m) s) s 0x0401 m stUNIT_ABSENT []) ∧
    (tierPresent s (ble m.payload 0 1) = true → canCreate s (mp s m) (ble m.payload 0 1) (ble m.payload 8 8) = false →
      Answers (exec (.tirCreate m) s) s 0x0401 m stTIER_FULL []) ∧
    (canCreate s (mp s m) (ble m.payload 0 1) (ble m.payload 8 8) = true → ∃ u o, Answers (exec (.tirCreate m) s) u 0x0401 m stOK (leBytes 8 o) ∧
      (u.obj o).present = true ∧ (u.obj o).state = .writing ∧ (u.obj o).size = ble m.payload 8 8 ∧ (u.obj o).tier = ble m.payload 0 1 ∧
      (u.obj o).part = mp s m ∧ (u.obj o).data = [] ∧ (∀ j, j ≠ o → u.obj j = s.obj j) ∧ KeepsMemory s u) := by
  have hvalid : ¬(ble m.payload 0 1 ≠ 1 ∧ ble m.payload 0 1 ≠ 2 ∨ ble m.payload 1 1 ≠ okWEIGHT ∧ ble m.payload 1 1 ≠ okHOST ∨
      ble m.payload 8 8 = 0 ∨ 2 ^ 40 < ble m.payload 8 8) := by
    rw [not_or, not_or, not_or]
    exact ⟨by tauto, by tauto, hpos, Nat.not_lt.2 hmax⟩
  refine ⟨fun habsent => answers_of_body h ?_, fun hpresent hfull => answers_of_body h ?_, fun hroom => ?_⟩
  · unfold bodyTirCreate
    dsimp only
    rw [if_neg hvalid, if_pos (by simp [habsent])]
  · unfold bodyTirCreate
    dsimp only
    rw [if_neg hvalid, if_neg (by simp [hpresent]), objCreate_full hfull]
  · obtain ⟨u, o, hnew, ⟨l, hobj⟩, hother, hmem⟩ := objCreate_new hroom (ble m.payload 1 1) (ble m.payload 0x10 8)
    have hpresent : tierPresent s (ble m.payload 0 1) = true := by
      simp only [canCreate, Bool.and_eq_true] at hroom
      obtain ⟨⟨⟨hpresent, _⟩, _⟩, _⟩ := hroom
      exact hpresent
    refine ⟨u, o, answers_of_body h ?_, ?_⟩
    · unfold bodyTirCreate
      dsimp only
      rw [if_neg hvalid, if_neg (by simp [hpresent]), hnew]
    · rw [hobj]
      exact ⟨rfl, rfl, rfl, rfl, rfl, rfl, hother, hmem⟩

theorem tirWrite_answers (h : Begins s 0x0402 m) :
    (∀ st, tirFail s m true = some st → Answers (exec (.tirWrite m) s) s 0x0402 m st []) ∧
    (tirFail s m true = none → tirLen m = 0 → Answers (exec (.tirWrite m) s) s 0x0402 m stOK []) ∧
    (tirFail s m true = none → tirLen m ≠ 0 → InBackground (exec (.tirWrite m) s) s 0x0402 m 0) := by
  refine ⟨fun st hfail => answers_of_deferred_body h ?_, fun hok hlen => answers_of_deferred_body h ?_, fun hok hlen => inBackground_of_body h ?_⟩
  · simp only [bodyTirWrite, hfail]
  · simp only [bodyTirWrite, hok, if_pos hlen]
  · simp only [bodyTirWrite, hok, if_neg hlen]

theorem tirRead_answers (h : Begins s 0x0403 m) :
    (∀ st, tirFail s m false = some st → Answers (exec (.tirRead m) s) s 0x0403 m st []) ∧
    (tirFail s m false = none → tirLen m = 0 → Answers (exec (.tirRead m) s) s 0x0403 m stOK []) ∧
    (tirFail s m false = none → tirLen m ≠ 0 → ∃ u, InBackground (exec (.tirRead m) s) u 0x0403 m 0 ∧
      u.obj (tirId m) = { s.obj (tirId m) with readers := (s.obj (tirId m)).readers + 1 } ∧ (∀ j, j ≠ tirId m → u.obj j = s.obj j) ∧
      u = { s with far := u.far }) := by
  refine ⟨fun st hfail => answers_of_deferred_body h ?_, fun hok hlen => answers_of_deferred_body h ?_, fun hok hlen =>
    ⟨_, inBackground_of_body h ?_, State.obj_setObj_same .., fun j hj => by rw [State.obj_setObj, if_neg hj], rfl⟩⟩
  · simp only [bodyTirRead, hfail]
  · simp only [bodyTirRead, hok, if_pos hlen]
  · simp only [bodyTirRead, hok, if_neg hlen]

theorem tirSeal_answers (h : Serves s 0x0404 m) :
    (objOf s (mp s m) (tirId m) = false → Answers (exec (.tirSeal m) s) s 0x0404 m stOBJECT_UNKNOWN []) ∧
    (objOf s (mp s m) (tirId m) = true → (s.obj (tirId m)).state = .sealedObj → Answers (exec (.tirSeal m) s) s 0x0404 m stOBJECT_SEALED []) ∧
    (objOf s (mp s m) (tirId m) = true → (s.obj (tirId m)).state = .writing → ∃ u, Answers (exec (.tirSeal m) s) u 0x0404 m stOK [] ∧
      u.obj (tirId m) = { s.obj (tirId m) with
        state := .sealedObj, deadline := if (s.obj (tirId m)).ttl = 0 then 0 else s.aon + (s.obj (tirId m)).ttl } ∧
      (∀ j, j ≠ tirId m → u.obj j = s.obj j) ∧ u = { s with far := u.far }) := by
  refine ⟨fun hnone => answers_of_body h ?_, fun hof hsealed => answers_of_body h ?_, fun hof hwriting =>
    ⟨_, answers_of_body h ?_, State.obj_setObj_same .., fun j hj => by rw [State.obj_setObj, if_neg hj], rfl⟩⟩
  · simp [bodyTirSeal, hnone]
  · simp [bodyTirSeal, hof, hsealed]
  · simp [bodyTirSeal, hof, hwriting, objSeal]

theorem tirDelete_answers (h : Serves s 0x0405 m) :
    (objOf s (mp s m) (tirId m) = false → Answers (exec (.tirDelete m) s) s 0x0405 m stOBJECT_UNKNOWN []) ∧
    (objOf s (mp s m) (tirId m) = true → (s.obj (tirId m)).state = .sealedObj → 0 < (s.obj (tirId m)).readers →
      ∃ u, Answers (exec (.tirDelete m) s) u 0x0405 m stOK [] ∧
        u.obj (tirId m) = { s.obj (tirId m) with state := .expiring, afterDelete := true } ∧ (∀ j, j ≠ tirId m → u.obj j = s.obj j) ∧
        u = { s with far := u.far }) ∧
    (objOf s (mp s m) (tirId m) = true → (s.obj (tirId m)).state ≠ .expiring →
      ¬((s.obj (tirId m)).state = .sealedObj ∧ 0 < (s.obj (tirId m)).readers) → Keyed s.far.objs →
      ∃ u, Answers (exec (.tirDelete m) s) u 0x0405 m stOK [] ∧ (u.obj (tirId m)).present = false ∧ (∀ j, j ≠ tirId m → u.obj j = s.obj j) ∧
        partExtents (u.part (mp s m)) (s.obj (tirId m)).tier =
          partExtents (s.part (mp s m)) (s.obj (tirId m)).tier - extents (s.obj (tirId m)).size ∧ KeepsMemory s u) := by
  refine ⟨fun hnone => answers_of_body h ?_, fun hof hsealed hread =>
    ⟨_, answers_of_body h ?_, State.obj_setObj_same .., fun j hj => by rw [State.obj_setObj, if_neg hj], rfl⟩, fun hof hstate hidle hkeyed => ?_⟩
  · simp [bodyTirDelete, hnone]
  · simp [bodyTirDelete, hof, hsealed, hread]
  · obtain ⟨hpresent, hpart⟩ := objOf_iff.1 hof
    refine ⟨objFree s (tirId m), answers_of_body h ?_, ?_, fun j hj => obj_objFree_ne hj, ?_, keepsMemory_objFree ..⟩
    · unfold bodyTirDelete
      dsimp only
      rw [if_neg (by simp [hof]), if_neg hidle, if_neg hstate]
    · rw [obj_objFree_of_keyed hkeyed hpresent]
      rfl
    · rw [← hpart]
      exact partExtents_objFree hpresent

end

/-! ### MEM messages (R421, R428) -/

/-- The body of MEM.READ and of MEM.WRITE, by its type's code. -/
def memBody (code : Nat) (s : State) (m : Msg) : State :=
  match memFail s m with
  | some st => reply s code m st []
  | none => if memLen m = 0 then reply s code m stOK [] else beginDeferred s code m 0

theorem memBody_answers {s : State} {m : Msg} {code : Nat} {o : Host.Outcome State Fault Refusal} (h : Begins s code m)
    (ho : o = .next (settle (serveDeferred s code m (memBody code)))) :
    (∀ st, memFail s m = some st → Answers o s code m st []) ∧ (memFail s m = none → memLen m = 0 → Answers o s code m stOK []) ∧
    (memFail s m = none → memLen m ≠ 0 → InBackground o s code m 0) := by
  subst ho
  refine ⟨fun st hfail => answers_of_deferred_body h ?_, fun hok hlen => answers_of_deferred_body h ?_, fun hok hlen => inBackground_of_body h ?_⟩
  · simp only [memBody, hfail]
  · simp only [memBody, hok, if_pos hlen]
  · simp only [memBody, hok, if_neg hlen]

theorem bodyMemRead_eq : bodyMemRead = memBody 0x0601 := rfl

theorem bodyMemWrite_eq : bodyMemWrite = memBody 0x0602 := rfl

/-- Settles O46: a message past its first checks is served by its own body, which answers by what its object or its range is. -/
theorem tierAndMemoryMessagesAct : Obligations.TierAndMemoryMessagesAct := by
  unfold Obligations.TierAndMemoryMessagesAct
  rintro s m p id rfl rfl
  refine ⟨?create, tirWrite_answers, tirRead_answers, tirSeal_answers, tirDelete_answers, ?status, ?memory⟩
  case create =>
    rintro h tier kind size rfl rfl rfl htier hkind hpos hmax
    exact tirCreate_answers h htier hkind hpos hmax
  case status =>
    intro h hof
    exact answers_of_body h (if_neg (by simp [hof]))
  case memory =>
    intro code c hc h
    rw [List.mem_pair, Prod.mk.injEq, Prod.mk.injEq] at hc
    obtain ⟨rfl, rfl⟩ | ⟨rfl, rfl⟩ := hc
    · exact memBody_answers h (bodyMemRead_eq ▸ rfl)
    · exact memBody_answers h (bodyMemWrite_eq ▸ rfl)

end Sys2Proof.Machine
end

section
/-!
PROOFS of the tiers and weights: two refutations by a table that lists a number twice. `tdel` takes away a number's first record only, so the record of an
object freed, or of a cache slot emptied, is still there. `obj_objFree_of_keyed` is the first clause for a table without that fault.
-/

namespace Sys2Proof.Machine

/-! ### An object whose deadline has passed (R222) -/

/-- A sealed object past its deadline, with no read in progress, is freed. -/
theorem exec_objectTtlExpiry_free {s : State} {id : Nat} (hpresent : (s.obj id).present = true) (hsealed : (s.obj id).state = .sealedObj)
    (httl : (s.obj id).ttl ≠ 0) (hdue : (s.obj id).deadline ≤ s.aon) (hidle : (s.obj id).readers = 0) :
    exec (.objectTtlExpiry id) s = .next (objFree (recordGone s id) id) := by
  change execObjectTtlExpiry id s = _
  unfold execObjectTtlExpiry
  dsimp only
  rw [if_neg (by simp [hpresent, hsealed, httl, hdue]), if_pos hidle]

/-- A sealed object of TTL 1, its deadline at AON count 0. -/
def expiredObj : Obj := { Obj.reset with present := true, state := .sealedObj, ttl := 1 }

/-- A package whose far-tier table lists object 0 twice. -/
def twiceListed : State := { State.reset with far := { State.reset.far with objs := [(0, expiredObj), (0, expiredObj)] } }

/-- Refutes O28: an object that the table lists twice is still present once it has been freed. The statement does not ask for `Keyed` of that table. -/
theorem not_nandBlocksMoveAndObjectsExpire : ¬ Obligations.NandBlocksMoveAndObjectsExpire := by
  unfold Obligations.NandBlocksMoveAndObjectsExpire
  intro h
  obtain ⟨_, hexpiry, _⟩ := h twiceListed
  obtain ⟨hfreed, _⟩ := hexpiry 0 rfl rfl (by decide) le_rfl
  obtain ⟨t, hrun, hgone, _⟩ := hfreed rfl
  rw [exec_objectTtlExpiry_free rfl rfl (by decide) le_rfl rfl] at hrun
  obtain rfl := Host.Outcome.next.inj hrun
  have hstill : ((objFree (recordGone twiceListed 0) 0).obj 0).present = true := rfl
  exact absurd (hstill.symm.trans hgone) (by decide)

/-! ### A predicted fetch that fails (R250, R251) -/

/-- A predicted fetch that fails, of a unit no object holds, takes its slot's record out of the cache. -/
theorem exec_cacheFetchComplete_failed {s : State} {p st i : Nat} (hs : Settled s) (hi : i < (s.part p).cslots)
    (hfetch : ((s.part p).cslot st i).state = .fetching) (hpredicted : ((s.part p).cslot st i).predicted = true)
    (hcold : coldObject s p ((s.part p).cslot st i) st = none) : exec (.cacheFetchComplete p st i false) s =
      .next (s.setPart p { s.part p with cache := tdel (s.part p).cache (cacheKey st i) }) := by
  rw [← settle_of_settled (t := s.setPart p { s.part p with cache := tdel (s.part p).cache (cacheKey st i) }) hs rfl]
  change execCacheFetchComplete p st i false s = _
  unfold execCacheFetchComplete
  dsimp only
  rw [if_neg (by simp [hfetch, hi]), if_neg (by decide), if_pos hpredicted, hcold]

/-- A slot that a predicted fetch fills. -/
def predictedSlot : CSlot := { CSlot.reset with state := .fetching, predicted := true }

/-- A package whose partition 0 has an expert cache of one slot, which the cache lists twice. -/
def twiceCached : State := { State.reset with parts := [(0, { Part.reset with cslots := 1, cache := [(0, predictedSlot), (0, predictedSlot)] })] }

theorem twiceCached_settled : Settled twiceCached := fun f _ => by
  rw [show twiceCached.fn f = State.reset.fn f from rfl, State.fn_reset]
  rfl

/-- Refutes O32: a slot that the cache lists twice is still FETCHING once its predicted fetch has failed. The statement does not ask for `Keyed` of the
cache. -/
theorem not_coldUnitsAndStreamPagesAreFetched : ¬ Obligations.ColdUnitsAndStreamPagesAreFetched := by
  unfold Obligations.ColdUnitsAndStreamPagesAreFetched
  intro h
  obtain ⟨_, hcomplete, _⟩ := h twiceCached 0 twiceCached_settled
  obtain ⟨_, hfails⟩ := hcomplete 0 0 (by decide) rfl
  obtain ⟨t, hrun, hempty, _⟩ := hfails rfl rfl
  rw [exec_cacheFetchComplete_failed twiceCached_settled (by decide) rfl rfl rfl] at hrun
  obtain rfl := Host.Outcome.next.inj hrun
  rw [State.part_setPart_same] at hempty
  have hstill : tget CSlot.reset (tdel (twiceCached.part 0).cache (cacheKey 0 0)) (cacheKey 0 0) = predictedSlot := rfl
  exact absurd (congrArg CSlot.state (hstill.symm.trans hempty)) (by decide)

end Sys2Proof.Machine
end

section
/-!
PROOFS of the tiers and weights: Pinned activation (R239 to R243, R589). What a message to every package of a job sends, how a generation is found among the
others, and what its activation leaves.
-/

namespace Sys2Proof.Machine

/-! ### What is sent -/

/-- Nothing but the fabric's and the energy account's own state differs, and something more may have left the package. -/
def SendWork (s t : State) : Prop := ∃ f e l, t = { s with fab := f, energy := e, out := s.out ++ l }

theorem SendWork.refl (s : State) : SendWork s s := ⟨s.fab, s.energy, [], by rw [List.append_nil]⟩

theorem SendWork.trans {s t u : State} (h : SendWork s t) (g : SendWork t u) : SendWork s u := by
  obtain ⟨_, _, l, rfl⟩ := h
  obtain ⟨f, e, l', rfl⟩ := g
  exact ⟨f, e, l ++ l', by rw [List.append_assoc]⟩

theorem sendWork_foldl {α : Type} {f : State → α → State} (h : ∀ s a, SendWork s (f s a)) (l : List α) (s : State) : SendWork s (l.foldl f s) :=
  foldl_keeps (SendWork s) f l s (.refl s) fun t ht a _ => ht.trans (h t a)

theorem sendWork_send (s : State) (d : Dest) (m : FwMsg) : SendWork s (s.send d m) := by
  unfold State.send
  split
  · exact .refl s
  · exact ⟨_, s.energy, _, rfl⟩

theorem sendWork_count (s : State) (ctx cls n : Nat) : SendWork s (s.count ctx cls n) := by
  unfold State.count
  split
  · exact .refl s
  · exact ⟨s.fab, _, [], by rw [List.append_nil]⟩

theorem sendWork_sendJob (s : State) (p : Nat) (m : FwMsg) : SendWork s (sendJob s p m) := sendWork_foldl (fun s n => sendWork_send s (.node n) m) _ s

theorem SendWork.part {s t : State} (h : SendWork s t) (q : Nat) : t.part q = s.part q := by
  obtain ⟨_, _, _, rfl⟩ := h
  rfl

/-- What has left the package has left it for good. -/
theorem SendWork.tells {s t : State} (h : SendWork s t) {d : Dest} {m : FwMsg} (ht : Tells s d m) : Tells t d m := by
  obtain ⟨_, _, l, rfl⟩ := h
  exact ht.imp fun _ hm => List.mem_append_left l hm

theorem tells_send {s : State} (hosc : s.entry.oscDead = false) (d : Dest) (m : FwMsg) : Tells (s.send d m) d m := by
  rw [State.send, if_neg (by simp [hosc])]
  exact ⟨s.fab.pseq, List.mem_append_right _ (List.mem_singleton_self _)⟩

/-- A message goes to every node of a list. -/
theorem tells_foldl_send {l : List Nat} {s : State} (hosc : s.entry.oscDead = false) (m : FwMsg) :
    ∀ n ∈ l, Tells (l.foldl (fun s n => s.send (.node n) m) s) (.node n) m := by
  induction l generalizing s with
  | nil => exact fun n hn => absurd hn List.not_mem_nil
  | cons a l ih =>
    rintro n (_ | ⟨_, hn⟩)
    · exact (sendWork_foldl (fun s n => sendWork_send s (.node n) m) l _).tells (tells_send hosc _ m)
    · exact ih (by rw [State.send_entry, hosc]) n hn

theorem tells_sendJob {s : State} (hosc : s.entry.oscDead = false) (p : Nat) (m : FwMsg) : ∀ n ∈ partNodes s p, Tells (sendJob s p m) (.node n) m :=
  tells_foldl_send hosc m

/-- The packages of a partition's jobs are those its bundles name. -/
theorem partNodes_setPart (s : State) {p : Nat} {x : Part} (h : x.bundles = (s.part p).bundles) : partNodes (s.setPart p x) p = partNodes s p := by
  unfold partNodes
  rw [State.part_setPart_same, h]
  rfl

/-- A deferred command's result changes the host port alone. -/
theorem decided_rest (s : State) (path : Nat) (tag : Word32) (st : Nat) : ∃ m, decide_ s path tag st = { s with mbx := m } := by
  unfold decide_ setDeferred
  split
  · exact ⟨_, rfl⟩
  · exact ⟨_, rfl⟩

theorem part_decided (s : State) (path : Nat) (tag : Word32) (st q : Nat) : (decide_ s path tag st).part q = s.part q := by
  obtain ⟨_, h⟩ := decided_rest s path tag st
  rw [h]
  rfl

theorem tells_decided {s : State} {d : Dest} {m : FwMsg} (h : Tells s d m) (path : Nat) (tag : Word32) (st : Nat) :
    Tells (decide_ s path tag st) d m := by
  obtain ⟨_, hrest⟩ := decided_rest s path tag st
  rw [hrest]
  exact h

/-! ### Bytes forced into near memory -/

/-- Nothing but the stacks, the energy account and what has left the package differs. -/
def StackWork (s t : State) : Prop := ∃ b e o, t = { s with beside := b, energy := e, out := o }

theorem StackWork.refl (s : State) : StackWork s s := ⟨_, _, _, rfl⟩

theorem StackWork.trans {s t u : State} (h : StackWork s t) (g : StackWork t u) : StackWork s u := by
  obtain ⟨_, _, _, rfl⟩ := h
  obtain ⟨b, e, o, rfl⟩ := g
  exact ⟨b, e, o, rfl⟩

theorem stackWork_foldl {α : Type} {f : State → α → State} (h : ∀ s a, StackWork s (f s a)) (l : List α) (s : State) : StackWork s (l.foldl f s) :=
  foldl_keeps (StackWork s) f l s (.refl s) fun t ht a _ => ht.trans (h t a)

section

variable (s : State)

theorem stackWork_setBdie (d : Nat) (x : BesideDie) : StackWork s (s.setBdie d x) := ⟨_, _, _, rfl⟩

theorem stackWork_emit (o : Out) : StackWork s (s.emit o) := by
  unfold State.emit
  split
  · exact .refl s
  · exact ⟨_, _, _, rfl⟩

theorem stackWork_count (ctx cls n : Nat) : StackWork s (s.count ctx cls n) := by
  unfold State.count
  split
  · exact .refl s
  · exact ⟨_, _, _, rfl⟩

theorem stackWork_checkLine (st line : Nat) (errs : List EccErr) : StackWork s (checkLine s st line errs) := by
  unfold checkLine
  dsimp only
  split
  · exact .refl s
  split
  · exact .refl s
  split <;> exact stackWork_setBdie ..

theorem stackWork_applyLine (st line off : Nat) (data : List Byte) (poison : Bool) (errs : List EccErr) :
    StackWork s (applyLine s st line off data poison errs) := by
  unfold applyLine
  refine .trans ?_ (stackWork_setBdie ..)
  split
  · exact .refl s
  · exact stackWork_checkLine ..

theorem stackWork_sendProbe (st line : Nat) : StackWork s (sendProbe s st line) := by
  unfold sendProbe
  split
  · exact stackWork_emit ..
  · exact .refl s

theorem stackWork_openWait (st line : Nat) (j : LineJob) : StackWork s (openWait s st line j) := by
  unfold openWait
  dsimp only
  split
  · exact stackWork_setBdie ..
  · split
    · exact (stackWork_setBdie ..).trans (stackWork_sendProbe ..)
    · exact stackWork_setBdie ..

theorem stackWork_writeLine (r : State × List (Nat × Nat)) (st line off : Nat) (data : List Byte) (poison : Bool) (errs : List EccErr) :
    StackWork r.1 (writeLine r st line off data poison errs).1 := by
  unfold writeLine
  split
  · exact stackWork_openWait ..
  · exact stackWork_applyLine ..

theorem stackWork_stackWrite (n : Nat) (r : State × List (Nat × Nat)) (st off : Nat) (data : List Byte) (poison : Bool) (errs : List EccErr) :
    StackWork r.1 (stackWrite n r st off data poison errs).1 := by
  induction n generalizing r off data with
  | zero => exact .refl r.1
  | succ n ih =>
    unfold stackWrite
    split
    · exact .refl r.1
    · exact (stackWork_writeLine ..).trans (ih ..)

theorem stackWork_forceWrite (p na : Nat) (l : List Byte) : StackWork s (forceWrite s p na l) := stackWork_stackWrite ..

theorem stackWork_reloadImage (p : Nat) (g : Gen) (i : Nat) : StackWork s (reloadImage s p g i) := by
  unfold reloadImage
  dsimp only
  split
  · split
    · exact .refl s
    · exact (stackWork_forceWrite ..).trans (stackWork_count ..)
  · exact .refl s

end

/-! ### Generations found (R239, R240) -/

section

variable {x : Part} {model num : Nat} {g : Gen}

theorem gen?_some (h : x.gen? model num = some g) : g.model = model ∧ g.number = num := by
  simpa using List.find?_some h

/-- A generation changed in place, its model and number kept, is found where it was; so is every other. -/
theorem gen?_modGen {f : Gen → Gen} (hf : ∀ y, (f y).model = y.model ∧ (f y).number = y.number) (m k : Nat) :
    (x.modGen m k f).gen? model num = (x.gen? model num).map fun y => if y.model = m ∧ y.number = k then f y else y := by
  unfold Part.gen? Part.modGen
  rw [List.find?_map]
  congr 2
  funext y
  simp only [Function.comp]
  split
  · rw [(hf y).1, (hf y).2]
  · rfl

theorem gen?_modGen_state (st : GenState) (m k : Nat) : (x.modGen m k fun y => { y with state := st }).gen? model num =
    (x.gen? model num).map fun y => if y.model = m ∧ y.number = k then { y with state := st } else y :=
  gen?_modGen (f := fun y => { y with state := st }) (fun _ => ⟨rfl, rfl⟩) m k

/-- With the generations of one number taken away, one of another number is found where it was. -/
theorem gen?_filter {m k : Nat} (hne : k ≠ num) :
    ({ x with gens := x.gens.filter fun y => !(y.model == m && y.number == k) } : Part).gen? model num = x.gen? model num := by
  unfold Part.gen?
  dsimp only
  rw [List.find?_filter]
  congr 1
  funext y
  by_cases hy : y.number = num
  · simp [hy, hne.symm, Bool.beq_eq_decide_eq]
  · simp [hy]

end

theorem part_modGen (s : State) (p : Nat) (g : Gen) (f : Gen → Gen) : (modGen s p g f).part p = (s.part p).modGen g.model g.number f :=
  State.part_setPart_same ..

theorem gens_objFree (s : State) (id q : Nat) : ((objFree s id).part q).gens = (s.part q).gens := by
  unfold objFree
  dsimp only
  split
  · unfold chargeQuota
    rw [State.part_setPart]
    split
    · next hq =>
      subst hq
      split <;> rfl
    · rfl
  · rfl

/-- A generation freed leaves its partition's other generations. -/
theorem gens_freeGen (s : State) (p : Nat) (g : Gen) :
    ((freeGen s p g).part p).gens = (s.part p).gens.filter fun y => !(y.model == g.model && y.number == g.number) := by
  unfold freeGen
  extract_lets s1 s2
  have h1 : s1.part p = s.part p := by
    simp only [s1]
    split
    · rfl
    · obtain ⟨b, h⟩ := unprotectGen_beside_only s p g
      rw [h]
      rfl
  have h2 : (s2.part p).gens = (s.part p).gens :=
    foldl_keeps (fun t => (t.part p).gens = (s.part p).gens) objFree _ s1 (congrArg Part.gens h1) fun t ht id _ => (gens_objFree t id p).trans ht
  rw [State.part_setPart_same]
  exact congrArg _ h2

theorem gen?_congr {x y : Part} (h : y.gens = x.gens) (model num : Nat) : y.gen? model num = x.gen? model num := by rw [Part.gen?, h, Part.gen?]

/-! ### The votes (R242, R243) -/

section

variable {s : State} {p : Nat} {a : Activation}

/-- An activation that ends without a decision of its own leaves its partition's generations. -/
theorem decided_act (p path : Nat) (tag : Word32) (st : Nat) :
    ((decide_ (s.setPart p { s.part p with act := none }) path tag st).part p).act = none ∧
      ((decide_ (s.setPart p { s.part p with act := none }) path tag st).part p).gens = (s.part p).gens := by
  rw [part_decided, State.part_setPart_same]
  exact ⟨rfl, rfl⟩

theorem exec_genVote_no {src : Nat} (hact : (s.part p).act = some a) (hwaits : a.waiting.contains src = true) :
    exec (.genVote src p a.model a.gen false) s = .next (decide_ (s.setPart p { s.part p with act := none }) a.path a.tag stCUTOVER_ABORTED) := by
  change execGenVote src p a.model a.gen false s = _
  unfold execGenVote
  dsimp only
  rw [hact]
  exact congrArg _ ((if_pos ⟨rfl, rfl, hwaits⟩).trans (if_pos rfl))

theorem exec_genVote_yes {src : Nat} (hact : (s.part p).act = some a) (hwaits : a.waiting.contains src = true) :
    exec (.genVote src p a.model a.gen true) s = .next (if (a.waiting.filter (· != src)).isEmpty then
        decide_ (sendJob (s.setPart p { s.part p with act := none }) p (.genCommit p a.model a.gen)) a.path a.tag stOK
      else s.setPart p { s.part p with act := some { a with waiting := a.waiting.filter (· != src) } }) := by
  change execGenVote src p a.model a.gen true s = _
  unfold execGenVote
  dsimp only
  rw [hact]
  exact congrArg _ ((if_pos ⟨rfl, rfl, hwaits⟩).trans (if_neg (by decide)))

/-- The last yes ends the activation and tells every package of the partition's jobs to commit. -/
theorem genVote_last {src : Nat} (hosc : s.entry.oscDead = false) (hact : (s.part p).act = some a) (hwaits : a.waiting.contains src = true)
    (hlast : a.waiting.filter (· != src) = []) :
    ∃ t, exec (.genVote src p a.model a.gen true) s = .next t ∧ (t.part p).act = none ∧ (t.part p).gens = (s.part p).gens ∧
      ∀ n ∈ partNodes s p, Tells t (.node n) (.genCommit p a.model a.gen) := by
  refine ⟨_, (exec_genVote_yes hact hwaits).trans (congrArg _ (if_pos (by rw [hlast]; rfl))), ?_⟩
  rw [part_decided, (sendWork_sendJob ..).part, State.part_setPart_same]
  refine ⟨rfl, rfl, fun n hn => tells_decided (tells_sendJob (s := s.setPart p _) hosc p _ n ?_) ..⟩
  exact (partNodes_setPart (x := { s.part p with act := none }) s rfl).symm ▸ hn

theorem exec_activateVoteTimeout (hact : (s.part p).act = some a) (hdue : a.startedAt + msAon (s.cfg 0x0302) / 2 ≤ s.aon) :
    exec (.activateVoteTimeout p a.model) s = .next (decide_ (s.setPart p { s.part p with act := none }) a.path a.tag stCUTOVER_ABORTED) := by
  change execActivateVoteTimeout p a.model s = _
  unfold execActivateVoteTimeout
  dsimp only
  rw [hact]
  exact congrArg _ (if_pos ⟨rfl, hdue⟩)

end

/-! ### The commit (R239, R242) -/

section

variable {s : State} {p model gen : Nat} {g : Gen}

/-- What GEN_COMMIT does with the former LIVE generation. -/
def retireGen (s : State) (p : Nat) (old : Option Gen) : State :=
  match old with
  | some o => if o.bound = 0 then freeGen s p o else modGen s p o fun x => { x with state := .draining }
  | none => s

theorem exec_genCommit (hgen : (s.part p).gen? model gen = some g) (hsealed : g.state = .sealedGen) :
    exec (.genCommit p model gen) s = .next (retireGen (modGen s p g fun x => { x with state := .live }) p ((s.part p).live? model)) := by
  change execGenCommit p model gen s = _
  unfold execGenCommit
  rw [hgen]
  exact congrArg _ (if_pos hsealed)

/-- The former LIVE generation, of another number, goes without the new one. -/
theorem gen?_retireGen (old : Option Gen) (hother : ∀ o, old = some o → o.number ≠ gen) :
    ((retireGen s p old).part p).gen? model gen = (s.part p).gen? model gen := by
  unfold retireGen
  split
  · next o =>
    have hne := hother o rfl
    split
    · exact (gen?_congr (y := (freeGen s p o).part p) (gens_freeGen s p o) model gen).trans (gen?_filter hne)
    · rw [part_modGen, gen?_modGen_state]
      cases hfound : (s.part p).gen? model gen with
      | none => rfl
      | some y => exact congrArg some (if_neg fun h => hne (h.2.symm.trans (gen?_some hfound).2))
  · rfl

theorem genCommit_commits (hgen : (s.part p).gen? model gen = some g) (hsealed : g.state = .sealedGen)
    (hother : ∀ o, (s.part p).live? model = some o → o.number ≠ gen) :
    ∃ t, exec (.genCommit p model gen) s = .next t ∧ (t.part p).gen? model gen = some { g with state := .live } ∧
      ∀ o, (s.part p).live? model = some o → o.bound ≠ 0 → (s.part p).gen? model o.number = some o →
        (t.part p).gen? model o.number = some { o with state := .draining } ∧ t = { s with parts := t.parts } := by
  obtain ⟨_, hnum⟩ := gen?_some hgen
  refine ⟨_, exec_genCommit hgen hsealed, ?_, fun o hlive hbound hfound => ⟨?_, ?_⟩⟩
  · rw [gen?_retireGen _ hother, part_modGen, gen?_modGen_state, hgen]
    exact congrArg some (if_pos ⟨rfl, rfl⟩)
  · have hkept : ((modGen s p g fun y => { y with state := .live }).part p).gen? model o.number = some o := by
      rw [part_modGen, gen?_modGen_state, hfound]
      exact congrArg some (if_neg fun h => hother o hlive (h.2.trans hnum))
    rw [hlive, retireGen, if_neg hbound, part_modGen, gen?_modGen_state, hkept]
    exact congrArg some (if_pos ⟨rfl, rfl⟩)
  · rw [hlive, retireGen, if_neg hbound]
    rfl

end

/-! ### The reload (R589) -/

theorem genReloadDone_ends {s : State} {p model gen : Nat} {g : Gen} (hosc : s.entry.oscDead = false) (hgen : (s.part p).gen? model gen = some g)
    (hreload : g.reloading = true) (hon : s.power.besideOn = true) (husable : ∀ e ∈ g.copies, (s.obj e.2).present = true ∧ (s.obj e.2).state ≠ .damaged) :
    ∃ t, exec (.genReloadDone p model gen) s = .next t ∧ (t.part p).gen? model gen = some { g with reloading := false } ∧
      (∀ q, q ≠ p → t.part q = s.part q) ∧ t.cores = s.cores ∧ t.far = s.far := by
  obtain ⟨b, e, o, hreloaded⟩ := stackWork_foldl (fun s i => stackWork_reloadImage s p g i) (List.range 12) s
  have hall : (g.copies.all fun e => (s.obj e.2).present && (s.obj e.2).state != .damaged) = true :=
    List.all_eq_true.2 fun e he => by simp [husable e he]
  refine ⟨modGen { s with beside := b, energy := e, out := o } p g fun y => { y with reloading := false }, ?_, ?_, fun q hq => ?_, rfl, rfl⟩
  · change execGenReloadDone p model gen s = _
    unfold execGenReloadDone
    rw [hgen, ← hreloaded]
    exact congrArg _ (if_neg (by simp [hreload, hall, hon, hosc]))
  · have hfound : (State.part { s with beside := b, energy := e, out := o } p).gen? model gen = some g := hgen
    rw [part_modGen, gen?_modGen (f := fun y => { y with reloading := false }) fun _ => ⟨rfl, rfl⟩, hfound]
    exact congrArg some (if_pos ⟨rfl, rfl⟩)
  · rw [modGen, State.part_setPart, if_neg hq]
    rfl

/-- Settles O30: a vote changes the activation it is for, and a commit or a reload the generation it names, found by its model and number. -/
theorem activationCommitsOnEveryYes : Obligations.ActivationCommitsOnEveryYes := by
  unfold Obligations.ActivationCommitsOnEveryYes
  intro s hosc
  refine ⟨fun src p model gen hfrom => congrArg _ (if_pos hfrom), fun src p a hact hwaits => ⟨?no, ?more, genVote_last hosc hact hwaits⟩,
    fun p a hact hdue => ?timeout, fun p model gen g => genCommit_commits, fun p model gen g => genReloadDone_ends hosc⟩
  case no =>
    obtain ⟨hnone, hgens⟩ := decided_act (s := s) p a.path a.tag stCUTOVER_ABORTED
    exact ⟨_, exec_genVote_no hact hwaits, hnone, hgens, rfl⟩
  case more => exact fun hmore => (exec_genVote_yes hact hwaits).trans (congrArg _ (if_neg (by rwa [List.isEmpty_iff])))
  case timeout =>
    obtain ⟨hnone, hgens⟩ := decided_act (s := s) p a.path a.tag stCUTOVER_ABORTED
    exact ⟨_, exec_activateVoteTimeout hact hdue, hnone, hgens, rfl⟩

end Sys2Proof.Machine
end

section
/-!
PROOFS of the tiers and weights: the load window, the hash of a chunk, and relay (R232, R233, R236, R404). Where the bytes of an image are written, and what
goes on to a relay's targets once a chunk is complete.
-/

namespace Sys2Proof.Machine

/-! ### What goes on to the targets of a relay -/

section

variable {s t : State}

theorem SendWork.cores (h : SendWork s t) : t.cores = s.cores := by
  obtain ⟨_, _, _, rfl⟩ := h
  rfl

theorem SendWork.beside (h : SendWork s t) : t.beside = s.beside := by
  obtain ⟨_, _, _, rfl⟩ := h
  rfl

theorem SendWork.far (h : SendWork s t) : t.far = s.far := by
  obtain ⟨_, _, _, rfl⟩ := h
  rfl

theorem SendWork.fn (h : SendWork s t) (f : Nat) : t.fn f = s.fn f := by
  obtain ⟨_, _, _, rfl⟩ := h
  rfl

theorem sendWork_sendChunk (s : State) (p : Nat) (g : Gen) (i c : Nat) (nodes : List Nat) : SendWork s (sendChunk s p g i c nodes) :=
  sendWork_foldl (fun _ _ => (sendWork_send ..).trans (sendWork_count ..)) nodes s

theorem sendWork_relayOn (s : State) (p : Nat) (g : Gen) (i c : Nat) : SendWork s (relayOn s p g i c) := by
  unfold relayOn
  split
  · exact .refl s
  · split
    · exact sendWork_sendChunk ..
    · exact .refl s

theorem sendWork_relayRange (s : State) (p : Nat) (old : Gen) (i off n : Nat) : SendWork s (relayRange s p old i off n) := by
  unfold relayRange
  split
  · exact .refl s
  · exact sendWork_foldl (fun s (x : Nat × Nat) => sendWork_relayOn s p _ x.1 x.2) _ s

end

/-! ### The bytes of an image -/

section

variable {s u v : State} {st off : Nat} {data : List Byte}

/-- Once a run is written, a state with the same cores and stacks differs from the first in that run alone. -/
theorem BytesWritten.stack (h : BytesWritten s u st off data) (hcores : v.cores = u.cores) (hbeside : v.beside = u.beside) :
    (∀ i, i < data.length → nearByte v st (off + i) = (data[i]?).getD 0) ∧ StackExcept s v [(st, off, data.length)] ∧ v.cores = s.cores := by
  have hmem (d a : Nat) : nearByte v d a = nearByte u d a := by rw [nearByte, State.bdie, hbeside, ← State.bdie, nearByte]
  refine ⟨fun i hi => ?_, fun d a hout => ?_, hcores.trans h.cores⟩
  · rw [hmem, h.mem, if_pos ⟨rfl, by omega, by omega⟩, Nat.add_sub_cancel_left]
  · rw [hmem, h.mem, if_neg]
    rintro ⟨hd, h1, h2⟩
    have := hout _ List.mem_cons_self hd.symm
    dsimp only at this
    omega

end

section

variable {s : State} {p : Nat} {g : Gen} {i off : Nat} {l : List Byte}

theorem forceWrite_bytes {na : Nat} (h : ∀ k ∈ linesOf (physOff s p na) l.length, lineHeld s (naStack na) k = false) :
    BytesWritten s (forceWrite s p na l) (naStack na) (physOff s p na) l :=
  stackWrite_bytes _ s [] _ _ l false [] (fun _ he => absurd he List.not_mem_nil) (by omega) h

/-- Bytes that all lie in an image's near part are written into its stack. -/
theorem genWrite_near (hfit : off + l.length ≤ g.nearLen (s.part p) i) :
    genWrite s p g i off l = if l.length = 0 then s else (forceWrite s p (g.near i off) l).count ovCtx 6 l.length := by
  unfold genWrite
  dsimp only
  rw [Nat.min_eq_left (Nat.le_sub_of_add_le' hfit), if_neg (Nat.lt_irrefl _), List.take_length]

/-- What bytes written into the near part of an image leave: the stack's bytes, and the state but for stacks, energy and what is sent. -/
theorem genWrite_near_written (hfit : off + l.length ≤ g.nearLen (s.part p) i)
    (hfree : ∀ k ∈ linesOf (physOff s p (g.near i off)) l.length, lineHeld s (naStack (g.near i off)) k = false) :
    StackWork s (genWrite s p g i off l) ∧
      ∃ u, BytesWritten s u (naStack (g.near i off)) (physOff s p (g.near i off)) l ∧ (genWrite s p g i off l).cores = u.cores ∧
        (genWrite s p g i off l).beside = u.beside := by
  have hbytes := forceWrite_bytes hfree
  rw [genWrite_near hfit]
  split
  · next hempty =>
    obtain rfl := List.eq_nil_of_length_eq_zero hempty
    exact ⟨.refl s, s, ⟨.refl s, rfl, fun d a => by simp⟩, rfl, rfl⟩
  · exact ⟨(stackWork_forceWrite ..).trans (stackWork_count ..), _, hbytes, State.count_cores .., State.count_beside ..⟩

/-- Writes of an object change the NAND blocks' records and the energy account alone. -/
theorem farWrites_rest (s : State) (ctx id off n : Nat) :
    ∃ b e, farWrites s ctx id off n = { s with far := { s.far with blocks := b }, energy := e } := by
  unfold farWrites
  dsimp only
  have hblocks : ∃ b, (if (s.obj id).tier = 2 then
      (blocksOf s id off n).foldl (fun s b => s.setBlock b { s.block b with writtenAt := s.aon, mapped := true }) s else s) =
      { s with far := { s.far with blocks := b } } := by
    split
    · refine foldl_keeps (fun t : State => ∃ b, t = { s with far := { s.far with blocks := b } }) _ _ s ⟨_, rfl⟩ fun t ht a _ => ?_
      obtain ⟨b, rfl⟩ := ht
      exact ⟨_, rfl⟩
    · exact ⟨_, rfl⟩
  obtain ⟨b, hb⟩ := hblocks
  rw [hb]
  unfold State.count
  split
  · exact ⟨b, s.energy, rfl⟩
  · exact ⟨b, _, rfl⟩

/-- Bytes that all lie beyond an image's near part are written into its object. -/
theorem genWrite_far_written (hfar : g.nearLen (s.part p) i ≤ off) :
    (∀ k, k < l.length → objByte (genWrite s p g i off l) (tget 0 g.objs i) (off - g.nearLen (s.part p) i + k) = (l[k]?).getD 0) ∧
      (genWrite s p g i off l).cores = s.cores ∧ (genWrite s p g i off l).beside = s.beside := by
  unfold genWrite
  dsimp only
  rw [Nat.sub_eq_zero_of_le hfar, Nat.min_zero, if_pos rfl, List.drop_zero, Nat.add_zero, Nat.sub_zero]
  split
  · set o := tget 0 g.objs i
    obtain ⟨b, e, hrest⟩ := farWrites_rest (objWrite s o (off - g.nearLen (s.part p) i) l) ovCtx o (off - g.nearLen (s.part p) i) l.length
    rw [hrest]
    refine ⟨fun k hk => ?_, rfl, rfl⟩
    change mget 0 ((objWrite s o (off - g.nearLen (s.part p) i) l).obj o).data _ = _
    rw [objWrite, State.obj_setObj_same, mget_mwrite, if_pos ⟨by omega, by omega⟩, Nat.add_sub_cancel_left]
  · next hempty => exact ⟨fun k hk => absurd (Nat.zero_lt_of_lt hk) hempty, rfl, rfl⟩

/-- What bytes loaded into an image's near part leave. -/
theorem loadBytes_near (hfit : off + l.length ≤ g.nearLen (s.part p) i)
    (hfree : ∀ k ∈ linesOf (physOff s p (g.near i off)) l.length, lineHeld s (naStack (g.near i off)) k = false) :
    (loadBytes s p g i off l).mbx = s.mbx ∧ (loadBytes s p g i off l).entry = s.entry ∧
      ∃ u, BytesWritten s u (naStack (g.near i off)) (physOff s p (g.near i off)) l ∧ (loadBytes s p g i off l).cores = u.cores ∧
        (loadBytes s p g i off l).beside = u.beside := by
  obtain ⟨⟨b, e, o, hwork⟩, hbytes⟩ := genWrite_near_written hfit hfree
  have hmbx : (genWrite s p g i off l).mbx = s.mbx := by rw [hwork]
  have hentry : (genWrite s p g i off l).entry = s.entry := by rw [hwork]
  exact ⟨hmbx, hentry, hbytes⟩

end

/-! ### The load window (R404) -/

/-- An enabled aperture of a partition's function aims bytes that fit at an offset of an image of a loading generation. -/
structure Aims (s : State) (fn ap x : Nat) (data : List Byte) (p : Nat) (g : Gen) (image off : Nat) : Prop where
  enabled : (s.fn fn).enabled = true
  aperture : ap < 4
  inside : x + data.length ≤ 2 ^ Nat.log2 s.mbx.bar2 / 4
  powered : s.power.portOn = true
  opened : bit (tget 0 (s.fn fn).ap ap) 0 = true
  part : fnPart s fn = some p
  gen : (s.part p).genRef? (bits (tget 0 (s.fn fn).ap ap) 23 8) = some g
  image_eq : image = bits (tget 0 (s.fn fn).ap ap) 4 1
  image_le : image ≤ 12
  loading : g.isLoading = true
  off_eq : off = bits (tget 0 (s.fn fn).ap ap) 55 24 * (2 ^ Nat.log2 s.mbx.bar2 / 4) + x
  fits : off + data.length ≤ g.len image

/-- Nothing of what makes the window refuse a write outright holds. -/
theorem not_refused {enabled powered : Bool} {ap n q : Nat} (henabled : enabled = true) (hap : ap < 4) (hn : n ≤ q) (hpowered : powered = true) :
    ¬((!enabled) = true ∨ 4 ≤ ap ∨ q < n ∨ (!powered) = true) := by
  simp [henabled, hpowered, hap, hn]

section

variable {s : State} {fn ap x p image off : Nat} {data : List Byte} {g : Gen}

/-- Bytes that fit are loaded, none dropped, and the chunks they complete go on. -/
theorem exec_loadWindowWrite_loads (h : Aims s fn ap x data p g image off) : exec (.loadWindowWrite fn ap x data) s =
    .next (relayRange (dropBytes (loadBytes s p g image off data) fn 0) p g image off data.length) := by
  have hall : min data.length (g.len image - off) = data.length := Nat.min_eq_left (Nat.le_sub_of_add_le' h.fits)
  change execLoadWindowWrite fn ap x data s = _
  unfold execLoadWindowWrite
  dsimp only
  rw [if_neg (not_refused h.enabled h.aperture h.inside h.powered), h.opened, h.part]
  dsimp only
  rw [h.gen]
  dsimp only
  rw [← h.image_eq, ← h.off_eq, if_neg (Nat.not_lt.2 h.image_le), if_neg (by simp [h.loading]), hall, Nat.sub_self, List.take_length]

theorem dropBytes_zero_fn (s : State) (fn : Nat) : ((dropBytes s fn 0).fn fn).loadDrop = (s.fn fn).loadDrop := by
  rw [dropBytes, State.fn_setFn_same]
  rfl

theorem loadWindow_near (h : Aims s fn ap x data p g image off) (hnear : off + data.length ≤ g.nearLen (s.part p) image)
    (hfree : ∀ l ∈ linesOf (physOff s p (g.near image off)) data.length, lineHeld s (naStack (g.near image off)) l = false) :
    ∃ t, exec (.loadWindowWrite fn ap x data) s = .next t ∧
      (∀ i, i < data.length → nearByte t (naStack (g.near image off)) (physOff s p (g.near image off) + i) = (data[i]?).getD 0) ∧
      StackExcept s t [(naStack (g.near image off), physOff s p (g.near image off), data.length)] ∧ t.cores = s.cores ∧
      (t.fn fn).loadDrop = (s.fn fn).loadDrop := by
  obtain ⟨hmbx, _, u, hbytes, hcores, hbeside⟩ := loadBytes_near hnear hfree
  have hsent := sendWork_relayRange (dropBytes (loadBytes s p g image off data) fn 0) p g image off data.length
  obtain ⟨hplace, hother, hsame⟩ := hbytes.stack (hsent.cores.trans hcores) (hsent.beside.trans hbeside)
  refine ⟨_, exec_loadWindowWrite_loads h, hplace, hother, hsame, ?_⟩
  rw [hsent.fn, dropBytes_zero_fn, State.fn, hmbx, ← State.fn]

theorem loadWindow_far (h : Aims s fn ap x data p g image off) (hfar : g.nearLen (s.part p) image ≤ off) :
    ∃ t, exec (.loadWindowWrite fn ap x data) s = .next t ∧
      (∀ i, i < data.length → objByte t (tget 0 g.objs image) (off - g.nearLen (s.part p) image + i) = (data[i]?).getD 0) ∧ KeepsMemory s t := by
  obtain ⟨hplace, hcores, hbeside⟩ := genWrite_far_written (l := data) hfar
  have hsent := sendWork_relayRange (dropBytes (loadBytes s p g image off data) fn 0) p g image off data.length
  refine ⟨_, exec_loadWindowWrite_loads h, fun i hi => ?_, keepsMemory_same _ _ (hsent.cores.trans hcores) (hsent.beside.trans hbeside)⟩
  rw [objByte, State.obj, hsent.far]
  exact hplace i hi

/-- Bytes through an aperture that is not enabled are dropped and counted. -/
theorem exec_loadWindowWrite_drops (henabled : (s.fn fn).enabled = true) (hap : ap < 4) (hinside : x + data.length ≤ 2 ^ Nat.log2 s.mbx.bar2 / 4)
    (hpowered : s.power.portOn = true) (hclosed : bit (tget 0 (s.fn fn).ap ap) 0 = false) :
    exec (.loadWindowWrite fn ap x data) s = .next (dropBytes s fn data.length) := by
  change execLoadWindowWrite fn ap x data s = _
  unfold execLoadWindowWrite
  dsimp only
  rw [if_neg (not_refused henabled hap hinside hpowered), hclosed]

end

/-! ### Hashing (R233) -/

section

variable {s : State} {p i c : Nat} {g : Gen}

theorem exec_chunkHashed {ref : Nat} (hs : Settled s) (hgen : (s.part p).genRef? ref = some g) (hloading : g.isLoading = true)
    (hchunk : g.chunks.contains (i, c) = true) (hfull : g.full i c = true) (hnew : ∀ h ∈ g.hashed, h.1 ≠ Gen.key i c) :
    exec (.chunkHashed p ref i c) s = .next (modGen s p g fun y =>
      { y with hashed := tput y.hashed (Gen.key i c) (sha256 (genRead s p g i (c * chunkSize) (chunkLen (g.len i) c))) }) := by
  have hfirst : (g.hashed.any fun h => h.1 == Gen.key i c) = false := List.any_eq_false.2 fun h hh => by simpa using hnew h hh
  rw [← settle_of_settled (t := modGen s p g _) hs rfl]
  change execChunkHashed p ref i c s = _
  unfold execChunkHashed
  rw [hgen]
  dsimp only
  rw [if_pos (by rw [hloading, hchunk, hfull, hfirst]; rfl)]

/-! ### Relay (R236) -/

theorem exec_relayChunk {src gen : Nat} {data : List Byte} (hgen : (s.part p).gens.find? (fun g => g.number == gen && g.isLoading) = some g)
    (hchunk : g.chunks.contains (i, c) = true) (hlen : data.length = chunkLen (g.len i) c) (hfrom : takesFrom s src = true) :
    exec (.relayChunk src p gen i c data) s =
      .next (relayRange ((loadBytes s p g i (c * chunkSize) data).send (.node src) (.relayAck p gen i c)) p g i (c * chunkSize) data.length) := by
  change execRelayChunk src p gen i c data s = _
  unfold execRelayChunk
  rw [hgen]
  exact congrArg _ (if_pos ⟨hchunk, hlen, hfrom⟩)

theorem relayChunk_near {src gen : Nat} {data : List Byte} (hgen : (s.part p).gens.find? (fun g => g.number == gen && g.isLoading) = some g)
    (hchunk : g.chunks.contains (i, c) = true) (hlen : data.length = chunkLen (g.len i) c) (hfrom : takesFrom s src = true)
    (hosc : s.entry.oscDead = false) (hnear : c * chunkSize + data.length ≤ g.nearLen (s.part p) i)
    (hfree : ∀ l ∈ linesOf (physOff s p (g.near i (c * chunkSize))) data.length, lineHeld s (naStack (g.near i (c * chunkSize))) l = false) :
    ∃ t, exec (.relayChunk src p gen i c data) s = .next t ∧ Tells t (.node src) (.relayAck p gen i c) ∧ t.cores = s.cores ∧
      (∀ j, j < data.length → nearByte t (naStack (g.near i (c * chunkSize))) (physOff s p (g.near i (c * chunkSize)) + j) = (data[j]?).getD 0) ∧
      StackExcept s t [(naStack (g.near i (c * chunkSize)), physOff s p (g.near i (c * chunkSize)), data.length)] := by
  obtain ⟨_, hentry, u, hbytes, hcores, hbeside⟩ := loadBytes_near hnear hfree
  set v := loadBytes s p g i (c * chunkSize) data
  have hsent := sendWork_relayRange (v.send (.node src) (.relayAck p gen i c)) p g i (c * chunkSize) data.length
  obtain ⟨hplace, hother, hsame⟩ := hbytes.stack (hsent.cores.trans ((State.send_cores ..).trans hcores))
    (hsent.beside.trans ((State.send_beside ..).trans hbeside))
  exact ⟨_, exec_relayChunk hgen hchunk hlen hfrom, hsent.tells (tells_send (by rw [hentry, hosc]) _ _), hsame, hplace, hother⟩

theorem exec_relayChunkAck {n gen : Nat} {r : Relay} (hrelay : (s.part p).relay = some r) (hgen : r.gen = gen) (hfrom : takesFrom s n = true) :
    exec (.relayChunkAck n p gen i c) s = .next (s.setPart p { s.part p with relay := some { r with targets := r.targets.map fun t =>
      if t.1 == n && !(t.2.contains (Gen.key i c)) then (t.1, t.2 ++ [Gen.key i c]) else t } }) := by
  change execRelayChunkAck n p gen i c s = _
  unfold execRelayChunkAck
  dsimp only
  rw [hrelay]
  exact congrArg _ (if_pos ⟨hgen, hfrom⟩)

end

/-- Settles O29: a load is one write into a stack or an object, after which messages alone leave; a digest and an acknowledgement change one partition. -/
theorem weightBytesArriveAndAreHashed : Obligations.WeightBytesArriveAndAreHashed := by
  unfold Obligations.WeightBytesArriveAndAreHashed
  intro s
  refine ⟨?load, fun fn ap x data => exec_loadWindowWrite_drops, ?hash, fun src p gen i c data g => relayChunk_near, ?ack⟩
  case load =>
    rintro fn ap x data p g w image off henabled hap hinside hpowered rfl hopen hpart hgen himage hle hloading hoff hfits
    have h : Aims s fn ap x data p g image off := ⟨henabled, hap, hinside, hpowered, hopen, hpart, hgen, himage, hle, hloading, hoff, hfits⟩
    exact ⟨loadWindow_near h, loadWindow_far h⟩
  case hash =>
    rintro p ref i c g hs hgen hloading hchunk hfull hnew d rfl
    exact exec_chunkHashed hs hgen hloading hchunk hfull hnew
  case ack =>
    intro n p gen i c r hrelay hgen hfrom
    refine ⟨_, exec_relayChunkAck hrelay hgen hfrom, ?_, fun q hq => by rw [State.part_setPart, if_neg hq], rfl⟩
    rw [State.part_setPart_same]

end Sys2Proof.Machine
end

section
/-!
PROOFS of the tiers and weights: what the end of requests leaves of the ledger. The functions it calls change no entry but the ended one's, one lemma for each;
an entry that has ended is left by every later end.
-/

namespace Sys2Proof.Machine

/-! ### Events and messages -/

section

variable (s : State)

theorem foldl_srv {α : Type} (g : State → α → State) (l : List α) (s : State) (h : ∀ s a, (g s a).srv = s.srv) : (l.foldl g s).srv = s.srv :=
  foldl_keeps (fun t => t.srv = s.srv) g l s rfl fun t ht a _ => (h t a).trans ht

@[simp] theorem State.srv_ite {c : Prop} [Decidable c] (a b : State) : (if c then a else b).srv = if c then a.srv else b.srv := apply_ite State.srv c a b

@[simp] theorem fireVector_srv (fn v : Nat) : (fireVector s fn v).srv = s.srv := by
  simp [fireVector]

@[simp] theorem interrupt_srv (fn v : Nat) : (interrupt s fn v).srv = s.srv := by
  simp [interrupt]

@[simp] theorem writeEvent_srv (fn : Nat) (e : Event) (more : Bool) : (writeEvent s fn e more).srv = s.srv := by
  simp [writeEvent, foldl_srv]

@[simp] theorem drainBacklog_srv (n fn : Nat) : (drainBacklog n s fn).srv = s.srv := by
  induction n generalizing s with
  | zero => rfl
  | succ n ih =>
    unfold drainBacklog
    dsimp only
    split
    · rfl
    · simp [ih]

@[simp] theorem postEvent_srv (fn : Nat) (e : Event) : (postEvent s fn e).srv = s.srv := by
  simp [postEvent, foldl_srv]

@[simp] theorem notify_srv (fn type status : Nat) (payload : List Byte) : (notify s fn type status payload).srv = s.srv := by
  simp [notify]

@[simp] theorem copyLedger_srv (i : Nat) : (copyLedger s i).srv = s.srv := by
  unfold copyLedger
  split
  · split <;> simp
  · rfl

/-! ### Objects, generations, adapter slots -/

@[simp] theorem unbindSlot_srv (p i : Nat) : (unbindSlot s p i).srv = s.srv := by
  simp [unbindSlot, setAslot]

@[simp] theorem unprotectGen_srv (p : Nat) (g : Gen) : (unprotectGen s p g).srv = s.srv := by
  obtain ⟨b, h⟩ := unprotectGen_beside_only s p g
  rw [h]

@[simp] theorem objFree_srv (id : Nat) : (objFree s id).srv = s.srv := by
  simp [objFree, chargeQuota]

@[simp] theorem freeGen_srv (p : Nat) (g : Gen) : (freeGen s p g).srv = s.srv := by
  simp [freeGen, freeObjects, foldl_srv]

@[simp] theorem unbindGen_srv (p model num : Nat) : (unbindGen s p model num).srv = s.srv := by
  unfold unbindGen
  split
  · rfl
  · simp

@[simp] theorem unbindReq_srv (r : Req) : (unbindReq s r).srv = s.srv := by
  simp [unbindReq]

/-! ### Key-value maps and sessions -/

theorem foldl_ledger {α : Type} (g : State → α → State) (l : List α) (s : State) (h : ∀ s a, (g s a).srv.ledger = s.srv.ledger) :
    (l.foldl g s).srv.ledger = s.srv.ledger :=
  foldl_keeps (fun t => t.srv.ledger = s.srv.ledger) g l s rfl fun t ht a _ => (h t a).trans ht

@[simp] theorem ledger_ite {c : Prop} [Decidable c] (a b : Serving) : (if c then a else b).ledger = if c then a.ledger else b.ledger :=
  apply_ite Serving.ledger c a b

@[simp] theorem putSess_ledger (i : Nat) (x : Session) : (putSess s i x).srv.ledger = s.srv.ledger := by
  unfold putSess
  dsimp only
  split <;> simp

@[simp] theorem fitRecords_ledger (k : Nat) : (fitRecords s k).srv.ledger = s.srv.ledger := by
  unfold fitRecords
  extract_lets m p fb need
  split
  · simp
  · split <;> simp

@[simp] theorem freeRecord_ledger (k : Nat) : (freeRecord s k).srv.ledger = s.srv.ledger := by
  unfold freeRecord
  dsimp only
  split <;> simp

@[simp] theorem freePages_ledger (k : Nat) : (freePages s k).srv.ledger = s.srv.ledger := by
  simp [freePages]

@[simp] theorem freeMirror_ledger (k : Nat) : (freeMirror s k).srv.ledger = s.srv.ledger := rfl

@[simp] theorem freeSession_ledger (k : Nat) : (freeSession s k).srv.ledger = s.srv.ledger := by
  simp [freeSession]

@[simp] theorem closeSession_ledger (i : Nat) : (closeSession s i).srv.ledger = s.srv.ledger := by
  simp [closeSession, foldl_ledger]

@[simp] theorem releaseSession_ledger (r : Req) : (releaseSession s r).srv.ledger = s.srv.ledger := by
  simp [releaseSession]

@[simp] theorem commitMap_ledger (k : Nat) (o : OutcomeMsg) : (commitMap s k o).srv.ledger = s.srv.ledger := by
  unfold commitMap
  extract_lets m c t s1 v c' t'
  have h1 : s1.srv.ledger = s.srv.ledger := by
    simp only [s1]
    split <;> simp
  split
  · exact h1
  · exact h1

/-! ### Heats -/

@[simp] theorem unpinHeat_ledger (id : Nat) : (unpinHeat s id).srv.ledger = s.srv.ledger := rfl

@[simp] theorem stopHeat_ledger (id : Nat) : (stopHeat s id).srv.ledger = s.srv.ledger :=
  foldl_ledger _ _ _ fun s c => congrArg Serving.ledger (coresOnly_slotStop s c.1 c.2).srv

@[simp] theorem retireHeat_ledger (id : Nat) : (retireHeat s id).srv.ledger = s.srv.ledger := by
  simp [retireHeat]

@[simp] theorem billLap_ledger (home handle a : Nat) (accept final : Bool) : (billLap s home handle a accept final).srv.ledger = s.srv.ledger := rfl

@[simp] theorem takeOutcome_ledger (id : Nat) (h : Heat) (r : HeatRow) (o : OutcomeMsg) : (takeOutcome s id h r o).srv.ledger = s.srv.ledger := by
  simp [takeOutcome]

@[simp] theorem reportLap_ledger (id : Nat) : (reportLap s id).srv.ledger = s.srv.ledger := by
  unfold reportLap
  extract_lets h homes roles s1 s2 s3 s4
  have h1 : s1.srv = s.srv := foldl_srv _ _ _ fun _ _ => foldl_srv _ _ _ fun _ _ => State.send_srv ..
  have h2 : s2.srv = s.srv := by
    simp only [s2]
    split <;> simp [h1]
  have h3 : s3.srv = s.srv := by
    simp only [s3]
    split
    · exact (foldl_srv _ _ _ fun _ _ => State.send_srv ..).trans h2
    · exact h2
  split
  · rfl
  · have h4 : s4.srv.ledger = s3.srv.ledger := rfl
    refine (foldl_ledger _ _ s4 fun t r => ?_).trans (h4.trans (congrArg Serving.ledger h3))
    split
    · simp
    · rfl

@[simp] theorem leaveCohort_ledger (c i : Nat) : (leaveCohort s c i).srv.ledger = s.srv.ledger := by
  simp [leaveCohort]

@[simp] theorem leaveQueue_ledger (tenant i : Nat) : (leaveQueue s tenant i).srv.ledger = s.srv.ledger := rfl

end

/-! ### Entries of the ledger -/

section

variable {s t : State} {i : Nat}

theorem req_of_ledger (h : t.srv.ledger = s.srv.ledger) (i : Nat) : t.req i = s.req i := by rw [State.req, h, ← State.req]

/-- REQ.DONE notes that it is posted, in its own request's entry. -/
theorem req_postDone (s : State) (j i : Nat) : ∃ b, (postDone s j).req i = if i = j then { s.req i with posted := b } else s.req i := by
  unfold postDone
  dsimp only
  split
  · exact ⟨(s.req i).posted, (ite_self _).symm⟩
  split
  · exact ⟨(s.req i).posted, (ite_self _).symm⟩
  · refine ⟨true, (req_of_ledger (s := s.setReq j { s.req j with posted := true }) (by simp) i).trans ?_⟩
    rw [State.req_setReq]
    split
    · next h => rw [h]
    · rfl

/-- What an end leaves of an entry: one that is not open stays as it was. -/
structure KeepsClosed (i : Nat) (s t : State) : Prop where
  keeps : (s.req i).isOpen = false → t.req i = s.req i

theorem KeepsClosed.refl (i : Nat) (s : State) : KeepsClosed i s s := ⟨fun _ => rfl⟩

theorem KeepsClosed.trans {u : State} (h : KeepsClosed i s t) (g : KeepsClosed i t u) : KeepsClosed i s u :=
  ⟨fun hc => (g.keeps (h.keeps hc ▸ hc)).trans (h.keeps hc)⟩

theorem keepsClosed_of_ledger (h : t.srv.ledger = s.srv.ledger) : KeepsClosed i s t := ⟨fun _ => req_of_ledger h i⟩

theorem keepsClosed_foldl {α : Type} {g : State → α → State} (h : ∀ s a, KeepsClosed i s (g s a)) (l : List α) (s : State) :
    KeepsClosed i s (l.foldl g s) :=
  foldl_keeps (KeepsClosed i s) g l s (.refl i s) fun t ht a _ => ht.trans (h t a)

/-- The entry of another request is written: the one that is not open stays. -/
theorem keepsClosed_setReq {j : Nat} (h : i ≠ j) (x : Req) : KeepsClosed i s (s.setReq j x) := ⟨fun _ => by rw [State.req_setReq, if_neg h]⟩

theorem keepsClosed_postDone {j : Nat} (h : i ≠ j) : KeepsClosed i s (postDone s j) := ⟨fun _ => by
  obtain ⟨b, hb⟩ := req_postDone s j i
  rw [hb, if_neg h]⟩

/-- The end of another request leaves the entry, and its own end does nothing once it is not open. -/
theorem keepsClosed_endOne (s : State) (j status : Nat) : KeepsClosed i s (endOne s j status) := by
  by_cases hij : i = j
  · exact hij ▸ ⟨fun hc => by rw [endOne, if_pos (by simp [hc])]⟩
  unfold endOne
  extract_lets r e s1 x k p stats s2 s3 s4 s5
  split
  · exact .refl i s
  split
  · have h1 : KeepsClosed i s s1 := (keepsClosed_setReq hij e).trans (keepsClosed_of_ledger (by simp [s1]))
    refine .trans ?_ (keepsClosed_postDone hij)
    split
    · exact h1
    · exact h1.trans (keepsClosed_of_ledger (putSess_ledger ..))
  · have h3 : KeepsClosed i s s3 := (keepsClosed_of_ledger (s := s) (t := s2) rfl).trans (keepsClosed_setReq hij _)
    have h5 : s5.srv.ledger = s3.srv.ledger := by simp [s5, s4]
    exact (h3.trans (keepsClosed_of_ledger h5)).trans (keepsClosed_postDone hij)

theorem keepsClosed_endHeat (s : State) (id : Nat) : KeepsClosed i s (endHeat s id) := by
  refine keepsClosed_foldl (fun t r => ?_) _ s
  split
  · split
    · exact keepsClosed_endOne ..
    · exact .refl i t
  · exact .refl i t

theorem keepsClosed_applyCancel (s : State) (id epoch : Nat) : KeepsClosed i s (applyCancel s id epoch) := by
  unfold applyCancel
  extract_lets h s0 src s1
  split
  · exact .refl i s
  · have h1 : s1.srv.ledger = s.srv.ledger := stopHeat_ledger ..
    exact ((keepsClosed_of_ledger h1).trans (keepsClosed_endHeat ..)).trans (keepsClosed_of_ledger (reportLap_ledger ..))

theorem keepsClosed_heatCheck (s : State) (id : Nat) : KeepsClosed i s (heatCheck s id) := by
  unfold heatCheck cancelHeat
  dsimp only
  split
  · split
    · exact .refl i s
    · exact (keepsClosed_of_ledger (congrArg Serving.ledger (State.send_srv ..))).trans (keepsClosed_applyCancel ..)
  · exact .refl i s

theorem keepsClosed_endReq (s : State) (j status : Nat) : KeepsClosed i s (endReq s j status) :=
  (keepsClosed_endOne ..).trans (keepsClosed_heatCheck ..)

theorem keepsClosed_endAll (s : State) (status : Nat) (f : Req → Bool) : KeepsClosed i s (endAll s status f) :=
  keepsClosed_foldl (fun t j => keepsClosed_endReq t j status) _ s

theorem keepsClosed_settle (s : State) : KeepsClosed i s (settle s) := by
  refine keepsClosed_foldl (fun t f => ?_) _ s
  split
  · refine .trans ?_ (keepsClosed_endAll ..)
    exact keepsClosed_of_ledger rfl
  · exact .refl i t

/-- A queued request is ended at once, with the status it is ended with. -/
theorem endOne_queued (hqueued : (s.req i).state = .queued) (hmirror : (s.req i).mirror = false) (status : Nat) :
    ((endOne s i status).req i).state = .ended ∧ ((endOne s i status).req i).status = status := by
  unfold endOne
  extract_lets r e s1 x k p stats s2 s3 s4 s5
  rw [if_neg (by simp [r, hmirror, Req.isOpen, hqueued]), if_pos hqueued]
  have h1 : s1.req i = e := (req_of_ledger (by simp [s1]) i).trans (State.req_setReq_same s i e)
  have h2 : (if r.session = 0 then s1 else putSess s1 r.sessIdx { x with request := none }).req i = e := by
    split
    · exact h1
    · exact (req_of_ledger (putSess_ledger ..) i).trans h1
  obtain ⟨b, hb⟩ := req_postDone (if r.session = 0 then s1 else putSess s1 r.sessIdx { x with request := none }) i i
  rw [hb, if_pos rfl, h2]
  exact ⟨rfl, rfl⟩

/-- The end of a queued request stands whatever its heat and its function's other requests come to. -/
theorem settle_endReq_queued (hqueued : (s.req i).state = .queued) (hmirror : (s.req i).mirror = false) (status : Nat) :
    ((settle (endReq s i status)).req i).state = .ended ∧ ((settle (endReq s i status)).req i).status = status := by
  obtain ⟨hstate, hstatus⟩ := endOne_queued hqueued hmirror status
  have hclosed : ((endOne s i status).req i).isOpen = false := by simp [Req.isOpen, hstate]
  have hkept : (settle (endReq s i status)).req i = (endOne s i status).req i :=
    ((keepsClosed_heatCheck _ (s.req i).heat).trans (keepsClosed_settle _)).keeps hclosed
  rw [hkept]
  exact ⟨hstate, hstatus⟩

end

end Sys2Proof.Machine
end

section
/-!
PROOFS of the tiers and weights: admission, cohorts and the ledger (R240, R255, R364, R371, R374, R550). The head the pacer takes, what the wake of a session
changes, and the state a request is admitted to.
-/

namespace Sys2Proof.Machine

/-! ### The head the pacer takes (R371, R374) -/

section

variable {α : Type} {lt : α → α → Bool} {x y : α} {l : List α}

theorem mem_insertBy (h : y ∈ insertBy lt x l) : y = x ∨ y ∈ l := by
  induction l with
  | nil => exact .inl (List.mem_singleton.1 h)
  | cons a l ih =>
    unfold insertBy at h
    split at h
    · exact List.mem_cons.1 h
    · rcases List.mem_cons.1 h with rfl | h
      · exact .inr List.mem_cons_self
      · exact (ih h).imp_right (List.mem_cons_of_mem _)

theorem mem_sortBy (h : y ∈ sortBy lt l) : y ∈ l := by
  refine foldl_keeps (fun acc => ∀ z ∈ acc, z ∈ l) (fun acc x => insertBy lt x acc) l [] (fun z hz => absurd hz List.not_mem_nil) ?_ y h
  intro acc hacc a ha z hz
  rcases mem_insertBy hz with rfl | hz
  · exact ha
  · exact hacc z hz

end

theorem headAdmissible_of_admitNext {s : State} {i : Nat} (h : admitNext s = some i) : headAdmissible s i = true :=
  (List.mem_filter.1 (mem_sortBy (List.mem_of_head? h))).2

theorem queued_of_headAdmissible {s : State} {i : Nat} (h : headAdmissible s i = true) : (s.req i).state = .queued := by
  simp only [headAdmissible, Bool.and_eq_true, beq_iff_eq] at h
  obtain ⟨⟨⟨⟨⟨hqueued, _⟩, _⟩, _⟩, _⟩, _⟩ := h
  exact hqueued

/-- A refill changes tenants alone. -/
theorem refillAll_rest (s : State) (l : List Nat) : ∃ ts, refillAll s l = { s with srv := { s.srv with tenants := ts } } := by
  refine foldl_keeps (fun t : State => ∃ ts, t = { s with srv := { s.srv with tenants := ts } }) _ l s ⟨_, rfl⟩ fun t ht a _ => ?_
  obtain ⟨ts, rfl⟩ := ht
  exact ⟨_, rfl⟩

/-! ### Sessions woken (R285, R295) -/

/-- Nothing but partitions, the far tiers, sessions, maps and what is sent differs. -/
def SessionWork (s t : State) : Prop :=
  ∃ p f b o x m, t = { s with parts := p, far := f, fab := b, out := o, srv := { s.srv with sessions := x, maps := m } }

section

variable {s t u : State}

theorem SessionWork.refl (s : State) : SessionWork s s := ⟨_, _, _, _, _, _, rfl⟩

theorem SessionWork.trans (h : SessionWork s t) (g : SessionWork t u) : SessionWork s u := by
  obtain ⟨_, _, _, _, _, _, rfl⟩ := h
  obtain ⟨p, f, b, o, x, m, rfl⟩ := g
  exact ⟨p, f, b, o, x, m, rfl⟩

theorem sessionWork_foldl {α : Type} {f : State → α → State} (h : ∀ s a, SessionWork s (f s a)) (l : List α) (s : State) : SessionWork s (l.foldl f s) :=
  foldl_keeps (SessionWork s) f l s (.refl s) fun t ht a _ => ht.trans (h t a)

end

section

variable (s : State)

theorem sessionWork_send (d : Dest) (m : FwMsg) : SessionWork s (s.send d m) := by
  unfold State.send
  split
  · exact .refl s
  · exact ⟨_, _, _, _, _, _, rfl⟩

theorem sessionWork_setPart (p : Nat) (x : Part) : SessionWork s (s.setPart p x) := ⟨_, _, _, _, _, _, rfl⟩

theorem sessionWork_putSess (i : Nat) (x : Session) : SessionWork s (putSess s i x) := by
  have hset : SessionWork s (s.setSess i x) := ⟨_, _, _, _, _, _, rfl⟩
  unfold putSess
  dsimp only
  split
  · exact hset.trans (sessionWork_send ..)
  · exact hset

theorem sessionWork_objFree (id : Nat) : SessionWork s (objFree s id) := by
  unfold objFree
  dsimp only
  split
  · exact ⟨_, _, _, _, _, _, rfl⟩
  · exact .refl s

theorem sessionWork_freeRecord (k : Nat) : SessionWork s (freeRecord s k) := by
  unfold freeRecord
  extract_lets m s1
  have h1 : SessionWork s s1 := by
    simp only [s1]
    split
    · exact sessionWork_objFree ..
    · exact .refl s
  have h2 : SessionWork s1 (s1.setPart m.part (dropFrames (s1.part m.part) m.poolFrames)) := sessionWork_setPart ..
  exact (h1.trans h2).trans ⟨_, _, _, _, _, _, rfl⟩

theorem sessionWork_tellJob (idx : Nat) (m : FwMsg) (k : Nat) : SessionWork s (tellJob s idx m (freeRecord · k)) := by
  refine sessionWork_foldl (fun t n => ?_) _ s
  split
  · exact sessionWork_freeRecord ..
  · exact sessionWork_send ..

/-- The wake of a session leaves the ledger, the queues, the tenants and the contexts. -/
theorem sessionWork_wakeSession (idx : Nat) : SessionWork s (wakeSession s idx) := by
  unfold wakeSession
  dsimp only
  split
  · exact sessionWork_putSess ..
  · exact (sessionWork_putSess ..).trans (sessionWork_tellJob ..)
  · exact (sessionWork_putSess ..).trans (sessionWork_foldl (fun t n => sessionWork_send ..) _ _)
  · exact (sessionWork_putSess ..).trans (sessionWork_setPart ..)
  · exact .refl s

/-! ### The session's own entry -/

theorem sess_putSess_same (i : Nat) (x : Session) : (putSess s i x).sess i = x := by
  unfold putSess
  dsimp only
  split
  · rw [State.sess, State.send_srv, ← State.sess, State.sess_setSess_same]
  · exact State.sess_setSess_same ..

theorem sess_freeRecord (k i : Nat) : (freeRecord s k).sess i = s.sess i := by
  unfold freeRecord
  extract_lets m s1
  have h1 : s1.srv = s.srv := by
    simp only [s1]
    split
    · exact objFree_srv ..
    · rfl
  change s1.sess i = s.sess i
  rw [State.sess, h1, ← State.sess]

theorem sess_send (d : Dest) (m : FwMsg) (i : Nat) : (s.send d m).sess i = s.sess i := by rw [State.sess, State.send_srv, ← State.sess]

theorem sess_foldl {α : Type} {f : State → α → State} {i : Nat} (h : ∀ s a, (f s a).sess i = s.sess i) (l : List α) (s : State) :
    (l.foldl f s).sess i = s.sess i :=
  foldl_keeps (fun t => t.sess i = s.sess i) f l s rfl fun t ht a _ => (h t a).trans ht

theorem sess_tellJob (idx : Nat) (m : FwMsg) (k i : Nat) : (tellJob s idx m (freeRecord · k)).sess i = s.sess i := by
  refine sess_foldl (fun t n => ?_) _ s
  split
  · exact sess_freeRecord ..
  · exact sess_send ..

/-- A session keeps its request when it wakes. -/
theorem wakeSession_request (idx : Nat) : ((wakeSession s idx).sess idx).request = (s.sess idx).request := by
  unfold wakeSession
  dsimp only
  split
  · rw [sess_putSess_same]
  · rw [sess_tellJob, sess_putSess_same]
  · unfold startResume
    dsimp only
    rw [sess_foldl fun t n => sess_send .., sess_putSess_same]
  · rw [modStats, State.setPart_sess, sess_putSess_same]
  · rfl

end

/-! ### What follows the ledger's entry -/

/-- A tenant's entry is written, and nothing else but partitions, contexts and what is sent differs. -/
def TenantWork (k : Nat) (x : Tenant) (s t : State) : Prop :=
  ∃ p b o c, t = { s with parts := p, fab := b, out := o, srv := { s.srv with ctxs := c, tenants := tput s.srv.tenants k x } }

theorem tenantWork_putTenant (s : State) (k : Nat) (x : Tenant) : TenantWork k x s (putTenant s k x) := by
  unfold putTenant
  dsimp only
  split
  · unfold State.send
    split
    · exact ⟨_, _, _, _, rfl⟩
    · exact ⟨_, _, _, _, rfl⟩
  · exact ⟨_, _, _, _, rfl⟩

/-- An admission that counts in a cohort changes its context alone. -/
theorem cohortAdmit_rest (s : State) (c i : Nat) : ∃ l, cohortAdmit s c i = { s with srv := { s.srv with ctxs := l } } := by
  unfold cohortAdmit
  dsimp only
  split
  · split
    · exact ⟨_, rfl⟩
    · exact ⟨_, rfl⟩
  · exact ⟨_, rfl⟩

theorem tenantWork_bound {s u : State} {p : Tab Part} (hu : u = { s with parts := p }) (k : Nat) (x : Tenant) (c i : Nat) :
    TenantWork k x s (cohortAdmit (putTenant u k x) c i) := by
  subst hu
  obtain ⟨q, b, o, d, hput⟩ := tenantWork_putTenant { s with parts := p } k x
  obtain ⟨l, hcohort⟩ := cohortAdmit_rest (putTenant { s with parts := p } k x) c i
  rw [hcohort, hput]
  exact ⟨q, b, o, l, rfl⟩

/-! ### Admission (R240, R255, R374) -/

/-- Request `r`, of entry `i`, has been admitted to session `idx` with a generation. -/
structure Admitted (s t : State) (i idx : Nat) (r : Req) (g : Gen) (price : Nat) : Prop where
  state : (t.req i).state = .prefill
  generation : (t.req i).generation = g.number
  aonAdmit : (t.req i).aonAdmit = s.aon
  session : (t.sess idx).request = some i
  queues : t.srv.queues = s.srv.queues
  balance : (t.tenant r.tenant).balance = (s.tenant r.tenant).balance - ((price * r.prompt : Nat) : Int)
  others : ∀ j, j ≠ i → t.req j = s.req j
  memory : KeepsMemory s t
  mbx : t.mbx = s.mbx

theorem admitTo_admitted (s : State) (i idx : Nat) (x : Session) (g : Gen) : Admitted s (admitTo s i idx x g) i idx (s.req i) g (s.cfg 0x0707) := by
  unfold admitTo
  extract_lets r t n a d s1 y s2 s3 s4
  obtain ⟨p1, f1, b1, o1, x1, m1, hwoken⟩ : SessionWork s s1 := (sessionWork_putSess ..).trans (sessionWork_wakeSession ..)
  have hrequest : (s1.sess idx).request = some i := by
    rw [show s1 = wakeSession (putSess s idx (bindSession x r i g n)) idx from rfl, wakeSession_request, sess_putSess_same]
    rfl
  obtain ⟨p2, hbound⟩ : ∃ p, s4 = { s2 with parts := p } := by
    simp only [s4]
    split
    · exact ⟨_, rfl⟩
    · exact ⟨_, rfl⟩
  obtain ⟨p3, b3, o3, c3, hfinal⟩ := tenantWork_bound hbound r.tenant { t with balance := t.balance - ((s.cfg 0x0707 * r.prompt : Nat) : Int) } r.ctx i
  rw [hfinal]
  have hreq (j : Nat) : s2.req j = if j = i then _ else s1.req j := State.req_setReq ..
  have hs1 (j : Nat) : s1.req j = s.req j := by rw [hwoken]; rfl
  have hself := hreq i
  rw [if_pos rfl] at hself
  refine ⟨congrArg Req.state hself, congrArg Req.generation hself, congrArg Req.aonAdmit hself, hrequest, ?_, ?_, fun j hj => ?_, ?_, ?_⟩
  · change s1.srv.queues = _
    rw [hwoken]
  · exact congrArg Tenant.balance (tget_tput_same ..)
  · exact (hreq j).trans ((if_neg hj).trans (hs1 j))
  · refine keepsMemory_same _ _ ?_ ?_
    · change s1.cores = _
      rw [hwoken]
    · change s1.beside = _
      rw [hwoken]
  · change s1.mbx = _
    rw [hwoken]

section

variable {s s1 : State} {i : Nat} {r : Req}

/-- Where the pacer admits, the head it takes is admitted. -/
theorem exec_pacerAdmit (hs1 : s1 = refillAll s (waitingTenants s)) (hnow : admitsNow s = true) (hnext : admitNext s1 = some i) :
    exec .pacerAdmit s = .next (settle (admitRequest s1 i)) := by
  subst hs1
  change execPacerAdmit s = _
  unfold execPacerAdmit
  dsimp only
  rw [hnow, hnext]

theorem admitRequest_bound {g : Gen} (hsession : (s.req i).session ≠ 0) (hbind : bindings s (s.req i) = .inl g) :
    admitRequest s i = admitTo (leaveQueue s (s.req i).tenant i) i (s.req i).sessIdx (s.sess (s.req i).sessIdx) g := by
  unfold admitRequest
  dsimp only
  rw [hbind]
  exact if_pos hsession

theorem admitRequest_unbound {st : Nat} (hbind : bindings s (s.req i) = .inr st) : admitRequest s i = endReq s i st := by
  unfold admitRequest
  dsimp only
  rw [hbind]

theorem pacer_admits {g : Gen} (hs : Settled s) (hs1 : s1 = refillAll s (waitingTenants s)) (hnow : admitsNow s = true) (hnext : admitNext s1 = some i)
    (hr : r = s.req i) (hsession : r.session ≠ 0) (hbind : bindings s1 r = .inl g) :
    ∃ t, exec .pacerAdmit s = .next t ∧ (t.req i).state = .prefill ∧ (t.req i).generation = g.number ∧
      (t.req i).aonAdmit = s.aon ∧ (t.sess r.sessIdx).request = some i ∧
      tget [] t.srv.queues r.tenant = (tget [] s.srv.queues r.tenant).filter (· != i) ∧
      (t.tenant r.tenant).balance = (s1.tenant r.tenant).balance - ((s.cfg 0x0707 * r.prompt : Nat) : Int) ∧
      (∀ j, j ≠ i → t.req j = s.req j) ∧ KeepsMemory s t := by
  have hexec := exec_pacerAdmit hs1 hnow hnext
  obtain ⟨ts, hrefill⟩ := refillAll_rest s (waitingTenants s)
  rw [← hs1] at hrefill
  have hreq : s1.req i = r := by rw [hrefill, hr]; rfl
  rw [admitRequest_bound (by rwa [hreq]) (by rwa [hreq]), hreq] at hexec
  have h := admitTo_admitted (leaveQueue s1 r.tenant i) i r.sessIdx (s1.sess r.sessIdx) g
  rw [show (leaveQueue s1 r.tenant i).req i = r from hreq] at h
  have hmbx : s1.mbx = s.mbx := by rw [hrefill]
  rw [settle_of_settled hs (h.mbx.trans hmbx)] at hexec
  refine ⟨_, hexec, h.state, h.generation, h.aonAdmit.trans ?_, h.session, ?_, h.balance.trans ?_, fun j hj => (h.others j hj).trans ?_,
    .trans ?_ h.memory⟩
  · change s1.aon = _
    rw [hrefill]
  · rw [h.queues]
    refine (tget_tput_same ..).trans ?_
    rw [hrefill]
  · change _ - ((s1.cfg 0x0707 * r.prompt : Nat) : Int) = _
    rw [hrefill]
    rfl
  · change s1.req j = _
    rw [hrefill]
    rfl
  · refine keepsMemory_same _ _ ?_ ?_
    · change s1.cores = _
      rw [hrefill]
    · change s1.beside = _
      rw [hrefill]

theorem pacer_ends {st : Nat} (hs1 : s1 = refillAll s (waitingTenants s)) (hnow : admitsNow s = true) (hnext : admitNext s1 = some i)
    (hr : r = s.req i) (hmirror : r.mirror = false) (hbind : bindings s1 r = .inr st) :
    ∃ t, exec .pacerAdmit s = .next t ∧ (t.req i).state = .ended ∧ (t.req i).status = st := by
  have hexec := exec_pacerAdmit hs1 hnow hnext
  obtain ⟨ts, hrefill⟩ := refillAll_rest s (waitingTenants s)
  rw [← hs1] at hrefill
  have hreq : s1.req i = r := by rw [hrefill, hr]; rfl
  rw [admitRequest_unbound (by rwa [hreq])] at hexec
  exact ⟨_, hexec, settle_endReq_queued (queued_of_headAdmissible (headAdmissible_of_admitNext hnext)) (by rwa [hreq]) st⟩

end

/-! ### Cohorts and freed entries (R364, R550) -/

theorem cohortCloseTimeout_closes {s : State} {c : Nat} {x : Cohort} (hx : x = (s.ctx c).cohort) (hopen : x.isOpen = true) (hadmitted : 0 < x.admitted)
    (hwait : s.cfg 0x0B04 ≠ 0) (hdue : x.firstAt + msAon (s.cfg 0x0B04) ≤ s.aon) :
    ∃ t, exec (.cohortCloseTimeout c) s = .next t ∧ (t.ctx c).cohort.isOpen = false ∧ (t.ctx c).cohort.members = [] ∧
      (x.members ≠ [] → (t.ctx c).closed = (s.ctx c).closed ++ [x.members]) ∧ (∀ d, d ≠ c → t.ctx d = s.ctx d) ∧
      t.srv.ledger = s.srv.ledger ∧ KeepsMemory s t := by
  subst hx
  refine ⟨closeCohort s c, congrArg _ (if_pos (by simp [hopen, hadmitted, hwait, hdue])), ?_⟩
  unfold closeCohort
  dsimp only
  rw [State.ctx_setCtx_same]
  refine ⟨rfl, rfl, fun hmembers => ?_, fun d hd => by rw [State.ctx_setCtx, if_neg hd], rfl, keepsMemory_same _ _ rfl rfl⟩
  dsimp only
  rw [if_neg (by rwa [List.isEmpty_iff])]

theorem exec_ledgerFree {s : State} {i : Nat} {r : Req} (hr : r = s.req i) (hended : r.state = .completed ∨ r.state = .ended) (hmirror : r.mirror = false)
    (hposted : r.posted = true ∨ r.withheld = true) (hlap : r.inLap = false) (hsigned : r.receiptSigned = true) :
    exec (.ledgerFree i) s = .next (s.setReq i { Req.reset with reuse := r.reuse }) := by
  subst hr
  exact congrArg _ (if_pos (by simp [hended, hmirror, hposted, hlap, hsigned]))

/-- Settles O37: the head the pacer takes is queued, so it is admitted to its session or ended at once; a cohort and an entry are one record each. -/
theorem requestsAreAdmittedAndFreed : Obligations.RequestsAreAdmittedAndFreed := by
  unfold Obligations.RequestsAreAdmittedAndFreed
  refine ⟨fun s s1 i r hs hs1 hnow hnext hr hmirror hsession => ⟨fun g => pacer_admits hs hs1 hnow hnext hr hsession,
    fun st => pacer_ends hs1 hnow hnext hr hmirror⟩, fun s c x => cohortCloseTimeout_closes, ?free⟩
  case free =>
    intro s i r hr hended hmirror hposted hlap hsigned
    refine ⟨_, exec_ledgerFree hr hended hmirror hposted hlap hsigned, ?_, State.req_setReq_same .., fun j hj => by rw [State.req_setReq, if_neg hj],
      rfl, keepsMemory_same _ _ rfl rfl⟩
    rw [State.req_setReq_same]
    rfl

end Sys2Proof.Machine
end

section
/-!
PROOFS of attention and KV: what the seal of a lap and the end of requests leave of the memories and of what has left the package. One lemma for each
function they call.
-/

namespace Sys2Proof.Machine

/-- Every byte of a memory reads as before, and what has left the package has left it for good. -/
structure KeepsBytes (s t : State) : Prop where
  memory : KeepsMemory s t
  out : ∀ o ∈ s.out, o ∈ t.out

section

variable {s t u : State}

theorem KeepsBytes.refl (s : State) : KeepsBytes s s := ⟨keepsMemory_refl s, fun _ h => h⟩

theorem KeepsBytes.trans (h : KeepsBytes s t) (g : KeepsBytes t u) : KeepsBytes s u := ⟨h.memory.trans g.memory, fun o ho => g.out o (h.out o ho)⟩

theorem KeepsBytes.tells (h : KeepsBytes s t) {d : Dest} {m : FwMsg} (ht : Tells s d m) : Tells t d m := ht.imp fun _ hm => h.out _ hm

/-- Where cores, stacks and what is sent are the same, so are the bytes. -/
theorem keepsBytes_same (hcores : t.cores = s.cores) (hbeside : t.beside = s.beside) (hout : t.out = s.out) : KeepsBytes s t :=
  ⟨keepsMemory_same s t hcores hbeside, fun o ho => by rwa [hout]⟩

theorem keepsBytes_foldl {α : Type} {f : State → α → State} (h : ∀ s a, KeepsBytes s (f s a)) (l : List α) (s : State) : KeepsBytes s (l.foldl f s) :=
  foldl_keeps (KeepsBytes s) f l s (.refl s) fun t ht a _ => ht.trans (h t a)

theorem keepsBytes_ite {c : Prop} [Decidable c] (h : KeepsBytes s t) (g : KeepsBytes s u) : KeepsBytes s (if c then t else u) := by
  split
  · exact h
  · exact g

theorem SendWork.keepsBytes (h : SendWork s t) : KeepsBytes s t := by
  obtain ⟨_, _, l, rfl⟩ := h
  exact ⟨keepsMemory_same _ _ rfl rfl, fun o ho => List.mem_append_left l ho⟩

end

section

variable (s : State)

/-! ### One record replaced -/

theorem keepsBytes_setFn (f : Nat) (x : Fn) : KeepsBytes s (s.setFn f x) := keepsBytes_same rfl rfl rfl

theorem keepsBytes_setCtx (c : Nat) (x : Ctx) : KeepsBytes s (s.setCtx c x) := keepsBytes_same rfl rfl rfl

theorem keepsBytes_setReq (i : Nat) (x : Req) : KeepsBytes s (s.setReq i x) := keepsBytes_same rfl rfl rfl

theorem keepsBytes_setPart (p : Nat) (x : Part) : KeepsBytes s (s.setPart p x) := keepsBytes_same rfl rfl rfl

theorem keepsBytes_setMap (k : Nat) (x : KvMap) : KeepsBytes s (s.setMap k x) := keepsBytes_same rfl rfl rfl

theorem keepsBytes_setHeat (id : Nat) (x : Heat) : KeepsBytes s (s.setHeat id x) := keepsBytes_same rfl rfl rfl

theorem keepsBytes_setSlot (c k : Nat) (x : SlotSt) : KeepsBytes s (s.setSlot c k x) := ⟨keepsMemory_setSlot .., fun _ ho => ho⟩

theorem keepsBytes_setBdie (d : Nat) (x : BesideDie) (h : x.mem = (s.bdie d).mem) : KeepsBytes s (s.setBdie d x) :=
  ⟨keepsMemory_setBdie s d x h, fun _ ho => ho⟩

/-! ### Events and messages (R409 to R417) -/

theorem keepsBytes_emit (o : Out) : KeepsBytes s (s.emit o) := by
  unfold State.emit
  exact keepsBytes_ite (.refl s) ⟨keepsMemory_same _ _ rfl rfl, fun o ho => List.mem_append_left _ ho⟩

theorem keepsBytes_send (d : Dest) (m : FwMsg) : KeepsBytes s (s.send d m) := (sendWork_send s d m).keepsBytes

theorem keepsBytes_fireVector (fn v : Nat) : KeepsBytes s (fireVector s fn v) := by
  unfold fireVector
  exact keepsBytes_ite (keepsBytes_same rfl rfl rfl) (keepsBytes_emit ..)

theorem keepsBytes_interrupt (fn v : Nat) : KeepsBytes s (interrupt s fn v) := by
  unfold interrupt
  refine keepsBytes_ite (keepsBytes_fireVector ..) (keepsBytes_ite (keepsBytes_setFn ..) ?_)
  exact (keepsBytes_setFn ..).trans (keepsBytes_fireVector ..)

theorem keepsBytes_writeEvent (fn : Nat) (e : Event) (more : Bool) : KeepsBytes s (writeEvent s fn e more) := by
  unfold writeEvent
  exact (keepsBytes_setFn ..).trans (keepsBytes_foldl (fun s v => keepsBytes_interrupt s fn v) _ _)

theorem keepsBytes_drainBacklog (n fn : Nat) : KeepsBytes s (drainBacklog n s fn) := by
  induction n generalizing s with
  | zero => exact .refl s
  | succ n ih =>
    unfold drainBacklog
    dsimp only
    split
    · exact .refl s
    · exact keepsBytes_ite (.refl s) (((keepsBytes_setFn ..).trans (keepsBytes_writeEvent ..)).trans (ih _))

theorem keepsBytes_postEvent (fn : Nat) (e : Event) : KeepsBytes s (postEvent s fn e) := by
  unfold postEvent
  refine keepsBytes_ite (.refl s) (keepsBytes_ite ?_ (keepsBytes_ite (keepsBytes_setFn ..) ?_))
  · exact keepsBytes_foldl (fun s (p : Event × Bool) => keepsBytes_writeEvent s fn p.1 p.2) _ s
  · exact (keepsBytes_setFn ..).trans (keepsBytes_drainBacklog ..)

theorem keepsBytes_notify (fn type status : Nat) (payload : List Byte) : KeepsBytes s (notify s fn type status payload) := keepsBytes_postEvent ..

theorem keepsBytes_postTokens (fn : Nat) (recs : List Byte) : KeepsBytes s (postTokens s fn recs) := by
  unfold postTokens
  exact keepsBytes_ite (.refl s) (keepsBytes_notify ..)

theorem keepsBytes_copyLedger (i : Nat) : KeepsBytes s (copyLedger s i) := by
  unfold copyLedger
  refine keepsBytes_ite ?_ (.refl s)
  split
  · exact keepsBytes_send ..
  · exact .refl s

theorem keepsBytes_postDone (i : Nat) : KeepsBytes s (postDone s i) := by
  unfold postDone
  refine keepsBytes_ite (.refl s) (keepsBytes_ite (.refl s) ?_)
  exact ((keepsBytes_setReq ..).trans (keepsBytes_copyLedger ..)).trans (keepsBytes_notify ..)

theorem keepsBytes_putSess (i : Nat) (x : Session) : KeepsBytes s (putSess s i x) := by
  have hset : KeepsBytes s (s.setSess i x) := keepsBytes_same rfl rfl rfl
  unfold putSess
  dsimp only
  split
  · exact hset.trans (keepsBytes_send ..)
  · exact hset

theorem keepsBytes_putTenant (i : Nat) (x : Tenant) : KeepsBytes s (putTenant s i x) := by
  have hset : KeepsBytes s (s.setTenant i x) := keepsBytes_same rfl rfl rfl
  unfold putTenant
  dsimp only
  split
  · exact hset.trans (keepsBytes_send ..)
  · exact hset

/-! ### Objects, generations, adapter slots (R222, R234, R240, R254) -/

theorem keepsBytes_unbindSlot (p i : Nat) : KeepsBytes s (unbindSlot s p i) := by
  unfold unbindSlot
  exact keepsBytes_ite (.refl s) (keepsBytes_ite (keepsBytes_setPart ..) (keepsBytes_setPart ..))

theorem keepsBytes_unprotectGen (p : Nat) (g : Gen) : KeepsBytes s (unprotectGen s p g) := by
  refine keepsBytes_foldl (fun t st => ?_) _ s
  split
  · exact .refl t
  · exact keepsBytes_setBdie _ _ _ rfl

theorem keepsBytes_objFree (id : Nat) : KeepsBytes s (objFree s id) := by
  unfold objFree
  exact keepsBytes_ite (keepsBytes_same rfl rfl rfl) (.refl s)

theorem keepsBytes_freeObjects (l : List Nat) : KeepsBytes s (freeObjects s l) := keepsBytes_foldl keepsBytes_objFree l s

theorem keepsBytes_freeGen (p : Nat) (g : Gen) : KeepsBytes s (freeGen s p g) := by
  unfold freeGen
  exact ((keepsBytes_ite (.refl s) (keepsBytes_unprotectGen ..)).trans (keepsBytes_freeObjects ..)).trans (keepsBytes_setPart ..)

theorem keepsBytes_unbindGen (p model num : Nat) : KeepsBytes s (unbindGen s p model num) := by
  unfold unbindGen
  split
  · exact .refl s
  · exact keepsBytes_ite (keepsBytes_freeGen ..) (keepsBytes_setPart ..)

theorem keepsBytes_unbindReq (r : Req) : KeepsBytes s (unbindReq s r) := (keepsBytes_unbindGen ..).trans (keepsBytes_unbindSlot ..)

/-! ### Key-value maps and sessions (R267, R281, R285, R294) -/

theorem keepsBytes_fitRecords (k : Nat) : KeepsBytes s (fitRecords s k) := by
  unfold fitRecords
  refine keepsBytes_ite ((keepsBytes_setPart ..).trans (keepsBytes_setMap ..)) ?_
  split
  · exact (keepsBytes_setPart ..).trans (keepsBytes_setMap ..)
  · exact .refl s

theorem keepsBytes_freeRecord (k : Nat) : KeepsBytes s (freeRecord s k) := by
  unfold freeRecord
  dsimp only
  refine .trans (.trans ?_ (keepsBytes_setPart ..)) (keepsBytes_setMap ..)
  split
  · exact keepsBytes_objFree ..
  · exact .refl s

theorem keepsBytes_freePages (k : Nat) : KeepsBytes s (freePages s k) := by
  unfold freePages
  exact ((keepsBytes_setPart ..).trans (keepsBytes_setMap ..)).trans (keepsBytes_fitRecords ..)

theorem keepsBytes_freeMirror (k : Nat) : KeepsBytes s (freeMirror s k) := keepsBytes_same rfl rfl rfl

theorem keepsBytes_freeSession (k : Nat) : KeepsBytes s (freeSession s k) := by
  unfold freeSession
  extract_lets s1 m s2
  have h1 : KeepsBytes s s1 := ((keepsBytes_freePages ..).trans (keepsBytes_freeMirror ..)).trans (keepsBytes_freeRecord ..)
  clear_value s1
  exact h1.trans (keepsBytes_same rfl rfl rfl)

theorem keepsBytes_orderFree (l : List Nat) (k : Nat) :
    KeepsBytes s (l.foldl (fun s n => if n = s.fab.node then s else s.send (.node n) (.freeOrder k)) s) :=
  keepsBytes_foldl (fun s _ => keepsBytes_ite (.refl s) (keepsBytes_send ..)) l s

theorem keepsBytes_closeSession (i : Nat) : KeepsBytes s (closeSession s i) := by
  unfold closeSession
  exact ((keepsBytes_freeSession ..).trans (keepsBytes_putSess ..)).trans (keepsBytes_orderFree ..)

theorem keepsBytes_releaseSession (r : Req) : KeepsBytes s (releaseSession s r) := by
  unfold releaseSession
  exact keepsBytes_ite (.refl s) (keepsBytes_ite (keepsBytes_closeSession ..) (keepsBytes_putSess ..))

theorem keepsBytes_dropSession (k : Nat) : KeepsBytes s (dropSession s k) := by
  unfold dropSession
  exact (((((keepsBytes_setPart ..).trans (keepsBytes_freePages ..)).trans (keepsBytes_freeMirror ..)).trans (keepsBytes_freeRecord ..)).trans
    (keepsBytes_fitRecords ..)).trans (keepsBytes_send ..)

theorem keepsBytes_commitMap (k : Nat) (o : OutcomeMsg) : KeepsBytes s (commitMap s k o) := by
  unfold commitMap
  extract_lets m c t s1 v c' t'
  have h1 : KeepsBytes s s1 := keepsBytes_ite (((keepsBytes_setPart ..).trans (keepsBytes_setMap ..)).trans (keepsBytes_fitRecords ..)) (keepsBytes_setMap ..)
  exact keepsBytes_ite (h1.trans (keepsBytes_same rfl rfl rfl)) h1

/-! ### Heats (R281, R317, R349) -/

theorem keepsBytes_slotStop (c k : Nat) : KeepsBytes s (slotStop s c k) := by
  unfold slotStop
  exact keepsBytes_ite (keepsBytes_setSlot ..) (.refl s)

theorem keepsBytes_stopHeat (id : Nat) : KeepsBytes s (stopHeat s id) :=
  keepsBytes_foldl (fun s (c : Nat × Nat) => (keepsBytes_slotStop s c.1 c.2).trans (keepsBytes_setSlot ..)) _ s

theorem keepsBytes_unpinHeat (id : Nat) : KeepsBytes s (unpinHeat s id) := keepsBytes_same rfl rfl rfl

theorem keepsBytes_retireHeat (id : Nat) : KeepsBytes s (retireHeat s id) := by
  unfold retireHeat
  exact keepsBytes_ite (keepsBytes_same rfl rfl rfl) (.refl s)

theorem keepsBytes_billLap (home handle a : Nat) (accept final : Bool) : KeepsBytes s (billLap s home handle a accept final) := keepsBytes_same rfl rfl rfl

theorem keepsBytes_takeOutcome (id : Nat) (h : Heat) (r : HeatRow) (o : OutcomeMsg) : KeepsBytes s (takeOutcome s id h r o) := by
  unfold takeOutcome
  exact keepsBytes_ite (keepsBytes_setMap ..) (((keepsBytes_commitMap ..).trans (keepsBytes_billLap ..)).trans (keepsBytes_retireHeat ..))

theorem keepsBytes_reportLap (id : Nat) : KeepsBytes s (reportLap s id) := by
  unfold reportLap
  extract_lets h homes roles s1 s2 s3 s4
  have h1 : KeepsBytes s s1 := keepsBytes_foldl (fun s home => keepsBytes_foldl (fun s r => keepsBytes_send ..) _ s) _ s
  have h2 : KeepsBytes s s2 := by
    simp only [s2]
    split
    · exact h1.trans (keepsBytes_send ..)
    · exact h1
  have h3 : KeepsBytes s s3 := by
    simp only [s3]
    split
    · exact h2.trans (keepsBytes_foldl (fun s r => keepsBytes_send ..) _ _)
    · exact h2
  have h4 : KeepsBytes s s4 := h3.trans (keepsBytes_setHeat ..)
  refine keepsBytes_ite (.refl s) (h4.trans (keepsBytes_foldl (fun t r => ?_) _ s4))
  split
  · exact keepsBytes_ite (keepsBytes_takeOutcome ..) (.refl t)
  · exact .refl t

/-! ### The end of requests (R317, R355, R413) -/

theorem keepsBytes_leaveCohort (c i : Nat) : KeepsBytes s (leaveCohort s c i) := by
  unfold leaveCohort
  exact keepsBytes_ite (keepsBytes_setCtx ..) (.refl s)

theorem keepsBytes_leaveQueue (tenant i : Nat) : KeepsBytes s (leaveQueue s tenant i) := keepsBytes_same rfl rfl rfl

theorem keepsBytes_endOne (i status : Nat) : KeepsBytes s (endOne s i status) := by
  unfold endOne
  extract_lets r e s1 x k p stats s2 s3 s4 s5
  have h1 : KeepsBytes s s1 := ((keepsBytes_setReq ..).trans (keepsBytes_leaveQueue ..)).trans (keepsBytes_leaveCohort ..)
  have h4 : KeepsBytes s s4 := ((keepsBytes_setPart s r.part _).trans (keepsBytes_setReq ..)).trans (keepsBytes_send ..)
  have h5 : KeepsBytes s s5 := ((h4.trans (keepsBytes_releaseSession ..)).trans (keepsBytes_unbindReq ..)).trans (keepsBytes_leaveCohort ..)
  refine keepsBytes_ite (.refl s) (keepsBytes_ite ?_ (h5.trans (keepsBytes_postDone ..)))
  exact (keepsBytes_ite h1 (h1.trans (keepsBytes_putSess ..))).trans (keepsBytes_postDone ..)

theorem keepsBytes_endHeat (id : Nat) : KeepsBytes s (endHeat s id) := by
  refine keepsBytes_foldl (fun t r => ?_) _ s
  split
  · exact keepsBytes_ite (keepsBytes_endOne ..) (.refl t)
  · exact .refl t

theorem keepsBytes_applyCancel (id epoch : Nat) : KeepsBytes s (applyCancel s id epoch) := by
  unfold applyCancel
  refine keepsBytes_ite (.refl s) (.trans (.trans (.trans ?_ (keepsBytes_stopHeat ..)) (keepsBytes_endHeat ..)) (keepsBytes_reportLap ..))
  exact (keepsBytes_unpinHeat s id).trans (keepsBytes_setHeat ..)

theorem keepsBytes_cancelHeat (id : Nat) : KeepsBytes s (cancelHeat s id) := by
  unfold cancelHeat
  exact keepsBytes_ite (.refl s) ((keepsBytes_send ..).trans (keepsBytes_applyCancel ..))

theorem keepsBytes_heatCheck (id : Nat) : KeepsBytes s (heatCheck s id) := by
  unfold heatCheck
  exact keepsBytes_ite (keepsBytes_cancelHeat ..) (.refl s)

theorem keepsBytes_endReq (i status : Nat) : KeepsBytes s (endReq s i status) := (keepsBytes_endOne ..).trans (keepsBytes_heatCheck ..)

theorem keepsBytes_endAll (status : Nat) (f : Req → Bool) : KeepsBytes s (endAll s status f) :=
  keepsBytes_foldl (fun t i => keepsBytes_endReq t i status) _ s

theorem keepsBytes_settle : KeepsBytes s (settle s) := by
  refine keepsBytes_foldl (fun t f => ?_) _ s
  exact keepsBytes_ite ((keepsBytes_setFn ..).trans (keepsBytes_endAll ..)) (.refl t)

end

end Sys2Proof.Machine
end

section
/-!
PROOFS of attention and KV: what an end ordered for a request makes of its entry, and what it leaves of every other (R317, R355).
-/

namespace Sys2Proof.Machine

/-! ### The entry that ends -/

/-- An entry `x` is entry `r` ended with a status, what its seals delivered kept. -/
structure EndedFrom (r x : Req) (status : Nat) : Prop where
  state : x.state = .ended
  status : x.status = status
  delivered : x.delivered = r.delivered
  digest : x.digest = r.digest
  pending : x.pending = r.pending
  lap : r.inLap = false → x.inLap = false ∧ x.lap = r.lap

section

variable {s t u : State} {i : Nat}

theorem EndedFrom.posted {r x : Req} {status : Nat} (h : EndedFrom r x status) (b : Bool) : EndedFrom r { x with posted := b } status :=
  ⟨h.state, h.status, h.delivered, h.digest, h.pending, h.lap⟩

/-- An end ordered for an open request of this package writes its ended entry, from its queue or from a lap, and then posts REQ.DONE. -/
theorem endOne_of_open (hopen : (s.req i).isOpen = true) (hmirror : (s.req i).mirror = false) (status : Nat) :
    ∃ u x, endOne s i status = postDone u i ∧ u.srv.ledger = tput s.srv.ledger i x ∧ EndedFrom (s.req i) x status := by
  unfold endOne
  extract_lets r e s1 x k p stats s2 s3 s4 s5
  rw [if_neg (by simp [r, hopen, hmirror])]
  split
  · refine ⟨_, e, rfl, ?_, ⟨rfl, rfl, rfl, rfl, rfl, fun hlap => ⟨hlap, rfl⟩⟩⟩
    have h1 : s1.srv.ledger = tput s.srv.ledger i e := by
      simp only [s1, leaveCohort_ledger, leaveQueue_ledger]
      rfl
    split
    · exact h1
    · exact (putSess_ledger ..).trans h1
  · refine ⟨s5, _, rfl, show s5.srv.ledger = s3.srv.ledger by simp [s5, s4], ⟨rfl, rfl, rfl, rfl, rfl, fun hlap => ?_⟩⟩
    exact ⟨by simp [r, hlap], if_neg (by simp [r, hlap])⟩

/-- An end ordered for an open request of this package ends it. -/
theorem endOne_ends (hopen : (s.req i).isOpen = true) (hmirror : (s.req i).mirror = false) (status : Nat) :
    EndedFrom (s.req i) ((endOne s i status).req i) status := by
  obtain ⟨u, x, hend, hledger, hended⟩ := endOne_of_open hopen hmirror status
  obtain ⟨b, hb⟩ := req_postDone u i i
  have hx : u.req i = x := (congrArg (tget Req.reset · i) hledger).trans (tget_tput_same ..)
  rw [hend, hb, if_pos rfl, hx]
  exact hended.posted b

theorem endOne_of_closed (h : ¬((s.req i).isOpen = true ∧ (s.req i).mirror = false)) (status : Nat) : endOne s i status = s := by
  rw [endOne, if_pos (by simpa [or_iff_not_imp_left] using h)]

/-- The end of another request leaves an entry. -/
theorem req_endOne_ne {j : Nat} (hij : i ≠ j) (status : Nat) : (endOne s j status).req i = s.req i := by
  by_cases hend : (s.req j).isOpen = true ∧ (s.req j).mirror = false
  · obtain ⟨u, x, hend, hledger, _⟩ := endOne_of_open hend.1 hend.2 status
    obtain ⟨b, hb⟩ := req_postDone u j i
    rw [hend, hb, if_neg hij, State.req, hledger, tget_tput_ne _ _ _ hij, State.req]
  · rw [endOne_of_closed hend]

/-! ### Every other entry -/

/-- An entry stays as it was, or was open and has ended. -/
def LeftOrEnded (i : Nat) (s t : State) : Prop :=
  t.req i = s.req i ∨ (s.req i).isOpen = true ∧ ∃ status, EndedFrom (s.req i) (t.req i) status

theorem LeftOrEnded.refl (i : Nat) (s : State) : LeftOrEnded i s s := .inl rfl

theorem isOpen_of_ended {r : Req} (h : r.state = .ended) : r.isOpen = false := by simp [Req.isOpen, h]

theorem LeftOrEnded.trans (h : LeftOrEnded i s t) (g : LeftOrEnded i t u) : LeftOrEnded i s u := by
  rcases h with h | ⟨hopen, status, hended⟩
  · rwa [LeftOrEnded, h] at g
  · rcases g with g | ⟨hopen', _⟩
    · exact .inr ⟨hopen, status, g ▸ hended⟩
    · rw [isOpen_of_ended hended.state] at hopen'
      exact absurd hopen' Bool.false_ne_true

theorem leftOrEnded_of_ledger (h : t.srv.ledger = s.srv.ledger) : LeftOrEnded i s t := .inl (req_of_ledger h i)

theorem leftOrEnded_foldl {α : Type} {g : State → α → State} (h : ∀ s a, LeftOrEnded i s (g s a)) (l : List α) (s : State) :
    LeftOrEnded i s (l.foldl g s) :=
  foldl_keeps (LeftOrEnded i s) g l s (.refl i s) fun t ht a _ => ht.trans (h t a)

theorem leftOrEnded_endOne (s : State) (j status : Nat) : LeftOrEnded i s (endOne s j status) := by
  by_cases hij : i = j
  · subst hij
    by_cases hend : (s.req i).isOpen = true ∧ (s.req i).mirror = false
    · exact .inr ⟨hend.1, status, endOne_ends hend.1 hend.2 status⟩
    · exact .inl (by rw [endOne_of_closed hend])
  · exact .inl (req_endOne_ne hij status)

theorem leftOrEnded_endHeat (s : State) (id : Nat) : LeftOrEnded i s (endHeat s id) := by
  refine leftOrEnded_foldl (fun t r => ?_) _ s
  split
  · split
    · exact leftOrEnded_endOne ..
    · exact .refl i t
  · exact .refl i t

theorem leftOrEnded_applyCancel (s : State) (id epoch : Nat) : LeftOrEnded i s (applyCancel s id epoch) := by
  unfold applyCancel
  extract_lets h s0 src s1
  split
  · exact .refl i s
  · have h1 : s1.srv.ledger = s.srv.ledger := stopHeat_ledger ..
    exact ((leftOrEnded_of_ledger h1).trans (leftOrEnded_endHeat ..)).trans (leftOrEnded_of_ledger (reportLap_ledger ..))

theorem leftOrEnded_cancelHeat (s : State) (id : Nat) : LeftOrEnded i s (cancelHeat s id) := by
  unfold cancelHeat
  dsimp only
  split
  · exact .refl i s
  · exact (leftOrEnded_of_ledger (congrArg Serving.ledger (State.send_srv ..))).trans (leftOrEnded_applyCancel ..)

theorem leftOrEnded_heatCheck (s : State) (id : Nat) : LeftOrEnded i s (heatCheck s id) := by
  unfold heatCheck
  dsimp only
  split
  · exact leftOrEnded_cancelHeat ..
  · exact .refl i s

theorem leftOrEnded_endReq (s : State) (j status : Nat) : LeftOrEnded i s (endReq s j status) :=
  (leftOrEnded_endOne ..).trans (leftOrEnded_heatCheck ..)

theorem leftOrEnded_settle (s : State) : LeftOrEnded i s (settle s) := by
  refine leftOrEnded_foldl (fun t f => ?_) _ s
  split
  · exact .trans (leftOrEnded_of_ledger rfl) (leftOrEnded_foldl (fun t j => leftOrEnded_endReq t j stHOST_STALLED) _ _)
  · exact .refl i t

/-- An entry that has ended is left by all that follows. -/
theorem LeftOrEnded.of_ended (h : LeftOrEnded i s t) (hended : (s.req i).state = .ended) : t.req i = s.req i := by
  rcases h with h | ⟨hopen, _⟩
  · exact h
  · rw [isOpen_of_ended hended] at hopen
    exact absurd hopen Bool.false_ne_true

/-- An order to end an open request of this package ends it, whatever its heat comes to. -/
theorem endReq_ends (hopen : (s.req i).isOpen = true) (hmirror : (s.req i).mirror = false) (status : Nat) :
    EndedFrom (s.req i) ((endReq s i status).req i) status := by
  have hends := endOne_ends hopen hmirror status
  rw [endReq, (leftOrEnded_heatCheck (endOne s i status) (s.req i).heat).of_ended hends.state]
  exact hends

/-! ### Every request of a list -/

/-- Ordered ends reach every open request of this package that the list names. -/
theorem foldl_endOne_ends {l : List Nat} {status : Nat} (hi : i ∈ l) (h : (s.req i).isOpen = true ∧ (s.req i).mirror = false ∨ (s.req i).state = .ended) :
    ((l.foldl (fun s i => endOne s i status) s).req i).state = .ended := by
  induction l generalizing s with
  | nil => exact absurd hi List.not_mem_nil
  | cons j l ih =>
    rw [List.foldl_cons]
    by_cases hij : i = j
    · subst hij
      have hended : ((endOne s i status).req i).state = .ended := by
        rcases h with ⟨hopen, hmirror⟩ | hended
        · exact (endOne_ends hopen hmirror status).state
        · rw [(leftOrEnded_endOne s i status).of_ended hended, hended]
      have hkept := leftOrEnded_foldl (i := i) (fun s j => leftOrEnded_endOne s j status) l (endOne s i status)
      rw [hkept.of_ended hended, hended]
    · exact ih ((List.mem_cons.1 hi).resolve_left hij) (by rwa [req_endOne_ne hij])

end

/-- A record with a property the default lacks is listed under its number. -/
theorem mem_tkeys_filter {α : Type} {d : α} {t : Tab α} {k : Nat} {p : α → Bool} (hd : p d = false) (h : p (tget d t k) = true) :
    k ∈ tkeys (t.filter fun e => p e.2) := by
  induction t with
  | nil =>
    rw [tget_nil, hd] at h
    exact absurd h Bool.false_ne_true
  | cons e t ih =>
    by_cases hk : e.1 = k
    · rw [tget, if_pos hk] at h
      rw [List.filter_cons_of_pos (p := fun e : Nat × α => p e.2) h, tkeys, List.map_cons, hk]
      exact List.mem_cons_self
    · rw [tget, if_neg hk] at h
      exact (List.map_subset _ ((List.sublist_cons_self e t).filter _).subset) (ih h)

end Sys2Proof.Machine
end

section
/-!
PROOFS of attention and KV: sessions and the REQ messages (R285, R355, R360 to R370, R423, R424).
-/

namespace Sys2Proof.Machine

/-! ### Values the manual leaves open -/

section

variable {α : Type} {s s1 : State} {l : List α} {a : α}

/-- A pick changes what has been drawn alone. -/
theorem pickOne_rest (h : pickOne s l = some (a, s1)) : ∃ n, s1 = { s with drawn := n } := by
  unfold pickOne at h
  split at h
  · cases h
  · cases h
    exact ⟨_, rfl⟩
  · cases h
    exact ⟨_, rfl⟩

/-- What is picked is one of those there were to pick from. -/
theorem pickOne_mem (h : pickOne s l = some (a, s1)) : a ∈ l := by
  unfold pickOne at h
  split at h
  · cases h
  · cases h
    exact List.mem_singleton_self _
  · cases h
    exact nth_mem _ _ _ List.mem_cons_self

end

/-! ### Sessions (R285, R367) -/

section

variable (s : State)

/-- A session's entry is written, and nothing else of the serving state. -/
theorem putSess_srv (i : Nat) (x : Session) : (putSess s i x).srv = { s.srv with sessions := tput s.srv.sessions i x } := by
  unfold putSess
  dsimp only
  split
  · exact State.send_srv ..
  · rfl

theorem sess_putSess_ne {i j : Nat} (h : j ≠ i) (x : Session) : (putSess s i x).sess j = s.sess j := by
  rw [State.sess, putSess_srv]
  exact tget_tput_ne _ _ _ h

theorem req_putSess (i : Nat) (x : Session) (j : Nat) : (putSess s i x).req j = s.req j := req_of_ledger (putSess_ledger ..) j

theorem sess_fitRecords (k i : Nat) : (fitRecords s k).sess i = s.sess i := by
  unfold fitRecords
  extract_lets m p fb need
  split
  · rfl
  · split
    · rfl
    · rfl

theorem sess_freePages (k i : Nat) : (freePages s k).sess i = s.sess i := by
  unfold freePages
  exact sess_fitRecords ..

theorem sess_freeMirror (k i : Nat) : (freeMirror s k).sess i = s.sess i := rfl

theorem sess_freeSession (k i : Nat) : (freeSession s k).sess i = s.sess i := by
  unfold freeSession
  extract_lets s1 m s2
  have h1 : s1.sess i = s.sess i := (sess_freeRecord ..).trans ((sess_freeMirror ..).trans (sess_freePages ..))
  clear_value s1
  exact h1

/-- A closed session keeps its reuse generation alone, and every other session is as it was. -/
theorem sess_closeSession (i j : Nat) :
    (closeSession s i).sess j = if j = i then { Session.reset with reuse := (s.sess i).reuse } else s.sess j := by
  have horders (k : Nat) (l : List Nat) (u : State) :
      (l.foldl (fun s n => if n = s.fab.node then s else s.send (.node n) (.freeOrder k)) u).sess j = u.sess j := by
    refine sess_foldl (fun t n => ?_) l u
    split
    · rfl
    · exact sess_send ..
  unfold closeSession
  rw [horders]
  split
  · next h =>
    subst h
    exact sess_putSess_same ..
  · next h => rw [sess_putSess_ne _ h, sess_freeSession]

theorem keepsBytes_startPark (i : Nat) : KeepsBytes s (startPark s i) :=
  (keepsBytes_putSess ..).trans (keepsBytes_foldl (fun _ _ => keepsBytes_send ..) _ _)

theorem sess_startPark (i j : Nat) : (startPark s i).sess j =
    if j = i then { s.sess i with state := .parking, waiting := jobNodes s (s.sess i).ctx } else s.sess j := by
  unfold startPark
  dsimp only
  rw [sess_foldl fun t n => sess_send ..]
  split
  · next h =>
    subst h
    exact sess_putSess_same ..
  · next h => exact sess_putSess_ne _ h _

end

/-! ### Handles (R361, R367) -/

section

variable {s s1 : State} {m : Msg} {i : Nat}

theorem mirror_of_reqIdx {h : Nat} (hreq : reqIdx s h = some i) : (s.req i).mirror = false := by
  unfold reqIdx at hreq
  dsimp only at hreq
  split at hreq
  · next hnamed =>
    cases hreq
    obtain ⟨_, _, hmirror, _⟩ := hnamed
    simpa using hmirror
  · cases hreq

/-- A handle that names a request of the message's partition names one of this package's own. -/
theorem mirror_of_reqOf (h : reqOf s m = .inl i) : (s.req i).mirror = false := by
  unfold reqOf at h
  split at h
  · cases h
  · next hreq =>
    split at h
    · cases h
      exact mirror_of_reqIdx hreq
    · cases h

/-- A session index that is free, and what its pick changes. -/
theorem freeSess_some (h : freeSess s = some (i, s1)) : (s.sess i).isOpen = false ∧ ∃ n, s1 = { s with drawn := n } := by
  have hfree := List.of_mem_filter (pickOne_mem h)
  exact ⟨by simpa using hfree, pickOne_rest h⟩

end

/-! ### REQ.SUBMIT (R360, R364, R424) -/

section

variable {s s1 : State} {m : Msg} {i : Nat} {coh : Bool} {toks : List Nat}

/-- The index of a submission is found among contexts' cohorts and by draws alone. -/
theorem takeIndex_rest {c fn : Nat} (h : takeIndex s c fn = some (i, coh, s1)) : ∃ l n, s1 = { s with srv := { s.srv with ctxs := l }, drawn := n } := by
  have hany (hfree : (freeIndex s 65536 (ledgerFree s)).map (fun r => (r.1, false, r.2)) = some (i, coh, s1)) :
      ∃ l n, s1 = { s with srv := { s.srv with ctxs := l }, drawn := n } := by
    obtain ⟨r, hr, heq⟩ := Option.map_eq_some_iff.1 hfree
    cases heq
    obtain ⟨n, hn⟩ := pickOne_rest hr
    exact ⟨s.srv.ctxs, n, hn⟩
  unfold takeIndex at h
  dsimp only at h
  split at h
  · exact hany h
  split at h
  · split at h
    · split at h
      · cases h
        exact ⟨_, s.drawn, rfl⟩
      · exact hany h
    · exact hany h
  · split at h
    · cases h
      exact ⟨_, s.drawn, rfl⟩
    · cases h

/-- A request's new entry, known to its session and last in its tenant's queue. -/
def enterReq (s : State) (i : Nat) (r : Req) : State :=
  let s2 := s.setReq i r
  let s3 := if r.session = 0 then s2 else putSess s2 r.sessIdx { s2.sess r.sessIdx with request := some i }
  { s3 with srv := { s3.srv with queues := tput s3.srv.queues r.tenant (tget [] s3.srv.queues r.tenant ++ [i]) } }

/-- What a submission makes of an index. -/
structure Entered (s u : State) (i : Nat) (r : Req) : Prop where
  entry : u.req i = r
  others : ∀ j, j ≠ i → u.req j = s.req j
  queue : tget [] u.srv.queues r.tenant = tget [] s.srv.queues r.tenant ++ [i]
  session : r.session ≠ 0 → (u.sess r.sessIdx).request = some i
  bytes : KeepsBytes s u

theorem enterReq_entered (s : State) (i : Nat) (r : Req) : Entered s (enterReq s i r) i r := by
  unfold enterReq
  extract_lets s2 x s3
  have hreq (j : Nat) : s3.req j = s2.req j := by
    simp only [s3]
    split
    · rfl
    · exact req_putSess ..
  have hqueues : s3.srv.queues = s.srv.queues := by
    simp only [s3]
    split
    · rfl
    · exact (congrArg Serving.queues (putSess_srv s2 r.sessIdx _)).trans rfl
  have hbytes : KeepsBytes s s3 := (keepsBytes_setReq s i r).trans (keepsBytes_ite (.refl s2) (keepsBytes_putSess ..))
  refine ⟨(hreq i).trans (State.req_setReq_same ..), fun j hj => (hreq j).trans ?_, ?_, fun hsession => ?_, hbytes.trans (keepsBytes_same rfl rfl rfl)⟩
  · rw [State.req_setReq, if_neg hj]
  · exact (tget_tput_same ..).trans (by rw [hqueues])
  · have hput : s3.sess r.sessIdx = { s2.sess r.sessIdx with request := some i } := by
      simp only [s3, if_neg hsession]
      exact sess_putSess_same ..
    exact congrArg Session.request hput

/-- The twin's copy of an entry leaves it entered. -/
theorem Entered.copied {u : State} {r : Req} (h : Entered s u i r) (k : Nat) : Entered s (copyLedger u k) i r := by
  have hsrv := copyLedger_srv u k
  refine ⟨?_, fun j hj => ?_, ?_, fun hsession => ?_, h.bytes.trans (keepsBytes_copyLedger ..)⟩
  · rw [req_of_ledger (congrArg _ hsrv), h.entry]
  · rw [req_of_ledger (congrArg _ hsrv), h.others j hj]
  · rw [hsrv, h.queue]
  · rw [State.sess, hsrv, ← State.sess, h.session hsession]

theorem bodyReqSubmit_of_fail {st : Nat} (h : submitFail s m = some st) : bodyReqSubmit s m = reply s 0x0501 m st [] := by simp only [bodyReqSubmit, h]

theorem bodyReqSubmit_of_ok (hok : submitFail s m = none) (hindex : takeIndex s (suCtx m) (pathFn m.path) = some (i, coh, s1))
    (hprompt : suTokens m = (toks, false)) (hvocab : ∀ x ∈ toks, x < (ctxMan s (suCtx m)).vocab) :
    bodyReqSubmit s m = reply (copyLedger (enterReq s1 i (newReq s m i coh toks)) i) 0x0501 m stOK (leBytes 4 ((newReq s m i coh toks).handle i)) := by
  have hknown : (toks.any fun x => decide ((ctxMan s (suCtx m)).vocab ≤ x)) = false := by simpa using hvocab
  unfold bodyReqSubmit
  simp only [hok, hindex, hprompt, hknown]
  rfl

theorem reqSubmit_enters (h : Serves s 0x0501 m) (hok : submitFail s m = none) (hindex : takeIndex s (suCtx m) (pathFn m.path) = some (i, coh, s1))
    (hprompt : suTokens m = (toks, false)) (hvocab : ∀ x ∈ toks, x < (ctxMan s (suCtx m)).vocab) :
    ∃ u, Answers (exec (.reqSubmit m) s) u 0x0501 m stOK (leBytes 4 (handleOf i (nextReuse (s.req i).reuse))) ∧
      u.req i = newReq s m i coh toks ∧ (u.req i).state = .queued ∧ (∀ j, j ≠ i → u.req j = s.req j) ∧
      tget [] u.srv.queues (suTenant m) = tget [] s.srv.queues (suTenant m) ++ [i] ∧
      (suSession m ≠ 0 → ∀ k, sessIdx s (suSession m) = some k → (u.sess k).request = some i) ∧ KeepsMemory s u := by
  obtain ⟨l, n, rfl⟩ := takeIndex_rest hindex
  have hentered := (enterReq_entered { s with srv := { s.srv with ctxs := l }, drawn := n } i (newReq s m i coh toks)).copied i
  refine ⟨_, answers_of_body h (bodyReqSubmit_of_ok hok hindex hprompt hvocab), hentered.entry, by rw [hentered.entry]; rfl, hentered.others,
    hentered.queue, fun hsession k hk => ?_, .trans (keepsMemory_same _ _ rfl rfl) hentered.bytes.memory⟩
  have hidx : (newReq s m i coh toks).sessIdx = k := by rw [newReq, hk, Option.getD_some]
  rw [← hidx]
  exact hentered.session hsession

/-! ### The other request messages -/

theorem reqCancel_answers (h : Serves s 0x0502 m) :
    (∀ st, reqOf s m = .inr st → Answers (exec (.reqCancel m) s) s 0x0502 m st []) ∧
    (∀ i, reqOf s m = .inl i →
      ((s.req i).isOpen = false → Answers (exec (.reqCancel m) s) s 0x0502 m stALREADY_DONE []) ∧
      ((s.req i).isOpen = true → ∃ u, Answers (exec (.reqCancel m) s) u 0x0502 m stOK [] ∧ (u.req i).state = .ended ∧
        (u.req i).status = stCANCELLED ∧ (u.req i).delivered = (s.req i).delivered ∧ KeepsMemory s u)) := by
  refine ⟨fun st hnone => answers_of_body h ?_, fun i hi => ⟨fun hended => answers_of_body h ?_, fun hopen => ?_⟩⟩
  · simp only [bodyReqCancel, hnone]
  · simp [bodyReqCancel, hi, hended]
  · obtain ⟨hstate, hstatus, hdelivered, _⟩ := endReq_ends hopen (mirror_of_reqOf hi) stCANCELLED
    exact ⟨_, answers_of_body h (by simp [bodyReqCancel, hi, hopen]), hstate, hstatus, hdelivered, (keepsBytes_endReq ..).memory⟩

theorem reqStatus_answers (h : Serves s 0x0503 m) :
    (∀ st, reqOf s m = .inr st → Answers (exec (.reqStatus m) s) s 0x0503 m st []) ∧
    (∀ i, reqOf s m = .inl i → Answers (exec (.reqStatus m) s) s 0x0503 m stOK (ledgerBytes i (s.req i))) := by
  refine ⟨fun st hnone => answers_of_body h ?_, fun i hi => answers_of_body h ?_⟩
  · simp only [bodyReqStatus, hnone]
  · simp only [bodyReqStatus, hi]

/-- A session as its message opens it. -/
def openedSess (s : State) (m : Msg) (i : Nat) : Session :=
  { Session.reset with
    isOpen := true, reuse := nextReuse (s.sess i).reuse, ctx := ble m.payload 0 1, part := mp s m, tenant := ble m.payload 2 2
    shareOk := nbits (ble m.payload 1 1) 0 0 == 1, home := s.fab.ownRole }

theorem bodyReqSessionOpen_of_free (hctx : ctxFail s (mp s m) (ble m.payload 0 1) = none) (htenant : (s.tenant (ble m.payload 2 2)).winUs ≠ 0)
    (hfree : freeSess s = some (i, s1)) :
    bodyReqSessionOpen s m = reply (putSess s1 i (openedSess s m i)) 0x0504 m stOK (leBytes 4 (handleOf i (nextReuse (s.sess i).reuse))) := by
  simp only [bodyReqSessionOpen, hctx, if_neg htenant, hfree]
  rfl

theorem reqSessionOpen_opens (h : Serves s 0x0504 m) (hctx : ctxFail s (mp s m) (ble m.payload 0 1) = none)
    (htenant : (s.tenant (ble m.payload 2 2)).winUs ≠ 0) (hfree : freeSess s = some (i, s1)) :
    (s.sess i).isOpen = false ∧
    ∃ u, Answers (exec (.reqSessionOpen m) s) u 0x0504 m stOK (leBytes 4 (handleOf i (nextReuse (s.sess i).reuse))) ∧ (u.sess i).isOpen = true ∧
      (u.sess i).state = .absent ∧ (u.sess i).ctx = ble m.payload 0 1 ∧ (u.sess i).tenant = ble m.payload 2 2 ∧
      (u.sess i).reuse = nextReuse (s.sess i).reuse ∧ (∀ j, j ≠ i → u.sess j = s.sess j) ∧ u.srv.ledger = s.srv.ledger ∧ KeepsMemory s u := by
  obtain ⟨hclosed, n, rfl⟩ := freeSess_some hfree
  refine ⟨hclosed, _, answers_of_body h (bodyReqSessionOpen_of_free hctx htenant hfree), ?_⟩
  rw [sess_putSess_same]
  refine ⟨rfl, rfl, rfl, rfl, rfl, fun j hj => sess_putSess_ne _ hj _, putSess_ledger .., ?_⟩
  exact .trans (keepsMemory_same _ _ rfl rfl) (keepsBytes_putSess ..).memory

theorem reqSessionClose_closes (h : Serves s 0x0505 m) :
    (∀ st, sessOf s m = .inr st → Answers (exec (.reqSessionClose m) s) s 0x0505 m st []) ∧
    (∀ i, sessOf s m = .inl i → ∃ u, Answers (exec (.reqSessionClose m) s) u 0x0505 m stOK [] ∧
      u.sess i = { Session.reset with reuse := (s.sess i).reuse } ∧ (∀ j, j ≠ i → u.sess j = s.sess j) ∧ u.srv.ledger = s.srv.ledger ∧
      KeepsMemory s u) := by
  refine ⟨fun st hnone => answers_of_body h ?_, fun i hi => ⟨closeSession s i, answers_of_body h ?_, ?_, fun j hj => ?_, closeSession_ledger .., ?_⟩⟩
  · simp only [bodyReqSessionClose, hnone]
  · simp only [bodyReqSessionClose, hi]
  · rw [sess_closeSession, if_pos rfl]
  · rw [sess_closeSession, if_neg hj]
  · exact (keepsBytes_closeSession ..).memory

theorem reqPark_parks (h : Serves s 0x0506 m) :
    (∀ st, sessOf s m = .inr st → Answers (exec (.reqPark m) s) s 0x0506 m st []) ∧
    (∀ i, sessOf s m = .inl i →
      ((s.sess i).state = .held → (s.part (s.sess i).part).park ≠ 0 → ∃ u, Answers (exec (.reqPark m) s) u 0x0506 m stOK [] ∧
        (u.sess i).state = .parking ∧ (∀ j, j ≠ i → u.sess j = s.sess j) ∧ KeepsMemory s u) ∧
      ((s.sess i).state ≠ .held ∨ (s.part (s.sess i).part).park = 0 → Answers (exec (.reqPark m) s) s 0x0506 m stOK [])) := by
  refine ⟨fun st hnone => answers_of_body h ?_, fun i hi => ⟨fun hheld hpark => ⟨startPark s i, answers_of_body h ?_, ?_, fun j hj => ?_, ?_⟩,
    fun hstay => answers_of_body h ?_⟩⟩
  · simp only [bodyReqPark, hnone]
  · simp only [bodyReqPark, hi, if_pos (And.intro hheld hpark)]
  · rw [sess_startPark, if_pos rfl]
  · rw [sess_startPark, if_neg hj]
  · exact (keepsBytes_startPark ..).memory
  · have hno : ¬((s.sess i).state = .held ∧ (s.part (s.sess i).part).park ≠ 0) := by tauto
    simp only [bodyReqPark, hi, if_neg hno]

end

/-- Settles O44: each message past its first checks is served by its own body; a submission enters its request at a free index, an end closes one entry, and a
session's messages write one session. -/
theorem requestMessagesAct : Obligations.RequestMessagesAct := by
  unfold Obligations.RequestMessagesAct
  intro s m
  refine ⟨fun h => ⟨fun st hfail => answers_of_body h (bodyReqSubmit_of_fail hfail), fun i coh s1 toks => reqSubmit_enters h⟩, reqCancel_answers,
    reqStatus_answers, fun h i s1 => reqSessionOpen_opens h, reqSessionClose_closes, reqPark_parks⟩

end Sys2Proof.Machine
end

section
/-!
PROOFS of attention and KV: what ends with a partition, its contexts, sessions, objects, cores and rings (R381, R385, R590).
-/

namespace Sys2Proof.Machine

/-! ### Tables changed record by record -/

section

variable {α β : Type} (d : α) (t : Tab α) (f : Nat → α → α) (k : Nat)

/-- A record of a table changed record by record is the changed one where it is listed. -/
theorem tget_map_cases : tget d (t.map fun e => (e.1, f e.1 e.2)) k = f k (tget d t k) ∨
    tget d (t.map fun e => (e.1, f e.1 e.2)) k = d ∧ tget d t k = d := by
  induction t with
  | nil => exact .inr ⟨rfl, rfl⟩
  | cons e t ih =>
    rw [List.map_cons, tget, tget]
    split
    · next h => exact .inl (by rw [h])
    · exact ih

/-- A field that no change of a record changes reads as before. -/
theorem tget_map_field (g : α → β) (h : ∀ x, g (f k x) = g x) : g (tget d (t.map fun e => (e.1, f e.1 e.2)) k) = g (tget d t k) := by
  rcases tget_map_cases d t f k with hf | ⟨hd, ht⟩
  · rw [hf, h]
  · rw [hd, ht]

/-- What the default and every changed record have, each record has. -/
theorem tget_map_of {p : α → Prop} (hd : p d) (h : ∀ x, p (f k x)) : p (tget d (t.map fun e => (e.1, f e.1 e.2)) k) := by
  rcases tget_map_cases d t f k with hf | ⟨hd', _⟩
  · rw [hf]
    exact h _
  · rwa [hd']

end

/-- Registers of every Beside die changed keep every byte. -/
theorem keepsBytes_mapBeside (s : State) (f : Nat → BesideDie → BesideDie) (h : ∀ d b, (f d b).mem = b.mem) :
    KeepsBytes s { s with beside := s.beside.map fun e => (e.1, f e.1 e.2) } := by
  refine ⟨⟨fun _ _ => rfl, fun _ _ => rfl, fun d a => ?_⟩, fun _ ho => ho⟩
  rw [nearByte, nearByte]
  exact congrArg (mget 0 · a) (tget_map_field _ _ f d BesideDie.mem (h d))

/-! ### Sessions closed and dropped (R285, R294) -/

/-- Where the table lists each object once, some objects may have gone and the rest are as they were. -/
def ObjsFreed (s t : State) : Prop :=
  Keyed s.far.objs → Keyed t.far.objs ∧ ∀ id, t.obj id = s.obj id ∨ (t.obj id).present = false

/-- Sessions have gone: nothing but partitions, the far tiers, sessions, maps, mirrors and what is sent differs, and objects have only been freed. -/
structure SessionsGone (s t : State) : Prop where
  rest : ∃ p f b o x m v,
    t = { s with parts := p, far := f, fab := b, out := o, srv := { s.srv with sessions := x, maps := m, mirrors := v } }
  objs : ObjsFreed s t

section

variable {s t u : State}

theorem ObjsFreed.refl (s : State) : ObjsFreed s s := fun h => ⟨h, fun _ => .inl rfl⟩

theorem ObjsFreed.trans (h : ObjsFreed s t) (g : ObjsFreed t u) : ObjsFreed s u := by
  intro hkeyed
  obtain ⟨hkeyed', ht⟩ := h hkeyed
  obtain ⟨hkeyed'', hu⟩ := g hkeyed'
  refine ⟨hkeyed'', fun id => ?_⟩
  rcases hu id with hu | hu
  · rw [hu]
    exact ht id
  · exact .inr hu

theorem objsFreed_same (h : t.far = s.far) : ObjsFreed s t := fun hkeyed => ⟨by rwa [h], fun id => .inl (by rw [State.obj, h, ← State.obj])⟩

theorem tdel_sublist {α : Type} (t : Tab α) (k : Nat) : (tdel t k).Sublist t := by
  induction t with
  | nil => exact .slnil
  | cons e t ih =>
    unfold tdel
    split
    · exact List.sublist_cons_self ..
    · exact ih.cons_cons _

theorem keyed_tdel {α : Type} {t : Tab α} (h : Keyed t) (k : Nat) : Keyed (tdel t k) := h.sublist ((tdel_sublist t k).map _)

/-- A freed object is there no longer. -/
theorem present_objFree (hkeyed : Keyed s.far.objs) (id : Nat) : ((objFree s id).obj id).present = false := by
  by_cases h : (s.obj id).present = true
  · rw [obj_objFree_of_keyed hkeyed h]
    rfl
  · rw [objFree, if_neg h]
    simpa using h

theorem objsFreed_objFree (s : State) (id : Nat) : ObjsFreed s (objFree s id) := by
  refine fun hkeyed => ⟨?_, fun j => ?_⟩
  · unfold objFree
    dsimp only
    split
    · exact keyed_tdel hkeyed id
    · exact hkeyed
  · by_cases hj : j = id
    · rw [hj]
      exact .inr (present_objFree hkeyed id)
    · exact .inl (obj_objFree_ne hj)

theorem SessionsGone.refl (s : State) : SessionsGone s s := ⟨⟨_, _, _, _, _, _, _, rfl⟩, .refl s⟩

theorem SessionsGone.trans (h : SessionsGone s t) (g : SessionsGone t u) : SessionsGone s u := by
  obtain ⟨⟨_, _, _, _, _, _, _, rfl⟩, h⟩ := h
  obtain ⟨⟨p, f, b, o, x, m, v, rfl⟩, g⟩ := g
  exact ⟨⟨p, f, b, o, x, m, v, rfl⟩, h.trans g⟩

theorem sessionsGone_foldl {α : Type} {f : State → α → State} (h : ∀ s a, SessionsGone s (f s a)) (l : List α) (s : State) :
    SessionsGone s (l.foldl f s) :=
  foldl_keeps (SessionsGone s) f l s (.refl s) fun t ht a _ => ht.trans (h t a)

theorem sessionsGone_of_work (h : SessionWork s t) (hobjs : ObjsFreed s t) : SessionsGone s t := by
  obtain ⟨p, f, b, o, x, m, rfl⟩ := h
  exact ⟨⟨p, f, b, o, x, m, s.srv.mirrors, rfl⟩, hobjs⟩

theorem SessionsGone.ctxs (h : SessionsGone s t) : t.srv.ctxs = s.srv.ctxs := by
  obtain ⟨⟨_, _, _, _, _, _, _, rfl⟩, _⟩ := h
  rfl

end

section

variable (s : State)

theorem sessionsGone_send (d : Dest) (m : FwMsg) : SessionsGone s (s.send d m) :=
  sessionsGone_of_work (sessionWork_send s d m) (objsFreed_same (State.send_far ..))

theorem sessionsGone_setPart (p : Nat) (x : Part) : SessionsGone s (s.setPart p x) := ⟨⟨_, _, _, _, _, _, _, rfl⟩, objsFreed_same rfl⟩

theorem sessionsGone_setMap (k : Nat) (x : KvMap) : SessionsGone s (s.setMap k x) := ⟨⟨_, _, _, _, _, _, _, rfl⟩, objsFreed_same rfl⟩

theorem putSess_far (i : Nat) (x : Session) : (putSess s i x).far = s.far := by
  unfold putSess
  dsimp only
  split
  · exact State.send_far ..
  · rfl

theorem sessionsGone_putSess (i : Nat) (x : Session) : SessionsGone s (putSess s i x) :=
  sessionsGone_of_work (sessionWork_putSess s i x) (objsFreed_same (putSess_far ..))

theorem sessionsGone_freeRecord (k : Nat) : SessionsGone s (freeRecord s k) := by
  refine sessionsGone_of_work (sessionWork_freeRecord s k) ?_
  unfold freeRecord
  extract_lets m s1
  have h1 : ObjsFreed s s1 := by
    simp only [s1]
    split
    · exact objsFreed_objFree _ _
    · exact .refl s
  exact h1.trans (objsFreed_same rfl)

theorem sessionsGone_fitRecords (k : Nat) : SessionsGone s (fitRecords s k) := by
  unfold fitRecords
  extract_lets m p fb need
  split
  · exact (sessionsGone_setPart ..).trans (sessionsGone_setMap ..)
  · split
    · exact (sessionsGone_setPart ..).trans (sessionsGone_setMap ..)
    · exact .refl s

theorem sessionsGone_freePages (k : Nat) : SessionsGone s (freePages s k) := by
  unfold freePages
  exact ((sessionsGone_setPart ..).trans (sessionsGone_setMap ..)).trans (sessionsGone_fitRecords ..)

theorem sessionsGone_freeMirror (k : Nat) : SessionsGone s (freeMirror s k) := ⟨⟨_, _, _, _, _, _, _, rfl⟩, objsFreed_same rfl⟩

theorem sessionsGone_freeSession (k : Nat) : SessionsGone s (freeSession s k) := by
  unfold freeSession
  extract_lets s1 m s2
  have h1 : SessionsGone s s1 := ((sessionsGone_freePages ..).trans (sessionsGone_freeMirror ..)).trans (sessionsGone_freeRecord ..)
  clear_value s1
  exact h1.trans ⟨⟨_, _, _, _, _, _, _, rfl⟩, objsFreed_same rfl⟩

theorem sessionsGone_closeSession (i : Nat) : SessionsGone s (closeSession s i) := by
  unfold closeSession
  refine ((sessionsGone_freeSession ..).trans (sessionsGone_putSess ..)).trans (sessionsGone_foldl (fun t n => ?_) _ _)
  split
  · exact .refl t
  · exact sessionsGone_send ..

theorem sessionsGone_dropSession (k : Nat) : SessionsGone s (dropSession s k) := by
  unfold dropSession
  exact (((((sessionsGone_setPart ..).trans (sessionsGone_freePages ..)).trans (sessionsGone_freeMirror ..)).trans (sessionsGone_freeRecord ..)).trans
    (sessionsGone_fitRecords ..)).trans (sessionsGone_send ..)

theorem sessionsGone_closeSessions (p : Nat) : SessionsGone s (closeSessions s p) := by
  unfold closeSessions
  extract_lets mine s1 rest s2
  have h1 : SessionsGone s s1 := sessionsGone_foldl sessionsGone_closeSession _ s
  have h2 : SessionsGone s1 s2 := by
    refine sessionsGone_foldl (fun t k => ?_) _ s1
    split
    · exact sessionsGone_dropSession ..
    · exact .refl t
  clear_value s2
  exact (h1.trans h2).trans ⟨⟨_, _, _, _, _, _, _, rfl⟩, objsFreed_same rfl⟩

theorem keepsBytes_closeSessions (p : Nat) : KeepsBytes s (closeSessions s p) := by
  unfold closeSessions
  extract_lets mine s1 rest s2
  have h1 : KeepsBytes s s1 := keepsBytes_foldl keepsBytes_closeSession _ s
  have h2 : KeepsBytes s1 s2 := keepsBytes_foldl (fun t k => keepsBytes_ite (keepsBytes_dropSession ..) (.refl t)) _ s1
  clear_value s2
  exact (h1.trans h2).trans (keepsBytes_same rfl rfl rfl)

/-! ### Contexts, heats and requests (R317, R381) -/

theorem keepsBytes_haltPart (p status : Nat) : KeepsBytes s (haltPart s p status) :=
  (keepsBytes_foldl (fun s i => keepsBytes_endOne s i status) _ s).trans (keepsBytes_foldl keepsBytes_cancelHeat _ _)

/-- A halted partition has no open request left. -/
theorem haltPart_ends {p i status : Nat} (hopen : (s.req i).isOpen = true) (hmirror : (s.req i).mirror = false) (hpart : (s.req i).part = p) :
    ((haltPart s p status).req i).state = .ended := by
  have hmem := mem_tkeys_filter (d := Req.reset) (t := s.srv.ledger) (k := i) (p := fun r => r.isOpen && !r.mirror && r.part == p) rfl
    (by simpa using ⟨⟨hopen, hmirror⟩, hpart⟩)
  have hended := foldl_endOne_ends (status := status) hmem (.inl ⟨hopen, hmirror⟩)
  unfold haltPart
  rw [(leftOrEnded_foldl leftOrEnded_cancelHeat _ _).of_ended hended, hended]

/-- No entry that has the partition's contexts in it is left. -/
theorem partCtxs_destroyCtxs (p : Nat) : partCtxs (destroyCtxs s p) p = [] := by
  rw [partCtxs, tkeys, List.map_eq_nil_iff, List.filter_eq_nil_iff]
  intro e he
  obtain ⟨hmem, hout⟩ := List.mem_filter.1 he
  intro hctx
  have hin : e.1 ∈ partCtxs s p := List.mem_map.2 ⟨e, List.mem_filter.2 ⟨hmem, hctx⟩, rfl⟩
  simp [hin] at hout

/-! ### Cores and rings (R590) -/

/-- A core of cleared rows is as a reset leaves it. -/
theorem core_clearRows (rows : Word64) {c : Nat} (h : bit rows (starterOf c) = true) {p : Core → Prop} (hreset : p Core.reset)
    (hcleared : ∀ k : Core, p k.cleared) : p ((clearRows s rows).core c) :=
  tget_map_of Core.reset s.cores (fun i k => if bit rows (starterOf i) then k.cleared else k) c hreset fun k => by
    rw [if_pos h]
    exact hcleared k

end

end Sys2Proof.Machine
end

section
/-!
PROOFS of attention and KV: the PAR messages (R262, R379, R381, R383, R385, R394, R420, R590, R652).
-/

namespace Sys2Proof.Machine

/-! ### PAR.CREATE (R379, R381) -/

section

variable {s s1 : State} {m : Msg}

/-- The bases of a partition are found by draws alone. -/
theorem pickBases_rest {n : Nat} {acc bases : List Nat} (h : pickBases n s m acc = some (bases, s1)) : ∃ k, s1 = { s with drawn := k } := by
  induction n generalizing s acc with
  | zero =>
    cases h
    exact ⟨_, rfl⟩
  | succ n ih =>
    unfold pickBases at h
    dsimp only at h
    split at h
    · exact ih h
    · split at h
      · next hpick =>
        obtain ⟨_, hr⟩ := pickOne_rest hpick
        obtain ⟨k, hk⟩ := ih h
        rw [hr] at hk
        exact ⟨k, hk⟩
      · cases h

/-- The map entry of a partition on a stack (R180). -/
def dieEntry (m : Msg) (k base : Nat) : Word64 := mkWord [(0, 1), (1, nbits (ble m.payload 4 2) k k), (16, base), (32, crNear m k)]

/-- What a partition opened on one Beside die changes: that die's registers. -/
theorem openDie_opens (s : State) (p k base : Nat) (m : Msg) (rows : List Nat) :
    KeepsBytes s (openDie s p k base m rows) ∧ (openDie s p k base m rows).parts = s.parts ∧
    (∀ d, d ≠ k → (openDie s p k base m rows).bdie d = s.bdie d) ∧
    (crNear m k ≠ 0 → tget 0 ((openDie s p k base m rows).bdie k).map p = dieEntry m k base) := by
  unfold openDie
  split
  · next h => exact ⟨.refl s, rfl, fun _ _ => rfl, fun hne => absurd h hne⟩
  · extract_lets r b
    obtain ⟨n, hr⟩ : ∃ n, r.2 = { s with drawn := n } := by
      cases hpick : pickOne s rows with
      | none => exact ⟨s.drawn, by simp only [r, hpick]; rfl⟩
      | some a =>
        obtain ⟨n, hn⟩ := pickOne_rest hpick
        exact ⟨n, by simp only [r, hpick, Option.getD_some, hn]⟩
    rw [hr]
    have hdrawn : KeepsBytes s { s with drawn := n } := keepsBytes_same rfl rfl rfl
    refine ⟨hdrawn.trans (keepsBytes_setBdie _ _ _ ?_), rfl, fun d hd => State.bdie_setBdie_ne _ _ hd, fun _ => ?_⟩
    · simp only [b, hr]
    · rw [State.bdie_setBdie_same]
      exact tget_tput_same ..

/-- A new partition on the Beside dies of a list. -/
def openDies (s : State) (p : Nat) (bases : List Nat) (m : Msg) (rows l : List Nat) : State :=
  l.foldl (fun s k => openDie s p k (nth 0 bases k) m rows) s

theorem openDies_opens (s : State) (p : Nat) (bases : List Nat) (m : Msg) (rows l : List Nat) :
    KeepsBytes s (openDies s p bases m rows l) ∧ (openDies s p bases m rows l).parts = s.parts :=
  foldl_keeps (fun t => KeepsBytes s t ∧ t.parts = s.parts) _ l s ⟨.refl s, rfl⟩ fun t ht k _ => by
    obtain ⟨hbytes, hparts, _⟩ := openDie_opens t p k (nth 0 bases k) m rows
    exact ⟨ht.1.trans hbytes, hparts.trans ht.2⟩

/-- Each stack of the list that the partition has memory on has its map entry. -/
theorem openDies_map {s : State} {p : Nat} {bases : List Nat} {m : Msg} {rows l : List Nat} {k : Nat} (hnear : crNear m k ≠ 0)
    (h : k ∈ l ∨ tget 0 (s.bdie k).map p = dieEntry m k (nth 0 bases k)) :
    tget 0 ((openDies s p bases m rows l).bdie k).map p = dieEntry m k (nth 0 bases k) := by
  induction l generalizing s with
  | nil => exact h.resolve_left List.not_mem_nil
  | cons j l ih =>
    obtain ⟨_, _, hother, hself⟩ := openDie_opens s p j (nth 0 bases j) m rows
    refine ih ?_
    by_cases hj : k = j
    · subst hj
      exact .inr (hself hnear)
    · rw [hother k hj]
      exact h.imp_left fun hk => (List.mem_cons.1 hk).resolve_left hj

theorem parCreate_answers (h : Begins s 0x0201 m) :
    (∀ st, createFail s m = some st → Answers (exec (.parCreate m) s) s 0x0201 m st []) ∧
    (createFail s m = none → pickBases 12 s m [] = none → Answers (exec (.parCreate m) s) s 0x0201 m stNO_SPACE []) ∧
    (∀ bases s1, createFail s m = none → pickBases 12 s m [] = some (bases, s1) →
      ∃ u, InBackground (exec (.parCreate m) s) u 0x0201 m (leNat (bases.flatMap (leBytes 2))) ∧
        u.part m.part = createdPart (s.part m.part) s.aon m bases ∧ (u.part m.part).state = .active ∧ (∀ q, q ≠ m.part → u.part q = s.part q) ∧
        (∀ k, k < 12 → crNear m k ≠ 0 → tget 0 (u.bdie k).map m.part = dieEntry m k (nth 0 bases k)) ∧ KeepsMemory s u) := by
  refine ⟨fun st hfail => answers_of_deferred_body h ?_, fun hok hnone => answers_of_deferred_body h ?_, fun bases s1 hok hpick => ?_⟩
  · simp only [bodyParCreate, hfail]
  · simp only [bodyParCreate, hok, hnone]
  · set p := createdPart (s.part m.part) s.aon m bases with hp
    set s2 := s1.setPart m.part p with hs2
    obtain ⟨hbytes, hparts⟩ := openDies_opens s2 m.part bases m (rowList p.rows) (List.range 12)
    obtain ⟨n, hdrawn⟩ := pickBases_rest hpick
    have hpart (q : Nat) : (openDies s2 m.part bases m (rowList p.rows) (List.range 12)).part q = if q = m.part then p else s.part q := by
      rw [State.part, hparts, ← State.part, hs2, State.part_setPart, hdrawn]
      rfl
    refine ⟨openDies s2 m.part bases m (rowList p.rows) (List.range 12), inBackground_of_body h ?_, ?_, ?_, fun q hq => ?_, fun k hk hnear => ?_,
      .trans (keepsMemory_same _ _ ?_ ?_) hbytes.memory⟩
    · simp only [bodyParCreate, hok, hpick]
      rfl
    · rw [hpart, if_pos rfl]
    · rw [hpart, if_pos rfl, hp, createdPart]
    · rw [hpart, if_neg hq]
    · exact openDies_map hnear (.inl (List.mem_range.2 hk))
    · rw [hs2, hdrawn]
      rfl
    · rw [hs2, hdrawn]
      rfl

end

/-! ### Ends of a partition (R381, R590) -/

section

variable {s : State} {m : Msg} {p : Nat}

theorem parStop_answers (h : Begins s 0x0203 m) (hp : p = mp s m) :
    ((s.part p).state ≠ .active → InBackground (exec (.parStop m) s) s 0x0203 m 0) ∧
    ((s.part p).state = .active → ∃ u, InBackground (exec (.parStop m) s) u 0x0203 m 0 ∧ (u.part p).state = .stopped ∧
      (∀ i, (s.req i).isOpen = true → (s.req i).mirror = false → (s.req i).part = p → (u.req i).state = .ended) ∧ KeepsMemory s u) := by
  subst hp
  refine ⟨fun hne => inBackground_of_body h ?_, fun hact => ?_⟩
  · simp only [bodyParStop, if_neg hne]
  · set s2 := haltPart s (mp s m) stPARTITION_STOPPED with hs2
    refine ⟨s2.setPart (mp s m) { s2.part (mp s m) with state := .stopped }, inBackground_of_body h ?_, ?_, fun i hopen hmirror hpart => ?_, ?_⟩
    · simp only [bodyParStop, if_pos hact]
      rfl
    · rw [State.part_setPart_same]
    · exact haltPart_ends s hopen hmirror hpart
    · exact ((keepsBytes_haltPart ..).trans (keepsBytes_setPart ..)).memory

theorem parStart_answers (h : Begins s 0x0204 m) (hp : p = mp s m) :
    ∃ u, InBackground (exec (.parStart m) s) u 0x0204 m 0 ∧ u.part p = { s.part p with state := .active } ∧
      (∀ q, q ≠ p → u.part q = s.part q) ∧ u = { s with parts := u.parts } := by
  subst hp
  exact ⟨_, inBackground_of_body h rfl, State.part_setPart_same .., fun q hq => by rw [State.part_setPart, if_neg hq], rfl⟩

/-- A partition's contexts and sessions gone, its requests ended. -/
def vacated (s : State) (p : Nat) : State := closeSessions (destroyCtxs (haltPart s p stPARTITION_RESET) p) p

theorem keepsBytes_vacated (s : State) (p : Nat) : KeepsBytes s (vacated s p) := by
  have hdestroy (t : State) : KeepsBytes t (destroyCtxs t p) := keepsBytes_same rfl rfl rfl
  exact ((keepsBytes_haltPart ..).trans (hdestroy _)).trans (keepsBytes_closeSessions ..)

theorem partCtxs_vacated (s : State) (p : Nat) : partCtxs (vacated s p) p = [] := by
  rw [partCtxs, vacated, (sessionsGone_closeSessions ..).ctxs]
  exact partCtxs_destroyCtxs ..

/-- A partition with its contexts, sessions, requests, cores and rings reset. -/
def emptied (s : State) (p : Nat) : State := clearRings (clearRows (vacated s p) (s.part p).rows) p

/-- A partition's record as its reset leaves it. -/
def reopened (x : Part) : Part := { x with state := .active, frames := [], evict := none, swapTimes := [] }

theorem bodyParReset_eq (s : State) (m : Msg) : bodyParReset s m =
    beginDeferred ((emptied s (mp s m)).setPart (mp s m) (reopened ((emptied s (mp s m)).part (mp s m)))) 0x0205 m 0 := rfl

theorem clearRings_cores (s : State) (p : Nat) : (clearRings s p).cores = s.cores := rfl

theorem keepsBytes_clearRings (s : State) (p : Nat) : KeepsBytes s (clearRings s p) :=
  keepsBytes_mapBeside s (fun _ b => { b with rings := b.rings.map fun r =>
    (r.1, if r.1 = p then { Ring.reset with owner := r.2.owner, en := r.2.en } else r.2) }) fun _ _ => rfl

theorem clearRows_beside (s : State) (rows : Word64) : (clearRows s rows).beside = s.beside := rfl

/-- A core of a partition's rows is empty once the partition is. -/
theorem core_emptied (s : State) (p : Nat) {c : Nat} (h : bit (s.part p).rows (starterOf c) = true) {q : Core → Prop} (hreset : q Core.reset)
    (hcleared : ∀ k : Core, q k.cleared) : q ((emptied s p).core c) := by
  rw [State.core, emptied, clearRings_cores]
  exact core_clearRows _ _ h hreset hcleared

theorem nearByte_setPart (s : State) (q : Nat) (x : Part) (d a : Nat) : nearByte (s.setPart q x) d a = nearByte s d a := rfl

theorem nearByte_emptied (s : State) (p d a : Nat) : nearByte (emptied s p) d a = nearByte s d a := by
  obtain ⟨_, _, hrings⟩ := (keepsBytes_clearRings (clearRows (vacated s p) (s.part p).rows) p).memory
  obtain ⟨_, _, hvacated⟩ := (keepsBytes_vacated s p).memory
  rw [emptied, hrings, nearByte, State.bdie, clearRows_beside]
  exact hvacated d a

theorem clearRings_srv (s : State) (p : Nat) : (clearRings s p).srv = s.srv := rfl

theorem clearRows_srv (s : State) (rows : Word64) : (clearRows s rows).srv = s.srv := rfl

theorem partCtxs_setPart (s : State) (q : Nat) (x : Part) (p : Nat) : partCtxs (s.setPart q x) p = partCtxs s p := rfl

theorem partCtxs_emptied (s : State) (p : Nat) : partCtxs (emptied s p) p = [] := by
  rw [partCtxs, emptied, clearRings_srv, clearRows_srv]
  exact partCtxs_vacated s p

theorem parReset_answers (h : Begins s 0x0205 m) (hp : p = mp s m) :
    ∃ u, InBackground (exec (.parReset m) s) u 0x0205 m 0 ∧ (u.part p).state = .active ∧ (u.part p).frames = [] ∧
      partCtxs u p = [] ∧ (∀ c a, bit (s.part p).rows (starterOf c) = true → spadByte u c a = 0) ∧
      (∀ c k, bit (s.part p).rows (starterOf c) = true → (u.slot c k).state = .unbound) ∧ ∀ d a, nearByte u d a = nearByte s d a := by
  subst hp
  refine ⟨_, inBackground_of_body h (bodyParReset_eq s m), ?_, ?_, (partCtxs_setPart ..).trans (partCtxs_emptied ..), fun c a hc => ?_,
    fun c k hc => ?_, fun d a => (nearByte_setPart ..).trans (nearByte_emptied ..)⟩
  · rw [State.part_setPart_same, reopened]
  · rw [State.part_setPart_same, reopened]
  · rw [spadByte, State.setPart_core]
    exact core_emptied s _ hc (q := fun x => mget 0 x.spad a = 0) rfl fun _ => rfl
  · rw [State.slot, State.setPart_core]
    refine core_emptied s _ hc (q := fun x => (x.slot k).state = .unbound) ?_ fun x => ?_ <;>
    · unfold Core.slot
      split <;> rfl

/-- The Beside dies with a partition's map entries, rings and protections gone. -/
def unmapPart (s : State) (p : Nat) : State :=
  { s with beside := s.beside.map fun d => (d.1, { d.2 with
      map := tdel d.2.map p, rings := tdel d.2.rings p, wp := d.2.wp.filter fun e => e.1 / 8 != p }) }

theorem obj_unmapPart (s : State) (p id : Nat) : (unmapPart s p).obj id = s.obj id := rfl

theorem keepsBytes_unmapPart (s : State) (p : Nat) : KeepsBytes s (unmapPart s p) :=
  keepsBytes_mapBeside s (fun _ b => { b with
    map := tdel b.map p, rings := tdel b.rings p, wp := b.wp.filter fun e => e.1 / 8 != p }) fun _ _ => rfl

/-- A partition's sessions closed, then the objects it still has freed. -/
def freedPart (s : State) (p : Nat) : State :=
  freeObjects (closeSessions s p) (tkeys ((closeSessions s p).far.objs.filter fun o => o.2.present && o.2.part == p))

theorem keepsBytes_freedPart (s : State) (p : Nat) : KeepsBytes s (freedPart s p) := (keepsBytes_closeSessions ..).trans (keepsBytes_freeObjects ..)

/-- Where the table lists each object once, none of a list is left once it has been freed. -/
theorem present_freeObjects {s : State} (hkeyed : Keyed s.far.objs) {l : List Nat} {id : Nat} (h : id ∈ l ∨ (s.obj id).present = false) :
    ((freeObjects s l).obj id).present = false := by
  induction l generalizing s with
  | nil => exact h.resolve_left List.not_mem_nil
  | cons j l ih =>
    obtain ⟨hkeyed', hobjs⟩ := objsFreed_objFree s j hkeyed
    refine ih hkeyed' ?_
    by_cases hj : id = j
    · subst hj
      exact .inr (present_objFree hkeyed id)
    · rw [obj_objFree_ne hj]
      exact h.imp_left fun hid => (List.mem_cons.1 hid).resolve_left hj

theorem present_freedPart (hkeyed : Keyed s.far.objs) {id : Nat} (hpart : (s.obj id).part = p) : ((freedPart s p).obj id).present = false := by
  obtain ⟨hkeyed', hobjs⟩ := (sessionsGone_closeSessions s p).objs hkeyed
  refine present_freeObjects hkeyed' ?_
  cases hpresent : ((closeSessions s p).obj id).present with
  | false => exact .inr rfl
  | true =>
    have hsame : (closeSessions s p).obj id = s.obj id := (hobjs id).resolve_right (by rw [hpresent]; exact Bool.noConfusion)
    refine .inl (mem_tkeys_filter (d := Obj.reset) (p := fun o => o.present && o.part == p) rfl ?_)
    change (((closeSessions s p).obj id).present && ((closeSessions s p).obj id).part == p) = true
    rw [hpresent, hsame, hpart]
    simp

theorem parDestroy_answers (h : Serves s 0x0202 m) (hstopped : (s.part m.part).state = .stopped) :
    (partCtxs s m.part ≠ [] ∨ (s.part m.part).gens ≠ [] → Answers (exec (.parDestroy m) s) s 0x0202 m stPARTITION_BUSY []) ∧
    (partCtxs s m.part = [] → (s.part m.part).gens = [] → Keyed s.far.objs → ∃ u, Answers (exec (.parDestroy m) s) u 0x0202 m stOK [] ∧
      u.part m.part = { Part.reset with stats := (s.part m.part).stats } ∧
      (∀ id, (s.obj id).present = true → (s.obj id).part = m.part → (u.obj id).present = false) ∧ KeepsMemory s u) := by
  have hused : (s.part m.part).state ≠ .free := by simp [hstopped]
  refine ⟨fun hbusy => answers_of_body h ?_, fun hctxs hgens hkeyed => ?_⟩
  · unfold bodyParDestroy
    dsimp only
    rw [if_neg hused, if_pos (.inr (by simpa using hbusy))]
  · refine ⟨(unmapPart (freedPart s m.part) m.part).setPart m.part { Part.reset with stats := (s.part m.part).stats }, answers_of_body h ?_,
      State.part_setPart_same .., fun id _ hpart => ?_, ?_⟩
    · unfold bodyParDestroy
      dsimp only
      rw [if_neg hused, if_neg (by simp [hstopped, hctxs, hgens])]
      rfl
    · rw [State.setPart_obj, obj_unmapPart]
      exact present_freedPart hkeyed hpart
    · exact ((keepsBytes_freedPart s m.part).trans ((keepsBytes_unmapPart ..).trans (keepsBytes_setPart ..))).memory

end

/-! ### Contexts and their formats (R262, R383, R385, R394) -/

section

variable {s s1 : State} {m : Msg} {p c : Nat}

/-- A context as its message creates it. -/
def createdCtx (m : Msg) (p : Nat) : Ctx :=
  { Ctx.reset with state := .benched, part := p, model := ble m.payload 0 8, prio := ble m.payload 8 1, slot := ble m.payload 9 1 }

theorem ctxCreate_answers {b : Bundle} (h : Serves s 0x0206 m) (hp : p = mp s m) (hprio : ble m.payload 8 1 ≤ 3) (hslot : ble m.payload 9 1 ≤ 3)
    (hbundle : (s.part p).bundles.find? (fun b => b.model == ble m.payload 0 8) = some b)
    (hpick : pickOne s ((List.range 256).filter fun c => (s.ctx c).state == .none) = some (c, s1))
    (hclash : windowClash s b.man (ble m.payload 9 1) = false) (hfits : benchFits s p b.man = true) :
    (s.ctx c).state = .none ∧ ∃ u, Answers (exec (.parCtxCreate m) s) u 0x0206 m stOK (leBytes 1 c) ∧ u.ctx c = createdCtx m p ∧
      (∀ d, d ≠ c → u.ctx d = s.ctx d) ∧ KeepsMemory s u := by
  subst hp
  have hfree := List.of_mem_filter (pickOne_mem hpick)
  obtain ⟨n, hdrawn⟩ := pickOne_rest hpick
  refine ⟨by simpa using hfree, s1.setCtx c (createdCtx m (mp s m)), answers_of_body h ?_, State.ctx_setCtx_same .., fun d hd => ?_,
    keepsMemory_same _ _ ?_ ?_⟩
  · have hvalid : ¬(3 < ble m.payload 8 1 ∨ 3 < ble m.payload 9 1) := by omega
    simp only [bodyParCtxCreate, if_neg hvalid, hbundle, hpick, hclash, hfits]
    rfl
  · rw [State.ctx_setCtx, if_neg hd, hdrawn]
    rfl
  · rw [hdrawn]
    rfl
  · rw [hdrawn]
    rfl

theorem keepsMemory_slotStop (s : State) (c k : Nat) : KeepsMemory s (slotStop s c k) := (keepsBytes_slotStop s c k).memory

theorem keepsMemory_slotClear (s : State) (c k : Nat) : KeepsMemory s (slotClear s c k) := by
  unfold slotClear
  dsimp only
  split
  · exact keepsMemory_setSlot ..
  · exact keepsMemory_refl s

theorem keepsMemory_slotUnbind (s : State) (c k : Nat) : KeepsMemory s (slotUnbind s c k) := by
  unfold slotUnbind
  dsimp only
  split
  · exact keepsMemory_setCore _ _ _ (by simp [forgetSeq]) (by simp [forgetSeq])
  · exact keepsMemory_refl s

/-- A context's slots let go where it is resident. -/
def slotsFreed (s : State) (c : Nat) : State :=
  if (s.ctx c).state = .resident then
    (footprint s c).foldl (fun t f => slotUnbind (slotStop (slotClear t f.1 (s.ctx c).slot) f.1 (s.ctx c).slot) f.1 (s.ctx c).slot) s
  else s

theorem slotsFreed_frees (s : State) (c : Nat) : CoresOnly s (slotsFreed s c) ∧ KeepsMemory s (slotsFreed s c) := by
  unfold slotsFreed
  split
  · refine ⟨coresOnly_foldl _ (fun t f => ((coresOnly_slotClear ..).trans (coresOnly_slotStop ..)).trans (coresOnly_slotUnbind ..)) _ s, ?_⟩
    exact keepsMemory_foldl _ (fun t f => ((keepsMemory_slotClear ..).trans (keepsMemory_slotStop ..)).trans (keepsMemory_slotUnbind ..)) _ s
  · exact ⟨.refl s, keepsMemory_refl s⟩

/-- A context's entry, its eviction in progress and the watches on it are gone. -/
def forgetCtx (s : State) (p c : Nat) : State :=
  let q := s.part p
  let s2 := s.setPart p { q with evict := match q.evict with | some e => if e.victim = c then none else some e | none => none }
  { s2 with
    srv := { s2.srv with ctxs := tdel s2.srv.ctxs c }
    dport := { s2.dport with watches := s2.dport.watches.filter fun w => w.ctx != c } }

theorem ctxDestroy_answers (h : Serves s 0x0207 m) (hp : p = mp s m) (hc : c = ble m.payload 0 1) :
    (∀ st, ctxFail s p c = some st → Answers (exec (.parCtxDestroy m) s) s 0x0207 m st []) ∧
    (ctxFail s p c = none → (s.srv.ledger.any fun e => e.2.isOpen && !e.2.mirror && e.2.ctx == c) = false → Keyed s.srv.ctxs →
      ∃ u, Answers (exec (.parCtxDestroy m) s) u 0x0207 m stOK [] ∧ (u.ctx c).state = .none ∧ (∀ d, d ≠ c → u.ctx d = s.ctx d) ∧
        u.srv.ledger = s.srv.ledger ∧ KeepsMemory s u) := by
  subst hp hc
  refine ⟨fun st hfail => answers_of_body h ?_, fun hok hidle hkeyed => ?_⟩
  · simp only [bodyParCtxDestroy, hfail]
  · obtain ⟨hcores, hmem⟩ := slotsFreed_frees s (ble m.payload 0 1)
    have hctxs : (forgetCtx (slotsFreed s (ble m.payload 0 1)) (mp s m) (ble m.payload 0 1)).srv.ctxs = tdel s.srv.ctxs (ble m.payload 0 1) :=
      congrArg (fun v : Serving => tdel v.ctxs (ble m.payload 0 1)) hcores.srv
    have hledger : (slotsFreed s (ble m.payload 0 1)).srv.ledger = s.srv.ledger := congrArg Serving.ledger hcores.srv
    refine ⟨forgetCtx (slotsFreed s (ble m.payload 0 1)) (mp s m) (ble m.payload 0 1), answers_of_body h ?_, ?_, fun d hd => ?_,
      hledger, hmem.trans (keepsMemory_same _ _ rfl rfl)⟩
    · simp only [bodyParCtxDestroy, hok, hidle]
      rfl
    · rw [State.ctx, hctxs, tget_tdel_of_keyed _ hkeyed]
      rfl
    · rw [State.ctx, hctxs, tget_tdel_ne _ _ hd, State.ctx]

theorem keepsMemory_report (s : State) (p : Nat) : KeepsMemory s (report s p).2 := by
  unfold report
  exact ((keepsBytes_setPart ..).trans (keepsBytes_foldl (fun _ _ => keepsBytes_setCtx ..) _ _)).memory

theorem parStats_answers (h : Serves s 0x0208 m) (hp : p = mp s m) :
    ∃ u, Answers (exec (.parStats m) s) u 0x0208 m stOK ((partCtxs s p).flatMap (reportEntry s)) ∧ (u.part p).reportAt = s.aon ∧
      (∀ c ∈ partCtxs s p, (u.ctx c).runAon = 0 ∧ (u.ctx c).stallAon = 0 ∧ (u.ctx c).laps = 0) ∧ KeepsMemory s u := by
  subst hp
  obtain ⟨hat, hzero⟩ := report_facts s (mp s m)
  refine ⟨(report s (mp s m)).2, answers_of_body h rfl, hat, fun c hc => ?_, keepsMemory_report ..⟩
  obtain ⟨hrun, hstall, hlaps, _⟩ := hzero c hc
  exact ⟨hrun, hstall, hlaps⟩

theorem kvFmtSet_answers {f : Nat} (h : Serves s 0x020A m) (hp : p = mp s m) (hf : f = ble m.payload 0 1) :
    (kvFmtOk (s.part p) f = false → Answers (exec (.parKvFmtSet m) s) s 0x020A m stBAD_FIELD []) ∧
    (kvFmtOk (s.part p) f = true → ∃ u, Answers (exec (.parKvFmtSet m) s) u 0x020A m stOK [] ∧ u.part p = { s.part p with kvFmt := f } ∧
      (∀ q, q ≠ p → u.part q = s.part q) ∧ u = { s with parts := u.parts }) := by
  subst hp hf
  refine ⟨fun hbad => answers_of_body h ?_, fun hok => ⟨_, answers_of_body h ?_, State.part_setPart_same .., fun q hq => by
    rw [State.part_setPart, if_neg hq], rfl⟩⟩
  · simp [bodyParKvFmtSet, hbad]
  · simp only [bodyParKvFmtSet, if_pos hok]

end

/-- Settles O43: each message past its first checks is served by its own body, which ends what belongs to its partition and writes that partition's
record last. -/
theorem partitionMessagesAct : Obligations.PartitionMessagesAct := by
  unfold Obligations.PartitionMessagesAct
  intro s m p hp
  exact ⟨parCreate_answers, parDestroy_answers, fun h => parStop_answers h hp, fun h => parStart_answers h hp, fun h => parReset_answers h hp,
    fun h b c s1 => ctxCreate_answers h hp, fun h c => ctxDestroy_answers h hp, fun h => parStats_answers h hp, fun h f => kvFmtSet_answers h hp⟩

end Sys2Proof.Machine
end

section
/-!
PROOFS of attention and KV: draft proposals, verdicts and LAP_DONE messages, and the seal a request's lap comes to (R339 to R352, R555).
-/

namespace Sys2Proof.Machine

/-! ### A message that names a lap -/

section

variable (s : State)

/-- A message that names a lap of a heat moves the lap numbers of jobs only. -/
theorem noteHeatLap_eq (heat lap : Nat) : ∃ l, noteHeatLap s heat lap = { s with srv := { s.srv with jobLap := l } } := by
  unfold noteHeatLap
  split
  · exact ⟨_, rfl⟩
  · exact ⟨_, rfl⟩

@[simp] theorem noteHeatLap_heat (heat lap id : Nat) : (noteHeatLap s heat lap).heat id = s.heat id := by
  obtain ⟨l, hnote⟩ := noteHeatLap_eq s heat lap
  rw [hnote]
  rfl

@[simp] theorem noteHeatLap_req (heat lap i : Nat) : (noteHeatLap s heat lap).req i = s.req i := by
  obtain ⟨l, hnote⟩ := noteHeatLap_eq s heat lap
  rw [hnote]
  rfl

@[simp] theorem noteHeatLap_sess (heat lap i : Nat) : (noteHeatLap s heat lap).sess i = s.sess i := by
  obtain ⟨l, hnote⟩ := noteHeatLap_eq s heat lap
  rw [hnote]
  rfl

@[simp] theorem noteHeatLap_part (heat lap p : Nat) : (noteHeatLap s heat lap).part p = s.part p := by
  obtain ⟨l, hnote⟩ := noteHeatLap_eq s heat lap
  rw [hnote]
  rfl

@[simp] theorem noteHeatLap_ledger (heat lap : Nat) : (noteHeatLap s heat lap).srv.ledger = s.srv.ledger := by
  obtain ⟨l, hnote⟩ := noteHeatLap_eq s heat lap
  rw [hnote]

@[simp] theorem noteHeatLap_entry (heat lap : Nat) : (noteHeatLap s heat lap).entry = s.entry := by
  obtain ⟨l, hnote⟩ := noteHeatLap_eq s heat lap
  rw [hnote]

@[simp] theorem noteHeatLap_mbx (heat lap : Nat) : (noteHeatLap s heat lap).mbx = s.mbx := by
  obtain ⟨l, hnote⟩ := noteHeatLap_eq s heat lap
  rw [hnote]

@[simp] theorem noteHeatLap_twin (heat lap : Nat) : (noteHeatLap s heat lap).twin = s.twin := by
  obtain ⟨l, hnote⟩ := noteHeatLap_eq s heat lap
  rw [hnote]

theorem keepsBytes_noteHeatLap (heat lap : Nat) : KeepsBytes s (noteHeatLap s heat lap) := by
  obtain ⟨l, hnote⟩ := noteHeatLap_eq s heat lap
  rw [hnote]
  exact keepsBytes_same rfl rfl rfl

/-! ### Draft proposals -/

/-- A heat keeps the proposals other packages sent, the ledger its entries and the memories their bytes. -/
structure KeepsProposals (id : Nat) (s t : State) : Prop where
  proposals : (t.heat id).proposals = (s.heat id).proposals
  ledger : t.srv.ledger = s.srv.ledger
  memory : KeepsMemory s t

theorem KeepsProposals.refl (id : Nat) : KeepsProposals id s s := ⟨rfl, rfl, keepsMemory_refl s⟩

theorem KeepsProposals.trans {s t u : State} {id : Nat} (h : KeepsProposals id s t) (g : KeepsProposals id t u) : KeepsProposals id s u :=
  ⟨g.proposals.trans h.proposals, g.ledger.trans h.ledger, h.memory.trans g.memory⟩

theorem keepsProposals_setHeat {s : State} {id : Nat} {x : Heat} (h : x.proposals = (s.heat id).proposals) : KeepsProposals id s (s.setHeat id x) :=
  ⟨by rwa [State.heat_setHeat_same], rfl, (keepsBytes_setHeat ..).memory⟩

theorem keepsProposals_send {s t : State} {id : Nat} (h : KeepsProposals id s t) (d : Dest) (m : FwMsg) : KeepsProposals id s (t.send d m) := by
  have hsrv : (t.send d m).srv = t.srv := State.send_srv ..
  refine ⟨?_, (congrArg Serving.ledger hsrv).trans h.ledger, h.memory.trans (keepsBytes_send t d m).memory⟩
  rw [State.heat, hsrv]
  exact h.proposals

/-- What a package yields for a request of a heat, a verdict or its own proposals, leaves the proposals it holds. -/
theorem keepsProposals_requestOutput (id : Nat) (r : HeatRow) (first : Bool) : KeepsProposals id s (requestOutput s id r first) := by
  unfold requestOutput
  extract_lets h man ps own mine t got
  clear_value got
  split
  · exact .refl s id
  · split
    · exact .refl s id
    · have hdrew : KeepsProposals id s t.2.2 := ⟨rfl, rfl, keepsMemory_same _ _ rfl rfl⟩
      split
      · split
        · exact .refl s id
        · refine keepsProposals_send (hdrew.trans (keepsProposals_setHeat ?_)) _ _
          exact hdrew.proposals.symm
      · split
        · exact keepsProposals_send hdrew _ _
        · exact .refl s id

/-- A tagged proposal put in place of an earlier one of the same source is there, and every other was there before. -/
theorem mem_replaced {α : Type} {p : α → Bool} {l : List α} {x : α} :
    x ∈ l.filter p ++ [x] ∧ ∀ y ∈ l.filter p ++ [x], y ≠ x → y ∈ l :=
  ⟨List.mem_append_right _ (List.mem_singleton_self x), fun _ hy hne =>
    (List.mem_append.1 hy).elim List.mem_of_mem_filter fun h => absurd (List.mem_singleton.1 h) hne⟩

/-- Proposals for the lap of a live heat from a package that is not fenced are kept. -/
theorem draftProposals_kept {src heat lap handle : Nat} {ts : List (Nat × Nat)} {ds : List Nat} (hlive : (s.heat heat).live = true)
    (hlap : (s.heat heat).desc.lap = lap) (htakes : takesFrom s src = true) :
    ∃ t, exec (.draftProposals src heat lap handle ts ds) s = .next t ∧ (handle, src, ts, ds) ∈ (t.heat heat).proposals ∧
      (∀ x ∈ (t.heat heat).proposals, x ≠ (handle, src, ts, ds) → x ∈ (s.heat heat).proposals) ∧ t.srv.ledger = s.srv.ledger ∧
      KeepsMemory s t := by
  refine ⟨_, rfl, ?_⟩
  have htakes' : takesFrom (noteHeatLap s heat lap) src = true := by rw [takesFrom, noteHeatLap_twin, ← takesFrom, htakes]
  dsimp only
  rw [noteHeatLap_heat, if_pos (by simp [hlive, hlap, htakes'])]
  generalize hs1 : State.setHeat _ heat _ = s1
  have h1 : KeepsProposals heat s1 (((s.heat heat).desc.rows.filter fun r => r.handle == handle).foldl (fun s r => requestOutput s heat r false) s1) :=
    foldl_keeps (KeepsProposals heat s1) _ _ s1 (.refl s1 heat) fun t ht r _ => ht.trans (keepsProposals_requestOutput t heat r false)
  have hprops : (s1.heat heat).proposals =
      (s.heat heat).proposals.filter (fun x => !(x.1 == handle && x.2.1 == src)) ++ [(handle, src, ts, ds)] := by
    rw [← hs1, State.heat_setHeat_same]
  have hmem : KeepsMemory s s1 := by
    rw [← hs1]
    exact ((keepsBytes_noteHeatLap ..).trans (keepsBytes_setHeat ..)).memory
  have hledger : s1.srv.ledger = s.srv.ledger := by
    rw [← hs1]
    exact noteHeatLap_ledger ..
  rw [h1.proposals, hprops]
  exact ⟨mem_replaced.1, mem_replaced.2, h1.ledger.trans hledger, hmem.trans h1.memory⟩

end

end Sys2Proof.Machine
end

section
/-!
PROOFS of attention and KV: the seal of a request's lap, and the verdicts and LAP_DONE messages that bring it (R342, R349 to R352, R555).
-/

namespace Sys2Proof.Machine

section

variable (s : State)

/-! ### The seal as one step -/

@[simp] theorem putSess_entry (i : Nat) (x : Session) : (putSess s i x).entry = s.entry := by
  unfold putSess
  dsimp only
  split
  · exact State.send_entry ..
  · rfl

@[simp] theorem putTenant_entry (i : Nat) (x : Tenant) : (putTenant s i x).entry = s.entry := by
  obtain ⟨p, b, o, c, h⟩ := tenantWork_putTenant s i x
  rw [h]

@[simp] theorem putTenant_ledger (i : Nat) (x : Tenant) : (putTenant s i x).srv.ledger = s.srv.ledger := by
  obtain ⟨p, b, o, c, h⟩ := tenantWork_putTenant s i x
  rw [h]

@[simp] theorem postTokens_srv (fn : Nat) (recs : List Byte) : (postTokens s fn recs).srv = s.srv := by
  unfold postTokens
  split
  · rfl
  · exact notify_srv ..

theorem keepsBytes_modStats (p : Nat) (f : PartStats → PartStats) : KeepsBytes s (modStats s p f) := keepsBytes_setPart ..

variable (i : Nat) (v : Verdict)

/-- A decode seal writes its request's entry, what it has still to post and whether it has posted REQ.DONE apart; the outcome goes to every holder of
the heat, and what was sent and every byte of a memory stays. -/
theorem sealLap_decode {r y : Req} {q : SealStep} (hosc : s.entry.oscDead = false) (hr : r = s.req i)
    (hsess : (s.sess r.sessIdx).state ≠ .recomputing) (hq : q = sealStep r v false) (hy : y = sealReq s r v q false) :
    (∃ l b, (sealLap s i v).req i = { y with unposted := l, posted := b }) ∧
      Tells (sealLap s i v) (.holders r.heat) (.outcome ⟨r.handle i, r.home, v.lap, true, q.a, q.final, y.pending, y.drafts⟩) ∧
      KeepsBytes s (sealLap s i v) := by
  generalize hu : sealLap s i v = u
  unfold sealLap sealWith at hu
  extract_lets r' x recompute q' y' p pos recs s1 s2 t s3 twin s4 s5 s6 s7 at hu
  obtain rfl : r = r' := hr
  have hrec : recompute = false := by simpa [recompute, x] using hsess
  obtain rfl : q = q' := by rw [hq, ← hrec]
  obtain rfl : y = y' := by rw [hy, ← hrec]
  have hosc3 : s3.entry.oscDead = false := by simpa [s3, s2, s1, modStats] using hosc
  have hreq3 : s3.req i = y' := by
    refine (req_of_ledger (putTenant_ledger ..) i).trans ?_
    exact (req_putSess ..).trans (State.req_setReq_same ..)
  have hkeep3 : KeepsBytes s s3 := by
    refine (keepsBytes_setReq s i y').trans ?_
    exact ((keepsBytes_putSess ..).trans (keepsBytes_modStats ..)).trans (keepsBytes_putTenant ..)
  clear_value s3 recs twin
  have h4 : s4.entry.oscDead = false ∧ (∃ l, s4.req i = { y' with unposted := l }) ∧ KeepsBytes s3 s4 := by
    unfold s4
    split
    · exact ⟨by simpa using hosc3, ⟨_, State.req_setReq_same ..⟩, (keepsBytes_send ..).trans (keepsBytes_setReq ..)⟩
    · exact ⟨hosc3, ⟨y'.unposted, hreq3⟩, .refl s3⟩
  obtain ⟨hosc4, ⟨l, hreq4⟩, hkeep4⟩ := h4
  clear_value s4
  have hledger5 : s5.srv.ledger = s4.srv.ledger := by simp [s5]
  have htells5 : Tells s5 (.holders r'.heat) _ := tells_send hosc4 ..
  have hkeep5 : KeepsBytes s4 s5 := keepsBytes_send ..
  clear_value s5
  have h6 : s6.srv.ledger = s5.srv.ledger ∧ KeepsBytes s5 s6 := by
    unfold s6
    split
    · exact ⟨by simp, ((keepsBytes_releaseSession ..).trans (keepsBytes_unbindReq ..)).trans (keepsBytes_leaveCohort ..)⟩
    · exact ⟨rfl, .refl s5⟩
  obtain ⟨hledger6, hkeep6⟩ := h6
  clear_value s6
  have h7 : s7.srv.ledger = s6.srv.ledger ∧ KeepsBytes s6 s7 := by
    unfold s7
    split
    · exact ⟨by simp, keepsBytes_postTokens ..⟩
    · exact ⟨rfl, .refl s6⟩
  obtain ⟨hledger7, hkeep7⟩ := h7
  clear_value s7
  have hreq7 : s7.req i = { y' with unposted := l } := (req_of_ledger (hledger7.trans (hledger6.trans hledger5)) i).trans hreq4
  have h8 : (∃ b, u.req i = { y' with unposted := l, posted := b }) ∧ KeepsBytes s7 u := by
    rw [← hu]
    split
    · obtain ⟨b, hb⟩ := req_postDone s7 i i
      exact ⟨⟨b, by rw [hb, if_pos rfl, hreq7]⟩, keepsBytes_postDone ..⟩
    · exact ⟨⟨y'.posted, hreq7⟩, .refl s7⟩
  obtain ⟨⟨b, hb⟩, hkeep8⟩ := h8
  exact ⟨⟨l, b, hb⟩, ((hkeep6.trans hkeep7).trans hkeep8).tells htells5,
    (((((hkeep3.trans hkeep4).trans hkeep5).trans hkeep6).trans hkeep7).trans hkeep8)⟩

end

/-! ### Verdicts -/

section

variable {s : State} {i : Nat}

/-- A verdict that names no request of this package counts as stale. -/
theorem verdict_stale (v : Verdict) (side : Nat) (hs : Settled s) (hidx : reqIdx s v.handle = none) :
    ∃ t, exec (.verdict v side) s = .next t ∧ t.srv.ledger = s.srv.ledger ∧
      (t.part (s.heat v.heat).desc.part).stats.staleVerdict = (s.part (s.heat v.heat).desc.part).stats.staleVerdict + 1 ∧ KeepsMemory s t := by
  have hidx' : homedReq (noteHeatLap s v.heat v.lap) v.handle = none := by rw [homedReq, reqIdx, noteHeatLap_req, ← reqIdx, hidx]
  refine ⟨_, rfl, ?_⟩
  dsimp only
  rw [hidx']
  dsimp only
  rw [settle_of_settled (t := modStats (noteHeatLap s v.heat v.lap) _ _) hs (noteHeatLap_mbx ..)]
  refine ⟨noteHeatLap_ledger .., ?_, ((keepsBytes_noteHeatLap ..).trans (keepsBytes_modStats ..)).memory⟩
  rw [noteHeatLap_heat, modStats, State.part_setPart_same, noteHeatLap_part]

/-- A seal looks for what it needs: with every LAP_DONE in hand, the one verdict of an ordinary heat seals the lap. -/
theorem trySeal_of_verdict {r : Req} {v : Verdict} {k : Nat} (hr : s.req i = r) (hopen : r.isOpen = true) (hlap : r.inLap = true)
    (hverdicts : r.verdicts = [(k, v)]) (hstep : (s.heat r.heat).lockstep = false)
    (hdone : ((lapRoles s (s.heat r.heat) (r.handle i)).all fun x => r.lapDone.contains x) = true) : trySeal s i = sealLap s i v := by
  subst hr
  unfold trySeal
  dsimp only
  rw [if_neg (by rw [hopen, hlap, hdone]; decide), hstep, hverdicts]
  rfl

theorem lapRoles_noteHeatLap (heat lap : Nat) (h : Heat) (handle : Nat) : lapRoles (noteHeatLap s heat lap) h handle = lapRoles s h handle := by
  obtain ⟨l, hnote⟩ := noteHeatLap_eq s heat lap
  rw [hnote]
  rfl

theorem boundGen_noteHeatLap (heat lap : Nat) (r : Req) : boundGen (noteHeatLap s heat lap) r = boundGen s r := by
  obtain ⟨l, hnote⟩ := noteHeatLap_eq s heat lap
  rw [hnote]
  rfl

/-- A verdict of the lap in progress is put with its request, which then tries to seal. -/
theorem execVerdict_current {r : Req} {v : Verdict} {side : Nat} (hidx : reqIdx s v.handle = some i) (hr : r = s.req i) (hopen : r.isOpen = true)
    (hwait : r.sealWait = none) (hlap : r.inLap = true) (hheat : r.heat = v.heat) (hcur : r.curLap = v.lap) (hnone : r.verdicts = [])
    (hepoch : (s.heat v.heat).epoch ≤ v.epoch) :
    exec (.verdict v side) s = .next (settle (trySeal ((noteHeatLap s v.heat v.lap).setReq i { r with verdicts := [(side % 2, v)] }) i)) := by
  have hidx' : homedReq (noteHeatLap s v.heat v.lap) v.handle = some i := by rw [homedReq, reqIdx, noteHeatLap_req, ← reqIdx, hidx]
  change execVerdict v side s = _
  unfold execVerdict
  dsimp only
  rw [hidx']
  dsimp only
  rw [noteHeatLap_req, ← hr, noteHeatLap_heat, if_neg (by simp [hwait]), if_pos (by simp [hopen, hlap, hheat, hcur, hepoch]), hnone]
  rfl

/-- What a seal wrote of the tokens stays when its request is then ended; a request that is COMPLETED is not. -/
theorem LeftOrEnded.sealed {t : State} (h : LeftOrEnded i s t) (hlap : (s.req i).inLap = false) :
    (t.req i).delivered = (s.req i).delivered ∧ (t.req i).digest = (s.req i).digest ∧ (t.req i).lap = (s.req i).lap ∧ (t.req i).inLap = false ∧
      (t.req i).pending = (s.req i).pending ∧ ((t.req i).state = .completed ↔ (s.req i).state = .completed) := by
  rcases h with h | ⟨hopen, _, hended⟩
  · rw [h]
    exact ⟨rfl, rfl, rfl, hlap, rfl, .rfl⟩
  · obtain ⟨hin, hnum⟩ := hended.lap hlap
    refine ⟨hended.delivered, hended.digest, hnum, hin, hended.pending, fun hc => ?_, fun hc => ?_⟩
    · rw [hended.state] at hc
      exact absurd hc (by decide)
    · rw [Req.isOpen, hc] at hopen
      exact absurd hopen (by decide)

/-- A decode seal leaves its request COMPLETED exactly when it is final. -/
theorem sealReq_completed {r : Req} {v : Verdict} {q : SealStep} (hdecode : v.prefill = false) (hstate : r.state = .decode) :
    (sealReq s r v q false).state = .completed ↔ q.final = true := by
  cases hfinal : q.final <;> simp [sealReq, hdecode, hstate, hfinal]

/-- What a decode seal of a request leaves: its tokens delivered and in the digest, its lap over, the outcome with every holder. -/
structure SealedTo (i : Nat) (r : Req) (gen : Nat) (v : Verdict) (q : SealStep) (t : State) : Prop where
  delivered : (t.req i).delivered = r.delivered + q.tokens.length
  digest : (t.req i).digest = digestTokens r.digest gen q.tokens
  lap : (t.req i).lap = v.lap
  inLap : (t.req i).inLap = false
  pending : (t.req i).pending = q.tokens.getLast?.getD r.pending
  completed : (t.req i).state = .completed ↔ q.final = true
  tells : ∃ ds, Tells t (.holders r.heat) (.outcome ⟨r.handle i, r.home, v.lap, true, q.a, q.final, q.tokens.getLast?.getD r.pending, ds⟩)

/-- A decode seal, and the settling of the package after it. -/
theorem sealLap_sealedTo {r : Req} {q : SealStep} {v : Verdict} (hosc : s.entry.oscDead = false) (hr : r = s.req i) (hstate : r.state = .decode)
    (hdecode : v.prefill = false) (hsess : (s.sess r.sessIdx).state ≠ .recomputing) (hq : q = sealStep r v false) :
    SealedTo i r (boundGen s r) v q (settle (sealLap s i v)) ∧ KeepsBytes s (settle (sealLap s i v)) := by
  obtain ⟨⟨l, b, hreq⟩, htells, hkeep⟩ := sealLap_decode s i v hosc hr hsess hq rfl
  generalize sealLap s i v = u at hreq htells hkeep
  obtain ⟨hdel, hdig, hnum, hin, hpend, hcomp⟩ := (leftOrEnded_settle (i := i) u).sealed (by rw [hreq]; rfl)
  rw [hreq] at hdel hdig hnum hpend hcomp
  have hsettle := keepsBytes_settle u
  exact ⟨⟨hdel, hdig, hnum, hin, hpend, hcomp.trans (sealReq_completed (s := s) hdecode hstate), _, hsettle.tells htells⟩, hkeep.trans hsettle⟩

/-- A verdict of a request's decode lap, with every LAP_DONE in hand, seals it. -/
theorem verdict_seals {r : Req} {q : SealStep} {v : Verdict} {side : Nat} (hosc : s.entry.oscDead = false) (hidx : reqIdx s v.handle = some i)
    (hr : r = s.req i) (hopen : r.isOpen = true) (hstate : r.state = .decode) (hwait : r.sealWait = none) (hlap : r.inLap = true)
    (hheat : r.heat = v.heat) (hcur : r.curLap = v.lap) (hnone : r.verdicts = []) (hepoch : (s.heat v.heat).epoch ≤ v.epoch)
    (hstep : (s.heat v.heat).lockstep = false) (hdecode : v.prefill = false) (hsess : (s.sess r.sessIdx).state ≠ .recomputing)
    (hdone : ((lapRoles s (s.heat v.heat) (r.handle i)).all fun x => r.lapDone.contains x) = true) (hq : q = sealStep r v false) :
    ∃ t, exec (.verdict v side) s = .next t ∧ SealedTo i r (boundGen s r) v q t ∧ KeepsMemory s t := by
  refine ⟨_, execVerdict_current hidx hr hopen hwait hlap hheat hcur hnone hepoch, ?_⟩
  generalize hs1 : (noteHeatLap s v.heat v.lap).setReq i _ = s1
  have hreq1 : s1.req i = { r with verdicts := [(side % 2, v)] } := by rw [← hs1, State.req_setReq_same]
  have hheat1 : s1.heat r.heat = s.heat v.heat := by
    rw [← hs1, hheat]
    exact noteHeatLap_heat ..
  have hroles1 : lapRoles s1 (s.heat v.heat) (r.handle i) = lapRoles s (s.heat v.heat) (r.handle i) := by
    rw [← hs1]
    exact lapRoles_noteHeatLap ..
  have hgen1 : boundGen s1 r = boundGen s r := by
    rw [← hs1]
    exact boundGen_noteHeatLap ..
  have hkeep1 : KeepsBytes s s1 := hs1 ▸ (keepsBytes_noteHeatLap ..).trans (keepsBytes_setReq ..)
  have hsess1 : (s1.sess r.sessIdx).state ≠ .recomputing := by
    rw [← hs1]
    exact fun h => hsess (by rwa [← noteHeatLap_sess])
  have hosc1 : s1.entry.oscDead = false := by
    rw [← hs1]
    exact (congrArg _ (noteHeatLap_entry ..)).trans hosc
  have hseal : trySeal s1 i = sealLap s1 i v := by
    refine trySeal_of_verdict hreq1 hopen hlap rfl ((congrArg Heat.lockstep hheat1).trans hstep) ?_
    dsimp only
    rw [hheat1]
    exact (congrArg (List.all · _) hroles1).trans hdone
  obtain ⟨h, hkeep⟩ := sealLap_sealedTo hosc1 hreq1.symm hstate hdecode hsess1 hq
  rw [hseal, ← hgen1]
  exact ⟨⟨h.delivered, h.digest, h.lap, h.inLap, h.pending, h.completed, h.tells⟩, (hkeep1.trans hkeep).memory⟩

/-! ### LAP_DONE -/

/-- Without the LAP_DONE of some role there is no seal yet. -/
theorem trySeal_of_missing (h : ((lapRoles s (s.heat (s.req i).heat) ((s.req i).handle i)).all fun x => (s.req i).lapDone.contains x) = false) :
    trySeal s i = s := by
  unfold trySeal
  dsimp only
  rw [if_pos (by rw [h]; simp)]

section

variable {role heat lap epoch : Nat} {row : HeatRow}

/-- A LAP_DONE of a heat of one request reaches that request. -/
theorem execLapDone_of_row (hrows : (s.heat heat).desc.rows = [row]) :
    exec (.lapDone role heat lap epoch) s =
      .next (settle (lapDoneReq (noteHeatLap s heat lap) role heat lap (decide (epoch < (s.heat heat).epoch)) row)) := by
  change execLapDone role heat lap epoch s = _
  unfold execLapDone
  dsimp only
  rw [noteHeatLap_heat, hrows]
  rfl

variable {r : Req}

/-- A LAP_DONE below the heat's epoch is discarded for the seal of an open request. -/
theorem lapDoneReq_of_low (hidx : reqIdx s row.handle = some i) (hopen : (s.req i).isOpen = true) : lapDoneReq s role heat lap true row = s := by
  unfold lapDoneReq
  rw [homedReq, hidx]
  dsimp only
  rw [if_pos (by simp [hopen])]

/-- A LAP_DONE of a new role that is not the last one is noted with the request. -/
theorem lapDoneReq_of_missing (hidx : reqIdx s row.handle = some i) (hr : r = s.req i) (hhome : r.home = row.home) (hopen : r.isOpen = true)
    (hlap : r.inLap = true) (hheat : r.heat = heat) (hcur : r.curLap = lap) (hnew : r.lapDone.contains role = false)
    (hmissing : ((lapRoles s (s.heat heat) (r.handle i)).all fun x => (r.lapDone ++ [role]).contains x) = false) :
    lapDoneReq s role heat lap false row = s.setReq i { r with lapDone := r.lapDone ++ [role] } := by
  unfold lapDoneReq
  rw [homedReq, hidx]
  dsimp only
  rw [← hr, if_neg (by simpa [hhome, hlap, hheat, hcur] using hnew), if_pos hopen]
  refine trySeal_of_missing ?_
  rw [State.req_setReq_same]
  dsimp only
  rw [hheat]
  exact hmissing

end

end

end Sys2Proof.Machine
end

section
/-!
PROOFS of attention and KV: the outcome of a lap at a holder, the lists it commits, and the mirror's acknowledgements (R281 to R283, R353).
-/

namespace Sys2Proof.Machine

section

variable {s t u : State}

/-! ### Lists cut to the committed positions -/

/-- Every page of a list ends within the first `c` positions. -/
def PagesWithin (l : List KvList) (c : Nat) : Prop := ∀ x ∈ l, ∀ g ∈ x.pages, g.pos0 + g.fill ≤ c

theorem pagesWithin_trimLists (p : Part) (l : List KvList) (c : Nat) : PagesWithin (trimLists p l c).2 c := by
  refine foldl_keeps (fun a : Part × List KvList => PagesWithin a.2 c) _ l (p, []) (fun x hx => absurd hx List.not_mem_nil) fun a ha y _ x hx g hg => ?_
  rcases List.mem_append.1 hx with hx | hx
  · exact ha x hx g hg
  · obtain rfl := List.mem_singleton.1 hx
    obtain ⟨g', hg', rfl⟩ := List.mem_map.1 hg
    have hpos : g'.pos0 < c := by simpa using (List.mem_filter.1 hg').2
    dsimp only
    omega

/-! ### What an outcome leaves of the maps -/

/-- Bringing a session's frames to what it needs changes the frames of its map, partitions and nothing else. -/
theorem fitRecords_eq (s : State) (k : Nat) :
    fitRecords s k = s ∨ ∃ p l, fitRecords s k = (s.setPart (s.map k).part p).setMap k { s.map k with recFrames := l } := by
  unfold fitRecords
  extract_lets m p fb need
  split
  · exact .inr ⟨_, _, rfl⟩
  · split
    · exact .inr ⟨_, _, rfl⟩
    · exact .inl rfl

theorem map_fitRecords (s : State) (k j : Nat) :
    ∃ l, (fitRecords s k).map j = if j = k then { s.map k with recFrames := l } else s.map j := by
  rcases fitRecords_eq s k with h | ⟨p, l, h⟩
  · refine ⟨(s.map k).recFrames, ?_⟩
    rw [h]
    split
    · next hj => rw [hj]
    · rfl
  · refine ⟨l, ?_⟩
    rw [h]
    exact State.map_setMap ..

@[simp] theorem fitRecords_mbx (s : State) (k : Nat) : (fitRecords s k).mbx = s.mbx := by
  rcases fitRecords_eq s k with h | ⟨p, l, h⟩
  · rw [h]
  · rw [h]
    rfl

@[simp] theorem map_retireHeat (s : State) (id k : Nat) : (retireHeat s id).map k = s.map k := by
  unfold retireHeat
  dsimp only
  split
  · rfl
  · rfl

@[simp] theorem retireHeat_mbx (s : State) (id : Nat) : (retireHeat s id).mbx = s.mbx := by
  unfold retireHeat
  dsimp only
  split
  · rfl
  · rfl

/-- Only one session's map differs, its count of appends that wait for the twin the same, and the mailboxes are as they were. -/
structure OneMap (k : Nat) (s t : State) : Prop where
  others : ∀ j, j ≠ k → t.map j = s.map j
  unacked : (t.map k).unacked = (s.map k).unacked
  mbx : t.mbx = s.mbx

theorem OneMap.trans {k : Nat} (h : OneMap k s t) (g : OneMap k t u) : OneMap k s u :=
  ⟨fun j hj => (g.others j hj).trans (h.others j hj), g.unacked.trans h.unacked, g.mbx.trans h.mbx⟩

theorem oneMap_same {k : Nat} (h : ∀ j, t.map j = s.map j) (hmbx : t.mbx = s.mbx) : OneMap k s t :=
  ⟨fun j _ => h j, congrArg KvMap.unacked (h k), hmbx⟩

theorem oneMap_setMap {k : Nat} {x : KvMap} (h : x.unacked = (s.map k).unacked) : OneMap k s (s.setMap k x) :=
  ⟨fun j hj => by rw [State.map_setMap, if_neg hj], by rw [State.map_setMap_same, h], rfl⟩

theorem oneMap_setPart_setMap {k p : Nat} {y : Part} {x : KvMap} (h : x.unacked = (s.map k).unacked) : OneMap k s ((s.setPart p y).setMap k x) :=
  .trans (oneMap_same (s := s) (t := s.setPart p y) (fun _ => rfl) rfl) (oneMap_setMap h)

theorem oneMap_fitRecords (s : State) (k : Nat) : OneMap k s (fitRecords s k) := by
  refine ⟨fun j hj => ?_, ?_, fitRecords_mbx ..⟩
  · obtain ⟨l, hl⟩ := map_fitRecords s k j
    rw [hl, if_neg hj]
  · obtain ⟨l, hl⟩ := map_fitRecords s k k
    rw [hl, if_pos rfl]

/-- The map of the session, and the mailboxes, after an outcome is committed. -/
theorem oneMap_commitMap (s : State) (k : Nat) (o : OutcomeMsg) : OneMap k s (commitMap s k o) := by
  unfold commitMap
  extract_lets m c t s1 v c' t'
  have h1 : OneMap k s s1 := by
    unfold s1
    split
    · refine .trans ?_ (oneMap_fitRecords ..)
      refine oneMap_setPart_setMap ?_
      rfl
    · refine oneMap_setMap ?_
      rfl
  clear_value s1
  split
  · exact h1.trans (oneMap_same (fun _ => rfl) rfl)
  · exact h1

theorem oneMap_takeOutcome (s : State) (id : Nat) (h : Heat) (r : HeatRow) (o : OutcomeMsg) :
    OneMap (sessKey r.home r.session) s (takeOutcome s id h r o) := by
  unfold takeOutcome
  extract_lets k
  split
  · exact oneMap_setMap rfl
  · exact (oneMap_commitMap s k o).trans (oneMap_same (fun j => map_retireHeat ..) (retireHeat_mbx ..))

/-- An outcome committed on a session that is mapped here: its committed length grows by A where accepted, no page passes it, and its lap is over. -/
structure Committed (m x : KvMap) (o : OutcomeMsg) : Prop where
  clen : x.clen = m.clen + (if o.accept then o.a else 0)
  plen : x.plen = 0
  lapOn : x.lapOn = false
  sealedLap : x.sealedLap = o.lap
  pages : PagesWithin x.lists (m.clen + (if o.accept then o.a else 0))

theorem commitMap_committed (s : State) (k : Nat) (o : OutcomeMsg) (h : (s.map k).present = true) : Committed (s.map k) ((commitMap s k o).map k) o := by
  unfold commitMap
  extract_lets m c t s1 v c' t'
  have h1 : Committed m (s1.map k) o := by
    obtain ⟨l, hl⟩ := map_fitRecords ((s.setPart m.part t.1).setMap k { m with
      lists := t.2, clen := c, plen := 0, lapOn := false, outcome := none, lastSeal := s.aon, sealedLap := o.lap,
      sealedA := if o.accept then o.a else 0, held := o.final }) k k
    rw [if_pos rfl, State.map_setMap_same] at hl
    rw [show s1.map k = _ from (congrArg (State.map · k) (if_pos h)).trans hl]
    exact ⟨rfl, rfl, rfl, rfl, pagesWithin_trimLists _ _ _⟩
  clear_value s1
  split
  · exact h1
  · exact h1

/-! ### SEAL_OUTCOME -/

theorem keepsBytes_dropVerdicts (s : State) (o : OutcomeMsg) : KeepsBytes s (dropVerdicts s o) := keepsBytes_same rfl rfl rfl

variable {o : OutcomeMsg} {id : Nat} {h : Heat} {r : HeatRow}

/-- An outcome of a lap that some heat here carries is taken for its row, where no other package counts off the generation. -/
theorem execSealOutcome_of_heat (hs : Settled s) (hrole : o.final = false ∨ s.hasRole o.home = true)
    (hfind : (heatsOf s o.home o.handle).find? (fun x => x.2.1.desc.lap == o.lap) = some (id, h, r)) :
    exec (.sealOutcome o) s = .next (takeOutcome (dropVerdicts s o) id h r o) := by
  have hsettle : settle (takeOutcome (dropVerdicts s o) id h r o) = takeOutcome (dropVerdicts s o) id h r o :=
    settle_of_settled hs (oneMap_takeOutcome ..).mbx
  change execSealOutcome o s = _
  unfold execSealOutcome
  rw [hfind]
  dsimp only
  rw [if_neg (by rcases hrole with hfinal | hhome <;> simp [*]), hsettle]

/-- While this package's part of the lap runs, the outcome is kept. -/
theorem takeOutcome_of_running (hrun : h.ownDone = false) :
    takeOutcome s id h r o = s.setMap (sessKey r.home r.session) { s.map (sessKey r.home r.session) with outcome := some o } := by
  simp [takeOutcome, hrun]

/-- Once it has finished, the outcome is committed. -/
theorem takeOutcome_of_done (hdone : h.ownDone = true) : takeOutcome s id h r o =
    retireHeat (billLap (commitMap s (sessKey r.home r.session) o) o.home o.handle o.a o.accept o.final) id := by
  simp [takeOutcome, hdone]

/-! ### The mirror's acknowledgements -/

/-- Every session's count of appends that wait for the twin is the same, and so are the mailboxes. -/
structure KeepsUnacked (s t : State) : Prop where
  unacked : ∀ k, (t.map k).unacked = (s.map k).unacked
  mbx : t.mbx = s.mbx

theorem KeepsUnacked.refl (s : State) : KeepsUnacked s s := ⟨fun _ => rfl, rfl⟩

theorem KeepsUnacked.trans (h : KeepsUnacked s t) (g : KeepsUnacked t u) : KeepsUnacked s u :=
  ⟨fun k => (g.unacked k).trans (h.unacked k), g.mbx.trans h.mbx⟩

theorem keepsUnacked_foldl {α : Type} {f : State → α → State} (h : ∀ s a, KeepsUnacked s (f s a)) (l : List α) (s : State) :
    KeepsUnacked s (l.foldl f s) := foldl_keeps (KeepsUnacked s) f l s (.refl s) fun t ht a _ => ht.trans (h t a)

theorem OneMap.keepsUnacked {k : Nat} (h : OneMap k s t) : KeepsUnacked s t := by
  refine ⟨fun j => ?_, h.mbx⟩
  by_cases hj : j = k
  · rw [hj, h.unacked]
  · rw [h.others j hj]

theorem keepsUnacked_send (s : State) (d : Dest) (m : FwMsg) : KeepsUnacked s (s.send d m) :=
  ⟨fun k => by rw [State.map, State.send_srv, ← State.map], State.send_mbx ..⟩

theorem keepsUnacked_reportLap (s : State) (id : Nat) : KeepsUnacked s (reportLap s id) := by
  unfold reportLap
  extract_lets h homes roles s1 s2 s3 s4
  have h1 : KeepsUnacked s s1 := keepsUnacked_foldl (fun s home => keepsUnacked_foldl (fun s r => keepsUnacked_send ..) _ s) _ s
  have h2 : KeepsUnacked s s2 := by
    simp only [s2]
    split
    · exact h1.trans (keepsUnacked_send ..)
    · exact h1
  have h3 : KeepsUnacked s s3 := by
    simp only [s3]
    split
    · exact h2.trans (keepsUnacked_foldl (fun s r => keepsUnacked_send ..) _ _)
    · exact h2
  have h4 : KeepsUnacked s s4 := h3.trans ⟨fun _ => rfl, rfl⟩
  split
  · exact .refl s
  · refine h4.trans (keepsUnacked_foldl (fun t r => ?_) _ s4)
    split
    · split
      · exact (oneMap_takeOutcome ..).keepsUnacked
      · exact .refl t
    · exact .refl t

@[simp] theorem objFree_mbx (s : State) (id : Nat) : (objFree s id).mbx = s.mbx := by
  unfold objFree
  dsimp only
  split
  · rfl
  · rfl

theorem oneMap_freeRecord (s : State) (k : Nat) : OneMap k s (freeRecord s k) := by
  unfold freeRecord
  extract_lets m s1
  have h1 : s1.srv = s.srv ∧ s1.mbx = s.mbx := by
    unfold s1
    split
    · exact ⟨objFree_srv .., objFree_mbx ..⟩
    · exact ⟨rfl, rfl⟩
  obtain ⟨hsrv, hmbx⟩ := h1
  clear_value s1
  have hmap : ∀ j, s1.map j = s.map j := fun j => congrArg (fun x : Serving => tget KvMap.reset x.maps j) hsrv
  refine (oneMap_same hmap hmbx).trans (oneMap_setPart_setMap ?_)
  exact (congrArg KvMap.unacked (hmap k)).symm

theorem keepsUnacked_resumeDone (s : State) (k : Nat) : KeepsUnacked s (resumeDone s k) := by
  unfold resumeDone
  dsimp only
  split
  · exact (oneMap_freeRecord ..).keepsUnacked.trans (keepsUnacked_send ..)
  · exact .refl s

theorem keepsBytes_resumeDone (s : State) (k : Nat) : KeepsBytes s (resumeDone s k) := by
  unfold resumeDone
  exact keepsBytes_ite ((keepsBytes_freeRecord ..).trans (keepsBytes_send ..)) (.refl s)

/-- An acknowledgement of the twin lowers the count of appends that wait for it. -/
theorem mirrorAck_lowers (layer head pos n : Nat) {k : Nat} (hs : Settled s) (hwait : (s.map k).unacked ≠ 0) :
    ∃ t, exec (.mirrorAck k layer head pos n) s = .next t ∧ (t.map k).unacked = (s.map k).unacked - n ∧ KeepsMemory s t := by
  refine ⟨_, rfl, ?_⟩
  dsimp only
  rw [if_neg hwait]
  generalize hs1 : s.setMap k _ = s1
  have hcount : (s1.map k).unacked = (s.map k).unacked - n := by rw [← hs1, State.map_setMap_same]
  have hmbx : s1.mbx = s.mbx := by rw [← hs1, State.setMap_mbx]
  have hkeep : KeepsBytes s s1 := hs1 ▸ keepsBytes_setMap ..
  split
  · generalize tkeys (s1.srv.heats.filter _) = ids
    have hrest : KeepsUnacked s1 (resumeDone (ids.foldl reportLap s1) k) :=
      (keepsUnacked_foldl keepsUnacked_reportLap ids s1).trans (keepsUnacked_resumeDone _ k)
    have hbytes : KeepsBytes s1 (resumeDone (ids.foldl reportLap s1) k) :=
      (keepsBytes_foldl keepsBytes_reportLap ids s1).trans (keepsBytes_resumeDone _ k)
    rw [settle_of_settled hs (hrest.mbx.trans hmbx)]
    exact ⟨(hrest.unacked k).trans hcount, (hkeep.trans hbytes).memory⟩
  · rw [settle_of_settled hs hmbx]
    exact ⟨hcount, hkeep.memory⟩

end

end Sys2Proof.Machine
end

section
/-!
PROOFS of attention and KV: a position of the twin's session written into its mirror page here (R282).
-/

namespace Sys2Proof.Machine

/-! ### Addresses in a page -/

section

variable {s u : State} {p na n : Nat}

/-- Bytes of a page that does not pass its stack's end lie one after another. -/
theorem page_near {y : Nat} (hfit : naOff na + n ≤ 2 ^ 36) (hy : y < n) :
    naStack (na + y) = naStack na ∧ physOff s p (na + y) = physOff s p na + y := by
  have hstack : naStack (na + y) = naStack na := by
    simp only [naStack, naOff, nbits] at hfit ⊢
    omega
  refine ⟨hstack, ?_⟩
  rw [physOff, hstack, physOff, Nat.add_assoc]
  congr 1
  simp only [naOff, nbits] at hfit ⊢
  omega

/-- Bytes written read back. -/
theorem BytesWritten.read {st off : Nat} {data : List Byte} (h : BytesWritten s u st off data) : stackRead u st off data.length = data := by
  refine List.ext_getElem (stackRead_length ..) fun i hi hi' => ?_
  rw [← Option.some_inj, ← List.getElem?_eq_getElem, stackRead_getElem? _ _ _ _ _ hi', h.mem, if_pos ⟨rfl, by omega, by omega⟩,
    Nat.add_sub_cancel_left, List.getElem?_eq_getElem hi']
  rfl

/-- A range whose bytes are as before reads as before. -/
theorem stackRead_of_bytes {st off m : Nat} (h : ∀ a, off ≤ a → a < off + m → nearByte u st a = nearByte s st a) :
    stackRead u st off m = stackRead s st off m := by
  refine List.ext_getElem ((stackRead_length ..).trans (stackRead_length ..).symm) fun i hi _ => ?_
  rw [stackRead_length] at hi
  rw [← Option.some_inj, ← List.getElem?_eq_getElem, ← List.getElem?_eq_getElem, stackRead_getElem? _ _ _ _ _ hi, stackRead_getElem? _ _ _ _ _ hi,
    h _ (by omega) (by omega)]

/-! ### Ranges of a page, one after another -/

/-- The bytes of some ranges of a page written one after another. -/
def pageWrites (p : Nat) (g : Page) (rs : List (Nat × Nat)) (a : State × List Byte) : State × List Byte :=
  rs.foldl (fun a x => (forceWrite a.1 p (pageNear (a.1.part p) g + x.1) (a.2.take x.2), a.2.drop x.2)) a

/-- Ranges that lie in order within `n` bytes, none of them empty. -/
structure Ordered (rs : List (Nat × Nat)) (n : Nat) : Prop where
  within : ∀ x ∈ rs, 0 < x.2 ∧ x.1 + x.2 ≤ n
  order : rs.Pairwise fun x y => x.1 + x.2 ≤ y.1

/-- The ranges of a page at `na` hold some bytes, one range after another, and no other byte differs. -/
structure RangesWritten (s u : State) (p na : Nat) (rs : List (Nat × Nat)) (data : List Byte) : Prop where
  map : MapKept s u
  cores : u.cores = s.cores
  entry : u.entry = s.entry
  bytes : (rs.flatMap fun x => stackRead u (naStack na) (physOff s p na + x.1) x.2) = data
  other : ∀ d a, (d = naStack na → ∀ x ∈ rs, a < physOff s p na + x.1 ∨ physOff s p na + x.1 + x.2 ≤ a) → nearByte u d a = nearByte s d a

/-- Bytes written into ordered ranges of a page, none of whose lines the twin holds, are there afterwards. -/
theorem pageWrites_written {g : Page} {rs : List (Nat × Nat)} {data : List Byte} (hfit : naOff na + n ≤ 2 ^ 36) (hrs : Ordered rs n)
    (hlen : data.length = (rs.map (·.2)).sum) (hna : pageNear (s.part p) g = na)
    (hheld : ∀ i ∈ linesOf (physOff s p na) n, lineHeld s (naStack na) i = false) :
    RangesWritten s (pageWrites p g rs (s, data)).1 p na rs data := by
  induction rs generalizing s data with
  | nil =>
    obtain rfl := List.eq_nil_of_length_eq_zero hlen
    exact ⟨.refl s, rfl, rfl, rfl, fun _ _ _ => rfl⟩
  | cons x rs ih =>
    obtain ⟨hpos, hle⟩ := hrs.within x List.mem_cons_self
    obtain ⟨hbefore, horder⟩ := List.pairwise_cons.1 hrs.order
    obtain ⟨hstack, hoff⟩ := page_near (s := s) (p := p) hfit (show x.1 < n by omega)
    rw [List.map_cons, List.sum_cons] at hlen
    have htake : (data.take x.2).length = x.2 := List.length_take_of_le (by omega)
    have hwrite := forceWrite_bytes (s := s) (p := p) (na := na + x.1) (l := data.take x.2) fun i hi => by
      rw [hstack]
      rw [hoff, htake] at hi
      exact hheld i (linesOf_part hle hi)
    rw [hstack, hoff] at hwrite
    have hentry : (forceWrite s p (na + x.1) (data.take x.2)).entry = s.entry := by
      obtain ⟨_, _, _, h⟩ := stackWork_forceWrite (s := s) p (na + x.1) (data.take x.2)
      rw [h]
    change RangesWritten s (pageWrites p g rs (forceWrite s p (pageNear (s.part p) g + x.1) (data.take x.2), data.drop x.2)).1 p na (x :: rs) data
    rw [hna]
    generalize forceWrite s p (na + x.1) (data.take x.2) = s1 at hwrite hentry
    have hphys : physOff s1 p na = physOff s p na := physOff_congr hwrite.map p na
    have hrest := ih (s := s1) (data := data.drop x.2) ⟨fun y hy => hrs.within y (List.mem_cons_of_mem _ hy), horder⟩
      (by rw [List.length_drop]; omega) (by rw [hwrite.map.part, hna])
      (fun i hi => by rw [lineHeld_congr hwrite.map]; exact hheld i (hphys ▸ hi))
    obtain ⟨hmap, hcores, hentry', hbytes, hother⟩ := hrest
    rw [hphys] at hbytes hother
    refine ⟨hwrite.map.trans hmap, hcores.trans hwrite.cores, hentry'.trans hentry, ?_, fun d a hout => ?_⟩
    · have hhead : stackRead (pageWrites p g rs (s1, data.drop x.2)).1 (naStack na) (physOff s p na + x.1) x.2 = data.take x.2 := by
        have hread := hwrite.read
        rw [htake] at hread
        rw [stackRead_of_bytes fun a _ ha => hother _ a fun _ y hy => .inl (by have := hbefore y hy; omega), hread]
      rw [List.flatMap_cons, hhead, hbytes, List.take_append_drop]
    · rw [hother d a fun hd y hy => hout hd y (List.mem_cons_of_mem _ hy), hwrite.mem, if_neg]
      rintro ⟨hd, h1, h2⟩
      have := hout hd x List.mem_cons_self
      omega

end

/-! ### The ranges of one position -/

/-- A width found from a position's bytes is a multiple of 32 and has that many bytes. -/
theorem widthOf_eq {fmt m d : Nat} (h : widthOf fmt m = some d) :
    (∃ i, d = 32 * (i + 1)) ∧ m = 2 * (kvRow fmt d + (if fmtBlock fmt then d / 32 else 0)) := by
  have hmem := List.mem_of_find?_eq_some h
  obtain ⟨i, _, rfl⟩ := List.mem_map.1 hmem
  exact ⟨⟨i, rfl⟩, (by simpa using List.find?_some h : _ = m).symm⟩

/-- A position of a KV format has bytes, and one scale for every 32 elements where the format is block-scaled. -/
theorem kvRow_pos {fmt d : Nat} (hfmt : kvCode fmt = true) (hd : ∃ i, d = 32 * (i + 1)) : 0 < kvRow fmt d := by
  obtain ⟨i, rfl⟩ := hd
  simp only [kvCode, Bool.or_eq_true, beq_iff_eq] at hfmt
  rcases hfmt with ((rfl | rfl) | rfl) | rfl
  all_goals
    simp only [kvRow, fmtBits]
    omega

/-- The rows of a position lie in order in its page, keys before values. -/
theorem kvRowRanges_ordered {fmt d j : Nat} (hfmt : kvCode fmt = true) (hd : ∃ i, d = 32 * (i + 1)) (hj : j < 64) :
    Ordered (kvRowRanges fmt d j 1) (kvPageBytes fmt d) ∧
      ((kvRowRanges fmt d j 1).map (·.2)).sum = 2 * (kvRow fmt d + (if fmtBlock fmt then d / 32 else 0)) := by
  have hrow := kvRow_pos hfmt hd
  have hslot (n : Nat) : j * n + n ≤ 64 * n := by
    rw [← Nat.succ_mul]
    exact Nat.mul_le_mul_right n hj
  have hrows := hslot (kvRow fmt d)
  have hscales := hslot (d / 32)
  have hwidth : 2 * d = 64 * (d / 32) ∧ 0 < d / 32 := by
    obtain ⟨i, rfl⟩ := hd
    omega
  cases hblock : fmtBlock fmt
  all_goals
    simp only [kvRowRanges, kvScaleOff, kvElems, kvPageBytes, kvScales, hblock, List.flatMap_cons, List.flatMap_nil]
    generalize kvRow fmt d = row at hrow hrows ⊢
    generalize d / 32 = scales at hscales hwidth ⊢
    refine ⟨⟨?_, ?_⟩, ?_⟩
    all_goals
      simp
      omega

/-! ### MIRROR_APPEND -/

section

variable {s : State}

theorem sendWork_chargeReq (s : State) (home handle cls n : Nat) : SendWork s (chargeReq s home handle cls n) := by
  have hacct (x : Energy) : SendWork s { s with energy := x } := ⟨s.fab, x, [], by rw [List.append_nil]⟩
  unfold chargeReq
  dsimp only
  split
  · exact .refl s
  · split
    · exact hacct _
    · split
      · exact hacct _
      · exact sendWork_count ..

/-- A list put in place of the one of its layer and head is the one found there. -/
theorem find?_replaced {α : Type} {q : α → Bool} {l : List α} {x : α} (hx : q x = true) : ((l.filter fun y => !q y) ++ [x]).find? q = some x := by
  rw [List.find?_append, List.find?_eq_none.2 fun y hy => by simpa using (List.mem_filter.1 hy).2, Option.none_or, List.find?_cons_of_pos hx]

variable {k layer head pos fmt p : Nat} {l : KvList} {g : Page} {j : Nat}

/-- The mirror's lists with one list marked anew. -/
def remarked (s : State) (p k layer head : Nat) (l : KvList) : State :=
  (s.setPart p (s.part p)).setMirror k
    { s.mirror k with lists := ((s.mirror k).lists.filter fun x => !(x.layer == layer && x.head == head)) ++ [l.mark] }

/-- A position the mirror's list has room for, in its page's format, needs no page. -/
theorem mirrorSlot_of_held (hfind : ((s.mirror k).lists.find? fun l => l.layer == layer && l.head == head) = some l)
    (hslot : pageSlot l pos = some (g, j)) (hfmt : g.fmt = fmt) (hfill : pos + 1 ≤ listFill l) :
    mirrorSlot s p k layer head pos fmt = some (remarked s p k layer head l) := by
  unfold mirrorSlot
  dsimp only
  rw [hfind, Option.getD_some, hslot]
  dsimp only
  rw [if_pos hfmt, Nat.sub_eq_zero_of_le hfill, growList, if_pos rfl]
  rfl

theorem remarked_find (hfind : ((s.mirror k).lists.find? fun l => l.layer == layer && l.head == head) = some l) :
    (((remarked s p k layer head l).mirror k).lists.find? fun l => l.layer == layer && l.head == head) = some l.mark := by
  rw [remarked, State.mirror, State.setMirror]
  dsimp only
  rw [tget_tput_same]
  exact find?_replaced (q := fun l : KvList => l.layer == layer && l.head == head) (List.find?_some hfind : _)

theorem mapKept_remarked : MapKept s (remarked s p k layer head l) := by
  refine ⟨fun q => ?_, fun _ => rfl, fun _ => rfl, fun _ => rfl, fun _ => rfl⟩
  change (s.setPart p (s.part p)).part q = s.part q
  rw [State.part_setPart]
  split
  · next h => rw [h]
  · rfl

variable {src d : Nat} {data : List Byte}

/-- A mirrored position with its page at hand is written there and acknowledged. -/
theorem execMirrorAppend_of_held (htwin : s.twinNode = some src) (hcode : kvCode fmt = true) (hpresent : (s.mirror k).present = true)
    (hpart : (s.mirror k).part = p) (hwidth : widthOf fmt data.length = some d) (hframe : kvPageBytes fmt d ≤ (s.part p).kvFrame * 1024)
    (hfind : ((s.mirror k).lists.find? fun l => l.layer == layer && l.head == head) = some l)
    (hslot : pageSlot l pos = some (g, j)) (hfmt : g.fmt = fmt) (hfill : pos + 1 ≤ listFill l) :
    exec (.mirrorAppend src k layer head pos fmt data) s = .next
      ((chargeReq (pageWrites p g (kvRowRanges fmt d j 1) (remarked s p k layer head l, data)).1 (keyHome k) (s.map k).lastReq 6 data.length).send
        (.node src) (.mirrorAck k layer head pos 1)) := by
  have hmirror : mirrorPart s k = some p := by rw [mirrorPart, if_pos hpresent, hpart]
  have hroom : withRoom (s.srv.maps.length + 1) s p k (fun s => mirrorSlot s p k layer head pos fmt) = (remarked s p k layer head l, true) := by
    unfold withRoom
    rw [mirrorSlot_of_held hfind hslot hfmt hfill]
  change execMirrorAppend src k layer head pos fmt data s = _
  unfold execMirrorAppend
  rw [hmirror, hwidth]
  dsimp only
  rw [if_neg (by simp [htwin, hcode, hframe]), if_pos hpresent, hroom]
  dsimp only
  rw [remarked_find hfind, Option.bind_some, show pageSlot l.mark pos = some (g, j) from hslot]
  rfl

/-- A mirrored position reads back as sent, and is acknowledged. -/
theorem mirrorAppend_writes {na : Nat} (hosc : s.entry.oscDead = false) (htwin : s.twinNode = some src) (hcode : kvCode fmt = true)
    (hpresent : (s.mirror k).present = true) (hpart : (s.mirror k).part = p) (hwidth : widthOf fmt data.length = some d)
    (hframe : kvPageBytes fmt d ≤ (s.part p).kvFrame * 1024)
    (hfind : ((s.mirror k).lists.find? fun l => l.layer == layer && l.head == head) = some l)
    (hslot : pageSlot l pos = some (g, j)) (hfmt : g.fmt = fmt) (hj : j < 64) (hfill : pos + 1 ≤ listFill l) (hna : na = pageNear (s.part p) g)
    (hfit : naOff na + kvPageBytes fmt d ≤ 2 ^ 36)
    (hheld : ∀ i ∈ linesOf (physOff s p na) (kvPageBytes fmt d), lineHeld s (naStack na) i = false) :
    ∃ t, exec (.mirrorAppend src k layer head pos fmt data) s = .next t ∧ posBytes t p na fmt d j = data ∧
      StackExcept s t [(naStack na, physOff s p na, kvPageBytes fmt d)] ∧ Tells t (.node src) (.mirrorAck k layer head pos 1) ∧ t.cores = s.cores := by
  refine ⟨_, execMirrorAppend_of_held htwin hcode hpresent hpart hwidth hframe hfind hslot hfmt hfill, ?_⟩
  obtain ⟨hd, hlen⟩ := widthOf_eq hwidth
  obtain ⟨hord, hsum⟩ := kvRowRanges_ordered hcode hd hj
  have hkept : MapKept s (remarked s p k layer head l) := mapKept_remarked
  have hentry : (remarked s p k layer head l).entry = s.entry := rfl
  have hcores : (remarked s p k layer head l).cores = s.cores := rfl
  have hmem : ∀ st a, nearByte (remarked s p k layer head l) st a = nearByte s st a := fun _ _ => rfl
  generalize remarked s p k layer head l = s1 at hkept hentry hcores hmem
  have hphys : physOff s1 p na = physOff s p na := physOff_congr hkept p na
  have hwritten := pageWrites_written (s := s1) (p := p) (g := g) (data := data) hfit hord (hlen.trans hsum.symm) (by rw [hkept.part, hna])
    (fun i hi => by rw [lineHeld_congr hkept]; exact hheld i (hphys ▸ hi))
  generalize (pageWrites p g (kvRowRanges fmt d j 1) (s1, data)).1 = u at hwritten
  have hcharge := sendWork_chargeReq u (keyHome k) (s.map k).lastReq 6 data.length
  have hentryC : (chargeReq u (keyHome k) (s.map k).lastReq 6 data.length).entry = u.entry := by
    obtain ⟨_, _, _, h⟩ := hcharge
    rw [h]
  have hwork := hcharge.trans (sendWork_send _ (.node src) (.mirrorAck k layer head pos 1))
  have htells := tells_send (s := chargeReq u (keyHome k) (s.map k).lastReq 6 data.length) (by rw [hentryC, hwritten.entry, hentry, hosc])
    (.node src) (.mirrorAck k layer head pos 1)
  generalize State.send _ (.node src) _ = t at hwork htells
  have hbytes : ∀ st a, nearByte t st a = nearByte u st a := fun st a => by rw [nearByte, State.bdie, hwork.beside, ← State.bdie, ← nearByte]
  have hmapT : MapKept s1 t := by
    refine hwritten.map.trans (nearKept_of_eq ?_ hwork.beside).toMapKept
    obtain ⟨_, _, _, rfl⟩ := hwork
    rfl
  refine ⟨?_, fun st a hout => ?_, htells, hwork.cores.trans (hwritten.cores.trans hcores)⟩
  · rw [posBytes, ← hwritten.bytes]
    refine List.flatMap_congr fun x hx => ?_
    obtain ⟨hpos, hle⟩ := hord.within x hx
    rw [(page_near hfit (show x.1 < _ by omega)).2, physOff_congr hmapT p na]
    exact stackRead_of_bytes fun a _ _ => hbytes _ a
  · rw [hbytes, hwritten.other st a fun hst x hx => ?_, hmem]
    have hside : a < physOff s p na ∨ physOff s p na + kvPageBytes fmt d ≤ a := hout _ (List.mem_singleton_self _) hst.symm
    have hle := (hord.within x hx).2
    rw [hphys]
    omega

end

end Sys2Proof.Machine
end

section
/-!
PROOFS of attention and KV: the messages of a decode lap, from its proposals to its outcome and its mirrored positions (R281 to R283, R339 to R353).
-/

namespace Sys2Proof.Machine

section

variable {s : State}

/-- A LAP_DONE of an open request's lap is noted where it is not the last one, and discarded where it is below the heat's epoch. -/
theorem lapDone_noted {role heat lap epoch i : Nat} {row : HeatRow} {r : Req} (hs : Settled s) (hrows : (s.heat heat).desc.rows = [row])
    (hidx : reqIdx s row.handle = some i) (hr : r = s.req i) (hhome : r.home = row.home) (hopen : r.isOpen = true) (hlap : r.inLap = true)
    (hheat : r.heat = heat) (hcur : r.curLap = lap) (hnew : r.lapDone.contains role = false) :
    ((s.heat heat).epoch ≤ epoch → ((lapRoles s (s.heat heat) (r.handle i)).all fun x => (r.lapDone ++ [role]).contains x) = false →
      ∃ t, exec (.lapDone role heat lap epoch) s = .next t ∧ t.req i = { r with lapDone := r.lapDone ++ [role] } ∧
        (∀ j, j ≠ i → t.req j = s.req j) ∧ KeepsMemory s t) ∧
    (epoch < (s.heat heat).epoch → ∃ t, exec (.lapDone role heat lap epoch) s = .next t ∧ t.srv.ledger = s.srv.ledger ∧ KeepsMemory s t) := by
  have hidx' : reqIdx (noteHeatLap s heat lap) row.handle = some i := by rw [reqIdx, noteHeatLap_req, ← reqIdx, hidx]
  have hreq : (noteHeatLap s heat lap).req i = r := (noteHeatLap_req ..).trans hr.symm
  have hkeep := keepsBytes_noteHeatLap s heat lap
  have hmbx : (noteHeatLap s heat lap).mbx = s.mbx := noteHeatLap_mbx ..
  refine ⟨fun hepoch hmissing => ⟨_, execLapDone_of_row hrows, ?_⟩, fun hlow => ⟨_, execLapDone_of_row hrows, ?_⟩⟩
  · have hmissing' : ((lapRoles (noteHeatLap s heat lap) ((noteHeatLap s heat lap).heat heat) (r.handle i)).all
        fun x => (r.lapDone ++ [role]).contains x) = false := by rwa [noteHeatLap_heat, lapRoles_noteHeatLap]
    rw [decide_eq_false (Nat.not_lt.2 hepoch), lapDoneReq_of_missing hidx' hreq.symm hhome hopen hlap hheat hcur hnew hmissing',
      settle_of_settled (t := (noteHeatLap s heat lap).setReq i _) hs hmbx]
    refine ⟨State.req_setReq_same .., fun j hj => ?_, (hkeep.trans (keepsBytes_setReq ..)).memory⟩
    rw [State.req_setReq, if_neg hj, noteHeatLap_req]
  · rw [decide_eq_true hlow, lapDoneReq_of_low hidx' (by rw [hreq, hopen]), settle_of_settled hs hmbx]
    exact ⟨noteHeatLap_ledger .., hkeep.memory⟩

/-- An outcome is kept while its lap still runs here, and committed once it has finished. -/
theorem sealOutcome_taken {o : OutcomeMsg} {id : Nat} {h : Heat} {r : HeatRow} {k : Nat} (hs : Settled s)
    (hrole : o.final = false ∨ s.hasRole o.home = true)
    (hfind : (heatsOf s o.home o.handle).find? (fun x => x.2.1.desc.lap == o.lap) = some (id, h, r)) (hk : k = sessKey r.home r.session) :
    (h.ownDone = false → ∃ t, exec (.sealOutcome o) s = .next t ∧ t.map k = { s.map k with outcome := some o } ∧
      (∀ j, j ≠ k → t.map j = s.map j) ∧ KeepsMemory s t) ∧
    (h.ownDone = true → (s.map k).present = true → ∃ t, exec (.sealOutcome o) s = .next t ∧ Committed (s.map k) (t.map k) o ∧
      (∀ j, j ≠ k → t.map j = s.map j) ∧ KeepsMemory s t) := by
  subst hk
  have hothers := (oneMap_takeOutcome (dropVerdicts s o) id h r o).others
  have hmem := ((keepsBytes_dropVerdicts s o).trans (keepsBytes_takeOutcome (dropVerdicts s o) id h r o)).memory
  refine ⟨fun hrun => ⟨_, execSealOutcome_of_heat hs hrole hfind, ?_, hothers, hmem⟩,
    fun hdone hpresent => ⟨_, execSealOutcome_of_heat hs hrole hfind, ?_, hothers, hmem⟩⟩
  · rw [takeOutcome_of_running hrun, State.map_setMap_same]
    rfl
  · rw [takeOutcome_of_done hdone, map_retireHeat]
    exact commitMap_committed (dropVerdicts s o) _ o hpresent

end

/-- Settles O36: proposals, verdicts and LAP_DONE messages are kept for the seal, which delivers a decode lap's tokens; an outcome is kept or
committed, and a mirrored position is written and acknowledged. -/
theorem sealsCommitALap : Obligations.SealsCommitALap := by
  unfold Obligations.SealsCommitALap
  refine ⟨fun s src heat lap handle ts ds hlive hlap htakes => draftProposals_kept s hlive hlap htakes, fun s v side hs => ⟨verdict_stale v side hs, ?_⟩,
    fun s role heat lap epoch i row r hs hrows hidx hr hhome hopen hlap hheat hcur hnew =>
      lapDone_noted hs hrows hidx hr hhome hopen hlap hheat hcur hnew,
    ?_, ?_, fun s k layer head pos n hs hwait => mirrorAck_lowers layer head pos n hs hwait⟩
  · intro i r q hosc hidx hr hopen hstate hwait hlap hheat hcur hnone hepoch hstep hdecode hsess hdone hq
    obtain ⟨t, hexec, h, hmem⟩ := verdict_seals (side := side) hosc hidx hr hopen hstate hwait hlap hheat hcur hnone hepoch hstep hdecode hsess hdone hq
    exact ⟨t, hexec, h.delivered, h.digest, h.lap, h.inLap, h.pending, h.completed, hheat ▸ h.tells, hmem.1⟩
  · intro s o id h r m hs hrole hfind hm
    obtain ⟨hrun, hdone⟩ := sealOutcome_taken hs hrole hfind rfl
    subst hm
    refine ⟨hrun, fun hown hpresent => ?_⟩
    obtain ⟨t, hexec, hc, hothers, hmem⟩ := hdone hown hpresent
    exact ⟨t, hexec, hc.clen, hc.plen, hc.lapOn, hc.sealedLap, hc.pages, hothers, hmem⟩
  · intro s src k layer head pos fmt p d j na data l g hosc htwin hcode hpresent hpart hwidth hframe hfind hslot hfmt hj hfill hna hfit hheld
    exact mirrorAppend_writes hosc htwin hcode hpresent hpart hwidth hframe hfind hslot hfmt hj hfill hna hfit hheld

end Sys2Proof.Machine
end

section
/-!
PROOFS of experts and exits: the cancel of a heat refuted by a table of cores whose numbers do not rise, in which a core is written in front of its own older
record. `heatSlots_stopHeat_of_rising`: where the numbers rise, no slot runs the heat once it is stopped.
-/

namespace Sys2Proof.Machine

/-! ### The slots that run a heat (R317) -/

section

variable {s : State} {id c k : Nat}

/-- In a table that lists each number once, a number reads as the record listed with it. -/
theorem tget_of_mem {α : Type} {d : α} {t : Tab α} (h : Keyed t) {e : Nat × α} (he : e ∈ t) : tget d t e.1 = e.2 := by
  induction t with
  | nil => exact absurd he List.not_mem_nil
  | cons x r ih =>
    obtain ⟨i, w⟩ := x
    obtain ⟨hi, hr⟩ : i ∉ tkeys r ∧ Keyed r := List.nodup_cons.1 h
    rcases List.mem_cons.1 he with rfl | he
    · exact if_pos rfl
    · have hne : i ≠ e.1 := fun heq => hi (heq ▸ List.mem_map_of_mem (f := Prod.fst) he)
      rw [tget, if_neg hne, ih hr he]

/-- Where each core is listed once, a slot that runs a heat carries its ID. -/
theorem heat_of_mem_heatSlots (hkeyed : Keyed s.cores) (h : (c, k) ∈ heatSlots s id) : k < 4 ∧ (s.slot c k).heat = id := by
  obtain ⟨e, he, hmem⟩ := List.mem_flatMap.1 h
  obtain ⟨j, hj, hpair⟩ := List.mem_map.1 hmem
  obtain ⟨rfl, rfl⟩ := Prod.mk.inj hpair
  obtain ⟨hlt, hheat⟩ := List.mem_filter.1 hj
  refine ⟨List.mem_range.1 hlt, ?_⟩
  rw [State.slot, State.core, tget_of_mem hkeyed he]
  exact beq_iff_eq.1 hheat

/-- One slot of a heat stopped, and the heat taken off it. -/
def takeOff (s : State) (c : Nat × Nat) : State := (slotStop s c.1 c.2).setSlot c.1 c.2 { (slotStop s c.1 c.2).slot c.1 c.2 with heat := 0 }

/-- A heat is stopped slot by slot. -/
theorem stopHeat_eq (s : State) (id : Nat) : stopHeat s id = (heatSlots s id).foldl takeOff s := rfl

/-- The slot stopped carries no heat. -/
theorem heat_takeOff_same (x : Nat × Nat) : ((takeOff s x).slot x.1 x.2).heat = 0 := by
  rw [takeOff, State.slot_setSlot_same]

/-- Every other slot is as before. -/
theorem slot_takeOff_ne {x : Nat × Nat} (hx : x.2 < 4) (hk : k < 4) (hne : ¬(c = x.1 ∧ k = x.2)) : (takeOff s x).slot c k = s.slot c k := by
  rw [takeOff, State.slot_setSlot _ _ _ _ _ _ hx hk, if_neg hne, slotStop]
  split
  · rw [State.slot_setSlot _ _ _ _ _ _ hx hk, if_neg hne]
  · rfl

/-- Stopping a slot keeps the numbers of the cores rising. -/
theorem rising_takeOff (x : Nat × Nat) (h : s.cores.Pairwise fun a b => a.1 < b.1) : (takeOff s x).cores.Pairwise fun a b => a.1 < b.1 := by
  refine tput_pairwise _ _ _ ?_
  unfold slotStop
  dsimp only
  split
  · exact tput_pairwise _ _ _ h
  · exact h

/-- Once some slots are stopped, a slot does not carry the heat where it is one of them or did not carry it before. -/
theorem heat_foldl_takeOff {l : List (Nat × Nat)} (hl : ∀ x ∈ l, x.2 < 4) (hk : k < 4) (h : (c, k) ∈ l ∨ (s.slot c k).heat ≠ id) (hid : id ≠ 0) :
    ((l.foldl takeOff s).slot c k).heat ≠ id := by
  induction l generalizing s with
  | nil => exact h.resolve_left List.not_mem_nil
  | cons x l ih =>
    refine ih (fun y hy => hl y (List.mem_cons_of_mem _ hy)) ?_
    by_cases hx : c = x.1 ∧ k = x.2
    · obtain ⟨rfl, rfl⟩ := hx
      exact .inr ((heat_takeOff_same x).trans_ne hid.symm)
    · rw [slot_takeOff_ne (hl x List.mem_cons_self) hk hx]
      exact h.imp_left fun hmem => (List.mem_cons.1 hmem).resolve_left fun heq => hx (Prod.mk.inj heq)

/-- A slot that carries a heat's ID is one of the slots that run it. -/
theorem mem_heatSlots (hkeyed : Keyed s.cores) (hid : id ≠ 0) (hk : k < 4) (h : (s.slot c k).heat = id) : (c, k) ∈ heatSlots s id := by
  have hlisted : c ∈ tkeys s.cores := by
    by_contra hc
    rw [State.slot, State.core, tget_notin _ _ _ hc] at h
    exact hid (h.symm.trans (by rcases k with _ | _ | _ | k <;> rfl))
  obtain ⟨e, he, rfl⟩ := List.mem_map.1 hlisted
  rw [State.slot, State.core, tget_of_mem hkeyed he] at h
  exact List.mem_flatMap.2 ⟨e, he, List.mem_map.2 ⟨k, List.mem_filter.2 ⟨List.mem_range.2 hk, beq_iff_eq.2 h⟩, rfl⟩⟩

/-- Where the numbers of the cores rise, no slot runs a heat once it is stopped. -/
theorem heatSlots_stopHeat_of_rising (hid : id ≠ 0) (hrise : s.cores.Pairwise fun a b => a.1 < b.1) : heatSlots (stopHeat s id) id = [] := by
  have hrise' : (stopHeat s id).cores.Pairwise fun a b => a.1 < b.1 :=
    foldl_keeps (fun t : State => t.cores.Pairwise fun a b => a.1 < b.1) takeOff _ s hrise fun _ ht x _ => rising_takeOff x ht
  rw [stopHeat_eq] at hrise' ⊢
  refine List.eq_nil_iff_forall_not_mem.2 fun ⟨c, k⟩ hmem => ?_
  obtain ⟨hk, hheat⟩ := heat_of_mem_heatSlots (keyed_of_rising hrise') hmem
  refine heat_foldl_takeOff (fun x hx => (heat_of_mem_heatSlots (keyed_of_rising hrise) hx).1) hk ?_ hid hheat
  exact or_iff_not_imp_right.2 fun h => mem_heatSlots (keyed_of_rising hrise) hid hk (not_not.1 h)

end

/-! ### A heat cancelled with its slots still running -/

/-- HEAT_CANCEL with a later epoch cancels a live heat. -/
theorem exec_heatCancel_of_live {s : State} {id epoch : Nat} (hlive : (s.heat id).live = true) (hlater : (s.heat id).epoch < epoch) :
    exec (.heatCancel id epoch) s = .next (settle (releaseHeld (applyCancel s id epoch) id)) :=
  congrArg (fun t => Host.Outcome.next (settle t)) (if_pos ⟨hlive, hlater⟩)

/-- A package that lists core 1 before core 0, of which slot 0 runs heat 1. -/
def fallingCores : State :=
  { State.reset with
    cores := [(1, Core.reset), (0, { Core.reset with s0 := { SlotSt.reset with state := .running, heat := 1 } })]
    srv := { State.reset.srv with heats := [(1, { Heat.reset with live := true })] } }

theorem fallingCores_settled : Settled fallingCores := fun f _ => by
  rw [show fallingCores.fn f = State.reset.fn f from rfl, State.fn_reset]
  rfl

/-- Refutes O34: `tput` writes core 0, whose slot HEAT_CANCEL stops, in front of core 1 and so in front of its older record, whose slot still runs the heat.
The statement asks for `Keyed` of the cores, not for numbers that rise. -/
theorem not_exchangeEntriesFollowTheirEpoch : ¬ Obligations.ExchangeEntriesFollowTheirEpoch := by
  unfold Obligations.ExchangeEntriesFollowTheirEpoch
  intro h
  have hkeyed : Keyed fallingCores.cores := by unfold Keyed; decide
  obtain ⟨_, hcancel⟩ := h fallingCores fallingCores_settled
  obtain ⟨t, hrun, _, _, _, hslots, _⟩ := hcancel 1 1 (by decide) hkeyed rfl (by decide) rfl fun _ hr => absurd hr List.not_mem_nil
  rw [exec_heatCancel_of_live rfl (by decide)] at hrun
  obtain rfl := Host.Outcome.next.inj hrun
  have hstill : heatSlots (settle (releaseHeld (applyCancel fallingCores 1 1) 1)) 1 = [(0, 0)] := rfl
  exact absurd (hstill.symm.trans hslots) (by decide)

end Sys2Proof.Machine
end

section
/-!
PROOFS of serving and scheduling: what the end of requests leaves of the package's settings, its boot and its pending reset, one lemma for each function they
call.
-/

namespace Sys2Proof.Machine

/-! ### The view -/

/-- The settings, what the boot keeps, and whether a reset is pending. -/
def standing (s : State) : Settings × Boot × Bool := (s.settings, s.boot, s.mbx.resetting)

section

variable {s t : State}

theorem settings_of_standing (h : standing t = standing s) : t.settings = s.settings := congrArg (·.1) h

theorem boot_of_standing (h : standing t = standing s) : t.boot = s.boot := congrArg (·.2.1) h

theorem resetting_of_standing (h : standing t = standing s) : t.mbx.resetting = s.mbx.resetting := congrArg (·.2.2) h

theorem standing_coresOnly (h : CoresOnly s t) : standing t = standing s := by
  rw [show t = { s with cores := t.cores } from h]
  rfl

end

theorem standing_foldl {α : Type} (g : State → α → State) (l : List α) (s : State) (h : ∀ s a, standing (g s a) = standing s) :
    standing (l.foldl g s) = standing s :=
  foldl_keeps (fun t => standing t = standing s) g l s rfl fun t ht a _ => (h t a).trans ht

@[simp] theorem standing_ite {c : Prop} [Decidable c] (a b : State) : standing (if c then a else b) = if c then standing a else standing b :=
  apply_ite standing c a b

section

variable (s : State)

@[simp] theorem standing_setReq (i : Nat) (x : Req) : standing (s.setReq i x) = standing s := rfl
@[simp] theorem standing_setHeat (i : Nat) (x : Heat) : standing (s.setHeat i x) = standing s := rfl
@[simp] theorem standing_setSess (i : Nat) (x : Session) : standing (s.setSess i x) = standing s := rfl
@[simp] theorem standing_setMap (i : Nat) (x : KvMap) : standing (s.setMap i x) = standing s := rfl
@[simp] theorem standing_setMirror (i : Nat) (x : KvMap) : standing (s.setMirror i x) = standing s := rfl
@[simp] theorem standing_setFn (i : Nat) (x : Fn) : standing (s.setFn i x) = standing s := rfl
@[simp] theorem standing_setSlot (c k : Nat) (x : SlotSt) : standing (s.setSlot c k x) = standing s := rfl
@[simp] theorem standing_setPart (p : Nat) (x : Part) : standing (s.setPart p x) = standing s := rfl
@[simp] theorem standing_setCtx (c : Nat) (x : Ctx) : standing (s.setCtx c x) = standing s := rfl

@[simp] theorem standing_emit (o : Out) : standing (s.emit o) = standing s := by
  unfold State.emit
  split <;> rfl

@[simp] theorem standing_send (d : Dest) (m : FwMsg) : standing (s.send d m) = standing s := by
  unfold State.send
  split <;> rfl

/-! ### Events and messages -/

@[simp] theorem standing_fireVector (fn v : Nat) : standing (fireVector s fn v) = standing s := by
  simp [fireVector]

@[simp] theorem standing_interrupt (fn v : Nat) : standing (interrupt s fn v) = standing s := by
  simp [interrupt]

@[simp] theorem standing_writeEvent (fn : Nat) (e : Event) (more : Bool) : standing (writeEvent s fn e more) = standing s := by
  simp [writeEvent, standing_foldl]

@[simp] theorem standing_drainBacklog (n fn : Nat) : standing (drainBacklog n s fn) = standing s := by
  induction n generalizing s with
  | zero => rfl
  | succ n ih =>
    unfold drainBacklog
    dsimp only
    split
    · rfl
    · simp [ih]

@[simp] theorem standing_postEvent (fn : Nat) (e : Event) : standing (postEvent s fn e) = standing s := by
  simp [postEvent, standing_foldl]

@[simp] theorem standing_notify (fn type status : Nat) (payload : List Byte) : standing (notify s fn type status payload) = standing s := by
  simp [notify]

@[simp] theorem standing_copyLedger (i : Nat) : standing (copyLedger s i) = standing s := by
  unfold copyLedger
  split
  · split <;> simp
  · rfl

@[simp] theorem standing_postDone (i : Nat) : standing (postDone s i) = standing s := by
  simp [postDone]

@[simp] theorem standing_putSess (i : Nat) (x : Session) : standing (putSess s i x) = standing s := by
  unfold putSess
  dsimp only
  split <;> simp

/-! ### Objects, generations, adapter slots -/

@[simp] theorem standing_unbindSlot (p i : Nat) : standing (unbindSlot s p i) = standing s := by
  simp [unbindSlot, setAslot]

@[simp] theorem standing_unprotectGen (p : Nat) (g : Gen) : standing (unprotectGen s p g) = standing s := by
  obtain ⟨b, h⟩ := unprotectGen_beside_only s p g
  rw [h]
  rfl

@[simp] theorem standing_objFree (id : Nat) : standing (objFree s id) = standing s := by
  unfold objFree chargeQuota
  dsimp only
  split <;> rfl

@[simp] theorem standing_freeGen (p : Nat) (g : Gen) : standing (freeGen s p g) = standing s := by
  simp [freeGen, freeObjects, standing_foldl]

@[simp] theorem standing_unbindGen (p model num : Nat) : standing (unbindGen s p model num) = standing s := by
  unfold unbindGen
  split
  · rfl
  · simp

@[simp] theorem standing_unbindReq (r : Req) : standing (unbindReq s r) = standing s := by
  simp [unbindReq]

/-! ### Key-value maps and sessions -/

@[simp] theorem standing_fitRecords (k : Nat) : standing (fitRecords s k) = standing s := by
  unfold fitRecords
  extract_lets m p fb need
  split
  · rfl
  · split <;> rfl

@[simp] theorem standing_freeRecord (k : Nat) : standing (freeRecord s k) = standing s := by
  unfold freeRecord
  dsimp only
  split <;> simp

@[simp] theorem standing_freePages (k : Nat) : standing (freePages s k) = standing s := by
  simp [freePages]

@[simp] theorem standing_freeMirror (k : Nat) : standing (freeMirror s k) = standing s := rfl

@[simp] theorem standing_freeSession (k : Nat) : standing (freeSession s k) = standing s := by
  unfold freeSession
  extract_lets s1 m s2
  have h1 : standing s1 = standing s := by simp [s1]
  clear_value s1
  exact h1

@[simp] theorem standing_closeSession (i : Nat) : standing (closeSession s i) = standing s := by
  simp [closeSession, standing_foldl]

@[simp] theorem standing_releaseSession (r : Req) : standing (releaseSession s r) = standing s := by
  simp [releaseSession]

@[simp] theorem standing_commitMap (k : Nat) (o : OutcomeMsg) : standing (commitMap s k o) = standing s := by
  simp [commitMap]

/-! ### Heats and requests -/

@[simp] theorem standing_unpinHeat (id : Nat) : standing (unpinHeat s id) = standing s := rfl

@[simp] theorem standing_stopHeat (id : Nat) : standing (stopHeat s id) = standing s :=
  standing_foldl _ _ _ fun s c => (standing_setSlot ..).trans (standing_coresOnly (coresOnly_slotStop s c.1 c.2))

@[simp] theorem standing_retireHeat (id : Nat) : standing (retireHeat s id) = standing s := by
  simp [retireHeat]

@[simp] theorem standing_billLap (home handle a : Nat) (accept final : Bool) : standing (billLap s home handle a accept final) = standing s := rfl

@[simp] theorem standing_takeOutcome (id : Nat) (h : Heat) (r : HeatRow) (o : OutcomeMsg) : standing (takeOutcome s id h r o) = standing s := by
  simp [takeOutcome]

@[simp] theorem standing_reportLap (id : Nat) : standing (reportLap s id) = standing s := by
  unfold reportLap
  extract_lets h homes roles s1 s2 s3 s4
  have h1 : standing s1 = standing s := standing_foldl _ _ _ fun _ _ => standing_foldl _ _ _ fun _ _ => standing_send ..
  have h2 : standing s2 = standing s := by
    simp only [s2]
    split <;> simp [h1]
  have h3 : standing s3 = standing s := by
    simp only [s3]
    split
    · exact (standing_foldl _ _ _ fun _ _ => standing_send ..).trans h2
    · exact h2
  split
  · rfl
  · refine (standing_foldl _ _ _ fun t r => ?_).trans h3
    split
    · simp
    · rfl

@[simp] theorem standing_leaveCohort (c i : Nat) : standing (leaveCohort s c i) = standing s := by
  simp [leaveCohort]

@[simp] theorem standing_leaveQueue (tenant i : Nat) : standing (leaveQueue s tenant i) = standing s := rfl

@[simp] theorem standing_endOne (i status : Nat) : standing (endOne s i status) = standing s := by
  simp [endOne]

@[simp] theorem standing_endHeat (id : Nat) : standing (endHeat s id) = standing s := by
  refine standing_foldl _ _ _ fun t r => ?_
  split
  · simp
  · rfl

@[simp] theorem standing_applyCancel (id epoch : Nat) : standing (applyCancel s id epoch) = standing s := by
  simp [applyCancel]

@[simp] theorem standing_heatCheck (id : Nat) : standing (heatCheck s id) = standing s := by
  simp [heatCheck, cancelHeat]

@[simp] theorem standing_endReq (i status : Nat) : standing (endReq s i status) = standing s := by
  simp [endReq]

@[simp] theorem standing_endAll (status : Nat) (f : Req → Bool) : standing (endAll s status f) = standing s := by
  simp [endAll, standing_foldl]

@[simp] theorem standing_settle : standing (settle s) = standing s := by
  simp [settle, standing_foldl]

end

end Sys2Proof.Machine
end

section
/-!
PROOFS of serving and scheduling: a starter's FAULT record (R390, R392, R495). What the ends and replays it orders leave of the contexts, and the count toward
FAULT_LIMIT.
-/

namespace Sys2Proof.Machine

/-! ### What a record orders (R390, R494) -/

section

variable (s : State)

@[simp] theorem schedView_endReq (i status : Nat) : schedView (endReq s i status) = schedView s := by
  simp [endReq]

@[simp] theorem schedView_modAcct (home handle : Nat) (f : Acct → Acct) : schedView (modAcct s home handle f) = schedView s := rfl

/-- The positions a row's replayed lap appended return to free. -/
@[simp] theorem schedView_undoRow (k : Nat) : schedView (undoRow s k) = schedView s := by
  unfold undoRow
  dsimp only
  split
  · rw [schedView_fitRecords, schedView_setMap, schedView_setPart _ _ _ (reports_trimLists ..)]
  · rfl

@[simp] theorem schedView_replayLap (id epoch : Nat) : schedView (replayLap s id epoch) = schedView s := by
  unfold replayLap
  extract_lets h s1 s2 s3
  have h2 : schedView s2 = schedView s := by
    refine (schedView_foldl _ _ _ fun _ _ => schedView_modAcct ..).trans ?_
    simp [s1]
  have h3 : schedView s3 = schedView s := (schedView_foldl _ _ _ schedView_undoRow).trans h2
  simp [h3]

@[simp] theorem schedView_orderReplay (id : Nat) : schedView (orderReplay s id) = schedView s := by
  simp [orderReplay]

/-- An end ordered through a request's home is an end here or a message. -/
theorem orderEnd_cases (home handle status fault : Nat) :
    (∃ i x, orderEnd s home handle status fault = endReq (if (s.req i).isOpen then s.setReq i x else s) i status) ∨
    orderEnd s home handle status fault = s.send (.role home) (.endOrder home handle status fault) := by
  unfold orderEnd
  split
  · next i _ =>
    split
    · exact .inl ⟨i, _, rfl⟩
    · exact .inr rfl
  · exact .inr rfl

end

/-! ### What the count reads -/

/-- What FAULT_LIMIT is counted with: the contexts but for their cohorts, the AON counter and the settings. -/
def countView (s : State) : (Nat → Ctx) × Nat × Settings := (fun c => unqueued (s.ctx c), s.aon, s.settings)

section

variable {s t : State}

theorem countView_of_views (hsched : schedView t = schedView s) (haon : t.aon = s.aon) (hstand : standing t = standing s) : countView t = countView s :=
  Prod.ext (congrArg (·.2.1) hsched) (Prod.ext haon (settings_of_standing hstand))

theorem countView_coresOnly (h : CoresOnly s t) : countView t = countView s := by
  rw [show t = { s with cores := t.cores } from h]
  rfl

theorem countView_foldl {α : Type} {g : State → α → State} (h : ∀ s a, countView (g s a) = countView s) (l : List α) (s : State) :
    countView (l.foldl g s) = countView s :=
  foldl_keeps (fun t => countView t = countView s) g l s rfl fun t ht a _ => (h t a).trans ht

theorem countView_orderEnd (s : State) (home handle status fault : Nat) : countView (orderEnd s home handle status fault) = countView s := by
  rcases orderEnd_cases s home handle status fault with ⟨i, x, h⟩ | h <;> rw [h]
  · exact countView_of_views (by simp) (by simp [endReq]) (by simp)
  · exact countView_of_views (schedView_send ..) (State.send_aon ..) (standing_send ..)

end

/-! ### The record taken -/

/-- The oldest FAULT record of a starter. -/
def oldestFault (s : State) (k : Nat) : Option Record := (s.starter k).queue.find? (·.kind == kFAULT)

/-- The core a record names: core 0 stands for the starter itself. -/
def faultCore (die row : Nat) (r : Record) : Nat := if r.col = 31 then 0 else coreAddr die row r.col

/-- A record leaves its starter's queue. -/
def takeRecord (s : State) (k : Nat) (r : Record) : State := s.setStarter k { s.starter k with queue := (s.starter k).queue.erase r }

/-- The record's slot is cleared; a beside command has none. -/
def clearFaulted (s : State) (core : Nat) (r : Record) : State := if r.col = 31 then s else slotClear s core r.slot

/-- The requests of some heats end ENGINE_FAULT. -/
def endFaulted (s : State) (core : Nat) (r : Record) (heats : List Nat) : State :=
  heats.foldl (fun s id => (s.heat id).desc.rows.foldl
    (fun s x => orderEnd s x.home x.handle stENGINE_FAULT (ledgerFault r.cause core r.slot)) s) s

/-- A record met while a node is fenced, whose heats are replayed (R495). -/
def fencedFault (s : State) (r : Record) : Prop := (r.cause = fcMSG_UNREACH ∨ r.cause = fcFABRIC_FAULT) ∧ s.twin.fence ≠ []

section

variable {s : State} {die row : Nat} {r : Record}

theorem exec_faultRecord_of_none (h : oldestFault s (die * 16 + row) = none) : exec (.faultRecord die row) s = .next (settle s) := by
  change execFaultRecord die row s = _
  rw [oldestFault] at h
  unfold execFaultRecord
  dsimp only
  rw [h]

theorem exec_faultRecord_of_fenced (h : oldestFault s (die * 16 + row) = some r) (hfence : fencedFault s r) :
    exec (.faultRecord die row) s = .next (settle
      ((faultHeats s (faultCore die row r) r).foldl orderReplay (clearFaulted (takeRecord s (die * 16 + row) r) (faultCore die row r) r))) := by
  change execFaultRecord die row s = _
  rw [oldestFault] at h
  unfold execFaultRecord
  dsimp only
  rw [h]
  dsimp only
  rw [if_pos (by simpa [fencedFault] using hfence)]
  rfl

theorem exec_faultRecord_of_counted (h : oldestFault s (die * 16 + row) = some r) (hfence : ¬fencedFault s r) :
    exec (.faultRecord die row) s = .next (settle (countFault (clearFaulted (endFaulted (takeRecord s (die * 16 + row) r) (faultCore die row r) r
      (faultHeats s (faultCore die row r) r)) (faultCore die row r) r) r.ctx)) := by
  change execFaultRecord die row s = _
  rw [oldestFault] at h
  unfold execFaultRecord
  dsimp only
  rw [h]
  dsimp only
  rw [if_neg (by simpa [fencedFault] using hfence)]
  rfl

theorem coresOnly_clearFaulted (s : State) (core : Nat) (r : Record) : CoresOnly s (clearFaulted s core r) := by
  unfold clearFaulted
  split
  · exact .refl s
  · exact coresOnly_slotClear ..

theorem countView_endFaulted (s : State) (core : Nat) (r : Record) (heats : List Nat) : countView (endFaulted s core r heats) = countView s :=
  countView_foldl (fun t _ => countView_foldl (fun _ _ => countView_orderEnd ..) _ t) heats s

end

/-! ### The count (R392) -/

/-- The faults of a context within one second, with the one met now. -/
def faultCount (s : State) (c : Nat) : Nat := ((s.ctx c).faultTimes.filter fun t => decide (s.aon < t + 4000000)).length + 1

/-- A context's record with a fault more. -/
def faulted (s : State) (c : Nat) : Ctx :=
  { s.ctx c with
    faultTimes := ((s.ctx c).faultTimes.filter fun t => decide (s.aon < t + 4000000)) ++ [s.aon]
    faults := (s.ctx c).faults + 1 }

section

variable {s t : State}

theorem countFault_eq (s : State) (c : Nat) : countFault s c =
    if s.cfg 0x0705 ≠ 0 ∧ s.cfg 0x0705 ≤ faultCount s c then failCtx (s.setCtx c (faulted s c)) c else s.setCtx c (faulted s c) := by
  unfold countFault faultCount
  dsimp only
  rw [List.length_append, List.length_singleton]
  rfl

/-- A context that fails keeps its count of faults, and so does every other. -/
theorem faults_failCtx (s : State) (c d : Nat) : ((failCtx s c).ctx d).faults = (s.ctx d).faults := by
  have hview := schedView_failCtx s c
  split at hview
  · exact ctxField_of_schedView Ctx.faults (fun _ => rfl) hview d
  · refine (ctxField_of_schedView Ctx.faults (fun _ => rfl) hview d).trans ?_
    rw [State.ctx_setCtx]
    split
    · next hd => rw [hd, failedCtx]
    · rfl

theorem faults_countFault (s : State) (c : Nat) : ((countFault s c).ctx c).faults = (s.ctx c).faults + 1 := by
  have hset : ((s.setCtx c (faulted s c)).ctx c).faults = (s.ctx c).faults + 1 := by rw [State.ctx_setCtx_same, faulted]
  rw [countFault_eq]
  split
  · rw [faults_failCtx, hset]
  · exact hset

theorem state_setCtx_faulted (s : State) (c d : Nat) : ((s.setCtx c (faulted s c)).ctx d).state = (s.ctx d).state := by
  rw [State.ctx_setCtx]
  split
  · next hd => rw [hd, faulted]
  · rfl

/-- Only the context counted for becomes FAILED, and only at its limit. -/
theorem state_countFault (s : State) (c d : Nat) : ((countFault s c).ctx d).state =
    if d = c ∧ s.cfg 0x0705 ≠ 0 ∧ s.cfg 0x0705 ≤ faultCount s c ∧ (s.ctx c).state ≠ .none then .failed else (s.ctx d).state := by
  rw [countFault_eq]
  split
  · next hlimit =>
    obtain ⟨_, hstate⟩ := failCtx_facts (s.setCtx c (faulted s c)) c
    rw [hstate, state_setCtx_faulted, state_setCtx_faulted]
    exact if_congr (by tauto) rfl rfl
  · next hlimit => rw [state_setCtx_faulted, if_neg (by tauto)]

theorem state_of_countView (h : countView t = countView s) (c : Nat) : (t.ctx c).state = (s.ctx c).state :=
  congrArg (fun v => (v.1 c).state) h

theorem faults_of_countView (h : countView t = countView s) (c : Nat) : (t.ctx c).faults = (s.ctx c).faults :=
  congrArg (fun v => (v.1 c).faults) h

theorem faultCount_of_countView (h : countView t = countView s) (c : Nat) : faultCount t c = faultCount s c :=
  congrArg (fun v => ((v.1 c).faultTimes.filter fun t => decide (v.2.1 < t + 4000000)).length + 1) h

theorem cfg_of_countView (h : countView t = countView s) (id : Nat) : t.cfg id = s.cfg id := congrArg (fun v => v.2.2.val id) h

end

/-! ### FAULT_RECORD -/

section

variable {s : State} {die row : Nat} {r : Record}

/-- A record that counts raises its context's faults, and fails that context alone where its limit is reached. -/
theorem faultRecord_counts (h : oldestFault s (die * 16 + row) = some r) (hfence : ¬fencedFault s r) :
    ∃ t, exec (.faultRecord die row) s = .next t ∧ (t.ctx r.ctx).faults = (s.ctx r.ctx).faults + 1 ∧
      ∀ c, (t.ctx c).state = if c = r.ctx ∧ s.cfg 0x0705 ≠ 0 ∧ s.cfg 0x0705 ≤ faultCount s r.ctx ∧ (s.ctx r.ctx).state ≠ .none then .failed
        else (s.ctx c).state := by
  refine ⟨_, exec_faultRecord_of_counted h hfence, ?_⟩
  set core := faultCore die row r
  set u := clearFaulted (endFaulted (takeRecord s (die * 16 + row) r) core r (faultHeats s core r)) core r
  have hview : countView u = countView s :=
    (countView_coresOnly (coresOnly_clearFaulted ..)).trans (countView_endFaulted (takeRecord s (die * 16 + row) r) ..)
  have hsettle := schedView_settle (countFault u r.ctx)
  refine ⟨?_, fun c => ?_⟩
  · rw [ctxField_of_schedView Ctx.faults (fun _ => rfl) hsettle, faults_countFault, faults_of_countView hview]
  · rw [state_of_schedView hsettle, state_countFault, cfg_of_countView hview, faultCount_of_countView hview, state_of_countView hview,
      state_of_countView hview]

/-- A record whose heats are replayed changes no context's state. -/
theorem faultRecord_replays (h : oldestFault s (die * 16 + row) = some r) (hfence : fencedFault s r) :
    ∃ t, exec (.faultRecord die row) s = .next t ∧ ∀ c, (t.ctx c).state = (s.ctx c).state := by
  refine ⟨_, exec_faultRecord_of_fenced h hfence, fun c => ?_⟩
  rw [state_of_schedView (schedView_settle _), state_of_schedView (schedView_foldl _ _ _ schedView_orderReplay),
    (coresOnly_clearFaulted ..).ctx]
  rfl

/-- With no limit, no record changes a context's state. -/
theorem faultRecord_unlimited (s : State) (die row : Nat) (hlimit : s.cfg 0x0705 = 0) :
    ∃ t, exec (.faultRecord die row) s = .next t ∧ ∀ c, (t.ctx c).state = (s.ctx c).state := by
  cases h : oldestFault s (die * 16 + row) with
  | none => exact ⟨_, exec_faultRecord_of_none h, state_of_schedView (schedView_settle s)⟩
  | some r =>
    by_cases hfence : fencedFault s r
    · exact faultRecord_replays h hfence
    · obtain ⟨t, hrun, _, hstate⟩ := faultRecord_counts h hfence
      exact ⟨t, hrun, fun c => by rw [hstate, if_neg fun hhit => hhit.2.1 hlimit]⟩

end

/-- Settles O39: what a record orders leaves what the count reads, and the count fails its own context alone, at the limit. -/
theorem faultLimitFailsAContext : Obligations.FaultLimitFailsAContext := by
  unfold Obligations.FaultLimitFailsAContext
  refine fun s die row => ⟨faultRecord_unlimited s die row, fun r n hfault hfence hn => ?_⟩
  obtain ⟨t, hrun, hfaults, hstate⟩ := faultRecord_counts hfault hfence
  have hcount : faultCount s r.ctx = n := hn.symm
  rw [hcount] at hstate
  refine ⟨t, hrun, hfaults, fun hset hle hne => ?_, fun hlt => ?_, fun c hc => ?_⟩
  · rw [hstate, if_pos ⟨rfl, hset, hle, hne⟩]
  · rw [hstate, if_neg (by omega)]
  · rw [hstate, if_neg fun hhit => hc hhit.1]

end Sys2Proof.Machine
end

section
/-!
PROOFS of serving and scheduling: settings fields on the running package (R427, R579, R582). What a field reads once it is written, and what the entries of a
SETTINGS_SET message come to.
-/

namespace Sys2Proof.Machine

/-! ### One record of a table -/

section

variable {α : Type} (t : Tab α) {j k : Nat}

theorem count_tkeys_tput_ne (v : α) (h : j ≠ k) : (tkeys (tput t k v)).count j = (tkeys t).count j := by
  induction t with
  | nil => exact List.count_cons_of_ne h.symm
  | cons e r ih =>
    obtain ⟨i, w⟩ := e
    unfold tput
    split
    · next hi => simp [tkeys, hi]
    · split
      · exact List.count_cons_of_ne h.symm
      · change (i :: tkeys (tput r k v)).count j = (i :: tkeys r).count j
        rw [List.count_cons, List.count_cons, ih]

theorem count_tkeys_tdel_ne (h : j ≠ k) : (tkeys (tdel t k)).count j = (tkeys t).count j := by
  induction t with
  | nil => rfl
  | cons e r ih =>
    obtain ⟨i, w⟩ := e
    unfold tdel
    split
    · next hi =>
      change (tkeys r).count j = (i :: tkeys r).count j
      rw [hi, List.count_cons_of_ne h.symm]
    · change (i :: tkeys (tdel r k)).count j = (i :: tkeys r).count j
      rw [List.count_cons, List.count_cons, ih]

/-- A record listed once, taken away, reads as the default. -/
theorem tget_tdel_of_count (d : α) (h : (tkeys t).count k ≤ 1) : tget d (tdel t k) k = d := by
  induction t with
  | nil => rfl
  | cons e r ih =>
    obtain ⟨i, w⟩ := e
    change (i :: tkeys r).count k ≤ 1 at h
    unfold tdel
    split
    · next hi =>
      rw [hi, List.count_cons_self] at h
      exact tget_notin d r k (List.count_eq_zero.1 (Nat.le_zero.1 (Nat.le_of_succ_le_succ h)))
    · next hi =>
      rw [List.count_cons_of_ne hi] at h
      rw [tget, if_neg hi, ih h]

end

/-! ### A field written (R579) -/

/-- The factory value of a field. -/
def factoryOf (id : Nat) : Nat := ((fieldDef id).map FieldDef.factory).getD 0

/-- A settable field's values and its factory value have 64 bits at most. -/
theorem fieldDef_bounds {id : Nat} {d : FieldDef} (h : fieldDef id = some d) : d.width ≤ 64 ∧ d.factory < 2 ^ 64 := by
  have hall : ∀ d ∈ namedFields ++ arrayFields, d.width ≤ 64 ∧ d.factory < 2 ^ 64 := by decide
  exact hall d (List.mem_of_find?_eq_some h)

theorem factoryOf_lt (id : Nat) : factoryOf id < 2 ^ 64 := by
  unfold factoryOf
  cases h : fieldDef id with
  | none => decide
  | some d => exact (fieldDef_bounds h).2

section

variable (st : Settings) {id j : Nat}

/-- A field reads as the entry of the running settings, and as its factory value where there is none. -/
theorem raw_eq_tget (id : Nat) : st.raw id = (tget (BitVec.ofNat 64 (factoryOf id)) st.run id).toNat := by
  rw [tget_eq_find?, Settings.raw]
  cases st.run.find? (·.1 == id) with
  | some p => rfl
  | none =>
    have hfactory : (BitVec.ofNat 64 (factoryOf id)).toNat = factoryOf id := by
      rw [BitVec.toNat_ofNat, Nat.mod_eq_of_lt (factoryOf_lt id)]
    refine Eq.trans ?_ hfactory.symm
    unfold factoryOf
    cases fieldDef id <;> rfl

theorem run_put {d : FieldDef} (h : fieldDef id = some d) (v : Nat) : (st.put id v).run =
    if v % 2 ^ d.width = d.factory then tdel st.run id else tput st.run id (BitVec.ofNat 64 (v % 2 ^ d.width)) := by
  rw [Settings.put, h]

theorem put_of_unknown (h : fieldDef id = none) (v : Nat) : st.put id v = st := by
  rw [Settings.put, h]

theorem raw_put_ne (h : j ≠ id) (v : Nat) : (st.put id v).raw j = st.raw j := by
  cases hdef : fieldDef id with
  | none => rw [put_of_unknown st hdef]
  | some d =>
    rw [raw_eq_tget, raw_eq_tget, run_put st hdef]
    split
    · rw [tget_tdel_ne _ _ h]
    · rw [tget_tput_ne _ _ _ h]

theorem count_put_ne (h : j ≠ id) (v : Nat) : (tkeys (st.put id v).run).count j = (tkeys st.run).count j := by
  cases hdef : fieldDef id with
  | none => rw [put_of_unknown st hdef]
  | some d =>
    rw [run_put st hdef]
    split
    · exact count_tkeys_tdel_ne _ h
    · exact count_tkeys_tput_ne _ _ h

/-- A value that fits its field is what the field then reads, where the running settings list the field once at most. -/
theorem raw_put_same {d : FieldDef} {v : Nat} (hdef : fieldDef id = some d) (hfits : v < 2 ^ d.width) (honce : (tkeys st.run).count id ≤ 1) :
    (st.put id v).raw id = v := by
  obtain ⟨hwidth, _⟩ := fieldDef_bounds hdef
  rw [raw_eq_tget, run_put st hdef, Nat.mod_eq_of_lt hfits]
  split
  · next hfactory =>
    rw [tget_tdel_of_count _ _ honce, BitVec.toNat_ofNat, Nat.mod_eq_of_lt (factoryOf_lt id), factoryOf, hdef, hfactory]
    rfl
  · rw [tget_tput_same, BitVec.toNat_ofNat, Nat.mod_eq_of_lt (hfits.trans_le (Nat.pow_le_pow_right (by decide) hwidth))]

theorem put_changed (id v : Nat) : (st.put id v).changed = st.changed := by
  unfold Settings.put
  split <;> rfl

end

/-! ### A field set on the running package -/

section

variable (s : State) (id v : Nat)

theorem run_setCfg : (setCfg s id v).settings.run = (s.settings.put id v).run := by
  unfold setCfg
  dsimp only
  split <;> rfl

theorem raw_setCfg (j : Nat) : (setCfg s id v).settings.raw j = (s.settings.put id v).raw j := by
  rw [raw_eq_tget, run_setCfg, ← raw_eq_tget]

theorem changed_setCfg : (setCfg s id v).settings.changed = if s.settings.changed.contains id then s.settings.changed else s.settings.changed ++ [id] := by
  have hset : (s.settings.set id v).changed = s.settings.changed := put_changed ..
  unfold setCfg
  dsimp only
  rw [hset]
  split <;> rfl

theorem mem_changed_setCfg_same : id ∈ (setCfg s id v).settings.changed := by
  rw [changed_setCfg]
  split
  · next h => exact List.contains_iff_mem.1 h
  · simp

theorem mem_changed_setCfg {j : Nat} (h : j ∈ s.settings.changed) : j ∈ (setCfg s id v).settings.changed := by
  rw [changed_setCfg]
  split
  · exact h
  · exact List.mem_append_left _ h

theorem srv_setCfg : (setCfg s id v).srv = s.srv := by
  unfold setCfg
  dsimp only
  split <;> rfl

/-- WDOG_US reaches the cores' watchdogs, and no byte of a memory. -/
theorem keepsMemory_setCfg : KeepsMemory s (setCfg s id v) := by
  unfold setCfg
  dsimp only
  split
  · exact keepsMemory_of _ _ (fun c => tget_map_field Core.reset s.cores (fun _ k => { k with wdog := none }) c Core.spad fun _ => rfl)
      (fun c => tget_map_field Core.reset s.cores (fun _ k => { k with wdog := none }) c Core.acc fun _ => rfl) rfl
  · exact keepsMemory_same _ _ rfl rfl

end

/-! ### The entries of a message (R427) -/

/-- Entries set in index order. -/
def setAll (l : List (Nat × Nat)) (s : State) : State := l.foldl (fun s e => setCfg s e.1 e.2) s

section

variable {s : State} {l : List (Nat × Nat)} {id v : Nat}

theorem setAll_append (a b : List (Nat × Nat)) (s : State) : setAll (a ++ b) s = setAll b (setAll a s) := List.foldl_append

/-- A field no entry names is left: what it reads, how often it is listed, and whether it has changed. -/
theorem setAll_untouched (h : ∀ x ∈ l, x.1 ≠ id) : (setAll l s).settings.raw id = s.settings.raw id ∧
    (tkeys (setAll l s).settings.run).count id = (tkeys s.settings.run).count id ∧ (id ∈ s.settings.changed → id ∈ (setAll l s).settings.changed) := by
  refine foldl_keeps (fun t : State => t.settings.raw id = s.settings.raw id ∧ (tkeys t.settings.run).count id = (tkeys s.settings.run).count id ∧
    (id ∈ s.settings.changed → id ∈ t.settings.changed)) _ l s ⟨rfl, rfl, fun hmem => hmem⟩ fun t ht e he => ?_
  obtain ⟨hraw, hcount, hchanged⟩ := ht
  have hne : id ≠ e.1 := (h e he).symm
  refine ⟨?_, ?_, fun hmem => mem_changed_setCfg _ _ _ (hchanged hmem)⟩
  · rw [raw_setCfg, raw_put_ne _ hne, hraw]
  · rw [run_setCfg, count_put_ne _ hne, hcount]

theorem setAll_rest (l : List (Nat × Nat)) (s : State) : (setAll l s).srv = s.srv ∧ KeepsMemory s (setAll l s) :=
  foldl_keeps (fun t : State => t.srv = s.srv ∧ KeepsMemory s t) _ l s ⟨rfl, keepsMemory_refl s⟩ fun _ ht _ _ =>
    ⟨(srv_setCfg ..).trans ht.1, ht.2.trans (keepsMemory_setCfg ..)⟩

/-- An entry that passes its checks names a field its value fits. -/
theorem fits_of_entryFail {e : Nat × Nat} (h : entryFail s e = none) : ∃ d, fieldDef e.1 = some d ∧ e.2 < 2 ^ d.width := by
  unfold entryFail at h
  split at h
  · cases h
  · next d hdef =>
    split at h
    · cases h
    · next hok => exact ⟨d, hdef, by omega⟩

/-- The one entry of a field gives the field its value and marks it changed. -/
theorem setAll_single (hkeyed : Keyed s.settings.run) (hone : l.filter (fun x => x.1 == id) = [(id, v)]) (hok : ∀ x ∈ l, entryFail s x = none) :
    (setAll l s).settings.raw id = v ∧ id ∈ (setAll l s).settings.changed := by
  obtain ⟨a, b, rfl, ha, _, hb⟩ := List.filter_eq_cons_iff.1 hone
  have ha' : ∀ x ∈ a, x.1 ≠ id := fun x hx => by simpa using ha x hx
  have hb' : ∀ x ∈ b, x.1 ≠ id := fun x hx => by simpa using List.filter_eq_nil_iff.1 hb x hx
  obtain ⟨d, hdef, hfits⟩ := fits_of_entryFail (hok (id, v) (by simp))
  obtain ⟨_, hcount, _⟩ := setAll_untouched (s := s) ha'
  obtain ⟨hraw, _, hchanged⟩ := setAll_untouched (s := setCfg (setAll a s) id v) hb'
  have honce : (tkeys (setAll a s).settings.run).count id ≤ 1 := hcount ▸ List.nodup_iff_count_le_one.1 hkeyed id
  have hset : setAll (a ++ (id, v) :: b) s = setAll b (setCfg (setAll a s) id v) := setAll_append ..
  rw [hset]
  refine ⟨?_, hchanged (mem_changed_setCfg_same ..)⟩
  rw [hraw, raw_setCfg, raw_put_same _ hdef hfits honce]

/-- PAIR to the twin changes neither settings nor serving state, and no byte of a memory. -/
theorem sendPair_rest (s : State) : (sendPair s).settings = s.settings ∧ (sendPair s).srv = s.srv ∧ KeepsMemory s (sendPair s) := by
  unfold sendPair
  split
  · exact ⟨State.send_settings .., State.send_srv .., keepsMemory_same _ _ (State.send_cores ..) (State.send_beside ..)⟩
  · exact ⟨rfl, rfl, keepsMemory_refl s⟩

/-- Entries none of which is of the link plan are set in index order, and PAIR may be sent again. -/
theorem applyEntries_of_noPlan (h : ∀ x ∈ l, isPlanField x.1 = false) : (applyEntries s l).settings = (setAll l s).settings ∧
    (applyEntries s l).srv = s.srv ∧ KeepsMemory s (applyEntries s l) := by
  have hnone : (l.any fun e => isPlanField e.1) = false := List.any_eq_false.2 fun x hx => by simp [h x hx]
  have hall : (l.filter fun e => !isPlanField e.1) = l := List.filter_eq_self.2 fun x hx => by simp [h x hx]
  obtain ⟨hsrv, hmem⟩ := setAll_rest l s
  unfold applyEntries
  extract_lets s1 s2
  have h2 : s2 = setAll l s := by
    simp only [s2, s1, hnone, hall]
    rfl
  rw [h2]
  split
  · obtain ⟨hset', hsrv', hmem'⟩ := sendPair_rest (setAll l s)
    exact ⟨hset', hsrv'.trans hsrv, hmem.trans hmem'⟩
  · exact ⟨rfl, hsrv, hmem⟩

end

/-! ### The first entry that fails -/

section

variable {α : Type} {p : α → Bool} {l a b : List α} {e : α}

theorem firstIdx_of_none (h : ∀ x ∈ l, p x = false) (i : Nat) : firstIdx p l i = none := by
  induction l generalizing i with
  | nil => rfl
  | cons x l ih =>
    rw [firstIdx, if_neg (by simp [h x])]
    exact ih (fun y hy => h y (List.mem_cons_of_mem _ hy)) _

theorem firstIdx_append_cons (ha : ∀ x ∈ a, p x = false) (he : p e = true) (i : Nat) : firstIdx p (a ++ e :: b) i = some (i + a.length) := by
  induction a generalizing i with
  | nil => exact if_pos he
  | cons x a ih =>
    rw [List.cons_append, firstIdx, if_neg (by simp [ha x]), ih (fun y hy => ha y (List.mem_cons_of_mem _ hy)), List.length_cons]
    exact congrArg some (by omega)

theorem nth_append_length (d : α) (a b : List α) (e : α) : nth d (a ++ e :: b) a.length = e := by
  induction a with
  | nil => rfl
  | cons x a ih => exact ih

end

end Sys2Proof.Machine
end

section
/-!
PROOFS of serving and scheduling: the SYS messages (R371, R420, R425, R427, R583, R584, R586, R652).
-/

namespace Sys2Proof.Machine

section

variable {s : State} {m : Msg}

/-! ### Settings (R427, R583, R584) -/

theorem settingsGet_answers (h : Serves s 0x0102 m) {ids : List Nat}
    (hids : ids = (List.range (ble m.payload 0 2)).map (fun i => ble m.payload (8 + 2 * i) 2)) (hlen : ids.length ≤ 255)
    (hknown : ∀ id ∈ ids, (fieldDef id).isSome = true ∨ fieldReadOnly id = true) :
    Answers (exec (.sysSettingsGet m) s) s 0x0102 m stOK (leBytes 2 ids.length ++ zeros 6 ++ ids.flatMap fun id =>
      leBytes 2 id ++ leBytes 2 (b2n (s.settings.changed.contains id) + 2 * b2n (s.settings.ignored.contains id)) ++ zeros 4 ++
      leBytes 8 (fieldValue s id)) := by
  refine answers_of_body h ?_
  have hnone : firstIdx (fun id => (fieldDef id).isNone && !fieldReadOnly id) ids 0 = none := by
    refine firstIdx_of_none (fun id hid => ?_) 0
    rcases hknown id hid with hdef | hread
    · simp [Option.isSome_iff_ne_none.1 hdef]
    · simp [hread]
  unfold bodySysSettingsGet
  dsimp only
  rw [← hids, if_neg (Nat.not_lt.2 hlen), hnone]

/-- The first entry that fails answers its index and status, and none is applied. -/
theorem settingsSet_refuses (h : Serves s 0x0103 m) {a b : List (Nat × Nat)} {e : Nat × Nat} {st : Nat} (hentries : setEntries m = a ++ e :: b)
    (ha : ∀ x ∈ a, entryFail s x = none) (he : entryFail s e = some st) :
    Answers (exec (.sysSettingsSet m) s) s 0x0103 m st (leBytes 2 a.length) := by
  refine answers_of_body h ?_
  have hfirst : firstIdx (fun e => (entryFail s e).isSome) (setEntries m) 0 = some a.length := by
    rw [hentries, firstIdx_append_cons (fun x hx => by simp [ha x hx]) (by simp [he]), Nat.zero_add]
  unfold bodySysSettingsSet
  dsimp only
  rw [hfirst]
  dsimp only
  rw [hentries, nth_append_length, he, Option.getD_some]

/-- Entries that all pass, none of them of the link plan, are all applied. -/
theorem settingsSet_applies (h : Serves s 0x0103 m) (hkeyed : Keyed s.settings.run)
    (hok : ∀ x ∈ setEntries m, entryFail s x = none ∧ isPlanField x.1 = false) :
    ∃ u, Answers (exec (.sysSettingsSet m) s) u 0x0103 m stOK [] ∧
      (∀ id v, (setEntries m).filter (fun x => x.1 == id) = [(id, v)] → u.settings.raw id = v ∧ id ∈ u.settings.changed) ∧
      (∀ id, (∀ x ∈ setEntries m, x.1 ≠ id) → u.settings.raw id = s.settings.raw id) ∧ u.srv = s.srv ∧ KeepsMemory s u := by
  obtain ⟨hset, hsrv, hmem⟩ := applyEntries_of_noPlan (s := s) fun x hx => (hok x hx).2
  refine ⟨applyEntries s (setEntries m), answers_of_body h ?_, fun id v hone => ?_, fun id hne => ?_, hsrv, hmem⟩
  · unfold bodySysSettingsSet
    dsimp only
    rw [firstIdx_of_none (fun x hx => by simp [(hok x hx).1]), firstIdx_of_none fun x hx => (hok x hx).2]
  · rw [hset]
    exact setAll_single hkeyed hone fun x hx => (hok x hx).1
  · rw [hset]
    exact (setAll_untouched hne).1

theorem settingsCommit_answers (h : Begins s 0x0104 m) :
    (s.settings.seq ≠ 0xFFFFFFFF → ∃ u, InBackground (exec (.sysSettingsCommit m) s) u 0x0104 m 0 ∧
      u = { s with boot := { s.boot with commits := s.boot.commits ++ [(m.path, m.tag, s.settings)] } }) ∧
    (s.settings.seq = 0xFFFFFFFF → Answers (exec (.sysSettingsCommit m) s) s 0x0104 m stCOMMIT_FAILED []) := by
  refine ⟨fun hne => ⟨_, inBackground_of_body h ?_, rfl⟩, fun hmax => answers_of_deferred_body h ?_⟩
  · unfold bodySysSettingsCommit
    rw [if_neg hne]
    unfold beginDeferred setDeferred
    dsimp only
    split <;> rfl
  · unfold bodySysSettingsCommit
    rw [if_pos hmax]

/-! ### Tenants (R371) -/

/-- What SYS.TENANT_SET leaves of an entry: its parameters are the message's; its balance is the cap where it begins, and the cap at most where it goes on. -/
theorem tenantSet_facts (t : Tenant) (aon refill win cap : Nat) {x : Tenant} (hx : x = tenantSet t aon refill win cap) :
    x.refill = refill ∧ x.winUs = win ∧ x.cap = cap ∧ (t.winUs = 0 → x.winUs ≠ 0 → x.balance = x.cap ∧ x.next = aon + 4 * x.winUs) ∧
      (t.winUs ≠ 0 → x.balance = min t.balance (x.cap : Int) ∧ x.next = t.next) := by
  subst hx
  unfold tenantSet
  split
  · next hidle =>
    split
    · next hwin => exact ⟨rfl, hwin.symm, rfl, fun _ hne => absurd rfl hne, fun hne => absurd hidle hne⟩
    · exact ⟨rfl, rfl, rfl, fun _ _ => ⟨rfl, rfl⟩, fun hne => absurd hidle hne⟩
  · next hruns => exact ⟨rfl, rfl, rfl, fun hidle => absurd hidle hruns, fun _ => ⟨rfl, rfl⟩⟩

theorem tenant_putTenant (s : State) (i j : Nat) (x : Tenant) : (putTenant s i x).tenant j = if j = i then x else s.tenant j := by
  obtain ⟨_, _, _, _, h⟩ := tenantWork_putTenant s i x
  rw [h]
  exact tget_tput ..

theorem tenantSet_answers (h : Serves s 0x0105 m) {i : Nat} {x : Tenant} (hi : i = ble m.payload 0 2) (hlt : i < 4096)
    (hx : x = tenantSet (s.tenant i) s.aon (ble m.payload 8 4) (ble m.payload 12 4) (ble m.payload 16 8)) :
    ∃ u, Answers (exec (.sysTenantSet m) s) u 0x0105 m stOK (tenantBytes x) ∧ u.tenant i = x ∧ (∀ j, j ≠ i → u.tenant j = s.tenant j) ∧
      x.refill = ble m.payload 8 4 ∧ x.winUs = ble m.payload 12 4 ∧ x.cap = ble m.payload 16 8 ∧
      ((s.tenant i).winUs = 0 → x.winUs ≠ 0 → x.balance = x.cap ∧ x.next = s.aon + 4 * x.winUs) ∧
      ((s.tenant i).winUs ≠ 0 → x.balance = min (s.tenant i).balance (x.cap : Int) ∧ x.next = (s.tenant i).next) ∧ KeepsMemory s u := by
  obtain ⟨hrefill, hwin, hcap, hbegins, hgoes⟩ := tenantSet_facts _ _ _ _ _ hx
  refine ⟨putTenant s i x, answers_of_body h ?_, ?_, fun j hj => ?_, hrefill, hwin, hcap, hbegins, hgoes, (keepsBytes_putTenant ..).memory⟩
  · unfold bodySysTenantSet
    dsimp only
    rw [← hi, if_neg (Nat.not_le.2 hlt), ← hx]
  · rw [tenant_putTenant, if_pos rfl]
  · rw [tenant_putTenant, if_neg hj]

theorem tenantGet_answers (h : Serves s 0x0106 m) (hlt : ble m.payload 0 2 < 4096) :
    Answers (exec (.sysTenantGet m) s) s 0x0106 m stOK (tenantBytes (s.tenant (ble m.payload 0 2))) :=
  answers_of_body h (if_neg (Nat.not_le.2 hlt))

/-! ### SYS.WAKE (R652) -/

theorem exec_sysWake (h : Serves s 0x0108 m) : exec (.sysWake m) s = .next (settle (bodySysWake s m)) := by
  change execSysWake m s = _
  rw [execSysWake, if_neg (by simp [h.1]), serve_of_serves h]

theorem wake_answers (h : Serves s 0x0108 m) (hstay : s.power.state ≠ .dormant ∨ s.entry.inputOn = false) :
    Answers (exec (.sysWake m) s) s 0x0108 m stOK [] := by
  rw [Answers, exec_sysWake h, bodySysWake]
  rw [if_neg (by rcases hstay with hs | hs <;> simp [hs])]

theorem wake_wakes (h : Serves s 0x0108 m) (hdormant : s.power.state = .dormant) (hinput : s.entry.inputOn = true) :
    exec (.sysWake m) s = .next (settle (wakeDormant (reply s 0x0108 m stOK []))) := by
  rw [exec_sysWake h, bodySysWake]
  rw [if_pos ⟨hdormant, hinput⟩]

end

end Sys2Proof.Machine
end

section
/-!
PROOFS of serving and scheduling: SYS.RESET (R586). What the three steps before a warm reset keep: every byte, the pending reset, and the end of every request
that has ended.
-/

namespace Sys2Proof.Machine

/-- What winding up for a reset keeps. -/
structure WoundUp (s t : State) : Prop where
  bytes : KeepsBytes s t
  resetting : t.mbx.resetting = s.mbx.resetting
  ended : ∀ i, (s.req i).state = .ended → (t.req i).state = .ended

/-- Nothing but the energy account, the boot and the values drawn differs. -/
def EnergyWork (s t : State) : Prop := ∃ e b n, t = { s with energy := e, boot := b, drawn := n }

section

variable {s t u : State}

theorem WoundUp.refl (s : State) : WoundUp s s := ⟨.refl s, rfl, fun _ h => h⟩

theorem WoundUp.trans (h : WoundUp s t) (g : WoundUp t u) : WoundUp s u :=
  ⟨h.bytes.trans g.bytes, g.resetting.trans h.resetting, fun i hi => g.ended i (h.ended i hi)⟩

theorem woundUp_ite {c : Prop} [Decidable c] (h : WoundUp s t) (g : WoundUp s u) : WoundUp s (if c then t else u) := by
  split
  · exact h
  · exact g

theorem woundUp_foldl {α : Type} {f : State → α → State} (h : ∀ s a, WoundUp s (f s a)) (l : List α) (s : State) : WoundUp s (l.foldl f s) :=
  foldl_keeps (WoundUp s) f l s (.refl s) fun t ht a _ => ht.trans (h t a)

theorem woundUp_of_left (hbytes : KeepsBytes s t) (hstand : standing t = standing s) (hreq : ∀ i, LeftOrEnded i s t) : WoundUp s t :=
  ⟨hbytes, resetting_of_standing hstand, fun i hi => by rw [(hreq i).of_ended hi, hi]⟩

theorem EnergyWork.refl (s : State) : EnergyWork s s := ⟨_, _, _, rfl⟩

theorem EnergyWork.trans (h : EnergyWork s t) (g : EnergyWork t u) : EnergyWork s u := by
  obtain ⟨_, _, _, rfl⟩ := h
  obtain ⟨_, _, _, rfl⟩ := g
  exact ⟨_, _, _, rfl⟩

theorem energyWork_ite {c : Prop} [Decidable c] (h : EnergyWork s t) (g : EnergyWork s u) : EnergyWork s (if c then t else u) := by
  split
  · exact h
  · exact g

theorem energyWork_foldl {α : Type} {f : State → α → State} (h : ∀ s a, EnergyWork s (f s a)) (l : List α) (s : State) : EnergyWork s (l.foldl f s) :=
  foldl_keeps (EnergyWork s) f l s (.refl s) fun t ht a _ => ht.trans (h t a)

theorem EnergyWork.woundUp (h : EnergyWork s t) : WoundUp s t := by
  obtain ⟨_, _, _, rfl⟩ := h
  exact ⟨keepsBytes_same rfl rfl rfl, rfl, fun _ h => h⟩

end

section

variable (s : State)

/-! ### The flush (R527, R588) -/

theorem energyWork_bootRecord (r : BootRec) : EnergyWork s (bootRecord s r) := by
  unfold bootRecord
  exact energyWork_ite ⟨_, _, _, rfl⟩ ⟨_, _, _, rfl⟩

theorem energyWork_openMark : EnergyWork s (openMark s) := by
  unfold openMark
  exact energyWork_ite (.refl s) ((energyWork_bootRecord s _).trans ⟨_, _, _, rfl⟩)

theorem energyWork_closeBlock (c : Nat) : EnergyWork s (closeBlock s c) := by
  unfold closeBlock
  exact energyWork_ite (.refl s) ⟨_, _, _, rfl⟩

theorem energyWork_addReceipt (c : Nat) (bytes : List Byte) : EnergyWork s (addReceipt s c bytes) := by
  unfold addReceipt
  exact (energyWork_ite (energyWork_closeBlock ..) (.refl s)).trans ⟨_, _, _, rfl⟩

theorem energyWork_closeShares (begin_ : Nat) (cut : Bool) : EnergyWork s (closeShares s begin_ cut) := by
  unfold closeShares
  extract_lets r
  have hr : EnergyWork s r.1 := by
    refine foldl_keeps (fun p : State × List Acct => EnergyWork s p.1) _ _ (s, []) (.refl s) fun p hp a _ => ?_
    split
    · exact hp.trans (energyWork_addReceipt ..)
    · exact hp
  exact hr.trans ⟨_, _, _, rfl⟩

theorem energyWork_closeOverhead (cut : Bool) : EnergyWork s (closeOverhead s cut) :=
  (energyWork_addReceipt s 16 (overheadBytes s cut)).trans ⟨_, _, _, rfl⟩

theorem energyWork_trySummary (i : Nat) : EnergyWork s (trySummary s i) := by
  unfold trySummary
  exact energyWork_ite (.refl s) (energyWork_addReceipt ..)

theorem energyWork_reconcile (cut : Bool) : EnergyWork s (reconcile s cut) := by
  unfold reconcile
  extract_lets v s0 e meas mo total resid r given active begin_ s1 src e1 s2 s3
  have h0 : EnergyWork s s0 := ⟨_, _, _, rfl⟩
  have h1 : EnergyWork s s1 := h0.trans (energyWork_ite (.refl s0) (energyWork_openMark s0))
  have h2 : EnergyWork s s2 := (h1.trans ⟨e1, _, _, rfl⟩).trans (energyWork_closeShares ..)
  have h3 : EnergyWork s s3 := h2.trans (energyWork_ite (energyWork_closeOverhead ..) (.refl s2))
  exact h3.trans (energyWork_foldl energyWork_trySummary _ s3)

theorem woundUp_send (d : Dest) (m : FwMsg) : WoundUp s (s.send d m) :=
  woundUp_of_left (keepsBytes_send ..) (standing_send ..) fun _ => leftOrEnded_of_ledger (by rw [State.send_srv])

theorem woundUp_notify (fn type status : Nat) (payload : List Byte) : WoundUp s (notify s fn type status payload) :=
  woundUp_of_left (keepsBytes_notify ..) (standing_notify ..) fun _ => leftOrEnded_of_ledger (by rw [notify_srv])

/-- An entry written over keeps its end where its state is kept. -/
theorem woundUp_setReq {i : Nat} {x : Req} (h : x.state = (s.req i).state) : WoundUp s (s.setReq i x) := by
  refine ⟨keepsBytes_setReq .., rfl, fun j hj => ?_⟩
  rw [State.req_setReq]
  split
  · next hji => rw [h, ← hji, hj]
  · exact hj

theorem woundUp_receiptSigned (r : Receipt) : WoundUp s (receiptSigned s r) := by
  unfold receiptSigned
  dsimp only
  refine woundUp_ite (woundUp_send ..) (woundUp_ite ?_ (.refl s))
  split
  · exact woundUp_setReq s rfl
  · exact .refl s

theorem woundUp_signBlock (c : Nat) : WoundUp s (signBlock s c) := by
  unfold signBlock
  dsimp only
  split
  · exact .refl s
  · refine .trans (.trans ?_ (woundUp_foldl woundUp_receiptSigned _ _)) (woundUp_notify ..)
    exact EnergyWork.woundUp ⟨_, _, _, rfl⟩

theorem woundUp_signAll (n c : Nat) : WoundUp s (signAll n s c) := by
  induction n generalizing s with
  | zero => exact .refl s
  | succ n ih => exact woundUp_ite (.refl s) ((woundUp_signBlock s c).trans (ih _))

theorem woundUp_flush : WoundUp s (flush s) := by
  unfold flush
  extract_lets s1 s2 s3
  have h1 : WoundUp s s1 := (energyWork_reconcile s true).woundUp
  have h2 : WoundUp s1 s2 := woundUp_foldl (fun t c => (energyWork_closeBlock t c).woundUp.trans (woundUp_signAll ..)) _ s1
  have h3 : EnergyWork s2 s3 := energyWork_bootRecord ..
  exact (h1.trans h2).trans (h3.trans ⟨_, _, _, rfl⟩).woundUp

/-! ### The end of requests (R355, R586) -/

theorem woundUp_yield : WoundUp s (yield_ s) := by
  unfold yield_
  split
  · exact woundUp_ite (.refl s) (woundUp_send ..)
  · exact .refl s

theorem woundUp_endAll (status : Nat) (f : Req → Bool) : WoundUp s (endAll s status f) :=
  woundUp_of_left (keepsBytes_endAll ..) (standing_endAll ..) fun _ => leftOrEnded_foldl (fun t j => leftOrEnded_endReq t j status) _ s

theorem woundUp_settle : WoundUp s (settle s) := woundUp_of_left (keepsBytes_settle s) (standing_settle s) fun _ => leftOrEnded_settle s

theorem woundUp_postDone (i : Nat) : WoundUp s (postDone s i) := by
  refine ⟨keepsBytes_postDone .., resetting_of_standing (standing_postDone ..), fun j hj => ?_⟩
  obtain ⟨b, hb⟩ := req_postDone s i j
  rw [hb]
  split <;> exact hj

theorem woundUp_postWaiting (i lap : Nat) : WoundUp s (postWaiting s i lap) := by
  unfold postWaiting postTokens
  extract_lets r due s1
  have h1 : WoundUp s s1 := woundUp_setReq s rfl
  refine woundUp_ite (.refl s) (.trans ?_ (woundUp_postDone ..))
  exact woundUp_ite h1 (h1.trans (woundUp_ite (.refl s1) (woundUp_notify ..)))

theorem woundUp_postEnds : WoundUp s (postEnds s) := woundUp_foldl (fun t i => woundUp_postWaiting t i _) _ s

theorem woundUp_warmFirst : WoundUp s (warmFirst s) :=
  (((woundUp_yield s).trans (woundUp_endAll ..)).trans (woundUp_postEnds _)).trans (woundUp_flush _)

end

/-! ### Every request ended -/

section

variable {s : State} {m : Msg} {i : Nat}

/-- Ends ordered for a list of requests reach every open one it names, whatever their heats come to. -/
theorem foldl_endReq_ends {l : List Nat} {status : Nat} (hi : i ∈ l) (h : (s.req i).isOpen = true ∧ (s.req i).mirror = false ∨ (s.req i).state = .ended) :
    ((l.foldl (fun s i => endReq s i status) s).req i).state = .ended := by
  induction l generalizing s with
  | nil => exact absurd hi List.not_mem_nil
  | cons j l ih =>
    rw [List.foldl_cons]
    have hstep := leftOrEnded_endReq (i := i) s j status
    by_cases hij : i = j
    · subst hij
      have hended : ((endReq s i status).req i).state = .ended := by
        rcases h with ⟨hopen, hmirror⟩ | hended
        · exact (endReq_ends hopen hmirror status).state
        · rw [hstep.of_ended hended, hended]
      rw [(leftOrEnded_foldl (fun s j => leftOrEnded_endReq s j status) l _).of_ended hended, hended]
    · refine ih ((List.mem_cons.1 hi).resolve_left hij) ?_
      rcases hstep with hsame | ⟨_, _, hended⟩
      · rwa [hsame]
      · exact .inr hended.state

/-- An end ordered for every open request of this package that satisfies a test ends each of them. -/
theorem endAll_ends {status : Nat} {f : Req → Bool} (hopen : (s.req i).isOpen = true) (hmirror : (s.req i).mirror = false) (hf : f (s.req i) = true) :
    ((endAll s status f).req i).state = .ended := by
  have hmem := mem_tkeys_filter (d := Req.reset) (t := s.srv.ledger) (k := i) (p := fun r => r.isOpen && !r.mirror && f r) rfl
    (by simpa using ⟨⟨hopen, hmirror⟩, hf⟩)
  exact foldl_endReq_ends hmem (.inl ⟨hopen, hmirror⟩)

theorem warmFirst_ends (hopen : (s.req i).isOpen = true) (hmirror : (s.req i).mirror = false) : ((warmFirst s).req i).state = .ended := by
  have hyield : (yield_ s).req i = s.req i := by
    unfold yield_
    split
    · split
      · rfl
      · exact req_of_ledger (by rw [State.send_srv]) i
    · rfl
  have hended : ((endAll (yield_ s) stPARTITION_RESET fun _ => true).req i).state = .ended := endAll_ends (by rw [hyield, hopen]) (by rw [hyield, hmirror]) rfl
  exact ((woundUp_postEnds _).trans (woundUp_flush _)).ended i hended

/-! ### SYS.RESET -/

theorem keepsBytes_reply (s : State) (code : Nat) (m : Msg) (status : Nat) (payload : List Byte) : KeepsBytes s (reply s code m status payload) := by
  unfold reply respond
  exact keepsBytes_ite (keepsBytes_emit ..) (keepsBytes_postEvent ..)

theorem req_reply (s : State) (code : Nat) (m : Msg) (status : Nat) (payload : List Byte) (i : Nat) : (reply s code m status payload).req i = s.req i := by
  refine req_of_ledger ?_ i
  unfold reply respond
  split <;> simp

/-- The state with a reset on its way, before its three steps. -/
def resetPending (s : State) : State := { s with mbx := { s.mbx with resetting := true } }

/-- What a reset ordered adds to its three steps is of the boot alone. -/
theorem energyWork_orderReset (s : State) (cause : Nat) : EnergyWork (warmFirst (resetPending s)) (orderReset s cause) := by
  rw [orderReset, ← resetPending]
  exact ⟨_, _, _, rfl⟩

theorem woundUp_orderReset (s : State) (cause : Nat) : WoundUp (resetPending s) (orderReset s cause) :=
  (woundUp_warmFirst _).trans (energyWork_orderReset s cause).woundUp

theorem orderReset_ends (hopen : (s.req i).isOpen = true) (hmirror : (s.req i).mirror = false) (cause : Nat) :
    ((orderReset s cause).req i).state = .ended :=
  (energyWork_orderReset s cause).woundUp.ended i (warmFirst_ends hopen hmirror)

/-- SYS.RESET answers, winds the package up, and orders the reset. -/
theorem reset_ends (h : Serves s 0x0107 m) (hmode : ble m.payload 0 1 = 1) :
    ∃ t, exec (.sysReset m) s = .next t ∧ t.boot.resetWait = some 3 ∧ t.mbx.resetting = true ∧
      (∀ i, (s.req i).isOpen = true → (s.req i).mirror = false → (t.req i).state = .ended) ∧ ∀ c a, spadByte t c a = spadByte s c a := by
  set u := reply s 0x0107 m stOK [] with hu
  set v := orderReset u 3 with hv
  have hrun : exec (.sysReset m) s = .next (settle v) := by
    change Host.Outcome.next (settle (serve s 0x0107 m bodySysReset)) = _
    rw [serve_of_serves h, bodySysReset, if_neg (not_not.2 hmode)]
  have hwound : WoundUp (resetPending u) v := woundUp_orderReset u 3
  have hsettle : WoundUp v (settle v) := woundUp_settle v
  refine ⟨settle v, hrun, ?_, ?_, fun i hopen hmirror => ?_, fun c a => ?_⟩
  · rw [boot_of_standing (standing_settle v)]
    rfl
  · rw [(hwound.trans hsettle).resetting]
    rfl
  · have hreq : u.req i = s.req i := req_reply ..
    exact hsettle.ended i (orderReset_ends (by rw [hreq, hopen]) (by rw [hreq, hmirror]) 3)
  · have hbytes : KeepsBytes s (settle v) :=
      ((keepsBytes_reply ..).trans (keepsBytes_same (t := resetPending u) rfl rfl rfl)).trans (hwound.trans hsettle).bytes
    exact hbytes.memory.1 c a

end

/-- Settles O41, one lemma for each message. -/
theorem systemMessagesAct : Obligations.SystemMessagesAct := by
  unfold Obligations.SystemMessagesAct
  refine fun s m => ⟨fun h => answers_of_body h rfl, fun h _ => settingsGet_answers h, fun h => ⟨fun _ _ _ hl ha _ => settingsSet_refuses h hl ha,
    settingsSet_applies h⟩, settingsCommit_answers, fun h _ _ => tenantSet_answers h, tenantGet_answers, reset_ends,
    fun h => ⟨wake_answers h, wake_wakes h⟩⟩

end Sys2Proof.Machine
end

section
/-!
PROOFS of the mailbox protocol: the message rows (R411, R418). Each row is the command of its type's code, and the first checks every command meets answer for it.
-/

namespace Sys2Proof.Machine

section

variable {s : State} {m : Msg} {code st : Nat}

/-- Each message row is the command of its type's code; the row of SYS.WAKE alone looks at the oscillator itself. -/
theorem exec_messageRow (hosc : s.entry.oscDead = false) (m : Msg) : ∀ e ∈ messageRows, exec (e.1 m) s = .next (settle (command s e.2 m)) := by
  simp only [messageRows, List.forall_mem_cons, List.not_mem_nil, false_implies, implies_true, and_true]
  refine ⟨rfl, rfl, rfl, rfl, rfl, rfl, rfl, ?sysWake, ?_⟩
  case sysWake => exact congrArg Host.Outcome.next (if_neg (by simp [hosc]))
  repeat' apply And.intro
  all_goals rfl

theorem serve_of_failure (hosc : s.entry.oscDead = false) (hfail : firstFailure s code m = some st) (body : State → Msg → State) :
    serve s code m body = reply s code m st [] := by
  rw [serve, if_neg (by simp [hosc]), hfail]

theorem command_of_failure (hosc : s.entry.oscDead = false) (hfail : firstFailure s code m = some st) : command s code m = reply s code m st [] := by
  unfold command
  split
  · exact serve_of_failure hosc hfail _
  · exact serve_of_failure hosc hfail _

/-- A 65th deferred command of a path is BUSY (R411). -/
theorem command_of_full (hosc : s.entry.oscDead = false) (hpass : firstFailure s code m = none) (hdefer : isDeferred code = true)
    (hfull : 64 ≤ (deferredOf s m.path).length) : command s code m = reply s code m stBUSY [] := by
  rw [command, if_pos hdefer, serveDeferred, serve_of_serves ⟨hosc, hpass⟩, if_pos hfull]

end

/-- Settles O40: a message row is the command of its code, and the first checks answer before the command's own body runs. -/
theorem failedMessagesChangeNothing : Obligations.FailedMessagesChangeNothing := by
  unfold Obligations.FailedMessagesChangeNothing Answers
  intro s m hosc e he
  rw [exec_messageRow hosc m e he]
  refine ⟨fun st hfail => ?_, fun hdefer hpass hfull => ?_⟩
  · rw [command_of_failure hosc hfail]
  · rw [command_of_full hosc hpass hdefer hfull]

end Sys2Proof.Machine
end

section
/-!
PROOFS of the mailbox protocol: the host port refuted by CAPS_CHANGED on a function whose backlog is full (R398, R413, R426).
-/

namespace Sys2Proof.Machine

/-- A change of the host link's width or rate is announced on every enabled function, which ends the requests of those it overflows. -/
theorem exec_hostLinkTrained_changed {s : State} {width rate : Nat} (hport : portUp s = true) (hready : s.mbx.ready = true)
    (hchange : width ≠ s.mbx.linkWidth ∨ rate ≠ s.mbx.linkRate) :
    exec (.hostLinkTrained width rate) s = .next (settle (capsChanged
      { s with mbx := { s.mbx with linkWidth := width, linkRate := rate, degraded := decide (rate < 64 ∨ width < 8) } })) := by
  change execHostLinkTrained width rate s = _
  unfold execHostLinkTrained
  dsimp only
  rw [if_neg (by simp [hport]), if_pos ⟨hchange, hready⟩]

/-- A READY package whose function 0 has no event slot free and 64 MiB in its backlog, and one request, which decodes in a session of its own; object 0 is
that session's park record. -/
def fullBacklog : State :=
  { State.reset with
    far := { State.reset.far with objs := [(0, { Obj.reset with present := true })] }
    srv := { State.reset.srv with
      ledger := [(0, { Req.reset with state := .decode })]
      sessions := [(0, { Session.reset with isOpen := true, state := .live, oneShot := true })]
      maps := [(0, { KvMap.reset with record := some 0 })] }
    mbx := { State.reset.mbx with
      ready := true
      fns := [(0, { Fn.reset with enabled := true, sram := [(evtHdr 0, 1)], backlog := [⟨mTOKENS, 0, 0, false, []⟩], backlogBytes := 67108864 })] } }

theorem fullBacklog_settled : Settled fullBacklog := fun f _ => by
  cases f <;> rfl

/-- Refutes O48: CAPS_CHANGED overflows a full backlog, so the end of the function's requests with HOST_STALLED follows, and the close of a session frees its
park record, an object of the far tier. The statement has HOST_LINK_TRAINED leave the far tier as it was. -/
theorem not_hostPortEventsAct : ¬ Obligations.HostPortEventsAct := by
  unfold Obligations.HostPortEventsAct
  intro h
  obtain ⟨_, _, _, _, _, _, _, hport⟩ := h
  obtain ⟨_, _, _, htrained⟩ := hport fullBacklog fullBacklog_settled (by decide)
  obtain ⟨t, hrun, _, _, _, hfar, _⟩ := htrained 16 64
  rw [exec_hostLinkTrained_changed (by decide) rfl (.inl (by decide))] at hrun
  obtain rfl := Host.Outcome.next.inj hrun
  have hfreed : (settle (capsChanged { fullBacklog with
      mbx := { fullBacklog.mbx with linkWidth := 16, linkRate := 64, degraded := decide (64 < 64 ∨ 16 < 8) } })).far.objs = [] := rfl
  exact absurd (hfreed.symm.trans (congrArg Far.objs hfar)) (by decide)

end Sys2Proof.Machine
end

section
/-!
PROOFS of the mailbox protocol: the debug port's scans, its unlocking, its accesses, the NOR's erasure, the captains' halts and steps, and the SPDM responder
(R430, R594 to R602, R606, R623).
-/

namespace Sys2Proof.Machine

/-! ### Scans (R594, R595) -/

section

variable {s : State}

theorem emit_of_running (hosc : s.entry.oscDead = false) (o : Out) : s.emit o = { s with out := s.out ++ [o] } := by
  rw [State.emit, if_neg (by simp [hosc])]

theorem tdo_of_running (hosc : s.entry.oscDead = false) (v : Nat) :
    tdo s v = { s with dport := { s.dport with dr := v }, out := s.out ++ [.tdo v] } := by
  rw [tdo, emit_of_running (s := { s with dport := { s.dport with dr := v } }) hosc]

/-- A boundary scan shifts out one value of its register's width. -/
theorem sampled_eq (hosc : s.entry.oscDead = false) (n : Nat) : ∃ v, v < 2 ^ n ∧
    sampled s n = { s with dport := { s.dport with dr := v }, out := s.out ++ [.tdo v], drawn := s.drawn + 1 } := by
  refine ⟨(s.draw (2 ^ n)).1, Nat.mod_lt _ (Nat.two_pow_pos n), ?_⟩
  rw [sampled, tdo_of_running (by rw [State.draw_entry, hosc])]
  rfl

theorem extest_scans (hosc : s.entry.oscDead = false) (l : List Bool) : ∃ t v, exec (.extest l) s = .next t ∧ t.out = s.out ++ [.tdo v] ∧
    v < 2 ^ l.length ∧ t.dport.ir = 0 ∧ t.dport.boundary = l ∧ t.dport.extest = true ∧ t.dport.level = s.dport.level ∧
    t = { s with dport := t.dport, out := t.out, drawn := t.drawn } := by
  obtain ⟨v, hv, hscan⟩ := sampled_eq (s := { tapIr s 0 with dport := { (tapIr s 0).dport with boundary := l, extest := true } }) hosc l.length
  exact ⟨_, v, congrArg Host.Outcome.next hscan, rfl, hv, rfl, rfl, rfl, rfl, rfl⟩

theorem samplePreload_scans (hosc : s.entry.oscDead = false) (l : List Bool) : ∃ t v, exec (.samplePreload l) s = .next t ∧ t.out = s.out ++ [.tdo v] ∧
    v < 2 ^ l.length ∧ t.dport.ir = 1 ∧ t.dport.boundary = l ∧ t.dport.extest = s.dport.extest ∧ t.dport.level = s.dport.level ∧
    t = { s with dport := t.dport, out := t.out, drawn := t.drawn } := by
  obtain ⟨v, hv, hscan⟩ := sampled_eq (s := { tapIr s 1 with dport := { (tapIr s 1).dport with boundary := l } }) hosc l.length
  exact ⟨_, v, congrArg Host.Outcome.next hscan, rfl, hv, rfl, rfl, rfl, rfl, rfl⟩

/-- What an instruction that shifts a value out leaves. -/
theorem tdo_tapIr (hosc : s.entry.oscDead = false) (ir v : Nat) : (tdo (tapIr s ir) v).out = s.out ++ [.tdo v] ∧ (tdo (tapIr s ir) v).dport.ir = ir ∧
    tdo (tapIr s ir) v = { s with dport := (tdo (tapIr s ir) v).dport, out := (tdo (tapIr s ir) v).out } ∧
    (tdo (tapIr s ir) v).dport.level = s.dport.level := by
  rw [tdo_of_running (s := tapIr s ir) hosc]
  exact ⟨rfl, rfl, rfl, rfl⟩

theorem bypass_scans (hosc : s.entry.oscDead = false) {ir : Nat} (tdi : Bool) (hir : ir < 256)
    (hother : [0, 1, 2, 0x10, 0x11, 0x12, 0x13, 0x20, 0x21, 0x22].contains ir = false) : ∃ t, exec (.bypass ir tdi) s = .next t ∧ t.dport.ir = ir ∧
    t.dport.dr = (if tdi then 1 else 0) ∧ t.out = s.out ++ [.tdo (if s.dport.ir = ir then s.dport.dr % 2 else 0)] ∧
    t = { s with dport := t.dport, out := t.out } := by
  have hrun : execBypass ir tdi s = .next { tapIr s ir with
      dport := { (tapIr s ir).dport with dr := b2n tdi }, out := s.out ++ [.tdo (if s.dport.ir = ir then s.dport.dr % 2 else 0)] } := by
    rw [execBypass, if_neg (not_or.2 ⟨by rw [hother]; exact Bool.false_ne_true, Nat.not_le.2 hir⟩)]
    dsimp only
    rw [tdo_of_running (s := tapIr s ir) hosc]
    rfl
  exact ⟨_, hrun, rfl, rfl, rfl, rfl⟩

theorem scanout_scans (hosc : s.entry.oscDead = false) : ∃ t, exec .scanout s = .next t ∧ t.dport.ir = 0x22 ∧
    t = { s with dport := t.dport, out := t.out } ∧ (s.dport.level = 0 → t.out = s.out ++ [.tdo 0]) ∧
    (s.dport.level ≠ 0 → s.dport.ir = 0x22 →
      t.out = s.out ++ [.tdo (ble (scanImage s) (4 * s.dport.scanPos) 4)] ∧ t.dport.scanPos = s.dport.scanPos + 1) ∧
    (s.dport.level ≠ 0 → s.dport.ir ≠ 0x22 → t.out = s.out ++ [.tdo (ble (scanImage s) 0 4)] ∧ t.dport.scanPos = 1) := by
  have hpos : (tapIr s 0x22).dport.scanPos = if s.dport.ir = 0x22 then s.dport.scanPos else 0 := by simp [tapIr]
  change ∃ t, execScanout s = _ ∧ _
  unfold execScanout
  dsimp only
  rw [tdo_of_running (s := tapIr s 0x22) hosc, tdo_of_running (s := tapIr s 0x22) hosc]
  by_cases hlevel : s.dport.level = 0
  · rw [if_pos hlevel]
    exact ⟨_, rfl, rfl, rfl, fun _ => rfl, fun h => absurd hlevel h, fun h => absurd hlevel h⟩
  · rw [if_neg hlevel, hpos]
    refine ⟨_, rfl, rfl, rfl, fun h => absurd h hlevel, fun _ hir => ?_, fun _ hir => ?_⟩
    · rw [if_pos hir]
      exact ⟨rfl, rfl⟩
    · rw [if_neg hir]
      exact ⟨rfl, rfl⟩

/-! ### Unlocking (R596 to R599) -/

theorem freeBytes_length (s : State) (n : Nat) : (freeBytes s n).length = n := by simp [freeBytes]

theorem challengeBytes_length {nonce : List Byte} (h : nonce.length = 32) : (challengeBytes s nonce).length = 64 := by
  simp [challengeBytes, leBytes_length, zeros, h]

theorem leNat_leBytes (n v : Nat) : leNat (leBytes n v) = v % 256 ^ n := by
  induction n generalizing v with
  | zero => simp [leBytes, leNat, Nat.mod_one]
  | succ n ih =>
    rw [leBytes, leNat, ih, BitVec.toNat_ofNat, pow_succ' 256 n, Nat.mod_mul]

/-- A field of a list of bytes lies where the bytes before it end. -/
theorem bsub_append_append {n : Nat} (a b c : List Byte) (h : b.length = n) : bsub (a ++ b ++ c) a.length n = b := by
  rw [bsub, List.append_assoc, List.drop_left, List.take_left' h, h, Nat.sub_self]
  exact List.append_nil _

/-- A challenge carries the package's serial number at byte 8. -/
theorem ble_challengeBytes_serial (s : State) (nonce : List Byte) : ble (challengeBytes s nonce) 8 8 = s.pkg.serial % 2 ^ 64 := by
  have hcut : challengeBytes s nonce = (leBytes 4 0x55444B58 ++ leBytes 2 1 ++ zeros 2) ++ leBytes 8 s.pkg.serial ++
      (leBytes 4 s.boot.bootCount ++ zeros 4 ++ nonce ++ zeros 8) := by
    simp only [challengeBytes, List.append_assoc]
  have hfield := bsub_append_append (leBytes 4 0x55444B58 ++ leBytes 2 1 ++ zeros 2) (leBytes 8 s.pkg.serial)
    (leBytes 4 s.boot.bootCount ++ zeros 4 ++ nonce ++ zeros 8) (leBytes_length 8 _)
  rw [ble, hcut]
  exact (congrArg leNat hfield).trans (leNat_leBytes 8 _)

theorem unlockChal_challenges (hosc : s.entry.oscDead = false) :
    ∃ t c, exec .unlockChal s = .next t ∧ t.dport.challenge = some (c, s.aon) ∧ c.length = 64 ∧
    ble c 8 8 = s.pkg.serial % 2 ^ 64 ∧ t.dport.ir = 0x11 ∧ t.out = s.out ++ [.tdo (leNat c)] ∧ t.dport.level = s.dport.level ∧
    t = { s with dport := t.dport, out := t.out, drawn := t.drawn } := by
  set c := challengeBytes s (freeBytes s 32) with hc
  set u := tapIr (s.drew 32) 0x11 with hu
  have hrun : exec .unlockChal s = .next (tdo { u with dport := { u.dport with challenge := some (c, s.aon) } } (leNat c)) := rfl
  rw [tdo_of_running (s := { u with dport := { u.dport with challenge := some (c, s.aon) } }) hosc] at hrun
  exact ⟨_, c, hrun, rfl, challengeBytes_length (freeBytes_length ..), ble_challengeBytes_serial .., rfl, rfl, rfl, rfl⟩

/-- A response is not looked at in lockout; otherwise it takes the challenge, and grants its level or counts as a failure. -/
theorem unlockResp_answers (s : State) (r : List Byte) : ∃ t, exec (.unlockResp r) s = .next t ∧ t = { s with dport := t.dport } ∧ t.dport.ir = 0x12 ∧
    (s.dport.lockout = true → t.dport.level = s.dport.level ∧ t.dport.fails = s.dport.fails ∧ t.dport.challenge = s.dport.challenge) ∧
    (s.dport.lockout = false → responseOk s r = true → t.dport.level = ble r 0 1 ∧ t.dport.unlocked = true ∧ t.dport.challenge = none ∧
      t.dport.fails = s.dport.fails) ∧
    (s.dport.lockout = false → responseOk s r = false → t.dport.level = s.dport.level ∧ t.dport.fails = s.dport.fails + 1 ∧ t.dport.challenge = none ∧
      (t.dport.lockout = true ↔ 3 ≤ s.dport.fails + 1)) := by
  refine ⟨_, rfl, ?_⟩
  dsimp only
  by_cases hlock : (tapIr s 0x12).dport.lockout = true
  · rw [if_pos hlock]
    have hshut : s.dport.lockout ≠ false := fun h => Bool.false_ne_true (h.symm.trans hlock)
    exact ⟨rfl, rfl, fun _ => ⟨rfl, rfl, rfl⟩, fun h => absurd h hshut, fun h => absurd h hshut⟩
  · rw [if_neg hlock]
    have hopen : s.dport.lockout ≠ true := hlock
    by_cases hok : responseOk s r = true
    · rw [if_pos hok]
      exact ⟨rfl, rfl, fun h => absurd h hopen, fun _ _ => ⟨rfl, rfl, rfl, rfl⟩, fun _ h => absurd (h.symm.trans hok) Bool.false_ne_true⟩
    · rw [if_neg hok]
      exact ⟨rfl, rfl, fun h => absurd h hopen, fun _ h => absurd h hok, fun _ _ => ⟨rfl, rfl, rfl, decide_eq_true_iff⟩⟩

/-! ### Accesses (R600 to R602) -/

/-- The state in which the update of an APACC scan acts: the last access's data and STATUS are shifted out. -/
def apScanned (s : State) : State :=
  { s with
    dport := { (tapIr s 0x20).dport with dr := s.dport.apData.toNat + s.dport.apStatus * 2 ^ 132 }
    out := s.out ++ [.tdo (s.dport.apData.toNat + s.dport.apStatus * 2 ^ 132)] }

/-- The access an APACC scan asks for. -/
def apAsked (w : Nat) : Access := ⟨BitVec.ofNat 64 (nbits w 127 64), BitVec.ofNat 64 (nbits w 63 0), nbits w 130 129, nbits w 128 128 = 1⟩

/-- An APACC scan is refused, meets an access in progress, or starts its own. -/
theorem exec_apacc (hosc : s.entry.oscDead = false) (dr : BitVec 136) : exec (.apacc dr) s = .next (
    if s.dport.level = 0 ∨ nbits dr.toNat 128 128 = 1 ∧ s.dport.level < 2 then
      { apScanned s with dport := { (apScanned s).dport with apData := 0, apStatus := apLOCKED } }
    else if s.dport.access.isSome then { apScanned s with dport := { (apScanned s).dport with apData := 0, apStatus := apBUSY } }
    else { apScanned s with dport := { (apScanned s).dport with access := some (apAsked dr.toNat) } }) := by
  change execApacc dr s = _
  unfold execApacc
  dsimp only
  rw [tdo_of_running (s := tapIr s 0x20) hosc]
  rfl

theorem apacc_scans (hosc : s.entry.oscDead = false) (dr : BitVec 136) :
    ∃ t, exec (.apacc dr) s = .next t ∧ t.dport.ir = 0x20 ∧ t.dport.level = s.dport.level ∧
    t.out = s.out ++ [.tdo (s.dport.apData.toNat + s.dport.apStatus * 2 ^ 132)] ∧ t = { s with dport := t.dport, out := t.out } ∧
    ((s.dport.level = 0 ∨ nbits dr.toNat 128 128 = 1 ∧ s.dport.level < 2) →
      t.dport.apStatus = 1 ∧ t.dport.apData = 0 ∧ t.dport.access = s.dport.access) ∧
    (s.dport.level ≠ 0 → (nbits dr.toNat 128 128 = 0 ∨ 2 ≤ s.dport.level) →
      (∀ x, s.dport.access = some x → t.dport.apStatus = 6 ∧ t.dport.apData = 0 ∧ t.dport.access = some x) ∧
      (s.dport.access = none → ∃ x, t.dport.access = some x ∧ x.addr.toNat = nbits dr.toNat 127 64 ∧ x.data.toNat = nbits dr.toNat 63 0 ∧
        x.size = nbits dr.toNat 130 129 ∧ x.write = (nbits dr.toNat 128 128 == 1))) := by
  have hword : ∀ hi lo, hi + 1 - lo = 64 → (BitVec.ofNat 64 (nbits dr.toNat hi lo)).toNat = nbits dr.toNat hi lo := fun hi lo h => by
    rw [BitVec.toNat_ofNat, nbits, h, Nat.mod_mod]
  rw [exec_apacc hosc]
  by_cases hrefused : s.dport.level = 0 ∨ nbits dr.toNat 128 128 = 1 ∧ s.dport.level < 2
  · rw [if_pos hrefused]
    refine ⟨_, rfl, rfl, rfl, rfl, rfl, fun _ => ⟨rfl, rfl, rfl⟩, fun hlevel hmay => ?_⟩
    omega
  · rw [if_neg hrefused]
    cases haccess : s.dport.access with
    | some x =>
      exact ⟨_, rfl, rfl, rfl, rfl, rfl, fun h => absurd h hrefused, fun _ _ => ⟨fun y hy => ⟨rfl, rfl, haccess.trans hy⟩, fun h => (nomatch h)⟩⟩
    | none =>
      exact ⟨_, rfl, rfl, rfl, rfl, rfl, fun h => absurd h hrefused,
        fun _ _ => ⟨fun _ h => (nomatch h), fun _ => ⟨_, rfl, hword 127 64 rfl, hword 63 0 rfl, rfl, rfl⟩⟩⟩

theorem exec_apaccAccessDone {x : Access} (h : s.dport.access = some x) : exec .apaccAccessDone s = .next { (apAccess s x).1 with
    dport := { (apAccess s x).1.dport with access := none, apData := BitVec.ofNat 64 (apAccess s x).2.1, apStatus := (apAccess s x).2.2 } } := by
  change execApaccAccessDone s = _
  rw [execApaccAccessDone, h]

theorem apAccess_of_misaligned {x : Access} (h : x.addr.toNat % 2 ^ x.size ≠ 0) : apAccess s x = (s, 0, apADDR) := by
  unfold apAccess
  exact if_pos h

/-- An aligned access to a scratchpad. -/
theorem apAccess_spad {x : Access} {d : Nat} (hd : d < 4) (htarget : nbits x.addr.toNat 63 56 = 0x10 + d) (haligned : x.addr.toNat % 2 ^ x.size = 0) :
    apAccess s x = apCore s 0 (coreAddr d (nbits x.addr.toNat 55 52) (nbits x.addr.toNat 51 47)) (nbits x.addr.toNat 21 0) (2 ^ x.size) x.write
      x.data.toNat := by
  unfold apAccess
  dsimp only
  rw [htarget, if_neg (not_not.2 haligned), if_pos (by omega), Nat.add_sub_cancel_left]

theorem apCore_spad {c off n : Nat} (hregs : s.coreRegs c = true) (hcol : coreCol c < 24) (hfit : off + n ≤ 3145728) (v : Nat) :
    apCore s 0 c off n false v = answered s (mread 0 (s.core c).spad off n) ∧
    apCore s 0 c off n true v = (s.setCore c { s.core c with spad := mwrite 0 (s.core c).spad off (leBytes n v) }, 0, apOK) := by
  have hin : ¬(768 * 4096 < off + n ∨ 24 ≤ coreCol c) := by omega
  constructor <;> simp only [apCore, if_pos, if_neg hin, hregs, Bool.not_true, Bool.false_eq_true, if_false]

theorem mread_spad (s : State) (c off n : Nat) : mread 0 (s.core c).spad off n = (List.range n).map fun i => spadByte s c (off + i) := by
  refine List.map_congr_left fun i hi => ?_
  have hi := List.mem_range.1 hi
  rw [mget_mcut, if_pos (by omega), spadByte]

theorem spadByte_setCore_mwrite {c off : Nat} {l : List Byte} {i : Nat} (h : i < l.length) :
    spadByte (s.setCore c { s.core c with spad := mwrite 0 (s.core c).spad off l }) c (off + i) = (l[i]?).getD 0 := by
  rw [spadByte, State.core_setCore_same, mget_mwrite, if_pos (by omega), Nat.add_sub_cancel_left]

theorem accWord_setCore_of_acc {c : Nat} {x : Core} (h : x.acc = (s.core c).acc) (j i : Nat) : accWord (s.setCore c x) j i = accWord s j i := by
  rw [accWord, State.core_setCore]
  split
  · next hj => rw [h, hj, accWord]
  · rfl

/-- An access to a scratchpad moves exactly its bytes. -/
theorem apaccAccessDone_spad {x : Access} {d c off n : Nat} (haccess : s.dport.access = some x)
    (hc : c = coreAddr d (nbits x.addr.toNat 55 52) (nbits x.addr.toNat 51 47)) (hoff : off = nbits x.addr.toNat 21 0) (hn : n = 2 ^ x.size) (hd : d < 4)
    (htarget : nbits x.addr.toNat 63 56 = 0x10 + d) (haligned : x.addr.toNat % n = 0) (hregs : s.coreRegs c = true) (hcol : coreCol c < 24)
    (hfit : off + n ≤ 3145728) :
    ∃ t, exec .apaccAccessDone s = .next t ∧ t.dport.access = none ∧ t.dport.apStatus = 0 ∧
      (x.write = false → t.dport.apData = BitVec.ofNat 64 (leNat ((List.range n).map fun i => spadByte s c (off + i))) ∧ t = { s with dport := t.dport }) ∧
      (x.write = true → (∀ i, i < n → spadByte t c (off + i) = BitVec.ofNat 8 (x.data.toNat / 2 ^ (8 * i))) ∧ SpadExcept s t c [(off, n)] ∧
        (∀ j i, accWord t j i = accWord s j i) ∧ (∀ e a, nearByte t e a = nearByte s e a) ∧ t = { s with cores := t.cores, dport := t.dport }) := by
  obtain ⟨hread, hwrite⟩ := apCore_spad (s := s) hregs hcol hfit x.data.toNat
  have hat : apAccess s x = apCore s 0 c off n x.write x.data.toNat := by
    subst hc hoff hn
    exact apAccess_spad hd htarget haligned
  rw [exec_apaccAccessDone haccess, hat]
  cases hdir : x.write with
  | false =>
    rw [hread, answered, mread_spad]
    exact ⟨_, rfl, rfl, rfl, fun _ => ⟨rfl, rfl⟩, fun h => (nomatch h)⟩
  | true =>
    rw [hwrite]
    refine ⟨_, rfl, rfl, rfl, fun h => (nomatch h), fun _ => ⟨fun i hi => ?_, ?_, fun j i => ?_, fun e a => rfl, rfl⟩⟩
    · exact (spadByte_setCore_mwrite (by rwa [leBytes_length])).trans (by rw [leBytes_getElem? n _ i hi]; rfl)
    · exact spadExcept_setCore_mwrite s c off n _ (leBytes_length ..)
    · exact accWord_setCore_of_acc (x := { s.core c with spad := mwrite 0 (s.core c).spad off (leBytes n x.data.toNat) }) rfl j i

theorem apaccAccessDone_ends {x : Access} (haccess : s.dport.access = some x) : ∃ t, exec .apaccAccessDone s = .next t ∧ t.dport.access = none ∧
    (x.addr.toNat % 2 ^ x.size ≠ 0 → t.dport.apStatus = 2 ∧ t.dport.apData = 0 ∧ t = { s with dport := t.dport }) := by
  refine ⟨_, exec_apaccAccessDone haccess, rfl, fun h => ?_⟩
  rw [apAccess_of_misaligned h]
  exact ⟨rfl, rfl, rfl⟩

/-! ### The NOR (R623) -/

theorem flashErase_begins {k : Nat} (hlevel : s.dport.level = 2) (hon : s.power.stewardOn = true) (hopen : flashOpen k = true)
    (hidle : s.dport.erasing = false) :
    exec (.flashErase k) s = .next { s with dport := { s.dport with flash := BitVec.ofNat 64 k, erasing := true } } := by
  change execFlashErase k s = _
  rw [execFlashErase, if_pos ⟨hlevel, hon⟩, flashErase, if_pos (by simp [hopen, hidle])]

theorem norByte_norErase (s : State) (a b : Nat) :
    norByte (norErase s a) b = if a ≤ b ∧ b < a + 65536 then 0xFF else norByte s b := by
  have hkept : norByte (norErase s a) b = _ := tget_filter 0xFF s.boot.nor (fun i => !(decide (a ≤ i) && decide (i < a + 65536))) b
  rw [hkept]
  by_cases h : a ≤ b ∧ b < a + 65536
  · rw [if_pos h, if_neg (by simpa using h)]
  · rw [if_neg h, if_pos (by rw [Bool.not_eq_true', Bool.and_eq_false_iff, decide_eq_false_iff_not, decide_eq_false_iff_not]; exact not_and_or.1 h)]
    rfl

theorem flashEraseDone_erases (herasing : s.dport.erasing = true) : ∃ t, exec .flashEraseDone s = .next t ∧ t.dport.erasing = false ∧
    bits s.dport.flash 9 0 ∈ t.dport.erased ∧
    (∀ a, norByte t a = if bits s.dport.flash 9 0 * 65536 ≤ a ∧ a < bits s.dport.flash 9 0 * 65536 + 65536 then 0xFF else norByte s a) ∧
    t = { s with boot := t.boot, dport := t.dport } := by
  refine ⟨_, congrArg Host.Outcome.next (if_pos herasing), rfl, ?_, norByte_norErase s _, rfl⟩
  dsimp only [norErase]
  split
  · next hlisted => exact List.contains_iff_mem.1 hlisted
  · exact List.mem_append_right _ (List.mem_singleton.2 rfl)

/-! ### Captains (R606) -/

theorem capt_setCapt (s : State) (c j : Nat) (x : Captain) : (s.setCapt c x).capt j = if j = c then x else s.capt j := tget_tput ..

/-- Bit 0 reads as it was written. -/
theorem bit_setBits_zero (w : Word64) (h : Bool) : bit (setBits w 0 0 (b2n h)) 0 = h := by
  have hlow : nset w.toNat 0 0 (b2n h) % 2 = b2n h := by
    cases h <;> norm_num [nset, nbits, b2n] <;> omega
  have hread : nbits (setBits w 0 0 (b2n h)).toNat 0 0 = b2n h := by
    rw [nbits, setBits, BitVec.toNat_ofNat]
    omega
  rw [bit, hread]
  cases h <;> rfl

/-- TWIN_YIELD changes nothing but what the fabric counts and what leaves the package. -/
theorem yield_rest (s : State) : yield_ s = { s with fab := (yield_ s).fab, out := (yield_ s).out } := by
  unfold yield_
  split
  · split
    · rfl
    · unfold State.send
      split <;> rfl
  · rfl

theorem yield_tells {n : Nat} (hosc : s.entry.oscDead = false) (htwin : s.twinNode = some n) (hpaired : s.twin.state = .paired) :
    Tells (yield_ s) (.node n) .twinYield := by
  rw [yield_, htwin]
  dsimp only
  rw [if_neg (by simp [hpaired])]
  exact tells_send hosc ..

/-- HALT of a captain as it is written, before the twin is told. -/
def haltWritten (s : State) (c : Nat) (halt : Bool) : State := s.setCapt c { s.capt c with ctrl := setBits (s.capt c).ctrl 0 0 (b2n halt) }

theorem haltWritten_halts (s : State) (c : Nat) (halt : Bool) : (haltWritten s c halt).captHalted c = halt ∧
    (∀ j, j ≠ c → (haltWritten s c halt).capt j = s.capt j) := by
  refine ⟨?_, fun j hj => ?_⟩
  · rw [State.captHalted, haltWritten, capt_setCapt, if_pos rfl, bit_setBits_zero]
  · rw [haltWritten, capt_setCapt, if_neg hj]

theorem captHalt_eq (s : State) (c : Nat) (halt : Bool) : captHalt s c halt =
    if halt && !s.captHalted c && c != 5 && s.twin.state == .paired then yield_ (haltWritten s c halt) else haltWritten s c halt := rfl

theorem captHalt_halts (hosc : s.entry.oscDead = false) {c : Nat} (hc : c < 8) (hlevel : s.dport.level = 2) (h : Bool) :
    ∃ t, exec (.captHalt c h) s = .next t ∧ t.captHalted c = h ∧ (∀ j, j ≠ c → t.capt j = s.capt j) ∧
      t = { s with dport := t.dport, fab := t.fab, out := t.out } ∧
      (∀ n, s.twinNode = some n → h = true → s.captHalted c = false → c ≠ 5 → s.twin.state = .paired → Tells t (.node n) .twinYield) ∧
      (h = false → t.out = s.out) := by
  obtain ⟨hhalted, hothers⟩ := haltWritten_halts s c h
  refine ⟨captHalt s c h, congrArg Host.Outcome.next (if_pos ⟨hlevel, hc⟩), ?_⟩
  rw [captHalt_eq]
  split
  · next hyields =>
    have hdport : (yield_ (haltWritten s c h)).dport = (haltWritten s c h).dport := by rw [yield_rest]
    refine ⟨?_, fun j hj => ?_, ?_, fun n htwin _ _ _ hpaired => yield_tells hosc htwin hpaired, fun hrelease => ?_⟩
    · rw [State.captHalted, State.capt, hdport]
      exact hhalted
    · rw [State.capt, hdport]
      exact hothers j hj
    · exact (yield_rest _).trans (by rw [hdport]; rfl)
    · simp [hrelease] at hyields
  · next hstays =>
    refine ⟨hhalted, hothers, rfl, fun n htwin hhalt hrunning hfive hpaired => absurd ?_ hstays, fun _ => rfl⟩
    simp [hhalt, hrunning, hfive, hpaired]

theorem captStep_steps {c : Nat} (hc : c < 8) (hlevel : s.dport.level = 2) (hhalted : s.captHalted c = true) :
    ∃ t, exec (.captStep c) s = .next t ∧ (t.capt c).pc = Config.captainNext c (s.capt c).pc ∧ t.captHalted c = true ∧
      (∀ j, j ≠ c → t.capt j = s.capt j) ∧ t = { s with dport := t.dport } := by
  refine ⟨captStep s c, congrArg Host.Outcome.next (if_pos ⟨hlevel, hc⟩), ?_⟩
  rw [captStep, if_pos hhalted]
  refine ⟨?_, ?_, fun j hj => ?_, rfl⟩
  · rw [capt_setCapt, if_pos rfl]
  · rw [State.captHalted, capt_setCapt, if_pos rfl]
    exact hhalted
  · rw [capt_setCapt, if_neg hj]

theorem captStep_of_running {c : Nat} (hrunning : s.captHalted c = false) : exec (.captStep c) s = .next s := by
  have hstays : captStep s c = s := if_neg (by simp [hrunning])
  change execCaptStep c s = _
  rw [execCaptStep, hstays, ite_self]

/-! ### SPDM (R430) -/

/-- One SPDM response leaves, and nothing else happens but that values are drawn. -/
def SpdmAnswered (s t : State) (doe : Bool) : Prop := ∃ code l, t.out = s.out ++ [.spdm doe code l] ∧ t = { s with out := t.out, drawn := t.drawn }

theorem spdmAnswered_ite {c : Prop} [Decidable c] {t u : State} {doe : Bool} (h : SpdmAnswered s t doe) (g : SpdmAnswered s u doe) :
    SpdmAnswered s (if c then t else u) doe := by
  split
  · exact h
  · exact g

theorem spdmAnswered_say (hosc : s.entry.oscDead = false) (doe : Bool) (code : Nat) (l : List Byte) : SpdmAnswered s (spdmSay s doe code l) doe := by
  rw [spdmSay, emit_of_running hosc]
  exact ⟨code, l, rfl, rfl⟩

theorem spdmAnswered_signed (hosc : s.entry.oscDead = false) (doe : Bool) (code : Nat) (nonce l : List Byte) :
    SpdmAnswered s (spdmSigned s doe code nonce l) doe := by
  unfold spdmSigned
  split
  · exact spdmAnswered_say hosc ..
  · rw [spdmSay, emit_of_running (s := { s with drawn := s.drawn + 1 }) hosc]
    exact ⟨_, _, rfl, rfl⟩

/-- Each request is answered by one response. -/
theorem spdmAnswered_answer (hosc : s.entry.oscDead = false) (doe : Bool) (q : SpdmReq) : SpdmAnswered s (spdmAnswer s doe q) doe := by
  have hsay := fun code l => spdmAnswered_say (s := s) hosc doe code l
  have hsign := fun code nonce l => spdmAnswered_signed (s := s) hosc doe code nonce l
  cases q with
  | getVersion => exact hsay ..
  | getCapabilities => exact hsay ..
  | negotiateAlgorithms asym hash => exact spdmAnswered_ite (hsay ..) (hsay ..)
  | getDigests => exact hsay ..
  | getCertificate slot off len => exact spdmAnswered_ite (hsay ..) (hsay ..)
  | challenge slot nonce => exact spdmAnswered_ite (hsign ..) (hsay ..)
  | getMeasurements index nonce =>
    refine spdmAnswered_ite (hsign ..) (spdmAnswered_ite (hsign ..) ?_)
    split
    · exact hsign ..
    · exact hsay ..
  | other code => exact hsay ..

theorem spdmRequest_answers (hosc : s.entry.oscDead = false) {doe : Bool} {q : SpdmReq} (hon : s.power.stewardOn = true)
    (hreach : doe = true → hostReaches s 0 = true) : ∃ t code l, exec (.spdmRequest doe q) s = .next t ∧
    t.out = s.out ++ [.spdm doe code l] ∧ t = { s with out := t.out, drawn := t.drawn } ∧ (q = .getVersion → code = 4 ∧ l = [0x12, 0x13]) := by
  have hrun : exec (.spdmRequest doe q) s = .next (spdmAnswer s doe q) := congrArg Host.Outcome.next (if_neg (by simpa [hon, hosc] using hreach))
  obtain ⟨code, l, hout, hrest⟩ := spdmAnswered_answer hosc doe q
  refine ⟨_, code, l, hrun, hout, hrest, fun hq => ?_⟩
  subst hq
  have hsaid : (spdmAnswer s doe .getVersion).out = s.out ++ [.spdm doe spVERSION [0x12, 0x13]] := by
    rw [spdmAnswer, spdmSay, emit_of_running hosc]
  simpa [spVERSION] using hout.symm.trans hsaid

end

/-- Settles O57, one lemma for each row. -/
theorem debugPortScansUnlocksAndAccesses : Obligations.DebugPortScansUnlocksAndAccesses := by
  unfold Obligations.DebugPortScansUnlocksAndAccesses
  refine fun s hosc => ⟨fun l => ⟨extest_scans hosc l, samplePreload_scans hosc l⟩, ?idcode, ?tapStatus, fun _ tdi hir hother =>
    bypass_scans hosc tdi hir hother, unlockChal_challenges hosc, unlockResp_answers s, ⟨_, rfl, rfl, rfl, rfl⟩, apacc_scans hosc, fun x haccess =>
    ⟨apaccAccessDone_ends haccess, ?spad⟩, ?idle, scanout_scans hosc, fun k => ⟨?locked, flashErase_begins⟩, flashEraseDone_erases, ?captains,
    fun _ _ hon hreach => spdmRequest_answers hosc hon hreach⟩
  case idcode =>
    obtain ⟨hout, hir, hrest, hlevel⟩ := tdo_tapIr hosc 2 (idcodeValue s.pkg)
    exact ⟨_, rfl, hout, hir, hrest, hlevel⟩
  case tapStatus =>
    obtain ⟨hout, hir, hrest, hlevel⟩ := tdo_tapIr hosc 0x10 (regDbgStatus s).toNat
    exact ⟨_, rfl, hout, hir, hrest, hlevel⟩
  case spad =>
    exact fun d c off n hc hoff hn hd htarget haligned _ hregs hcol hfit =>
      apaccAccessDone_spad haccess hc hoff hn hd htarget haligned hregs hcol hfit
  case idle => exact fun hnone => congrArg Host.Outcome.next (by rw [hnone])
  case locked => exact fun hlevel => congrArg Host.Outcome.next (if_neg fun h => hlevel h.1)
  case captains => exact fun c hc hlevel => ⟨captHalt_halts hosc hc hlevel, captStep_steps hc hlevel, captStep_of_running⟩

end Sys2Proof.Machine
end


section
/-!
PROOFS of the mailbox protocol: the ENG, FAB and DBG messages (R422, R451, R479, R503, R512, R532, R537, R608, R612, R616, R619). First what the way a link
goes DOWN leaves of the settings and of the other links, then the body of each message.
-/

namespace Sys2Proof.Machine

/-! ### The wiring: the settings and the links -/

/-- The settings, which hold the link plan, and the links. -/
def wiring (s : State) : Settings × Tab Link := (s.settings, s.fab.links)

section

variable {s t : State}

theorem settings_of_wiring (h : wiring t = wiring s) : t.settings = s.settings := congrArg (·.1) h

theorem links_of_wiring (h : wiring t = wiring s) : t.fab.links = s.fab.links := congrArg (·.2) h

theorem link_of_wiring (h : wiring t = wiring s) (l : Nat) : t.link l = s.link l := congrArg (tget Link.reset · l) (links_of_wiring h)

end

theorem wiring_foldl {α : Type} (g : State → α → State) (l : List α) (s : State) (h : ∀ s a, wiring (g s a) = wiring s) :
    wiring (l.foldl g s) = wiring s :=
  foldl_keeps (fun t => wiring t = wiring s) g l s rfl fun t ht a _ => (h t a).trans ht

@[simp] theorem wiring_ite {c : Prop} [Decidable c] (a b : State) : wiring (if c then a else b) = if c then wiring a else wiring b :=
  apply_ite wiring c a b

section

variable (s : State)

@[simp] theorem wiring_setCore (c : Nat) (k : Core) : wiring (s.setCore c k) = wiring s := rfl
@[simp] theorem wiring_setSlot (c k : Nat) (x : SlotSt) : wiring (s.setSlot c k x) = wiring s := rfl
@[simp] theorem wiring_setFn (i : Nat) (x : Fn) : wiring (s.setFn i x) = wiring s := rfl
@[simp] theorem wiring_mapTwin (f : Twin → Twin) : wiring (s.mapTwin f) = wiring s := rfl
@[simp] theorem wiring_topoChanged : wiring (topoChanged s) = wiring s := rfl

@[simp] theorem wiring_emit (o : Out) : wiring (s.emit o) = wiring s := by
  unfold State.emit
  split <;> rfl

@[simp] theorem wiring_send (d : Dest) (m : FwMsg) : wiring (s.send d m) = wiring s := by
  rw [wiring, State.send_settings, State.send_fab_links, wiring]

/-! #### Notifications -/

@[simp] theorem wiring_fireVector (fn v : Nat) : wiring (fireVector s fn v) = wiring s := by
  simp [fireVector]

@[simp] theorem wiring_interrupt (fn v : Nat) : wiring (interrupt s fn v) = wiring s := by
  simp [interrupt]

@[simp] theorem wiring_writeEvent (fn : Nat) (e : Event) (more : Bool) : wiring (writeEvent s fn e more) = wiring s := by
  simp [writeEvent, wiring_foldl]

@[simp] theorem wiring_drainBacklog (n fn : Nat) : wiring (drainBacklog n s fn) = wiring s := by
  induction n generalizing s with
  | zero => rfl
  | succ n ih =>
    unfold drainBacklog
    dsimp only
    split
    · rfl
    · simp [ih]

@[simp] theorem wiring_notify (fn type status : Nat) (payload : List Byte) : wiring (notify s fn type status payload) = wiring s := by
  simp [notify, postEvent, wiring_foldl]

@[simp] theorem wiring_linkEvent (l : Nat) : wiring (linkEvent s l) = wiring s := wiring_notify ..

/-! #### A node that is lost -/

@[simp] theorem wiring_cmdFault (c k : Nat) (cmd : Cmd) (seq cause addr : Nat) (d : Bool) : wiring (cmdFault s c k cmd seq cause addr d) = wiring s := by
  rw [cmdFault, stepDone_rest, slotFault_rest]
  rfl

@[simp] theorem wiring_finishTxn (id sub bytes : Nat) : wiring (finishTxn s id sub bytes) = wiring s := by
  unfold finishTxn
  dsimp only
  split
  · rfl
  · split
    · rfl
    · exact wiring_cmdFault ..

@[simp] theorem wiring_failSlot (c slot node : Nat) : wiring (failSlot s c slot node) = wiring s :=
  wiring_foldl _ _ _ fun t x => wiring_cmdFault (t.setSlot c slot ((t.slot c slot).drop x.serial)) ..

@[simp] theorem wiring_failNode (node : Nat) : wiring (failNode s node) = wiring s := by
  have hslots : ∀ t c, wiring ((List.range 4).foldl (fun t k => failSlot t c k node) t) = wiring t :=
    fun t c => wiring_foldl _ _ t fun u k => wiring_failSlot u c k node
  unfold failNode
  dsimp only
  rw [wiring_foldl _ _ _ fun t id => wiring_finishTxn t .., wiring_foldl _ _ _ hslots]

/-! #### The database -/

@[simp] theorem wiring_flood : wiring (flood s) = wiring s := wiring_send ..

@[simp] theorem wiring_refresh : wiring (refresh s) = wiring s := by
  unfold refresh
  dsimp only
  rw [wiring_foldl _ _ _ fun t n => wiring_failNode t n]
  split <;> rfl

@[simp] theorem wiring_linkChanged : wiring (linkChanged s) = wiring s := by
  simp [linkChanged]

@[simp] theorem wiring_suspect : wiring (suspect s) = wiring s := by
  unfold suspect
  split
  · dsimp only
    split <;> simp
  · rfl

end

/-! ### A link DOWN (R434, R458) -/

/-- State `t` has the settings of `s`, and its links but for one. -/
def WiredBut (s t : State) (l : Nat) : Prop := t.settings = s.settings ∧ ∀ j, j ≠ l → t.link j = s.link j

section

variable {s t : State} {l : Nat}

theorem wiredBut_setLink (k : Link) (h : wiring t = wiring (s.setLink l k)) : WiredBut s t l :=
  ⟨(settings_of_wiring h :), fun j hj => by rw [link_of_wiring h, State.link_setLink, if_neg hj]⟩

/-- A link goes DOWN: the settings and every other link stay. -/
theorem wiredBut_linkDown (s : State) (l : Nat) : WiredBut s (linkDown s l) l := by
  unfold linkDown
  extract_lets k up s1 s2
  have h1 : wiring s1 = wiring (s.setLink l _) := rfl
  have h2 : wiring s2 = wiring s1 := by simp [s2]
  split
  · exact ⟨rfl, fun _ _ => rfl⟩
  · split
    · refine wiredBut_setLink _ (Eq.trans ?_ (h2.trans h1))
      simp
    · exact wiredBut_setLink _ h1

end

/-! ### The link plan in force (R451) -/

/-- The links whose entry a plan changes. -/
def changedLinks (s : State) (plan : List Nat) : List Nat := (List.range 36).filter fun l => nth 0 plan l != s.plan l

/-- The settings entries that put a plan in force. -/
def planEntries (s : State) (plan : List Nat) : List (Nat × Nat) := (changedLinks s plan).map fun l => (0x0810 + l, nth 0 plan l)

/-- A link as a plan that changes its entry leaves it. -/
def relink (plan : List Nat) (s : State) (l : Nat) : State :=
  s.setLink l { s.link l with
    state := .down, twoLane := false, miswired := false, peer := 0, peerLink := 0, since := s.aon
    retryAt := if planUse (nth 0 plan l) = 0 then 0 else max 1 s.aon
    replay := [], resync := none, changing := planUse (nth 0 plan l) != 0 }

/-- A new plan is in force when its changed links have gone DOWN, its entries are set, and its changed links start afresh. -/
theorem applyPlan_eq (s : State) (plan : List Nat) : applyPlan s plan =
    (changedLinks s plan).foldl (relink plan) (setAll (planEntries s plan) ((changedLinks s plan).foldl linkDown s)) := by
  rw [planEntries, setAll, List.foldl_map]
  rfl

/-! #### Links -/

section

variable {s : State} {plan ls : List Nat} {l : Nat}

theorem mem_changedLinks : l ∈ changedLinks s plan ↔ l < 36 ∧ nth 0 plan l ≠ s.plan l := by
  simp [changedLinks]

theorem nodup_changedLinks : (changedLinks s plan).Nodup := List.nodup_range.filter _

theorem wiredBut_relink (s : State) (l : Nat) : WiredBut s (relink plan s l) l := wiredBut_setLink _ rfl

/-- Steps that each write one link leave the settings and every link that is none of theirs. -/
theorem foldl_wiredBut {f : State → Nat → State} (hf : ∀ s l, WiredBut s (f s l) l) (ls : List Nat) (s : State) :
    (ls.foldl f s).settings = s.settings ∧ ∀ j, j ∉ ls → (ls.foldl f s).link j = s.link j := by
  refine foldl_keeps (fun t : State => t.settings = s.settings ∧ ∀ j, j ∉ ls → t.link j = s.link j) f ls s ⟨rfl, fun _ _ => rfl⟩ ?_
  rintro t ⟨hset, hlink⟩ l hl
  obtain ⟨hset', hlink'⟩ := hf t l
  exact ⟨hset'.trans hset, fun j hj => (hlink' j (ne_of_mem_of_not_mem hl hj).symm).trans (hlink j hj)⟩

theorem relink_down (s : State) (l j : Nat) (h : j = l ∨ (s.link j).state = .down) : ((relink plan s l).link j).state = .down := by
  rw [relink, State.link_setLink]
  split
  · rfl
  · next hne => exact h.resolve_left hne

theorem foldl_relink_down (s : State) (j : Nat) (h : j ∈ ls ∨ (s.link j).state = .down) : ((ls.foldl (relink plan) s).link j).state = .down := by
  induction ls generalizing s with
  | nil => exact h.resolve_left (by simp)
  | cons l r ih =>
    refine ih _ ?_
    by_cases hj : j ∈ r
    · exact .inl hj
    · exact .inr (relink_down s l j (by simpa [hj] using h))

theorem fab_setAll (l : List (Nat × Nat)) (s : State) : (setAll l s).fab = s.fab := by
  refine foldl_keeps (fun t : State => t.fab = s.fab) _ l s rfl fun t ht e _ => Eq.trans ?_ ht
  unfold setCfg
  dsimp only
  split <;> rfl

/-- A changed link is DOWN, and every other link is as it was. -/
theorem link_applyPlan : (l ∈ changedLinks s plan → ((applyPlan s plan).link l).state = .down) ∧
    (l ∉ changedLinks s plan → (applyPlan s plan).link l = s.link l) := by
  rw [applyPlan_eq]
  refine ⟨fun h => foldl_relink_down _ l (.inl h), fun h => ?_⟩
  rw [(foldl_wiredBut wiredBut_relink _ _).2 l h, State.link, fab_setAll]
  exact (foldl_wiredBut wiredBut_linkDown _ s).2 l h

end

/-! #### Entries -/

/-- A link plan field: 32 bits wide, set while jobs run. -/
theorem fieldDef_plan {l : Nat} (h : l < 36) : fieldDef (0x0810 + l) = some ⟨0x0810 + l, 32, 0, false, false⟩ := by
  have hall : ∀ l < 36, fieldDef (0x0810 + l) = some ⟨0x0810 + l, 32, 0, false, false⟩ := by decide
  exact hall l h

theorem clampField_plan {l : Nat} (h : l < 36) (v : Nat) : clampField (0x0810 + l) v = v := by
  unfold clampField
  split <;> omega

theorem val_plan (st : Settings) {l : Nat} (h : l < 36) : st.val (0x0810 + l) = st.raw (0x0810 + l) := by
  rw [Settings.val, if_neg (by omega), if_neg (by omega), clampField_plan h]

theorem entryFail_plan (s : State) {l v : Nat} (h : l < 36) (hv : v < 2 ^ 32) : entryFail s (0x0810 + l, v) = none := by
  have habsent : fieldAbsent s (0x0810 + l) = false := by
    simp [fieldAbsent]
    omega
  have hwritable : fieldReadOnly (0x0810 + l) = false := by
    simp [fieldReadOnly]
    omega
  simp only [entryFail, fieldDef_plan h, habsent, hwritable]
  simpa using hv

section

variable {s : State} {plan : List Nat} {l : Nat}

theorem filter_planEntries (h : l ∈ changedLinks s plan) :
    (planEntries s plan).filter (fun x => x.1 == 0x0810 + l) = [(0x0810 + l, nth 0 plan l)] := by
  have hone : (changedLinks s plan).filter (· == l) = [l] := by
    rw [List.filter_beq, List.count_eq_one_of_mem nodup_changedLinks h]
    rfl
  have hid : (fun x : Nat × Nat => x.1 == 0x0810 + l) ∘ (fun k => (0x0810 + k, nth 0 plan k)) = (· == l) := by
    funext k
    simp
  rw [planEntries, List.filter_map, hid, hone]
  rfl

theorem nth_lt_of_all {n : Nat} (hn : 0 < n) (h : ∀ v ∈ plan, v < n) (l : Nat) : nth 0 plan l < n := by
  rcases nth_eq_or_mem 0 plan l with hz | hmem
  · rwa [hz]
  · exact h _ hmem

theorem lt_of_planOk {own : Nat} (h : planOk own plan = true) : ∀ v ∈ plan, v < 2 ^ 32 := by
  intro v hv
  unfold planOk at h
  dsimp only at h
  obtain ⟨hentry, _⟩ := Bool.and_eq_true_iff.1 (List.all_eq_true.1 (Bool.and_eq_true_iff.1 h).2 v hv)
  have hword : v < 65536 := of_decide_eq_true (Bool.and_eq_true_iff.1 hentry).2
  omega

/-- The plan applied is the plan in force. -/
theorem plan_applyPlan (hkeyed : Keyed s.settings.run) (hfits : ∀ v ∈ plan, v < 2 ^ 32) (h : l < 36) : (applyPlan s plan).plan l = nth 0 plan l := by
  obtain ⟨hdown, _⟩ := foldl_wiredBut wiredBut_linkDown (changedLinks s plan) s
  have hraw : (applyPlan s plan).plan l = (setAll (planEntries s plan) ((changedLinks s plan).foldl linkDown s)).settings.raw (0x0810 + l) := by
    rw [State.plan, State.cfg, val_plan _ h, applyPlan_eq, (foldl_wiredBut wiredBut_relink _ _).1]
  rw [hraw]
  by_cases hl : l ∈ changedLinks s plan
  · refine (setAll_single (hdown ▸ hkeyed) (filter_planEntries hl) fun x hx => ?_).1
    obtain ⟨k, hk, rfl⟩ := List.mem_map.1 hx
    exact entryFail_plan _ (mem_changedLinks.1 hk).1 (nth_lt_of_all (by decide) hfits k)
  · have hsame : nth 0 plan l = s.plan l := by simpa [mem_changedLinks, h] using hl
    rw [hsame, State.plan, State.cfg, val_plan _ h]
    refine Eq.trans (setAll_untouched fun x hx => ?_).1 (congrArg (Settings.raw · (0x0810 + l)) hdown)
    obtain ⟨k, hk, rfl⟩ := List.mem_map.1 hx
    intro heq
    exact hl ((show k = l by simpa using heq) ▸ hk)

end

/-! ### Settings fields a message sets -/

/-- A field other than WDOG_US reaches no core: the settings change alone. -/
theorem setCfg_rest (s : State) {id : Nat} (h : id ≠ 0x0101) (v : Nat) : setCfg s id v = { s with settings := (setCfg s id v).settings } := by
  unfold setCfg
  rw [if_neg h]

theorem raw_setCfg_ne (s : State) {id j : Nat} (h : j ≠ id) (v : Nat) : (setCfg s id v).settings.raw j = s.settings.raw j := by
  rw [raw_setCfg, raw_put_ne _ h]

theorem raw_setCfg_same (s : State) {id v : Nat} {d : FieldDef} (hdef : fieldDef id = some d) (hfits : v < 2 ^ d.width)
    (honce : (tkeys s.settings.run).count id ≤ 1) : (setCfg s id v).settings.raw id = v := by
  rw [raw_setCfg, raw_put_same _ hdef hfits honce]

/-! ### Energy (R512, R532, R537) -/

section

variable {s : State} {m : Msg}

theorem bodyEngCapSet_of_bad (h : ble m.payload 0 2 < 1200 ∨ 3800 < ble m.payload 0 2) : bodyEngCapSet s m = reply s 0x0701 m stBAD_FIELD [] :=
  if_pos h

theorem bodyEngCapSet_of_ok (hlo : 1200 ≤ ble m.payload 0 2) (hhi : ble m.payload 0 2 ≤ 3800) :
    bodyEngCapSet s m = reply (setCfg s 0x0A01 (ble m.payload 0 2)) 0x0701 m stOK [] :=
  if_neg (by omega)

/-- The state ENG.PACE_SET leaves: MODE, and with MODE 1 the clock. -/
def paced (s : State) (mode f : Nat) : State := if mode = 1 then setCfg (setCfg s 0x0A02 mode) 0x0A03 f else setCfg s 0x0A02 mode

/-- What ENG.PACE_SET refuses (R532). -/
def PaceBad (mode f : Nat) : Prop := 1 < mode ∨ mode = 1 ∧ (f % 25 ≠ 0 ∨ f < 1000 ∨ 2000 < f)

theorem bodyEngPaceSet_of_bad (h : PaceBad (ble m.payload 0 1) (ble m.payload 2 2)) : bodyEngPaceSet s m = reply s 0x0702 m stBAD_FIELD [] :=
  if_pos h

theorem bodyEngPaceSet_of_ok (h : ¬PaceBad (ble m.payload 0 1) (ble m.payload 2 2)) :
    bodyEngPaceSet s m = reply (paced s (ble m.payload 0 1) (ble m.payload 2 2)) 0x0702 m stOK [] :=
  if_neg h

theorem paced_rest (s : State) (mode f : Nat) : paced s mode f = { s with settings := (paced s mode f).settings } := by
  unfold paced
  split
  · rw [setCfg_rest _ (by decide), setCfg_rest s (by decide)]
  · rw [setCfg_rest s (by decide)]

theorem raw_paced (hkeyed : Keyed s.settings.run) {mode f : Nat} (hmode : mode ≤ 1) (hf : mode = 1 → f ≤ 2000) :
    (paced s mode f).settings.raw 0x0A02 = mode ∧
    (paced s mode f).settings.raw 0x0A03 = (if mode = 1 then f else s.settings.raw 0x0A03) ∧
    ∀ id, id ≠ 0x0A02 → id ≠ 0x0A03 → (paced s mode f).settings.raw id = s.settings.raw id := by
  have honce := List.nodup_iff_count_le_one.1 hkeyed
  have hmodeSet : (setCfg s 0x0A02 mode).settings.raw 0x0A02 = mode :=
    raw_setCfg_same s (d := ⟨0x0A02, 1, 0, false, false⟩) (by decide) (by change mode < 2; omega) (honce _)
  unfold paced
  split
  · next hone =>
    have hcount : (tkeys (setCfg s 0x0A02 mode).settings.run).count 0x0A03 ≤ 1 := by
      rw [run_setCfg, count_put_ne _ (by decide)]
      exact honce _
    refine ⟨by rw [raw_setCfg_ne _ (by decide), hmodeSet], ?_, fun id h2 h3 => by rw [raw_setCfg_ne _ h3, raw_setCfg_ne _ h2]⟩
    exact raw_setCfg_same _ (d := ⟨0x0A03, 12, 2000, false, false⟩) (by decide) (by have := hf hone; change f < 4096; omega) hcount
  · exact ⟨hmodeSet, raw_setCfg_ne _ (by decide) _, fun id h2 _ => raw_setCfg_ne _ h2 _⟩

end

/-! ### Fabric (R451, R503) -/

section

variable {s : State} {m : Msg}

/-- The plan a FAB.LINK_PLAN message carries (R422). -/
def planOf (m : Msg) : List Nat := (List.range 36).map fun l => ble m.payload (4 * l) 4

theorem bodyFabLinkPlan_of_bad (h : planOk s.fab.node (planOf m) = false) : bodyFabLinkPlan s m = reply s 0x0801 m stBAD_FIELD [] :=
  if_neg (ne_true_of_eq_false h)

theorem bodyFabLinkPlan_of_ok (h : planOk s.fab.node (planOf m) = true) :
    bodyFabLinkPlan s m = beginDeferred (applyPlan s (planOf m)) 0x0801 m 0 :=
  if_pos h

/-- A plan the rules allow: its changed links DOWN, the plan in force, and the other links as they were. -/
theorem applyPlan_acts {plan : List Nat} (hkeyed : Keyed s.settings.run) (h : planOk s.fab.node plan = true) :
    (∀ l, l < 36 → nth 0 plan l ≠ s.plan l → ((applyPlan s plan).link l).state = .down) ∧
    (∀ l, l < 36 → (applyPlan s plan).plan l = nth 0 plan l) ∧
    ∀ l, l < 36 → nth 0 plan l = s.plan l → ((applyPlan s plan).link l).state = (s.link l).state := by
  refine ⟨fun l hl hne => link_applyPlan.1 (mem_changedLinks.2 ⟨hl, hne⟩), fun l hl => plan_applyPlan hkeyed (lt_of_planOk h) hl, fun l _ heq => ?_⟩
  rw [link_applyPlan.2 fun hmem => (mem_changedLinks.1 hmem).2 heq]

theorem bodyFabLockstepSet_of_absent (h : s.hasLockstep = false) : bodyFabLockstepSet s m = reply s 0x0804 m stUNIT_ABSENT [] :=
  if_pos (by simp [h])

theorem bodyFabLockstepSet_of_unpaired (h : s.hasLockstep = true) (he : ble m.payload 1 1 ≤ 1) (htwin : s.twin.state ≠ .paired) :
    bodyFabLockstepSet s m = reply s 0x0804 m stNOT_PAIRED [] := by
  unfold bodyFabLockstepSet
  dsimp only
  rw [if_neg (by simp [h]), if_neg (by omega), if_pos htwin]

theorem bodyFabLockstepSet_of_paired (h : s.hasLockstep = true) (he : ble m.payload 1 1 ≤ 1) (htwin : s.twin.state = .paired)
    (hctx : (s.ctx (ble m.payload 0 1)).state ≠ .none) : bodyFabLockstepSet s m =
      reply (s.setCtx (ble m.payload 0 1) { s.ctx (ble m.payload 0 1) with lockstep := ble m.payload 1 1 == 1 }) 0x0804 m stOK [] := by
  unfold bodyFabLockstepSet
  dsimp only
  rw [if_neg (by simp [h]), if_neg (by omega), if_neg (by simp [htwin]), if_neg hctx]

/-! ### Debug (R608, R612, R616, R619) -/

theorem bodyDbgWhistle_of_bad
    (h : 1 < ble m.payload 0 1 ∨ (ble m.payload 0 1 ≤ 1 ∧ ble m.payload 2 2 ≠ 0xFFFF ∧ (ble m.payload 2 2 = 0 ∨ 0x8000 ≤ ble m.payload 2 2))) :
    bodyDbgWhistle s m = reply s 0x0901 m stBAD_FIELD [] := by
  unfold bodyDbgWhistle
  rcases h with hscope | ⟨hscope, hrelease, hreason⟩
  · exact if_pos hscope
  · dsimp only
    rw [if_neg (by omega), if_neg hrelease, if_pos hreason]

theorem bodyDbgWhistle_of_reason (hscope : ble m.payload 0 1 ≤ 1) (hlo : ble m.payload 2 2 ≠ 0) (hhi : ble m.payload 2 2 < 0x8000) :
    bodyDbgWhistle s m = reply (blowWhistle s (ble m.payload 0 1) (ble m.payload 2 2)) 0x0901 m stOK [] := by
  unfold bodyDbgWhistle
  dsimp only
  rw [if_neg (by omega), if_neg (by omega), if_neg (by omega)]

theorem bodyDbgWhistle_of_package (hscope : ble m.payload 0 1 = 0) (hrelease : ble m.payload 2 2 = 0xFFFF) :
    bodyDbgWhistle s m = if s.dport.applWhistle then reply s 0x0901 m stNOT_PERMITTED [] else reply (releasePackage s) 0x0901 m stOK [] := by
  unfold bodyDbgWhistle
  dsimp only
  rw [if_neg (by omega), if_pos hrelease, if_pos hscope]

theorem bodyDbgWhistle_of_appliance (hscope : ble m.payload 0 1 = 1) (hrelease : ble m.payload 2 2 = 0xFFFF) :
    bodyDbgWhistle s m = reply (releaseAppliance (s.send .all .whistleRelease)) 0x0901 m stOK [] := by
  unfold bodyDbgWhistle
  dsimp only
  rw [if_neg (by omega), if_pos hrelease, if_neg (by omega)]

theorem bodyDbgScoreboard_of_held {x : Image} (h : s.dport.imageW = some x) : bodyDbgScoreboard s m = reply s 0x0902 m stOK (whistleBytes s x) := by
  rw [bodyDbgScoreboard, h]

theorem bodyDbgScoreboard_of_none (h : s.dport.imageW = none) : bodyDbgScoreboard s m =
    reply { s with dport := { s.dport with imageR := some (freeze s 2 0 0 s.fab.node) } } 0x0902 m stOK (whistleBytes s (freeze s 2 0 0 s.fab.node)) := by
  rw [bodyDbgScoreboard, h]

/-- Whether a watch is of a message's context, tensor and lap. -/
def sameWatch (m : Msg) (w : Watch) : Bool := w.ctx == ble m.payload 0 1 && w.tensor == ble m.payload 4 4 && w.lap == ble m.payload 8 8

/-- The watches a message leaves beside its own. -/
def otherWatches (s : State) (m : Msg) : List Watch := s.dport.watches.filter fun w => !sameWatch m w

theorem sameWatch_iff (w : Watch) :
    sameWatch m w = true ↔ w.ctx = ble m.payload 0 1 ∧ w.tensor = ble m.payload 4 4 ∧ w.lap = ble m.payload 8 8 := by
  simp [sameWatch, and_assoc]

theorem mem_otherWatches (w : Watch) : w ∈ otherWatches s m ↔ w ∈ s.dport.watches ∧
    ¬(w.ctx = ble m.payload 0 1 ∧ w.tensor = ble m.payload 4 4 ∧ w.lap = ble m.payload 8 8) := by
  rw [otherWatches, List.mem_filter, ← sameWatch_iff, Bool.not_eq_true', Bool.not_eq_true]

theorem bodyDbgTensorWatch_of_locked (h : s.dport.level = 0) : bodyDbgTensorWatch s m = reply s 0x0903 m stDEBUG_LOCKED [] := if_pos h

/-- What DBG.TENSOR_WATCH needs before it reads LENGTH (R619): the port unlocked, a context, and a tensor of its manifest. -/
def WatchNames (s : State) (m : Msg) : Prop := s.dport.level ≠ 0 ∧ (s.ctx (ble m.payload 0 1)).state ≠ .none ∧
  ((ctxMan s (ble m.payload 0 1)).tensors.any fun t => t.1 == ble m.payload 4 4 && !t.2) = true

theorem bodyDbgTensorWatch_of_zero (h : WatchNames s m) (hlen : ble m.payload 0x18 4 = 0) :
    bodyDbgTensorWatch s m = reply { s with dport := { s.dport with watches := otherWatches s m } } 0x0903 m stOK [] := by
  obtain ⟨hlevel, hctx, htensor⟩ := h
  unfold bodyDbgTensorWatch
  dsimp only
  rw [if_neg hlevel, if_neg hctx, if_neg (by simp [htensor]), if_pos hlen]
  rfl

theorem bodyDbgTensorWatch_of_room (h : WatchNames s m) (hlen : ble m.payload 0x18 4 ≠ 0) (hroom : s.dport.watches.length < 16) :
    bodyDbgTensorWatch s m = reply { s with dport := { s.dport with watches := otherWatches s m ++ [⟨ble m.payload 0 1, ble m.payload 4 4,
      ble m.payload 8 8, ble m.payload 0x10 8, ble m.payload 0x18 4, pathFn m.path⟩] } } 0x0903 m stOK [] := by
  obtain ⟨hlevel, hctx, htensor⟩ := h
  unfold bodyDbgTensorWatch
  dsimp only
  rw [if_neg hlevel, if_neg hctx, if_neg (by simp [htensor]), if_neg hlen, if_neg (by omega)]
  rfl

end

/-! ### The messages -/

/-- Settles O42: each message's body, by the branch its fields choose; a link plan's through what the links going DOWN leave. -/
theorem energyFabricAndDebugMessagesAct : Obligations.EnergyFabricAndDebugMessagesAct := by
  unfold Obligations.EnergyFabricAndDebugMessagesAct
  intro s m hkeyed
  refine ⟨?capSet, ?paceSet, fun h => answers_of_body h rfl, ?announce, ?linkPlan, fun h => answers_of_body h rfl, fun h => answers_of_body h rfl,
    ?lockstep, ?whistle, ?scoreboard, ?watch⟩
  case capSet =>
    rintro h w rfl
    refine ⟨fun hbad => answers_of_body h (bodyEngCapSet_of_bad hbad), fun hlo hhi => ?_⟩
    refine ⟨_, answers_of_body h (bodyEngCapSet_of_ok hlo hhi), ?_, fun id hid => raw_setCfg_ne s hid _, setCfg_rest s (by decide) _⟩
    exact raw_setCfg_same s (d := ⟨0x0A01, 12, 3800, false, false⟩) (by decide) (by change _ < 4096; omega) (List.nodup_iff_count_le_one.1 hkeyed _)
  case paceSet =>
    rintro h mode f rfl rfl
    refine ⟨fun hbad => answers_of_body h (bodyEngPaceSet_of_bad hbad), fun hok => ?_⟩
    have hgood : ¬PaceBad (ble m.payload 0 1) (ble m.payload 2 2) := by
      unfold PaceBad
      omega
    obtain ⟨hmode, hclock, hother⟩ := raw_paced hkeyed (mode := ble m.payload 0 1) (f := ble m.payload 2 2) (by omega) (by omega)
    exact ⟨_, answers_of_body h (bodyEngPaceSet_of_ok hgood), hmode, hclock, hother, paced_rest ..⟩
  case announce =>
    intro h
    refine ⟨_, answers_of_body h rfl, ?_, fun f hf => ?_, rfl⟩
    · rw [State.fn_setFn_same]
    · rw [State.fn_setFn, if_neg hf]
  case linkPlan =>
    rintro h plan rfl
    exact ⟨fun hbad => answers_of_deferred_body h (bodyFabLinkPlan_of_bad hbad),
      fun hok => ⟨_, inBackground_of_body h (bodyFabLinkPlan_of_ok hok), applyPlan_acts hkeyed hok⟩⟩
  case lockstep =>
    rintro h c e rfl rfl
    refine ⟨fun habsent => answers_of_body h (bodyFabLockstepSet_of_absent habsent),
      fun hhas he htwin => answers_of_body h (bodyFabLockstepSet_of_unpaired hhas he htwin), fun hhas he htwin hctx => ?_⟩
    refine ⟨_, answers_of_body h (bodyFabLockstepSet_of_paired hhas he htwin hctx), State.ctx_setCtx_same .., fun d hd => ?_, rfl⟩
    rw [State.ctx_setCtx, if_neg hd]
  case whistle =>
    rintro h sc r rfl rfl
    refine ⟨fun hbad => answers_of_body h (bodyDbgWhistle_of_bad hbad),
      fun hscope hlo hhi => answers_of_body h (bodyDbgWhistle_of_reason hscope hlo hhi), fun hscope hr happl => answers_of_body h ?_,
      fun hscope hr happl => answers_of_body h ?_, fun hscope hr => answers_of_body h (bodyDbgWhistle_of_appliance hscope hr)⟩
    · rw [bodyDbgWhistle_of_package hscope hr, if_pos happl]
    · rw [bodyDbgWhistle_of_package hscope hr, if_neg (by simp [happl])]
  case scoreboard =>
    exact fun h => ⟨fun x hx => answers_of_body h (bodyDbgScoreboard_of_held hx),
      fun hnone => ⟨_, _, answers_of_body h (bodyDbgScoreboard_of_none hnone), rfl, rfl⟩⟩
  case watch =>
    rintro h c id n rfl rfl rfl
    refine ⟨fun hlocked => answers_of_body h (bodyDbgTensorWatch_of_locked hlocked), fun hlevel hctx htensor => ⟨fun hlen => ?_, fun hlen hroom => ?_⟩⟩
    · refine ⟨_, answers_of_body h (bodyDbgTensorWatch_of_zero ⟨hlevel, hctx, htensor⟩ hlen), fun w hw => ?_, fun w hw hother => ?_⟩
      · exact ((mem_otherWatches w).1 hw).2
      · exact (mem_otherWatches w).2 ⟨hw, hother⟩
    · exact ⟨_, answers_of_body h (bodyDbgTensorWatch_of_room ⟨hlevel, hctx, htensor⟩ hlen hroom), by simp, rfl⟩

end Sys2Proof.Machine
end

section
/-!
PROOFS of the fabric: links that train, identify and fail, their flits and replays (R434 to R436, R439, R448, R458). First what flits on their way leave of
everything but the links' send state, and what a change of a link leaves of the others.
-/

namespace Sys2Proof.Machine

/-! ### Flits that leave (R436) -/

/-- Flits and packets have left: of the fabric nothing but each link's next number and replay buffer has changed, and nothing sent before is taken back. -/
structure FlitsLeft (s t : State) : Prop where
  sent : ∃ ls os, t = { s with fab := { s.fab with links := ls }, out := s.out ++ os }
  link : ∀ j, ∃ n r, t.link j = { s.link j with txSeq := n, replay := r }

section

variable {s t u : State}

theorem FlitsLeft.refl (s : State) : FlitsLeft s s := ⟨⟨s.fab.links, [], by rw [List.append_nil]⟩, fun j => ⟨(s.link j).txSeq, (s.link j).replay, rfl⟩⟩

theorem FlitsLeft.trans (h : FlitsLeft s t) (g : FlitsLeft t u) : FlitsLeft s u := by
  refine ⟨?_, fun j => ?_⟩
  · obtain ⟨_, a, rfl⟩ := h.sent
    obtain ⟨_, b, rfl⟩ := g.sent
    exact ⟨_, a ++ b, by rw [← List.append_assoc]⟩
  · obtain ⟨_, _, h1⟩ := h.link j
    obtain ⟨n, r, h2⟩ := g.link j
    exact ⟨n, r, by rw [h2, h1]⟩

theorem flitsLeft_foldl {α : Type} {f : State → α → State} (h : ∀ s a, FlitsLeft s (f s a)) (l : List α) (s : State) : FlitsLeft s (l.foldl f s) :=
  foldl_keeps (FlitsLeft s) f l s (.refl s) fun t ht a _ => ht.trans (h t a)

theorem FlitsLeft.sendWork (h : FlitsLeft s t) : SendWork s t := by
  obtain ⟨_, os, rfl⟩ := h.sent
  exact ⟨_, _, os, rfl⟩

theorem FlitsLeft.out (h : FlitsLeft s t) : ∀ o ∈ s.out, o ∈ t.out := h.sendWork.keepsBytes.out

theorem FlitsLeft.memory (h : FlitsLeft s t) : KeepsMemory s t := h.sendWork.keepsBytes.memory

theorem FlitsLeft.entry (h : FlitsLeft s t) : t.entry = s.entry := by
  obtain ⟨_, _, rfl⟩ := h.sent
  rfl

theorem FlitsLeft.srv (h : FlitsLeft s t) : t.srv = s.srv := by
  obtain ⟨_, _, rfl⟩ := h.sent
  rfl

theorem FlitsLeft.mbx (h : FlitsLeft s t) : t.mbx = s.mbx := by
  obtain ⟨_, _, rfl⟩ := h.sent
  rfl

/-- The fabric but for its links. -/
theorem FlitsLeft.fab (h : FlitsLeft s t) : t.fab = { s.fab with links := t.fab.links } := by
  obtain ⟨_, _, rfl⟩ := h.sent
  rfl

end

theorem flitsLeft_emit (s : State) (o : Out) : FlitsLeft s (s.emit o) := by
  unfold State.emit
  split
  · exact .refl s
  · exact ⟨⟨s.fab.links, [o], rfl⟩, fun j => ⟨(s.link j).txSeq, (s.link j).replay, rfl⟩⟩

theorem State.link_setLink_ne (s : State) {l j : Nat} (x : Link) (h : j ≠ l) : (s.setLink l x).link j = s.link j := by
  rw [State.link_setLink, if_neg h]

theorem flitsLeft_setLink (s : State) (l n : Nat) (r : List (Nat × Flit)) : FlitsLeft s (s.setLink l { s.link l with txSeq := n, replay := r }) := by
  refine ⟨⟨_, [], by rw [List.append_nil]; rfl⟩, fun j => ?_⟩
  by_cases hj : j = l
  · subst hj
    exact ⟨n, r, State.link_setLink_same ..⟩
  · exact ⟨_, _, State.link_setLink_ne s _ hj⟩

theorem flitsLeft_sendFlit (s : State) (l vc hop first : Nat) (payload : List Byte) : FlitsLeft s (sendFlit s l vc hop first payload) :=
  (flitsLeft_setLink s l _ _).trans (flitsLeft_emit ..)

theorem flitsLeft_resendFlit (s : State) (l : Nat) (f : Flit) : FlitsLeft s (resendFlit s l f) := flitsLeft_sendFlit ..

theorem flitsLeft_sendFlits (l vc hop : Nat) (parts : List (List Byte)) (s : State) (first : Nat) : FlitsLeft s (sendFlits s l vc hop parts first) := by
  induction parts generalizing s first with
  | nil => exact .refl s
  | cons p r ih => exact (flitsLeft_sendFlit ..).trans (ih ..)

theorem flitsLeft_transmit (s : State) (p : Packet) : FlitsLeft s (transmit s p) := by
  unfold transmit
  split
  · exact .refl s
  · exact (flitsLeft_sendFlits ..).trans (flitsLeft_emit ..)

/-! ### A link's state -/

theorem isUp_iff (x : LinkState) : x.isUp = true ↔ x = .up ∨ x = .degraded := by
  cases x <;> decide

section

variable {s : State} {l : Nat}

/-- A link that begins training: that link alone changes. -/
theorem link_startTraining : (startTraining s l).link l = { s.link l with state := .training, since := s.aon, retryAt := 0 } := State.link_setLink_same ..

theorem startTraining_link_ne {j : Nat} (h : j ≠ l) : (startTraining s l).link j = s.link j := State.link_setLink_ne s _ h

theorem link_startIdentify {two : Bool} : (startIdentify s l two).link l =
    { s.link l with state := .identify, twoLane := two, since := s.aon, retryAt := 0, changing := false } := by
  rw [startIdentify, State.emit_link, State.link_setLink_same]

theorem startIdentify_link_ne {two : Bool} {j : Nat} (h : j ≠ l) : (startIdentify s l two).link j = s.link j := by
  rw [startIdentify, State.emit_link, State.link_setLink_ne s _ h]

theorem startIdentify_out {two : Bool} (hosc : s.entry.oscDead = false) : (startIdentify s l two).out = s.out ++ [.ident l (ownIdent s l)] :=
  State.emit_out _ _ hosc

/-! ### Training and identity (R434, R435) -/

theorem exec_linkSignalDetect (h : linkUsable s l = true) (hdown : (s.link l).state = .down) :
    exec (.linkSignalDetect l) s = .next (startTraining s l) := by
  change execLinkSignalDetect l s = _
  simp [execLinkSignalDetect, h, hdown]

theorem exec_trainRetry (h : linkUsable s l = true) (hdown : (s.link l).state = .down) (hwire : (s.link l).miswired = false)
    (hset : (s.link l).retryAt ≠ 0) (hdue : (s.link l).retryAt ≤ s.aon) : exec (.trainRetry l) s = .next (startTraining s l) := by
  change execTrainRetry l s = _
  simp [execTrainRetry, h, hdown, hwire, hset, hdue]

theorem exec_identifyRetry (h : linkUsable s l = true) (hdown : (s.link l).state = .down) (hwire : (s.link l).miswired = true)
    (hdue : (s.link l).retryAt ≤ s.aon) : exec (.identifyRetry l) s = .next (startIdentify s l (s.link l).twoLane) := by
  change execIdentifyRetry l s = _
  simp [execIdentifyRetry, h, hdown, hwire, hdue]

theorem exec_linkLock (hl : l < 36) (htrain : (s.link l).state = .training) (hin : s.aon < (s.link l).since + trainTime s) (lanes : LockLanes) :
    exec (.linkLock l lanes) s = .next (startIdentify s l (lanes != .all)) := by
  change execLinkLock l lanes s = _
  simp [execLinkLock, hl, htrain, hin]

theorem exec_trainTimeout (hl : l < 36) (htrain : (s.link l).state = .training) (hpast : (s.link l).since + trainTime s ≤ s.aon) :
    exec (.trainTimeout l) s = .next (s.setLink l { s.link l with
      state := .down, downs := min 255 ((s.link l).downs + 1), since := s.aon, retryAt := s.aon + msAon 100, changing := false }) := by
  change execTrainTimeout l s = _
  simp [execTrainTimeout, hl, htrain, hpast]

theorem exec_linkIdentify_ok {i : Ident} (hl : l < 36) (hid : (s.link l).state = .identify) (hok : identOk s l i = true) :
    exec (.linkIdentify l i) s = .next (linkUp s l i) := by
  change execLinkIdentify l i s = _
  simp [execLinkIdentify, hl, hid, hok]

theorem exec_linkIdentify_miswired {i : Ident} (hl : l < 36) (hid : (s.link l).state = .identify) (hbad : identOk s l i = false) :
    exec (.linkIdentify l i) s = .next (s.setLink l { s.link l with
      state := .down, miswired := true, downs := min 255 ((s.link l).downs + 1), since := s.aon, retryAt := s.aon + msAon 1000 }) := by
  change execLinkIdentify l i s = _
  simp [execLinkIdentify, hl, hid, hbad]

theorem wiring_sendPair (s : State) : wiring (sendPair s) = wiring s := by
  unfold sendPair
  split <;> simp

/-- The link as its identity leaves it: its peer noted, its sequence numbers started again (R436). -/
def upLink (s : State) (l : Nat) (i : Ident) : Link :=
  { s.link l with
    state := if (s.link l).twoLane then .degraded else .up, miswired := false, peer := i.node, peerLink := i.link, since := s.aon
    txSeq := 0, rxSeq := 4095, lastAck := 4095, replay := [], replaysOf := 0, resync := none }

/-- A link comes up: it is the only one changed but for what is sent on it again. -/
theorem link_linkUp (i : Ident) (j : Nat) :
    ∃ n r, (linkUp s l i).link j = { (if j = l then upLink s l i else s.link j) with txSeq := n, replay := r } := by
  unfold linkUp
  extract_lets k first left s1 s2
  have hchanged : (linkChanged (linkEvent s1 l)).link j = if j = l then upLink s l i else s.link j :=
    (link_of_wiring ((wiring_linkChanged _).trans (wiring_linkEvent s1 l)) j).trans (State.link_setLink ..)
  have hsent : ∃ n r, s2.link j = { (if j = l then upLink s l i else s.link j) with txSeq := n, replay := r } :=
    hchanged ▸ (flitsLeft_foldl (fun t f => flitsLeft_resendFlit t l f) left _).link j
  split
  · rwa [link_of_wiring (wiring_sendPair s2)]
  · exact hsent

/-! ### A link that fails (R434, R458) -/

/-- A link UP or DEGRADED as its fault leaves it: DOWN, counted, its resync begun. -/
def lostLink (s : State) (l : Nat) : Link :=
  { s.link l with
    state := .down, twoLane := false, downs := min 255 ((s.link l).downs + 1), since := s.aon, retryAt := max 1 s.aon, resync := some s.aon }

theorem wiring_linkDown (hup : (s.link l).state.isUp = true) : wiring (linkDown s l) = wiring (s.setLink l (lostLink s l)) := by
  have hne : ((s.link l).state == .down) = false := by
    rcases (isUp_iff _).1 hup with h | h <;> rw [h] <;> rfl
  unfold linkDown
  extract_lets k up s1 s2
  have h1 : s1 = s.setLink l (lostLink s l) := by
    simp only [s1, up, k, hup, if_true]
    rfl
  have h2 : wiring s2 = wiring s1 := by simp [s2]
  rw [if_neg (by simp [k, hne]), if_pos hup, ← h1]
  split
  · exact (wiring_suspect s2).trans h2
  · exact h2

theorem link_linkDown (hup : (s.link l).state.isUp = true) (j : Nat) : (linkDown s l).link j = if j = l then lostLink s l else s.link j :=
  (link_of_wiring (wiring_linkDown hup) j).trans (State.link_setLink ..)

theorem exec_linkFault (hl : l < 36) (hup : (s.link l).state.isUp = true) : exec (.linkFault l) s = .next (linkDown s l) := by
  change execLinkFault l s = _
  simp [execLinkFault, hl, hup]

/-- One lane of an UP link is lost: the link trains again, and every other link stays. -/
theorem laneLoss_trains (hl : l < 36) (hup : (s.link l).state = .up) {i : Nat} (hi : i < 4) :
    ∃ t, exec (.laneLoss l i) s = .next t ∧ wiring t = wiring (startTraining s l) := by
  refine ⟨_, rfl, ?_⟩
  rw [if_pos (by simp [hl, hi, hup])]
  dsimp only
  split
  · rw [wiring_suspect, wiring_linkChanged]
  · rw [wiring_linkChanged]

/-! ### Flits that arrive (R436, R439) -/

/-- A flit that fails its check is NAKed: it is counted, and nothing of it is taken. -/
theorem exec_flitReceive_bad {f : Flit} (hl : l < 36) (hup : (s.link l).state.isUp = true) (hbad : f.crcOk = false ∨ f.fecBad = true) :
    exec (.flitReceive l f) s = .next ((s.setLink l { s.link l with
      fecUncorr := min 65535 ((s.link l).fecUncorr + b2n f.fecBad), replays := min 65535 ((s.link l).replays + 1)
      lastAck := (s.link l).rxSeq }).emit (.flitCtl l (s.link l).rxSeq true)) := by
  change execFlitReceive l f s = _
  simp [execFlitReceive, hup, hbad, Nat.not_le.2 hl]

/-- A good flit that is no NAK and no IDLE: what it acknowledges leaves the replay buffer, and it is taken where it is the next in order. -/
theorem flitReceive_good {f : Flit} (hl : l < 36) (hup : (s.link l).state.isUp = true) (hcrc : f.crcOk = true) (hfec : f.fecBad = false)
    (hnak : f.nak = false) (hvc : f.vc ≠ 7) :
    ∃ t a, exec (.flitReceive l f) s = .next t ∧ (∀ j, j ≠ l → t.link j = s.link j) ∧ t.link l =
      { ackFlits (s.link l) f.ack with rxSeq := if f.seq = ((s.link l).rxSeq + 1) % 4096 then f.seq else (s.link l).rxSeq, lastAck := a } := by
  have hlink : ¬(36 ≤ l ∨ (!(s.link l).state.isUp) = true) := by simp [hl, hup]
  change ∃ t a, execFlitReceive l f s = .next t ∧ _
  unfold execFlitReceive
  dsimp only
  rw [if_neg hlink, if_neg (by simp [hcrc, hfec]), hnak, if_neg Bool.false_ne_true, State.link_setLink_same]
  by_cases hseq : f.seq = ((s.link l).rxSeq + 1) % 4096
  · rw [if_neg (by simp [ackFlits, hvc, hup, hseq]), if_pos hseq]
    split
    · refine ⟨_, f.seq, rfl, fun j hj => ?_, ?_⟩
      · simp only [State.emit_link, State.link_setLink, if_neg hj]
      · rw [State.emit_link, State.link_setLink_same]
    · refine ⟨_, (s.link l).lastAck, rfl, fun j hj => ?_, State.link_setLink_same ..⟩
      simp only [State.link_setLink, if_neg hj]
  · rw [if_pos (by simp [ackFlits, hseq]), if_neg hseq]
    exact ⟨_, (s.link l).lastAck, rfl, fun j hj => State.link_setLink_ne s _ hj, State.link_setLink_same ..⟩

/-! ### NAKs (R434, R436) -/

/-- The NAKs in a row that a flit has met with this one. -/
def nakCount (k : Link) (q : Nat) : Nat := if k.replaysOf / 8 = q then k.replaysOf % 8 + 1 else 1

/-- The link with one more NAK noted: the flits before the one refused have arrived. -/
def nakLink (k : Link) (q : Nat) : Link :=
  { ackFlits k ((q + 4095) % 4096) with replays := min 65535 (k.replays + 1), replaysOf := q * 8 + nakCount k q }

theorem foldl_emit {α : Type} (g : α → Out) (r : List α) (s : State) (hosc : s.entry.oscDead = false) :
    (r.foldl (fun s e => s.emit (g e)) s).out = s.out ++ r.map g ∧ (r.foldl (fun s e => s.emit (g e)) s).fab = s.fab := by
  induction r generalizing s with
  | nil => exact ⟨(List.append_nil _).symm, rfl⟩
  | cons e r ih =>
    obtain ⟨hout, hfab⟩ := ih (s.emit (g e)) (by rwa [State.emit_entry])
    rw [State.emit_out s (g e) hosc, List.append_assoc] at hout
    exact ⟨hout, hfab.trans (s.emit_fab (g e))⟩

theorem nakFlit_eq {k : Link} (hk : s.link l = k) (q : Nat) : nakFlit s l q =
    if 4 ≤ nakCount k q then linkDown (s.setLink l (nakLink k q)) l
    else (nakLink k q).replay.foldl (fun s e => s.emit (.flit l { e.2 with ack := k.rxSeq })) (s.setLink l (nakLink k q)) := by
  unfold nakFlit
  rw [hk]
  rfl

/-- Up to the third NAK of a flit, every flit not known to have arrived leaves again. -/
theorem nakFlit_resends {q : Nat} (hosc : s.entry.oscDead = false) (h : nakCount (s.link l) q < 4) :
    (nakFlit s l q).out = s.out ++ (nakLink (s.link l) q).replay.map (fun e => .flit l { e.2 with ack := (s.link l).rxSeq }) ∧
    ∀ j, (nakFlit s l q).link j = if j = l then nakLink (s.link l) q else s.link j := by
  rw [nakFlit_eq rfl, if_neg (Nat.not_le.2 h)]
  obtain ⟨hout, hfab⟩ := foldl_emit (fun e : Nat × Flit => .flit l { e.2 with ack := (s.link l).rxSeq }) (nakLink (s.link l) q).replay
    (s.setLink l (nakLink (s.link l) q)) hosc
  exact ⟨hout, fun j => by rw [State.link, hfab, ← State.link, State.link_setLink]⟩

/-- The fourth NAK of a flit takes the link DOWN. -/
theorem nakFlit_fails {q : Nat} (hup : (s.link l).state.isUp = true) (h : 4 ≤ nakCount (s.link l) q) : ((nakFlit s l q).link l).state = .down := by
  have hlink : (s.setLink l (nakLink (s.link l) q)).link l = nakLink (s.link l) q := State.link_setLink_same ..
  rw [nakFlit_eq rfl, if_pos h, link_linkDown (by rw [hlink]; exact hup), if_pos rfl]
  rfl

theorem exec_flitNak {q : Nat} (hl : l < 36) (hup : (s.link l).state.isUp = true) (hq : q < 4096) : exec (.flitNak l q) s = .next (nakFlit s l q) := by
  change execFlitNak l q s = _
  simp [execFlitNak, hl, hup, hq]

/-! ### What a command does to its link -/

/-- A usable link that is DOWN: its signal, its retry and its identity's retry (R434, R435). -/
theorem downLink_starts {k : Link} (hk : k = s.link l) (hosc : s.entry.oscDead = false) (h : linkUsable s l = true) (hdown : k.state = .down) :
    (∃ t, exec (.linkSignalDetect l) s = .next t ∧ t.link l = { k with state := .training, since := s.aon, retryAt := 0 } ∧
      (∀ j, j ≠ l → t.link j = s.link j) ∧ t = { s with fab := t.fab }) ∧
    (k.miswired = false → k.retryAt ≠ 0 → k.retryAt ≤ s.aon → ∃ t, exec (.trainRetry l) s = .next t ∧
      t.link l = { k with state := .training, since := s.aon, retryAt := 0 } ∧ (∀ j, j ≠ l → t.link j = s.link j) ∧ t = { s with fab := t.fab }) ∧
    (k.miswired = true → k.retryAt ≤ s.aon → ∃ t, exec (.identifyRetry l) s = .next t ∧ (t.link l).state = .identify ∧ (t.link l).twoLane = k.twoLane ∧
      t.out = s.out ++ [.ident l (ownIdent s l)] ∧ (∀ j, j ≠ l → t.link j = s.link j)) := by
  subst hk
  refine ⟨⟨_, exec_linkSignalDetect h hdown, link_startTraining, fun j hj => startTraining_link_ne hj, rfl⟩, fun hwire hset hdue => ?_,
    fun hwire hdue => ?_⟩
  · exact ⟨_, exec_trainRetry h hdown hwire hset hdue, link_startTraining, fun j hj => startTraining_link_ne hj, rfl⟩
  · refine ⟨_, exec_identifyRetry h hdown hwire hdue, ?_, ?_, startIdentify_out hosc, fun j hj => startIdentify_link_ne hj⟩
    · rw [link_startIdentify]
    · rw [link_startIdentify]

/-- An identity on a link in IDENTIFY (R435). -/
theorem identity_decides (hl : l < 36) (hid : (s.link l).state = .identify) (i : Ident) :
    (identOk s l i = true → ∃ t, exec (.linkIdentify l i) s = .next t ∧ (t.link l).state = (if (s.link l).twoLane then .degraded else .up) ∧
      (t.link l).peer = i.node ∧ (t.link l).peerLink = i.link ∧ (t.link l).miswired = false ∧ (t.link l).rxSeq = 4095 ∧
      (∀ j, j ≠ l → (t.link j).state = (s.link j).state)) ∧
    (identOk s l i = false → ∃ t, exec (.linkIdentify l i) s = .next t ∧
      t.link l = { s.link l with
        state := .down, miswired := true, downs := min 255 ((s.link l).downs + 1), since := s.aon, retryAt := s.aon + msAon 1000 } ∧
      (∀ j, j ≠ l → t.link j = s.link j) ∧ t = { s with fab := t.fab }) := by
  refine ⟨fun hok => ?_, fun hbad => ?_⟩
  · obtain ⟨n, r, hlink⟩ := link_linkUp (s := s) (l := l) i l
    rw [if_pos rfl] at hlink
    refine ⟨_, exec_linkIdentify_ok hl hid hok, congrArg Link.state hlink, congrArg Link.peer hlink, congrArg Link.peerLink hlink,
      congrArg Link.miswired hlink, congrArg Link.rxSeq hlink, fun j hj => ?_⟩
    obtain ⟨n, r, hother⟩ := link_linkUp (s := s) (l := l) i j
    rw [hother, if_neg hj]
  · exact ⟨_, exec_linkIdentify_miswired hl hid hbad, State.link_setLink_same .., fun j hj => State.link_setLink_ne s _ hj, rfl⟩

/-- A NAK of a flit of a link that carries traffic (R436, R458). -/
theorem flitNak_replays (hosc : s.entry.oscDead = false) (hl : l < 36) (hup : (s.link l).state.isUp = true) {q : Nat} (hq : q < 4096) :
    (nakCount (s.link l) q < 4 → ∃ t, exec (.flitNak l q) s = .next t ∧ (t.link l).state = (s.link l).state ∧
      (t.link l).replays = min 65535 ((s.link l).replays + 1) ∧
      (∀ e ∈ (s.link l).replay, 2048 ≤ seqDist e.1 ((q + 4095) % 4096) → Out.flit l { e.2 with ack := (s.link l).rxSeq } ∈ t.out) ∧
      (∀ j, j ≠ l → t.link j = s.link j)) ∧
    (4 ≤ nakCount (s.link l) q → ∃ t, exec (.flitNak l q) s = .next t ∧ (t.link l).state = .down) := by
  refine ⟨fun hlt => ?_, fun hge => ⟨_, exec_flitNak hl hup hq, nakFlit_fails hup hge⟩⟩
  obtain ⟨hout, hlink⟩ := nakFlit_resends hosc hlt
  have hself : (nakFlit s l q).link l = nakLink (s.link l) q := (hlink l).trans (if_pos rfl)
  refine ⟨_, exec_flitNak hl hup hq, (congrArg Link.state hself :), congrArg Link.replays hself, fun e he hlate => ?_, fun j hj => ?_⟩
  · rw [hout]
    exact List.mem_append_right _ (List.mem_map.2 ⟨e, List.mem_filter.2 ⟨he, decide_eq_true hlate⟩, rfl⟩)
  · rw [hlink, if_neg hj]

end

/-- Settles O49: each command changes its own link as the lemma about it says; what follows a link's change, the flood, the database and the suspicion of the
twin, leaves the links. -/
theorem linksTrainAndReplay : Obligations.LinksTrainAndReplay := by
  unfold Obligations.LinksTrainAndReplay
  rintro s l k rfl hosc
  refine ⟨downLink_starts rfl hosc, ?training, fun hl hid i => identity_decides hl hid i, ?traffic, ?laneLoss⟩
  case training =>
    refine fun hl htrain => ⟨fun hin lanes => ?_, fun hpast => ?_⟩
    · exact ⟨_, exec_linkLock hl htrain hin lanes, link_startIdentify, startIdentify_out hosc, fun j hj => startIdentify_link_ne hj⟩
    · exact ⟨_, exec_trainTimeout hl htrain hpast, State.link_setLink_same .., fun j hj => State.link_setLink_ne s _ hj, rfl⟩
  case traffic =>
    intro hl hstate
    have hup : (s.link l).state.isUp = true := (isUp_iff _).2 hstate
    refine ⟨?_, fun f hbad => ?_, fun f hcrc hfec hnak hvc => ?_, ?_⟩
    · have hlost : (linkDown s l).link l = lostLink s l := (link_linkDown hup l).trans (if_pos rfl)
      refine ⟨_, exec_linkFault hl hup, congrArg Link.state hlost, congrArg Link.downs hlost, congrArg Link.resync hlost, fun j hj => ?_⟩
      rw [link_linkDown hup, if_neg hj]
    · refine ⟨_, exec_flitReceive_bad hl hup hbad, ?_, ?_, State.emit_out _ _ hosc, fun j hj => ?_⟩
      · rw [State.emit_link, State.link_setLink_same]
      · rw [State.emit_link, State.link_setLink_same]
      · rw [State.emit_link, State.link_setLink_ne s _ hj]
    · obtain ⟨t, a, hexec, hother, hlink⟩ := flitReceive_good hl hup hcrc hfec hnak hvc
      exact ⟨t, hexec, (congrArg Link.state hlink :), congrArg Link.rxSeq hlink, congrArg Link.replay hlink, hother⟩
    · rintro q n hq rfl
      exact flitNak_replays hosc hl hup hq
  case laneLoss =>
    intro hl hup i hi
    obtain ⟨t, hexec, hwiring⟩ := laneLoss_trains hl hup hi
    have hlink : t.link l = { s.link l with state := .training, since := s.aon, retryAt := 0 } := (link_of_wiring hwiring l).trans link_startTraining
    refine ⟨t, hexec, congrArg Link.state hlink, congrArg Link.since hlink, fun j hj => ?_⟩
    rw [link_of_wiring hwiring, startTraining_link_ne hj]

end Sys2Proof.Machine
end

section
/-!
PROOFS of the fabric: the database of link-state records, the resync of a failed link, packets on their way, CTL and firmware messages (R440, R444 to R448,
R453 to R460, R491). First what the loss of a node leaves of the database, the roles and the twin.
-/

namespace Sys2Proof.Machine

/-! ### What the package knows of the fabric -/

/-- The database of link-state records, the role table and the state of the pair. -/
def knowledge (s : State) : List (LsRecord × Nat) × Tab (Nat × Nat) × Twin := (s.fab.db, s.fab.roles, s.twin)

theorem knowledge_foldl {α : Type} (g : State → α → State) (l : List α) (s : State) (h : ∀ s a, knowledge (g s a) = knowledge s) :
    knowledge (l.foldl g s) = knowledge s :=
  foldl_keeps (fun t => knowledge t = knowledge s) g l s rfl fun t ht a _ => (h t a).trans ht

section

variable (s : State)

theorem knowledge_cmdFault (c k : Nat) (cmd : Cmd) (seq cause addr : Nat) (d : Bool) : knowledge (cmdFault s c k cmd seq cause addr d) = knowledge s := by
  rw [cmdFault, stepDone_rest, slotFault_rest]
  rfl

theorem knowledge_finishTxn (id sub bytes : Nat) : knowledge (finishTxn s id sub bytes) = knowledge s := by
  unfold finishTxn
  dsimp only
  split
  · rfl
  · split
    · rfl
    · exact knowledge_cmdFault ..

theorem knowledge_failSlot (c slot node : Nat) : knowledge (failSlot s c slot node) = knowledge s :=
  knowledge_foldl _ _ _ fun t x => knowledge_cmdFault (t.setSlot c slot ((t.slot c slot).drop x.serial)) ..

theorem knowledge_failNode (node : Nat) : knowledge (failNode s node) = knowledge s := by
  have hslots : ∀ t c, knowledge ((List.range 4).foldl (fun t k => failSlot t c k node) t) = knowledge t :=
    fun t c => knowledge_foldl _ _ t fun u k => knowledge_failSlot u c k node
  unfold failNode
  dsimp only
  rw [knowledge_foldl _ _ _ fun t id => knowledge_finishTxn t .., knowledge_foldl _ _ _ hslots]

/-- A record's node is one that some path reaches. -/
def onRoute (s : State) (e : LsRecord × Nat) : Bool := ((hopsFrom s s.fab.node).map (·.1)).contains e.1.node

/-- A change of the database drops the records that no path reaches, and touches neither roles nor twin. -/
theorem knowledge_refresh : knowledge (refresh s) = (s.fab.db.filter (onRoute s), s.fab.roles, s.twin) := by
  unfold refresh
  dsimp only
  rw [knowledge_foldl _ _ _ fun t n => knowledge_failNode t n]
  split <;> rfl

theorem refresh_keeps : (∀ e ∈ (refresh s).fab.db, e ∈ s.fab.db) ∧ (refresh s).fab.roles = s.fab.roles ∧ (refresh s).twin = s.twin := by
  have h := knowledge_refresh s
  simp only [knowledge, Prod.mk.injEq] at h
  obtain ⟨hdb, hroles, htwin⟩ := h
  exact ⟨fun e he => List.mem_of_mem_filter (hdb ▸ he), hroles, htwin⟩

end

/-! ### Roles (R453, R491) -/

section

variable {s : State} {l : List (Nat × Nat)} {node : Nat}

/-- A role's entry is a function of the role table alone. -/
theorem role_congr {s t : State} {q : Nat} (h : tget (0, 0) t.fab.roles q = tget (0, 0) s.fab.roles q) :
    t.roleEpoch q = s.roleEpoch q ∧ t.roleNode q = s.roleNode q := by
  rw [State.roleEpoch, State.roleNode, h]
  exact ⟨rfl, rfl⟩

theorem setRole_rest (s : State) (r node epoch : Nat) : setRole s r node epoch = { s with fab := { s.fab with roles := (setRole s r node epoch).fab.roles } } := by
  unfold setRole
  split <;> rfl

theorem role_setRole_ne {r q : Nat} (h : q ≠ r) (epoch : Nat) : tget (0, 0) (setRole s r node epoch).fab.roles q = tget (0, 0) s.fab.roles q := by
  unfold setRole
  split
  · exact tget_tput_ne _ _ _ h
  · rfl

theorem role_setRole_of_lt {r epoch : Nat} (h : s.roleEpoch r < epoch) : tget (0, 0) (setRole s r node epoch).fab.roles r = (node + 1, epoch) := by
  rw [setRole, if_pos (.inl h)]
  exact tget_tput_same ..

/-- The roles a record names, filled one after the other. -/
def takeRoles (s : State) (node : Nat) (l : List (Nat × Nat)) : State := l.foldl (fun s e => setRole s e.1 node e.2) s

theorem takeRoles_rest (s : State) (node : Nat) (l : List (Nat × Nat)) :
    takeRoles s node l = { s with fab := { s.fab with roles := (takeRoles s node l).fab.roles } } := by
  refine foldl_keeps (fun t : State => t = { s with fab := { s.fab with roles := t.fab.roles } }) _ l s rfl fun t ht e _ => ?_
  rw [setRole_rest, ht]

theorem role_takeRoles_ne {q : Nat} (h : q ∉ l.map (·.1)) : tget (0, 0) (takeRoles s node l).fab.roles q = tget (0, 0) s.fab.roles q := by
  refine foldl_keeps (fun t : State => tget (0, 0) t.fab.roles q = tget (0, 0) s.fab.roles q) _ l s rfl fun t ht e he => ?_
  exact (role_setRole_ne (fun hq : q = e.1 => h (hq ▸ List.mem_map_of_mem he)) _).trans ht

/-- A role named once under a higher epoch is the node's. -/
theorem role_takeRoles (hnd : (l.map (·.1)).Nodup) {e : Nat × Nat} (he : e ∈ l) (hlt : s.roleEpoch e.1 < e.2) :
    tget (0, 0) (takeRoles s node l).fab.roles e.1 = (node + 1, e.2) := by
  induction l generalizing s with
  | nil => cases he
  | cons x r ih =>
    obtain ⟨hx, hr⟩ := List.nodup_cons.1 hnd
    change tget (0, 0) (takeRoles (setRole s x.1 node x.2) node r).fab.roles e.1 = _
    rcases List.mem_cons.1 he with rfl | he
    · rw [role_takeRoles_ne hx, role_setRole_of_lt hlt]
    · have hne : e.1 ≠ x.1 := fun h => hx (List.mem_map.2 ⟨e, he, h⟩)
      exact ih hr he (by rwa [(role_congr (role_setRole_ne hne x.2)).1])

end

/-! ### Link-state records (R448) -/

section

variable {s : State} {r : LsRecord}

/-- The record kept of a package. -/
def dbEntry (s : State) (r : LsRecord) : Option (LsRecord × Nat) := s.fab.db.find? fun e => e.1.node == r.node && e.1.serial == r.serial

theorem exec_linkStateRecord_old {o : LsRecord × Nat} (hown : ¬(r.node = s.fab.node ∧ r.serial = s.pkg.serial)) (hentry : dbEntry s r = some o)
    (hold : r.seq ≤ o.1.seq) : exec (.linkStateRecord r) s = .next s := by
  unfold dbEntry at hentry
  change execLinkStateRecord r s = _
  unfold execLinkStateRecord
  simp [hown, hentry, hold]

/-- The state with a newer record in the database. -/
def recorded (s : State) (r : LsRecord) : State :=
  { s with fab := { s.fab with db := s.fab.db.filter (fun e => !(e.1.node == r.node && e.1.serial == r.serial)) ++ [(r, s.aon)] } }

/-- That state with the roles the record names filled. -/
def rolesTaken (s : State) (r : LsRecord) : State := takeRoles (recorded s r) r.node r.roles

/-- Whether a record says that a role of this package has gone to another under a higher epoch (R491). -/
def losesRole (s : State) (r : LsRecord) : Bool := r.roles.any fun e => s.hasRole e.1 && decide (s.roleEpoch e.1 < e.2)

/-- A record newer than the one kept is recorded and its roles are filled; the routes are computed again unless its links are those of the one kept. -/
theorem linkStateRecord_new (hnode : r.node < 256) (hown : ¬(r.node = s.fab.node ∧ r.serial = s.pkg.serial))
    (hnew : ∀ o, dbEntry s r = some o → o.1.seq < r.seq) :
    ∃ u, exec (.linkStateRecord r) s = .next (if losesRole s r then fencedSelf u else u) ∧
      (u = rolesTaken s r ∨ u = refresh (topoChanged (rolesTaken s r))) ∧ (∀ o, dbEntry s r = some o → o.1.links = r.links → u = rolesTaken s r) := by
  change ∃ u, execLinkStateRecord r s = _ ∧ _
  unfold execLinkStateRecord
  rw [if_neg (by omega)]
  cases hentry : dbEntry s r with
  | none =>
    have hfind := hentry
    unfold dbEntry at hfind
    refine ⟨refresh (topoChanged (rolesTaken s r)), ?_, .inr rfl, fun o ho => by cases ho⟩
    simp only [hfind]
    rfl
  | some o =>
    have hfind := hentry
    unfold dbEntry at hfind
    have hserial : o.1.serial = r.serial := by
      have := List.find?_some hfind
      simp only [Bool.and_eq_true, beq_iff_eq] at this
      exact this.2
    have hseq : ¬ r.seq ≤ o.1.seq := Nat.not_le.2 (hnew o hentry)
    refine ⟨if sameTopo o.1 r then rolesTaken s r else refresh (topoChanged (rolesTaken s r)), ?_, ?_, fun o' ho hlinks => ?_⟩
    · simp only [hfind, Option.map_some, decide_eq_true_eq, if_neg hseq]
      rfl
    · split
      · exact .inl rfl
      · exact .inr rfl
    · cases ho
      exact if_pos (by simp [sameTopo, hlinks, hserial])

theorem fencedSelf_fab (s : State) : (fencedSelf s).fab = s.fab := by
  unfold fencedSelf
  split <;> rfl

theorem fencedSelf_fenced (h : s.twin.state ≠ .unpaired) : (fencedSelf s).twin.fenced = true := by
  unfold fencedSelf
  split
  · next hidle => simpa [h] using hidle
  · rfl

theorem rolesTaken_keeps : (rolesTaken s r).fab.db = (recorded s r).fab.db ∧ (rolesTaken s r).twin = s.twin := by
  rw [rolesTaken, takeRoles_rest]
  exact ⟨rfl, rfl⟩

/-- What a newer record leaves of the roles and the twin, and which records the database then holds. -/
theorem recorded_keeps {u : State} (hu : u = rolesTaken s r ∨ u = refresh (topoChanged (rolesTaken s r))) :
    (∀ e ∈ u.fab.db, e ∈ (recorded s r).fab.db) ∧ u.fab.roles = (rolesTaken s r).fab.roles ∧ u.twin = s.twin := by
  obtain ⟨hdb, htwin⟩ := rolesTaken_keeps (s := s) (r := r)
  rcases hu with rfl | rfl
  · exact ⟨fun e he => hdb ▸ he, rfl, htwin⟩
  · obtain ⟨hdb', hroles', htwin'⟩ := refresh_keeps (topoChanged (rolesTaken s r))
    exact ⟨fun e he => hdb ▸ hdb' e he, hroles', htwin'.trans htwin⟩

/-- A link-state record from another package (R448, R453, R491). -/
theorem linkStateRecord_acts (hnode : r.node < 256) (hown : ¬(r.node = s.fab.node ∧ r.serial = s.pkg.serial))
    (hnew : ∀ o, dbEntry s r = some o → o.1.seq < r.seq) :
    ∃ t, exec (.linkStateRecord r) s = .next t ∧ (∀ e ∈ t.fab.db, e = (r, s.aon) ∨ e ∈ s.fab.db) ∧
      ((r.roles.map (·.1)).Nodup → ∀ e ∈ r.roles, s.roleEpoch e.1 < e.2 → t.roleEpoch e.1 = e.2 ∧ t.roleNode e.1 = some r.node) ∧
      ((∃ e ∈ r.roles, s.hasRole e.1 = true ∧ s.roleEpoch e.1 < e.2) → s.twin.state ≠ .unpaired → t.twin.fenced = true) ∧
      (∀ o, dbEntry s r = some o → o.1.links = r.links → (r, s.aon) ∈ t.fab.db) := by
  obtain ⟨u, hexec, hu, hsame⟩ := linkStateRecord_new hnode hown hnew
  obtain ⟨hdb, hroles, htwin⟩ := recorded_keeps hu
  have hfab : (if losesRole s r then fencedSelf u else u).fab = u.fab := by
    split
    · exact fencedSelf_fab u
    · rfl
  have hentry (q : Nat) : tget (0, 0) (if losesRole s r then fencedSelf u else u).fab.roles q = tget (0, 0) (rolesTaken s r).fab.roles q := by
    rw [hfab, hroles]
  refine ⟨_, hexec, fun e he => ?_, fun hnd e he hlt => ?_, fun hlost hpaired => ?_, fun o ho hlinks => ?_⟩
  · rw [hfab] at he
    rcases List.mem_append.1 (hdb e he) with hkept | hnew
    · exact .inr (List.mem_of_mem_filter hkept)
    · exact .inl (List.mem_singleton.1 hnew)
  · have htaken : tget (0, 0) (rolesTaken s r).fab.roles e.1 = (r.node + 1, e.2) := role_takeRoles (s := recorded s r) hnd he hlt
    rw [State.roleEpoch, State.roleNode, hentry, htaken]
    exact ⟨rfl, rfl⟩
  · have hloses : losesRole s r = true := by
      obtain ⟨e, he, hrole, hlt⟩ := hlost
      exact List.any_eq_true.2 ⟨e, he, by simp [hrole, hlt]⟩
    rw [if_pos hloses]
    exact fencedSelf_fenced (by rwa [htwin])
  · rw [hfab, hsame o ho hlinks, rolesTaken_keeps.1]
    exact List.mem_append_right _ (List.mem_singleton_self _)

/-- A reflood sends this package's own record under the next sequence number. -/
theorem recordReflood_floods (hosc : s.entry.oscDead = false) (hdue : s.fab.refloodAt + msAon 10 ≤ s.aon) (hlinks : ownLinks s ≠ []) :
    ∃ t r, exec .recordReflood s = .next t ∧ Tells t .all (.linkState r) ∧ r.node = s.fab.node ∧ r.seq = s.fab.ownSeq + 1 ∧
      r.links = (ownRecord s).links ∧ t.fab.ownSeq = s.fab.ownSeq + 1 ∧ t.fab.refloodAt = s.aon ∧ KeepsMemory s t := by
  have hexec : exec .recordReflood s = .next (flood s) := by
    change execRecordReflood s = _
    simp [execRecordReflood, hdue, hlinks]
  let u : State := { s with fab := { s.fab with ownSeq := s.fab.ownSeq + 1, refloodAt := s.aon } }
  have hout : (flood s).out = s.out ++ [.fw s.fab.pseq .all (.linkState (ownRecord u))] := State.send_out u _ _ hosc
  refine ⟨_, ownRecord u, hexec, ⟨s.fab.pseq, ?_⟩, rfl, rfl, rfl, State.send_fab_ownSeq u .., State.send_fab_refloodAt u .., ?_⟩
  · rw [hout]
    exact List.mem_append_right _ (List.mem_singleton_self _)
  · exact (keepsBytes_send u .all (.linkState (ownRecord u))).memory

/-- An aged record leaves the database, and no other comes into it. -/
theorem recordAgeOut_drops {n : Nat} (hold : ∃ e ∈ s.fab.db, e.1.node = n ∧ e.2 + msAon 50 ≤ s.aon) :
    ∃ t, exec (.recordAgeOut n) s = .next t ∧ ∀ e ∈ t.fab.db, e ∈ s.fab.db ∧ ¬(e.1.node = n ∧ e.2 + msAon 50 ≤ s.aon) := by
  refine ⟨_, rfl, ?_⟩
  dsimp only
  rw [if_pos (List.any_eq_true.2 (by simpa using hold))]
  generalize hu : topoChanged _ = u
  obtain ⟨hdb, _, _⟩ := refresh_keeps u
  have hkept : ∀ e ∈ u.fab.db, e ∈ s.fab.db ∧ ¬(e.1.node = n ∧ e.2 + msAon 50 ≤ s.aon) := by
    subst hu
    intro e he
    obtain ⟨hmem, hyoung⟩ := List.mem_filter.1 he
    exact ⟨hmem, by simpa [imp_iff_not_or] using hyoung⟩
  split
  · exact fun e he => hkept e (hdb e he)
  · have hfail : (failNode (refresh u) n).fab.db = (refresh u).fab.db := congrArg Prod.fst (knowledge_failNode (refresh u) n)
    exact fun e he => hkept e (hdb e (hfail ▸ he))

end

/-! ### The flits of a failed link (R458) -/

section

variable {s : State} {l : Nat}

theorem sendFlit_sent (hosc : s.entry.oscDead = false) (vc hop first : Nat) (payload : List Byte) :
    ∃ g, Out.flit l g ∈ (sendFlit s l vc hop first payload).out ∧ g.payload = payload := by
  unfold sendFlit
  extract_lets k f
  refine ⟨f, ?_, rfl⟩
  rw [State.emit_out _ _ (by exact hosc)]
  exact List.mem_append_right _ (List.mem_singleton_self _)

/-- Flits sent again on a link have each left the package. -/
theorem foldl_resendFlit_sent (b : Nat) (fs : List Flit) (s : State) (hosc : s.entry.oscDead = false) :
    ∀ f ∈ fs, ∃ g, Out.flit b g ∈ (fs.foldl (fun s f => resendFlit s b f) s).out ∧ g.payload = f.payload := by
  induction fs generalizing s with
  | nil => exact fun f hf => by cases hf
  | cons x r ih =>
    have hsent := flitsLeft_resendFlit s b x
    have hrest := flitsLeft_foldl (fun s f => flitsLeft_resendFlit s b f) r (resendFlit s b x)
    intro f hf
    rcases List.mem_cons.1 hf with rfl | hr
    · obtain ⟨g, hg, hpay⟩ := sendFlit_sent (l := b) hosc f.vc f.hop f.first f.payload
      exact ⟨g, hrest.out _ hg, hpay⟩
    · exact ih _ (by rwa [hsent.entry]) f hr

/-- The failed link with its resync over and nothing kept to send again. -/
def resynced (s : State) (l : Nat) : State := s.setLink l { s.link l with resync := none, replay := [] }

theorem keepsMemory_resynced : KeepsMemory s (resynced s l) := keepsMemory_same _ _ rfl rfl

/-- The far end's answer in time: every later flit is sent again on the backup link. -/
theorem linkResync_resends (hosc : s.entry.oscDead = false) (a : Nat) {u : Nat} (hk : (s.link l).resync = some u) (hin : s.aon < u + usAon 3) :
    ∃ t, exec (.linkResync l a) s = .next t ∧ FlitsLeft (resynced s l) t ∧ ∀ b, backupLink (resynced s l) (s.link l).peer = some b →
      ∀ e ∈ (ackFlits (s.link l) a).replay, ∃ f, Out.flit b f ∈ t.out ∧ f.payload = e.2.payload := by
  cases hb : backupLink (resynced s l) (s.link l).peer with
  | none =>
    refine ⟨resynced s l, ?_, .refl _, fun b h => by cases h⟩
    unfold resynced at hb
    change execLinkResync l a s = _
    simp only [execLinkResync, hk, ge_iff_le, if_neg (Nat.not_le.2 hin), hb]
    rfl
  | some b =>
    refine ⟨((ackFlits (s.link l) a).replay.map (·.2)).foldl (fun t f => resendFlit t b f) (resynced s l), ?_,
      flitsLeft_foldl (fun t f => flitsLeft_resendFlit t b f) _ _, fun b' h e he => ?_⟩
    · unfold resynced at hb
      change execLinkResync l a s = _
      simp only [execLinkResync, hk, ge_iff_le, if_neg (Nat.not_le.2 hin), hb]
      rfl
    · cases h
      exact foldl_resendFlit_sent b _ (resynced s l) hosc e.2 (List.mem_map_of_mem he)

theorem lostFlit_rest (s : State) (f : Flit) : lostFlit s f = { s with cores := (lostFlit s f).cores } ∧ KeepsMemory s (lostFlit s f) := by
  unfold lostFlit
  extract_lets h core chan x
  split
  · exact ⟨rfl, keepsMemory_refl s⟩
  · split
    · exact ⟨rfl, keepsMemory_setSlot ..⟩
    · exact ⟨rfl, keepsMemory_refl s⟩

/-- No answer within 3 µs: nothing is sent again. -/
theorem resyncTimeout_drops {u : Nat} (hk : (s.link l).resync = some u) (hpast : u + usAon 3 ≤ s.aon) :
    ∃ t, exec (.resyncTimeout l) s = .next t ∧ t = { resynced s l with cores := t.cores } ∧ KeepsMemory s t := by
  change ∃ t, execResyncTimeout l s = _ ∧ _
  unfold execResyncTimeout
  simp only [hk, if_neg (Nat.not_lt.2 hpast)]
  refine ⟨_, rfl, ?_⟩
  refine foldl_keeps (fun t : State => t = { resynced s l with cores := t.cores } ∧ KeepsMemory s t) lostFlit _ (resynced s l)
    ⟨rfl, keepsMemory_resynced⟩ ?_
  rintro t ⟨ht, hmem⟩ f -
  obtain ⟨hrest, hmem'⟩ := lostFlit_rest t f
  refine ⟨?_, hmem.trans hmem'⟩
  rw [hrest, ht]

end

/-! ### Packets on their way (R445, R454, R455) -/

section

variable {s : State} {p : Packet}

/-- The route to a node is a function of the links, this package's number and the database. -/
theorem chooseHop_congr {t : State} (hlinks : t.fab.links = s.fab.links) (hnode : t.fab.node = s.fab.node) (hdb : t.fab.db = s.fab.db) (dst a b : Nat) :
    chooseHop t dst a b = chooseHop s dst a b := by
  have hown : ownLinks t = ownLinks s := by simp only [ownLinks, State.link, hlinks]
  have hnext : neighbours t = neighbours s := by
    funext n
    simp only [neighbours, State.record, hown, hnode, hdb]
  simp only [chooseHop, nextHops, hops, hopsFrom, hown, hnext, hnode]

theorem routeTarget_of_nm (h : p.nm = false) : routeTarget s p = p.dst := by
  rw [routeTarget, h, if_neg Bool.false_ne_true]

/-- A packet to which a link leads leaves one hop further. -/
theorem transmit_leaves (hosc : s.entry.oscDead = false) (hnm : p.nm = false) (hhop : (chooseHop s p.dst p.src (flowKey p)).isSome = true) :
    ∃ h, Out.packet { p with hops := p.hops + 1, hop := h } ∈ (transmit s p).out := by
  obtain ⟨l, hl⟩ := Option.isSome_iff_exists.1 hhop
  unfold transmit
  rw [routeTarget_of_nm hnm, hl]
  dsimp only
  rw [State.emit_out _ _ (by rw [(flitsLeft_sendFlits ..).entry]; exact hosc)]
  exact ⟨_, List.mem_append_right _ (List.mem_singleton_self _)⟩

theorem exec_packetRoute_on (hfrom : takesFrom s p.src = true) (hdst : p.dst ≠ s.fab.node) : exec (.packetRoute p) s = .next (routeOn s p) := by
  change execPacketRoute p s = _
  simp [execPacketRoute, hfrom, hdst]

/-- A packet that has gone 8 hops is dropped and counted. -/
theorem routeOn_dropped (hhops : 8 ≤ p.hops) : routeOn s p = { s with fab := { s.fab with hopDrop := min 65535 (s.fab.hopDrop + 1) } } := by
  unfold routeOn
  extract_lets q
  have hq : 8 ≤ q.hops := by
    unfold q
    split <;> exact hhops
  exact if_pos hq

theorem routeOn_transmits (hnm : p.nm = false) (hhops : p.hops < 8) (hconf : s.fab.conflict.contains p.dst = false)
    (hhop : (chooseHop s p.dst p.src (flowKey p)).isSome = true) : routeOn s p = transmit s p := by
  unfold routeOn
  rw [hnm, Bool.false_and, if_neg Bool.false_ne_true]
  dsimp only
  rw [if_neg (Nat.not_le.2 hhops), routeTarget_of_nm hnm, if_neg]
  rw [hconf, Option.isNone_eq_false_iff.2 hhop]
  decide

/-- A packet for another node with a route to it goes on one hop further. -/
theorem routeOn_leaves (hosc : s.entry.oscDead = false) (hnm : p.nm = false) (hhops : p.hops < 8) (hconf : s.fab.conflict.contains p.dst = false)
    (hhop : (chooseHop s p.dst p.src (flowKey p)).isSome = true) :
    FlitsLeft s (routeOn s p) ∧ ∃ h, Out.packet { p with hops := p.hops + 1, hop := h } ∈ (routeOn s p).out := by
  rw [routeOn_transmits hnm hhops hconf hhop]
  exact ⟨flitsLeft_transmit s p, transmit_leaves hosc hnm hhop⟩

/-- The forwarding of a packet for a role held elsewhere is counted. -/
def roleCounted (s : State) : State := { s with fab := { s.fab with roleFwd := min 65535 (s.fab.roleFwd + 1) } }

theorem exec_packetRoute_role {n : Nat} (hfrom : takesFrom s p.src = true) (hdst : p.dst = s.fab.node) (hrole : p.role = true)
    (hnot : s.hasRole p.dstRole = false) (hfwd : p.fwd = false) (hn : s.roleNode p.dstRole = some n) :
    exec (.packetRoute p) s = .next (routeOn (roleCounted s) { p with dst := n, fwd := true }) := by
  change execPacketRoute p s = _
  simp only [execPacketRoute, hfrom, hdst, hrole, hnot, hfwd, hn, Bool.not_true, Bool.or_false, Bool.false_eq_true, if_false, ne_eq, not_true_eq_false]
  rfl

/-- A packet at a node that does not hold its role is forwarded once and counted. -/
theorem packetRoute_forwards (hosc : s.entry.oscDead = false) {n : Nat} (hfrom : takesFrom s p.src = true) (hdst : p.dst = s.fab.node)
    (hrole : p.role = true) (hnot : s.hasRole p.dstRole = false) (hfwd : p.fwd = false) (hn : s.roleNode p.dstRole = some n) (hhops : p.hops < 8)
    (hconf : s.fab.conflict.contains n = false) (hnm : p.nm = false) (hhop : (chooseHop s n p.src (flowKey p)).isSome = true) :
    ∃ t q, exec (.packetRoute p) s = .next t ∧ Out.packet q ∈ t.out ∧ q.dst = n ∧ q.fwd = true ∧ q.data = p.data ∧
      t.fab.roleFwd = min 65535 (s.fab.roleFwd + 1) := by
  have hhop' : (chooseHop (roleCounted s) n p.src (flowKey { p with dst := n, fwd := true })).isSome = true :=
    (congrArg Option.isSome (chooseHop_congr (s := s) rfl rfl rfl ..)).trans hhop
  obtain ⟨hleft, h, hout⟩ := routeOn_leaves (s := roleCounted s) (p := { p with dst := n, fwd := true }) hosc hnm hhops hconf hhop'
  exact ⟨_, _, exec_packetRoute_role hfrom hdst hrole hnot hfwd hn, hout, rfl, rfl, rfl, (congrArg Fab.roleFwd hleft.fab :)⟩

end

/-! ### CTL messages (R460) -/

section

variable {s : State} {src q code : Nat} {b : Bool} {l : List Byte}

theorem exec_ctlMsg_ignored (hs : Settled s) (h : takesFrom s src = false ∨ s.fab.seen.contains (src, q) = true) :
    exec (.ctlMsg src q b code l) s = .next s := by
  change execCtlMsg src q b code l s = _
  unfold execCtlMsg
  rw [if_pos (by simpa using h), settle_of_settled hs rfl]

/-- A CTL message not seen before is noted. -/
theorem ctlMsg_noted (hs : Settled s) (hfrom : takesFrom s src = true) (hnew : s.fab.seen.contains (src, q) = false) (hend : code ≠ ctlEnd)
    (hprobe : code ≠ ctlProbeReply) :
    ∃ t, exec (.ctlMsg src q b code l) s = .next t ∧ t.fab.seen = (src, q) :: s.fab.seen ∧ t.srv = s.srv ∧ KeepsMemory s t := by
  have hbody (u : State) : ctlBody u src code l = u := by rw [ctlBody, if_neg hend, if_neg hprobe]
  change ∃ t, execCtlMsg src q b code l s = .next t ∧ _
  unfold execCtlMsg
  rw [if_neg (by simpa [hfrom] using hnew)]
  extract_lets f s1 g s2
  have hleft : FlitsLeft s1 s2 := by
    unfold s2
    split
    · exact flitsLeft_foldl (fun t n => flitsLeft_transmit t _) _ s1
    · exact .refl s1
  rw [hbody, settle_of_settled hs (t := s2) (hleft.mbx.trans rfl)]
  exact ⟨s2, rfl, (congrArg Fab.seen hleft.fab :), hleft.srv.trans rfl, .trans (keepsMemory_same s s1 rfl rfl) hleft.memory⟩

end

/-! ### Firmware messages (R446) -/

section

variable {s : State} {p : Packet}

/-- The answer to a firmware message. -/
def fwDone (s : State) (p : Packet) : Packet := mkPacket s pkDONE p.src p.part p.pseq (rspArgs scOK p.data.length) []

/-- A firmware message for this package, from a node it takes packets of. -/
structure FwFor (s : State) (p : Packet) : Prop where
  type : p.type = pkFW
  dst : p.dst = s.fab.node
  src : takesFrom s p.src = true
  role : p.role = false

/-- A packet without data is charged nothing. -/
theorem sendPacket_of_nil {ctx : Nat} (h : p.data = []) : sendPacket s ctx p = transmit s p := by
  rw [sendPacket, h, State.count, if_pos List.length_nil]

theorem exec_fwPacket (h : FwFor s p) : exec (.fwPacket p) s = .next (settle (transmit (fwBody s p) (fwDone s p))) := by
  change execFwPacket p s = _
  unfold execFwPacket
  rw [if_neg (by simp [h.type, h.dst, h.src, h.role]), sendPacket_of_nil rfl, fwDone]

/-- A firmware message that this package takes has its effect, and then only the flits of its answer leave. -/
theorem fwPacket_answers {u : State} (hs : Settled s) (h : FwFor s p) (hu : fwBody s p = u) (hmbx : u.mbx = s.mbx) :
    exec (.fwPacket p) s = .next (transmit u (fwDone s p)) ∧ FlitsLeft u (transmit u (fwDone s p)) := by
  have hleft : FlitsLeft u (transmit u (fwDone s p)) := flitsLeft_transmit ..
  rw [exec_fwPacket h, hu, settle_of_settled hs (hleft.mbx.trans hmbx)]
  exact ⟨rfl, hleft⟩

/-- The answer is DONE, to the sender and under the message's own number. -/
theorem fwDone_leaves {u : State} (hosc : u.entry.oscDead = false) (hhop : (chooseHop u p.src s.fab.node p.pseq).isSome = true) :
    ∃ q, Out.packet q ∈ (transmit u (fwDone s p)).out ∧ q.type = pkDONE ∧ q.dst = p.src ∧ q.pseq = p.pseq := by
  obtain ⟨h, hout⟩ := transmit_leaves (p := fwDone s p) hosc rfl hhop
  exact ⟨_, hout, rfl, rfl, rfl⟩

/-- Code 2: the twin's tenant entry is taken (R482). -/
theorem fwPacket_tenant (hosc : s.entry.oscDead = false) (hs : Settled s) (h : FwFor s p) (hcode : ble p.args 0 2 = 2) (htwin : s.twinNode = some p.src)
    (hn : ble p.args 4 8 < 4096) : ∃ t, exec (.fwPacket p) s = .next t ∧
      (t.tenant (ble p.args 4 8)).refill = ble p.data 0 4 ∧ (t.tenant (ble p.args 4 8)).winUs = ble p.data 4 4 ∧
      (t.tenant (ble p.args 4 8)).cap = ble p.data 8 8 ∧
      ((chooseHop s p.src s.fab.node p.pseq).isSome = true →
        ∃ q, Out.packet q ∈ t.out ∧ q.type = pkDONE ∧ q.dst = p.src ∧ q.pseq = p.pseq) ∧ KeepsMemory s t := by
  have hbody : fwBody s p = s.setTenant (ble p.args 4 8)
      ⟨ble p.data 0 4, ble p.data 4 4, ble p.data 8 8, signed 64 (ble p.data 16 8), ble p.data 24 8⟩ := by
    simp only [fwBody, hcode, htwin, beq_self_eq_true, if_true, takeTenant, if_neg (Nat.not_le.2 hn)]
  generalize hu : s.setTenant .. = u at hbody
  obtain ⟨hexec, hleft⟩ := fwPacket_answers hs h hbody (by rw [← hu]; rfl)
  have htenant : (transmit u (fwDone s p)).tenant (ble p.args 4 8) =
      ⟨ble p.data 0 4, ble p.data 4 4, ble p.data 8 8, signed 64 (ble p.data 16 8), ble p.data 24 8⟩ := by
    rw [State.tenant, hleft.srv, ← State.tenant, ← hu, State.tenant_setTenant_same]
  have hmem : KeepsMemory s u := hu ▸ keepsMemory_same _ _ rfl rfl
  refine ⟨_, hexec, congrArg Tenant.refill htenant, congrArg Tenant.winUs htenant, congrArg Tenant.cap htenant, fun hhop => ?_, hmem.trans hleft.memory⟩
  subst hu
  exact fwDone_leaves hosc ((congrArg Option.isSome (chooseHop_congr (s := s) rfl rfl rfl ..)).trans hhop)

/-- A session's map once its pages and its mirror are freed: it is no longer present, its park record is kept. -/
theorem map_parkFree (s : State) (k : Nat) : ((parkFree s k).map k).present = false ∧ ((parkFree s k).map k).record = (s.map k).record := by
  have hmap : (parkFree s k).map k = (freePages s k).map k := rfl
  rw [hmap, freePages]
  generalize hu : State.setMap _ k _ = u
  obtain ⟨l, hl⟩ := map_fitRecords u k k
  rw [hl, if_pos rfl, ← hu, State.map_setMap_same]
  exact ⟨rfl, rfl⟩

theorem parkFree_mbx (s : State) (k : Nat) : (parkFree s k).mbx = s.mbx := by
  change (fitRecords _ k).mbx = _
  rw [fitRecords_mbx]
  rfl

theorem keepsBytes_parkFree (s : State) (k : Nat) : KeepsBytes s (parkFree s k) := (keepsBytes_freePages s k).trans (keepsBytes_freeMirror ..)

/-- Code 4: a session's pages are freed here and its park record is kept. -/
theorem fwPacket_park (hs : Settled s) (h : FwFor s p) (hcode : ble p.args 0 2 = 4) : ∃ t, exec (.fwPacket p) s = .next t ∧
    (t.map (ble p.args 4 8)).present = false ∧ (t.map (ble p.args 4 8)).record = (s.map (ble p.args 4 8)).record ∧ KeepsMemory s t := by
  have hbody : fwBody s p = parkFree s (ble p.args 4 8) := by simp only [fwBody, hcode]
  obtain ⟨hexec, hleft⟩ := fwPacket_answers hs h hbody (parkFree_mbx ..)
  obtain ⟨hpresent, hrecord⟩ := map_parkFree s (ble p.args 4 8)
  refine ⟨_, hexec, ?_, ?_, (keepsBytes_parkFree ..).memory.trans hleft.memory⟩
  · rw [State.map, hleft.srv, ← State.map, hpresent]
  · rw [State.map, hleft.srv, ← State.map, hrecord]

/-- Code 5: a park record is deleted. -/
theorem fwPacket_record (hs : Settled s) (h : FwFor s p) (hcode : ble p.args 0 2 = 5) : ∃ t, exec (.fwPacket p) s = .next t ∧
    (t.map (ble p.args 4 8)).record = none ∧ KeepsMemory s t := by
  have hbody : fwBody s p = freeRecord s (ble p.args 4 8) := by simp only [fwBody, hcode]
  obtain ⟨hexec, hleft⟩ := fwPacket_answers hs h hbody (oneMap_freeRecord ..).mbx
  refine ⟨_, hexec, ?_, (keepsBytes_freeRecord ..).memory.trans hleft.memory⟩
  rw [State.map, hleft.srv, ← State.map, freeRecord, State.map_setMap_same]

end

/-- Settles O50: a record, a reflood, a resync, a packet, a CTL message and a firmware message each as the lemma about its command says. -/
theorem fabricRoutesAndFloods : Obligations.FabricRoutesAndFloods := by
  unfold Obligations.FabricRoutesAndFloods
  intro s hosc
  refine ⟨fun r hnode hown => ⟨fun o => exec_linkStateRecord_old hown, linkStateRecord_acts hnode hown⟩, recordReflood_floods hosc,
    fun n => recordAgeOut_drops, fun l a u hk => ⟨?resync, ?timeout⟩, fun p hfrom => ⟨?dropped, ?onward, fun n => packetRoute_forwards hosc hfrom⟩,
    fun hs src q b code l => ⟨exec_ctlMsg_ignored hs, ctlMsg_noted hs⟩, ?firmware⟩
  case resync =>
    intro hin
    obtain ⟨t, hexec, hleft, hsent⟩ := linkResync_resends hosc a hk hin
    obtain ⟨n, r, hlink⟩ := hleft.link l
    rw [resynced, State.link_setLink_same] at hlink
    refine ⟨t, hexec, congrArg Link.resync hlink, keepsMemory_resynced.trans hleft.memory, ?_⟩
    rintro s1 b rfl hb
    exact hsent b hb
  case timeout =>
    intro hpast
    obtain ⟨t, hexec, hrest, hmem⟩ := resyncTimeout_drops hk hpast
    have hlink (j : Nat) : t.link j = (resynced s l).link j := by
      rw [hrest]
      rfl
    have hself : t.link l = { s.link l with resync := none, replay := [] } := (hlink l).trans (State.link_setLink_same ..)
    refine ⟨t, hexec, congrArg Link.resync hself, congrArg Link.replay hself, ?_, fun j hj => (hlink j).trans (State.link_setLink_ne s _ hj), hmem⟩
    rw [hrest]
    rfl
  case dropped =>
    intro hdst hhops
    have hdrop := routeOn_dropped (s := s) hhops
    exact ⟨_, exec_packetRoute_on hfrom hdst, (congrArg (·.fab.hopDrop) hdrop :), (congrArg State.out hdrop :)⟩
  case onward =>
    intro hdst hhops hconf hnm hhop
    obtain ⟨hleft, h, hout⟩ := routeOn_leaves hosc hnm hhops hconf hhop
    exact ⟨_, _, exec_packetRoute_on hfrom hdst, hout, rfl, rfl, rfl, rfl, rfl, rfl, hleft.memory⟩
  case firmware =>
    intro hs p htype hdst hsrc hrole
    have h : FwFor s p := ⟨htype, hdst, hsrc, hrole⟩
    exact ⟨fwPacket_tenant hosc hs h, fwPacket_park hs h, fwPacket_record hs h⟩

end Sys2Proof.Machine
end

section
/-!
PROOFS of the machine's step: what a step with a command at the front of its queue does.
-/

namespace Sys2Proof.Machine

/-- Settles O1: a step is defined as the front command run on the state with the queue's rest. -/
theorem stepRunsTheFrontCommand : Obligations.StepRunsTheFrontCommand := by
  unfold Obligations.StepRunsTheFrontCommand
  exact fun _ _ _ => rfl

end Sys2Proof.Machine
end

section
/-!
PROOFS of twins, energy, power and debug: what the end of requests leaves of the package outside its serving tables. One lemma for each function it calls, so that
every command that settles its functions keeps the pair, the clocks, the power state, the boot, the meters and the debug port.
-/

namespace Sys2Proof.Machine

/-! ### The view -/

/-- A core without its slots. -/
def Core.bare (k : Core) : Core := { k with s0 := SlotSt.reset, s1 := SlotSt.reset, s2 := SlotSt.reset, s3 := SlotSt.reset }

/-- A Beside die without its write protections. -/
def BesideDie.bare (b : BesideDie) : BesideDie := { b with wp := [] }

/-- The state with what the end of requests works on blanked: serving tables, partitions, far objects, functions, accounts, and what is sent. -/
def beyondServing (s : State) : State :=
  { s with
    cores := [], beside := [], parts := [], far := Far.reset, srv := Serving.reset, out := [], mbx := { s.mbx with fns := [] }
    fab := { s.fab with pseq := 0 }, energy := { s.energy with accts := [], activity := [] } }

/-- What lasts through the end of requests: the blanked state, every core without its slots, every die without its write protections. -/
def lasting (s : State) : State × (Nat → Core) × (Nat → BesideDie) := (beyondServing s, fun c => (s.core c).bare, fun d => (s.bdie d).bare)

section

variable {s t : State}

theorem beyond_of_lasting (h : lasting t = lasting s) : beyondServing t = beyondServing s := congrArg (·.1) h

theorem core_of_lasting (h : lasting t = lasting s) (c : Nat) : (t.core c).bare = (s.core c).bare := congrFun (congrArg (·.2.1) h) c

theorem bdie_of_lasting (h : lasting t = lasting s) (d : Nat) : (t.bdie d).bare = (s.bdie d).bare := congrFun (congrArg (·.2.2) h) d

theorem aon_of_beyond (h : beyondServing t = beyondServing s) : t.aon = s.aon := congrArg (·.aon) h
theorem settings_of_beyond (h : beyondServing t = beyondServing s) : t.settings = s.settings := congrArg (·.settings) h
theorem power_of_beyond (h : beyondServing t = beyondServing s) : t.power = s.power := congrArg (·.power) h
theorem entry_of_beyond (h : beyondServing t = beyondServing s) : t.entry = s.entry := congrArg (·.entry) h
theorem twin_of_beyond (h : beyondServing t = beyondServing s) : t.twin = s.twin := congrArg (·.twin) h
theorem boot_of_beyond (h : beyondServing t = beyondServing s) : t.boot = s.boot := congrArg (·.boot) h
theorem pkg_of_beyond (h : beyondServing t = beyondServing s) : t.pkg = s.pkg := congrArg (·.pkg) h
theorem roles_of_beyond (h : beyondServing t = beyondServing s) : t.fab.roles = s.fab.roles := congrArg (·.fab.roles) h
theorem lines_of_beyond (h : beyondServing t = beyondServing s) : t.fab.lines = s.fab.lines := congrArg (·.fab.lines) h
theorem links_of_beyond (h : beyondServing t = beyondServing s) : t.fab.links = s.fab.links := congrArg (·.fab.links) h
theorem node_of_beyond (h : beyondServing t = beyondServing s) : t.fab.node = s.fab.node := congrArg (·.fab.node) h
theorem ready_of_beyond (h : beyondServing t = beyondServing s) : t.mbx.ready = s.mbx.ready := congrArg (·.mbx.ready) h
theorem resetting_of_beyond (h : beyondServing t = beyondServing s) : t.mbx.resetting = s.mbx.resetting := congrArg (·.mbx.resetting) h
theorem blocks_of_beyond (h : beyondServing t = beyondServing s) : t.energy.blocks = s.energy.blocks := congrArg (·.energy.blocks) h
theorem chain_of_beyond (h : beyondServing t = beyondServing s) (c : Nat) : t.chain c = s.chain c := congrArg (tget _ · c) (blocks_of_beyond h)

end

theorem lasting_foldl {α : Type} (g : State → α → State) (l : List α) (s : State) (h : ∀ s a, lasting (g s a) = lasting s) :
    lasting (l.foldl g s) = lasting s :=
  foldl_keeps (fun t => lasting t = lasting s) g l s rfl fun t ht a _ => (h t a).trans ht

@[simp] theorem lasting_ite {c : Prop} [Decidable c] (a b : State) : lasting (if c then a else b) = if c then lasting a else lasting b :=
  apply_ite lasting c a b

@[simp] theorem Core.bare_setSlot (k : Core) (i : Nat) (x : SlotSt) : (k.setSlot i x).bare = k.bare := by
  unfold Core.setSlot
  split <;> rfl

section

variable (s : State)

@[simp] theorem lasting_setReq (i : Nat) (x : Req) : lasting (s.setReq i x) = lasting s := rfl
@[simp] theorem lasting_setHeat (i : Nat) (x : Heat) : lasting (s.setHeat i x) = lasting s := rfl
@[simp] theorem lasting_setSess (i : Nat) (x : Session) : lasting (s.setSess i x) = lasting s := rfl
@[simp] theorem lasting_setMap (i : Nat) (x : KvMap) : lasting (s.setMap i x) = lasting s := rfl
@[simp] theorem lasting_setMirror (i : Nat) (x : KvMap) : lasting (s.setMirror i x) = lasting s := rfl
@[simp] theorem lasting_setFn (i : Nat) (x : Fn) : lasting (s.setFn i x) = lasting s := rfl
@[simp] theorem lasting_setPart (p : Nat) (x : Part) : lasting (s.setPart p x) = lasting s := rfl
@[simp] theorem lasting_setCtx (c : Nat) (x : Ctx) : lasting (s.setCtx c x) = lasting s := rfl

/-- A core replaced by one that differs in its slots alone. -/
theorem lasting_setCore {c : Nat} {k : Core} (h : k.bare = (s.core c).bare) : lasting (s.setCore c k) = lasting s := by
  refine Prod.ext rfl (Prod.ext (funext fun j => ?_) rfl)
  simp only [lasting, State.core_setCore]
  split
  · next hj => rw [hj, h]
  · rfl

@[simp] theorem lasting_setSlot (c k : Nat) (x : SlotSt) : lasting (s.setSlot c k x) = lasting s := lasting_setCore s (Core.bare_setSlot ..)

/-- A die replaced by one that differs in its write protections alone. -/
theorem lasting_setBdie {d : Nat} {b : BesideDie} (h : b.bare = (s.bdie d).bare) : lasting (s.setBdie d b) = lasting s := by
  refine Prod.ext rfl (Prod.ext rfl (funext fun j => ?_))
  simp only [lasting, State.bdie_setBdie]
  split
  · next hj => rw [hj, h]
  · rfl

@[simp] theorem lasting_emit (o : Out) : lasting (s.emit o) = lasting s := by
  unfold State.emit
  split <;> rfl

@[simp] theorem lasting_send (d : Dest) (m : FwMsg) : lasting (s.send d m) = lasting s := by
  unfold State.send
  split <;> rfl

/-! ### Events and messages -/

@[simp] theorem lasting_fireVector (fn v : Nat) : lasting (fireVector s fn v) = lasting s := by
  simp [fireVector]

@[simp] theorem lasting_interrupt (fn v : Nat) : lasting (interrupt s fn v) = lasting s := by
  simp [interrupt]

@[simp] theorem lasting_writeEvent (fn : Nat) (e : Event) (more : Bool) : lasting (writeEvent s fn e more) = lasting s := by
  simp [writeEvent, lasting_foldl]

@[simp] theorem lasting_drainBacklog (n fn : Nat) : lasting (drainBacklog n s fn) = lasting s := by
  induction n generalizing s with
  | zero => rfl
  | succ n ih =>
    unfold drainBacklog
    dsimp only
    split
    · rfl
    · simp [ih]

@[simp] theorem lasting_notify (fn type status : Nat) (payload : List Byte) : lasting (notify s fn type status payload) = lasting s := by
  simp [notify, postEvent, lasting_foldl]

@[simp] theorem lasting_postTokens (fn : Nat) (recs : List Byte) : lasting (postTokens s fn recs) = lasting s := by
  simp [postTokens]

@[simp] theorem lasting_copyLedger (i : Nat) : lasting (copyLedger s i) = lasting s := by
  unfold copyLedger
  split
  · split <;> simp
  · rfl

@[simp] theorem lasting_postDone (i : Nat) : lasting (postDone s i) = lasting s := by
  simp [postDone]

@[simp] theorem lasting_postWaiting (i lap : Nat) : lasting (postWaiting s i lap) = lasting s := by
  simp [postWaiting]

@[simp] theorem lasting_putSess (i : Nat) (x : Session) : lasting (putSess s i x) = lasting s := by
  unfold putSess
  dsimp only
  split <;> simp

/-! ### Objects, generations, adapter slots -/

@[simp] theorem lasting_unbindSlot (p i : Nat) : lasting (unbindSlot s p i) = lasting s := by
  simp [unbindSlot, setAslot]

@[simp] theorem lasting_unprotectGen (p : Nat) (g : Gen) : lasting (unprotectGen s p g) = lasting s := by
  refine lasting_foldl _ _ s fun t st => ?_
  split
  · rfl
  · exact lasting_setBdie t rfl

@[simp] theorem lasting_objFree (id : Nat) : lasting (objFree s id) = lasting s := by
  unfold objFree
  dsimp only
  split <;> rfl

@[simp] theorem lasting_freeObjects (l : List Nat) : lasting (freeObjects s l) = lasting s := lasting_foldl _ _ s lasting_objFree

@[simp] theorem lasting_freeGen (p : Nat) (g : Gen) : lasting (freeGen s p g) = lasting s := by
  simp [freeGen]

@[simp] theorem lasting_unbindGen (p model num : Nat) : lasting (unbindGen s p model num) = lasting s := by
  unfold unbindGen
  split
  · rfl
  · simp

@[simp] theorem lasting_unbindReq (r : Req) : lasting (unbindReq s r) = lasting s := by
  simp [unbindReq]

/-! ### Key-value maps and sessions -/

@[simp] theorem lasting_fitRecords (k : Nat) : lasting (fitRecords s k) = lasting s := by
  unfold fitRecords
  extract_lets m p fb need
  split
  · rfl
  · split <;> rfl

@[simp] theorem lasting_freeRecord (k : Nat) : lasting (freeRecord s k) = lasting s := by
  unfold freeRecord
  dsimp only
  split <;> simp

@[simp] theorem lasting_freePages (k : Nat) : lasting (freePages s k) = lasting s := by
  simp [freePages]

@[simp] theorem lasting_freeMirror (k : Nat) : lasting (freeMirror s k) = lasting s := rfl

@[simp] theorem lasting_freeSession (k : Nat) : lasting (freeSession s k) = lasting s := by
  unfold freeSession
  extract_lets s1 m s2
  have h1 : lasting s1 = lasting s := by simp [s1]
  clear_value s1
  exact h1

@[simp] theorem lasting_closeSession (i : Nat) : lasting (closeSession s i) = lasting s := by
  simp [closeSession, lasting_foldl]

@[simp] theorem lasting_releaseSession (r : Req) : lasting (releaseSession s r) = lasting s := by
  simp [releaseSession]

@[simp] theorem lasting_commitMap (k : Nat) (o : OutcomeMsg) : lasting (commitMap s k o) = lasting s := by
  simp [commitMap]

/-! ### Heats and requests -/

@[simp] theorem lasting_unpinHeat (id : Nat) : lasting (unpinHeat s id) = lasting s := rfl

@[simp] theorem lasting_slotStop (c k : Nat) : lasting (slotStop s c k) = lasting s := by
  simp [slotStop]

@[simp] theorem lasting_stopHeat (id : Nat) : lasting (stopHeat s id) = lasting s := by
  simp [stopHeat, lasting_foldl]

@[simp] theorem lasting_retireHeat (id : Nat) : lasting (retireHeat s id) = lasting s := by
  simp [retireHeat]

@[simp] theorem lasting_modAcct (home handle : Nat) (f : Acct → Acct) : lasting (modAcct s home handle f) = lasting s := rfl

@[simp] theorem lasting_billLap (home handle a : Nat) (accept final : Bool) : lasting (billLap s home handle a accept final) = lasting s := rfl

@[simp] theorem lasting_takeOutcome (id : Nat) (h : Heat) (r : HeatRow) (o : OutcomeMsg) : lasting (takeOutcome s id h r o) = lasting s := by
  simp [takeOutcome]

@[simp] theorem lasting_reportLap (id : Nat) : lasting (reportLap s id) = lasting s := by
  unfold reportLap
  extract_lets h homes roles s1 s2 s3 s4
  have h1 : lasting s1 = lasting s := lasting_foldl _ _ _ fun _ _ => lasting_foldl _ _ _ fun _ _ => lasting_send ..
  have h2 : lasting s2 = lasting s := by
    simp only [s2]
    split <;> simp [h1]
  have h3 : lasting s3 = lasting s := by
    simp only [s3]
    split
    · exact (lasting_foldl _ _ _ fun _ _ => lasting_send ..).trans h2
    · exact h2
  split
  · rfl
  · refine (lasting_foldl _ _ _ fun t r => ?_).trans h3
    split
    · simp
    · rfl

@[simp] theorem lasting_leaveCohort (c i : Nat) : lasting (leaveCohort s c i) = lasting s := by
  simp [leaveCohort]

@[simp] theorem lasting_leaveQueue (tenant i : Nat) : lasting (leaveQueue s tenant i) = lasting s := rfl

@[simp] theorem lasting_endOne (i status : Nat) : lasting (endOne s i status) = lasting s := by
  simp [endOne]

@[simp] theorem lasting_endHeat (id : Nat) : lasting (endHeat s id) = lasting s := by
  refine lasting_foldl _ _ _ fun t r => ?_
  split
  · simp
  · rfl

@[simp] theorem lasting_applyCancel (id epoch : Nat) : lasting (applyCancel s id epoch) = lasting s := by
  simp [applyCancel]

@[simp] theorem lasting_heatCheck (id : Nat) : lasting (heatCheck s id) = lasting s := by
  simp [heatCheck, cancelHeat]

@[simp] theorem lasting_endReq (i status : Nat) : lasting (endReq s i status) = lasting s := by
  simp [endReq]

@[simp] theorem lasting_endAll (status : Nat) (f : Req → Bool) : lasting (endAll s status f) = lasting s := by
  simp [endAll, lasting_foldl]

@[simp] theorem lasting_settle : lasting (settle s) = lasting s := by
  simp [settle, lasting_foldl]

/-! ### Laps replayed (R494) -/

@[simp] theorem lasting_undoRow (k : Nat) : lasting (undoRow s k) = lasting s := by
  simp [undoRow]

@[simp] theorem lasting_replayLap (id epoch : Nat) : lasting (replayLap s id epoch) = lasting s := by
  have hbill : ∀ (f : HeatRow → Acct → Acct) (l : List HeatRow) t, lasting (l.foldl (fun s r => modAcct s r.home r.handle (f r)) t) = lasting t :=
    fun f l t => lasting_foldl _ l t fun u r => lasting_modAcct u ..
  simp [replayLap, lasting_foldl, hbill]

@[simp] theorem lasting_orderReplay (id : Nat) : lasting (orderReplay s id) = lasting s := by
  simp [orderReplay]

end

end Sys2Proof.Machine
end

section
/-!
PROOFS of energy and power: the meters, the coefficients, the reconciliation, the shares and the receipt blocks (R497, R512 to R530). First what a receipt, a signed
block and the flush leave of the package.
-/

namespace Sys2Proof.Machine

/-! ### Receipts (R519, R526) -/

/-- Nothing but the receipt blocks differs. -/
def BlocksOnly (s t : State) : Prop := ∃ b, t = { s with energy := { s.energy with blocks := b } }

section

variable {s t u : State}

theorem BlocksOnly.refl (s : State) : BlocksOnly s s := ⟨_, rfl⟩

theorem BlocksOnly.trans (h : BlocksOnly s t) (g : BlocksOnly t u) : BlocksOnly s u := by
  obtain ⟨_, rfl⟩ := h
  obtain ⟨_, rfl⟩ := g
  exact ⟨_, rfl⟩

theorem blocksOnly_ite {c : Prop} [Decidable c] (h : BlocksOnly s t) (g : BlocksOnly s u) : BlocksOnly s (if c then t else u) := by
  split
  · exact h
  · exact g

theorem blocksOnly_foldl {α : Type} {f : State → α → State} (h : ∀ s a, BlocksOnly s (f s a)) (l : List α) (s : State) : BlocksOnly s (l.foldl f s) :=
  foldl_keeps (BlocksOnly s) f l s (.refl s) fun t ht a _ => ht.trans (h t a)

end

section

variable (s : State)

theorem blocksOnly_closeBlock (c : Nat) : BlocksOnly s (closeBlock s c) := by
  unfold closeBlock
  exact blocksOnly_ite (.refl s) ⟨_, rfl⟩

theorem blocksOnly_addReceipt (c : Nat) (bytes : List Byte) : BlocksOnly s (addReceipt s c bytes) := by
  unfold addReceipt
  exact (blocksOnly_ite (blocksOnly_closeBlock ..) (.refl s)).trans ⟨_, rfl⟩

theorem blocksOnly_trySummary (i : Nat) : BlocksOnly s (trySummary s i) := by
  unfold trySummary
  exact blocksOnly_ite (.refl s) (blocksOnly_addReceipt ..)

theorem blocksOnly_trySummaries : BlocksOnly s (trySummaries s) := blocksOnly_foldl blocksOnly_trySummary _ s

theorem chain_setChain (c j : Nat) (x : BlockChain) : (s.setChain c x).chain j = if j = c then x else s.chain j := tget_tput ..

/-- Closing a chain's open block moves its receipts, and touches no other chain. -/
theorem chain_closeBlock (c j : Nat) : (closeBlock s c).chain j = if j = c ∧ (s.chain c).openR ≠ [] then
    { s.chain c with openR := [], closedB := (s.chain c).closedB ++ [((s.chain c).openR, s.aon)] } else s.chain j := by
  unfold closeBlock
  cases hopen : (s.chain c).openR with
  | nil => simp [hopen]
  | cons r l => simp [hopen, chain_setChain]

/-! ### Signed blocks (R525, R526) -/

@[simp] theorem lasting_receiptSigned (r : Receipt) : lasting (receiptSigned s r) = lasting s := by
  unfold receiptSigned
  dsimp only
  split
  · simp
  · split
    · split <;> simp
    · rfl

/-- A chain after its first closed block is signed: the rest of its closed blocks, the next number, the signed block's hash. -/
def signedChain (s : State) (c : Nat) (l : List Receipt) (u : Nat) (rest : List (List Receipt × Nat)) : BlockChain :=
  let b := blockBytes s c l u
  { s.chain c with closedB := rest, bseq := (s.chain c).bseq + 1, prev := sha256 (b ++ bsub (Config.signature s.drawn b) 0 384) }

/-- The chain's first closed block signed and chained, before anything of it is told. -/
def signedOff (s : State) (c : Nat) (l : List Receipt) (u : Nat) (rest : List (List Receipt × Nat)) : State :=
  let s1 := (s.drew 1).setChain c (signedChain s c l u rest)
  { s1 with energy := { s1.energy with blocksSigned := s1.energy.blocksSigned + 1 } }

theorem lasting_signBlock {c : Nat} {l : List Receipt} {u : Nat} {rest : List (List Receipt × Nat)} (h : (s.chain c).closedB = (l, u) :: rest) :
    lasting (signBlock s c) = lasting (signedOff s c l u rest) := by
  unfold signBlock
  simp only [h, lasting_notify]
  exact lasting_foldl _ _ _ lasting_receiptSigned

theorem signBlock_of_none {c : Nat} (h : (s.chain c).closedB = []) : signBlock s c = s := by
  simp only [signBlock, h]

/-- A block signed leaves its chain; every other chain is left as it was. -/
theorem chain_signBlock {c : Nat} {l : List Receipt} {u : Nat} {rest : List (List Receipt × Nat)} (h : (s.chain c).closedB = (l, u) :: rest) (j : Nat) :
    (signBlock s c).chain j = (signedOff s c l u rest).chain j := chain_of_beyond (beyond_of_lasting (lasting_signBlock s h)) j

theorem chain_signedOff (c j : Nat) (l : List Receipt) (u : Nat) (rest : List (List Receipt × Nat)) :
    (signedOff s c l u rest).chain j = if j = c then signedChain s c l u rest else s.chain j := by
  unfold signedOff
  generalize signedChain s c l u rest = x
  exact chain_setChain ..

end

/-- The state without its energy account, its boot and the values drawn: what a flush leaves. -/
def unmetered (s : State) : State := { s with energy := Energy.reset, boot := Boot.reset, drawn := 0 }

section

variable {s t : State}

/-- What lasts, lasts without the meters. -/
theorem lasting_unmetered (h : lasting t = lasting s) : lasting (unmetered t) = lasting (unmetered s) :=
  congrArg (fun p : State × (Nat → Core) × (Nat → BesideDie) => (unmetered p.1, p.2)) h

theorem EnergyWork.lasting (h : EnergyWork s t) : lasting (unmetered t) = lasting (unmetered s) := by
  obtain ⟨_, _, _, rfl⟩ := h
  rfl

theorem lasting_unmetered_foldl {α : Type} (g : State → α → State) (l : List α) (s : State)
    (h : ∀ s a, lasting (unmetered (g s a)) = lasting (unmetered s)) : lasting (unmetered (l.foldl g s)) = lasting (unmetered s) :=
  foldl_keeps (fun t => lasting (unmetered t) = lasting (unmetered s)) g l s rfl fun t ht a _ => (h t a).trans ht

end

section

variable (s : State)

theorem unmetered_signedOff (c : Nat) (l : List Receipt) (u : Nat) (rest : List (List Receipt × Nat)) :
    unmetered (signedOff s c l u rest) = unmetered s := by
  unfold signedOff
  generalize signedChain s c l u rest = x
  rfl

theorem lasting_unmetered_signBlock (c : Nat) : lasting (unmetered (signBlock s c)) = lasting (unmetered s) := by
  cases h : (s.chain c).closedB with
  | nil => rw [signBlock_of_none s h]
  | cons b rest => exact (lasting_unmetered (lasting_signBlock s h)).trans (congrArg lasting (unmetered_signedOff ..))

theorem lasting_unmetered_signAll (n c : Nat) : lasting (unmetered (signAll n s c)) = lasting (unmetered s) := by
  induction n generalizing s with
  | zero => rfl
  | succ n ih =>
    unfold signAll
    split
    · rfl
    · rw [ih, lasting_unmetered_signBlock]

/-- The flush leaves every clock, the power state, the pair, the settings and the debug port. -/
theorem lasting_unmetered_flush : lasting (unmetered (flush s)) = lasting (unmetered s) := by
  unfold flush
  extract_lets s1 s2 s3
  have h1 : lasting (unmetered s1) = lasting (unmetered s) := (energyWork_reconcile s true).lasting
  have h2 : lasting (unmetered s2) = lasting (unmetered s1) := lasting_unmetered_foldl _ _ _ fun t c =>
    (lasting_unmetered_signAll ..).trans (energyWork_closeBlock t c).lasting
  have h3 : EnergyWork s2 s3 := energyWork_bootRecord ..
  exact ((h3.trans (u := { s3 with energy := { s3.energy with openMark := false } }) ⟨_, _, _, rfl⟩).lasting).trans (h2.trans h1)

/-! ### The flush signs every block (R527) -/

/-- Nothing of a chain waits to be closed or signed. -/
def ChainEmpty (s : State) (c : Nat) : Prop := (s.chain c).openR = [] ∧ (s.chain c).closedB = []

/-- Signing every closed block of a chain leaves none, and leaves its open block and every other chain. -/
theorem chain_signAll {c : Nat} (n : Nat) (hn : (s.chain c).closedB.length ≤ n) :
    ((signAll n s c).chain c).closedB = [] ∧ ((signAll n s c).chain c).openR = (s.chain c).openR ∧ ∀ j, j ≠ c → (signAll n s c).chain j = s.chain j := by
  induction n generalizing s with
  | zero => exact ⟨List.length_eq_zero_iff.1 (Nat.le_zero.1 hn), rfl, fun _ _ => rfl⟩
  | succ n ih =>
    unfold signAll
    cases h : (s.chain c).closedB with
    | nil => exact ⟨by simp [h], by simp, fun _ _ => by simp⟩
    | cons b rest =>
      obtain ⟨l, u⟩ := b
      have hsigned := fun j => (chain_signBlock s h j).trans (chain_signedOff s c j l u rest)
      have hchain : (signBlock s c).chain c = signedChain s c l u rest := (hsigned c).trans (if_pos rfl)
      have hrest : ((signBlock s c).chain c).closedB = rest := congrArg BlockChain.closedB hchain
      have hopenR : ((signBlock s c).chain c).openR = (s.chain c).openR := by rw [hchain, signedChain]
      rw [h, List.length_cons] at hn
      obtain ⟨hclosed, hopen, hothers⟩ := ih (signBlock s c) (by rw [hrest]; omega)
      refine ⟨hclosed, hopen.trans hopenR, fun j hj => (hothers j hj).trans (by rw [hsigned, if_neg hj])⟩

/-- One chain of the flush: its open block closed, every block of it signed. -/
def drainChain (s : State) (c : Nat) : State := signAll ((closeBlock s c).chain c).closedB.length (closeBlock s c) c

theorem chainEmpty_drainChain (c : Nat) : ChainEmpty (drainChain s c) c := by
  obtain ⟨hclosed, hopen, _⟩ := chain_signAll (closeBlock s c) _ (Nat.le_refl _)
  refine ⟨hopen.trans ?_, hclosed⟩
  rw [chain_closeBlock]
  split
  · rfl
  · next h => exact not_not.1 fun hne => h ⟨rfl, hne⟩

theorem chainEmpty_drainChain_of {j : Nat} (h : ChainEmpty s j) (c : Nat) : ChainEmpty (drainChain s c) j := by
  by_cases hj : j = c
  · rw [hj]
    exact chainEmpty_drainChain s c
  · have hsame : (drainChain s c).chain j = s.chain j := by
      rw [drainChain, (chain_signAll (closeBlock s c) _ (Nat.le_refl _)).2.2 j hj, chain_closeBlock, if_neg (fun h => hj h.1)]
    rwa [ChainEmpty, hsame]

/-- Every chain drained in turn is empty at the end. -/
theorem chainEmpty_foldl {l : List Nat} {c : Nat} (h : c ∈ l ∨ ChainEmpty s c) : ChainEmpty (l.foldl drainChain s) c := by
  induction l generalizing s with
  | nil => exact h.resolve_left List.not_mem_nil
  | cons a l ih =>
    refine ih (drainChain s a) ?_
    rcases h with h | h
    · rcases List.mem_cons.1 h with rfl | h
      · exact .inr (chainEmpty_drainChain s c)
      · exact .inl h
    · exact .inr (chainEmpty_drainChain_of s h a)

theorem energy_bootMark (kind : Nat) : (bootMark s kind).energy = s.energy := by
  unfold bootMark bootRecord
  dsimp only
  split <;> rfl

theorem openMark_flush : (flush s).energy.openMark = false := rfl

theorem blocks_flush : (flush s).energy.blocks = ((List.range 17).foldl drainChain (reconcile s true)).energy.blocks := by
  unfold flush drainChain
  generalize reconcile s true = u
  simp only [energy_bootMark]

theorem chainEmpty_flush {c : Nat} (hc : c < 17) : ChainEmpty (flush s) c := by
  have hdrained : ChainEmpty ((List.range 17).foldl drainChain (reconcile s true)) c := chainEmpty_foldl _ (.inl (List.mem_range.2 hc))
  have hsame : (flush s).chain c = ((List.range 17).foldl drainChain (reconcile s true)).chain c := congrArg (tget _ · c) (blocks_flush s)
  rwa [ChainEmpty, hsame]

end

end Sys2Proof.Machine
end

section
/-!
PROOFS of energy and power: METER_SAMPLE, COEF_REFIT, RECONCILE, SHARE_OPEN, SHARE_SIGNED, BLOCK_CLOSE and BLOCK_SIGNED (R497, R512 to R530).
-/

namespace Sys2Proof.Machine

/-- A list read past its end gives the default. -/
theorem nth_eq_getD {α : Type} (d : α) (l : List α) (i : Nat) : nth d l i = l[i]?.getD d := by
  induction l generalizing i with
  | nil => rfl
  | cons x r ih => cases i with
    | zero => rfl
    | succ i => exact ih i

theorem nth_map_range {α : Type} (d : α) (f : Nat → α) {n i : Nat} (h : i < n) : nth d ((List.range n).map f) i = f i := by
  simp [nth_eq_getD, h]

section

variable {s : State}

/-! ### The meters (R512, R515, R530) -/

/-- The counters and the mean after a sample. -/
def meteredSample (e : Energy) (uj mw vin : Nat) (stages : List Nat) : Energy :=
  let samples := (e.samples ++ [mw]).drop (e.samples.length + 1 - 100)
  { e with
    inputUj := e.inputUj + uj
    stageUj := (List.range 64).map fun i => nth 0 e.stageUj i + nth 0 stages i
    samples := samples, powerMw := samples.foldl (· + ·) 0 / samples.length, vin := vin }

/-- The Field clock after a sample above 1.2 times CAP_W. -/
def tripped (p : Power) : Power :=
  { p with freq := max 1000 (p.freq - 100), fastLimit := max 1000 (p.freq - 100), limit := 3, fastTrips := p.fastTrips + 1 }

theorem meterSample_eq (hosc : s.entry.oscDead = false) (uj mw vin : Nat) (stages : List Nat) : exec (.meterSample uj mw vin stages) s = .next
    { s with
      energy := meteredSample s.energy uj mw vin stages
      power := if 1200 * s.cfg 0x0A01 < mw ∧ s.power.fieldOn = true then tripped s.power else s.power } := by
  refine congrArg Host.Outcome.next ((if_neg (by simp [hosc])).trans ?_)
  split <;> rfl

theorem meterSample_meters (hosc : s.entry.oscDead = false) (uj mw vin : Nat) (stages : List Nat) :
    ∃ t, exec (.meterSample uj mw vin stages) s = .next t ∧ t = { s with energy := t.energy, power := t.power } ∧
      t.energy.inputUj = s.energy.inputUj + uj ∧ (∀ i, i < 64 → nth 0 t.energy.stageUj i = nth 0 s.energy.stageUj i + nth 0 stages i) ∧
      t.energy.vin = vin ∧ t.energy.samples = (s.energy.samples ++ [mw]).drop (s.energy.samples.length + 1 - 100) ∧
      t.energy.powerMw = t.energy.samples.foldl (· + ·) 0 / t.energy.samples.length ∧ t.energy.accts = s.energy.accts ∧
      (1200 * s.cfg 0x0A01 < mw → s.power.fieldOn = true → t.power.freq = max 1000 (s.power.freq - 100) ∧ t.power.fastLimit = t.power.freq ∧
        t.power.limit = 3 ∧ t.power.fastTrips = s.power.fastTrips + 1) ∧
      (mw ≤ 1200 * s.cfg 0x0A01 → t.power = s.power) := by
  refine ⟨_, meterSample_eq hosc uj mw vin stages, rfl, rfl, fun i hi => nth_map_range _ _ hi, rfl, rfl, rfl, rfl, fun hover hon => ?_, fun hunder => ?_⟩
  · simp only [hover, hon, and_self, if_true]
    exact ⟨rfl, rfl, rfl, rfl⟩
  · exact if_neg fun h => absurd h.1 (not_lt.2 hunder)

theorem coefRefit_fits (fit : Option (List Nat)) :
    (s.aon < s.energy.refitAt + 4000000 → exec (.coefRefit fit) s = .next s) ∧
      (s.energy.refitAt + 4000000 ≤ s.aon → ∃ t, exec (.coefRefit fit) s = .next t ∧ t = { s with energy := t.energy } ∧ t.energy.refitAt = s.aon ∧
        t.energy.coefs = s.energy.coefs ∧ t.energy.dataSecs = min 64 (s.energy.dataSecs + 1) ∧
        (∀ l, fit = some l → coefsOk l = true → 16 ≤ s.energy.dataSecs + 1 → t.energy.coefNext = some l) ∧
        ((∀ l, fit = some l → coefsOk l = false ∨ s.energy.dataSecs + 1 < 16) → t.energy.coefNext = s.energy.coefNext)) := by
  refine ⟨fun h => congrArg Host.Outcome.next (if_pos h), fun h => ⟨_, congrArg Host.Outcome.next (if_neg (not_lt.2 h)), rfl, rfl, rfl, rfl, ?_, ?_⟩⟩
  · rintro l rfl hok hdata
    exact if_pos ⟨hok, hdata⟩
  · intro hbad
    cases fit with
    | none => rfl
    | some l =>
      refine if_neg fun h => ?_
      rcases hbad l rfl with hok | hdata
      · exact absurd h.1 (by simp [hok])
      · exact absurd h.2 (not_le.2 hdata)

/-! ### The reconciliation (R513 to R517) -/

theorem proxyShares_of_own (h : s.twin.state ≠ .single ∨ s.energy.mirrored = []) : proxyShares s = s := by
  by_cases hsingle : s.twin.state = .single
  · have hnone := h.resolve_left (not_not.2 hsingle)
    simp only [proxyShares, hsingle, hnone, bne_self_eq_false, Bool.false_eq_true, if_false, List.foldl_nil]
    rw [← hnone]
  · exact if_pos (by simpa using hsingle)

/-- A survivor signs its lost twin's shares: receipts, and no account. -/
theorem proxyShares_of_single (h : s.twin.state = .single) : ∃ b, proxyShares s = { s with energy := { s.energy with blocks := b, mirrored := [] } } := by
  unfold proxyShares
  rw [if_neg (by simp [h])]
  extract_lets s1 e1
  obtain ⟨b, hb⟩ : BlocksOnly s s1 := blocksOnly_foldl (fun t a => blocksOnly_addReceipt t a.part _) s.energy.mirrored s
  exact ⟨b, by rw [show e1 = s1.energy from rfl, hb]⟩

/-- Accounts gone through in turn, each left or with its span begun again, while receipts enter the blocks. -/
theorem foldl_accounts {f : State × List Acct → Acct → State × List Acct}
    (hf : ∀ p a, BlocksOnly p.1 (f p a).1 ∧ ∃ b, (f p a).2 = p.2 ++ [b] ∧ b.acts = a.acts) (l : List Acct) (p : State × List Acct) :
    BlocksOnly p.1 (l.foldl f p).1 ∧ (l.foldl f p).2.map (·.acts) = p.2.map (·.acts) ++ l.map (·.acts) := by
  induction l generalizing p with
  | nil => exact ⟨.refl _, by simp⟩
  | cons a l ih =>
    obtain ⟨hblocks, b, hlist, hacts⟩ := hf p a
    obtain ⟨ihblocks, ihlist⟩ := ih (f p a)
    exact ⟨hblocks.trans ihblocks, ihlist.trans (by simp [hlist, hacts])⟩

/-- The shares that close leave everything but the receipt blocks and the accounts, of which none is lost or charged. -/
theorem closeShares_eq (s : State) (begin_ : Nat) (cut : Bool) :
    ∃ b l, closeShares s begin_ cut = { s with energy := { s.energy with blocks := b, accts := l } } ∧ l.map (·.acts) = s.energy.accts.map (·.acts) := by
  unfold closeShares
  extract_lets r
  obtain ⟨⟨b, hb⟩, hl⟩ : BlocksOnly s r.1 ∧ r.2.map (·.acts) = [] ++ s.energy.accts.map (·.acts) := by
    refine foldl_accounts (fun p a => ?_) s.energy.accts (s, [])
    split
    · exact ⟨blocksOnly_addReceipt .., _, rfl, rfl⟩
    · exact ⟨.refl _, _, rfl, rfl⟩
  exact ⟨b, r.2, congrArg (fun t : State => { t with energy := { t.energy with accts := r.2 } }) hb, hl⟩

/-- The overhead account begins again, and its receipt enters a block. -/
theorem closeOverhead_eq (s : State) (cut : Bool) : ∃ b p, closeOverhead s cut = { s with energy := { s.energy with
    blocks := b, ovMeasured := 0, ovRequests := 0, ovAccount := 0, ovSeq := s.energy.ovSeq + 1, ovPrev := p, ovAt := s.aon, ovActive := [] } } := by
  unfold closeOverhead
  extract_lets bytes s1
  obtain ⟨b, hb⟩ : BlocksOnly s s1 := blocksOnly_addReceipt s 16 bytes
  clear_value s1
  subst hb
  exact ⟨b, _, rfl⟩

theorem openMark_eq (s : State) : ∃ b, openMark s = { s with boot := b, energy := { s.energy with openMark := true } } := by
  unfold openMark
  split
  · next h => exact ⟨s.boot, by rw [← h]⟩
  · unfold bootMark bootRecord
    dsimp only
    split <;> exact ⟨_, rfl⟩

/-- The meters after an interval, whatever its receipts: what it measured is billed once, the overhead's span ended or not. -/
structure Billed (s : State) (e : Energy) : Prop where
  interval : e.intervalAt = s.aon ∧ e.intervalUj = s.energy.inputUj
  coefs : e.activity = [] ∧ e.coefs = s.energy.coefNext.getD s.energy.coefs ∧ e.coefNext = none ∧
    e.coefSeq = s.energy.coefSeq + (if s.energy.coefNext.isSome then 1 else 0)
  opened : e.openMark = true
  accts : e.accts.map (·.acts) = s.energy.accts.map fun _ => []
  going : s.aon < s.energy.ovAt + msAon (s.cfg 0x0A07) → e.ovMeasured = s.energy.ovMeasured + (s.energy.inputUj - s.energy.intervalUj) ∧
    e.ovRequests + e.ovAccount = s.energy.ovRequests + s.energy.ovAccount + ((s.energy.inputUj - s.energy.intervalUj : Nat) : Int)
  ended : s.energy.ovAt + msAon (s.cfg 0x0A07) ≤ s.aon → e.ovMeasured = 0 ∧ e.ovRequests = 0 ∧ e.ovAccount = 0 ∧ e.ovSeq = s.energy.ovSeq + 1 ∧
    e.ovAt = s.aon

theorem Billed.length {e : Energy} (h : Billed s e) : e.accts.length = s.energy.accts.length := by
  simpa using congrArg List.length h.accts

theorem Billed.uncharged {e : Energy} (h : Billed s e) : ∀ a ∈ e.accts, a.acts = [] := by
  intro a ha
  have hmem : a.acts ∈ s.energy.accts.map fun _ => ([] : Tab Nat) := h.accts ▸ List.mem_map_of_mem ha
  obtain ⟨_, _, h⟩ := List.mem_map.1 hmem
  exact h.symm

/-- A reconciliation with a request active: its own charges, the shares that are due, the overhead receipt where its span is over, the summaries. -/
theorem reconcile_bills (hactive : s.energy.accts.any (activeAcct s) = true) :
    ∃ e b, reconcile s false = { s with energy := e, boot := b, drawn := s.drawn + 1 } ∧ Billed s e := by
  unfold reconcile
  extract_lets v s0 e meas mo total resid r given active begin_ s1 src e1 s2 s3
  have hany : active.isEmpty = false := by
    obtain ⟨a, ha, hact⟩ := List.any_eq_true.1 hactive
    have hmem : (a.home, a.handle) ∈ active := List.mem_map_of_mem (List.mem_filter.2 ⟨ha, hact⟩)
    simpa using List.ne_nil_of_mem hmem
  obtain ⟨b, h1⟩ : ∃ b, s1 = { s0 with boot := b, energy := { s0.energy with openMark := true } } := by
    rw [show s1 = openMark s0 from if_neg (by simp [hany])]
    exact openMark_eq s0
  obtain ⟨bl, l, h2, hl⟩ : ∃ bl l, s2 = { s1 with energy := { e1 with blocks := bl, accts := l } } ∧ l.map (·.acts) = e1.accts.map (·.acts) :=
    closeShares_eq { s1 with energy := e1 } begin_ false
  have hacts : l.map (·.acts) = s.energy.accts.map fun _ => [] := by
    rw [hl]
    simp only [e1, r, List.map_map]
    rfl
  have hsum : s.energy.ovRequests + ((total : Nat) + given) + (s.energy.ovAccount + ((mo : Int) + resid - given)) =
      s.energy.ovRequests + s.energy.ovAccount + (meas : Int) := by simp only [resid]; ring
  obtain ⟨_, h4⟩ := blocksOnly_trySummaries s3
  rw [h4]
  clear_value resid given total mo
  by_cases hdue : s.energy.ovAt + msAon (s.cfg 0x0A07) ≤ s.aon
  · obtain ⟨_, _, h3⟩ := closeOverhead_eq s2 false
    replace h3 := (show s3 = closeOverhead s2 false from if_pos (.inr hdue)).trans h3
    clear_value s3 s2 s1
    subst h3 h2 h1
    exact ⟨_, _, rfl, ⟨rfl, rfl⟩, ⟨rfl, rfl, rfl, rfl⟩, rfl, hacts, fun h => absurd hdue (not_le.2 h), fun _ => ⟨rfl, rfl, rfl, rfl, rfl⟩⟩
  · have h3 : s3 = s2 := if_neg fun h => hdue (h.resolve_left Bool.false_ne_true)
    clear_value s3 s2 s1
    subst h3 h2 h1
    exact ⟨_, _, rfl, ⟨rfl, rfl⟩, ⟨rfl, rfl, rfl, rfl⟩, rfl, hacts, fun _ => ⟨rfl, hsum⟩, fun h => absurd h hdue⟩

theorem execReconcile_of_own (h : s.twin.state ≠ .single ∨ s.energy.mirrored = []) : exec .reconcile s = .next
    (if s.aon < s.energy.intervalAt + msAon 1 then s else if s.energy.accts.any (activeAcct s) then reconcile s false else s) := by
  refine congrArg Host.Outcome.next ?_
  rw [proxyShares_of_own h]

/-- Nothing is reconciled before the interval's end: a survivor's shares alone. -/
theorem execReconcile_of_single (h : s.twin.state = .single) (hearly : s.aon < s.energy.intervalAt + msAon 1) :
    ∃ b, exec .reconcile s = .next { s with energy := { s.energy with blocks := b, mirrored := [] } } := by
  obtain ⟨b, hb⟩ := proxyShares_of_single h
  refine ⟨b, congrArg Host.Outcome.next ?_⟩
  rw [hb]
  exact if_pos hearly

/-! ### Shares (R482, R520, R521) -/

theorem shareOpen_opens {h i : Nat} (hi : reqIdx s h = some i) (sub : Nat) :
    (s.energy.chains.any (fun c => c.handle == h && c.subject == sub) = false → exec (.shareOpen (s.req i).home h sub) s =
      .next { s with energy := { s.energy with chains := s.energy.chains ++ [⟨h, sub, 0, false, 0, 0, 0, 0⟩] } }) ∧
    (s.energy.chains.any (fun c => c.handle == h && c.subject == sub) = true → exec (.shareOpen (s.req i).home h sub) s = .next s) := by
  have hrun : exec (.shareOpen (s.req i).home h sub) s = .next
      (if (s.req i).home ≠ (s.req i).home ∨ s.energy.chains.any (fun c => c.handle == h && c.subject == sub) = true then s
      else { s with energy := { s.energy with chains := s.energy.chains ++ [⟨h, sub, 0, false, 0, 0, 0, 0⟩] } }) := by
    refine congrArg Host.Outcome.next ?_
    rw [hi]
  rw [hrun]
  exact ⟨fun hno => congrArg Host.Outcome.next (if_neg (by simp [hno])), fun hyes => congrArg Host.Outcome.next (if_pos (.inr hyes))⟩

/-- Nothing but the chains differs, and the share's chain carries its hash. -/
theorem noteShare_keeps_hash (s : State) (m : ShareMsg) : ∃ l, noteShare s m = { s with energy := { s.energy with chains := l } } ∧
    ∃ c ∈ l, c.handle = m.handle ∧ c.subject = m.subject ∧ c.lastHash = m.hash ∧ (m.final = true → m.late = false → c.final = true) := by
  unfold noteShare
  extract_lets mine c n known
  have hc : c.handle = m.handle ∧ c.subject = m.subject := by
    cases hfind : s.energy.chains.find? mine with
    | none => simp [c, hfind]
    | some x => simpa [c, hfind, mine] using List.find?_some hfind
  have hn : n.handle = m.handle ∧ n.subject = m.subject ∧ n.lastHash = m.hash ∧ (m.final = true → m.late = false → n.final = true) := by
    cases hlate : m.late <;> simp [n, hlate, hc]
    intro hfinal
    simp [hfinal]
  refine ⟨_, rfl, n, ?_, hn⟩
  split
  · next hany =>
    obtain ⟨x, hx, hmine⟩ := List.any_eq_true.1 hany
    exact List.mem_map.2 ⟨x, hx, if_pos hmine⟩
  · exact List.mem_append_right _ (List.mem_singleton_self n)

/-- A request with a signed share's energies added. -/
def addShare (r : Req) (m : ShareMsg) : Req :=
  { r with ePrefill := r.ePrefill + m.ePrefill, eDecode := r.eDecode + m.eDecode, eSpec := r.eSpec + m.eSpec, eResid := r.eResid + m.eResid }

/-- A share noted: its chain, and its energies unless LATE. -/
def noted (s : State) (m : ShareMsg) (i : Nat) : State := if m.late then noteShare s m else (noteShare s m).setReq i (addShare (s.req i) m)

/-- The copy of a share for the twin. -/
def shareCopied (s : State) (m : ShareMsg) : State :=
  match mirrors s, s.twinNode with
  | true, some t => s.send (.node t) (.shareCopy m)
  | _, _ => s

theorem sendWork_shareCopied (m : ShareMsg) : SendWork s (shareCopied s m) := by
  unfold shareCopied
  split
  · exact sendWork_send ..
  · exact .refl s

theorem tells_shareCopied (hosc : s.entry.oscDead = false) (m : ShareMsg) (hm : mirrors s = true) {n : Nat} (hn : s.twinNode = some n) :
    Tells (shareCopied s m) (.node n) (.shareCopy m) := by
  simp only [shareCopied, hm, hn]
  exact tells_send hosc ..

theorem shareSigned_eq {m : ShareMsg} {i : Nat} (hi : reqIdx s m.handle = some i) :
    exec (.shareSigned m) s = .next (trySummary (shareCopied (noted s m i) m) i) := by
  refine congrArg Host.Outcome.next ?_
  rw [hi]
  rfl

theorem energy_shareCopied (m : ShareMsg) : (shareCopied s m).energy = s.energy := by
  unfold shareCopied
  split
  · exact State.send_energy ..
  · rfl

theorem SendWork.req {t : State} (h : SendWork s t) (j : Nat) : t.req j = s.req j := by
  obtain ⟨_, _, _, rfl⟩ := h
  rfl

theorem BlocksOnly.req {t : State} (h : BlocksOnly s t) (j : Nat) : t.req j = s.req j := by
  obtain ⟨_, rfl⟩ := h
  rfl

theorem req_noted (m : ShareMsg) (i j : Nat) : (noted s m i).req j = if j = i ∧ m.late = false then addShare (s.req i) m else s.req j := by
  obtain ⟨_, hnote, _⟩ := noteShare_keeps_hash s m
  unfold noted
  rw [hnote]
  cases m.late with
  | true => simp; rfl
  | false => simp [State.req_setReq]; rfl

theorem noted_eq (m : ShareMsg) (i : Nat) : ∃ l v, noted s m i = { s with energy := { s.energy with chains := l }, srv := v } ∧
    ∃ c ∈ l, c.handle = m.handle ∧ c.subject = m.subject ∧ c.lastHash = m.hash ∧ (m.final = true → m.late = false → c.final = true) := by
  obtain ⟨l, hnote, hl⟩ := noteShare_keeps_hash s m
  unfold noted
  rw [hnote]
  split
  · exact ⟨l, s.srv, rfl, hl⟩
  · exact ⟨l, _, rfl, hl⟩

theorem shareSigned_notes (hosc : s.entry.oscDead = false) (m : ShareMsg) {i : Nat} (hi : reqIdx s m.handle = some i) :
    ∃ t, exec (.shareSigned m) s = .next t ∧
      t = { s with energy := t.energy, srv := t.srv, fab := t.fab, out := t.out } ∧
      (∃ c ∈ t.energy.chains, c.handle = m.handle ∧ c.subject = m.subject ∧ c.lastHash = m.hash ∧ (m.final = true → m.late = false → c.final = true)) ∧
      (m.late = false → (t.req i).ePrefill = (s.req i).ePrefill + m.ePrefill ∧ (t.req i).eDecode = (s.req i).eDecode + m.eDecode ∧
        (t.req i).eSpec = (s.req i).eSpec + m.eSpec ∧ (t.req i).eResid = (s.req i).eResid + m.eResid) ∧
      (m.late = true → t.req i = s.req i) ∧ (∀ j, j ≠ i → t.req j = s.req j) ∧
      (mirrors s = true → ∀ n, s.twinNode = some n → Tells t (.node n) (.shareCopy m)) := by
  have hblocks := blocksOnly_trySummary (shareCopied (noted s m i) m) i
  have hsend : SendWork (noted s m i) (shareCopied (noted s m i) m) := sendWork_shareCopied m
  have henergy := energy_shareCopied (s := noted s m i) m
  obtain ⟨l, v, hnoted, hl⟩ := noted_eq (s := s) m i
  refine ⟨_, shareSigned_eq hi, ?_⟩
  have hreq : ∀ j, (trySummary (shareCopied (noted s m i) m) i).req j = if j = i ∧ m.late = false then addShare (s.req i) m else s.req j :=
    fun j => by rw [hblocks.req, hsend.req, req_noted]
  refine ⟨?_, ?_, fun hlate => ?_, fun hlate => ?_, fun j hj => ?_, fun hm n hn => ?_⟩
  · obtain ⟨_, hb⟩ := hblocks
    obtain ⟨_, _, _, hs⟩ := hsend
    rw [hb, hs, hnoted]
  · obtain ⟨_, hb⟩ := hblocks
    rw [hb]
    rw [hnoted] at henergy
    rw [hnoted, henergy]
    exact hl
  · rw [hreq, if_pos ⟨rfl, hlate⟩]
    exact ⟨rfl, rfl, rfl, rfl⟩
  · rw [hreq, if_neg (by simp [hlate])]
  · rw [hreq, if_neg fun h => hj h.1]
  · have htell : Tells (shareCopied (noted s m i) m) (.node n) (.shareCopy m) := tells_shareCopied (by rw [hnoted, hosc]) m (by rw [hnoted]; exact hm) (by rw [hnoted]; exact hn)
    obtain ⟨_, hb⟩ := hblocks
    rw [hb]
    exact htell

/-! ### Blocks (R525, R526) -/

theorem blockClose_closes {c : Nat} {r : Receipt} {l : List Receipt} (hopen : (s.chain c).openR = r :: l)
    (hdue : 256 ≤ (r :: l).length ∨ r.closedAt + msAon (s.cfg 0x0A06) ≤ s.aon) : ∃ t, exec (.blockClose c) s = .next t ∧
      (t.chain c).openR = [] ∧ (t.chain c).closedB = (s.chain c).closedB ++ [(r :: l, s.aon)] ∧ (t.chain c).bseq = (s.chain c).bseq ∧
      (t.chain c).prev = (s.chain c).prev ∧ (∀ j, j ≠ c → t.chain j = s.chain j) ∧ t = { s with energy := t.energy } := by
  have hrun : exec (.blockClose c) s = .next (closeBlock s c) := by
    refine congrArg Host.Outcome.next ?_
    simp only [hopen]
    exact if_pos hdue
  have hchain := chain_closeBlock s c c
  rw [if_pos ⟨rfl, by simp [hopen]⟩, hopen] at hchain
  obtain ⟨_, hb⟩ := blocksOnly_closeBlock s c
  refine ⟨_, hrun, by rw [hchain], by rw [hchain], by rw [hchain], by rw [hchain], fun j hj => ?_, by rw [hb]⟩
  rw [chain_closeBlock, if_neg fun h => hj h.1]

theorem blockClose_of_empty {c : Nat} (hopen : (s.chain c).openR = []) : exec (.blockClose c) s = .next s := by
  refine congrArg Host.Outcome.next ?_
  simp only [hopen]

theorem blocksSigned_signedOff (s : State) (c : Nat) (l : List Receipt) (u : Nat) (rest : List (List Receipt × Nat)) :
    (signedOff s c l u rest).energy.blocksSigned = s.energy.blocksSigned + 1 := by
  unfold signedOff
  generalize signedChain s c l u rest = x
  rfl

theorem blocksSigned_of_beyond {t : State} (h : beyondServing t = beyondServing s) : t.energy.blocksSigned = s.energy.blocksSigned :=
  congrArg (·.energy.blocksSigned) h

theorem blockSigned_signs {c u w : Nat} {l : List Receipt} {rest : List (List Receipt × Nat)} (hclosed : (s.chain c).closedB = (l, u) :: rest)
    (hw : oldestOf (s.chain c) = some w) (hfirst : ∀ e ∈ s.energy.blocks, ∀ x, oldestOf e.2 = some x → w ≤ x) :
    ∃ t, exec (.blockSigned c) s = .next t ∧ (t.chain c).closedB = rest ∧
      (t.chain c).bseq = (s.chain c).bseq + 1 ∧ t.energy.blocksSigned = s.energy.blocksSigned + 1 ∧
      (t.chain c).prev = sha256 (blockBytes s c l u ++ bsub (Config.signature s.drawn (blockBytes s c l u)) 0 384) ∧
      (∀ j, j ≠ c → t.chain j = s.chain j) ∧ KeepsMemory s t := by
  have hall : (s.energy.blocks.all fun e => match oldestOf e.2 with | some u => decide (w ≤ u) | none => true) = true := by
    refine List.all_eq_true.2 fun e he => ?_
    split
    · next x hx => exact decide_eq_true (hfirst e he x hx)
    · rfl
  have hrun : exec (.blockSigned c) s = .next (settle (signBlock s c)) := by
    refine congrArg (fun t => Host.Outcome.next (settle t)) ?_
    simp only [hw]
    exact if_pos hall
  have hbeyond := beyond_of_lasting ((lasting_settle (signBlock s c)).trans (lasting_signBlock s hclosed))
  have hchain := fun j => (chain_of_beyond hbeyond j).trans (chain_signedOff s c j l u rest)
  have hown : (settle (signBlock s c)).chain c = signedChain s c l u rest := (hchain c).trans (if_pos rfl)
  refine ⟨_, hrun, by rw [hown, signedChain], by rw [hown, signedChain], ?_, by rw [hown, signedChain], fun j hj => ?_, ?_⟩
  · rw [blocksSigned_of_beyond hbeyond, blocksSigned_signedOff]
  · rw [hchain, if_neg hj]
  · exact ((woundUp_signBlock s c).trans (woundUp_settle _)).bytes.memory

theorem blockSigned_waits {c w : Nat} (hs : Settled s) (hw : oldestOf (s.chain c) = some w)
    (hlater : ∃ e ∈ s.energy.blocks, ∃ x, oldestOf e.2 = some x ∧ x < w) : exec (.blockSigned c) s = .next s := by
  obtain ⟨e, he, x, hx, hlt⟩ := hlater
  have hrun : exec (.blockSigned c) s = .next (settle s) := by
    refine congrArg (fun t => Host.Outcome.next (settle t)) ?_
    simp only [hw]
    refine if_neg fun hall => ?_
    have hthis := List.all_eq_true.1 hall e he
    rw [hx] at hthis
    exact absurd (of_decide_eq_true hthis) (not_le.2 hlt)
  rw [hrun, settle_of_settled hs rfl]

end

/-- Settles O54, one lemma for each command. -/
theorem energyIsMeteredSharedAndSigned : Obligations.EnergyIsMeteredSharedAndSigned := by
  unfold Obligations.EnergyIsMeteredSharedAndSigned
  refine fun s hosc => ⟨meterSample_meters hosc, coefRefit_fits, fun hsingle hearly => ?_, fun hown => ?_,
    fun _ sub _ hi => shareOpen_opens hi sub, fun m _ => shareSigned_notes hosc m, fun _ => ⟨fun _ _ => blockClose_closes, blockClose_of_empty⟩,
    fun hs _ _ _ _ _ hclosed hw => ⟨blockSigned_signs hclosed hw, blockSigned_waits hs hw⟩⟩
  · obtain ⟨_, hrun⟩ := execReconcile_of_single hsingle hearly
    exact ⟨_, hrun, rfl, rfl, rfl⟩
  · rw [execReconcile_of_own hown]
    refine ⟨fun hidle => ?_, fun hover hactive => ?_⟩
    · rcases hidle with hearly | hidle
      · rw [if_pos hearly]
      · simp [hidle]
    · obtain ⟨_, _, hrun, hbilled⟩ := reconcile_bills hactive
      rw [if_neg (not_lt.2 hover), if_pos hactive, hrun]
      obtain ⟨hcleared, hcoefs, hnext, hseq⟩ := hbilled.coefs
      exact ⟨_, rfl, rfl, hbilled.interval.1, hbilled.interval.2, hcleared, hcoefs, hnext, hseq, hbilled.opened, hbilled.length, hbilled.uncharged,
        hbilled.going, hbilled.ended⟩

end Sys2Proof.Machine
end

section
/-!
PROOFS of energy and power: the governor, the frequency domain, the choice of a power state, the domain's agreement on it and waking (R529 to R541, R590).
-/

namespace Sys2Proof.Machine

section

variable {s t : State} (h : lasting (unmetered t) = lasting (unmetered s))

include h

theorem aon_of_unmetered : t.aon = s.aon := congrArg (·.1.aon) h
theorem power_of_unmetered : t.power = s.power := congrArg (·.1.power) h
theorem entry_of_unmetered : t.entry = s.entry := congrArg (·.1.entry) h
theorem twin_of_unmetered : t.twin = s.twin := congrArg (·.1.twin) h
theorem pkg_of_unmetered : t.pkg = s.pkg := congrArg (·.1.pkg) h

end

/-! ### What a flood, an event and a lapsed readiness leave -/

section

variable (s : State)

@[simp] theorem flood_power : (flood s).power = s.power := State.send_power ..
@[simp] theorem flood_energy : (flood s).energy = s.energy := State.send_energy ..
@[simp] theorem flood_twin : (flood s).twin = s.twin := State.send_twin ..

theorem sendWork_flood : SendWork s (flood s) := SendWork.trans ⟨_, s.energy, [], by rw [List.append_nil]⟩ (sendWork_send ..)

theorem lasting_powerEvent (src dst : Nat) : lasting (powerEvent s src dst) = lasting s := lasting_notify ..

theorem keepsBytes_powerEvent (src dst : Nat) : KeepsBytes s (powerEvent s src dst) := keepsBytes_notify ..

/-- A power state written over keeps every byte. -/
theorem keepsBytes_power (p : Power) : KeepsBytes s { s with power := p } := keepsBytes_same rfl rfl rfl

/-- A readiness taken back. -/
theorem lapseReady_power : (lapseReady s).power = { s.power with readySent := none } := by
  unfold lapseReady
  split
  · rw [State.send_power]
  · next h => rw [← h]

theorem lapseReady_of_none (h : s.power.readySent = none) : lapseReady s = s := by
  simp only [lapseReady, h]

theorem lapseReady_keeps : KeepsBytes s (lapseReady s) ∧ (lapseReady s).settings = s.settings ∧ (lapseReady s).aon = s.aon ∧
    (lapseReady s).twin = s.twin ∧ (lapseReady s).fab.links = s.fab.links := by
  unfold lapseReady
  split
  · exact ⟨(keepsBytes_power s _).trans (sendWork_send ..).keepsBytes, by simp⟩
  · exact ⟨.refl s, rfl, rfl, rfl, rfl⟩

end

section

variable {s : State}

/-! ### The governor (R529 to R533) -/

/-- A frequency offer sent to every node of a list, the package's own offer read anew for each. -/
theorem foldl_sendOffer (q : Nat) (l : List Nat) (u : State) :
    l.foldl (fun t n => t.send (.node n) (.freqOffer (t.cfg 0x0A04) t.power.offer q)) u =
      l.foldl (fun t n => t.send (.node n) (.freqOffer (u.cfg 0x0A04) u.power.offer q)) u := by
  suffices h : ∀ t : State, t.settings = u.settings → t.power = u.power →
      l.foldl (fun t n => t.send (.node n) (.freqOffer (t.cfg 0x0A04) t.power.offer q)) t =
        l.foldl (fun t n => t.send (.node n) (.freqOffer (u.cfg 0x0A04) u.power.offer q)) t from h u rfl rfl
  induction l with
  | nil => exact fun _ _ _ => rfl
  | cons n l ih =>
    intro t hset hpower
    have hmsg : FwMsg.freqOffer (t.cfg 0x0A04) t.power.offer q = .freqOffer (u.cfg 0x0A04) u.power.offer q := by rw [State.cfg, hset, hpower, State.cfg]
    simp only [List.foldl_cons, hmsg]
    exact ih _ (by rw [State.send_settings, hset]) (by rw [State.send_power, hpower])

/-- The package's own offer noted before it is sent. -/
def ownOffered (s : State) : State :=
  { s with power := { s.power with offerSeq := s.power.offerSeq + 1, offers := tput s.power.offers s.fab.node (s.power.offer, s.aon) } }

/-- A record of another number stays in a table that is written. -/
theorem mem_tput_of_ne {α : Type} {t : Tab α} {k : Nat} {v : α} {e : Nat × α} (he : e ∈ t) (hk : e.1 ≠ k) : e ∈ tput t k v := by
  induction t with
  | nil => exact absurd he List.not_mem_nil
  | cons x r ih =>
    obtain ⟨i, w⟩ := x
    simp only [tput]
    split
    · next hi =>
      rcases List.mem_cons.1 he with rfl | he
      · exact absurd hi hk
      · exact List.mem_cons_of_mem _ he
    · split
      · exact List.mem_cons_of_mem _ he
      · exact (List.mem_cons.1 he).elim (fun h => h ▸ List.mem_cons_self) fun h => List.mem_cons_of_mem _ (ih h)

theorem memberOffers_ownOffered {m : Nat × Nat × Nat} (h : m ∈ memberOffers s) : m ∈ memberOffers (ownOffered s) := by
  unfold memberOffers at h
  split at h
  · exact absurd h List.not_mem_nil
  · next hdom =>
    obtain ⟨hmem, htest⟩ := List.mem_filter.1 h
    have hother : m.1 ≠ s.fab.node := by simpa using And.left ((Bool.and_eq_true _ _).mp htest)
    have hdom' : (ownOffered s).cfg 0x0A04 ≠ 0 := hdom
    rw [memberOffers, if_neg hdom']
    exact List.mem_filter.2 ⟨mem_tput_of_ne hmem hother, htest⟩

theorem sendOffer_eq (s : State) : ∃ l : List Nat, sendOffer s = l.foldl (fun t n => t.send (.node n) (.freqOffer (s.cfg 0x0A04) s.power.offer (s.power.offerSeq + 1)))
    (ownOffered s) ∧ ∀ m ∈ memberOffers s, m.1 ∈ l :=
  ⟨_, foldl_sendOffer .., fun _ hm => List.mem_append_left _ (List.mem_map_of_mem (memberOffers_ownOffered hm))⟩

theorem sendOffer_rest (s : State) : sendOffer s = { ownOffered s with fab := (sendOffer s).fab, out := (sendOffer s).out } := by
  obtain ⟨l, hl, _⟩ := sendOffer_eq s
  rw [hl]
  refine foldl_keeps (fun t : State => t = { ownOffered s with fab := t.fab, out := t.out }) _ l _ rfl fun t ht n _ => ?_
  unfold State.send
  split
  · exact ht
  · rw [ht]

theorem tells_sendOffer (hosc : s.entry.oscDead = false) {m : Nat × Nat × Nat} (hm : m ∈ memberOffers s) :
    Tells (sendOffer s) (.node m.1) (.freqOffer (s.cfg 0x0A04) s.power.offer (s.power.offerSeq + 1)) := by
  obtain ⟨l, hl, hmem⟩ := sendOffer_eq s
  rw [hl]
  exact tells_foldl_send (s := ownOffered s) hosc _ _ (hmem m hm)

/-- Whether the own offer last sent is this one, and less than 10 ms old. -/
def offerFresh (s : State) (offer : Nat) : Bool :=
  match s.power.offers.find? fun e => e.1 == s.fab.node with
  | some e => e.2.1 == offer && decide (s.aon < e.2.2 + msAon 10)
  | none => false

theorem offerFresh_of_changed {o : Nat} (h : (s.power.offers.find? fun e => e.1 == s.fab.node && e.2.1 == o) = none) : offerFresh s o = false := by
  unfold offerFresh
  split
  · next e he =>
    have hown := List.find?_some he
    have hne := List.find?_eq_none.1 h e (List.mem_of_find?_eq_some he)
    simp_all
  · rfl

theorem governorTick_idle {r : Reading} (h : s.power.state ≠ .run) : exec (.governorTick r) s = .next s :=
  congrArg Host.Outcome.next (if_pos (by simp [h]))

/-- What a tick makes of the limits and the offer, whatever it sends. -/
structure Governed (s : State) (r : Reading) (p : Power) : Prop where
  cap : s.cfg 0x0A01 * 1000 < r.meanMw → p.capLimit = min (ceiling s) (max 1000 (s.power.capLimit - 25))
  therm : ((s.cfg 0x0A05 : Nat) : Int) ≤ r.hottest → p.thermLimit = min (ceiling s) (max 1000 (s.power.thermLimit - 25))
  capBound : p.capLimit ≤ min (ceiling s) (max 1000 (s.power.capLimit + 25))
  thermBound : p.thermLimit ≤ min (ceiling s) (max 1000 (s.power.thermLimit + 25))
  offer : ceiling s ≤ 2250 → p.offer = min (min (ceiling s) p.capLimit) (min p.thermLimit p.fastLimit)
  kept : p.offers = s.power.offers ∧ p.offerSeq = s.power.offerSeq

/-- A limit of one tick lies within one step of the last, under the ceiling. -/
theorem limit_le (down up : Prop) [Decidable down] [Decidable up] (top f : Nat) :
    min top (if down then stepDown f else if up then f + 25 else f) ≤ min top (max 1000 (f + 25)) := by
  unfold stepDown
  split
  · omega
  · split <;> omega

theorem offer_of_ceiling {top : Nat} (h : top ≤ 2250) (c t f : Nat) :
    min (min top (min top c)) (min (min top t) f) = min (min top (min top c)) (min (min top t) (min 2250 f)) := by omega

theorem governorTick_governs (hosc : s.entry.oscDead = false) (r : Reading) (hrun : s.power.state = .run) : ∃ p, Governed s r p ∧
    exec (.governorTick r) s = .next (setFreq (if offerFresh s p.offer then { s with power := p } else sendOffer { s with power := p })) := by
  refine ⟨_, ?_, congrArg Host.Outcome.next (if_neg (by simp [hrun, hosc]))⟩
  constructor
  · intro h
    exact congrArg (min (ceiling s)) (if_pos h)
  · intro h
    exact congrArg (min (ceiling s)) (if_pos h)
  · exact limit_le ..
  · exact limit_le ..
  · exact fun h => offer_of_ceiling h ..
  · exact ⟨rfl, rfl⟩

theorem governorTick_offers (hosc : s.entry.oscDead = false) (r : Reading) (hrun : s.power.state = .run) :
    ∃ t, exec (.governorTick r) s = .next t ∧ t = { s with power := t.power, fab := t.fab, out := t.out } ∧
      (s.cfg 0x0A01 * 1000 < r.meanMw → t.power.capLimit = min (ceiling s) (max 1000 (s.power.capLimit - 25))) ∧
      (((s.cfg 0x0A05 : Nat) : Int) ≤ r.hottest → t.power.thermLimit = min (ceiling s) (max 1000 (s.power.thermLimit - 25))) ∧
      t.power.capLimit ≤ min (ceiling s) (max 1000 (s.power.capLimit + 25)) ∧ t.power.thermLimit ≤ min (ceiling s) (max 1000 (s.power.thermLimit + 25)) ∧
      (ceiling s ≤ 2250 → t.power.offer = min (min (ceiling s) t.power.capLimit) (min t.power.thermLimit t.power.fastLimit)) ∧
      t.power.freq = ((memberOffers t).map (·.2.1)).foldl min t.power.offer ∧
      ((s.power.offers.find? fun e => e.1 == s.fab.node && e.2.1 == t.power.offer) = none → t.power.offerSeq = s.power.offerSeq + 1 ∧
        ∀ m ∈ memberOffers s, Tells t (.node m.1) (.freqOffer (s.cfg 0x0A04) t.power.offer (s.power.offerSeq + 1))) := by
  obtain ⟨p, hp, hexec⟩ := governorTick_governs hosc r hrun
  obtain ⟨hoffers, hseq⟩ := hp.kept
  cases hfresh : offerFresh s p.offer with
  | true =>
    rw [if_pos hfresh] at hexec
    exact ⟨_, hexec, rfl, hp.cap, hp.therm, hp.capBound, hp.thermBound, hp.offer, rfl,
      fun hchanged => absurd (offerFresh_of_changed hchanged) (by simpa [setFreq] using hfresh)⟩
  | false =>
    rw [if_neg (by simp [hfresh])] at hexec
    have hrest := sendOffer_rest { s with power := p }
    have htells : ∀ m ∈ memberOffers s, Tells (sendOffer { s with power := p }) (.node m.1) (.freqOffer (s.cfg 0x0A04) p.offer (s.power.offerSeq + 1)) := by
      intro m hm
      rw [← hseq]
      refine tells_sendOffer (s := { s with power := p }) hosc ?_
      unfold memberOffers at hm ⊢
      rw [← hoffers] at hm
      exact hm
    generalize sendOffer { s with power := p } = u at hrest htells hexec
    rw [hrest] at hexec htells
    exact ⟨_, hexec, rfl, hp.cap, hp.therm, hp.capBound, hp.thermBound, hp.offer, rfl, fun _ => ⟨congrArg (· + 1) hseq, htells⟩⟩

/-- Whether an offer of a member is newer than the one held. -/
def offerNew (s : State) (src q : Nat) : Bool :=
  match s.power.offers.find? fun e => e.1 == src with
  | some e => decide (e.2.2 < q)
  | none => true

theorem freqOffer_eq {src o q : Nat} (hdom : s.cfg 0x0A04 ≠ 0) (hsrc : src ≠ s.fab.node) (hfrom : takesFrom s src = true) (hdb : s.inDb src = true) :
    exec (.freqOffer src (s.cfg 0x0A04) o q) s =
      .next (if offerNew s src q then setFreq { s with power := { s.power with offers := tput s.power.offers src (o, q) } } else s) := by
  refine congrArg Host.Outcome.next (show (if s.cfg 0x0A04 = 0 ∨ s.cfg 0x0A04 ≠ s.cfg 0x0A04 ∨ src = s.fab.node ∨ !takesFrom s src ∨ !s.inDb src ∨
    !offerNew s src q then s else setFreq { s with power := { s.power with offers := tput s.power.offers src (o, q) } }) = _ from ?_)
  cases hnew : offerNew s src q with
  | true => exact if_neg (by simp [hdom, hsrc, hfrom, hdb])
  | false => exact if_pos (by simp)

theorem freqOffer_held {src o q : Nat} (hdom : s.cfg 0x0A04 ≠ 0) (hsrc : src ≠ s.fab.node) (hfrom : takesFrom s src = true) (hdb : s.inDb src = true) :
    ((∀ e, s.power.offers.find? (fun e => e.1 == src) = some e → e.2.2 < q) → ∃ t, exec (.freqOffer src (s.cfg 0x0A04) o q) s = .next t ∧
        t = { s with power := t.power } ∧ t.power.offers = tput s.power.offers src (o, q) ∧ t.power.offer = s.power.offer ∧
        t.power.freq = ((memberOffers t).map (·.2.1)).foldl min s.power.offer) ∧
      (∀ e, s.power.offers.find? (fun e => e.1 == src) = some e → q ≤ e.2.2 → exec (.freqOffer src (s.cfg 0x0A04) o q) s = .next s) := by
  rw [freqOffer_eq hdom hsrc hfrom hdb]
  refine ⟨fun hnewer => ?_, fun e he hold => ?_⟩
  · have hnew : offerNew s src q = true := by
      unfold offerNew
      split
      · next e he => exact decide_eq_true (hnewer e he)
      · rfl
    rw [if_pos hnew]
    exact ⟨_, rfl, rfl, rfl, rfl, rfl⟩
  · rw [if_neg (by simp [offerNew, he, hold])]

theorem droopStretch_counts {d n : Nat} (hrun : s.power.state = .run) :
    (s.power.fieldOn = true → d < 4 → exec (.droopStretch true d n) s = .next { s with power := { s.power with stretch := s.power.stretch + n } }) ∧
      (s.power.besideOn = true → d < 12 → exec (.droopStretch false d n) s = .next { s with power := { s.power with stretch := s.power.stretch + n } }) :=
  ⟨fun hon hd => congrArg Host.Outcome.next (if_pos (by simp [hon, hd, hrun])),
    fun hon hd => congrArg Host.Outcome.next (if_pos (by simp [hon, hd, hrun]))⟩

/-! ### Entering a power state (R535 to R541, R590) -/

/-- Once every chain is empty it stays so where the receipt blocks do. -/
theorem chainEmpty_of_blocks {s t : State} {c : Nat} (h : t.energy.blocks = s.energy.blocks) (hs : ChainEmpty s c) : ChainEmpty t c := by
  rwa [ChainEmpty, State.chain, h]

theorem goDormant_spec (s : State) : (goDormant s).power.resting = true ∧ (goDormant s).aon = s.aon ∧ (goDormant s).energy.openMark = false ∧
    (∀ c, c < 17 → ChainEmpty (goDormant s) c) ∧ KeepsMemory s (goDormant s) := by
  unfold goDormant
  have hmark := openMark_flush s
  have hchains : ∀ c, c < 17 → ChainEmpty (flush s) c := fun c => chainEmpty_flush s
  have haon : (flush s).aon = s.aon := aon_of_unmetered (lasting_unmetered_flush s)
  have hbytes := (woundUp_flush s).bytes
  generalize flush s = u at *
  refine ⟨by rw [flood_power], by rw [flood_aon, ← haon], by rw [flood_energy, ← hmark], fun c hc => ?_, ?_⟩
  · exact chainEmpty_of_blocks (congrArg Energy.blocks (flood_energy _)) (hchains c hc)
  · exact (hbytes.trans ((keepsBytes_power u _).trans (sendWork_flood _).keepsBytes)).memory

theorem repair_mem (b : BesideDie) (d : Nat) : (b.repair d).mem = b.mem := by
  unfold BesideDie.repair
  refine foldl_keeps (fun x : BesideDie => x.mem = b.mem) _ _ _ rfl fun x hx row _ => ?_
  split <;> exact hx

theorem enterRest_spec (s : State) : (enterRest s).power = { s.power with state := .rest, resting := true, readySent := none, fieldOn := false, junctionOn := false } ∧
    (enterRest s).aon = s.aon ∧ (∀ c a, spadByte (enterRest s) c a = 0) ∧ (∀ c i, accWord (enterRest s) c i = 0) ∧
    ∀ d a, nearByte (enterRest s) d a = nearByte s d a := by
  unfold enterRest
  extract_lets s1 p1 s2
  have h1 : s1.power = s.power ∧ s1.aon = s.aon ∧ KeepsMemory s s1 :=
    ⟨power_of_beyond (beyond_of_lasting (lasting_powerEvent ..)), aon_of_beyond (beyond_of_lasting (lasting_powerEvent ..)), (keepsBytes_powerEvent ..).memory⟩
  have h2 : s2.power = { s1.power with resting := true, readySent := none } ∧ s2.aon = s1.aon ∧ KeepsMemory s1 s2 :=
    ⟨flood_power _, flood_aon _, ((keepsBytes_power s1 _).trans (sendWork_flood _).keepsBytes).memory⟩
  clear_value s2 s1
  obtain ⟨hpower1, haon1, -, -, hnear1⟩ := h1
  obtain ⟨hpower2, haon2, -, -, hnear2⟩ := h2
  rw [hpower1] at hpower2
  refine ⟨congrArg (fun p : Power => { p with state := .rest, fieldOn := false, junctionOn := false }) hpower2, haon2.trans haon1, fun c a => ?_, fun c i => ?_, fun d a => ?_⟩
  · exact tget_map_of Core.reset s2.cores (fun _ k => k.cleared) c (p := fun k => mget 0 k.spad a = 0) rfl fun _ => rfl
  · exact tget_map_of Core.reset s2.cores (fun _ k => k.cleared) c (p := fun k => mget 0 k.acc i = 0) rfl fun _ => rfl
  · refine Eq.trans ?_ ((hnear2 d a).trans (hnear1 d a))
    exact tget_map_field _ s2.beside (fun d b => { b.repair d with rings := [], dir := [], waits := [] }) d (fun b : BesideDie => mget 0 b.mem a)
      fun b => by rw [repair_mem]

/-! ### The choice (R536 to R539) -/

/-- Whether REST or DORMANT may be entered and pays. -/
def deepPays (s : State) (ev : Option Nat) (x : PowerState) : Bool := restReady s x && pays s ev x

/-- NAP or HOLD, whichever pays. -/
def lightState (s : State) (ev : Option Nat) : State :=
  if pays s ev .nap then arm (enterLight s .nap) ev .nap else if pays s ev .hold then arm (enterLight s .hold) ev .hold else s

/-- A package that may choose a power state: idle in RUN, its captain running, no flush under way. -/
structure Chooses (s : State) : Prop where
  osc : s.entry.oscDead = false
  run : s.power.state = .run
  awake : s.power.resting = false
  idle : noCommand s = true
  unflushed : s.entry.flushed = false
  stage : s.boot.stage = 3

/-- What an idle package does with the deepest state that pays. -/
theorem powerStateChoose_eq (h : Chooses s) (duty : Option Nat) : exec (.powerStateChoose duty) s = .next
    (match (if deepPays s (nextEvent s duty) .dormant then some PowerState.dormant else if deepPays s (nextEvent s duty) .rest then some .rest else none) with
      | some x =>
        if s.cfg 0x0A04 = 0 then arm (if x = .dormant then goDormant s else enterRest s) (nextEvent s duty) x
        else lightState (if s.power.readySent = some x.code then s else tellReady s x (nextEvent s duty)) (nextEvent s duty)
      | none => lightState (lapseReady s) (nextEvent s duty)) := by
  refine congrArg Host.Outcome.next ((if_neg ?_).trans rfl)
  simp [h.run, h.awake, h.idle, h.osc, h.unflushed, h.stage]

theorem arm_rest (s : State) (ev : Option Nat) (x : PowerState) :
    KeepsBytes s (arm s ev x) ∧ (arm s ev x).power = { s.power with wakeAt := ev.map fun n => s.aon + usAon (n - wakeUs x) } := ⟨keepsBytes_power s _, rfl⟩

theorem lightState_nap {ev : Option Nat} (h : pays s ev .nap = true) : lightState s ev = arm (enterLight s .nap) ev .nap := if_pos h

theorem lightState_hold {ev : Option Nat} (hnap : pays s ev .nap = false) (h : pays s ev .hold = true) : lightState s ev = arm (enterLight s .hold) ev .hold := by
  rw [lightState, if_neg (by simp [hnap]), if_pos h]

theorem lightState_none {ev : Option Nat} (hnap : pays s ev .nap = false) (h : pays s ev .hold = false) : lightState s ev = s := by
  rw [lightState, if_neg (by simp [hnap]), if_neg (by simp [h])]

theorem keepsBytes_lightState (s : State) (ev : Option Nat) : KeepsBytes s (lightState s ev) := by
  unfold lightState
  refine keepsBytes_ite ?_ (keepsBytes_ite ?_ (.refl s)) <;> exact keepsBytes_same rfl rfl rfl

/-- A light state is no REST, and leaves what the coordinator was told. -/
theorem lightState_power (s : State) (ev : Option Nat) : (lightState s ev).power.readySent = s.power.readySent ∧
    (s.power.state ≠ .rest → (lightState s ev).power.state ≠ .rest) := by
  unfold lightState
  split
  · exact ⟨rfl, fun _ => nofun⟩
  · split
    · exact ⟨rfl, fun _ => nofun⟩
    · exact ⟨rfl, id⟩

theorem pays_of_settings {s t : State} (h : t.settings = s.settings) : pays t = pays s := by
  have hbreak : breakEven t = breakEven s := funext fun x => by cases x <;> simp [breakEven, State.cfg, h]
  funext ev x
  unfold pays
  rw [hbreak]

theorem choose_dormant (h : Chooses s) {duty ev : Option Nat} (hev : ev = nextEvent s duty) (halone : s.cfg 0x0A04 = 0)
    (hready : restReady s .dormant = true) (hpays : pays s ev .dormant = true) :
    ∃ t, exec (.powerStateChoose duty) s = .next t ∧
      t.power.resting = true ∧ t.energy.openMark = false ∧ (∀ c, c < 17 → (t.chain c).openR = [] ∧ (t.chain c).closedB = []) ∧
      t.power.wakeAt = ev.map (fun n => s.aon + usAon (n - 450000)) ∧ KeepsMemory s t := by
  subst hev
  obtain ⟨hresting, haon, hmark, hchains, hmem⟩ := goDormant_spec s
  have hrun : exec (.powerStateChoose duty) s = .next (arm (goDormant s) (nextEvent s duty) .dormant) := by
    simp [powerStateChoose_eq h, deepPays, hready, hpays, halone]
  generalize goDormant s = u at *
  refine ⟨_, hrun, hresting, hmark, hchains, ?_, hmem.trans (arm_rest ..).1.memory⟩
  rw [(arm_rest ..).2, haon]
  rfl

theorem choose_rest (h : Chooses s) {duty ev : Option Nat} (hev : ev = nextEvent s duty) (halone : s.cfg 0x0A04 = 0)
    (hdormant : (restReady s .dormant && pays s ev .dormant) = false) (hready : restReady s .rest = true) (hpays : pays s ev .rest = true) :
    ∃ t, exec (.powerStateChoose duty) s = .next t ∧ t.power.state = .rest ∧ t.power.resting = true ∧ t.power.fieldOn = false ∧
      t.power.junctionOn = false ∧ t.power.wakeAt = ev.map (fun n => s.aon + usAon (n - 3000)) ∧ (∀ c a, spadByte t c a = 0) ∧ (∀ c i, accWord t c i = 0) ∧
      ∀ d a, nearByte t d a = nearByte s d a := by
  subst hev
  obtain ⟨hpower, haon, hspad, hacc, hnear⟩ := enterRest_spec s
  refine ⟨arm (enterRest s) (nextEvent s duty) .rest, ?_, ?_, ?_, ?_, ?_, ?_, hspad, hacc, hnear⟩
  · rw [powerStateChoose_eq h, deepPays, hdormant, deepPays, hready, hpays]
    exact congrArg Host.Outcome.next (if_pos halone)
  all_goals rw [(arm_rest ..).2, hpower]
  rw [haon]
  rfl

theorem choose_light (h : Chooses s) {duty ev : Option Nat} (hev : ev = nextEvent s duty)
    (hdeep : ∀ x, x = PowerState.rest ∨ x = .dormant → (restReady s x && pays s ev x) = false) :
    exec (.powerStateChoose duty) s = .next (lightState (lapseReady s) ev) := by
  subst hev
  rw [powerStateChoose_eq h, deepPays, hdeep .dormant (.inr rfl), deepPays, hdeep .rest (.inl rfl)]
  rfl

theorem choose_nap (h : Chooses s) {duty ev : Option Nat} (hev : ev = nextEvent s duty)
    (hdeep : ∀ x, x = PowerState.rest ∨ x = .dormant → (restReady s x && pays s ev x) = false) (hnap : pays s ev .nap = true) :
    ∃ t, exec (.powerStateChoose duty) s = .next t ∧ t.power.state = .nap ∧ t.power.fieldOn = false ∧
      t.power.wakeAt = ev.map (fun n => s.aon + usAon (n - 40)) ∧ t.power.readySent = none ∧ KeepsMemory s t := by
  have hpower := lapseReady_power s
  obtain ⟨hbytes, hset, haon, -⟩ := lapseReady_keeps s
  have hrun := choose_light h hev hdeep
  have hmem := (hbytes.trans (keepsBytes_lightState _ ev)).memory
  rw [lightState_nap (by rw [pays_of_settings hset, hnap])] at hrun hmem
  refine ⟨_, hrun, rfl, Bool.and_false _, ?_, ?_, hmem⟩
  · rw [(arm_rest ..).2, ← haon]
    rfl
  · rw [(arm_rest ..).2, enterLight, hpower]

theorem choose_hold (h : Chooses s) {duty ev : Option Nat} (hev : ev = nextEvent s duty)
    (hdeep : ∀ x, x = PowerState.rest ∨ x = .dormant → (restReady s x && pays s ev x) = false) (hnap : pays s ev .nap = false) (hhold : pays s ev .hold = true) :
    ∃ t, exec (.powerStateChoose duty) s = .next t ∧ t.power.state = .hold ∧
      t.power.fieldOn = s.power.fieldOn ∧ t.power.wakeAt = ev.map (fun n => s.aon + usAon (n - 2)) ∧ t.power.readySent = none ∧ KeepsMemory s t := by
  have hpower := lapseReady_power s
  obtain ⟨hbytes, hset, haon, -⟩ := lapseReady_keeps s
  have hrun := choose_light h hev hdeep
  have hmem := (hbytes.trans (keepsBytes_lightState _ ev)).memory
  rw [lightState_hold (by rw [pays_of_settings hset, hnap]) (by rw [pays_of_settings hset, hhold])] at hrun hmem
  refine ⟨_, hrun, rfl, ?_, ?_, ?_, hmem⟩
  · rw [(arm_rest ..).2, enterLight, hpower]
    exact Bool.and_true _
  · rw [(arm_rest ..).2, ← haon]
    rfl
  · rw [(arm_rest ..).2, enterLight, hpower]

theorem choose_nothing (h : Chooses s) {duty ev : Option Nat} (hev : ev = nextEvent s duty)
    (hdeep : ∀ x, x = PowerState.rest ∨ x = .dormant → (restReady s x && pays s ev x) = false) (hnap : pays s ev .nap = false) (hhold : pays s ev .hold = false)
    (hready : s.power.readySent = none) : exec (.powerStateChoose duty) s = .next s := by
  rw [choose_light h hev hdeep, lapseReady_of_none s hready, lightState_none hnap hhold]

theorem choose_tells (h : Chooses s) {duty ev : Option Nat} (hev : ev = nextEvent s duty) (hdom : s.cfg 0x0A04 ≠ 0)
    (hdormant : (restReady s .dormant && pays s ev .dormant) = false) (hready : restReady s .rest = true) (hpays : pays s ev .rest = true)
    (hnew : s.power.readySent ≠ some 3) : ∃ t, exec (.powerStateChoose duty) s = .next t ∧ t.power.readySent = some 3 ∧ t.power.state ≠ .rest ∧
      Tells t (.node ((members s).foldl min s.fab.node)) (.restReady 3 (ev.getD (2 ^ 32 - 1))) ∧ KeepsMemory s t := by
  subst hev
  set ev := nextEvent s duty
  have hlight := lightState_power (tellReady s .rest ev) ev
  have hbytes := keepsBytes_lightState (tellReady s .rest ev) ev
  have hpower : (tellReady s .rest ev).power = { s.power with readySent := some 3 } := State.send_power ..
  have htell : Tells (tellReady s .rest ev) (.node ((members s).foldl min s.fab.node)) (.restReady 3 (ev.getD (2 ^ 32 - 1))) :=
    tells_send (s := { s with power := { s.power with readySent := some 3 } }) h.osc ..
  have hsent : KeepsBytes s (tellReady s .rest ev) := (keepsBytes_power s _).trans (sendWork_send ..).keepsBytes
  refine ⟨lightState (tellReady s .rest ev) ev, ?_, hlight.1.trans (by rw [hpower]), hlight.2 (by rw [hpower, h.run]; nofun), hbytes.tells htell,
    (hsent.trans hbytes).memory⟩
  rw [powerStateChoose_eq h, deepPays, hdormant, deepPays, hready, hpays]
  refine congrArg Host.Outcome.next ((if_neg hdom).trans ?_)
  rw [if_neg (show ¬s.power.readySent = some PowerState.rest.code from hnew)]

/-! ### The domain's agreement (R539) -/

/-- The readiness a coordinator holds once a member has told its own. -/
def readied (s : State) (n x d : Nat) : List (Nat × Nat × Nat) := (s.power.ready.filter fun r => r.1 != n) ++ [(n, x, d)]

theorem restReady_eq {n x d : Nat} (hn : n ∈ members s) (hx : x = 3 ∨ x = 4) (hcoord : (members s).foldl min s.fab.node = s.fab.node)
    (hfrom : takesFrom s n = true) : exec (.restReady n x d) s = .next
      (if (members s).all (fun m => (readied s n x d).any fun r => r.1 == m) then
        (members s).foldl (fun t m => t.send (.node m) (.restGo (((readied s n x d).map (·.2.1)).foldl min 4)
          (((readied s n x d).map (·.2.2)).foldl min d - 1000))) { s with power := { s.power with ready := [] } }
      else { s with power := { s.power with ready := readied s n x d } }) := by
  refine congrArg Host.Outcome.next (if_neg ?_)
  have hstate : (x == 3 || x == 4) = true := by simpa using hx
  simp [hn, hstate, hcoord, hfrom]

theorem restReady_agrees (hosc : s.entry.oscDead = false) {n x d : Nat} {ready : List (Nat × Nat × Nat)} (hn : n ∈ members s) (hx : x = 3 ∨ x = 4)
    (hcoord : (members s).foldl min s.fab.node = s.fab.node) (hfrom : takesFrom s n = true)
    (hready : ready = (s.power.ready.filter fun r => r.1 != n) ++ [(n, x, d)]) :
    ((∃ m ∈ members s, ∀ r ∈ ready, r.1 ≠ m) → exec (.restReady n x d) s = .next { s with power := { s.power with ready := ready } }) ∧
      ((∀ m ∈ members s, ∃ r ∈ ready, r.1 = m) → ∃ t, exec (.restReady n x d) s = .next t ∧ t.power = { s.power with ready := [] } ∧
        t = { s with power := t.power, fab := t.fab, out := t.out } ∧
        ∀ m ∈ members s, Tells t (.node m) (.restGo ((ready.map (·.2.1)).foldl min 4) ((ready.map (·.2.2)).foldl min d - 1000))) := by
  subst hready
  rw [restReady_eq hn hx hcoord hfrom]
  refine ⟨fun ⟨m, hm, hmissing⟩ => congrArg Host.Outcome.next (if_neg fun hall => ?_), fun hall => ?_⟩
  · obtain ⟨r, hr, hrm⟩ := List.any_eq_true.1 (List.all_eq_true.1 hall m hm)
    exact hmissing r hr (by simpa using hrm)
  · have hagreed : (members s).all (fun m => (readied s n x d).any fun r => r.1 == m) = true := by
      refine List.all_eq_true.2 fun m hm => ?_
      obtain ⟨r, hr, hrm⟩ := hall m hm
      exact List.any_eq_true.2 ⟨r, hr, by simpa using hrm⟩
    rw [if_pos hagreed]
    set u : State := { s with power := { s.power with ready := [] } }
    set msg : FwMsg := .restGo (((readied s n x d).map (·.2.1)).foldl min 4) (((readied s n x d).map (·.2.2)).foldl min d - 1000)
    have hrest : (members s).foldl (fun t m => t.send (.node m) msg) u = { u with
        fab := ((members s).foldl (fun t m => t.send (.node m) msg) u).fab, out := ((members s).foldl (fun t m => t.send (.node m) msg) u).out } := by
      refine foldl_keeps (fun t : State => t = { u with fab := t.fab, out := t.out }) _ _ u rfl fun t ht m _ => ?_
      unfold State.send
      split
      · exact ht
      · rw [ht]
    refine ⟨_, rfl, (congrArg State.power hrest :), ?_, tells_foldl_send (s := u) hosc msg⟩
    rw [hrest]

theorem restGo_rests (d : Nat) (hawake : s.power.resting = false) (hrest : s.power.state ≠ .rest) (hdormant : s.power.state ≠ .dormant) :
    (∃ t, exec (.restGo 3 d) s = .next t ∧ t.power.state = .rest ∧ t.power.resting = true ∧ t.power.fieldOn = false ∧ t.power.junctionOn = false ∧
        t.power.wakeAt = some (s.aon + usAon d) ∧ (∀ c a, spadByte t c a = 0) ∧ (∀ c i, accWord t c i = 0) ∧ ∀ e a, nearByte t e a = nearByte s e a) ∧
      (s.hasNand = true → ∃ t, exec (.restGo 4 d) s = .next t ∧ t.power.resting = true ∧ t.energy.openMark = false ∧
        (∀ c, c < 17 → (t.chain c).openR = [] ∧ (t.chain c).closedB = []) ∧ t.power.wakeAt = some (s.aon + usAon d) ∧ KeepsMemory s t) := by
  constructor
  · obtain ⟨hpower, -, hspad, hacc, hnear⟩ := enterRest_spec s
    have hrun : exec (.restGo 3 d) s = .next { enterRest s with power := { (enterRest s).power with wakeAt := some (s.aon + usAon d) } } :=
      congrArg Host.Outcome.next (if_neg (by simp [hawake, hrest, hdormant]))
    generalize enterRest s = u at *
    refine ⟨_, hrun, ?_, ?_, ?_, ?_, rfl, hspad, hacc, hnear⟩ <;> simp only [hpower]
  · intro hnand
    obtain ⟨hresting, -, hmark, hchains, hmem⟩ := goDormant_spec s
    have hrun : exec (.restGo 4 d) s = .next { goDormant s with power := { (goDormant s).power with wakeAt := some (s.aon + usAon d) } } :=
      congrArg Host.Outcome.next ((if_neg (by simp [hawake, hrest, hdormant, hnand])).trans (by simp))
    generalize goDormant s = u at *
    exact ⟨_, hrun, hresting, hmark, hchains, rfl, hmem.trans (keepsBytes_power u _).memory⟩

/-! ### Waking (R536, R540, R541) -/

/-- A link as the Junction dies find it when they are powered again. -/
def linkStarted (s : State) (l : Nat) : Link :=
  if planUse (s.plan l) ≠ 0 ∧ (s.link l).state == .down then { s.link l with since := s.aon, retryAt := max 1 s.aon } else s.link l

/-- One link started where the plan uses it. -/
def startLink (s : State) (l : Nat) : State :=
  if planUse (s.plan l) ≠ 0 ∧ (s.link l).state == .down then s.setLink l { s.link l with since := s.aon, retryAt := max 1 s.aon } else s

theorem startLink_eq (l : Nat) : ∃ x, startLink s l = { s with fab := { s.fab with links := x } } := by
  unfold startLink
  split
  · exact ⟨_, rfl⟩
  · exact ⟨_, rfl⟩

theorem link_startLink (l j : Nat) : (startLink s l).link j = if j = l then linkStarted s l else s.link j := by
  unfold startLink linkStarted
  split
  · rw [State.link_setLink]
  · split
    · next h => rw [h]
    · rfl

theorem linkStarted_startLink {l j : Nat} (h : j ≠ l) : linkStarted (startLink s l) j = linkStarted s j := by
  have hlink : (startLink s l).link j = s.link j := by rw [link_startLink, if_neg h]
  obtain ⟨x, hx⟩ := startLink_eq (s := s) l
  rw [linkStarted, hlink, hx]
  rfl

/-- Each link of a list without repetition is started once. -/
theorem link_foldl_startLink {l : List Nat} (hl : l.Nodup) (j : Nat) : (l.foldl startLink s).link j = if j ∈ l then linkStarted s j else s.link j := by
  induction l generalizing s with
  | nil => rfl
  | cons a l ih =>
    obtain ⟨ha, hl⟩ := List.nodup_cons.1 hl
    rw [List.foldl_cons, ih hl]
    by_cases hj : j = a
    · subst hj
      rw [if_neg ha, link_startLink, if_pos rfl, if_pos List.mem_cons_self]
    · rw [linkStarted_startLink hj, link_startLink, if_neg hj]
      simp [hj]

theorem startLinks_eq (s : State) : ∃ x, startLinks s = { s with fab := { s.fab with links := x } } :=
  foldl_keeps (fun t => ∃ x, t = { s with fab := { s.fab with links := x } }) startLink (List.range 36) s ⟨_, rfl⟩ fun _ ⟨_, ht⟩ l _ => by
    obtain ⟨x, hx⟩ := startLink_eq l
    exact ⟨x, by rw [hx, ht]⟩

theorem link_startLinks {l : Nat} (h : l < 36) : (startLinks s).link l = linkStarted s l :=
  (link_foldl_startLink List.nodup_range l).trans (if_pos (List.mem_range.2 h))

theorem linkStarted_congr {s t : State} (hset : t.settings = s.settings) (hlinks : t.fab.links = s.fab.links) (haon : t.aon = s.aon) (l : Nat) :
    linkStarted t l = linkStarted s l := by
  rw [linkStarted, State.plan, State.cfg, State.link, hset, hlinks, haon]
  rfl

theorem link_flood (s : State) (l : Nat) : (flood s).link l = s.link l := State.send_link ..

/-- The power state after a wake. -/
def woken (s : State) : Power := { s.power with state := .run, fieldOn := !s.entry.flushed, junctionOn := true, wakeAt := none, resting := false }

theorem wakeRun_spec (s : State) : (wakeRun s).power = woken s ∧ (wakeRun s).twin.hbSeenAt = s.aon ∧ KeepsBytes s (wakeRun s) ∧
    (s.power.state = .rest → ∀ l, l < 36 → (wakeRun s).link l = linkStarted s l) := by
  unfold wakeRun
  extract_lets from_ p tw s1 s2
  have h1 : KeepsBytes s s1 := keepsBytes_same rfl rfl rfl
  have h2 : s2.power = woken s ∧ s2.twin.hbSeenAt = s.aon ∧ KeepsBytes s s2 ∧ (s.power.state = .rest → ∀ l, l < 36 → s2.link l = linkStarted s l) := by
    by_cases hrest : s.power.state = .rest
    · have hstart : s2 = startLinks (powerEvent s1 3 0) := if_pos hrest
      have hbeyond := beyond_of_lasting (lasting_powerEvent s1 3 0)
      obtain ⟨x, hx⟩ := startLinks_eq (powerEvent s1 3 0)
      refine ⟨?_, ?_, ?_, fun _ l hl => ?_⟩
      · rw [hstart, hx]
        exact power_of_beyond hbeyond
      · rw [hstart, hx]
        exact congrArg Twin.hbSeenAt (twin_of_beyond hbeyond)
      · rw [hstart, hx]
        exact (h1.trans (keepsBytes_powerEvent ..)).trans (keepsBytes_same rfl rfl rfl)
      · rw [hstart, link_startLinks hl]
        exact linkStarted_congr (settings_of_beyond hbeyond) (links_of_beyond hbeyond) (aon_of_beyond hbeyond) l
    · rw [show s2 = s1 from if_neg hrest]
      exact ⟨rfl, rfl, h1, fun h => absurd h hrest⟩
  clear_value s2
  split
  · exact ⟨by rw [flood_power, h2.1], by rw [flood_twin, h2.2.1], h2.2.2.1.trans (sendWork_flood s2).keepsBytes,
      fun h l hl => (link_flood s2 l).trans (h2.2.2.2 h l hl)⟩
  · exact h2

theorem wakeEvent_wakes (hosc : s.entry.oscDead = false) (k : WakeKind)
    (hk : (s.power.state = .hold ∨ s.power.state = .nap) ∧ (∀ f, k = .mailboxCtrl f → (s.fn f).enabled = true) ∨
      s.power.state = .rest ∧ (k = .sideband ∨ ∃ f, k = .mailboxCtrl f ∧ (s.fn f).enabled = true)) :
    ∃ t, exec (.wakeEvent k) s = .next t ∧ t.power = { s.power with
        state := .run, fieldOn := !s.entry.flushed, junctionOn := true, wakeAt := none, resting := false, readySent := none } ∧
      t.twin.hbSeenAt = s.aon ∧ KeepsMemory s t ∧
      (s.power.state = .rest → ∀ l, l < 36 → planUse (s.plan l) ≠ 0 → (s.link l).state = .down →
        t.link l = { s.link l with since := s.aon, retryAt := max 1 s.aon }) := by
  have hrun : exec (.wakeEvent k) s = .next (lapseReady (wakeRun s)) := by
    refine congrArg Host.Outcome.next (if_pos ?_)
    rcases hk with ⟨hlight, hfn⟩ | ⟨hrest, rfl | ⟨f, rfl, hf⟩⟩
    · have hlight' : (s.power.state == .hold || s.power.state == .nap) = true := by simpa using hlight
      cases k with
      | mailboxCtrl f => simp [hlight', hosc, hfn f rfl]
      | ctlPacket => simp [hlight', hosc]
      | sideband => simp [hlight', hosc]
    · simp [hrest, hosc]
    · simp [hrest, hosc, hf]
  obtain ⟨hpower, hseen, hbytes, hlinks⟩ := wakeRun_spec s
  obtain ⟨hlapsed, -, -, htwin, hlapsedLinks⟩ := lapseReady_keeps (wakeRun s)
  refine ⟨_, hrun, by rw [lapseReady_power, hpower]; rfl, by rw [htwin, hseen], (hbytes.trans hlapsed).memory, fun hrest l hl huse hdown => ?_⟩
  rw [State.link, hlapsedLinks, ← State.link, hlinks hrest l hl]
  exact if_pos ⟨huse, by simp [hdown]⟩

/-- A CTL packet wakes nothing from REST. -/
theorem wakeEvent_rest (hrest : s.power.state = .rest) : exec (.wakeEvent .ctlPacket) s = .next s :=
  congrArg Host.Outcome.next (if_neg (by simp [hrest]))

theorem wakeTimer_eq {u : Nat} (hosc : s.entry.oscDead = false) (hu : s.power.wakeAt = some u) (hin : s.entry.inputOn = true) :
    exec .wakeTimer s = .next (if s.aon < u then s else if s.power.state = .dormant then wakeDormant s
      else if s.power.state = .run then { s with power := { s.power with wakeAt := none } } else wakeRun s) := by
  refine congrArg Host.Outcome.next ?_
  rw [hu]
  simp only [hosc, hin, Bool.not_true, Bool.false_eq_true, or_false]

theorem wakeTimer_wakes {u : Nat} (hosc : s.entry.oscDead = false) (hu : s.power.wakeAt = some u) (hin : s.entry.inputOn = true) :
    (s.aon < u → exec .wakeTimer s = .next s) ∧
      (u ≤ s.aon → (s.power.state = .hold ∨ s.power.state = .nap ∨ s.power.state = .rest) → ∃ t, exec .wakeTimer s = .next t ∧
        t.power = { s.power with state := .run, fieldOn := !s.entry.flushed, junctionOn := true, wakeAt := none, resting := false } ∧ KeepsMemory s t) ∧
      (u ≤ s.aon → s.power.state = .run → exec .wakeTimer s = .next { s with power := { s.power with wakeAt := none } }) ∧
      (u ≤ s.aon → s.power.state = .dormant → ∃ t, exec .wakeTimer s = .next t ∧ t.power.state = .run ∧ t.power.stewardOn = true ∧
        t.power.dormantImage = s.power.dormantImage ∧ t.boot.cause = 6 ∧ t.boot.stage = 0 ∧ t.entry.pwrgd = true ∧ KeepsMemory s t) := by
  rw [wakeTimer_eq hosc hu hin]
  refine ⟨fun h => by rw [if_pos h], fun h hstate => ?_, fun h hstate => ?_, fun h hstate => ?_⟩
  · obtain ⟨hpower, -, hbytes, -⟩ := wakeRun_spec s
    refine ⟨wakeRun s, ?_, hpower, hbytes.memory⟩
    rw [if_neg (not_lt.2 h)]
    rcases hstate with hstate | hstate | hstate <;> simp [hstate]
  · simp [not_lt.2 h, hstate]
  · refine ⟨wakeDormant s, ?_, rfl, rfl, rfl, rfl, rfl, rfl, keepsMemory_same _ _ rfl rfl⟩
    rw [if_neg (not_lt.2 h), if_pos hstate]

end

/-- Settles O55, one lemma for each command. -/
theorem governorAndPowerStatesFollowTheirRules : Obligations.GovernorAndPowerStatesFollowTheirRules := by
  unfold Obligations.GovernorAndPowerStatesFollowTheirRules
  refine fun s hosc => ⟨fun r => ⟨governorTick_idle, governorTick_offers hosc r⟩, fun _ _ _ => freqOffer_held, fun _ _ => droopStretch_counts,
    fun duty ev hrun hawake hidle hunflushed hstage hev => ?_, fun _ _ _ _ => restReady_agrees hosc, fun _ => rfl, restGo_rests, wakeEvent_wakes hosc,
    wakeEvent_rest, fun _ => wakeTimer_wakes hosc⟩
  have h : Chooses s := ⟨hosc, hrun, hawake, hidle, hunflushed, hstage⟩
  exact ⟨choose_dormant h hev, choose_rest h hev, fun hdeep => ⟨choose_nap h hev hdeep, choose_hold h hev hdeep, choose_nothing h hev hdeep⟩,
    choose_tells h hev⟩

end Sys2Proof.Machine
end

section
/-!
PROOFS of debug and counters: halts, steps, captain breakpoints, whistles, the whistle image and tensor watches (R603 to R623).
-/

namespace Sys2Proof.Machine

/-! ### Fields of a word -/

/-- A field is a remainder by the bit above it, without the bits below it. -/
theorem nbits_eq_mod_div (w : Nat) {hi lo : Nat} (h : lo ≤ hi) : nbits w hi lo = w % 2 ^ (hi + 1) / 2 ^ lo := by
  rw [nbits, ← Nat.mod_mul_right_div_self, ← Nat.pow_add]
  congr 3
  omega

/-- A field written: what stands above it, the value, what stands below it. -/
theorem nset_eq (w hi lo v : Nat) :
    nset w hi lo v = 2 ^ lo * (w / 2 ^ lo - w / 2 ^ lo % 2 ^ (hi + 1 - lo) + v % 2 ^ (hi + 1 - lo)) + w % 2 ^ lo := by
  have hq : w / 2 ^ lo % 2 ^ (hi + 1 - lo) ≤ w / 2 ^ lo := Nat.mod_le ..
  have hw : 2 ^ lo * (w / 2 ^ lo) + w % 2 ^ lo = w := Nat.div_add_mod ..
  have hle := Nat.mul_le_mul_left (2 ^ lo) hq
  rw [nset, nbits, Nat.mul_add, Nat.mul_sub, Nat.mul_comm _ (2 ^ lo), Nat.mul_comm _ (2 ^ lo)]
  omega

/-- Below a field that is written a word keeps its value. -/
theorem nset_mod (w hi lo v : Nat) : nset w hi lo v % 2 ^ lo = w % 2 ^ lo := by
  rw [nset_eq, Nat.mul_add_mod, Nat.mod_mod]

/-- A field reads as it was written. -/
theorem nbits_nset (w hi lo v : Nat) : nbits (nset w hi lo v) hi lo = v % 2 ^ (hi + 1 - lo) := by
  rw [nbits, nset_eq, Nat.mul_add_div (Nat.two_pow_pos lo), Nat.div_eq_of_lt (Nat.mod_lt w (Nat.two_pow_pos lo)), Nat.add_zero, Nat.add_mod,
    (Nat.modEq_iff_dvd' (Nat.mod_le ..)).1 (Nat.mod_modEq ..) |> Nat.mod_eq_zero_of_dvd, Nat.zero_add, Nat.mod_mod, Nat.mod_mod]

/-- A field reads below one that is written as it did. -/
theorem bits_setBits_below (w : Word64) {hi lo v a b : Nat} (h : a < lo) (hb : b ≤ a) (hlo : lo ≤ 64) : bits (setBits w hi lo v) a b = bits w a b := by
  have hdvd : ∀ x : Nat, x % 2 ^ lo % 2 ^ (a + 1) = x % 2 ^ (a + 1) := fun x => Nat.mod_mod_of_dvd x (Nat.pow_dvd_pow 2 h)
  have hword : ∀ x : Nat, x % 2 ^ 64 % 2 ^ lo = x % 2 ^ lo := fun x => Nat.mod_mod_of_dvd x (Nat.pow_dvd_pow 2 hlo)
  rw [bits, bits, nbits_eq_mod_div _ hb, nbits_eq_mod_div _ hb, setBits, BitVec.toNat_ofNat, ← hdvd, hword, nset_mod, hdvd]

theorem bit_setBits_below (w : Word64) {hi lo v k : Nat} (h : k < lo) (hlo : lo ≤ 64) : bit (setBits w hi lo v) k = bit w k := by
  have hbits := bits_setBits_below w (hi := hi) (v := v) h (Nat.le_refl k) hlo
  rw [bits, bits] at hbits
  rw [bit, hbits, bit]

theorem bits_setBits (w : Word64) {hi lo : Nat} (v : Nat) (h : lo ≤ hi) (hhi : hi < 64) : bits (setBits w hi lo v) hi lo = v % 2 ^ (hi + 1 - lo) := by
  have hword : ∀ x : Nat, x % 2 ^ 64 % 2 ^ (hi + 1) = x % 2 ^ (hi + 1) := fun x => Nat.mod_mod_of_dvd x (Nat.pow_dvd_pow 2 hhi)
  rw [bits, nbits_eq_mod_div _ h, setBits, BitVec.toNat_ofNat, hword, ← nbits_eq_mod_div _ h, nbits_nset]

/-- A bit set reads as set. -/
theorem bit_setBits_one (w : Word64) {k : Nat} (hk : k < 64) : bit (setBits w k k 1) k = true := by
  have hbits := bits_setBits w 1 (Nat.le_refl k) hk
  rw [Nat.add_sub_cancel_left] at hbits
  exact decide_eq_true hbits

/-! ### What an event changes -/

/-- Nothing but the functions' event rings and what leaves the package differs. -/
def EventsOnly (s t : State) : Prop := ∃ f l, t = { s with mbx := { s.mbx with fns := f }, out := l }

section

variable {s t u : State}

theorem EventsOnly.refl (s : State) : EventsOnly s s := ⟨_, _, rfl⟩

theorem EventsOnly.trans (h : EventsOnly s t) (g : EventsOnly t u) : EventsOnly s u := by
  obtain ⟨_, _, rfl⟩ := h
  obtain ⟨_, _, rfl⟩ := g
  exact ⟨_, _, rfl⟩

theorem eventsOnly_ite {c : Prop} [Decidable c] (h : EventsOnly s t) (g : EventsOnly s u) : EventsOnly s (if c then t else u) := by
  split
  · exact h
  · exact g

theorem eventsOnly_foldl {α : Type} {f : State → α → State} (h : ∀ s a, EventsOnly s (f s a)) (l : List α) (s : State) : EventsOnly s (l.foldl f s) :=
  foldl_keeps (EventsOnly s) f l s (.refl s) fun t ht a _ => ht.trans (h t a)

theorem EventsOnly.cores (h : EventsOnly s t) : t.cores = s.cores := by
  obtain ⟨_, _, rfl⟩ := h
  rfl

theorem EventsOnly.dport (h : EventsOnly s t) : t.dport = s.dport := by
  obtain ⟨_, _, rfl⟩ := h
  rfl

end

section

variable (s : State)

theorem eventsOnly_setFn (f : Nat) (x : Fn) : EventsOnly s (s.setFn f x) := ⟨_, _, rfl⟩

theorem eventsOnly_emit (o : Out) : EventsOnly s (s.emit o) := by
  unfold State.emit
  exact eventsOnly_ite (.refl s) ⟨_, _, rfl⟩

theorem eventsOnly_fireVector (fn v : Nat) : EventsOnly s (fireVector s fn v) := by
  unfold fireVector
  exact eventsOnly_ite (eventsOnly_setFn ..) (eventsOnly_emit ..)

theorem eventsOnly_interrupt (fn v : Nat) : EventsOnly s (interrupt s fn v) := by
  unfold interrupt
  exact eventsOnly_ite (eventsOnly_fireVector ..) (eventsOnly_ite (eventsOnly_setFn ..) ((eventsOnly_setFn ..).trans (eventsOnly_fireVector ..)))

theorem eventsOnly_writeEvent (fn : Nat) (e : Event) (more : Bool) : EventsOnly s (writeEvent s fn e more) := by
  unfold writeEvent
  exact (eventsOnly_setFn ..).trans (eventsOnly_foldl (fun s v => eventsOnly_interrupt s fn v) _ _)

theorem eventsOnly_drainBacklog (n fn : Nat) : EventsOnly s (drainBacklog n s fn) := by
  induction n generalizing s with
  | zero => exact .refl s
  | succ n ih =>
    unfold drainBacklog
    dsimp only
    split
    · exact .refl s
    · exact eventsOnly_ite (.refl s) (((eventsOnly_setFn ..).trans (eventsOnly_writeEvent ..)).trans (ih _))

theorem eventsOnly_notify (fn type status : Nat) (payload : List Byte) : EventsOnly s (notify s fn type status payload) := by
  unfold notify postEvent
  refine eventsOnly_ite (.refl s) (eventsOnly_ite ?_ (eventsOnly_ite (eventsOnly_setFn ..) ?_))
  · exact eventsOnly_foldl (fun s (p : Event × Bool) => eventsOnly_writeEvent s fn p.1 p.2) _ s
  · exact (eventsOnly_setFn ..).trans (eventsOnly_drainBacklog ..)

end

/-! ### Whistles (R607 to R613) -/

theorem foldl_three {α β : Type} (f : β → α → β) (b : β) (x y z : α) : [x, y, z].foldl f b = f (f (f b x) y) z := rfl

/-- A word of a field of 16 bits below two others shows it. -/
theorem bits_mkWord_low (r b c : Nat) : bits (mkWord [(0, r), (16, b), (25, c)]) 15 0 = r % 65536 := by
  have hword : mkWord [(0, r), (16, b), (25, c)] = BitVec.ofNat 64 (r + b * 65536 + c * 33554432) := by
    rw [mkWord, foldl_three]
    simp only [Nat.zero_add, Nat.pow_zero, Nat.mul_one]
    norm_num
  rw [hword, bits, nbits, BitVec.toNat_ofNat]
  omega

/-- DBG_WHISTLE after a whistle comes to be held: a later one sets MORE and widens the scope. -/
def whistleWord (s : State) (scope reason source : Nat) : Word64 :=
  setBits (if s.whistled then setBits (setBits s.dport.whistle 24 24 1) 25 25 (max scope (bits s.dport.whistle 25 25))
    else mkWord [(0, reason % 65536), (16, source % 256), (25, scope)]) 41 26 (min (bits s.dport.whistle 41 26 + 1) 65535)

/-- The state with a whistle of a scope held and shown as a word, before the image. -/
def whistleHeld (s : State) (w : Word64) (scope source pseq : Nat) : State :=
  { s with dport := { s.dport with
    whistle := w
    packageWhistle := s.dport.packageWhistle || scope == 0
    applWhistle := s.dport.applWhistle || scope == 1
    heldSeq := if scope = 1 then s.dport.heldSeq ++ [(source, pseq)] else s.dport.heldSeq } }

/-- The first whistle freezes its image. -/
def whistleFrozen (s : State) (w : Word64) (scope reason source pseq : Nat) : State :=
  let u := whistleHeld s w scope source pseq
  if s.whistled then u else { u with dport := { u.dport with imageW := some (freeze u 1 scope reason source), imageReady := false } }

/-- A whistle held: the first one posts its event, and a package whistle newly held is noted. -/
theorem holdWhistle_eq (s : State) (scope reason source pseq : Nat) : ∃ payload, holdWhistle s scope reason source pseq =
    let u := whistleFrozen s (whistleWord s scope reason source) scope reason source pseq
    let v := if s.whistled then u else notify u 0 mWHISTLE_EVENT 0 payload
    if scope = 0 ∧ s.dport.packageWhistle = false then v.send .all (.whistleNote false) else v := by
  refine ⟨leBytes 1 scope ++ leBytes 1 source ++ leBytes 2 reason ++ zeros 4 ++ leBytes 8 s.aon, ?_⟩
  unfold holdWhistle
  extract_lets d cnt w0 w first newPkg d1 s1 _ s3 s4 u v
  have hw : w = whistleWord s scope reason source := rfl
  clear_value w
  subst hw
  have h3 : s3 = u := by
    cases h : s.whistled with
    | true => exact (if_neg (by simp [first, h])).trans (if_pos h).symm
    | false => exact (if_pos (by simp [first, h])).trans (if_neg (by simp [h])).symm
  have h4 : s4 = v := by
    simp only [s4, v, first, h3]
    split <;> simp_all
  rw [h4]
  exact if_congr (by simp [newPkg, d]) rfl rfl

section

variable {s : State}

theorem whistleWord_reason_first {scope reason source : Nat} (h : s.whistled = false) : bits (whistleWord s scope reason source) 15 0 = reason % 65536 := by
  rw [whistleWord, bits_setBits_below _ (by decide) (by decide) (by decide), h, if_neg Bool.false_ne_true, bits_mkWord_low, Nat.mod_mod]

theorem whistleWord_reason_later {scope reason source : Nat} (h : s.whistled = true) :
    bits (whistleWord s scope reason source) 15 0 = bits s.dport.whistle 15 0 := by
  rw [whistleWord, if_pos h]
  iterate 3 rw [bits_setBits_below _ (by decide) (by decide) (by decide)]

theorem whistleWord_more {scope reason source : Nat} (h : s.whistled = true) : bit (whistleWord s scope reason source) 24 = true := by
  rw [whistleWord, if_pos h, bit_setBits_below _ (by decide) (by decide), bit_setBits_below _ (by decide) (by decide), bit_setBits_one _ (by decide)]

/-- What a held whistle shows, whoever blew it. -/
structure WhistleHeld (s t : State) (scope reason : Nat) : Prop where
  whistled : t.whistled = true
  memory : KeepsMemory s t
  cores : t.cores = s.cores
  package : scope = 0 → t.dport.packageWhistle = true ∧ t.dport.applWhistle = s.dport.applWhistle ∧
    (s.dport.packageWhistle = false → Tells t .all (.whistleNote false))
  appliance : scope = 1 → t.dport.applWhistle = true ∧ t.dport.packageWhistle = s.dport.packageWhistle
  first : s.whistled = false → bits t.dport.whistle 15 0 = reason % 65536 ∧ t.dport.imageReady = false ∧
    ∃ x, t.dport.imageW = some x ∧ x.reason = reason ∧ x.scope = scope ∧ x.cause = 1 ∧ x.aon = s.aon ∧ x.cores = s.cores
  later : s.whistled = true → t.dport.imageW = s.dport.imageW ∧ bits t.dport.whistle 15 0 = bits s.dport.whistle 15 0 ∧ bit t.dport.whistle 24 = true

theorem whistleFrozen_eq (s : State) (w : Word64) (scope reason source pseq : Nat) : whistleFrozen s w scope reason source pseq =
    { s with dport := (whistleFrozen s w scope reason source pseq).dport } := by
  unfold whistleFrozen
  dsimp only
  split <;> rfl

theorem whistleFrozen_dport (s : State) (w : Word64) (scope reason source pseq : Nat) {d : Debug}
    (h : d = (whistleFrozen s w scope reason source pseq).dport) :
    d.packageWhistle = (s.dport.packageWhistle || scope == 0) ∧ d.applWhistle = (s.dport.applWhistle || scope == 1) ∧ d.whistle = w ∧
      (s.whistled = false → d.imageReady = false ∧ ∃ x, d.imageW = some x ∧ x.reason = reason ∧ x.scope = scope ∧ x.cause = 1 ∧ x.aon = s.aon ∧
        x.cores = s.cores) ∧
      (s.whistled = true → d.imageW = s.dport.imageW) := by
  rw [h]
  unfold whistleFrozen
  cases s.whistled with
  | true => exact ⟨rfl, rfl, rfl, nofun, fun _ => rfl⟩
  | false => exact ⟨rfl, rfl, rfl, fun _ => ⟨rfl, _, rfl, rfl, rfl, rfl, rfl, rfl⟩, nofun⟩

theorem whistleHeld_frozen {scope : Nat} (reason source pseq : Nat) (hscope : scope < 2) {t : State}
    (hdport : t.dport = (whistleFrozen s (whistleWord s scope reason source) scope reason source pseq).dport)
    (hmem : KeepsMemory s t) (hcores : t.cores = s.cores) (htells : scope = 0 → s.dport.packageWhistle = false → Tells t .all (.whistleNote false)) :
    WhistleHeld s t scope reason := by
  obtain ⟨hpackage, happl, hword, hfrozen, hkept⟩ := whistleFrozen_dport s _ scope reason source pseq hdport
  refine ⟨?_, hmem, hcores, ?_, ?_, fun hfirst => ⟨by rw [hword, whistleWord_reason_first hfirst], hfrozen hfirst⟩,
    fun hlater => ⟨hkept hlater, by rw [hword, whistleWord_reason_later hlater], by rw [hword, whistleWord_more hlater]⟩⟩
  · rw [State.whistled, hpackage, happl]
    have : scope = 0 ∨ scope = 1 := by omega
    rcases this with rfl | rfl <;> simp
  · rintro rfl
    exact ⟨by rw [hpackage]; simp, by rw [happl]; simp, htells rfl⟩
  · rintro rfl
    exact ⟨by rw [happl]; simp, by rw [hpackage]; simp⟩

theorem holdWhistle_held (hosc : s.entry.oscDead = false) {scope : Nat} (hscope : scope < 2) (reason source pseq : Nat) :
    WhistleHeld s (holdWhistle s scope reason source pseq) scope reason := by
  obtain ⟨payload, hhold⟩ := holdWhistle_eq s scope reason source pseq
  have hfrozen := whistleFrozen_eq s (whistleWord s scope reason source) scope reason source pseq
  rw [hhold]
  extract_lets u v
  have hu : KeepsMemory s u ∧ u.cores = s.cores ∧ u.entry = s.entry := by
    rw [show u = _ from hfrozen]
    exact ⟨keepsMemory_same _ _ rfl rfl, rfl, rfl⟩
  have huv : EventsOnly u v ∧ KeepsMemory u v := by
    simp only [v]
    split
    · exact ⟨.refl u, keepsMemory_refl u⟩
    · exact ⟨eventsOnly_notify .., (keepsBytes_notify ..).memory⟩
  have hv : v.dport = u.dport := huv.1.dport
  have hventry : v.entry.oscDead = false := by
    obtain ⟨_, _, h⟩ := huv.1
    rw [h, hu.2.2, hosc]
  have hcores : v.cores = s.cores := huv.1.cores.trans hu.2.1
  clear_value v
  split
  · exact whistleHeld_frozen reason source pseq hscope (by rw [State.send_dport, hv]) ((hu.1.trans huv.2).trans (keepsBytes_send ..).memory)
      (by rw [State.send_cores, hcores]) fun _ _ => tells_send hventry ..
  · next hnone => exact whistleHeld_frozen reason source pseq hscope hv (hu.1.trans huv.2) hcores fun h h' => absurd ⟨h, h'⟩ hnone

theorem keepsMemory_holdWhistle (s : State) (scope reason source pseq : Nat) : KeepsMemory s (holdWhistle s scope reason source pseq) := by
  obtain ⟨payload, hhold⟩ := holdWhistle_eq s scope reason source pseq
  rw [hhold]
  extract_lets u v
  have hu : KeepsMemory s u := by
    rw [show u = _ from whistleFrozen_eq ..]
    exact keepsMemory_same _ _ rfl rfl
  have hv : KeepsMemory u v := (keepsBytes_ite (.refl u) (keepsBytes_notify ..)).memory
  split
  · exact (hu.trans hv).trans (keepsBytes_send ..).memory
  · exact hu.trans hv

theorem keepsMemory_blowWhistle (s : State) (scope reason : Nat) : KeepsMemory s (blowWhistle s scope reason) := by
  unfold blowWhistle
  exact (keepsBytes_ite (keepsBytes_send ..) (.refl s)).memory.trans (keepsMemory_holdWhistle ..)

/-- A package that blows a whistle holds it. -/
theorem blowWhistle_held (hosc : s.entry.oscDead = false) {scope : Nat} (hscope : scope < 2) (reason : Nat) :
    WhistleHeld s (blowWhistle s scope reason) scope reason := by
  unfold blowWhistle
  extract_lets q s1
  by_cases h : scope = 1
  · have hs1 : s1 = s.send .all (.whistle 1 reason) := if_pos h
    have hheld := holdWhistle_held (s := s1) (by rw [hs1, State.send_entry, hosc]) hscope reason s.fab.node q
    have hdport : s1.dport = s.dport := by rw [hs1, State.send_dport]
    have hwhistled : s1.whistled = s.whistled := by rw [State.whistled, hdport, State.whistled]
    have haon : s1.aon = s.aon := by rw [hs1, State.send_aon]
    have hcores : s1.cores = s.cores := by rw [hs1, State.send_cores]
    have hmem : KeepsMemory s s1 := by rw [hs1]; exact (keepsBytes_send ..).memory
    refine ⟨hheld.whistled, hmem.trans hheld.memory, hheld.cores.trans hcores, ?_, ?_, ?_, ?_⟩
    · rw [← hdport]
      exact hheld.package
    · rw [← hdport]
      exact hheld.appliance
    · rw [← hwhistled, ← haon, ← hcores]
      exact hheld.first
    · rw [← hwhistled, ← hdport]
      exact hheld.later
  · rw [show s1 = s from if_neg h]
    exact holdWhistle_held hosc hscope ..

/-- A whistle of the TAP, of DBG_WHISTLE or from CTL. -/
theorem whistle_held (hosc : s.entry.oscDead = false) (i : Instr) (scope reason : Nat)
    (hi : (∃ r, i = .tapWhistle r ∧ scope = 0 ∧ reason = (if r % 65536 = 0 then 0x8001 else r % 65536)) ∨
      (∃ v, i = .whistleRegBlow v ∧ s.dport.level = 2 ∧ bit v 17 = false ∧ scope = bits v 16 16 ∧ reason = bits v 15 0) ∨
      (∃ src q, i = .whistle src q scope reason ∧ takesFrom s src = true ∧ scope < 2)) :
    ∃ t, exec i s = .next t ∧ WhistleHeld s t scope reason := by
  rcases hi with ⟨r, rfl, rfl, rfl⟩ | ⟨v, rfl, hlevel, hrelease, rfl, rfl⟩ | ⟨src, q, rfl, hfrom, hscope⟩
  · obtain ⟨hwhistled, hmem, hcores, hpackage, happl, hfirst, hlater⟩ :=
      blowWhistle_held (s := tapIr s 0x21) hosc (Nat.zero_lt_two) (if r % 65536 = 0 then 0x8001 else r % 65536)
    exact ⟨_, rfl, hwhistled, (keepsMemory_same s (tapIr s 0x21) rfl rfl).trans hmem, hcores, hpackage, happl, hfirst, hlater⟩
  · have hrun : exec (.whistleRegBlow v) s = .next (blowWhistle s (bits v 16 16) (bits v 15 0)) :=
      congrArg Host.Outcome.next ((if_pos (by simp [hlevel, hrelease])).trans (if_neg (by simp [hrelease])))
    exact ⟨_, hrun, blowWhistle_held hosc (bits_lt ..) _⟩
  · exact ⟨_, congrArg Host.Outcome.next (if_pos ⟨hfrom, hscope⟩), holdWhistle_held hosc hscope ..⟩

/-! ### Releases (R609, R612) -/

theorem afterRelease_of_free (h : s.whistled = false) : ∃ w, afterRelease s =
    { s with dport := { s.dport with imageW := none, imageReady := false, heldSeq := [], whistle := w } } := ⟨_, if_neg (by simp [h])⟩

/-- What the end of a whistle leaves: the held state is let go once no whistle is held. -/
theorem afterRelease_spec (s : State) : (afterRelease s).dport.applWhistle = s.dport.applWhistle ∧ (afterRelease s).whistled = s.whistled ∧
    (s.whistled = false → (afterRelease s).dport.imageW = none) ∧ (s.whistled = true → (afterRelease s).dport.imageW = s.dport.imageW) ∧
    afterRelease s = { s with dport := (afterRelease s).dport } := by
  cases h : s.whistled with
  | true =>
    rw [show afterRelease s = s from if_pos h]
    exact ⟨rfl, h, nofun, fun _ => rfl, rfl⟩
  | false =>
    obtain ⟨w, hw⟩ := afterRelease_of_free h
    rw [hw]
    exact ⟨rfl, h, fun _ => rfl, nofun, rfl⟩

theorem whistleRegRelease_eq (hlevel : s.dport.level = 2) :
    exec .whistleRegRelease s = .next (if s.dport.applWhistle then s else releasePackage s) :=
  congrArg Host.Outcome.next ((if_pos hlevel).trans (if_pos (by decide)))

theorem whistleRegRelease_releases (hosc : s.entry.oscDead = false) (hlevel : s.dport.level = 2) (happl : s.dport.applWhistle = false)
    (hpackage : s.dport.packageWhistle = true) : ∃ t, exec .whistleRegRelease s = .next t ∧ t.whistled = false ∧ t.dport.imageW = none ∧
      Tells t .all (.whistleNote true) ∧ t = { s with dport := t.dport, fab := t.fab, out := t.out } := by
  set u : State := { s with dport := { s.dport with packageWhistle := false } }
  have hsent : (u.send .all (.whistleNote true)).dport = u.dport := State.send_dport ..
  have hfree : (u.send .all (.whistleNote true)).whistled = false := by
    rw [State.whistled, hsent]
    exact happl
  have htells : Tells (u.send .all (.whistleNote true)) .all (.whistleNote true) := tells_send (s := u) hosc ..
  have hrest : u.send .all (.whistleNote true) =
      { u with fab := (u.send .all (.whistleNote true)).fab, out := (u.send .all (.whistleNote true)).out } := by
    unfold State.send
    split <;> rfl
  have hrun : exec .whistleRegRelease s = .next (afterRelease (u.send .all (.whistleNote true))) := by
    rw [whistleRegRelease_eq hlevel, if_neg (by simp [happl])]
    exact congrArg Host.Outcome.next (if_pos hpackage)
  obtain ⟨-, hwhistled, hnone, -, hafter⟩ := afterRelease_spec (u.send .all (.whistleNote true))
  generalize u.send .all (.whistleNote true) = v at *
  refine ⟨_, hrun, hwhistled.trans hfree, hnone hfree, ?_, ?_⟩
  · rw [hafter]
    exact htells
  · rw [hafter, hrest]

theorem whistleNote_marks (src q : Nat) (rel : Bool) (hfrom : takesFrom s src = true) (hsrc : src ≠ s.fab.node) :
    ∃ t, exec (.whistleNote src q rel) s = .next t ∧
      (src ∈ t.dport.whistled ↔ rel = false) ∧ (∀ j, j ≠ src → (j ∈ t.dport.whistled ↔ j ∈ s.dport.whistled)) ∧ t = { s with dport := t.dport } ∧
      t.whistled = s.whistled := by
  refine ⟨_, congrArg Host.Outcome.next (if_neg (by simp [hfrom, hsrc])), ?_, fun j hj => ?_, rfl, rfl⟩
  · cases rel <;> simp
  · cases rel <;> simp [hj]

theorem whistleRelease_releases (src q : Nat) (hfrom : takesFrom s src = true) : ∃ t, exec (.whistleRelease src q) s = .next t ∧
    t.dport.applWhistle = false ∧ t.whistled = s.dport.packageWhistle ∧
    (s.dport.packageWhistle = false → t.dport.imageW = none) ∧ (s.dport.packageWhistle = true → t.dport.imageW = s.dport.imageW) ∧
    t = { s with dport := t.dport } := by
  obtain ⟨happl, hwhistled, hnone, hkept, hrest⟩ := afterRelease_spec { s with dport := { s.dport with applWhistle := false, heldSeq := [] } }
  have hown : ({ s with dport := { s.dport with applWhistle := false, heldSeq := [] } } : State).whistled = s.dport.packageWhistle := Bool.or_false _
  rw [hown] at hwhistled hnone hkept
  exact ⟨_, congrArg Host.Outcome.next (if_pos hfrom), happl, hwhistled, hnone, hkept, hrest⟩

theorem scoreboardImageReady_shows (h : s.dport.imageW.isSome = true) :
    exec .scoreboardImageReady s = .next { s with dport := { s.dport with imageReady := true } } := congrArg Host.Outcome.next (if_pos h)

theorem scoreboardImageReady_of_none (h : s.dport.imageW = none) : exec .scoreboardImageReady s = .next s :=
  congrArg Host.Outcome.next (if_neg (by simp [h]))

/-! ### Cores (R603, R604) -/

theorem coreHalt_halts {c : Nat} (h : Bool) (hlevel : s.dport.level = 2) (hregs : s.coreRegs c = true) :
    ∃ t, exec (.coreHalt c h) s = .next t ∧ bit (t.core c).ctrl 0 = h ∧
      (∀ k, t.slot c k = s.slot c k) ∧ (∀ j, j ≠ c → t.core j = s.core j) ∧ t = { s with cores := t.cores } ∧ KeepsMemory s t := by
  have hrun : exec (.coreHalt c h) s = .next (coreHalt s c h) := congrArg Host.Outcome.next (if_pos ⟨hlevel, hregs⟩)
  have hbit := bit_setBits_zero (s.core c).ctrl h
  unfold coreHalt at hrun
  generalize setBits (s.core c).ctrl 0 0 (b2n h) = w at hrun hbit
  refine ⟨_, hrun, ?_, State.slot_setCore_of_slots s c { s.core c with ctrl := w } fun _ => rfl, fun j hj => ?_, rfl, keepsMemory_setCore s c _ rfl rfl⟩
  · rw [State.core_setCore_same, hbit]
  · rw [State.core_setCore, if_neg hj]

theorem coreHalt_of_locked {c : Nat} {h : Bool} (hno : s.dport.level ≠ 2 ∨ s.coreRegs c = false) : exec (.coreHalt c h) s = .next s :=
  congrArg Host.Outcome.next (if_neg fun hyes => hno.elim (fun h => h hyes.1) fun h => by simp [h] at hyes)

theorem keepsMemory_brkHit (s : State) (c i : Nat) : KeepsMemory s (brkHit s c i) := by
  unfold brkHit
  extract_lets sel d s1
  have h1 : KeepsMemory s s1 := keepsMemory_same _ _ rfl rfl
  clear_value s1
  split
  · exact h1
  · exact h1.trans (keepsMemory_setCore s1 c _ rfl rfl)
  · exact h1.trans (keepsMemory_blowWhistle ..)
  · exact h1.trans (keepsMemory_blowWhistle ..)

theorem keepsMemory_dispatchSlot (s : State) (c k : Nat) : KeepsMemory s (dispatchSlot s c k) := by
  unfold dispatchSlot
  extract_lets K x cmd K1 s1 hits s2
  have h1 : KeepsMemory s s1 := keepsMemory_setCore s c _ (by simp [K1, K]) (by simp [K1, K])
  have h2 : KeepsMemory s s2 := h1.trans (keepsMemory_foldl (fun s i => brkHit s c i) (fun s i => keepsMemory_brkHit s c i) hits s1)
  clear_value s2
  split
  · exact h2.trans (keepsMemory_setCore s2 c _ rfl rfl)
  · split
    · exact h2.trans (keepsMemory_setCore s2 c _ (by simp) (by simp))
    · exact h2.trans (keepsMemory_slotFault ..)
    · exact (h2.trans (keepsMemory_same _ _ rfl rfl)).trans (keepsMemory_slotFault ..)

/-- The slot of a step as it is written. -/
def stepWritten (s : State) (c k : Nat) : State := s.setCore c { s.core c with ctrl := setBits (s.core c).ctrl 3 2 k }

theorem coreStep_eq (s : State) (c k : Nat) : coreStep s c k =
    if (!s.coreHeld c || (s.core c).step.isSome) = true then stepWritten s c k
    else if (!canDispatch (s.core c) k || !stepAdmits (s.core c) k) = true then stepEnds (stepWritten s c k) c
    else if ((dispatchSlot (stepWritten s c k) c k).core c).serial = (s.core c).serial + 1 then
      (dispatchSlot (stepWritten s c k) c k).setCore c
        { (dispatchSlot (stepWritten s c k) c k).core c with step := some (k, some (s.core c).serial) }
    else stepEnds (dispatchSlot (stepWritten s c k) c k) c := rfl

theorem stepWritten_slots (s : State) (c k j : Nat) : (stepWritten s c k).slot c j = s.slot c j := by
  unfold stepWritten
  generalize setBits (s.core c).ctrl 3 2 k = w
  exact State.slot_setCore_of_slots s c { s.core c with ctrl := w } (fun _ => rfl) j

theorem stepWritten_step (s : State) (c k : Nat) : ((stepWritten s c k).core c).step = (s.core c).step := by
  rw [stepWritten, State.core_setCore_same]

theorem keepsMemory_stepWritten (s : State) (c k : Nat) : KeepsMemory s (stepWritten s c k) := keepsMemory_setCore s c _ rfl rfl

theorem stepEnds_slots (s : State) (c j : Nat) : (stepEnds s c).slot c j = s.slot c j := by
  unfold stepEnds
  generalize setBits (s.core c).ctrl 4 4 1 = w
  exact State.slot_setCore_of_slots s c { s.core c with step := none, ctrl := w } (fun _ => rfl) j

theorem stepEnds_done (s : State) (c : Nat) : bit ((stepEnds s c).core c).ctrl 4 = true ∧ ((stepEnds s c).core c).step = none := by
  rw [stepEnds, State.core_setCore_same]
  exact ⟨bit_setBits_one _ (by decide), rfl⟩

theorem keepsMemory_stepEnds (s : State) (c : Nat) : KeepsMemory s (stepEnds s c) := keepsMemory_setCore s c _ rfl rfl

theorem keepsMemory_coreStep (s : State) (c k : Nat) : KeepsMemory s (coreStep s c k) := by
  have hwritten := keepsMemory_stepWritten s c k
  have hdispatched := hwritten.trans (keepsMemory_dispatchSlot (stepWritten s c k) c k)
  rw [coreStep_eq]
  split
  · exact hwritten
  · split
    · exact hwritten.trans (keepsMemory_stepEnds ..)
    · split
      · exact hdispatched.trans (keepsMemory_setCore _ c _ rfl rfl)
      · exact hdispatched.trans (keepsMemory_stepEnds ..)

/-- A step of a halted core is in progress, or done. -/
theorem coreStep_steps {c k : Nat} (hheld : s.coreHeld c = true) (hstep : (s.core c).step = none) :
    ((coreStep s c k).core c).step.isSome = true ∨ bit ((coreStep s c k).core c).ctrl 4 = true := by
  rw [coreStep_eq, if_neg (by simp [hheld, hstep])]
  split
  · exact .inr (stepEnds_done ..).1
  · split
    · rw [State.core_setCore_same]
      exact .inl rfl
    · exact .inr (stepEnds_done ..).1

theorem step_of_lasting {t : State} (h : lasting t = lasting s) (c : Nat) : (t.core c).step = (s.core c).step :=
  (congrArg Core.step (core_of_lasting h c) :)

theorem ctrl_of_lasting {t : State} (h : lasting t = lasting s) (c : Nat) : (t.core c).ctrl = (s.core c).ctrl :=
  (congrArg Core.ctrl (core_of_lasting h c) :)

theorem coreStep_locked {c k : Nat} (h : s.dport.level ≠ 2) : exec (.coreStep c k) s = .next s :=
  congrArg Host.Outcome.next (if_neg fun hyes => h hyes.1)

theorem coreStep_acts (hs : Settled s) {c k : Nat} (hlevel : s.dport.level = 2) (hregs : s.coreRegs c = true) (hk : k < 4) :
    ∃ t, exec (.coreStep c k) s = .next t ∧ KeepsMemory s t ∧
      (s.coreHeld c = false ∨ (s.core c).step.isSome = true → t = { s with cores := t.cores } ∧ (t.core c).step = (s.core c).step ∧
        ∀ j, t.slot c j = s.slot c j) ∧
      (s.coreHeld c = true → (s.core c).step = none → canDispatch (s.core c) k = false ∨ stepAdmits (s.core c) k = false → bit (t.core c).ctrl 4 = true ∧
        (t.core c).step = none ∧ (∀ j, t.slot c j = s.slot c j) ∧ t = { s with cores := t.cores }) ∧
      (s.coreHeld c = true → (s.core c).step = none → (t.core c).step.isSome = true ∨ bit (t.core c).ctrl 4 = true) := by
  have hmem := (keepsMemory_coreStep s c k).trans (keepsBytes_settle (coreStep s c k)).memory
  refine ⟨_, congrArg Host.Outcome.next (if_pos ⟨hlevel, hregs, hk⟩), hmem, fun hwaits => ?_, fun hheld hstep hblocked => ?_, fun hheld hstep => ?_⟩
  · have hrun : coreStep s c k = stepWritten s c k := by
      rw [coreStep_eq, if_pos]
      rcases hwaits with h | h <;> simp [h]
    rw [hrun, settle_of_settled (t := stepWritten s c k) hs rfl]
    exact ⟨rfl, stepWritten_step .., stepWritten_slots s c k⟩
  · have hrun : coreStep s c k = stepEnds (stepWritten s c k) c := by
      rw [coreStep_eq, if_neg (by simp [hheld, hstep]), if_pos]
      rcases hblocked with h | h <;> simp [h]
    rw [hrun, settle_of_settled (t := stepEnds (stepWritten s c k) c) hs rfl]
    exact ⟨(stepEnds_done ..).1, (stepEnds_done ..).2, fun j => (stepEnds_slots ..).trans (stepWritten_slots ..), rfl⟩
  · rw [step_of_lasting (lasting_settle _), ctrl_of_lasting (lasting_settle _)]
    exact coreStep_steps hheld hstep

/-! ### Captain breakpoints (R606) -/

theorem captBreakpoint_halts {c b : Nat} (hc : c < 8) (hb : b < 4) (hrunning : s.captHalted c = false) :
    (bit (tget 0 (s.capt c).brk b) 0 = false → exec (.captBreakpoint c b) s = .next s) ∧
      (bit (tget 0 (s.capt c).brk b) 0 = true → ∃ t, exec (.captBreakpoint c b) s = .next t ∧ t.captHalted c = true ∧
        (t.capt c).pc = BitVec.ofNat 32 (bits (tget 0 (s.capt c).brk b) 31 2 * 4) ∧ (∀ j, j ≠ c → t.capt j = s.capt j) ∧
        t = { s with dport := t.dport, fab := t.fab, out := t.out }) := by
  refine ⟨fun hoff => congrArg Host.Outcome.next (if_neg fun hyes => Bool.false_ne_true (hoff.symm.trans hyes.2.2.1)), fun hon => ?_⟩
  set pc : BitVec 32 := BitVec.ofNat 32 (bits (tget 0 (s.capt c).brk b) 31 2 * 4)
  set u := s.setCapt c { s.capt c with pc := pc } with hu
  have hrun : exec (.captBreakpoint c b) s = .next (captHalt u c true) := congrArg Host.Outcome.next (if_pos ⟨hc, hb, hon, by simp [hrunning]⟩)
  obtain ⟨hhalted, hothers⟩ := haltWritten_halts u c true
  have hpc : ((haltWritten u c true).capt c).pc = pc := by
    rw [haltWritten, capt_setCapt, if_pos rfl, hu, capt_setCapt, if_pos rfl]
  have hkept : ∀ j, j ≠ c → (haltWritten u c true).capt j = s.capt j := fun j hj => (hothers j hj).trans (by rw [hu, capt_setCapt, if_neg hj])
  have hdport : (captHalt u c true).dport = (haltWritten u c true).dport := by
    rw [captHalt_eq]
    split
    · rw [yield_rest]
    · rfl
  have hrest : captHalt u c true = { s with dport := (captHalt u c true).dport, fab := (captHalt u c true).fab, out := (captHalt u c true).out } := by
    rw [captHalt_eq]
    split
    · rw [yield_rest]
      rfl
    · rfl
  have hcapt : ∀ j, (captHalt u c true).capt j = (haltWritten u c true).capt j := fun j => by rw [State.capt, hdport, State.capt]
  refine ⟨_, hrun, ?_, by rw [hcapt, hpc], fun j hj => by rw [hcapt, hkept j hj], hrest⟩
  rw [State.captHalted, hcapt]
  exact hhalted

/-! ### Tensor watches (R620, R621) -/

theorem watchHeader_length (s : State) (w : Watch) (heat fmt row0 rb n : Nat) (trunc masked : Bool) (status : Nat) :
    (watchHeader s w heat fmt row0 rb n trunc masked status).length = 60 := by
  simp [watchHeader, leBytes_length, zeros]

/-- Host memory takes one write, whole or as far as it went. -/
theorem dmaOut_writes (hosc : s.entry.oscDead = false) (path addr : Nat) (l : List Byte) (h : HostReply) :
    ∃ o, (dmaOut s path addr l h).1 = { s with out := s.out ++ [o] } := by
  unfold dmaOut
  split
  · split <;> exact ⟨_, emit_of_running hosc ..⟩
  · exact ⟨_, emit_of_running hosc ..⟩

theorem tensorWatchFire_fires (hosc : s.entry.oscDead = false) {c x l id fmt row0 rb : Nat} {rows : List (Bool × List Byte)} {host : HostReply} {w : Watch}
    (hw : s.dport.watches.find? (fun w => w.ctx == c && w.tensor == x && w.lap == l) = some w) (hfree : s.whistled = false)
    (hlive : (s.heat id).live = true) (hctx : (s.heat id).desc.ctx = c) (hlap : (s.heat id).desc.lap = l) (hlen : 64 ≤ w.length) :
    ∃ t head, exec (.tensorWatchFire c x l id fmt row0 rb rows host) s = .next t ∧ t.dport.watches = s.dport.watches.erase w ∧
      t = { s with dport := t.dport, out := t.out } ∧ head.length = 60 ∧
      ∃ body, t.out = s.out ++ body ++ [.dma w.fn w.hostAddr head, .dma w.fn (w.hostAddr + 60) (leBytes 4 0x57544B58)] := by
  set u : State := { s with dport := { s.dport with watches := s.dport.watches.erase w } }
  obtain ⟨head, data, hrun, hhead⟩ : ∃ head data, exec (.tensorWatchFire c x l id fmt row0 rb rows host) s =
      .next (((dmaOut u w.fn (w.hostAddr + 64) data host).1.emit (.dma w.fn w.hostAddr head)).emit
        (.dma w.fn (w.hostAddr + 60) (leBytes 4 0x57544B58))) ∧ head.length = 60 := by
    change ∃ head data, execTensorWatchFire c x l id fmt row0 rb rows host s = _ ∧ _
    unfold execTensorWatchFire
    rw [hw]
    exact ⟨_, _, congrArg Host.Outcome.next (if_neg (by simp [hfree, hlive, hctx, hlap, hosc, hlen])), watchHeader_length ..⟩
  obtain ⟨o, ho⟩ := dmaOut_writes (s := u) hosc w.fn (w.hostAddr + 64) data host
  rw [ho, emit_of_running (s := { u with out := u.out ++ [o] }) hosc, emit_of_running (by exact hosc)] at hrun
  exact ⟨_, head, hrun, rfl, rfl, hhead, [o], by simp [u]⟩

end

/-- Settles O58, one lemma for each command. -/
theorem haltsAndWhistlesHoldThePackage : Obligations.HaltsAndWhistlesHoldThePackage := by
  unfold Obligations.HaltsAndWhistlesHoldThePackage
  refine fun s hosc => ⟨fun c h => ⟨coreHalt_of_locked, coreHalt_halts h⟩, fun hs c k => ⟨coreStep_locked, coreStep_acts hs⟩,
    fun _ _ => captBreakpoint_halts, fun i scope reason hi => ?_, fun hlevel => ⟨fun happl => ?_, whistleRegRelease_releases hosc hlevel⟩,
    whistleNote_marks, whistleRelease_releases, scoreboardImageReady_shows, scoreboardImageReady_of_none, fun _ _ _ _ _ _ _ _ _ _ => tensorWatchFire_fires hosc⟩
  · obtain ⟨t, hrun, hwhistled, hmem, hcores, hpackage, happl, hfirst, hlater⟩ := whistle_held hosc i scope reason hi
    exact ⟨t, hrun, hwhistled, hmem, hcores, hpackage, happl, hfirst, hlater⟩
  · rw [whistleRegRelease_eq hlevel, if_pos happl]

end Sys2Proof.Machine
end

section
/-!
PROOFS of the twins: a rejoin's copy (R282, R501). The survivor's pages leave as mirrored positions, and each adds one to its map's count of positions not yet
acknowledged, so the maps do not stay as they are while they are copied.
-/

namespace Sys2Proof.Machine

/-- A present session map with one page, which holds one position. -/
def survivorMap : KvMap := { KvMap.reset with present := true, lists := [⟨0, 0, 0, false, false, [⟨0, 0, 0, 1, 0, false, false⟩]⟩] }

/-- A SINGLE package whose plan makes link 0 a twin link to node 3, and that keeps one session. -/
def survivor : State :=
  { State.reset with
    settings := { Settings.reset with run := [(0x0810, 0x0301)] }
    twin := { Twin.reset with state := .single }
    srv := { Serving.reset with maps := [(0, survivorMap)] } }

/-- A JOIN of node 3 that matches the survivor. -/
def rejoiner : JoinInfo := { ownJoin survivor with node := 3 }

theorem survivor_twinNode : survivor.twinNode = some rejoiner.node := by decide

theorem joinOk_survivor : joinOk survivor rejoiner = true := by decide

/-- A JOIN that matches a SINGLE package's own begins the copy. -/
theorem exec_join_copies {s : State} {i : JoinInfo} (htwin : s.twinNode = some i.node) (hsingle : s.twin.state = .single) (hok : joinOk s i = true) :
    exec (.join i) s = .next (startCopy s i.node) := congrArg Host.Outcome.next ((if_pos ⟨htwin, hsingle⟩).trans (if_pos hok))

/-- The copied position waits for its acknowledgement. -/
theorem unacked_startCopy_survivor : ((startCopy survivor rejoiner.node).map 0).unacked = 1 := by decide

/-- Refutes O53 in its JOIN clause: the copy mirrors the survivor's one position, so that its map does not stay as it is but counts the position as not yet
acknowledged. -/
theorem not_twinsReplaySealAndRejoin : ¬ Obligations.TwinsReplaySealAndRejoin := by
  unfold Obligations.TwinsReplaySealAndRejoin
  intro h
  obtain ⟨-, -, -, -, -, -, -, hjoin, -⟩ := h survivor rfl
  obtain ⟨hmatches, -⟩ := hjoin rejoiner survivor_twinNode rfl (.join rejoiner) (.inl rfl)
  obtain ⟨t, hrun, -, -, -, -, -, hmaps, -⟩ := hmatches joinOk_survivor
  rw [exec_join_copies survivor_twinNode rfl joinOk_survivor] at hrun
  obtain rfl := Host.Outcome.next.inj hrun
  have hkept : ((startCopy survivor rejoiner.node).map 0).unacked = 0 := congrArg KvMap.unacked (hmaps 0 rfl)
  exact absurd (unacked_startCopy_survivor.symm.trans hkept) (by decide)

end Sys2Proof.Machine
end

section
/-!
PROOFS of boot and settings: the resets (R563, R585, R586, R590, R591, R634, R636). What a reset does to the tables of serving and to the near memory, and the
power-on, package and warm resets.
-/

namespace Sys2Proof.Machine

/-! ### Power-on, the package reset and PERST# -/

section

variable {s : State}

theorem powerOn_clears (aux : Bool) (straps : BitVec 8) : ∃ t, exec (.powerOn aux straps) s = .next t ∧
    t.aon = 0 ∧ t.boot.cause = 1 ∧ t.boot.stage = 0 ∧ t.boot.nor = s.boot.nor ∧ t.pkg = s.pkg ∧
    t.fab.node = straps.toNat ∧ t.entry.nid = straps ∧ t.entry.aux = aux ∧ t.entry.inputOn = true ∧ t.entry.hostHeld = s.entry.perst ∧
    t.entry.uvEvent = false ∧ t.entry.thermTrip = false ∧ t.entry.warns = 0 ∧ t.entry.oscDead = s.entry.oscDead ∧ t.settings = Settings.reset ∧
    t.cores = [] ∧ t.starters = [] ∧ t.beside = [] ∧ t.parts = [] ∧ t.srv = Serving.reset ∧ t.twin = Twin.reset ∧ t.power = Power.reset ∧ t.dport = Debug.reset ∧
    t.energy.inputUj = 0 ∧ (∀ o ∈ t.far.objs, o.2.tier = 2 ∧ o.2.ttl = 0 ∧ o.2.state ≠ .writing) ∧ t.out = s.out := by
  refine ⟨_, rfl, rfl, rfl, rfl, rfl, rfl, rfl, rfl, rfl, rfl, rfl, rfl, rfl, rfl, rfl, rfl, rfl, rfl, rfl, rfl, rfl, rfl, rfl, rfl, rfl, ?_, rfl⟩
  intro o ho
  obtain ⟨x, hx, rfl⟩ := List.mem_map.1 ho
  obtain ⟨-, hkept⟩ := List.mem_filter.1 hx
  simp only [Bool.and_eq_true, bne_iff_ne, beq_iff_eq] at hkept
  exact ⟨hkept.2, hkept.1.2, hkept.1.1⟩

/-- A settings commit lost with its bank changes nothing but the NOR. -/
theorem lostCommit_eq (s : State) : ∃ n, lostCommit s = { s with boot := { s.boot with nor := n } } ∧ (s.boot.commits = [] → n = s.boot.nor) := by
  unfold lostCommit
  split
  · exact ⟨_, rfl, fun _ => rfl⟩
  · next h => exact ⟨_, rfl, fun hnone => absurd (by simp [hnone]) h⟩

theorem packageReset_eq (hosc : s.entry.oscDead = false) (straps : BitVec 8) (hon : s.isOff = false) (hwait : s.boot.resetWait ≠ some 2 ∨ s.boot.commits = []) :
    exec (.packageReset straps) s = .next (if s.entry.perst && !s.entry.hostHeld then packageReset (lostCommit s)
      else sampleStraps (packageReset (lostCommit s)) straps) := by
  refine congrArg Host.Outcome.next (if_neg ?_)
  rcases hwait with hwait | hwait <;> simp [hosc, hon, hwait]

theorem packageReset_clears (hosc : s.entry.oscDead = false) (straps : BitVec 8) (hon : s.isOff = false)
    (hwait : s.boot.resetWait ≠ some 2 ∨ s.boot.commits = []) : ∃ t, exec (.packageReset straps) s = .next t ∧ t.aon = s.aon ∧
      t.boot.cause = 2 ∧ t.boot.stage = 0 ∧ (s.boot.commits = [] → t.boot.nor = s.boot.nor) ∧ t.pkg = s.pkg ∧ t.settings = Settings.reset ∧ t.cores = [] ∧ t.beside = [] ∧
      t.parts = [] ∧ t.srv = Serving.reset ∧ t.energy.inputUj = s.energy.inputUj ∧ t.energy.coefs = factoryCoefs ∧ t.entry.uvEvent = s.entry.uvEvent ∧
      t.entry.warns = s.entry.warns ∧ t.entry.warnTaken = false ∧ t.dport.level = 0 ∧
      t.fab.node = (if s.entry.perst = true ∧ s.entry.hostHeld = false then s.fab.node else straps.toNat) := by
  obtain ⟨n, hlost, hnor⟩ := lostCommit_eq s
  rw [packageReset_eq hosc straps hon hwait, hlost]
  by_cases hheld : s.entry.perst = true ∧ s.entry.hostHeld = false
  · rw [if_pos (by simp [hheld]), if_pos hheld]
    exact ⟨_, rfl, rfl, rfl, rfl, hnor, rfl, rfl, rfl, rfl, rfl, rfl, rfl, rfl, rfl, rfl, rfl, rfl, rfl⟩
  · rw [if_neg (by simpa using hheld), if_neg hheld]
    exact ⟨_, rfl, rfl, rfl, rfl, hnor, rfl, rfl, rfl, rfl, rfl, rfl, rfl, rfl, rfl, rfl, rfl, rfl, rfl⟩

theorem perstAssert_ignored (us : Nat) (h : us < 10 ∨ s.entry.perst = true) : exec (.perstAssert us) s = .next s :=
  congrArg Host.Outcome.next (if_pos (h.imp_right .inl))

theorem perstAssert_eq (hosc : s.entry.oscDead = false) {us : Nat} (hlong : 10 ≤ us) (hperst : s.entry.perst = false) : exec (.perstAssert us) s = .next
    (if s.isOff then { s with entry := { s.entry with perst := true } }
      else if s.boot.commits.isEmpty then packageReset { s with entry := { s.entry with perst := true } }
      else { s with entry := { s.entry with perst := true }, boot := { s.boot with resetWait := some 2 } }) :=
  congrArg Host.Outcome.next (if_neg (by simp [hosc, hlong, hperst]))

theorem perstAssert_resets (hosc : s.entry.oscDead = false) (us : Nat) (hlong : 10 ≤ us) (hperst : s.entry.perst = false) :
    (s.isOff = true → exec (.perstAssert us) s = .next { s with entry := { s.entry with perst := true } }) ∧
      (s.isOff = false → s.boot.commits ≠ [] →
        exec (.perstAssert us) s = .next { s with entry := { s.entry with perst := true }, boot := { s.boot with resetWait := some 2 } }) ∧
      (s.isOff = false → s.boot.commits = [] → ∃ t, exec (.perstAssert us) s = .next t ∧ t.entry.perst = true ∧ t.boot.cause = 2 ∧ t.boot.stage = 0 ∧
        t.boot.nor = s.boot.nor ∧ t.aon = s.aon ∧ t.cores = [] ∧ t.beside = [] ∧ t.srv = Serving.reset ∧ t.fab.node = s.fab.node) := by
  rw [perstAssert_eq hosc hlong hperst]
  refine ⟨fun hoff => by rw [if_pos hoff], fun hon hcommits => ?_, fun hon hcommits => ⟨packageReset { s with entry := { s.entry with perst := true } }, ?_,
    rfl, rfl, rfl, rfl, rfl, rfl, rfl, rfl, rfl⟩⟩
  · rw [if_neg (by simp [hon]), if_neg (by simp [hcommits])]
  · rw [if_neg (by simp [hon]), if_pos (by simp [hcommits])]

theorem perstRelease_releases (hosc : s.entry.oscDead = false) (straps : BitVec 8) (hperst : s.entry.perst = true) :
    ∃ t, exec (.perstRelease straps) s = .next t ∧ t.entry.perst = false ∧ t.entry.hostHeld = false ∧
      t = { s with entry := t.entry, fab := t.fab } ∧
      (s.entry.hostHeld = false → s.isOff = false → s.boot.resetWait ≠ some 2 → t.fab.node = straps.toNat ∧ t.entry.nid = straps) ∧
      (s.entry.hostHeld = true → t.fab = s.fab) := by
  set u : State := { s with entry := { s.entry with perst := false, hostHeld := false } }
  have hrun : exec (.perstRelease straps) s = .next (if s.entry.hostHeld ∨ s.isOff ∨ s.boot.resetWait = some 2 then u else sampleStraps u straps) :=
    congrArg Host.Outcome.next (if_neg (by simp [hosc, hperst]))
  by_cases h : s.entry.hostHeld ∨ s.isOff ∨ s.boot.resetWait = some 2
  · rw [if_pos h] at hrun
    exact ⟨u, hrun, rfl, rfl, rfl, fun hfree hon hwait => absurd h (by simp [hfree, hon, hwait]), fun _ => rfl⟩
  · rw [if_neg h] at hrun
    exact ⟨_, hrun, rfl, rfl, rfl, fun _ _ _ => ⟨rfl, rfl⟩, fun hheld => absurd (.inl hheld) h⟩

end

/-! ### What a warm reset does to the tables (R587, R591) -/

/-- Nothing but partitions, far objects, maps, mirrors and the dies' registers differs; the dies' memory does not. -/
def TablesOnly (s t : State) : Prop :=
  (∃ p f b m r, t = { s with parts := p, far := f, beside := b, srv := { s.srv with maps := m, mirrors := r } }) ∧ ∀ d, (t.bdie d).mem = (s.bdie d).mem

section

variable {s t u : State}

theorem tablesOnly_of_dies {p : Tab Part} {f : Far} {m r : Tab KvMap} (h : t = { s with parts := p, far := f, srv := { s.srv with maps := m, mirrors := r } }) :
    TablesOnly s t := by
  subst h
  exact ⟨⟨p, f, s.beside, m, r, rfl⟩, fun _ => rfl⟩

theorem TablesOnly.refl (s : State) : TablesOnly s s := ⟨⟨_, _, _, _, _, rfl⟩, fun _ => rfl⟩

theorem TablesOnly.trans (h : TablesOnly s t) (g : TablesOnly t u) : TablesOnly s u := by
  obtain ⟨⟨_, _, _, _, _, rfl⟩, hmem⟩ := h
  obtain ⟨⟨_, _, _, _, _, rfl⟩, hmem'⟩ := g
  exact ⟨⟨_, _, _, _, _, rfl⟩, fun d => (hmem' d).trans (hmem d)⟩

theorem tablesOnly_ite {c : Prop} [Decidable c] (h : TablesOnly s t) (g : TablesOnly s u) : TablesOnly s (if c then t else u) := by
  split
  · exact h
  · exact g

theorem tablesOnly_foldl {α : Type} {f : State → α → State} (h : ∀ s a, TablesOnly s (f s a)) (l : List α) (s : State) : TablesOnly s (l.foldl f s) :=
  foldl_keeps (TablesOnly s) f l s (.refl s) fun t ht a _ => ht.trans (h t a)

end

section

variable (s : State)

theorem tablesOnly_setPart (p : Nat) (x : Part) : TablesOnly s (s.setPart p x) := tablesOnly_of_dies (f := s.far) (m := s.srv.maps) (r := s.srv.mirrors) rfl

theorem tablesOnly_setMap (k : Nat) (x : KvMap) : TablesOnly s (s.setMap k x) := tablesOnly_of_dies (p := s.parts) (f := s.far) (r := s.srv.mirrors) rfl

theorem tablesOnly_objFree (id : Nat) : TablesOnly s (objFree s id) := by
  unfold objFree
  exact tablesOnly_ite (tablesOnly_of_dies (m := s.srv.maps) (r := s.srv.mirrors) rfl) (.refl s)

theorem tablesOnly_fitRecords (k : Nat) : TablesOnly s (fitRecords s k) := by
  unfold fitRecords
  extract_lets m p fb need
  refine tablesOnly_ite ((tablesOnly_setPart ..).trans (tablesOnly_setMap ..)) ?_
  split
  · exact (tablesOnly_setPart ..).trans (tablesOnly_setMap ..)
  · exact .refl s

theorem tablesOnly_freeRecord (k : Nat) : TablesOnly s (freeRecord s k) := by
  unfold freeRecord
  extract_lets m s1
  have h1 : TablesOnly s s1 := by
    simp only [s1]
    split
    · exact tablesOnly_objFree ..
    · exact .refl s
  exact (h1.trans (tablesOnly_setPart ..)).trans (tablesOnly_setMap ..)

theorem tablesOnly_freePages (k : Nat) : TablesOnly s (freePages s k) :=
  ((tablesOnly_setPart ..).trans (tablesOnly_setMap ..)).trans (tablesOnly_fitRecords ..)

theorem tablesOnly_freeMirror (k : Nat) : TablesOnly s (freeMirror s k) := tablesOnly_of_dies (f := s.far) (m := s.srv.maps) rfl

theorem tablesOnly_freeObjects (l : List Nat) : TablesOnly s (freeObjects s l) := tablesOnly_foldl tablesOnly_objFree l s

theorem tablesOnly_unprotectGen (p : Nat) (g : Gen) : TablesOnly s (unprotectGen s p g) := by
  obtain ⟨b, hb⟩ := unprotectGen_beside_only s p g
  refine ⟨⟨s.parts, s.far, b, s.srv.maps, s.srv.mirrors, hb⟩, fun d => ?_⟩
  refine foldl_keeps (fun t : State => (t.bdie d).mem = (s.bdie d).mem) _ _ s rfl fun t ht st _ => ?_
  split
  · exact ht
  · rw [unprotectUnits, State.bdie_setBdie]
    split
    · next hd => rw [← ht, hd]
    · exact ht

theorem tablesOnly_freeGen (p : Nat) (g : Gen) : TablesOnly s (freeGen s p g) :=
  ((tablesOnly_ite (.refl s) (tablesOnly_unprotectGen ..)).trans (tablesOnly_freeObjects ..)).trans (tablesOnly_setPart ..)

theorem tablesOnly_warmMap (k : Nat) : TablesOnly s (warmMap s k) := by
  unfold warmMap
  extract_lets st s1 m t
  refine tablesOnly_ite ((tablesOnly_freePages ..).trans (tablesOnly_freeRecord ..)) ?_
  have h1 : TablesOnly s s1 := tablesOnly_ite (tablesOnly_freeRecord ..) (.refl s)
  exact (h1.trans (tablesOnly_setPart ..)).trans (tablesOnly_setMap ..)

theorem tablesOnly_warmGens (p : Nat) : TablesOnly s (warmGens s p) :=
  (tablesOnly_foldl (fun t g => tablesOnly_freeGen t p g) _ s).trans (tablesOnly_setPart ..)

/-- A warm reset's tables: what it keeps of serving is as it says, and the dies' memory is held. -/
theorem warmTables_spec : ∃ u, TablesOnly s u ∧ ∃ f, warmTables s = { u with srv := warmServing u.srv, far := f } := by
  unfold warmTables
  extract_lets s1 s2 s3 s4
  have h1 : TablesOnly s s1 := tablesOnly_foldl tablesOnly_freeMirror _ s
  have h2 : TablesOnly s1 s2 := tablesOnly_foldl tablesOnly_warmMap _ s1
  have h3 : TablesOnly s2 s3 := tablesOnly_foldl tablesOnly_warmGens _ s2
  have h4 : TablesOnly s3 s4 := tablesOnly_foldl tablesOnly_objFree _ s3
  exact ⟨s4, ((h1.trans h2).trans h3).trans h4, _, rfl⟩

theorem lasting_postEnds : lasting (postEnds s) = lasting s := lasting_foldl _ _ s fun t i => lasting_postWaiting t i _

theorem lasting_yield : lasting (yield_ s) = lasting s := by
  unfold yield_
  split
  · split
    · rfl
    · exact lasting_send ..
  · rfl

/-- The three steps before a warm reset leave what the end of requests and the flush leave. -/
theorem lasting_unmetered_warmFirst : lasting (unmetered (warmFirst s)) = lasting (unmetered s) :=
  (lasting_unmetered_flush _).trans (lasting_unmetered ((lasting_postEnds _).trans ((lasting_endAll ..).trans (lasting_yield s))))

end

/-! ### The warm reset (R585, R586, R590) -/

section

variable {s : State}

/-- The state whose tables a warm reset keeps: its three steps taken, unless they have been. -/
def warmFrom (s : State) : State := if s.boot.resetSteps then s else warmFirst s

theorem warmFrom_keeps (s : State) : (warmFrom s).aon = s.aon ∧ (warmFrom s).pkg = s.pkg ∧ KeepsMemory s (warmFrom s) := by
  unfold warmFrom
  split
  · exact ⟨rfl, rfl, keepsMemory_refl s⟩
  · have h := lasting_unmetered_warmFirst s
    exact ⟨aon_of_unmetered h, pkg_of_unmetered h, (woundUp_warmFirst s).bytes.memory⟩

/-- A warm reset clears the dies around the tables it keeps. -/
theorem warmReset_eq (s : State) (cause : Nat) : ∃ u f, TablesOnly (warmFrom s) u ∧ warmReset s cause =
    { clearDies { u with srv := warmServing u.srv, far := f } cause true with beside := u.beside.map fun d => (d.1, (d.2.repair d.1).warm) } := by
  obtain ⟨u, hu, f, hf⟩ := warmTables_spec (warmFrom s)
  refine ⟨u, f, hu, ?_⟩
  change ({ clearDies (warmTables (warmFrom s)) cause true with
    beside := (warmTables (warmFrom s)).beside.map fun d => (d.1, (d.2.repair d.1).warm) } : State) = _
  rw [hf]

theorem exec_warmReset (hosc : s.entry.oscDead = false) {cause : Nat} (hwait : s.boot.resetWait = some cause) (hcause : 3 ≤ cause) (hcommits : s.boot.commits = [])
    (hon : s.power.stewardOn = true) : exec (.warmReset cause) s = .next (warmReset s cause) :=
  congrArg Host.Outcome.next (if_pos ⟨hwait, hcause, by simp [hcommits], hon, by simp [hosc]⟩)

theorem warmReset_keeps (hosc : s.entry.oscDead = false) (cause : Nat) (hwait : s.boot.resetWait = some cause) (hcause : 3 ≤ cause)
    (hcommits : s.boot.commits = []) (hon : s.power.stewardOn = true) : ∃ t, exec (.warmReset cause) s = .next t ∧
      t.boot.cause = cause ∧ t.boot.stage = 0 ∧ t.boot.resetWait = none ∧ t.aon = s.aon ∧ t.pkg = s.pkg ∧ t.settings = Settings.reset ∧ t.cores = [] ∧ t.starters = [] ∧
      (∀ d a, nearByte t d a = nearByte s d a) ∧ (s.boot.resetSteps = true → t.energy.coefs = s.energy.coefs) := by
  obtain ⟨haon, hpkg, -, -, hnear⟩ := warmFrom_keeps s
  obtain ⟨u, f, ⟨⟨p, g, b, m, r, hu⟩, hmem⟩, hreset⟩ := warmReset_eq s cause
  refine ⟨_, exec_warmReset hosc hwait hcause hcommits hon, ?_⟩
  rw [hreset]
  refine ⟨rfl, rfl, rfl, ?_, ?_, rfl, rfl, rfl, fun d a => ?_, fun hsteps => ?_⟩
  · exact (congrArg State.aon hu).trans haon
  · exact (congrArg State.pkg hu).trans hpkg
  · have hdie : ∀ x : BesideDie, mget 0 ((x.repair d).warm).mem a = mget 0 x.mem a := fun x => congrArg (mget 0 · a) (repair_mem x d)
    refine (tget_map_field _ u.beside (fun d x => (x.repair d).warm) d (fun x : BesideDie => mget 0 x.mem a) hdie).trans ?_
    exact (congrArg (mget 0 · a) (hmem d)).trans (hnear d a)
  · have hfrom : warmFrom s = s := if_pos hsteps
    rw [hfrom] at hu
    exact (congrArg (·.energy.coefs) hu :)

/-- The ledger after a warm reset lists each entry's reuse generation alone. -/
theorem tget_reuse {t : Tab Req} (h : Keyed t) (i : Nat) :
    tget Req.reset ((t.filter fun e => e.2.reuse != 0).map fun (e : Nat × Req) => (e.1, { Req.reset with reuse := e.2.reuse })) i =
      { Req.reset with reuse := (tget Req.reset t i).reuse } := by
  induction t with
  | nil => rfl
  | cons e t ih =>
    obtain ⟨j, x⟩ := e
    obtain ⟨hj, ht⟩ : j ∉ tkeys t ∧ Keyed t := List.nodup_cons.1 h
    have hrest := ih ht
    by_cases hreuse : x.reuse = 0
    · rw [List.filter_cons_of_neg (by simp [hreuse]), hrest, tget]
      split
      · next hij =>
        rw [tget_notin _ _ _ (by rwa [hij] at hj), hreuse]
        rfl
      · rfl
    · rw [List.filter_cons_of_pos (by simp [hreuse]), List.map_cons, tget, tget]
      split
      · rfl
      · exact hrest

theorem warmReset_serving (hosc : s.entry.oscDead = false) (hwait : s.boot.resetWait = some 3) (hsteps : s.boot.resetSteps = true)
    (hcommits : s.boot.commits = []) (hon : s.power.stewardOn = true) (hkeyed : Keyed s.srv.ledger) :
    ∃ t, exec (.warmReset 3) s = .next t ∧ (∀ i, t.req i = { Req.reset with reuse := (s.req i).reuse }) ∧ t.srv.tenants = s.srv.tenants ∧
      t.srv.ctxs = s.srv.ctxs.map (fun e => (e.1, keptCtx e.2)) ∧ t.srv.heats = [] ∧ t.srv.queues = [] := by
  obtain ⟨u, f, ⟨⟨p, g, b, m, r, hu⟩, -⟩, hreset⟩ := warmReset_eq s 3
  rw [show warmFrom s = s from if_pos hsteps] at hu
  refine ⟨_, exec_warmReset hosc hwait (by decide) hcommits hon, ?_⟩
  rw [hreset, hu]
  exact ⟨fun i => tget_reuse hkeyed i, rfl, rfl, rfl, rfl⟩

/-! ### A captain that misses its watchdog (R585, R606) -/

/-- TWIN_YIELD leaves on every package that has been paired. -/
theorem yield_tells_twin (hosc : s.entry.oscDead = false) {n : Nat} (htwin : s.twinNode = some n) (hpaired : s.twin.state ≠ .unpaired) :
    Tells (yield_ s) (.node n) .twinYield := by
  rw [yield_, htwin]
  dsimp only
  rw [if_neg hpaired]
  exact tells_send hosc ..

theorem warmFirst_tells (hosc : s.entry.oscDead = false) {n : Nat} (htwin : s.twinNode = some n) (hpaired : s.twin.state ≠ .unpaired) :
    Tells (warmFirst s) (.node n) .twinYield :=
  (((woundUp_endAll ..).trans (woundUp_postEnds _)).trans (woundUp_flush _)).bytes.tells (yield_tells_twin hosc htwin hpaired)

theorem chainEmpty_of_lasting {t : State} (h : lasting t = lasting s) {j : Nat} (hs : ChainEmpty s j) : ChainEmpty t j :=
  chainEmpty_of_blocks (blocks_of_beyond (beyond_of_lasting h)) hs

theorem chainEmpty_warmFirst (s : State) {j : Nat} (hj : j < 17) : ChainEmpty (warmFirst s) j := by
  unfold warmFirst
  exact chainEmpty_flush _ hj

/-- What a warm reset ordered shows, once what follows it is settled. -/
theorem orderReset_orders (hosc : s.entry.oscDead = false) (cause : Nat) : ∃ t, settle (orderReset s cause) = t ∧ t.boot.resetWait = some cause ∧
    t.boot.resetSteps = true ∧ t.mbx.resetting = true ∧ t.entry = s.entry ∧ t.twin = s.twin ∧
    (∀ n, s.twinNode = some n → s.twin.state ≠ .unpaired → Tells t (.node n) .twinYield) ∧ (∀ j, j < 17 → ChainEmpty t j) ∧ KeepsMemory s t := by
  have htells : ∀ n, s.twinNode = some n → s.twin.state ≠ .unpaired → Tells (warmFirst (resetPending s)) (.node n) .twinYield :=
    fun n => warmFirst_tells (s := resetPending s) hosc
  have hchains : ∀ j, j < 17 → ChainEmpty (warmFirst (resetPending s)) j := fun j hj => chainEmpty_warmFirst (resetPending s) hj
  have hlasting := lasting_unmetered_warmFirst (resetPending s)
  have hwound := woundUp_warmFirst (resetPending s)
  have hordered : orderReset s cause = { warmFirst (resetPending s) with
    boot := { (warmFirst (resetPending s)).boot with resetWait := some cause, resetSteps := true } } := by
    rw [orderReset, ← resetPending]
  generalize warmFirst (resetPending s) = v at *
  have hmem : KeepsMemory s v := (keepsMemory_same s (resetPending s) rfl rfl).trans hwound.bytes.memory
  rw [hordered]
  set w : State := { v with boot := { v.boot with resetWait := some cause, resetSteps := true } }
  have hw : KeepsBytes v w := keepsBytes_same rfl rfl rfl
  have hsettle := lasting_settle w
  have hbeyond := beyond_of_lasting hsettle
  refine ⟨_, rfl, ?_, ?_, ?_, ?_, ?_, fun n htwin hpaired => ?_, fun j hj => chainEmpty_of_lasting hsettle (hchains j hj), ?_⟩
  · rw [boot_of_beyond hbeyond]
  · rw [boot_of_beyond hbeyond]
  · rw [resetting_of_beyond hbeyond]
    exact hwound.resetting
  · rw [entry_of_beyond hbeyond]
    exact (entry_of_unmetered hlasting :)
  · rw [twin_of_beyond hbeyond]
    exact (twin_of_unmetered hlasting :)
  · exact (hw.trans (keepsBytes_settle w)).tells (htells n htwin hpaired)
  · exact hmem.trans (hw.trans (keepsBytes_settle w)).memory

theorem captainWatchdog_resets (hosc : s.entry.oscDead = false) {c : Nat} (hc : c < 8) (hstage : 2 ≤ s.boot.stage) (hstopped : s.boot.stopped = false)
    (hon : s.power.stewardOn = true) (hrun : s.power.state = .run) (hhalted : s.captHalted c = false) (hwait : s.boot.resetWait = none) :
    ∃ t, exec (.captainWatchdog c) s = .next t ∧ t.boot.resetWait = some 5 ∧ t.boot.resetSteps = true ∧ t.mbx.resetting = true ∧
      (∀ n, s.twinNode = some n → s.twin.state ≠ .unpaired → Tells t (.node n) .twinYield) ∧
      (∀ j, j < 17 → (t.chain j).openR = [] ∧ (t.chain j).closedB = []) ∧ KeepsMemory s t := by
  obtain ⟨t, ht, hwaits, hsteps, hresetting, -, -, htells, hchains, hmem⟩ := orderReset_orders hosc 5
  refine ⟨t, ?_, hwaits, hsteps, hresetting, htells, hchains, hmem⟩
  rw [← ht]
  exact congrArg Host.Outcome.next (if_pos ⟨hc, hstage, by simp [hstopped], hon, hrun, by simp [hhalted], hwait, by simp [hosc]⟩)

end

end Sys2Proof.Machine
end

section
/-!
PROOFS of boot and settings: the boot stages (R563 to R569), DORMANT (R535, R536, R589) and power entry (R632 to R639).
-/

namespace Sys2Proof.Machine

/-! ### The boot ROM and the boot record (R563, R568, R569) -/

section

variable {s : State}

theorem bootRom_idle (puf : PufResult) (h : romRuns s = false) : exec (.bootRom puf) s = .next s :=
  congrArg Host.Outcome.next (if_pos (by simp [h]))

theorem bootRom_boots (puf : PufResult) (h : romRuns s = true) : ∃ t, exec (.bootRom puf) s = .next t ∧ t = { s with boot := t.boot } ∧
    t.boot.identityFail = !(puf.rebuilt && puf.unwrapped) ∧
    (fwChoose s 1 = none → t.boot.stopped = true ∧ t.boot.stage = s.boot.stage) ∧
    (∀ k, fwChoose s 1 = some k → t.boot.stage = 1 ∧ t.boot.bootSlot = (k == 1) ∧ t.boot.fwBoot = fwVersion s 1 k ∧ t.boot.svnBoot = fwSvn s 1 k ∧
      t.boot.l0 = sha256 (digestBytes s.pkg.romDigest) ∧ t.boot.l1 = sha256 (digestBytes t.boot.l0 ++ sha256Bytes (fwImage s 1 k))) := by
  refine ⟨_, congrArg Host.Outcome.next (if_neg (by simp [h])), ?_⟩
  generalize fwVersion = v, fwSvn = w
  cases hk : fwChoose s 1 with
  | none => exact ⟨rfl, rfl, fun _ => ⟨rfl, rfl⟩, by simp⟩
  | some k =>
    refine ⟨rfl, rfl, by simp, fun j hj => ?_⟩
    obtain rfl : k = j := Option.some.inj hj
    exact ⟨rfl, rfl, rfl, rfl, rfl, rfl⟩

/-- An entry of the boot record changes nothing but the NOR. -/
theorem bootRecord_eq (s : State) (r : BootRec) : ∃ n, bootRecord s r = { s with boot := { s.boot with nor := n } } := by
  unfold bootRecord
  extract_lets l k
  split <;> exact ⟨_, rfl⟩

theorem recordsFrom_congr {s t : State} (h : t.boot.nor = s.boot.nor) (n i : Nat) : recordsFrom n t i = recordsFrom n s i := by
  have hat : ∀ j, recordAt t j = recordAt s j := fun j => by rw [recordAt, norRead, h, ← norRead, ← recordAt]
  induction n generalizing i with
  | zero => rfl
  | succ n ih => rw [recordsFrom, recordsFrom, hat, ih]

/-- The boot record is read from the NOR. -/
theorem bootLog_congr {s t : State} (h : t.boot.nor = s.boot.nor) : bootLog t = bootLog s := recordsFrom_congr h _ 0

/-- The number of the boot that follows the boot record's newest BOOT entry. -/
def bootNumber (l : List BootRec) : Nat := match (l.filter (·.kind == 1)).getLast? with | some r => r.boot + 1 | none => 1

/-- A boot's entries change the boot's state alone: its number, the NOR, and LEDGER_LOSS where an earlier boot is left OPEN. -/
theorem bootEntries_eq (s : State) : ∃ n o, bootEntries s = { s with boot := { s.boot with nor := n, bootCount := bootNumber (bootLog s), ledgerLoss := o } } ∧
    ((openEntry (bootLog s)).isSome = true → o = true) := by
  unfold bootEntries
  extract_lets l n d s1
  obtain ⟨a, h1⟩ := bootRecord_eq { s with boot := { s.boot with bootCount := n } } ⟨1, s.boot.cause, n, s.aon⟩
  replace h1 : s1 = { s with boot := { s.boot with nor := a, bootCount := n } } := h1
  clear_value s1
  subst h1
  cases openEntry l with
  | none => exact ⟨a, _, rfl, by simp⟩
  | some r =>
    obtain ⟨b, h2⟩ := bootRecord_eq { s with boot := { s.boot with nor := a, bootCount := n, ledgerLoss := true } } ⟨4, s.boot.cause, r.boot, r.aon⟩
    exact ⟨b, true, h2, fun _ => rfl⟩

/-- A link plan that breaks the rules is replaced, and PLAN_ERR says so (R653). -/
theorem checkPlan_eq (s : State) : ∃ r e, checkPlan s = { s with settings := { s.settings with run := r }, boot := { s.boot with planErr := e } } ∧
    (planOk s.fab.node (checkPlan s).planAll = true ∨ e = true) := by
  unfold checkPlan
  split
  · next h => exact ⟨s.settings.run, s.boot.planErr, rfl, .inl h⟩
  · exact ⟨_, true, rfl, .inr rfl⟩

/-- What boot firmware ends with: the captain firmware it takes, or its stop where it takes none. -/
def captainChosen (s : State) : State :=
  match if s.boot.identityFail then none else fwChoose s 2 with
  | none => { s with boot := { s.boot with stopped := true } }
  | some k => { s with boot := { s.boot with
      stage := 2, captSlot := k == 1, fwCapt := fwVersion s 2 k, svnCapt := fwSvn s 2 k, captStarted := some s.aon
      l2 := sha256 (digestBytes s.boot.l1 ++ sha256Bytes (fwImage s 2 k)) } }

theorem captainChosen_eq (s : State) : ∃ b, captainChosen s = { s with boot := b } ∧ b.bootCount = s.boot.bootCount ∧ b.ledgerLoss = s.boot.ledgerLoss ∧
    b.planErr = s.boot.planErr ∧ (b.stage = s.boot.stage ∧ b.stopped = true ∨ b.stage = 2 ∧ b.captStarted = some s.aon ∧ s.boot.identityFail = false) := by
  unfold captainChosen
  cases hfail : s.boot.identityFail with
  | true => exact ⟨_, rfl, rfl, rfl, rfl, .inl ⟨rfl, rfl⟩⟩
  | false =>
    simp only [Bool.false_eq_true, if_false]
    cases fwChoose s 2 with
    | none => exact ⟨_, rfl, rfl, rfl, rfl, .inl ⟨rfl, rfl⟩⟩
    | some k => exact ⟨_, rfl, rfl, rfl, rfl, .inr ⟨rfl, rfl, trivial⟩⟩

/-- The settings a boot applies, its link plan and its role. -/
def bootApplied (s : State) : State := bootRole (checkPlan { s with settings := bootSettings s })

theorem bootApplied_eq (s : State) : ∃ g e f, bootApplied s = { s with settings := g, boot := { s.boot with planErr := e }, fab := f } ∧
    (planOk (bootApplied s).fab.node (bootApplied s).planAll = true ∨ e = true) ∧ (bootApplied s).fab.ownRole = (bootApplied s).cfg 0x0805 := by
  obtain ⟨r, e, hchecked, hplan⟩ := checkPlan_eq { s with settings := bootSettings s }
  unfold bootApplied
  rw [hchecked] at hplan ⊢
  exact ⟨_, e, _, rfl, hplan, rfl⟩

theorem bootFirmware_boots (hosc : s.entry.oscDead = false) (hstage : s.boot.stage = 1) (hstopped : s.boot.stopped = false) (hon : s.power.stewardOn = true)
    (hwait : s.boot.resetWait = none) : ∃ t, exec .bootFirmware s = .next t ∧
      t.power.besideOn = true ∧ (∀ r, ((bootLog s).filter (·.kind == 1)).getLast? = some r → t.boot.bootCount = r.boot + 1) ∧
      (((bootLog s).filter (·.kind == 1)).getLast? = none → t.boot.bootCount = 1) ∧ ((openEntry (bootLog s)).isSome = true → t.boot.ledgerLoss = true) ∧
      (planOk t.fab.node t.planAll = true ∨ t.boot.planErr = true) ∧ t.fab.ownRole = t.cfg 0x0805 ∧
      (t.boot.stage = 1 ∧ t.boot.stopped = true ∨ t.boot.stage = 2 ∧ t.boot.captStarted = some s.aon ∧ s.boot.identityFail = false) ∧ KeepsMemory s t := by
  set powered : State := { s with power := { s.power with besideOn := true } } with hpowered
  have hrun : exec .bootFirmware s = .next (captainChosen (bootApplied (bootEntries powered))) :=
    congrArg Host.Outcome.next (if_neg (by simp [hosc, hstage, hstopped, hon, hwait]))
  obtain ⟨n, o, hentries, hloss⟩ := bootEntries_eq powered
  have hlog : bootLog powered = bootLog s := bootLog_congr rfl
  rw [hlog] at hentries hloss
  obtain ⟨g, e, f, happlied, hplan, hrole⟩ := bootApplied_eq (bootEntries powered)
  generalize bootApplied (bootEntries powered) = u at *
  rw [hentries] at happlied
  obtain ⟨b, hchosen, hcount, hb, herr, hstages⟩ := captainChosen_eq u
  subst happlied
  refine ⟨_, hrun, ?_⟩
  rw [hchosen]
  refine ⟨rfl, fun r hr => ?_, fun hr => ?_, fun hopen => hb.trans (hloss hopen), hplan.imp_right herr.trans, hrole, ?_, keepsMemory_same _ _ rfl rfl⟩
  · rw [hcount, bootNumber, hr]
  · rw [hcount, bootNumber, hr]
  · exact hstages.imp_left (And.imp_left fun h => h.trans hstage)

end

/-! ### Captain firmware (R415, R541, R565, R566) -/

/-- What the first events of a boot leave: the fuses, the power state, the boot, READY and RESETTING. -/
def served (s : State) : Package × Power × Boot × Bool × Bool := (s.pkg, s.power, s.boot, s.mbx.ready, s.mbx.resetting)

section

variable {s t : State}

theorem served_of_lasting (h : lasting t = lasting s) : served t = served s := by
  have hbeyond := beyond_of_lasting h
  rw [served, pkg_of_beyond hbeyond, power_of_beyond hbeyond, boot_of_beyond hbeyond, ready_of_beyond hbeyond, resetting_of_beyond hbeyond, served]

theorem SendWork.served (h : SendWork s t) : served t = served s := by
  obtain ⟨_, _, _, rfl⟩ := h
  rfl

theorem reopenRings_keeps (s : State) : served (reopenRings s) = served s ∧ KeepsBytes s (reopenRings s) := by
  have hpick : ∀ (t : State) (l : List Nat), ∃ n, ((pickOne t l).getD (0, t)).2 = { t with drawn := n } := fun t l => by
    cases h : pickOne t l with
    | none => exact ⟨t.drawn, rfl⟩
    | some r => exact pickOne_rest h
  unfold reopenRings
  refine foldl_keeps (fun t : State => served t = served s ∧ KeepsBytes s t) _ _ s ⟨rfl, .refl s⟩ fun t ht p _ => ?_
  refine foldl_keeps (fun t : State => served t = served s ∧ KeepsBytes s t) _ _ t ht fun u hu d _ => ?_
  split
  · split
    · exact hu
    · obtain ⟨n, hn⟩ := hpick u (rowList p.2.rows)
      dsimp only
      rw [hn]
      have hdrawn : KeepsBytes u { u with drawn := n } := keepsBytes_same rfl rfl rfl
      exact ⟨hu.1, hu.2.trans (hdrawn.trans (keepsBytes_setBdie _ d _ (by rfl)))⟩
  · exact hu

theorem startLinks_keeps (s : State) : served (startLinks s) = served s ∧ KeepsBytes s (startLinks s) := by
  obtain ⟨x, hx⟩ := startLinks_eq s
  rw [hx]
  exact ⟨rfl, keepsBytes_same rfl rfl rfl⟩

/-- What captain firmware does once its package serves: the rings, the links, the first events, the flood, and the return from DORMANT. -/
def announced (s u : State) : State :=
  let s2 := startLinks (reopenRings u)
  let s3 := (enabledFns s2).foldl (fun s f => notify s f mSYS_CAPS 0 (capRecord s f)) s2
  let s4 := if s.fab.ownRole = 0x3FF then s3 else flood s3
  if s.boot.cause = 6 then powerEvent s4 4 0 else s4

theorem announced_keeps (s u : State) : served (announced s u) = served u ∧ KeepsBytes u (announced s u) := by
  obtain ⟨hrings, krings⟩ := reopenRings_keeps u
  obtain ⟨hlinks, klinks⟩ := startLinks_keeps (reopenRings u)
  unfold announced
  extract_lets s2 s3 s4
  have h3 : served s3 = served s2 ∧ KeepsBytes s2 s3 :=
    foldl_keeps (fun t : State => served t = served s2 ∧ KeepsBytes s2 t) _ _ s2 ⟨rfl, .refl s2⟩ fun t ht f _ =>
      ⟨(served_of_lasting (lasting_notify ..)).trans ht.1, ht.2.trans (keepsBytes_notify ..)⟩
  have h4 : served s4 = served s3 ∧ KeepsBytes s3 s4 := by
    simp only [s4]
    split
    · exact ⟨rfl, .refl s3⟩
    · exact ⟨(sendWork_flood s3).served, (sendWork_flood s3).keepsBytes⟩
  have h2 : served s2 = served u ∧ KeepsBytes u s2 := ⟨hlinks.trans hrings, krings.trans klinks⟩
  clear_value s2 s3 s4
  have hall : served s4 = served u ∧ KeepsBytes u s4 := ⟨h4.1.trans (h3.1.trans h2.1), h2.2.trans (h3.2.trans h4.2)⟩
  split
  · exact ⟨(served_of_lasting (lasting_powerEvent ..)).trans hall.1, hall.2.trans (keepsBytes_powerEvent ..)⟩
  · exact hall

/-- The state as READY is set. -/
def madeReady (s : State) : State :=
  { s with
    power := { s.power with fieldOn := !s.entry.flushed, junctionOn := true, portOn := true, resting := false }
    mbx := { s.mbx with ready := true, resetting := false }
    boot := { s.boot with stage := 3, captStarted := none, captFails := tdel s.boot.captFails (b2n s.boot.captSlot) }
    twin := { s.twin with hbSeenAt := s.aon } }

theorem captainFirmware_serves (hosc : s.entry.oscDead = false) {u : Nat} (hstarted : s.boot.captStarted = some u) (hstage : s.boot.stage = 2)
    (hawake : s.power.dormantImage = none) (htime : s.aon < u + msAon 2000) (hon : s.power.stewardOn = true) (hwait : s.boot.resetWait = none)
    (hhalted : s.captHalted 0 = false) (hkeyed : Keyed s.boot.captFails) : ∃ t, exec .captainFirmware s = .next t ∧ t.boot.stage = 3 ∧
      t.boot.captStarted = none ∧ t.mbx.ready = true ∧ t.mbx.resetting = false ∧
      t.pkg.svnMinBoot = max s.pkg.svnMinBoot s.boot.svnBoot ∧ t.pkg.svnMinCapt = max s.pkg.svnMinCapt s.boot.svnCapt ∧
      t.power.fieldOn = !s.entry.flushed ∧ t.power.junctionOn = true ∧ t.power.portOn = true ∧ captFails t (b2n s.boot.captSlot) = 0 ∧ KeepsMemory s t := by
  have hrun : exec .captainFirmware s = .next (settle (announced s (raiseMinima (madeReady s)))) := by
    have hgo : ¬(s.boot.stage ≠ 2 ∨ s.power.dormantImage.isSome ∨ u + msAon 2000 ≤ s.aon ∨ !s.power.stewardOn ∨ s.boot.resetWait.isSome ∨ s.entry.oscDead ∨
        s.captHalted 0) := by
      simp [hosc, hstage, hawake, hon, hwait, hhalted, htime]
    change execCaptainFirmware s = _
    rw [execCaptainFirmware, hstarted]
    dsimp only
    rw [if_neg hgo]
    rfl
  obtain ⟨hserved, hbytes⟩ := announced_keeps s (raiseMinima (madeReady s))
  have hsettled := served_of_lasting (lasting_settle (announced s (raiseMinima (madeReady s))))
  have hall := hsettled.trans hserved
  refine ⟨_, hrun, ?_⟩
  have hmem := ((keepsBytes_same (s := s) (t := raiseMinima (madeReady s)) rfl rfl rfl).trans (hbytes.trans (keepsBytes_settle _))).memory
  generalize settle (announced s (raiseMinima (madeReady s))) = t at *
  simp only [served, Prod.mk.injEq] at hall
  obtain ⟨hpkg, hpower, hboot, hready, hresetting⟩ := hall
  rw [captFails, hpkg, hpower, hboot]
  exact ⟨rfl, rfl, hready, hresetting, rfl, rfl, rfl, rfl, rfl, tget_tdel_of_keyed 0 hkeyed, hmem⟩

theorem captFail_counts (hosc : s.entry.oscDead = false) {u : Nat} (hstarted : s.boot.captStarted = some u) (hstage : s.boot.stage = 2)
    (htime : u + msAon 2000 ≤ s.aon) : ∃ t, exec .captFail s = .next t ∧ t = { s with boot := t.boot } ∧ t.boot.captStarted = none ∧ t.boot.stage = 2 ∧
      captFails t (b2n s.boot.captSlot) = captFails s (b2n s.boot.captSlot) + 1 := by
  set k := b2n s.boot.captSlot
  set failed : State := { s with boot := { s.boot with captStarted := none, captFails := tput s.boot.captFails k (captFails s k + 1) } }
  have hrun : exec .captFail s = .next (bootMark failed 5) := by
    change execCaptFail s = _
    rw [execCaptFail, hstarted]
    dsimp only
    rw [if_neg (by simp [hosc, hstage, htime])]
  obtain ⟨n, hn⟩ := bootRecord_eq failed ⟨5, s.boot.cause, s.boot.bootCount, s.aon⟩
  refine ⟨_, hrun, ?_⟩
  rw [bootMark, hn]
  exact ⟨rfl, rfl, hstage, tget_tput_same ..⟩

end

/-! ### DORMANT (R535, R536, R589) -/

section

variable {s : State}

theorem dormantExit_restores (hosc : s.entry.oscDead = false) {u : Nat} (hstarted : s.boot.captStarted = some u) (hstage : s.boot.stage = 2) (d : Dormant)
    (himage : s.power.dormantImage = some d) : ∃ t, exec .dormantExit s = .next t ∧ t.power = { s.power with dormantImage := none } ∧ t.srv.ctxs = d.ctxs ∧
      t.srv.tenants = d.tenants ∧ t.srv.sessions = d.sessions ∧ t.srv.maps = d.records ∧ t.beside = d.dies ∧ tkeys t.parts = tkeys d.parts ∧
      t = { s with parts := t.parts, beside := t.beside, srv := t.srv, power := t.power } := by
  refine ⟨{ s with
    parts := d.parts.map fun p => (p.1, { p.2 with reportAt := s.aon })
    beside := d.dies
    srv := { s.srv with ctxs := d.ctxs, tenants := d.tenants, sessions := d.sessions, maps := d.records }
    power := { s.power with dormantImage := none } }, ?_, rfl, rfl, rfl, rfl, rfl, rfl, ?_, rfl⟩
  · change execDormantExit s = _
    rw [execDormantExit, himage]
    dsimp only
    rw [if_neg (by simp [hosc, hstarted, hstage])]
  · exact List.map_map.trans rfl

theorem dormantEntry_sleeps (hosc : s.entry.oscDead = false) (hresting : s.power.resting = true) (hrest : s.power.state ≠ .rest)
    (hdormant : s.power.state ≠ .dormant) (hnand : s.hasNand = true) (hcommits : s.boot.commits = []) : ∃ t, exec .dormantEntry s = .next t ∧
      t.power.state = .dormant ∧ t.power.stewardOn = false ∧ t.power.wakeAt = s.power.wakeAt ∧ t.power.dormantImage.isSome = true ∧ t.entry.pwrgd = false ∧
      t.aon = s.aon ∧ t.boot.nor = s.boot.nor ∧ t.cores = [] ∧ t.beside = [] ∧ t.parts = [] ∧ t.fab.node = s.fab.node := by
  refine ⟨_, congrArg Host.Outcome.next (if_neg (by simp [hosc, hresting, hrest, hdormant, hnand, hcommits])), ?_⟩
  obtain ⟨⟨p, f, b, m, r, hfreed⟩, -⟩ := tablesOnly_freeObjects s (looseRecords s)
  rw [hfreed]
  exact ⟨rfl, rfl, rfl, rfl, rfl, rfl, rfl, rfl, rfl, rfl, rfl⟩

end

/-! ### The warning and the input's return (R637, R638) -/

section

variable (s : State)

theorem keepsBytes_modAcct (home handle : Nat) (f : Acct → Acct) : KeepsBytes s (modAcct s home handle f) := keepsBytes_same rfl rfl rfl

theorem keepsBytes_undoRow (k : Nat) : KeepsBytes s (undoRow s k) := by
  unfold undoRow
  extract_lets m t
  refine keepsBytes_ite ?_ (.refl s)
  exact ((keepsBytes_setPart ..).trans (keepsBytes_setMap ..)).trans (keepsBytes_fitRecords ..)

theorem keepsBytes_replayLap (id epoch : Nat) : KeepsBytes s (replayLap s id epoch) := by
  unfold replayLap
  extract_lets h s0 s1 s2
  have h1 : KeepsBytes s s1 :=
    ((keepsBytes_unpinHeat ..).trans (keepsBytes_stopHeat ..)).trans (keepsBytes_foldl (fun t r => keepsBytes_modAcct t ..) _ _)
  have h2 : KeepsBytes s1 s2 := keepsBytes_foldl keepsBytes_undoRow _ _
  exact keepsBytes_ite (.refl s) (keepsBytes_ite ((h1.trans h2).trans (keepsBytes_setHeat ..)) (keepsBytes_setHeat ..))

theorem keepsBytes_orderReplay (id : Nat) : KeepsBytes s (orderReplay s id) := by
  unfold orderReplay
  exact keepsBytes_ite (.refl s) ((keepsBytes_send ..).trans (keepsBytes_replayLap ..))

theorem abandonLaps_keeps : lasting (abandonLaps s) = lasting s ∧ KeepsBytes s (abandonLaps s) :=
  ⟨lasting_foldl _ _ s lasting_orderReplay, keepsBytes_foldl keepsBytes_orderReplay _ s⟩

/-- A warning acted on: the entry notes the flush, the Field dies are gated, every receipt is signed. -/
theorem warnAct_spec : (warnAct s).entry = { s.entry with flushed := true } ∧ (warnAct s).power.fieldOn = false ∧ (warnAct s).energy.openMark = false ∧
    (∀ j, j < 17 → ChainEmpty (warnAct s) j) ∧ KeepsBytes (yield_ s) (warnAct s) := by
  have hyield := entry_of_beyond (beyond_of_lasting (lasting_yield s))
  generalize hy : yield_ s = y at *
  obtain ⟨hlasting, hbytes⟩ := abandonLaps_keeps { y with entry := { y.entry with flushed := true } }
  have hwarn : warnAct s = flush { abandonLaps { y with entry := { y.entry with flushed := true } } with
      power := { (abandonLaps { y with entry := { y.entry with flushed := true } }).power with fieldOn := false } } := by rw [← hy]; rfl
  have hentry := entry_of_beyond (beyond_of_lasting hlasting)
  have hnoted : KeepsBytes y { y with entry := { y.entry with flushed := true } } := keepsBytes_same rfl rfl rfl
  rw [hwarn]
  generalize abandonLaps { y with entry := { y.entry with flushed := true } } = a at *
  have hgated := keepsBytes_power a { a.power with fieldOn := false }
  set g : State := { a with power := { a.power with fieldOn := false } } with hg
  have hflush := lasting_unmetered_flush g
  refine ⟨?_, ?_, openMark_flush g, fun j hj => chainEmpty_flush g hj, hnoted.trans (hbytes.trans (hgated.trans (woundUp_flush g).bytes))⟩
  · refine (entry_of_unmetered hflush).trans (hentry.trans ?_)
    exact congrArg (fun e : Entry => { e with flushed := true }) hyield
  · rw [power_of_unmetered hflush]

end

section

variable {s : State}

theorem openMark_of_beyond {t : State} (h : beyondServing t = beyondServing s) : t.energy.openMark = s.energy.openMark := congrArg (·.energy.openMark) h

theorem pwrWarn_taken (hosc : s.entry.oscDead = false) (pin : Bool) (hfresh : s.entry.flushed = false) (hoff : s.isOff = false) (hon : s.power.stewardOn = true) :
    ∃ t, exec (.pwrWarn pin) s = .next t ∧ t.entry.warnTaken = true ∧
      t.entry.warns = s.entry.warns + 1 ∧ t.entry.flushed = true ∧ t.entry.warnPin = pin ∧ KeepsMemory s t ∧ (s.boot.stage ≠ 3 → t = { s with entry := t.entry }) ∧
      (s.boot.stage = 3 → t.power.fieldOn = false ∧ t.energy.openMark = false ∧ (∀ j, j < 17 → (t.chain j).openR = [] ∧ (t.chain j).closedB = []) ∧
        ∀ n, s.twinNode = some n → s.twin.state ≠ .unpaired → Tells t (.node n) .twinYield) := by
  set w : State := { s with entry := { s.entry with warnPin := pin, warnTaken := true, warns := s.entry.warns + 1 } }
  have hrun : exec (.pwrWarn pin) s = .next (if s.boot.stage = 3 then settle (warnAct w) else { w with entry := { w.entry with flushed := true } }) :=
    congrArg Host.Outcome.next (if_neg (by simp [hosc, hfresh, hoff, hon]))
  by_cases hstage : s.boot.stage = 3
  · rw [if_pos hstage] at hrun
    obtain ⟨hentry, hfield, hmark, hchains, hbytes⟩ := warnAct_spec w
    have htells : ∀ n, s.twinNode = some n → s.twin.state ≠ .unpaired → Tells (yield_ w) (.node n) .twinYield := fun n => yield_tells_twin (s := w) hosc
    have hyield : KeepsBytes w (yield_ w) := (woundUp_yield w).bytes
    generalize yield_ w = y at *
    generalize warnAct w = v at *
    have hlasting := lasting_settle v
    have hbeyond := beyond_of_lasting hlasting
    have hsettled := keepsBytes_settle v
    refine ⟨_, hrun, ?_⟩
    rw [entry_of_beyond hbeyond, power_of_beyond hbeyond, openMark_of_beyond hbeyond, hentry]
    refine ⟨rfl, rfl, rfl, rfl, ?_, fun h => absurd hstage h, fun _ => ⟨hfield, hmark, fun j hj => ?_, fun n htwin hpaired => ?_⟩⟩
    · exact (keepsMemory_same s w rfl rfl).trans (hyield.trans (hbytes.trans hsettled)).memory
    · exact chainEmpty_of_lasting hlasting (hchains j hj)
    · exact (hbytes.trans hsettled).tells (htells n htwin hpaired)
  · rw [if_neg hstage] at hrun
    exact ⟨_, hrun, rfl, rfl, rfl, rfl, keepsMemory_same _ _ rfl rfl, fun _ => rfl, fun h => absurd h hstage⟩

theorem inputReturn_resumes (hosc : s.entry.oscDead = false) (hflushed : s.entry.flushed = true) (hoff : s.isOff = false) :
    ∃ t, exec .inputReturn s = .next t ∧ t.entry.flushed = false ∧ t.entry.warnPin = false ∧ KeepsMemory s t ∧
      ((s.twin.state = .paired ∨ s.twin.state = .rejoining) → t.boot.resetWait = some 4 ∧ t.twin.fenced = true) ∧
      ((s.twin.state = .unpaired ∨ s.twin.state = .single) → s.boot.stage = 3 → s.power.state ≠ .rest → t.power = { s.power with state := .run, fieldOn := true } ∧
        t = { s with entry := t.entry, power := t.power }) := by
  set r : State := { s with entry := { s.entry with flushed := false, warnPin := false } } with hr
  have hrun : exec .inputReturn s = .next (if s.twin.state = .paired ∨ s.twin.state = .rejoining then
        settle (orderReset (r.mapTwin fun w => { w with fenced := true }) 4)
      else if s.boot.stage = 3 then { r with power := { r.power with state := if s.power.state = .rest then .rest else .run, fieldOn := s.power.state != .rest } }
      else r) :=
    congrArg Host.Outcome.next (if_neg (by simp [hosc, hflushed, hoff]))
  by_cases hpaired : s.twin.state = .paired ∨ s.twin.state = .rejoining
  · rw [if_pos hpaired] at hrun
    obtain ⟨t, ht, hwait, -, -, hentry, htwin, -, -, hmem⟩ := orderReset_orders (s := r.mapTwin fun w => { w with fenced := true }) hosc 4
    rw [ht] at hrun
    refine ⟨t, hrun, ?_, ?_, (keepsMemory_same s (r.mapTwin fun w => { w with fenced := true }) rfl rfl).trans hmem, fun _ => ⟨hwait, ?_⟩, fun hone => ?_⟩
    · rw [hentry]
      rfl
    · rw [hentry]
      rfl
    · rw [htwin]
      rfl
    · rcases hpaired with h | h <;> simp [h] at hone
  · rw [if_neg hpaired] at hrun
    by_cases hstage : s.boot.stage = 3
    · rw [if_pos hstage] at hrun
      refine ⟨_, hrun, rfl, rfl, keepsMemory_same _ _ rfl rfl, fun h => absurd h hpaired, fun _ _ hrest => ⟨?_, rfl⟩⟩
      simp [hr, hrest]
    · rw [if_neg hstage] at hrun
      exact ⟨_, hrun, rfl, rfl, keepsMemory_same _ _ rfl rfl, fun h => absurd h hpaired, fun _ h => absurd h hstage⟩

/-! ### The input lost and turned on, the thermal trip (R633 to R639) -/

theorem undervoltageLockout_stops (hosc : s.entry.oscDead = false) (hon : s.entry.inputOn = true) : ∃ t, exec .undervoltageLockout s = .next t ∧
    t.entry.inputOn = false ∧ t.entry.uvEvent = true ∧ t.entry.thermtripN = true ∧
    t.power.stewardOn = false ∧ t.entry.pwrgd = false ∧ t.aon = s.aon ∧ t.cores = [] ∧ t.beside = [] ∧ (s.boot.commits = [] → t.boot.nor = s.boot.nor) := by
  obtain ⟨n, hlost, hnor⟩ := lostCommit_eq s
  refine ⟨_, congrArg Host.Outcome.next (if_neg (by simp [hosc, hon])), ?_⟩
  rw [hlost]
  exact ⟨rfl, rfl, rfl, rfl, rfl, rfl, rfl, rfl, hnor⟩

theorem inputTurnOn_boots (hosc : s.entry.oscDead = false) (straps : BitVec 8) (hinput : s.entry.inputOn = false) (haux : s.entry.aux = true) :
    ∃ t, exec (.inputTurnOn straps) s = .next t ∧ t.entry.inputOn = true ∧ t.boot.cause = 2 ∧
      t.boot.stage = 0 ∧ t.fab.node = straps.toNat ∧ t.entry.hostHeld = s.entry.perst ∧ t.power = Power.reset ∧ t.aon = s.aon ∧ t.boot.nor = s.boot.nor ∧ t.cores = [] :=
  ⟨_, congrArg Host.Outcome.next (if_neg (by simp [hosc, hinput, haux])), rfl, rfl, rfl, rfl, rfl, rfl, rfl, rfl, rfl⟩

theorem thermalTrip_stops (hosc : s.entry.oscDead = false) (hoff : s.isOff = false) : ∃ t, exec .thermalTrip s = .next t ∧ t.entry.thermTrip = true ∧
    t.entry.thermtripN = false ∧ t.power.stewardOn = false ∧
    t.entry.pwrgd = false ∧ t.aon = s.aon ∧ t.cores = [] ∧ t.beside = [] ∧ (s.boot.commits = [] → t.boot.nor = s.boot.nor) := by
  obtain ⟨n, hlost, hnor⟩ := lostCommit_eq s
  refine ⟨_, congrArg Host.Outcome.next (if_neg (by simp [hosc, hoff])), ?_⟩
  rw [hlost]
  exact ⟨rfl, rfl, rfl, rfl, rfl, rfl, rfl, hnor⟩

end

/-- Settles O56: each reset, boot stage and power entry by its own lemma. -/
theorem resetsBootAndPowerEntryFollowTheirRules : Obligations.ResetsBootAndPowerEntryFollowTheirRules := by
  intro s
  refine ⟨powerOn_clears, rfl, fun hosc => ⟨packageReset_clears hosc, perstAssert_ignored, perstAssert_resets hosc, perstRelease_releases hosc,
    warmReset_keeps hosc, warmReset_serving hosc, ?_, fun puf => ⟨bootRom_idle puf, bootRom_boots puf⟩, bootFirmware_boots hosc, ?_, dormantEntry_sleeps hosc,
    pwrWarn_taken hosc, inputReturn_resumes hosc, undervoltageLockout_stops hosc, inputTurnOn_boots hosc, thermalTrip_stops hosc⟩⟩
  · intro c _ hc hstage hstopped hon hrun hhalted hwait
    exact captainWatchdog_resets hosc hc hstage hstopped hon hrun hhalted hwait
  · intro u hstarted hstage
    refine ⟨?_, captFail_counts hosc hstarted hstage, dormantExit_restores hosc hstarted hstage⟩
    intro _ hawake htime hon hwait hhalted hkeyed
    exact captainFirmware_serves hosc hstarted hstage hawake htime hon hwait hhalted hkeyed

end Sys2Proof.Machine
end

section
/-!
PROOFS of twins: pairing, heartbeats and probes (R478, R479, R486 to R488).
-/

namespace Sys2Proof.Machine

/-! ### Messages -/

section

variable {s : State}

theorem send_rest (s : State) (d : Dest) (m : FwMsg) : s.send d m = { s with fab := (s.send d m).fab, out := (s.send d m).out } := by
  unfold State.send
  split <;> rfl

/-- Nothing but the pair's state and what is sent differs. -/
def TwinWork (s t : State) : Prop := t = { s with twin := t.twin, fab := t.fab, out := t.out }

theorem tells_send_mapTwin {s : State} (hosc : s.entry.oscDead = false) (f : Twin → Twin) (d : Dest) (m : FwMsg) : Tells ((s.mapTwin f).send d m) d m :=
  tells_send (s := s.mapTwin f) hosc d m

theorem TwinWork.refl (s : State) : TwinWork s s := rfl

theorem TwinWork.mapTwin (s : State) (f : Twin → Twin) : TwinWork s (s.mapTwin f) := rfl

theorem TwinWork.trans {s t u : State} (h : TwinWork s t) (g : TwinWork t u) : TwinWork s u := by
  rw [TwinWork] at *
  rw [g, h]

theorem TwinWork.send {s t : State} (h : TwinWork s t) (d : Dest) (m : FwMsg) : TwinWork s (t.send d m) := by
  refine h.trans ?_
  unfold State.send
  split <;> rfl

theorem foldl_send_rest {α : Type} (d : α → Dest) (m : α → FwMsg) (l : List α) (s : State) : ∃ f o, l.foldl (fun t a => t.send (d a) (m a)) s = { s with fab := f, out := o } := by
  refine foldl_keeps (fun t : State => ∃ f o, t = { s with fab := f, out := o }) _ l s ⟨_, _, rfl⟩ ?_
  rintro t ⟨f, o, rfl⟩ a -
  exact ⟨_, _, send_rest _ (d a) (m a)⟩

/-- Each message of a list leaves. -/
theorem tells_foldl_sends {α : Type} (hosc : s.entry.oscDead = false) (d : α → Dest) (m : α → FwMsg) {l : List α} {a : α} (ha : a ∈ l) :
    Tells (l.foldl (fun t a => t.send (d a) (m a)) s) (d a) (m a) := by
  induction l generalizing s with
  | nil => cases ha
  | cons b l ih =>
    rcases List.mem_cons.1 ha with rfl | ha
    · exact (sendWork_foldl (fun t a => sendWork_send t (d a) (m a)) l _).tells (tells_send hosc ..)
    · exact ih (by rwa [State.send_entry]) ha

/-- One message sent for each of a list: as many leave, and nothing else. -/
theorem foldl_send_out {α : Type} (hosc : s.entry.oscDead = false) (d : Dest) (m : FwMsg) (l : List α) :
    (l.foldl (fun t _ => t.send d m) s).out.length = s.out.length + l.length ∧
      ∀ o ∈ (l.foldl (fun t _ => t.send d m) s).out, o ∈ s.out ∨ ∃ k, o = .fw k d m := by
  induction l generalizing s with
  | nil => exact ⟨rfl, fun o ho => .inl ho⟩
  | cons a l ih =>
    obtain ⟨hlen, hmem⟩ := ih (s := s.send d m) (by rwa [State.send_entry])
    rw [State.send_out s d m hosc] at hlen hmem
    refine ⟨?_, fun o ho => ?_⟩
    · rw [List.length_append, List.length_singleton] at hlen
      rw [List.foldl_cons, hlen, List.length_cons]
      omega
    · rcases hmem o ho with h | h
      · rcases List.mem_append.1 h with h | h
        · exact .inl h
        · exact .inr ⟨_, List.mem_singleton.1 h⟩
      · exact .inr h

end

/-! ### Pairing (R478, R479) -/

section

variable {s : State}

/-- A pairing in error: the first error starts the wait for its retry. -/
def pairErrored (s : State) : State := s.mapTwin fun t => { t with pairErr := true, pairRetryAt := if s.twin.pairErr then t.pairRetryAt else s.aon }

/-- An exchange that ends the error. -/
def pairAgreed (s : State) : State := s.mapTwin fun t => { t with pairErr := false }

/-- The roles and values of an exchange are those of a pair. -/
def pairFits (s : State) (i : PairInfo) : Bool := rolesPair s.fab.ownRole i.role && i.values == pairValues s

theorem pair_unpaired (i : PairInfo) (htwin : s.twinNode = some i.node) (hst : s.twin.state = .unpaired) : exec (.pair i) s = .next
    (if pairFits s i then
      (if i.state = 0 then (pairTo s .paired).send (.node i.node) (.pair (ownPair s))
      else if i.state = 2 then (pairTo s .rejoining).send (.node i.node) .joinReq
      else s)
    else pairErrored s) := by
  refine congrArg Host.Outcome.next ((if_neg (by simp [htwin])).trans ?_)
  dsimp only
  rw [hst]
  dsimp only
  unfold pairFits
  cases rolesPair s.fab.ownRole i.role <;> cases i.values == pairValues s <;> rfl

theorem pair_paired (i : PairInfo) (htwin : s.twinNode = some i.node) (hst : s.twin.state = .paired) : exec (.pair i) s = .next
    (if i.values == pairValues s then pairAgreed s else pairErrored s) := by
  refine congrArg Host.Outcome.next ((if_neg (by simp [htwin])).trans ?_)
  dsimp only
  rw [hst]
  rfl

/-- An exchange changes the pair's state and may answer; nothing else. -/
theorem pair_rest (i : PairInfo) (htwin : s.twinNode = some i.node) : ∃ t, exec (.pair i) s = .next t ∧ TwinWork s t := by
  cases hst : s.twin.state with
  | unpaired =>
    refine ⟨_, pair_unpaired i htwin hst, ?_⟩
    split
    · split
      · exact (TwinWork.mapTwin s _).send ..
      · split
        · exact (TwinWork.mapTwin s _).send ..
        · exact .refl s
    · exact .mapTwin s _
  | paired =>
    refine ⟨_, pair_paired i htwin hst, ?_⟩
    split <;> exact .mapTwin s _
  | single =>
    refine ⟨_, congrArg Host.Outcome.next (if_neg (by simp [htwin])), ?_⟩
    dsimp only
    rw [hst]
    dsimp only
    split
    · exact ((TwinWork.mapTwin s _).trans (.mapTwin _ _)).send ..
    · exact .mapTwin s _
  | rejoining =>
    refine ⟨_, congrArg Host.Outcome.next (if_neg (by simp [htwin])), ?_⟩
    dsimp only
    rw [hst]
    dsimp only
    split
    · exact .mapTwin s _
    · exact .refl s

theorem pair_pairs (hosc : s.entry.oscDead = false) (i : PairInfo) (htwin : s.twinNode = some i.node) : ∃ t, exec (.pair i) s = .next t ∧
    t = { s with twin := t.twin, fab := t.fab, out := t.out } ∧
    (s.twin.state = .unpaired → rolesPair s.fab.ownRole i.role = true → i.values = pairValues s →
      (i.state = 0 → t.twin.state = .paired ∧ t.twin.pairErr = false ∧ t.twin.hbSeenAt = s.aon ∧ Tells t (.node i.node) (.pair (ownPair s))) ∧
      (i.state = 2 → t.twin.state = .rejoining ∧ t.twin.pairErr = false ∧ Tells t (.node i.node) .joinReq)) ∧
    (s.twin.state = .unpaired → (rolesPair s.fab.ownRole i.role = false ∨ i.values ≠ pairValues s) →
      t.twin.state = .unpaired ∧ t.twin.pairErr = true ∧ t.out = s.out) ∧
    (s.twin.state = .paired → t.twin.state = .paired ∧ (i.values = pairValues s → t.twin.pairErr = false) ∧
      (i.values ≠ pairValues s → t.twin.pairErr = true)) := by
  obtain ⟨t, hrun, hrest⟩ := pair_rest i htwin
  refine ⟨t, hrun, hrest, fun hst hroles hvalues => ?_, fun hst hdiffer => ?_, fun hst => ?_⟩
  · have hfits : pairFits s i = true := by simp [pairFits, hroles, hvalues]
    have ht := hrun.symm.trans (pair_unpaired i htwin hst)
    rw [if_pos hfits] at ht
    refine ⟨fun h0 => ?_, fun h2 => ?_⟩
    · rw [if_pos h0] at ht
      obtain rfl := Host.Outcome.next.inj ht
      rw [State.send_twin]
      exact ⟨rfl, rfl, rfl, tells_send_mapTwin hosc ..⟩
    · rw [if_neg (by omega), if_pos h2] at ht
      obtain rfl := Host.Outcome.next.inj ht
      rw [State.send_twin]
      exact ⟨rfl, rfl, tells_send_mapTwin hosc ..⟩
  · have hfits : pairFits s i = false := by rcases hdiffer with h | h <;> simp [pairFits, h]
    have ht := hrun.symm.trans (pair_unpaired i htwin hst)
    rw [if_neg (by simp [hfits])] at ht
    obtain rfl := Host.Outcome.next.inj ht
    exact ⟨hst, rfl, rfl⟩
  · have ht := hrun.symm.trans (pair_paired i htwin hst)
    by_cases hvalues : i.values = pairValues s
    · rw [if_pos (by simp [hvalues])] at ht
      obtain rfl := Host.Outcome.next.inj ht
      exact ⟨hst, fun _ => rfl, fun h => absurd hvalues h⟩
    · rw [if_neg (by simp [hvalues])] at ht
      obtain rfl := Host.Outcome.next.inj ht
      exact ⟨hst, fun h => absurd h hvalues, fun _ => rfl⟩

theorem pairRetry_sends (hosc : s.entry.oscDead = false) (n : Nat) (htwin : s.twinNode = some n) (herr : s.twin.pairErr = true)
    (htime : s.twin.pairRetryAt + msAon 1000 ≤ s.aon) : ∃ t, exec .pairRetry s = .next t ∧
      Tells t (.node n) (.pair (ownPair s)) ∧ t.twin = { s.twin with pairRetryAt := s.aon } ∧ t = { s with twin := t.twin, fab := t.fab, out := t.out } := by
  have hsent : sendPair s = (s.send (.node n) (.pair (ownPair s))).mapTwin fun w => { w with pairRetryAt := s.aon } := by rw [sendPair, htwin]
  refine ⟨_, (congrArg Host.Outcome.next (if_pos (by simp [herr, htime]))).trans (congrArg Host.Outcome.next hsent), ?_, ?_, ?_⟩
  · exact tells_send hosc ..
  · rw [State.mapTwin, State.send_twin]
  · exact ((TwinWork.refl s).send ..).trans (.mapTwin _ _)

end

/-! ### Heartbeats and probes (R486 to R488) -/

section

variable {s : State}

theorem heartbeatSend_beats (hosc : s.entry.oscDead = false) (n : Nat) (htwin : s.twinNode = some n)
    (hdue : s.twin.hbSentAt + usAon (s.cfg 0x0901) ≤ s.aon) (hlinks : twinLinks s ≠ []) (hhalted : s.captHalted 5 = false) :
    ∃ t, exec .heartbeatSend s = .next t ∧ t.out.length = s.out.length + (twinLinks s).length ∧
      (∀ o ∈ t.out, o ∈ s.out ∨ ∃ k, o = .fw k (.node n) .heartbeat) ∧ t.twin = { s.twin with hbSentAt := s.aon } ∧
      t = { s with twin := t.twin, fab := t.fab, out := t.out } := by
  set b : State := s.mapTwin fun w => { w with hbSentAt := s.aon } with hb
  have hrun : exec .heartbeatSend s = .next ((twinLinks s).foldl (fun t _ => t.send (.node n) .heartbeat) b) := by
    change execHeartbeatSend s = _
    rw [execHeartbeatSend, htwin]
    dsimp only
    rw [if_neg (by simp [hhalted, hlinks, hdue])]
  obtain ⟨hlen, hout⟩ := foldl_send_out (s := b) hosc (.node n) .heartbeat (twinLinks s)
  obtain ⟨f, o, hrest⟩ := foldl_send_rest (fun _ => Dest.node n) (fun _ => FwMsg.heartbeat) (twinLinks s) b
  refine ⟨_, hrun, hlen, hout, ?_, ?_⟩ <;> rw [hrest] <;> rfl

theorem resumePosting_keeps (s : State) : lasting (resumePosting s) = lasting s ∧ KeepsBytes s (resumePosting s) := by
  unfold resumePosting
  split
  · refine foldl_keeps (fun t : State => lasting t = lasting s ∧ KeepsBytes s t) _ _ s ⟨rfl, .refl s⟩ fun t ht e _ => ?_
    split
    · exact ht
    · split
      · exact ⟨(lasting_postDone ..).trans ht.1, ht.2.trans (keepsBytes_postDone ..)⟩
      · exact ⟨(lasting_foldl _ _ t fun _ _ => lasting_send ..).trans ht.1, ht.2.trans (keepsBytes_foldl (fun _ _ => keepsBytes_send ..) _ t)⟩
  · exact ⟨rfl, .refl s⟩

/-- A heartbeat noted. -/
def beaten (s : State) : State := s.mapTwin fun t => { t with hbSeenAt := s.aon, suspected := false, probeAt := none, isolated := false }

theorem heartbeat_noted (hset : Settled s) {l : Nat} (hl : l ∈ twinLinks s) (hfrom : takesFrom s (s.link l).peer = true) : ∃ t, exec (.heartbeat l) s = .next t ∧
    t.twin.hbSeenAt = s.aon ∧ t.twin.suspected = false ∧ t.twin.probeAt = none ∧ t.twin.isolated = false ∧ KeepsMemory s t ∧
    (s.twin.isolated = false → t = { s with twin := t.twin }) := by
  have hrun : exec (.heartbeat l) s = .next (settle (if s.twin.isolated then resumePosting (beaten s) else beaten s)) :=
    congrArg (fun t => Host.Outcome.next (settle t)) (if_neg (by simp [hl, hfrom]))
  by_cases hisolated : s.twin.isolated = true
  · rw [if_pos hisolated] at hrun
    obtain ⟨hlasting, hbytes⟩ := resumePosting_keeps (beaten s)
    generalize resumePosting (beaten s) = v at *
    have htwin := twin_of_beyond (beyond_of_lasting ((lasting_settle v).trans hlasting))
    refine ⟨_, hrun, ?_⟩
    rw [htwin]
    exact ⟨rfl, rfl, rfl, rfl, (keepsMemory_same s (beaten s) rfl rfl).trans (hbytes.trans (keepsBytes_settle v)).memory, fun h => by simp [h] at hisolated⟩
  · rw [if_neg hisolated, settle_of_settled hset (t := beaten s) rfl] at hrun
    exact ⟨_, hrun, rfl, rfl, rfl, rfl, keepsMemory_same _ _ rfl rfl, fun _ => rfl⟩

theorem hbMissExpiry_suspects (hosc : s.entry.oscDead = false) (hsilent : s.twin.hbSeenAt + usAon (s.cfg 0x0902) ≤ s.aon) (hawake : s.power.resting = false)
    (hpaired : s.twin.state = .paired ∨ s.twin.state = .rejoining) (hprobe : s.twin.probeAt = none) (hfenced : s.twin.fenced = false) :
    ∃ t, exec .hbMissExpiry s = .next t ∧
      t.twin = { s.twin with suspected := true, probeAt := some s.aon } ∧ t = { s with twin := t.twin, fab := t.fab, out := t.out } ∧
      ∀ w n, witnessOf s = some w → s.twinNode = some n → Tells t (.node w) (.probe n) := by
  set b : State := s.mapTwin fun w => { w with suspected := true, probeAt := some s.aon } with hb
  have hwitness : witnessOf b = witnessOf s := rfl
  have hguard : ((s.twin.state == .paired || s.twin.state == .rejoining) && s.twin.probeAt.isNone && !s.twin.fenced) = true := by
    rcases hpaired with h | h <;> simp [h, hprobe, hfenced]
  have hsuspect : suspect s = match witnessOf b, s.twinNode with
      | some w, some n => b.send (.node w) (.probe n)
      | _, _ => b := if_pos hguard
  refine ⟨_, (congrArg Host.Outcome.next (if_pos (by simp [hsilent, hawake]))).trans (congrArg Host.Outcome.next hsuspect), ?_⟩
  rw [hwitness]
  cases hw : witnessOf s with
  | none => exact ⟨rfl, rfl, by simp⟩
  | some w =>
    cases hn : s.twinNode with
    | none => exact ⟨rfl, rfl, by simp⟩
    | some n =>
      refine ⟨State.send_twin .., (TwinWork.mapTwin s _).send .., ?_⟩
      rintro w' n' ⟨⟩ ⟨⟩
      exact tells_send_mapTwin hosc ..

theorem probe_replied (hosc : s.entry.oscDead = false) {src : Nat} (hfrom : takesFrom s src = true) : ∃ t, exec (.probe src s.fab.node) s = .next t ∧
    Tells t (.node src) .probeReply ∧ t = { s with fab := t.fab, out := t.out } :=
  ⟨_, congrArg Host.Outcome.next ((if_neg (by simp [hfrom])).trans (if_pos rfl)), tells_send hosc .., send_rest ..⟩

theorem probe_forwarded (hosc : s.entry.oscDead = false) {src n : Nat} (hfrom : takesFrom s src = true) (hn : n ≠ s.fab.node) :
    ∃ t, exec (.probe src n) s = .next t ∧ Tells t (.node n) (.probe n) ∧ t.twin.witness = s.twin.witness ++ [(src, n, s.aon)] ∧
      t = { s with twin := t.twin, fab := t.fab, out := t.out } := by
  refine ⟨_, congrArg Host.Outcome.next ((if_neg (by simp [hfrom])).trans (if_neg hn)), tells_send_mapTwin hosc .., ?_, (TwinWork.mapTwin s _).send ..⟩
  rw [State.send_twin]
  rfl

/-- A probe a witness forwarded, left without a reply for half of PROBE_US. -/
def probeLate (s : State) (w : Nat × Nat × Nat) : Bool := decide (w.2.2 + usAon (s.cfg 0x0903) / 2 ≤ s.aon)

theorem probeReplyTimeout_answers (hosc : s.entry.oscDead = false) : ∃ t, exec .probeReplyTimeout s = .next t ∧
    t = { s with twin := t.twin, fab := t.fab, out := t.out } ∧
    (∀ w ∈ s.twin.witness, w.2.2 + usAon (s.cfg 0x0903) / 2 ≤ s.aon → Tells t (.node w.1) (.probeAnswer false) ∧ w ∉ t.twin.witness) ∧
    ∀ w ∈ s.twin.witness, s.aon < w.2.2 + usAon (s.cfg 0x0903) / 2 → w ∈ t.twin.witness := by
  set b : State := s.mapTwin fun t => { t with witness := t.witness.filter fun w => !probeLate s w } with hb
  have hrun : exec .probeReplyTimeout s = .next ((s.twin.witness.filter (probeLate s)).foldl (fun t w => t.send (.node w.1) (.probeAnswer false)) b) := rfl
  obtain ⟨f, o, hrest⟩ := foldl_send_rest (fun w : Nat × Nat × Nat => Dest.node w.1) (fun _ => FwMsg.probeAnswer false) (s.twin.witness.filter (probeLate s)) b
  refine ⟨_, hrun, ?_, fun w hw hlate => ⟨?_, ?_⟩, fun w hw hearly => ?_⟩
  · rw [hrest]
    rfl
  · exact tells_foldl_sends (s := b) hosc (fun w => Dest.node w.1) (fun _ => .probeAnswer false) 
      ((List.mem_filter (p := probeLate s)).2 ⟨hw, decide_eq_true hlate⟩)
  · rw [hrest]
    simp [hb, State.mapTwin, probeLate, hlate]
  · rw [hrest]
    simp [hb, State.mapTwin, probeLate, hw, hearly]

theorem probeNoAnswer_isolates {u : Nat} (hprobe : s.twin.probeAt = some u) (htime : u + usAon (s.cfg 0x0903) ≤ s.aon) :
    exec .probeNoAnswer s = .next { s with twin := { s.twin with isolated := true, probeAt := none } } := by
  change execProbeNoAnswer s = _
  rw [execProbeNoAnswer, hprobe]
  dsimp only
  rw [if_pos htime]
  rfl

theorem probeAnswer_alive (hset : Settled s) {src : Nat} (hprobe : s.twin.probeAt.isSome = true) (hfrom : takesFrom s src = true) :
    exec (.probeAnswer src true) s = .next { s with twin := { s.twin with probeAt := none } } := by
  refine (congrArg (fun t => Host.Outcome.next (settle t)) (if_neg ?_)).trans (congrArg Host.Outcome.next (settle_of_settled hset rfl))
  simp [Option.isSome_iff_ne_none.1 hprobe, hfrom]

end

end Sys2Proof.Machine
end

section
/-!
PROOFS of twins: a role moves (R490, R491). What the failure of a node leaves of the cores, and what a package that learns of a move does.
-/

namespace Sys2Proof.Machine

/-! ### A node that fails -/

/-- A core's accumulators and send channels. -/
def Core.wires (k : Core) : Tab Word32 × Tab Word64 := (k.acc, k.chan)

theorem acc_of_wires {k x : Core} (h : k.wires = x.wires) : k.acc = x.acc := congrArg Prod.fst h

theorem chan_of_wires {k x : Core} (h : k.wires = x.wires) : k.chan = x.chan := congrArg Prod.snd h

/-- Nothing but the cores, their starters and the open transactions differs; accumulators and channels do not. -/
def CoreWork (s t : State) : Prop :=
  (∃ c q x, t = { s with cores := c, starters := q, fab := { s.fab with txns := x } }) ∧ ∀ j, (t.core j).wires = (s.core j).wires

section

variable {s t u : State}

theorem CoreWork.refl (s : State) : CoreWork s s := ⟨⟨_, _, _, rfl⟩, fun _ => rfl⟩

theorem CoreWork.trans (h : CoreWork s t) (g : CoreWork t u) : CoreWork s u := by
  obtain ⟨⟨_, _, _, rfl⟩, hw⟩ := h
  obtain ⟨⟨_, _, _, rfl⟩, gw⟩ := g
  exact ⟨⟨_, _, _, rfl⟩, fun j => (gw j).trans (hw j)⟩

theorem coreWork_foldl {α : Type} {f : State → α → State} (h : ∀ s a, CoreWork s (f s a)) (l : List α) (s : State) : CoreWork s (l.foldl f s) :=
  foldl_keeps (CoreWork s) f l s (.refl s) fun t ht a _ => ht.trans (h t a)

end

section

variable (s : State)

theorem coreWork_setCore {c : Nat} {k : Core} (h : k.wires = (s.core c).wires) : CoreWork s (s.setCore c k) := by
  refine ⟨⟨_, _, _, rfl⟩, fun j => ?_⟩
  rw [State.core_setCore]
  split
  · next hj => rw [h, hj]
  · rfl

theorem coreWork_setSlot (c k : Nat) (x : SlotSt) : CoreWork s (s.setSlot c k x) :=
  coreWork_setCore s (by rw [Core.wires, Core.setSlot_acc, Core.setSlot_chan, Core.wires])

theorem coreWork_putRecord (c : Nat) (r : Record) : CoreWork s (putRecord s c r) := by
  rcases putRecord_cases s c r with ⟨h, _⟩ | h <;> rw [h]
  · exact ⟨⟨_, _, _, rfl⟩, fun _ => rfl⟩
  · exact coreWork_setCore s rfl

theorem coreWork_slotFault (c k cause : Nat) (who : Option Cmd) (addr : Nat) (d : Bool) : CoreWork s (slotFault s c k cause who addr d) := by
  unfold slotFault
  dsimp only
  split
  · exact .refl s
  · exact coreWork_setSlot ..
  · split
    · exact coreWork_setSlot ..
    · exact (coreWork_setSlot ..).trans (coreWork_putRecord ..)

theorem coreWork_stepDone (c slot seq : Nat) : CoreWork s (stepDone s c slot seq) := by
  unfold stepDone
  dsimp only
  split
  · exact coreWork_setCore s rfl
  · exact .refl s

theorem coreWork_cmdFault (c k : Nat) (cmd : Cmd) (seq cause addr : Nat) (d : Bool) : CoreWork s (cmdFault s c k cmd seq cause addr d) :=
  (coreWork_slotFault ..).trans (coreWork_stepDone ..)

theorem coreWork_finishTxn (id sub bytes : Nat) : CoreWork s (finishTxn s id sub bytes) := by
  unfold finishTxn
  extract_lets t f s1 x s2
  have h1 : CoreWork s s1 := ⟨⟨_, _, _, rfl⟩, fun _ => rfl⟩
  split
  · exact h1
  · next st _ =>
    have h2 : CoreWork s1 (s1.setCore t.core (winWrite (s1.core t.core) x t.stat (statusWord sub bytes))) := coreWork_setCore s1 rfl
    split
    · exact h1.trans (h2.trans (coreWork_setSlot ..))
    · exact h1.trans (h2.trans ((coreWork_setSlot ..).trans (coreWork_cmdFault ..)))

theorem coreWork_failSlot (c slot node : Nat) : CoreWork s (failSlot s c slot node) :=
  coreWork_foldl (fun t _ => (coreWork_setSlot t ..).trans (coreWork_cmdFault ..)) _ s

theorem coreWork_failNode (node : Nat) : CoreWork s (failNode s node) :=
  (coreWork_foldl (fun t c => coreWork_foldl (fun u k => coreWork_failSlot u c k node) _ t) _ s).trans
    (coreWork_foldl (fun t _ => coreWork_finishTxn t ..) _ _)

end

/-! ### What stays while roles move -/

/-- The node, the entry, the pair's state and the accumulators are the same; a fenced node stays fenced, and what has left has left for good. -/
structure TakesOver (s t : State) : Prop where
  node : t.fab.node = s.fab.node
  entry : t.entry = s.entry
  state : t.twin.state = s.twin.state
  failovers : t.twin.failovers = s.twin.failovers
  fence : ∀ n ∈ s.twin.fence, n ∈ t.twin.fence
  acc : ∀ c, (t.core c).acc = (s.core c).acc
  out : ∀ o ∈ s.out, o ∈ t.out

section

variable {s t u : State}

theorem TakesOver.refl (s : State) : TakesOver s s := ⟨rfl, rfl, rfl, rfl, fun _ h => h, fun _ => rfl, fun _ h => h⟩

theorem TakesOver.trans (h : TakesOver s t) (g : TakesOver t u) : TakesOver s u :=
  ⟨g.node.trans h.node, g.entry.trans h.entry, g.state.trans h.state, g.failovers.trans h.failovers, fun n hn => g.fence n (h.fence n hn),
    fun c => (g.acc c).trans (h.acc c), fun o ho => g.out o (h.out o ho)⟩

theorem TakesOver.tells (h : TakesOver s t) {d : Dest} {m : FwMsg} (ht : Tells s d m) : Tells t d m := ht.imp fun _ hm => h.out _ hm

/-- Where the twin's state is the same, only the bytes are left to compare. -/
theorem takesOver_of_twin (hnode : t.fab.node = s.fab.node) (hentry : t.entry = s.entry) (htwin : t.twin = s.twin) (h : KeepsBytes s t)
    (hacc : ∀ c, (t.core c).acc = (s.core c).acc) : TakesOver s t :=
  ⟨hnode, hentry, by rw [htwin], by rw [htwin], fun n hn => by rwa [htwin], hacc, h.out⟩

theorem CoreWork.takesOver (h : CoreWork s t) : TakesOver s t := by
  obtain ⟨⟨_, _, _, rfl⟩, hw⟩ := h
  exact ⟨rfl, rfl, rfl, rfl, fun _ hn => hn, fun c => acc_of_wires (hw c), fun _ ho => ho⟩

theorem SendWork.takesOver (h : SendWork s t) (hnode : t.fab.node = s.fab.node) : TakesOver s t := by
  obtain ⟨_, _, l, rfl⟩ := h
  exact ⟨hnode, rfl, rfl, rfl, fun _ hn => hn, fun _ => rfl, fun _ ho => List.mem_append_left l ho⟩

theorem takesOver_send (s : State) (d : Dest) (m : FwMsg) : TakesOver s (s.send d m) := (sendWork_send s d m).takesOver (State.send_fab_node ..)

theorem takesOver_notify (s : State) (fn type status : Nat) (payload : List Byte) : TakesOver s (notify s fn type status payload) := by
  have hout := (keepsBytes_notify s fn type status payload).out
  obtain ⟨f, l, hrest⟩ := eventsOnly_notify s fn type status payload
  rw [hrest] at hout ⊢
  exact ⟨rfl, rfl, rfl, rfl, fun _ hn => hn, fun _ => rfl, hout⟩

end

/-! ### A node fenced, and the channels that named it (R454, R466, R490) -/

section

variable (s : State)

/-- A node fenced: its name is noted, and what waits on it fails. -/
theorem fenceNode_spec (n : Nat) : TakesOver s (fenceNode s n) ∧ n ∈ (fenceNode s n).twin.fence ∧ (fenceNode s n).fab.roles = s.fab.roles ∧
    (fenceNode s n).beside = s.beside ∧ ∀ j, ((fenceNode s n).core j).wires = (s.core j).wires := by
  set f : State := s.mapTwin fun t => { t with fence := if t.fence.contains n then t.fence else t.fence ++ [n] } with hf
  have hfenced : TakesOver s f := by
    refine ⟨rfl, rfl, rfl, rfl, fun m hm => ?_, fun _ => rfl, fun _ ho => ho⟩
    change m ∈ if s.twin.fence.contains n then s.twin.fence else s.twin.fence ++ [n]
    split
    · exact hm
    · exact List.mem_append_left _ hm
  have hn : n ∈ f.twin.fence := by
    change n ∈ if s.twin.fence.contains n then s.twin.fence else s.twin.fence ++ [n]
    split
    · next h => exact List.contains_iff_mem.1 h
    · exact List.mem_append_right _ (List.mem_singleton_self n)
  have hfail := coreWork_failNode f n
  have hkept := hfail.takesOver
  obtain ⟨⟨c, q, x, hrest⟩, hw⟩ := hfail
  rw [fenceNode, ← hf]
  exact ⟨hfenced.trans hkept, hkept.fence n hn, (congrArg (·.fab.roles) hrest :), (congrArg (·.beside) hrest :), hw⟩

/-- The channels of a core that a move of a node changes. -/
def movedChans (k : Core) (old : Nat) : List Nat := tkeys (k.chan.filter fun c => chEn c.2 && chRemote c.2 && chNode c.2 == old)

/-- A core whose channels to a node name its successor. -/
def Core.moved (k : Core) (old new : Nat) : Core :=
  if (movedChans k old).isEmpty then k else { k with
    chan := k.chan.map fun c => if (movedChans k old).contains c.1 then (c.1, setBits c.2 9 2 new) else c
    chanSeq := k.chanSeq.map fun c => if (movedChans k old).contains c.1 then (c.1, 0) else c
    restart := dedup (k.restart ++ movedChans k old) }

theorem moved_acc (k : Core) (old new : Nat) : (k.moved old new).acc = k.acc := by
  unfold Core.moved
  split <;> rfl

/-- A channel to the old node names the new one. -/
theorem moved_chan {k : Core} {old new : Nat} (hnew : new < 256) {e : Nat × Word64} (he : e ∈ k.chan) (hen : chEn e.2 = true) (hremote : chRemote e.2 = true)
    (hnode : chNode e.2 = old) : ∃ v, (e.1, v) ∈ (k.moved old new).chan ∧ chNode v = new := by
  have hhit : e.1 ∈ movedChans k old := List.mem_map.2 ⟨e, List.mem_filter.2 ⟨he, by simp [hen, hremote, hnode]⟩, rfl⟩
  refine ⟨setBits e.2 9 2 new, ?_, ?_⟩
  · rw [Core.moved, if_neg (fun h => by simp [List.isEmpty_iff.1 h] at hhit)]
    exact List.mem_map.2 ⟨e, he, if_pos (List.contains_iff_mem.2 hhit)⟩
  · rw [chNode, bits_setBits _ _ (by omega) (by omega)]
    omega

theorem moveChannels_core (old new c : Nat) : (moveChannels s old new).core c = (s.core c).moved old new := by
  rcases tget_map_cases Core.reset s.cores (fun _ k => k.moved old new) c with h | ⟨hd, ht⟩
  · exact h
  · have hreset : Core.reset.moved old new = Core.reset := rfl
    exact hd.trans ((congrArg (Core.moved · old new) ht).trans hreset).symm

theorem resendVerdicts_sends (role : Nat) : SendWork s (resendVerdicts s role) ∧ (resendVerdicts s role).fab.roles = s.fab.roles ∧
    (resendVerdicts s role).fab.node = s.fab.node := by
  refine foldl_keeps (fun t : State => SendWork s t ∧ t.fab.roles = s.fab.roles ∧ t.fab.node = s.fab.node) _ _ s ⟨.refl s, rfl, rfl⟩ fun t ht e _ => ?_
  refine foldl_keeps (fun t : State => SendWork s t ∧ t.fab.roles = s.fab.roles ∧ t.fab.node = s.fab.node) _ _ t ht fun u hu v _ => ?_
  split
  · obtain ⟨hwork, hroles, hnode⟩ := hu
    exact ⟨hwork.trans (sendWork_send ..), by rwa [State.send_fab_roles], by rwa [State.send_fab_node]⟩
  · exact hu

end

/-! ### A role moves (R490, R491) -/

section

variable (s : State)

theorem setRole_takesOver (r node epoch : Nat) : TakesOver s (setRole s r node epoch) := by
  rw [setRole_rest]
  exact ⟨rfl, rfl, rfl, rfl, fun _ hn => hn, fun _ => rfl, fun _ ho => ho⟩

theorem moveChannels_takesOver (old new : Nat) : TakesOver s (moveChannels s old new) := by
  refine ⟨rfl, rfl, rfl, rfl, fun _ hn => hn, fun c => ?_, fun _ ho => ho⟩
  rw [moveChannels_core, moved_acc]

/-- A role moved: its entry is as set, its old node is fenced, each core's channels to the old node name the new one, the stacks are as before. -/
theorem roleMoved_spec (r old new epoch : Nat) : TakesOver s (roleMoved s r old new epoch) ∧
    (roleMoved s r old new epoch).fab.roles = (setRole s r new epoch).fab.roles ∧ (roleMoved s r old new epoch).beside = s.beside ∧
    old ∈ (roleMoved s r old new epoch).twin.fence ∧
    ∀ c, ∃ k : Core, k.wires = (s.core c).wires ∧ ((roleMoved s r old new epoch).core c) = k.moved old new := by
  unfold roleMoved
  extract_lets s1
  have h1 : TakesOver s s1 := setRole_takesOver ..
  have hset : s1.beside = s.beside ∧ s1.cores = s.cores := by
    simp only [s1]
    rw [setRole_rest]
    exact ⟨rfl, rfl⟩
  obtain ⟨h2, hfence, hroles, hbeside, hwires⟩ := fenceNode_spec s1 old
  have hcore : ∀ c, ((fenceNode s1 old).core c).wires = (s.core c).wires := fun c => by rw [hwires, State.core, hset.2, State.core]
  generalize fenceNode s1 old = f at *
  have h3 : TakesOver f (failoverEvent f r old new) := takesOver_notify ..
  obtain ⟨_, _, hevent⟩ : EventsOnly f (failoverEvent f r old new) := eventsOnly_notify ..
  have hevents : (failoverEvent f r old new).fab.roles = f.fab.roles ∧ (failoverEvent f r old new).beside = f.beside ∧
      (failoverEvent f r old new).cores = f.cores := by
    rw [hevent]
    exact ⟨rfl, rfl, rfl⟩
  generalize failoverEvent f r old new = e at *
  obtain ⟨hsends, hrolesV, hnodeV⟩ := resendVerdicts_sends (moveChannels e old new) r
  have h5 := hsends.takesOver hnodeV
  refine ⟨h1.trans (h2.trans (h3.trans ((moveChannels_takesOver e old new).trans h5))), ?_, ?_, ?_, fun c => ⟨f.core c, hcore c, ?_⟩⟩
  · exact hrolesV.trans (hevents.1.trans hroles)
  · exact hsends.beside.trans (hevents.2.1.trans (hbeside.trans hset.1))
  · exact h5.fence old (h3.fence old hfence)
  · have hcores : (resendVerdicts (moveChannels e old new) r).core c = (moveChannels e old new).core c := by rw [State.core, hsends.cores, State.core]
    rw [hcores, moveChannels_core, State.core, hevents.2.2, State.core]

theorem role_of_entry {r n e : Nat} (h : tget (0, 0) s.fab.roles r = (n + 1, e)) : s.roleNode r = some n ∧ s.roleEpoch r = e := by
  rw [State.roleNode, State.roleEpoch, h]
  exact ⟨rfl, rfl⟩

theorem wires_of_lasting {s t : State} (h : lasting t = lasting s) (c : Nat) : (t.core c).wires = (s.core c).wires := by
  have hbare : ∀ k : Core, k.bare.wires = k.wires := fun _ => rfl
  rw [← hbare, core_of_lasting h c, hbare]

theorem takesOver_of_lasting {s t : State} (h : lasting t = lasting s) (hbytes : KeepsBytes s t) : TakesOver s t :=
  takesOver_of_twin (node_of_beyond (beyond_of_lasting h)) (entry_of_beyond (beyond_of_lasting h)) (twin_of_beyond (beyond_of_lasting h)) hbytes
    fun c => acc_of_wires (wires_of_lasting h c)

end

section

variable {s : State}

theorem roleMove_self (hset : Settled s) (hfenced : s.twin.fenced = false) (hpaired : s.twin.state ≠ .unpaired) (r n e : Nat) :
    ∃ t, exec (.roleMove r s.fab.node n e) s = .next t ∧
      t.twin = { s.twin with fenced := true } ∧ t.boot = { s.boot with resetWait := some 4 } ∧ t.mbx = { s.mbx with resetting := true } ∧
      t = { s with twin := t.twin, boot := t.boot, mbx := t.mbx } := by
  have hself : fencedSelf s = { s.mapTwin (fun w => { w with fenced := true }) with
      boot := { s.boot with resetWait := some 4 }, mbx := { s.mbx with resetting := true } } := if_neg (by simp [hfenced, hpaired])
  have hset' : Settled (fencedSelf s) := by
    rw [hself]
    exact hset
  have hrun : exec (.roleMove r s.fab.node n e) s = .next (fencedSelf s) :=
    (congrArg (fun t => Host.Outcome.next (settle t)) (if_pos rfl)).trans (congrArg Host.Outcome.next (settle_of_settled hset' rfl))
  refine ⟨_, hrun, ?_⟩
  rw [hself]
  exact ⟨rfl, rfl, rfl, rfl⟩

theorem roleMove_old (hset : Settled s) {r old n e : Nat} (hold : old ≠ s.fab.node) (hlow : e ≤ s.roleEpoch r) (hknown : (s.roleNode r).isSome = true) :
    exec (.roleMove r old n e) s = .next s :=
  (congrArg (fun t => Host.Outcome.next (settle t)) ((if_neg hold).trans (if_pos (by simp [hlow, hknown])))).trans
    (congrArg Host.Outcome.next (settle_of_settled hset rfl))

theorem roleMove_moves {r old n e : Nat} (hold : old ≠ s.fab.node) (hfrom : takesFrom s n = true) (hhigh : s.roleEpoch r < e) (hnew : n < 256) :
    ∃ t, exec (.roleMove r old n e) s = .next t ∧ t.roleNode r = some n ∧ t.roleEpoch r = e ∧ old ∈ t.twin.fence ∧
      (∀ j, j ≠ r → t.roleNode j = s.roleNode j ∧ t.roleEpoch j = s.roleEpoch j) ∧
      (∀ c, ∀ k ∈ (s.core c).chan, chEn k.2 = true → chRemote k.2 = true → chNode k.2 = old → ∃ v, (k.1, v) ∈ (t.core c).chan ∧ chNode v = n) ∧
      (∀ c i, accWord t c i = accWord s c i) ∧ (∀ d a, nearByte t d a = nearByte s d a) := by
  have hrun : exec (.roleMove r old n e) s = .next (settle (roleMoved s r old n e)) :=
    congrArg (fun t => Host.Outcome.next (settle t)) ((if_neg hold).trans (if_neg (by simp [hfrom, hhigh])))
  obtain ⟨htakes, hroles, hbeside, hfence, hcores⟩ := roleMoved_spec s r old n e
  generalize roleMoved s r old n e = v at *
  have hlasting := lasting_settle v
  have hbytes := keepsBytes_settle v
  have hsettled := takesOver_of_lasting hlasting hbytes
  have hrolesV : (settle v).fab.roles = (setRole s r n e).fab.roles := (roles_of_beyond (beyond_of_lasting hlasting)).trans hroles
  obtain ⟨hnode, hepoch⟩ := role_of_entry (settle v) ((congrArg (tget (0, 0) · r) hrolesV).trans (role_setRole_of_lt hhigh))
  refine ⟨_, hrun, hnode, hepoch, hsettled.fence old hfence, fun j hj => ?_, fun c k hk hen hremote hnodek => ?_, fun c i => ?_, fun d a => ?_⟩
  · exact (role_congr ((congrArg (tget (0, 0) · j) hrolesV).trans (role_setRole_ne hj e))).symm
  · obtain ⟨x, hwires, hx⟩ := hcores c
    obtain ⟨w, hw, hwn⟩ := moved_chan (k := x) hnew (by rwa [chan_of_wires hwires]) hen hremote hnodek
    refine ⟨w, ?_, hwn⟩
    rwa [chan_of_wires (wires_of_lasting hlasting c), hx]
  · exact congrArg (tget 0 · i) (((htakes.trans hsettled).acc c))
  · rw [hbytes.memory.2.2, nearByte, State.bdie, hbeside, nearByte, State.bdie]

end

end Sys2Proof.Machine
end

section
/-!
PROOFS of twins: the directories cleared at a failover (R204, R489). The jobs that wait on a line run once its entry is gone; they touch no other line.
-/

namespace Sys2Proof.Machine

/-! ### The jobs of one line -/

/-- A job of this package's own: no other owner's request waits behind it. -/
def LineJob.own (j : LineJob) : Bool :=
  match j with
  | .write _ _ _ => true
  | .read => true
  | _ => false

/-- Lines of one die worked on: no directory entry differs, no wait is new, and no other line's poison or other die's memory differs. -/
structure LinesRun (st : Nat) (L : Nat → Prop) (s t : State) : Prop where
  takes : TakesOver s t
  roles : t.fab.roles = s.fab.roles
  dir : ∀ d, (t.bdie d).dir = (s.bdie d).dir
  waits : ∀ d, ∀ w ∈ (t.bdie d).waits, w ∈ (s.bdie d).waits
  mem : ∀ d, d ≠ st → (t.bdie d).mem = (s.bdie d).mem
  poison : ∀ d x, d ≠ st ∨ ¬L x → tget false (t.bdie d).poison x = tget false (s.bdie d).poison x

section

variable {st : Nat} {L M : Nat → Prop} {s t u : State}

theorem LinesRun.refl (s : State) : LinesRun st L s s := ⟨.refl s, rfl, fun _ => rfl, fun _ _ hw => hw, fun _ _ => rfl, fun _ _ _ => rfl⟩

theorem LinesRun.trans (h : LinesRun st L s t) (g : LinesRun st L t u) : LinesRun st L s u :=
  ⟨h.takes.trans g.takes, g.roles.trans h.roles, fun d => (g.dir d).trans (h.dir d), fun d w hw => h.waits d w (g.waits d w hw),
    fun d hd => (g.mem d hd).trans (h.mem d hd), fun d x hx => (g.poison d x hx).trans (h.poison d x hx)⟩

theorem LinesRun.mono (h : LinesRun st L s t) (hL : ∀ x, L x → M x) : LinesRun st M s t :=
  ⟨h.takes, h.roles, h.dir, h.waits, h.mem, fun d x hx => h.poison d x (hx.imp_right fun hM hl => hM (hL x hl))⟩

/-- Where the dies are the same, so are their lines. -/
theorem linesRun_of_beside (htakes : TakesOver s t) (hroles : t.fab.roles = s.fab.roles) (hbeside : t.beside = s.beside) : LinesRun st L s t := by
  have hdie : ∀ d, t.bdie d = s.bdie d := fun d => by rw [State.bdie, hbeside, State.bdie]
  exact ⟨htakes, hroles, fun d => by rw [hdie], fun d w hw => by rwa [← hdie], fun d _ => by rw [hdie], fun d x _ => by rw [hdie]⟩

end

section

variable (s : State) (st line : Nat)

theorem linesRun_sendProbe {L : Nat → Prop} : LinesRun st L s (sendProbe s st line) := by
  unfold sendProbe
  split
  · unfold State.emit
    split
    · exact .refl s
    · exact linesRun_of_beside ⟨rfl, rfl, rfl, rfl, fun _ hn => hn, fun _ => rfl, fun _ ho => List.mem_append_left _ ho⟩ rfl rfl
  · exact .refl s

theorem linesRun_setBdie {x : BesideDie} (hdir : x.dir = (s.bdie st).dir) (hwaits : ∀ w ∈ x.waits, w ∈ (s.bdie st).waits)
    (hpoison : ∀ y, y ≠ line → tget false x.poison y = tget false (s.bdie st).poison y) : LinesRun st (· = line) s (s.setBdie st x) := by
  refine ⟨⟨rfl, rfl, rfl, rfl, fun _ hn => hn, fun _ => rfl, fun _ ho => ho⟩, rfl, fun d => ?_, fun d => ?_, fun d hd => ?_, fun d y hy => ?_⟩
  all_goals rw [State.bdie_setBdie]
  · split
    · next hd => rw [hd, hdir]
    · rfl
  · split
    · next hd =>
      rw [hd]
      exact hwaits
    · exact fun _ hw => hw
  · rw [if_neg hd]
  · split
    · next hd =>
      rw [hd]
      exact hpoison y (hy.resolve_left (not_not.2 hd))
    · rfl

theorem linesRun_applyLine (off : Nat) (data : List Byte) (poison : Bool) : LinesRun st (· = line) s (applyLine s st line off data poison []) := by
  have hcheck : checkLine s st line [] = s := by
    unfold checkLine
    simp
  unfold applyLine
  rw [hcheck, ite_self]
  dsimp only
  generalize (if data.length = 64 then poison else poison || tget false (s.bdie st).poison line) = bad
  refine linesRun_setBdie s st line rfl (fun _ hw => hw) fun y hy => ?_
  cases bad with
  | true => exact tget_tput_ne _ _ _ hy
  | false => exact tget_tdel_ne _ _ hy

theorem linesRun_releaseLine : LinesRun st (· = line) s (releaseLine s st line) := by
  have hdie : ∀ {β : Type} (g : BesideDie → β), (∀ (b : BesideDie) r, g { b with rings := r } = g b) → ∀ d, g ((releaseLine s st line).bdie d) = g (s.bdie d) :=
    fun g h d => tget_map_field BesideDie.reset s.beside (fun _ (b : BesideDie) => { b with
      rings := b.rings.map fun r => (r.1, { r.2 with started := r.2.started.map fun t => { t with lines := t.lines.filter (· != (st, line)) } }) }) d g fun b => h b _
  have hacc : ∀ c, ((releaseLine s st line).core c).acc = (s.core c).acc := fun c =>
    tget_map_field Core.reset s.cores (fun _ (k : Core) => { k with
      s0 := k.s0.release st line, s1 := k.s1.release st line, s2 := k.s2.release st line, s3 := k.s3.release st line }) c Core.acc fun _ => rfl
  refine ⟨⟨rfl, rfl, rfl, rfl, fun _ hn => hn, hacc, fun _ ho => ho⟩, rfl, fun d => hdie BesideDie.dir (fun _ _ => rfl) d, fun d => ?_,
    fun d _ => hdie BesideDie.mem (fun _ _ => rfl) d, fun d x _ => hdie (fun b => tget false b.poison x) (fun _ _ => rfl) d⟩
  rw [hdie BesideDie.waits (fun _ _ => rfl) d]
  exact fun _ hw => hw

/-- The package's own jobs of a line that no one holds are all done. -/
theorem linesRun_runJobs (jobs : List LineJob) (hown : ∀ j ∈ jobs, j.own = true) (hdir : (s.bdie st).dir = []) :
    LinesRun st (· = line) s (runJobs s st line jobs) := by
  induction jobs generalizing s with
  | nil => exact linesRun_releaseLine s st line
  | cons j r ih =>
    have hfree : (dirOf s st line).held = false := by
      rw [dirOf, hdir]
      rfl
    have hrest : ∀ i ∈ r, i.own = true := fun i hi => hown i (List.mem_cons_of_mem _ hi)
    have hj := hown j List.mem_cons_self
    rw [runJobs.eq_def]
    dsimp only
    rw [if_neg (by simp [hfree])]
    cases j with
    | write off data poison =>
      have h1 := linesRun_applyLine s st line off data poison
      exact h1.trans (ih _ hrest ((h1.dir st).trans hdir))
    | read => exact ih s hrest hdir
    | rdS => cases hj
    | rdM nd => cases hj
    | evictFor o m nd => cases hj

/-- A line's wait ended where the directory is empty: the waiting jobs run. -/
theorem linesRun_closeWait (hown : ∀ w ∈ (s.bdie st).waits, ∀ j ∈ w.2, j.own = true) (hdir : (s.bdie st).dir = []) :
    LinesRun st (· = line) s (closeWait s st line) := by
  unfold closeWait
  extract_lets b
  split
  · exact .refl s
  · next probed rest s1 s2 _ jobs hjobs =>
    obtain ⟨w, hw, hwj⟩ := Option.map_eq_some_iff.1 hjobs
    have h1 : LinesRun st (· = line) s s1 := linesRun_setBdie s st line rfl (fun _ hw => List.mem_of_mem_filter hw) fun _ _ => rfl
    have h2 : LinesRun st (· = line) s1 s2 := by
      simp only [s2]
      split
      · exact linesRun_sendProbe ..
      · exact .refl s1
    have hjob : ∀ j ∈ jobs, j.own = true := hwj ▸ hown w (List.mem_of_find?_eq_some hw)
    exact (h1.trans h2).trans (linesRun_runJobs s2 st line jobs hjob ((h2.dir st).trans ((h1.dir st).trans hdir)))

/-- The waits of a list of lines ended one after the other. -/
theorem linesRun_closeWaits (l : List Nat) (hown : ∀ w ∈ (s.bdie st).waits, ∀ j ∈ w.2, j.own = true) (hdir : (s.bdie st).dir = []) :
    LinesRun st (· ∈ l) s (l.foldl (fun t x => closeWait t st x) s) :=
  foldl_keeps (LinesRun st (· ∈ l) s) _ l s (.refl s) fun t ht x hx =>
    ht.trans ((linesRun_closeWait t st x (fun w hw => hown w (ht.waits st w hw)) ((ht.dir st).trans hdir)).mono fun _ hy => hy ▸ hx)

end

/-! ### The directories cleared -/

/-- One die as others of its kind are cleared: entries, memory and poison stay, no wait is new. -/
structure DieKept (s t : State) (d : Nat) : Prop where
  dir : (t.bdie d).dir = (s.bdie d).dir
  waits : ∀ w ∈ (t.bdie d).waits, w ∈ (s.bdie d).waits
  mem : (t.bdie d).mem = (s.bdie d).mem
  poison : ∀ x, tget false (t.bdie d).poison x = tget false (s.bdie d).poison x

/-- One die cleared: no entry is left, a modified line no job waits for is poisoned, and the memory is as before where none waits. -/
structure DieCleared (s t : State) (d : Nat) : Prop where
  dir : (t.bdie d).dir = []
  mem : (s.bdie d).waits = [] → (t.bdie d).mem = (s.bdie d).mem
  poison : ∀ x, (dirOf s d x).modified = true → lineWaits s d x = none → tget false (t.bdie d).poison x = true

section

variable {s t u : State} {d st : Nat}

theorem DieKept.refl (s : State) (d : Nat) : DieKept s s d := ⟨rfl, fun _ hw => hw, rfl, fun _ => rfl⟩

theorem DieKept.trans (h : DieKept s t d) (g : DieKept t u d) : DieKept s u d :=
  ⟨g.dir.trans h.dir, fun w hw => h.waits w (g.waits w hw), g.mem.trans h.mem, fun x => (g.poison x).trans (h.poison x)⟩

theorem DieCleared.kept (h : DieCleared s t d) (g : DieKept t u d) : DieCleared s u d :=
  ⟨g.dir.trans h.dir, fun hw => g.mem.trans (h.mem hw), fun x hx hnone => (g.poison x).trans (h.poison x hx hnone)⟩

theorem DieKept.cleared (h : DieKept s t d) (g : DieCleared t u d) : DieCleared s u d := by
  refine ⟨g.dir, fun hw => (g.mem ?_).trans h.mem, fun x hx hnone => g.poison x ?_ ?_⟩
  · exact List.eq_nil_iff_forall_not_mem.2 fun w hwt => by simpa [hw] using h.waits w hwt
  · rwa [dirOf, h.dir]
  · simp only [lineWaits, Option.map_eq_none_iff, List.find?_eq_none] at hnone ⊢
    exact fun w hw => hnone w (h.waits w hw)

theorem LinesRun.kept {L : Nat → Prop} (h : LinesRun st L s t) (hd : d ≠ st) : DieKept s t d :=
  ⟨h.dir d, h.waits d, h.mem d hd, fun x => h.poison d x (.inl hd)⟩

theorem tget_foldl_tput_true {l : List Nat} {p : Tab Bool} {x : Nat} (h : x ∈ l ∨ tget false p x = true) : tget false (l.foldl (fun t y => tput t y true) p) x = true := by
  induction l generalizing p with
  | nil => exact h.resolve_left List.not_mem_nil
  | cons y l ih =>
    refine ih ?_
    rw [tget_tput]
    by_cases hy : x = y
    · exact .inr (if_pos hy)
    · rw [if_neg hy]
      exact h.imp_left fun hx => (List.mem_cons.1 hx).resolve_left hy

/-- One die's directory cleared. -/
def clearDie (s : State) (st : Nat) : State :=
  let b := s.bdie st
  let bad := (b.dir.filter fun e => e.2.modified).map (·.1)
  let own (j : LineJob) : Bool := match j with | .write _ _ _ => true | .read => true | _ => false
  let s1 := s.setBdie st { b with
    poison := bad.foldl (fun t l => tput t l true) b.poison, dir := [], waits := b.waits.map fun w => (w.1, w.2.filter own) }
  (b.waits.map (·.1)).foldl (fun s l => closeWait s st l) s1

theorem clearDie_spec (s : State) (st : Nat) : TakesOver s (clearDie s st) ∧ (clearDie s st).fab.roles = s.fab.roles ∧
    (∀ d, d ≠ st → DieKept s (clearDie s st) d) ∧ DieCleared s (clearDie s st) st := by
  unfold clearDie
  extract_lets b bad own s1
  have hb : s1.bdie st = { b with
      poison := bad.foldl (fun t l => tput t l true) b.poison, dir := [], waits := b.waits.map fun w => (w.1, w.2.filter own) } := State.bdie_setBdie_same ..
  have hown : ∀ w ∈ (s1.bdie st).waits, ∀ j ∈ w.2, j.own = true := by
    rw [hb]
    intro w hw j hj
    obtain ⟨v, -, rfl⟩ := List.mem_map.1 hw
    exact (List.mem_filter.1 hj).2
  have hdir : (s1.bdie st).dir = [] := by rw [hb]
  have hrun := linesRun_closeWaits s1 st (b.waits.map (·.1)) hown hdir
  have hone : TakesOver s s1 := ⟨rfl, rfl, rfl, rfl, fun _ hn => hn, fun _ => rfl, fun _ ho => ho⟩
  have hother : ∀ d, d ≠ st → s1.bdie d = s.bdie d := fun d hd => State.bdie_setBdie_ne s _ hd
  refine ⟨hone.trans hrun.takes, hrun.roles, fun d hd => ?_, (hrun.dir st).trans hdir, fun hwaits => ?_, fun x hx hnone => ?_⟩
  · refine DieKept.trans ⟨?_, ?_, ?_, ?_⟩ (hrun.kept hd)
    all_goals rw [hother d hd]
    · exact fun _ hw => hw
    · exact fun _ => rfl
  · have hnone : b.waits = [] := hwaits
    rw [hnone, List.map_nil, List.foldl_nil, hb]
  · have hfree : x ∉ b.waits.map (·.1) := fun hmem => by
      obtain ⟨w, hw, rfl⟩ := List.mem_map.1 hmem
      simp only [lineWaits, Option.map_eq_none_iff, List.find?_eq_none] at hnone
      exact hnone w hw (beq_self_eq_true _)
    rw [hrun.poison st x (.inr hfree), hb]
    exact tget_foldl_tput_true (.inl (mem_tkeys_filter (d := DirEntry.reset) (p := DirEntry.modified) rfl hx))

theorem clearDirs_eq (s : State) : clearDirs s = (List.range 12).foldl clearDie s := rfl

theorem foldl_clearDie_spec {l : List Nat} (hl : l.Nodup) (s : State) : TakesOver s (l.foldl clearDie s) ∧ (l.foldl clearDie s).fab.roles = s.fab.roles ∧
    (∀ d, d ∉ l → DieKept s (l.foldl clearDie s) d) ∧ ∀ d ∈ l, DieCleared s (l.foldl clearDie s) d := by
  induction l generalizing s with
  | nil => exact ⟨.refl s, rfl, fun d _ => .refl s d, fun d hd => absurd hd List.not_mem_nil⟩
  | cons st l ih =>
    obtain ⟨hst, hl⟩ := List.nodup_cons.1 hl
    obtain ⟨htakes, hroles, hothers, hcleared⟩ := clearDie_spec s st
    obtain ⟨itakes, iroles, iothers, icleared⟩ := ih hl (clearDie s st)
    refine ⟨htakes.trans itakes, iroles.trans hroles, fun d hd => ?_, fun d hd => ?_⟩
    · obtain ⟨hne, hnot⟩ := List.ne_and_not_mem_of_not_mem_cons hd
      exact (hothers d hne).trans (iothers d hnot)
    · by_cases heq : d = st
      · rw [heq]
        exact hcleared.kept (iothers st hst)
      · exact (hothers d heq).cleared (icleared d ((List.mem_cons.1 hd).resolve_left heq))

end

end Sys2Proof.Machine
end

section
/-!
PROOFS of twins: the twin declared lost (R489, R493 to R497, R507): its roles taken, the directories cleared, its laps, lists and requests taken over.
-/

namespace Sys2Proof.Machine

/-! ### Roles taken (R489) -/

section

variable {s : State}

theorem takeRole_spec (hosc : s.entry.oscDead = false) (r old : Nat) : TakesOver s (takeRole s r old) ∧
    (takeRole s r old).fab.roles = (setRole s r s.fab.node (s.roleEpoch r + 1)).fab.roles ∧ (takeRole s r old).beside = s.beside ∧
    Tells (takeRole s r old) .all (.roleMove r old s.fab.node (s.roleEpoch r + 1)) := by
  obtain ⟨htakes, hroles, hbeside, -, -⟩ := roleMoved_spec s r old s.fab.node (s.roleEpoch r + 1)
  unfold takeRole
  dsimp only
  generalize roleMoved s r old s.fab.node (s.roleEpoch r + 1) = v at *
  exact ⟨htakes.trans (takesOver_send ..), (State.send_fab_roles ..).trans hroles, (State.send_beside ..).trans hbeside, tells_send (by rw [htakes.entry, hosc]) ..⟩

/-- Each role of a list taken under its next epoch, and its move broadcast. -/
theorem foldl_takeRole_spec (hosc : s.entry.oscDead = false) {l : List Nat} (hl : l.Nodup) (old : Nat) :
    TakesOver s (l.foldl (fun t r => takeRole t r old) s) ∧ (l.foldl (fun t r => takeRole t r old) s).beside = s.beside ∧
    (∀ q, q ∉ l → tget (0, 0) (l.foldl (fun t r => takeRole t r old) s).fab.roles q = tget (0, 0) s.fab.roles q) ∧
    ∀ r ∈ l, tget (0, 0) (l.foldl (fun t r => takeRole t r old) s).fab.roles r = (s.fab.node + 1, s.roleEpoch r + 1) ∧
      Tells (l.foldl (fun t r => takeRole t r old) s) .all (.roleMove r old s.fab.node (s.roleEpoch r + 1)) := by
  induction l generalizing s with
  | nil => exact ⟨.refl s, rfl, fun _ _ => rfl, fun r hr => absurd hr List.not_mem_nil⟩
  | cons r l ih =>
    obtain ⟨hr, hl⟩ := List.nodup_cons.1 hl
    obtain ⟨htakes, hroles, hbeside, htells⟩ := takeRole_spec hosc r old
    obtain ⟨itakes, ibeside, iothers, itaken⟩ := ih (s := takeRole s r old) (by rw [htakes.entry, hosc]) hl
    have hother : ∀ q, q ≠ r → tget (0, 0) (takeRole s r old).fab.roles q = tget (0, 0) s.fab.roles q := fun q hq => by rw [hroles, role_setRole_ne hq]
    have hown : tget (0, 0) (takeRole s r old).fab.roles r = (s.fab.node + 1, s.roleEpoch r + 1) := by rw [hroles, role_setRole_of_lt (Nat.lt_succ_self _)]
    rw [List.foldl_cons]
    generalize takeRole s r old = v at *
    refine ⟨htakes.trans itakes, ibeside.trans hbeside, fun q hq => ?_, fun q hq => ?_⟩
    · obtain ⟨hne, hnot⟩ := List.ne_and_not_mem_of_not_mem_cons hq
      exact (iothers q hnot).trans (hother q hne)
    · by_cases heq : q = r
      · subst heq
        exact ⟨(iothers q hr).trans hown, itakes.tells htells⟩
      · have htaken := itaken q ((List.mem_cons.1 hq).resolve_left heq)
        rwa [htakes.node, (role_congr (hother q heq)).1] at htaken

/-- The roles a twin serves are listed once each. -/
theorem twinRoles_nodup (hkeyed : Keyed s.fab.roles) (n : Nat) : (twinRoles s n).Nodup := by
  unfold twinRoles
  dsimp only
  split
  · exact List.nodup_singleton _
  · exact hkeyed.sublist (List.filter_sublist.map _)

end

/-! ### The lost side taken over (R493 to R497) -/

/-- The state without the marks of what is adopted. -/
def unadopted (s : State) : State := { s with twin := { s.twin with adopted := [], lsUnchecked := 0, handoff := [] } }

/-- What lasts but for the marks of what is adopted is the same; every byte is kept. -/
structure Adopts (s t : State) : Prop where
  lasts : lasting (unadopted t) = lasting (unadopted s)
  bytes : KeepsBytes s t

section

variable {s t u : State}

theorem Adopts.refl (s : State) : Adopts s s := ⟨rfl, .refl s⟩

theorem Adopts.trans (h : Adopts s t) (g : Adopts t u) : Adopts s u := ⟨g.lasts.trans h.lasts, h.bytes.trans g.bytes⟩

theorem adopts_foldl {α : Type} {f : State → α → State} (h : ∀ s a, Adopts s (f s a)) (l : List α) (s : State) : Adopts s (l.foldl f s) :=
  foldl_keeps (Adopts s) f l s (.refl s) fun t ht a _ => ht.trans (h t a)

theorem adopts_ite {c : Prop} [Decidable c] (h : Adopts s t) (g : Adopts s u) : Adopts s (if c then t else u) := by
  split
  · exact h
  · exact g

theorem adopts_of_lasting (h : lasting t = lasting s) (hbytes : KeepsBytes s t) : Adopts s t :=
  ⟨congrArg (fun p : State × (Nat → Core) × (Nat → BesideDie) => (unadopted p.1, p.2)) h, hbytes⟩

theorem Adopts.takesOver (h : Adopts s t) : TakesOver s t := by
  obtain ⟨hlasts, hbytes⟩ := h
  have hbeyond := beyond_of_lasting hlasts
  have htwin := twin_of_beyond hbeyond
  exact ⟨(node_of_beyond hbeyond :), (entry_of_beyond hbeyond :), (congrArg Twin.state htwin :), (congrArg Twin.failovers htwin :),
    fun n hn => ((congrArg Twin.fence htwin :) : t.twin.fence = s.twin.fence) ▸ hn, fun c => acc_of_wires (wires_of_lasting hlasts c :), hbytes.out⟩

theorem Adopts.roles (h : Adopts s t) : t.fab.roles = s.fab.roles :=
  (roles_of_beyond (s := unadopted s) (t := unadopted t) (beyond_of_lasting h.lasts) :)

theorem Adopts.lines (h : Adopts s t) : t.fab.lines = s.fab.lines :=
  (lines_of_beyond (s := unadopted s) (t := unadopted t) (beyond_of_lasting h.lasts) :)

theorem Adopts.die (h : Adopts s t) (d : Nat) : (t.bdie d).bare = (s.bdie d).bare := bdie_of_lasting h.lasts d

end

section

variable (s : State)

theorem adopts_mapTwin (f : Twin → Twin) (h : ∀ w : Twin, { f w with adopted := [], lsUnchecked := 0, handoff := [] } = { w with adopted := [], lsUnchecked := 0, handoff := [] }) :
    Adopts s (s.mapTwin f) := by
  refine ⟨?_, keepsBytes_same rfl rfl rfl⟩
  rw [unadopted, State.mapTwin]
  dsimp only
  rw [h, unadopted]

theorem adopts_setReq (i : Nat) (x : Req) : Adopts s (s.setReq i x) := adopts_of_lasting (lasting_setReq ..) (keepsBytes_setReq ..)

theorem adopts_send (d : Dest) (m : FwMsg) : Adopts s (s.send d m) := adopts_of_lasting (lasting_send ..) (keepsBytes_send ..)

theorem adopts_adoptMap (k : Nat) : Adopts s (adoptMap s k) := by
  unfold adoptMap
  extract_lets v own m new s1
  exact adopts_ite (.refl s) ⟨rfl, keepsBytes_same rfl rfl rfl⟩

theorem adopts_adoptReq (i : Nat) : Adopts s (adoptReq s i) := by
  unfold adoptReq
  extract_lets r h lap p r1 s1
  have h1 : Adopts s s1 := adopts_setReq ..
  refine adopts_ite (h1.trans (adopts_of_lasting rfl (keepsBytes_same rfl rfl rfl))) (adopts_ite (h1.trans (adopts_foldl (fun t n => adopts_send t ..) _ s1)) h1)

theorem adopts_takeHeats (lost : List Nat) : Adopts s (takeHeats s lost) := by
  refine adopts_foldl (fun t e => ?_) _ s
  extract_lets h s1
  have h1 : Adopts t s1 := adopts_of_lasting (lasting_setHeat ..) (keepsBytes_setHeat ..)
  exact adopts_ite (.refl t) (adopts_ite (h1.trans (adopts_mapTwin s1 _ fun _ => rfl)) h1)

theorem adopts_resumeLaps (lost : List Nat) : Adopts s (resumeLaps s lost) := by
  refine adopts_foldl (fun t e => ?_) _ s
  extract_lets h
  refine adopts_ite (.refl t) (adopts_ite ?_ (adopts_of_lasting (lasting_orderReplay ..) (keepsBytes_orderReplay ..)))
  exact adopts_foldl (fun u home => adopts_foldl (fun v r => adopts_send v ..) _ u) _ t

theorem adopts_repostTokens (i : Nat) : Adopts s (repostTokens s i) :=
  (adopts_setReq ..).trans (adopts_of_lasting ((lasting_postDone ..).trans (lasting_postTokens ..)) ((keepsBytes_postTokens ..).trans (keepsBytes_postDone ..)))

theorem flood_takesOver : TakesOver s (flood s) := (sendWork_flood s).takesOver (State.send_fab_node ..)

/-- What follows the directories' clearing: the flood, and the lost side's lists, requests and laps taken over. -/
def survived (s : State) (lost : List Nat) : State :=
  let s3 := flood s
  let s4 := (tkeys s3.srv.mirrors).foldl adoptMap s3
  let reqs := tkeys (s4.srv.ledger.filter fun e => e.2.mirror && e.2.state != .free)
  let s5 := resumeLaps (takeHeats (reqs.foldl adoptReq s4) lost) lost
  (reqs.foldl repostTokens s5).mapTwin fun w => { w with handoff := [] }

theorem adopts_survived (lost : List Nat) : Adopts (flood s) (survived s lost) := by
  unfold survived
  extract_lets s3 s4 reqs s5
  have h4 : Adopts s3 s4 := adopts_foldl adopts_adoptMap _ s3
  have h5 : Adopts s4 s5 := ((adopts_foldl adopts_adoptReq reqs s4).trans (adopts_takeHeats ..)).trans (adopts_resumeLaps ..)
  exact ((h4.trans h5).trans (adopts_foldl adopts_repostTokens reqs s5)).trans (adopts_mapTwin _ _ fun _ => rfl)

end

/-! ### The twin declared lost (R489) -/

section

variable {s : State} {n : Nat}

/-- The pair ended by a failover. -/
def alone (s : State) : State :=
  s.mapTwin fun w => { w with
    state := .single, failovers := w.failovers + 1, suspected := false, probeAt := none, copying := false, returning := none, joinWait := none, retryAt := none }

/-- The roles of the lost twin taken, its node fenced first. -/
def twinTaken (s : State) (n : Nat) : State := (twinRoles s n).foldl (fun t r => takeRole t r n) (fenceNode (alone s) n)

theorem declareLost_eq (htwin : s.twinNode = some n) (hisolated : s.twin.isolated = false) (hfenced : s.twin.fenced = false)
    (hpaired : s.twin.state = .paired ∨ s.twin.state = .rejoining) :
    declareLost s = survived (dropLines (clearDirs (twinTaken s n))) (twinRoles s n) := by
  have hguard : ¬(s.twin.isolated || s.twin.fenced || !(s.twin.state == .paired || s.twin.state == .rejoining)) = true := by
    rcases hpaired with h | h <;> simp [hisolated, hfenced, h]
  rw [declareLost, htwin]
  exact (if_neg hguard).trans (by unfold survived twinTaken alone; rfl)

theorem twinTaken_spec (hosc : s.entry.oscDead = false) (hkeyed : Keyed s.fab.roles) : TakesOver (alone s) (twinTaken s n) ∧ n ∈ (twinTaken s n).twin.fence ∧
    (twinTaken s n).beside = s.beside ∧ ∀ r ∈ twinRoles s n, tget (0, 0) (twinTaken s n).fab.roles r = (s.fab.node + 1, s.roleEpoch r + 1) ∧
      Tells (twinTaken s n) .all (.roleMove r n s.fab.node (s.roleEpoch r + 1)) := by
  obtain ⟨hfenced, hn, hroles, hbeside, -⟩ := fenceNode_spec (alone s) n
  unfold twinTaken
  have hnode : (fenceNode (alone s) n).fab.node = s.fab.node := hfenced.node
  have hosc' : (fenceNode (alone s) n).entry.oscDead = false := by
    rw [hfenced.entry]
    exact hosc
  generalize fenceNode (alone s) n = f at *
  obtain ⟨htakes, hdies, -, htaken⟩ := foldl_takeRole_spec hosc' (twinRoles_nodup hkeyed n) n
  refine ⟨hfenced.trans htakes, htakes.fence n hn, hdies.trans hbeside, fun r hr => ?_⟩
  have hepoch : f.roleEpoch r = s.roleEpoch r := (role_congr (congrArg (tget (0, 0) · r) hroles)).1
  have h := htaken r hr
  rwa [hnode, hepoch] at h

/-- A failover's outcome: the twin's node fenced, its roles taken and broadcast, the directories and the line cache cleared, the accumulators kept, and near memory
too where no write waited on a line. -/
def FailedOver (s : State) (n : Nat) (t : State) : Prop :=
  t.twin.state = .single ∧ t.twin.failovers = s.twin.failovers + 1 ∧ n ∈ t.twin.fence ∧
  (∀ r ∈ twinRoles s n, t.roleNode r = some s.fab.node ∧ t.roleEpoch r = s.roleEpoch r + 1 ∧ Tells t .all (.roleMove r n s.fab.node (s.roleEpoch r + 1))) ∧
  t.fab.lines = [] ∧ (∀ d, d < 12 → (t.bdie d).dir = []) ∧
  (∀ d x, d < 12 → (dirOf s d x).held = true → (dirOf s d x).modified = true → lineWaits s d x = none → tget false (t.bdie d).poison x = true) ∧
  (∀ c i, accWord t c i = accWord s c i) ∧ ((∀ d, d < 12 → (s.bdie d).waits = []) → ∀ d a, nearByte t d a = nearByte s d a)

theorem declareLost_failsOver (hosc : s.entry.oscDead = false) (hkeyed : Keyed s.fab.roles) (htwin : s.twinNode = some n) (hisolated : s.twin.isolated = false)
    (hfenced : s.twin.fenced = false) (hpaired : s.twin.state = .paired ∨ s.twin.state = .rejoining) : FailedOver s n (settle (declareLost s)) := by
  obtain ⟨htaken, hfence, hbeside, hroles⟩ := twinTaken_spec (n := n) hosc hkeyed
  rw [declareLost_eq htwin hisolated hfenced hpaired]
  generalize twinTaken s n = v at *
  obtain ⟨hcleared, hclearRoles, hothers, hdies⟩ := foldl_clearDie_spec (List.nodup_range (n := 12)) v
  rw [← clearDirs_eq] at hcleared hclearRoles hothers hdies
  generalize clearDirs v = c at *
  have hdropped : TakesOver c (dropLines c) := ⟨rfl, rfl, rfl, rfl, fun _ hn => hn, fun _ => rfl, fun _ ho => ho⟩
  have hflood := flood_takesOver (dropLines c)
  have hfloodLines : (flood (dropLines c)).fab.lines = [] := State.send_fab_lines ..
  have hfloodRoles : (flood (dropLines c)).fab.roles = c.fab.roles := State.send_fab_roles ..
  have hfloodDies : (flood (dropLines c)).beside = c.beside := (sendWork_flood _).beside
  have hsurvived := adopts_survived (dropLines c) (twinRoles s n)
  generalize flood (dropLines c) = f at *
  generalize survived (dropLines c) (twinRoles s n) = w at *
  have hend : Adopts f (settle w) := hsurvived.trans (adopts_of_lasting (lasting_settle w) (keepsBytes_settle w))
  generalize settle w = t at *
  have hall : TakesOver v t := hcleared.trans (hdropped.trans (hflood.trans hend.takesOver))
  have hrolesT : t.fab.roles = v.fab.roles := hend.roles.trans (hfloodRoles.trans hclearRoles)
  have hbare : ∀ d, (t.bdie d).bare = (c.bdie d).bare := fun d => (hend.die d).trans (by rw [State.bdie, hfloodDies, State.bdie])
  have hsame : ∀ d, v.bdie d = s.bdie d := fun d => by rw [State.bdie, hbeside, State.bdie]
  have hkept : ∀ d, DieKept s v d := fun d => ⟨by rw [hsame], fun _ hw => by rwa [← hsame], by rw [hsame], fun _ => by rw [hsame]⟩
  have hdie : ∀ d, d < 12 → DieCleared s c d := fun d hd => (hkept d).cleared (hdies d (List.mem_range.2 hd))
  refine ⟨hall.state.trans htaken.state, hall.failovers.trans htaken.failovers, hall.fence n hfence, fun r hr => ?_, hend.lines.trans hfloodLines,
    fun d hd => ?_, fun d x hd _ hmod hnone => ?_, fun k i => ?_, fun hwaits d a => ?_⟩
  · obtain ⟨hentry, htells⟩ := hroles r hr
    obtain ⟨hnode, hepoch⟩ := role_of_entry t ((congrArg (tget (0, 0) · r) hrolesT).trans hentry)
    exact ⟨hnode, hepoch, hall.tells htells⟩
  · exact (congrArg BesideDie.dir (hbare d)).trans (hdie d hd).dir
  · exact (congrArg (fun b : BesideDie => tget false b.poison x) (hbare d)).trans ((hdie d hd).poison x hmod hnone)
  · exact congrArg (tget 0 · i) ((hall.acc k).trans (htaken.acc k))
  · have hmem : (c.bdie d).mem = (s.bdie d).mem := by
      by_cases hd : d < 12
      · exact (hdie d hd).mem (hwaits d hd)
      · exact ((hkept d).trans (hothers d (fun h => hd (List.mem_range.1 h)))).mem
    exact congrArg (mget 0 · a) ((congrArg BesideDie.mem (hbare d)).trans hmem)

theorem lost_failsOver (hosc : s.entry.oscDead = false) (hkeyed : Keyed s.fab.roles) (htwin : s.twinNode = some n) (hisolated : s.twin.isolated = false)
    (hfenced : s.twin.fenced = false) (hpaired : s.twin.state = .paired ∨ s.twin.state = .rejoining) (c : Instr)
    (hc : c = .twinYield n ∨ ∃ src, c = .probeAnswer src false ∧ s.twin.probeAt.isSome = true ∧ takesFrom s src = true) : ∃ t, exec c s = .next t ∧ FailedOver s n t := by
  rcases hc with rfl | ⟨src, rfl, hprobe, hfrom⟩
  · exact ⟨_, congrArg (fun t => Host.Outcome.next (settle t)) (if_pos htwin), declareLost_failsOver hosc hkeyed htwin hisolated hfenced hpaired⟩
  · have hspec := declareLost_failsOver (s := s.mapTwin fun w => { w with probeAt := none }) hosc hkeyed htwin hisolated hfenced hpaired
    have hrun : exec (.probeAnswer src false) s = .next (settle (declareLost (s.mapTwin fun w => { w with probeAt := none }))) :=
      congrArg (fun t => Host.Outcome.next (settle t)) (if_neg (by simp [Option.isSome_iff_ne_none.1 hprobe, hfrom]))
    generalize settle (declareLost (s.mapTwin fun w => { w with probeAt := none })) = t at *
    exact ⟨t, hrun, hspec⟩

end

/-- Settles O52: pairing, heartbeats, probes, the failover and the move of a role, each by its own lemma. -/
theorem twinsPairBeatAndFailOver : Obligations.TwinsPairBeatAndFailOver := by
  intro s hosc
  refine ⟨pair_pairs hosc, pairRetry_sends hosc, heartbeatSend_beats hosc, fun hset l hl hfrom => heartbeat_noted hset hl hfrom, hbMissExpiry_suspects hosc,
    fun src hfrom => ⟨probe_replied hosc hfrom, fun n hn => probe_forwarded hosc hfrom hn⟩, probeReplyTimeout_answers hosc,
    fun u hprobe htime => probeNoAnswer_isolates hprobe htime, fun hset src hprobe hfrom => probeAnswer_alive hset hprobe hfrom, ?_,
    fun hset hfenced hpaired r n e => roleMove_self hset hfenced hpaired r n e, ?_⟩
  · intro _ hkeyed n htwin hisolated hfenced hpaired c hc
    exact lost_failsOver hosc hkeyed htwin hisolated hfenced hpaired c hc
  · intro hset r old n e hold hfrom
    exact ⟨fun hlow hknown => roleMove_old hset hold hlow hknown, fun hhigh _ hnew => roleMove_moves hold hfrom hhigh hnew⟩

end Sys2Proof.Machine
end
